-- ==== Sys2Proof/Word.lean ====
section
/-!
DEFINITION. The word types of the block: bytes, and the 32-bit words its registers hold (R3).
-/
namespace Sys2Proof

/-- One byte of memory. -/
abbrev Byte := BitVec 8

/-- One 32-bit register word (R3). -/
abbrev Word := BitVec 32

end Sys2Proof
end

