-- ==== Sys2Proof/Machine/Types.lean ====
section
/-!
DEFINITION. The data the commands carry and the pattern image holds: what a host read returned, parsed picture headers,
engine results, Rolivo frames, and the contents of a pattern (ch. 14). Plain data, no meaning.
-/
namespace Sys2Proof

/-- What a read of host memory returned: bytes, no completion by its timeout, or UR, CA or poisoned data (R285, R286). -/
inductive HostRead where
  | data (b : List Byte)
  | timedOut
  | failed
deriving DecidableEq, Repr

/-- Profile a bitstream signals, as the last column of Table 8.3 names them. -/
inductive BitProfile where
  | constrainedBaseline | h264Main | h264High | h264High10
  | hevcMain | hevcMain10 | hevcMain422 | vp9p0 | vp9p2 | av1Main | vvcMain10 | other
deriving DecidableEq, Repr, Inhabited

/-- Chroma format of a picture. -/
inductive Chroma where
  | c400 | c420 | c422 | c444
deriving DecidableEq, Repr, Inhabited

/-- Coding tools that Table 8.5 refuses. -/
inductive Tool where
  | fieldPicture | mbaff | fieldSeq | largeScaleTile
deriving DecidableEq, Repr, Inhabited

/-- Where a failing header value lies (R167). -/
inductive HeaderLevel where
  | sequence | picture
deriving DecidableEq, Repr, Inhabited

/-- How a picture's coding divides it (Tables 8.2 and 9.x): kind of split unit. -/
inductive SplitKind where
  | wavefront | tiles | slices | whole
deriving DecidableEq, Repr, Inhabited

/-- A split: its kind and the luma samples of each unit in raster order; columns of a uniform tile grid (R178). -/
structure Split where
  kind  : SplitKind
  units : List Nat
  cols  : Nat := 1
deriving DecidableEq, Repr, Inhabited

/-- What a stream says of its colours (R183): description, mastering display and content light level, in its own form. -/
structure Look where
  colour    : List Nat := []
  mastering : Option (List Byte) := none
  light     : Option (List Byte) := none
deriving DecidableEq, Repr, Inhabited

/-- What the front end parses from one access unit (R163); the bitstream syntax is the codecs' own. `refs` and `dpb` are the reference
count and the decoded picture buffer size that the headers at `dpbAt` set; `splits` the divisions that the coding allows; `gdr` the
pictures from a gradual decoding refresh to its recovery point. -/
structure PicInfo where
  codec     : Nat
  profile   : BitProfile
  level     : Nat
  depth     : Nat
  chroma    : Chroma
  width     : Nat
  height    : Nat
  frames    : List Nat
  syntaxBad : Option HeaderLevel
  refs      : Nat
  dpb       : Nat
  dpbAt     : HeaderLevel
  tools     : List Tool
  faultAt   : HeaderLevel
  rap       : Bool
  keyPic    : Bool
  gdr       : Option Nat
  splits    : List Split
  grain     : List Byte
  look      : Look
deriving DecidableEq, Repr, Inhabited

/-- A picture as rows of samples. -/
structure Picture where
  width  : Nat
  height : Nat
  depth  : Nat
  chroma : Chroma
  luma   : List (List Nat)
  cb     : List (List Nat)
  cr     : List (List Nat)
deriving DecidableEq, Repr, Inhabited

/-- An area of luma samples. -/
structure Rect where
  x : Nat
  y : Nat
  w : Nat
  h : Nat
deriving DecidableEq, Repr, Inhabited

/-- Displacement of a prediction block as a function of the sample (X, Y): ((ax X + bx Y + cx) / 2^shift, (ay X + by Y + cy) / 2^shift)
luma samples; a plain vector has no linear part (R173). -/
structure MotionModel where
  ax    : Int
  bx    : Int
  cx    : Int
  ay    : Int
  bY    : Int
  cy    : Int
  shift : Nat
deriving DecidableEq, Repr, Inhabited

/-- A prediction block: its area, for each list the place of its reference in the picture's list and its model, and whether it is intra
block copy (Table 8.9). -/
structure PredBlock where
  area   : Rect
  first  : Option (Nat × MotionModel)
  second : Option (Nat × MotionModel)
  copy   : Bool
deriving DecidableEq, Repr, Inhabited

/-- A frame of an access unit as its codec codes it: the name later frames refer to it by, its display order less that of the unit's
shown frame, its slices or tiles as their macroblocks, CTUs or superblocks in coding order with how many of them can be decoded whole, its
prediction blocks, the names of its references and the names still needed after it. `body` is what the codec's own syntax holds besides. -/
structure CodedFrame where
  name   : Nat
  order  : Int
  slices : List (List Rect × Nat)
  blocks : List PredBlock
  refs   : List Nat
  keep   : List Nat
  body   : List Byte
deriving DecidableEq, Repr, Inhabited

/-- An access unit as its codec codes it: its frames in decoding order, the name of a frame it shows again, if it does, and the
parameters that later units need. -/
structure CodedUnit where
  frames : List CodedFrame
  shown  : Option Nat
  parms  : List Byte
deriving DecidableEq, Repr, Inhabited

/-- A picture's prediction, and its reconstruction before in-loop filtering. -/
structure Recon where
  pred : Picture
  sum  : Picture
deriving DecidableEq, Repr, Inhabited

/-- How a picture is coded (R184). -/
inductive PicKind where
  | key | p | b
deriving DecidableEq, Repr, Inhabited

/-- NAL units and OBUs that an encoder writes around a picture's coded data (R183, R192). -/
inductive HeadUnit where
  | vps | sps | pps | mastering | light | buffering | timing | sequence | frame
deriving DecidableEq, Repr, Inhabited

/-- What an encoder's headers say of a picture: the codec, size and bit depth, its kind and place in presentation order since the last
key picture, its reference lists as such places with whether each is long-term, the AV1 slots it refreshes, whether it is hidden, the
columns of its tiles, its base QP, the buffer model as rate and size in bits and whether it is CBR, and the source's colours. -/
structure PicHead where
  av1     : Bool
  width   : Nat
  height  : Nat
  depth   : Nat
  kind    : PicKind
  poc     : Nat
  list0   : List (Nat × Bool)
  list1   : List (Nat × Bool)
  refresh : Nat
  hidden  : Bool
  rows    : Bool
  cols    : Nat
  qp      : Nat
  hrd     : Option (Nat × Nat × Bool)
  look    : Look
deriving DecidableEq, Repr, Inhabited

/-- A CTU or superblock to be coded: its area, the QP and class of each of its 16 × 16 blocks, the vectors of each of them for each
reference in quarter samples, and whether it is coded as skip or DC blocks (R189, R191, R193). -/
structure CtuIn where
  area   : Rect
  blocks : List (Nat × Nat)
  vecs   : List (List (Int × Int))
  forced : Bool
deriving DecidableEq, Repr, Inhabited

/-- A CTU or superblock coded: its bits and the codec's syntax elements. -/
structure CtuOut where
  bits : Nat
  body : List Byte
deriving DecidableEq, Repr, Inhabited

/-- Motion of one grid block (Table 8.8): vectors in 1/16 luma samples, distances, KIND of Table 8.9. -/
structure Motion where
  dx    : Int
  dy    : Int
  dist  : Int
  dx2   : Int
  dy2   : Int
  dist2 : Int
  kind  : Nat
deriving DecidableEq, Repr

/-- Squared residual of one grid block before scaling by bit depth (R174): sums and sample counts. -/
structure Resid where
  lumaSum   : Nat
  lumaN     : Nat
  chromaSum : Nat
  chromaN   : Nat
deriving DecidableEq, Repr

/-- A candidate box of the detector chart (R201): 1/4 analysis samples, FP32 score, FP32 embedding of 128 elements. -/
structure Candidate where
  x0    : Nat
  y0    : Nat
  x1    : Nat
  y1    : Nat
  cls   : Nat
  score : Word
  emb   : List Word
deriving DecidableEq, Repr

/-- What the completed operation was in its chart's plan: the chart is Iggaong's, so the event says so. -/
inductive OpRole where
  | plain
  | association (ticket source : Nat) (cands : List Candidate)
  | sampleDone (ticket : Nat)
  | optimiser (ticket : Nat) (loss : Word) (finite : Bool) (master : List (List Word))
  | enhanceStart (ticket source : Nat)
deriving DecidableEq, Repr

/-- How an operation ended (R98, R102, R95). -/
inductive OpEnd where
  | ok
  | columnFault (column : Nat)
  | memoryError
deriving DecidableEq, Repr

/-- What the hardware reports of an operation that ends: how, and the single-bit errors that its SRAM reads corrected (R95). -/
structure OpReport where
  how       : OpEnd
  corrected : Nat := 0
deriving DecidableEq, Repr

/-- A port of the Round (R247). -/
inductive Port where
  | east | west
deriving DecidableEq, Repr

/-- Traffic class of a Rolivo frame (Table 12.2). -/
inductive RClass where
  | control | guaranteed | bestEffort | bulk
deriving DecidableEq, Repr

/-- A Rolivo frame (Tables 12.2 and 12.3): header fields, payload bytes, trailer fields. `resv` is nonzero where a
reserved field of the header or trailer is nonzero. -/
structure RFrame where
  type    : Nat
  cls     : RClass
  last    : Bool
  resvBulk : Bool
  resent  : Bool
  turned  : Bool
  dest    : Nat
  src     : Nat
  ttl     : Nat
  lseq    : Nat
  length  : Nat
  ticket  : Nat
  xfer    : Nat
  offset  : Nat
  arg     : Nat
  garment : Nat
  hcrc    : Nat
  payload : List Byte
  pcrc    : Nat
  stomp   : Bool
  nak     : Bool
  ack     : Nat
  credits : List Nat
  resv    : Nat
deriving DecidableEq, Repr

/-- What a HELLO exchange shows (R263, R264): neighbour heard, slipped modules between, or no lock. -/
structure HelloInfo where
  neighbour : Nat
  bypassed  : Nat
  ackLseq   : Nat
deriving DecidableEq, Repr

/-- Access kind of a BAR2 request (R275). -/
inductive Bar2Op where
  | write (b : List Byte)
  | read (n : Nat)
deriving DecidableEq, Repr

/-- Outcome carried by a completion TLP (R286). -/
inductive CplStatus where
  | success (b : List Byte)
  | failed
deriving DecidableEq, Repr

/-- What a slip, trip or wake was caused by (RUNG_LAST_EXIT.CAUSE, R337). -/
inductive WakeCause where
  | host | round | marker | holder
deriving DecidableEq, Repr

/-- Level a recovery runs at (RST_LAST.LEVEL, Table 17.3). -/
inductive RecLevel where
  | engineReset | panelReset (p : Nat) | warmReset | powerCycle
deriving DecidableEq, Repr

/-! ### The pattern image (ch. 14) -/

/-- POLICY section (Table 14.4). -/
structure Policy where
  floor      : Nat
  vmin       : Nat
  rowTicks   : Nat
  cap        : Nat
  base       : Nat
  degrade    : Nat
  sharedMin  : Nat
  chartMib   : Nat
  sharedMib  : Nat
  ceilHbm    : Nat
  hushUs     : Nat
  dozeQms    : Nat
deriving DecidableEq, Repr

/-- One panel of the PANELS section (R132); `ringBase` is where its charts place the completion rings (R98). -/
structure PanelDef where
  id       : Nat
  needles  : List Nat
  dec      : List Nat
  enc      : List Nat
  yokeBase : Nat
  yokeMib  : Nat
  beHbm    : Nat
  beYoke   : Nat
  beRound  : Nat
  ringBase : Nat
deriving DecidableEq, Repr

/-- Kind of a pattern region (R228). -/
inductive RegionKind where
  | segment | window | data | round
deriving DecidableEq, Repr

/-- A pattern region (R228); `role` is the source role a ROUND region takes writes from (R267), `chart` the chart a
SEGMENT or WINDOW region belongs to. -/
structure Region where
  base  : Nat
  size  : Nat
  kind  : RegionKind
  mask  : Nat
  role  : Nat
  chart : Nat
deriving DecidableEq, Repr

/-- A chart segment (R146, R147): home address, 64 KiB blocks, remote store module if any, RESIDENT, and the content that the image
holds for a local home. -/
structure Segment where
  chart    : Nat
  home     : Nat
  blocks   : Nat
  remote   : Option Nat
  resident : Bool
  beOnly   : Bool
  content  : List Byte
deriving DecidableEq, Repr

/-- A chart record (Table 14.5). -/
structure ChartDef where
  chart   : Nat
  panel   : Nat
  minSize : Nat
  seed    : Nat
deriving DecidableEq, Repr

/-- A cost entry (Table 14.6). -/
structure CostEntry where
  pipeline  : Nat
  stage     : Nat
  variant   : Nat
  resource  : Nat
  width     : Nat
  critical  : Bool
  beOnly    : Bool
  price64   : Nat
  price63   : Nat
  price62   : Nat
  pricePass : Nat
  energy    : Nat
  hbm       : Nat
  yoke      : Nat
  round     : Nat
  bulk      : Nat
  fixedNs   : Nat
  contexts  : Nat
  markers   : Nat
  hanks     : Nat
deriving DecidableEq, Repr

/-- What a stage of a pipeline does (ch. 10). -/
inductive StageKind where
  | decode | encode | analysis | superRes | frameGen | adapt | other
deriving DecidableEq, Repr

/-- A stage of a stream-table entry (Table 14.7): role (0 none, 1 analysis, 2 generation, 3 store), candidate panels,
the amount its hand-off marker gains per frame, and its needle masks as (panel, presented size of that panel, needles): a chart record
names its panel, and its variant table a mask for each variant and stage (Table 14.5, VAR_OFF). Its weights are `weightBytes` from the
home address `weightAt`, and the weight area of its needles is at `weightArea` of their local SRAM (R140). `outOff` is the view offset of the
picture that the stage makes (R227). -/
structure StageDef where
  kind       : StageKind
  role       : Nat
  candidates : List Nat
  perFrame   : Nat
  viewOff    : Nat
  needles    : List (Nat × Nat × List Nat)
  weightBytes : Nat
  weightAt   : Nat := 0
  weightArea : Nat := 0
  outOff     : Nat := 0
deriving DecidableEq, Repr

/-- GOP structure of an output (R184). -/
inductive Gop where
  | lowDelay
  | hier (g : Nat)
deriving DecidableEq, Repr

/-- Rate-control mode of an output (Table 9.4): QPs for key, P and each hierarchy layer; rates in kb/s; VBV sizes and initial fullness in kbit. -/
inductive RcMode where
  | cqp (key p : Nat) (layers : List Nat) | cbr (rate vbv init : Nat) | vbr (rate max vbv : Nat) | cq (qp max vbv : Nat)
deriving DecidableEq, Repr

/-- Member of a garment (R43): module, per-module deadline in microseconds, sub-pipeline index. -/
structure Member where
  module   : Nat
  deadline : Nat
  pipeline : Nat
deriving DecidableEq, Repr

/-- A stream-table entry (Tables 14.7 and 10.1). `sendTo` is the module the stream's outputs go to over the Round, if they do
not go to the host, and `sendArg` that module's name for the buffer (Table 12.2), `sendBytes` the bytes of its largest transfer in the buffer plan (R237, R256); `outDepth` is the bit depth of its video output (R182). -/
structure StreamDef where
  index      : Nat
  codecs     : List Nat
  live       : Bool
  stages     : List StageDef
  mfGrid     : Nat
  nbuf       : Nat
  mfBufs     : List Nat
  reBufs     : List Nat
  av1        : Bool
  split      : Split
  gop        : Gop
  keyInterval : Nat
  ltrInterval : Nat
  nref       : Nat
  rc         : RcMode
  roiOffsets : List Int
  roiMaxAge  : Nat
  outW       : Nat
  outH       : Nat
  fgK        : Nat
  cutShare   : Nat
  anEvery    : Nat
  anW        : Nat
  anH        : Nat
  detMin     : Nat
  newMin     : Nat
  nmsIou     : Nat
  matchMin   : Nat
  iouWeight  : Nat
  detMax     : Nat
  trackMax   : Nat
  confirmHits : Nat
  maxMisses  : Nat
  roiMap     : List Nat
  adapt      : Bool
  rank       : Nat
  trainFmt   : Nat
  accum      : Nat
  publishSteps : Nat
  cacheHanks : Nat
  members    : List Member
  sendTo     : Option Nat
  sendArg    : Nat
  sendBytes  : Nat := 0
  outDepth   : Nat := 8
  liveFmt    : Nat := 6
  liveScale  : Nat := 127
  trainMargin : Nat := 0
  trainSeed  : Option Nat := none
  trainRec   : List Byte := []
deriving DecidableEq, Repr

/-- ROUND section (Table 14.4). -/
structure RoundDef where
  moduleId : Option Nat
  roles    : Nat
  ceilG    : Nat
  ceilBulk : Nat
  wrrBe    : Nat
  wrrBulk  : Nat
deriving DecidableEq, Repr

/-- EVENTS section (Table 14.17): routed sources as (source, target, vector), PF vector moderation as (vector, MOD_US). -/
structure EventsDef where
  routes     : List (Nat × Nat × Nat)
  vecMod     : List (Nat × Nat)
  vfMod      : Nat
  collectors : List Nat
deriving DecidableEq, Repr

/-- A pattern: what the sections of Table 14.4 hold. -/
structure Pattern where
  policy  : Policy
  panels  : List PanelDef
  regions : List Region
  charts  : List ChartDef
  segments : List Segment
  costs   : List CostEntry
  streams : List StreamDef
  round   : RoundDef
  events  : EventsDef
deriving DecidableEq, Repr

/-- A directory entry (Table 14.3), with the CRC-32 the section's bytes really have. -/
structure DirEntry where
  kind   : Nat
  offset : Nat
  length : Nat
  crc    : Nat
  actual : Nat
deriving DecidableEq, Repr

/-- An image (R294 to R299). `digest` is the SHA-384 of its bytes, `sigOk` says that its signature block checks
against the identity region's key; `resvOk` says that its reserved bytes are 0. -/
structure Image where
  magic    : Nat
  format   : Nat
  sections : Nat
  imageLen : Nat
  version  : Nat
  minRom   : Nat
  keyIndex : Nat
  buildId  : Nat
  resvOk   : Bool
  dir      : List DirEntry
  digest   : Nat
  sigOk    : Bool
  pattern  : Pattern
deriving DecidableEq, Repr

/-- A commit record (Table 14.8); `crcOk` says that its CRC matches. -/
structure CommitRec where
  magic    : Nat
  seq      : Nat
  imageLen : Nat
  digest   : Nat
  crcOk    : Bool
deriving DecidableEq, Repr

/-- A flash slot: an image, if its sectors hold one, and a commit record, if its last sector is not erased (R294). -/
structure Slot where
  image  : Option Image
  commit : Option CommitRec
deriving DecidableEq, Repr

/-- What a start finds in its surroundings: straps, self-test results, peers that discovery hears, link, how long
it took, and the loops' counts in each window of each provisional row (R35, R100, R133, R155, R177, R373, R260). -/
structure StartEnv where
  straps     : Option Nat
  failCols   : List (Nat × List Nat)
  failMem    : List Nat
  failRouter : List Nat
  failDec    : List Nat
  failEnc    : List Nat
  peers      : List (Nat × Nat × Nat × Nat × Nat)
  dupSerial  : Option Nat
  speed      : Nat
  width      : Nat
  startMs    : Nat
  crystalOk  : Bool
  hotStacks  : List Nat
  provRows   : List (List (List Nat)) := []
deriving DecidableEq, Repr

/-- What the row's end measures (R326): the estimate for the coming row, watts per unit of rate of both kinds of band,
best-effort power outside the arrays (all in mW), and the refitted gain and offset as FP32 words. -/
structure RowEnv where
  estimate : Nat
  wB       : Nat
  wG       : Nat
  beOther  : Nat
  gain     : Word
  offset   : Word
deriving DecidableEq, Repr

end Sys2Proof
end

