-- ==== Sys2Proof/Syntax.lean ====
section
/-!
DEFINITION. The commands of the block: one constructor per row of spec/opcode_table.json, with the operands the
command brings from outside the block. Functions are numbered 0 (PF) and k + 1 (VF k); `q` is a queue local to its
function (R276); `entry` is a 64-byte submission entry (Table 13.6); `tod` a 128-byte descriptor (Table 6.3).
-/
namespace Sys2Proof

/-- A command of the block (rows of the opcode table). -/
inductive Instr where
  /-- REGISTER_WRITE (R4): A BAR0 write to a register with no row of its own is applied under its access code, or discarded and logged if it is narrower than 32 bits or hits no register. -/
  | registerWrite (fn addr size value : Nat)
  /-- ROW_BOUNDARY (R8): At each row boundary the module latches snapshots, advances the row number, restarts live counters and runs the per-row actions. -/
  | rowBoundary (e : RowEnv)
  /-- GAUGE_WINDOW_END (R25): At the end of each 10 µs window every gauge loop's count is scaled into a reading and the row minimum is updated. -/
  | gaugeWindowEnd (counts : List Nat)
  /-- FAST_HOLD_EXPIRE (R31): 50 µs after a fast step, FAST_HOLD clears and further fast steps are allowed. -/
  | fastHoldExpire
  /-- VCORE_SETTLED (R31): The regulator completes settling of a VCORE step within 20 µs of the setpoint change. -/
  | vcoreSettled
  /-- PROVISIONAL_ROW_BOUNDARY (R35): Before the pattern is applied, every 25,000 ticks the step of R30 runs on the provisional row minimum and GAUGE_MIN restarts. -/
  | provisionalRowBoundary
  /-- MARGIN_TIMEOUT (R35): If the row minimum has not reached floor × 1.08 within 64 rows of step 8, the voltage hold is set. -/
  | marginTimeout
  /-- GAUGE_TIME_LO_READ (R37): A read of GAUGE_TIME_LO latches the upper 32 bits of the time base into GAUGE_TIME_HI. -/
  | gaugeTimeLoRead
  /-- CRYSTAL_FAIL (R38): When no crystal tick arrives within 2 µs, the time base runs from the reference loop, the crystal hold is set and guaranteed outputs are marked late. -/
  | crystalFail
  /-- CAST_ON (R46): A doorbelled cast-on request is read, checked in the order of Table 3.3, placed and priced, then accepted with reservations or refused. -/
  | castOn (fn : Nat) (d : HostRead)
  /-- BIND_OFF (R57): A doorbelled bind-off closes the ticket, frogs its contexts or starts a drain, and releases its hanks, markers and reservations. -/
  | bindOff (fn : Nat) (d : HostRead)
  /-- BIND_OFF_DRAIN_END (R57): After the last drained frame of a bind-off with DRAIN commits, the reservations are returned and the response record is written. -/
  | bindOffDrainEnd (ticket : Nat)
  /-- GARMENT_CAST_ON (R59): The lead runs its own checks and sends RESERVE to every member and intermediate module. -/
  | garmentCastOn (fn : Nat) (d : HostRead)
  /-- RESERVE (R59): A member receiving RESERVE runs Table 3.3 on its part, holds the reservation and answers. -/
  | reserve (p : Port) (f : RFrame)
  /-- ANSWER (R59): The lead records a member's answer and sends COMMIT once all have answered OK, or RELEASE on a refusal. -/
  | answer (p : Port) (f : RFrame)
  /-- COMMIT (R59): A member receiving COMMIT turns its hold into the ticket's reservations, or refuses if it has already dropped the hold. -/
  | commit (p : Port) (f : RFrame)
  /-- RELEASE (R59): A member receiving RELEASE drops its held reservation. -/
  | release (p : Port) (f : RFrame)
  /-- GARMENT_ANSWER_TIMEOUT (R59): If some member has not answered 5 ms after RESERVE, the lead sends RELEASE and refuses with GARMENT_TIMEOUT. -/
  | garmentAnswerTimeout (garment : Nat)
  /-- GARMENT_HOLD_EXPIRE (R59): A member drops its hold when neither COMMIT nor RELEASE has arrived within 10 ms of its answer. -/
  | garmentHoldExpire (garment : Nat)
  /-- GARMENT_BIND_OFF (R59): A member receiving the Control BIND_OFF message ends its part of the garment. -/
  | garmentBindOff (p : Port) (f : RFrame)
  /-- MATMUL (R115): A MATMUL descriptor issues on the array over BATCH problems. -/
  | matmul (n seq : Nat) (tod : List Byte)
  /-- CONV (R119): A CONV descriptor issues on the array as a grouped matrix multiply over the convolution window. -/
  | conv (n seq : Nat) (tod : List Byte)
  /-- DWCONV (R93): A DWCONV descriptor issues on the vector unit in the fixed tap and channel order. -/
  | dwconv (n seq : Nat) (tod : List Byte)
  /-- POOL (R123): A POOL descriptor issues on the vector unit as maximum or average pooling. -/
  | pool (n seq : Nat) (tod : List Byte)
  /-- ELTWISE (R124): An ELTWISE descriptor applies its elementwise operation on the vector unit. -/
  | eltwise (n seq : Nat) (tod : List Byte)
  /-- NORM (R125): A NORM descriptor applies layer or RMS normalisation to each row. -/
  | norm (n seq : Nat) (tod : List Byte)
  /-- SOFTMAX (R126): A SOFTMAX descriptor computes the softmax of each row. -/
  | softmax (n seq : Nat) (tod : List Byte)
  /-- GATHER (R128): A GATHER descriptor copies indexed source rows into its output. -/
  | gather (n seq : Nat) (tod : List Byte)
  /-- SCATTER (R128): A SCATTER descriptor overwrites or adds rows at the listed destination indices. -/
  | scatter (n seq : Nat) (tod : List Byte)
  /-- ARGMAX (R127): An ARGMAX descriptor writes the index and value of the largest channel for each row. -/
  | argmax (n seq : Nat) (tod : List Byte)
  /-- S2D (R129): An S2D descriptor writes the space-to-depth regrouped tensor. -/
  | s2d (n seq : Nat) (tod : List Byte)
  /-- MARUB (R130): A MARUB descriptor is run on the shared Marub engine, one at a time in order of arrival. -/
  | marub (n seq : Nat) (tod : List Byte)
  /-- SYNC (R113): A SYNC descriptor does no computation but waits and signals markers. -/
  | sync (n seq : Nat) (tod : List Byte)
  /-- OPERATION_COMPLETE (R98): An operation writes its completion entry, releases its tag and tiles, and signals its marker. -/
  | operationComplete (n tag : Nat) (e : OpReport) (stalls withheld : Nat) (r : OpRole)
  /-- WEIGHT_SWAP_COMPLETE (R140): A weight swap ends and the needle may run bands of the stage. -/
  | weightSwapComplete (n : Nat)
  /-- DMA_TRANSFER_COMPLETE (R96): A needle DMA transfer completes into or out of a slot, which releases waiting operations or transfers. -/
  | dmaTransferComplete (n id : Nat)
  /-- CHUNK_ADMIT (R151): A waiting traffic chunk is admitted once its bucket is positive, and its bytes are subtracted. -/
  | chunkAdmit (panel res : Nat) (guaranteed : Bool)
  /-- CHART_FILL_COMPLETE (R148): A chart-cache fill arrives, serves the waiting read and fills the block. -/
  | chartFillComplete (block : Nat) (d : List Byte)
  /-- CHART_FILL_TIMEOUT (R149): An unanswered remote fill is retried once in the other direction, and after a second failure it is counted and logged. -/
  | chartFillTimeout (block : Nat)
  /-- RESIDENT_SEGMENT_LOADED (R147): A RESIDENT segment finishes loading into the chart cache, and WARM is set when all are loaded. -/
  | residentSegmentLoaded (seg : Nat)
  /-- DECODE_SEGMENT_END (R159): At the end of a decode segment the core may switch to a more urgent picture, or abandon a frogged one. -/
  | decodeSegmentEnd (core : Nat)
  /-- DECODE_COMPLETE (R14): After its picture, motion field and residual energy are written, the decode core signals the stream's decode marker. -/
  | decodeComplete (core : Nat) (poisoned : Bool)
  /-- FIELD_RELEASE_TIMEOUT (R175): A wait on the field release marker expires, so the picture is decoded without its field and the frame is voided. -/
  | fieldReleaseTimeout (ticket source : Nat)
  /-- SKIP_RECORD_COMMIT (R168): The skip record of a refused submission commits within 100 µs of the refusal. -/
  | skipRecordCommit (ticket : Nat)
  /-- LANE_START (R178): An encode lane that was waiting starts on a core as the core becomes free. -/
  | laneStart (core : Nat)
  /-- ENCODE_SEGMENT_END (R180): At the end of an encode segment the core may switch pictures, or abandon a frogged output. -/
  | encodeSegmentEnd (core : Nat)
  /-- ENCODE_COMPLETE (R181): An encoded output is finished, and its completion record commits it and updates the committed reference pool. -/
  | encodeComplete (core : Nat) (poisoned : Bool)
  /-- WAIT_TIMEOUT (R18): A chart marker wait expires, and the frame's output is replaced by a WAIT_TIMEOUT skip record. -/
  | waitTimeout (ticket source stage : Nat)
  /-- SAMPLE_DROPPED (R218): A sample whose forward pass has not started within 32 × COST / floor pace is dropped. -/
  | sampleDropped (ticket sample : Nat)
  /-- HANK_ALLOC (R239): An ALLOC of n hanks is granted at once or waits under quota and FIFO order. -/
  | hankAlloc (ticket tag n : Nat)
  /-- HANK_ALLOC_GRANT (R239): A waiting hank allocation is granted once hanks and its order allow. -/
  | hankAllocGrant
  /-- HANK_SHARE (R237): A HELD hank becomes SHARED with a named releaser and readers, or the operation is refused. -/
  | hankShare (h caller releaser : Nat) (readers : List Nat)
  /-- HANK_PASS (R237): A HELD hank's OWNER is changed to the target tag, or the operation is refused. -/
  | hankPass (h caller tag : Nat)
  /-- HANK_FREE (R237): A hank is freed into SCRUB, or the free is refused with DOUBLE_FREE or BAD_RELEASER. -/
  | hankFree (h caller : Nat)
  /-- HANK_SCRUB_DONE (R240): The scrubber finishes zeroing a clear SCRUB hank and puts it on the ring's tail. -/
  | hankScrubDone (h : Nat)
  /-- HBM_PARITY_ERROR (R230): On a command/address parity alert the controller replays its retry buffer, and fails the pseudo-channel after four replays in a row. -/
  | hbmParityError (pc : Nat)
  /-- ROW_IDLE_CLOSE (R231): A row left open for 2 µs without access is closed. -/
  | rowIdleClose (pc bank : Nat)
  /-- PATROL_SCRUB (R232): A patrol scrub reads all of HBM once every 24 hours and writes back corrected words. -/
  | patrolScrub (fixed bad : List Nat)
  /-- DATA (R257): A DATA frame is received: it is checked, then forwarded or written at OFFSET into the transfer's hanks. -/
  | data (p : Port) (f : RFrame)
  /-- FETCH (R267): A store module answers a FETCH with a 64 KiB Bulk transfer, or with a zero-length DATA frame. -/
  | fetch (p : Port) (f : RFrame)
  /-- IDLE (R254): An IDLE frame delivers ACK and credits for the reverse direction. -/
  | idle (p : Port) (f : RFrame)
  /-- NAK (R252): A received NAK makes the sender resend from the next LSEQ after the acknowledged one. -/
  | nak (p : Port) (f : RFrame)
  /-- HELLO (R263): A HELLO exchange sets BYPASSED, replays unacknowledged frames and updates routing, or leads to wrap or unwrap. -/
  | hello (p : Port) (h : HelloInfo)
  /-- DISCOVER (R260): A DISCOVER frame is recorded against its port and forwarded, or, on returning to its origin, gives the ring size. -/
  | discover (p : Port) (f : RFrame)
  /-- MARKER_SIGNAL (R245): A received MARKER_SIGNAL message adds its amount to the local copy of a garment marker. -/
  | markerSignal (p : Port) (f : RFrame)
  /-- GARMENT_ABORT (R363): A received GARMENT_ABORT ends the member's part within 1 ms and is forwarded to members not yet informed. -/
  | garmentAbort (p : Port) (f : RFrame)
  /-- XFER_ACK (R257): A received XFER_ACK releases the source's hold on the transfer's hanks. -/
  | xferAck (p : Port) (f : RFrame)
  /-- MSG_ACK (R258): A received MSG_ACK ends resending of the acknowledged Control message. -/
  | msgAck (p : Port) (f : RFrame)
  /-- ALARM (R325): A collector logs a received ALARM message as a REMOTE record under source ROUND. -/
  | alarm (p : Port) (f : RFrame)
  /-- ALARM_SUMMARY (R325): A collector logs a received ALARM_SUMMARY as a SUMMARY record. -/
  | alarmSummary (p : Port) (f : RFrame)
  /-- RING_CHANGE (R261): A received RING_CHANGE updates routing entries and starts a discovery run. -/
  | ringChange (p : Port) (f : RFrame)
  /-- IDLE_SEND (R254): When a port has no traffic, an IDLE frame carrying credits is sent at least every 1 µs. -/
  | idleSend (p : Port)
  /-- FRAME_BOUNDARY (R255): At each frame boundary the egress port chooses the next frame by class order. -/
  | frameBoundary (p : Port)
  /-- LINK_FAULT (R252): A replay unacknowledged for 20 µs, or 16 FEC failures in a row, puts the link in fault. -/
  | linkFault (p : Port)
  /-- XFER_ACK_TIMEOUT (R257): A transfer without XFER_ACK after 100 µs is resent, and after a second 100 µs it fails. -/
  | xferAckTimeout (xfer : Nat)
  /-- MSG_ACK_TIMEOUT (R258): A Control message not acknowledged within 100 µs is resent. -/
  | msgAckTimeout (dest eseq : Nat)
  /-- CONTROL_GAP (R258): An ESEQ gap open for 300 µs is a fault of the garment concerned. -/
  | controlGap (src : Nat)
  /-- DISCOVERY_RUN (R260): Every 1,024 rows the module sends DISCOVER on both ports and marks IDs not heard for two runs unreachable. -/
  | discoveryRun
  /-- LOSS_OF_LOCK (R263): The neighbours of a slipped module lose lock and reacquire through the bypass using their kept presets. -/
  | lossOfLock (p : Port)
  /-- WRAP (R264): A port that cannot lock in time, or that has a link fault, is wrapped, and frames are turned onto the other ring. -/
  | wrap (p : Port)
  /-- PLANNED_SLIP (R262): After RING_CHANGE SLIP_PENDING and the neighbours' drain, or after 10 µs, the switches close. -/
  | plannedSlip
  /-- PERST_RELEASE (R303): The release of PERST# starts the start-up sequence of Table 14.9, or the start of R341. -/
  | perstRelease (e : StartEnv)
  /-- PERST_ASSERT (R358): PERST# asserted after PME_TO_Ack enters Nap; otherwise it starts a chip reset. -/
  | perstAssert
  /-- BAR2_ACCESS (R275): A BAR2 access reaches the hank named by its handle, or is dropped or returns zeros if the host tag does not hold it. -/
  | bar2Access (fn handle offset : Nat) (op : Bar2Op)
  /-- QUEUE_ENABLE (R276): Setting Q_CTRL.ENABLE with valid sizes resets the queue pointers and starts the queue. -/
  | queueEnable (fn q : Nat) (value : Word)
  /-- QUEUE_DISABLE (R276): Clearing Q_CTRL.ENABLE stops the queue, or is ignored and logged while a live ticket names it. -/
  | queueDisable (fn q : Nat) (value : Word)
  /-- RESUME (R285): Setting Q_CTRL.RESUME restarts SQ fetching at Q_SQ_HEAD after ERROR. -/
  | resume (fn q : Nat)
  /-- SQ_TAIL_WRITE (R277): A write of Q_SQ_TAIL hands the module the entries up to the new tail, or sets BAD_DOORBELL. -/
  | sqTailWrite (fn q : Nat) (value : Word)
  /-- CQ_HEAD_WRITE (R281): A write of Q_CQ_HEAD consumes CQ records and updates QUEUE pending state and the idle hint, or sets BAD_DOORBELL. -/
  | cqHeadWrite (fn q : Nat) (value : Word)
  /-- NOP (R279): A NOP entry is accepted and answered. -/
  | nop (fn q : Nat) (entry : List Byte)
  /-- FRAME (R280): A FRAME entry hands over part of an access unit, and its END part makes the unit arrive for the input filter. -/
  | frame (fn q : Nat) (entry : List Byte) (d : HostRead) (pic : PicInfo)
  /-- SAMPLE (R215): A SAMPLE entry reads an augmentation descriptor and makes the sample ready, or queues its file-class decode. -/
  | sample (fn q : Nat) (entry : List Byte) (d : HostRead) (pic : PicInfo)
  /-- ALLOC (R239): A host ALLOC entry allocates hanks to the host tag and writes their handles, or is refused with NO_HANKS. -/
  | alloc (fn q : Nat) (entry : List Byte)
  /-- FREE (R237): A host FREE entry frees each listed handle and counts the frees refused. -/
  | free (fn q : Nat) (entry : List Byte) (d : HostRead)
  /-- COPY_OUT (R279): A COPY_OUT entry writes LEN bytes of the listed hanks to host memory. -/
  | copyOut (fn q : Nat) (entry : List Byte) (d : HostRead)
  /-- SIGNAL (R243): A host SIGNAL entry adds VALUE to the ticket's marker. -/
  | signal (fn q : Nat) (entry : List Byte)
  /-- WAIT (R279): A host WAIT entry is answered when the marker count reaches VALUE. -/
  | wait (fn q : Nat) (entry : List Byte)
  /-- HOST_WAIT_TIMEOUT (R279): A host WAIT is answered TIMEOUT once TIMEOUT_US has passed since acceptance. -/
  | hostWaitTimeout (q tag : Nat)
  /-- COMPLETION_TLP (R286): A received completion is matched to its tag and accepted, discarded or treated as a failure. -/
  | completionTlp (tag : Nat) (st : CplStatus)
  /-- COMPLETION_TIMEOUT (R285): A read without completion by its timeout is logged in AER, its tag is quarantined and its DMA ends. -/
  | completionTimeout (tag : Nat)
  /-- TAG_RELEASE (R285): A quarantined tag is freed at twice the timeout when no completion has come. -/
  | tagRelease (tag : Nat)
  /-- BUS_MASTER_DISABLE (R287): Clearing Bus Master Enable stops the function's requests, ends its host DMA and holds its CQ records. -/
  | busMasterDisable (fn : Nat)
  /-- BUS_MASTER_ENABLE (R287): Setting Bus Master Enable writes the held records in order and sends pending messages. -/
  | busMasterEnable (fn : Nat)
  /-- FUNCTION_LEVEL_RESET (R288): A Function Level Reset fences the function, ends its tickets, frees its hanks and resets its registers. -/
  | functionLevelReset (fn : Nat)
  /-- HOT_RESET (R289): A Hot Reset or loss of the data link acts as a Function Level Reset on every function. -/
  | hotReset
  /-- VF_ENABLE_CLEAR (R289): Clearing VF Enable acts as a Function Level Reset on every VF. -/
  | vfEnableClear
  /-- NUMVFS_LOWER (R289): Lowering NumVFs acts as a Function Level Reset on the VFs removed. -/
  | numvfsLower (n : Nat)
  /-- L1_ENTRY (R290): After 10 µs of link idle with ASPM L1 enabled, the endpoint requests L1 or an L1 substate. -/
  | l1Entry
  /-- D3HOT_ENTRY (R291): Entering D3hot ends the function's tickets and DMA, and may take the module to Doze. -/
  | d3hotEntry (fn : Nat)
  /-- D0_RETURN (R291): The return to D0 resets the function as in step 5 of R288. -/
  | d0Return (fn : Nat)
  /-- PME_TURN_OFF (R340): PME_Turn_Off ends every ticket, closes admission, writes the keep, slips and answers PME_TO_Ack. -/
  | pmeTurnOff
  /-- DOE_DISCOVERY (R292): A DOE Discovery request is answered with the supported protocols. -/
  | doeDiscovery (index : Nat)
  /-- GET_VERSION (R292): The SPDM responder answers GET_VERSION. -/
  | getVersion (overSmbus : Bool) (arg : Nat)
  /-- GET_CAPABILITIES (R292): The SPDM responder answers GET_CAPABILITIES. -/
  | getCapabilities (overSmbus : Bool) (arg : Nat)
  /-- NEGOTIATE_ALGORITHMS (R292): The SPDM responder answers NEGOTIATE_ALGORITHMS with P-384 and SHA-384. -/
  | negotiateAlgorithms (overSmbus : Bool) (arg : Nat)
  /-- GET_DIGESTS (R292): The SPDM responder answers GET_DIGESTS. -/
  | getDigests (overSmbus : Bool) (arg : Nat)
  /-- GET_CERTIFICATE (R292): The SPDM responder returns the certificate chain of slot 0. -/
  | getCertificate (overSmbus : Bool) (arg : Nat)
  /-- CHALLENGE (R292): The SPDM responder answers CHALLENGE with a signed response. -/
  | challenge (overSmbus : Bool) (arg : Nat)
  /-- GET_MEASUREMENTS (R292): The SPDM responder returns the SHA-384 measurements of Table 13.13. -/
  | getMeasurements (overSmbus : Bool) (arg : Nat)
  /-- SLOT_WRITE (R307): PAT_WR_CTRL.GO stages, checks, erases, programs and verifies an image, then commits the target slot. -/
  | slotWrite (fn : Nat) (img : Option Image)
  /-- EVENT_ACK (R313): A write of EVC_ACK_s acknowledges a source against its COUNT and restores its log budget. -/
  | eventAck (src seen : Nat)
  /-- IDLE_HINT (R318): A write of EVC_IDLE sets a PF vector's idle hint, so a request to it is sent at once. -/
  | idleHint (v : Nat)
  /-- EVC_DISABLE (R319): A write of EVC_CTRL.DISABLE holds or releases every host message. -/
  | evcDisable (on : Bool)
  /-- MODERATION_TIMER_EXPIRE (R317): When a vector's moderation timer expires with REQ set, its message is sent within 1 µs. -/
  | moderationTimerExpire (fn v : Nat)
  /-- VECTOR_UNMASK (R316): When a vector with REQ set becomes unmasked and enabled, its message is sent. -/
  | vectorUnmask (fn v : Nat)
  /-- ALARM_ACK (R324): A write of LOG_ALARM_ACK_k acknowledges alarm slot k against its REPEAT. -/
  | alarmAck (k rep : Nat)
  /-- LOG_COPY (R321): The holder copies kept records from the on-chip tier to the HBM tier within 1 ms. -/
  | logCopy
  /-- LOG_PERSIST (R321): ERROR and ALARM records are programmed into the persistent tier a page at a time. -/
  | logPersist
  /-- POWER_SAMPLE (R326): A 10 kHz input power sample is taken, range-checked and compared with the cap for a fast cut. -/
  | powerSample (mw mv : Nat)
  /-- THERMAL_READING (R328): Every 100 µs the thermal sensors are read, implausible sensors are retired and a Trip reading is acted on. -/
  | thermalReading (temps : List Int)
  /-- HUSH_ENTRY (R337): After HUSH_US with no ready work, the module enters Hush. -/
  | hushEntry
  /-- DOZE_ENTRY (R337): After DOZE_QMS more in Hush, with no guaranteed ticket live and LIMIT = 2, the module enters Doze. -/
  | dozeEntry
  /-- WAKE (R337): A wake event returns the module to Run, or abandons a rung entry, and records the cause. -/
  | wake (c : WakeCause)
  /-- TRIP (R343): A unit of work that overruns its watchdog limit trips its engine, and recovery starts. -/
  | trip (engine context : Nat)
  /-- TINK_REPLAY_END (R354): A suspect's replay completes or trips, and the tink moves on, frogs the culprit or escalates. -/
  | tinkReplayEnd (tripped : Bool)
  /-- RECOVERY_OVERRUN (R352): A recovery level that fails or overruns its bound escalates to the next level. -/
  | recoveryOverrun (l : RecLevel)
  /-- HEARTBEAT_TIMEOUT (R360): A holder core silent for 1 ms, or all cores silent for 10 ms, starts a warm chip reset. -/
  | heartbeatTimeout (all : Bool)
  /-- FROG (R349): A host RST_REQ of LEVEL 1 frogs a context of a live PF ticket, or is refused. -/
  | frog (context : Nat)
  /-- PANEL_RESET (R356): A host RST_REQ of LEVEL 2 resets a panel, frogs its contexts and resets its engines. -/
  | panelReset (p : Nat)
  /-- WARM_CHIP_RESET (R357): A host RST_REQ of LEVEL 3 runs the warm chip reset of Table 17.4. -/
  | warmChipReset
  /-- MAINTENANCE_START (R359): A host RST_REQ of LEVEL 4 resets the chip and enters maintenance start. -/
  | maintenanceStart
  /-- POWER_CYCLE (R361): A host RST_REQ of LEVEL 5 starts the power-cycle request of Table 17.5. -/
  | powerCycle
  /-- MOD_RST_ASSERT (R376): MOD_RST_N low runs steps 1 to 4 of Table 17.4 and holds the module in reset with its slip closed. -/
  | modRstAssert
  /-- MOD_RST_RELEASE (R376): The release of MOD_RST_N starts a full start under Table 14.9. -/
  | modRstRelease (e : StartEnv)
  /-- POWER_ENABLE_RISE (R374): PWR_EN rising brings the on-module rails into regulation and raises PG. -/
  | powerEnableRise
  /-- POWER_ENABLE_FALL (R375): PWR_EN falling takes the module directly to Dormant and releases TRAY_REQ_N. -/
  | powerEnableFall
  /-- INPUT_UNDERVOLTAGE (R375): P48V below 38 V while PWR_EN is high acts as a fall of PWR_EN. -/
  | inputUndervoltage
  /-- AUX_UP (R374): P3V3_AUX coming into range powers the keep, time base, wake logic and SMBus endpoint. -/
  | auxUp
  /-- AUX_LOSS (R375): Loss of P3V3_AUX turns everything off, including the keep and the time base. -/
  | auxLoss
  /-- STRAPS_UNSTABLE (R373): When no stable SLOT_ID value appears within 1 ms, STRAPS_UNSTABLE is set and logged. -/
  | strapsUnstable
  /-- ALERT_RESPONSE (R377): The module answers the SMBus Alert Response Address and releases ALERT_N when it wins arbitration. -/
  | alertResponse (won : Bool)
  /-- SET_ENDPOINT_ID (R379): An MCTP Set Endpoint ID message is answered. -/
  | setEndpointId (eid : Nat)
  /-- GET_ENDPOINT_ID (R379): An MCTP Get Endpoint ID message is answered. -/
  | getEndpointId
  /-- GET_MCTP_VERSION_SUPPORT (R379): An MCTP Get MCTP Version Support message is answered. -/
  | getMctpVersionSupport
  /-- GET_MESSAGE_TYPE_SUPPORT (R379): An MCTP Get Message Type Support message is answered. -/
  | getMessageTypeSupport
  /-- GET_VENDOR_DEFINED_MESSAGE_SUPPORT (R379): An MCTP Get Vendor Defined Message Support message is answered. -/
  | getVendorDefinedMessageSupport (selector : Nat)
  /-- GET_STATUS (R380): The SMBus GET_STATUS command returns the rung and the main status registers. -/
  | getStatus
  /-- READ_REG (R389): The SMBus READ_REG command returns a register of the permitted blocks, or BAD_COMMAND. -/
  | readReg (off : Nat)
  /-- READ_LOG (R380): The SMBus READ_LOG command returns one or two records from the HBM tier. -/
  | readLog (seq count : Nat)
  /-- ACK_ALARM (R380): The SMBus ACK_ALARM command acts as a write of LOG_ALARM_ACK_k. -/
  | ackAlarm (k rep : Nat)
  /-- REQUEST_RESET (R389): The SMBus REQUEST_RESET command acts as a PF write of RST_REQ with LEVEL 3 or 4, sharing its BUSY bit. -/
  | requestReset (level : Nat)
  /-- LANE_LOCKED (R263): A Round port's receiver locks on its neighbour, directly or through the bypass, sets its LOCKED lanes and moves on to the HELLO exchange. -/
  | laneLocked (p : Port) (lanes : Nat)
  /-- PCIE_LINK_UP (R269): The PCI Express link trains back to L0 and PCIE_LINK.UP, SPEED and WIDTH are set. -/
  | pcieLinkUp (speed width : Nat)
  /-- VF_ENABLE_SET (R273): The host sets VF Enable or raises NumVFs, and the VFs come into existence with their headers, slices, queues and PCIE_FN_STATUS.ENABLED set. -/
  | vfEnableSet (n : Nat)
  /-- INPUT_VOLTAGE_RESTORED (R375): P48V comes back into range, which together with PWR_EN low for 100 ms and a new rise allows power-up again. -/
  | inputVoltageRestored
  /-- HBM_STACK_TEMPERATURE (R233): An HBM stack's reading crosses 85 °C, which switches refresh to or from the doubled rate and sets or clears HBM_STATUS.HOT. -/
  | hbmStackTemperature (stack : Nat) (hot : Bool)
  /-- SLOT_WRITE_END (R307): A slot write ends after flash erase, programming, read-back and commit, or on verify failure; PAT_WR_STATUS takes its result, BUSY clears, PAT_WRITE takes an edge and deferred persistent log programming resumes. -/
  | slotWriteEnd (readBack : Nat)
deriving DecidableEq, Repr

end Sys2Proof
end

