-- ==== Sys2Proof/Decode.lean ====
section
/-!
DEFINITION. What a word spells. No row of spec/opcode_table.json gives bits, so no word spells a command (log 3).
-/
namespace Sys2Proof

/-- The command a word of `nbits` bits spells by the table's bits: none, since no row of the table has bits. -/
def decodeTableWord (_nbits _w : Nat) : Option Instr := none

end Sys2Proof
end

