-- ==== Sys2Proof/Machine/State.lean ====
section
/-!
DEFINITION. The state of the block as plain data: every register, queue, buffer, counter, mode and pin the spec gives it,
the addressed memories, and the queue of waiting commands. A register's value at reset is the spec's "At reset" value;
where the spec gives none it is 0, as notes/assumptions/5.md says.
-/
namespace Sys2Proof.Machine

/-- A sparse table of numbered things, keys rising: a number with no entry stands at its reset value. -/
abbrev Tbl (α : Type) := List (Nat × α)

/-- Addressed memory: (address, byte) pairs, addresses strictly rising, no byte equal to what an unlisted address reads as. -/
abbrev Mem := List Host.Cell

/-- A live per-row counter and its _SNAP copy (R8). -/
structure Ctr where
  live : Nat := 0
  snap : Nat := 0
deriving DecidableEq, Repr

/-! ### Gauge (ch. 2) -/

/-- A gauge loop (R25, R28): last reading, retired, windows rejected in a row, calibration factor as a fraction (R25; log 9). -/
structure Loop where
  reading  : Nat := 0
  retired  : Bool := false
  rejected : Nat := 0
  calNum   : Nat := 1
  calDen   : Nat := 10
deriving DecidableEq, Repr

/-- The GAUGE block, the time base and the voltage loop. VCORE is held in half millivolts because of the 2.5 mV step. `firstRow` says
that the row boundary of step 8 of Table 14.9 is still to come (R36). -/
structure Gauge where
  time        : Nat := 0
  timeHi      : Nat := 0
  floor       : Nat := 1800
  vmin        : Nat := 600
  vcore2      : Nat := 1600
  settled2    : Nat := 1600
  settleAt    : Option Nat := none
  minPace     : Nat := 0xFFF
  minLoop     : Nat := 0
  minPaceSnap : Nat := 0xFFF
  minLoopSnap : Nat := 0
  meanSum     : Nat := 0
  meanCount   : Nat := 0
  meanSnap    : Nat := 0
  snapRow     : Nat := 0
  fast        : Ctr := {}
  below       : Ctr := {}
  rowLen      : Nat := 25000
  rowNum      : Nat := 0
  rowStart    : Nat := 0
  firstRow    : Bool := false
  windowStart : Nat := 0
  calmRows    : Nat := 0
  fastHold    : Option Nat := none
  loops       : Tbl Loop := []
  holdVoltage : Bool := false
  holdCrystal : Bool := false
  crystalFail : Bool := false
  implausible : Nat := 0
  goodRows    : Nat := 0
  startRows   : Nat := 0
  marginMet   : Bool := false
  provisional : Bool := true
  running     : Bool := false
deriving DecidableEq, Repr

/-! ### Tension and temperature (ch. 16) -/

/-- Thermal states of Table 16.1 that a row can be in. -/
inductive Thermal where
  | normal | warm | hot | critical
deriving DecidableEq, Repr

/-- A thermal sensor (R328), reading in 0.25 °C. -/
structure Sensor where
  temp    : Int := 0
  retired : Bool := false
  ignored : Nat := 0
deriving DecidableEq, Repr

/-- The TENS block; powers in mW, temperatures in 0.25 °C. -/
structure Tens where
  isOver      : Bool := false
  shedding  : Bool := false
  calFrozen : Bool := false
  vinRange  : Bool := false
  thermal   : Thermal := .normal
  degrade   : Nat := 0
  cap       : Nat := 3000
  base      : Nat := 0
  capEff    : Nat := 3000
  gFloor    : Nat := 64
  rateG     : Nat := 64
  rateB     : Nat := 64
  gain      : Word := 0
  offset    : Word := 0
  sampleSum : Nat := 0
  sampleOk  : Nat := 0
  sampleBad : Nat := 0
  meas      : Nat := 0
  measSnap  : Nat := 0
  est       : Nat := 0
  estSnap   : Nat := 0
  estUsed   : Option Nat := none
  tj        : Option Int := none
  tjLast    : Option Int := none
  tjSnap    : Int := 0
  fastCut   : Ctr := {}
  shed      : Ctr := {}
  snapRow   : Nat := 0
  vin       : Nat := 0
  sensors   : Tbl Sensor := []
  restoreRows : Nat := 0
  calmOver  : Nat := 0
  mismatch  : Nat := 0
  clearRows : Nat := 0
  scaled    : Bool := false
  wB        : Nat := 0
  wG        : Nat := 0
deriving DecidableEq, Repr

/-! ### Events and the log (ch. 15) -/

/-- An event source (Table 15.10). Target 0 none, 1 host vector, 2 holder core. -/
structure Src where
  pending : Bool := false
  sat     : Bool := false
  target  : Nat := 0
  func    : Nat := 0
  vector  : Nat := 0
  count   : Nat := 0
deriving DecidableEq, Repr

/-- A host vector (Table 15.12) with its MSI-X table entry (R283). -/
structure Vec where
  req    : Bool := false
  idle   : Bool := false
  timer  : Option Nat := none
  modUs  : Nat := 0
  addrLo : Word := 0
  addrHi : Word := 0
  data   : Word := 0
  masked : Bool := true
deriving DecidableEq, Repr

/-- The EVC block. `vecs` is keyed by function × 2048 + vector. `msgs` are the host messages sent (function, vector) and
`holder` the messages to holder cores (core, source), newest first (log 8). -/
structure Evc where
  disable : Bool := false
  vfMod   : Nat := 0
  sent    : Ctr := {}
  snapRow : Nat := 0
  srcs    : Tbl Src := []
  vecs    : Tbl Vec := []
  msgs    : List (Nat × Nat) := []
  holder  : List (Nat × Nat) := []
deriving DecidableEq, Repr

/-- Incidents the spec says are logged; their CODE numbers are open but for source HANK (log 13). -/
inductive Incident where
  | regDiscard | ackIgnored | summary | implausible | loopRetired | garRise | crystalFail
  | doubleFree | badReleaser | badState | noHank | bar2Drop
  | markerOverflow | markerForeign | releaseRefused | queueIgnored | cqHeadIgnored | chartFillFail
  | tensionOver | degraded | restored | thermalHot | thermalCritical | thermalTrip | vinRange | calFrozen | sensorRetired
  | rungChange | trip | waitTimeout | frogDone | engineReset | panelReset | warmReset | tinkEnd | garmentAbort
  | powerCycle | hostRequest | requestIgnored | columnFault | memoryError | hbmUncorrectable | hbmPcFailed
  | strapsUnstable | duplicateId | overbooked | ringChange | remoteAlarm | roundWriteRefused | patIgnored | patWrite
  | buildId | needleRetired | videoFault
deriving DecidableEq, Repr

/-- A log record (Table 15.2). -/
structure LogRec where
  time     : Nat
  seq      : Nat
  source   : Nat
  severity : Nat
  summary  : Bool
  remote   : Bool
  alarm    : Nat
  code     : Nat
  context  : Option Nat
  origin   : Nat
  argHi    : Nat
  ticket   : Nat
  arg      : Nat
deriving DecidableEq, Repr

/-- An alarm slot (Table 15.5). -/
structure AlarmSlot where
  first    : Option LogRec := none
  lastTime : Nat := 0
  rep      : Nat := 0
  sat      : Bool := false
deriving DecidableEq, Repr

/-- Budget and suppressed count of a source (Table 15.16). -/
structure LogSrc where
  budget     : Nat := 32
  suppressed : Nat := 0
deriving DecidableEq, Repr

/-- The LOG block. Tiers hold the newest record first. -/
structure Log where
  chip      : List LogRec := []
  hbm       : List LogRec := []
  pers      : List LogRec := []
  persCopy  : List LogRec := []
  toCopy    : List LogRec := []
  toPersist : List LogRec := []
  seq       : Nat := 0
  kept      : Bool := false
  lost      : Nat := 0
  headChip  : Nat := 0
  headHbm   : Nat := 0
  headPers  : Nat := 0
  srcs      : Tbl LogSrc := []
  origins   : Tbl Nat := []
  rowSupp   : List Nat := []
  alarms    : Tbl AlarmSlot := []
  alarmSent : Tbl Nat := []
  alarmSupp : Tbl Nat := []
  keptCtr   : Ctr := {}
  suppCtr   : Ctr := {}
  snapRow   : Nat := 0
  hbmReady  : Bool := false
  persReady : Bool := false
  persDefer : Bool := false
  aperture  : Word := 0
deriving DecidableEq, Repr

/-! ### Host endpoint (ch. 13) -/

/-- What a DMA read was made for (Table 13.11). -/
inductive ReadFor where
  | sqEntries (q : Nat)
  | entry (q tag : Nat)
  | castDescriptor (fn : Nat)
  | image
deriving DecidableEq, Repr

/-- State of a read tag (R284 to R288). -/
inductive TagState where
  | outstanding | quarantinedTimeout | quarantinedFlr | discard
deriving DecidableEq, Repr

/-- A read tag in use or in quarantine. -/
structure Tag where
  fn      : Nat
  purpose : ReadFor
  sent    : Nat
  timeout : Nat
  state   : TagState
deriving DecidableEq, Repr

/-- A memory write the endpoint sends to the host: address and bytes. -/
structure HostWrite where
  addr  : Nat
  bytes : List Byte
deriving DecidableEq, Repr

/-- A CQ record (Table 13.8) before its SQ_HEAD and PHASE are added at the write. -/
structure CqRec where
  tag    : Nat
  status : Nat
  kind   : Nat
  ticket : Nat
  source : Nat
  list   : Nat
  bytes  : Nat
  pts    : Nat
  late   : Bool
deriving DecidableEq, Repr

/-- A cast-on response that waits for Bus Master Enable: the record and its REASON (R42, R287). -/
structure HeldResp where
  write  : HostWrite
  reason : Nat
deriving DecidableEq, Repr

/-- A function (Table 13.17) and the configuration settings the rules read. `held` are its CQ records, `heldResp` its cast-on responses
that wait for Bus Master Enable (R287). -/
structure Fun where
  enabled    : Bool := false
  bme        : Bool := false
  flrBusy    : Bool := false
  fenced     : Bool := false
  d3hot      : Bool := false
  msixEnable : Bool := false
  funcMask   : Bool := false
  cplTimeout : Nat := 0
  held       : List (Nat × CqRec) := []
  heldResp   : List HeldResp := []
deriving DecidableEq, Repr

/-- PCI Express link power state (Table 13.15). -/
inductive LinkPower where
  | l0 | l1 | l11 | l12
deriving DecidableEq, Repr

/-- What the SPDM responder or the DOE mailbox answered last (R292; log 21). -/
inductive SpdmAnswer where
  | none
  | doeProtocol (vendor type : Nat) (next : Nat)
  | version (v : Nat)
  | capabilities
  | algorithms (asym hash : Nat)
  | digests (slotMask : Nat)
  | certificate (slot offset : Nat)
  | challengeAuth (slot : Nat)
  | measurements (indices : List Nat) (digests : List Nat) (signed : Bool)
  | error
deriving DecidableEq, Repr

/-- The PCIE block, read tags and functions. `doe` and `smbSpdm` are the answers, newest first. -/
structure Pcie where
  up        : Bool := false
  speed     : Nat := 0
  width     : Nat := 0
  power     : LinkPower := .l0
  tags      : Tbl Tag := []
  late      : Ctr := {}
  unexp     : Ctr := {}
  cplTo     : Ctr := {}
  barDrop   : Ctr := {}
  rdKib     : Ctr := {}
  wrKib     : Ctr := {}
  rdBytes   : Nat := 0
  wrBytes   : Nat := 0
  snapRow   : Nat := 0
  fns       : Tbl Fun := [(0, { enabled := true })]
  numVfs    : Nat := 0
  vfEnable  : Bool := false
  ltrUs     : Nat := 1000
  aerTimeouts : Nat := 0
  aerUnexpected : Nat := 0
  pmeAck    : Bool := false
  bar2Data  : List Byte := []
  doe       : List SpdmAnswer := []
  smbSpdm   : List SpdmAnswer := []
deriving DecidableEq, Repr

/-- Queue states of Table 13.20. -/
inductive QState where
  | disabled | running | held | error
deriving DecidableEq, Repr

/-- A part of an access unit handed over (R280): hank list and bytes. -/
structure UnitPart where
  hanks : List Nat
  bytes : Nat
deriving DecidableEq, Repr

/-- A queue pair (Tables 13.18 to 13.20). `unit` is the access unit being handed over, as (ticket, parts);
`cqCount` the records written and not yet consumed. -/
structure Queue where
  sqBase   : Nat := 0
  cqBase   : Nat := 0
  enable   : Bool := false
  resume   : Bool := false
  cqLog2   : Nat := 4
  sqLog2   : Nat := 4
  vector   : Nat := 0
  sqTail   : Nat := 0
  sqHead   : Nat := 0
  cqHead   : Nat := 0
  cqTail   : Nat := 0
  cqCount  : Nat := 0
  phase    : Bool := true
  state    : QState := .disabled
  badBell  : Bool := false
  reserved : Nat := 0
  accepted : Ctr := {}
  cqWait   : Ctr := {}
  snapRow  : Nat := 0
  unit     : Option (Nat × List UnitPart) := none
deriving DecidableEq, Repr

/-- A host WAIT pending (R279): global queue, tag, ticket, marker, value, deadline in ticks. -/
structure HostWait where
  q        : Nat
  tag      : Nat
  ticket   : Nat
  marker   : Nat
  value    : Nat
  deadline : Nat
deriving DecidableEq, Repr

/-! ### Admission and tickets (ch. 3) -/

/-- CAST registers of one function (R41). `req` is the request rung and not yet answered. -/
structure CastFn where
  busy    : Bool := false
  dropped : Bool := false
  reqLo   : Word := 0
  reqHi   : Word := 0
  last    : Nat := 0
deriving DecidableEq, Repr

/-- A stage as placed for a ticket (R47 to R51, R136): panel, resource, price, width, period as a fraction of a second,
standalone time in ns, sub-deadline in ns and, exactly, as the fraction dA / dB, transfer allowance, marker map index, contexts, allowances in MB/s. `tested` says that
R50 and R52 count it: a guaranteed ticket's stage that is not best-effort only. -/
structure Placed where
  stage    : Nat
  kind     : StageKind
  panel    : Nat
  resource : Nat
  price    : Nat
  width    : Nat
  critical : Bool
  tested   : Bool
  tA       : Nat
  tB       : Nat
  eNs      : Nat
  dNs      : Nat
  dA       : Nat := 0
  dB       : Nat := 1
  fixedNs  : Nat
  energy   : Nat
  hbm      : Nat
  yoke     : Nat
  round    : Nat
  bulk     : Nat
  nCtx     : Nat
  nMrk     : Nat
  hanks    : Nat
  perFrame : Nat
  viewOff  : Nat
  outOff   : Nat := 0
  needles  : List Nat
  contexts : List Nat
deriving DecidableEq, Repr

/-- Marks of a reference buffer (Table 9.3), with the number of the coded picture it holds; a LONG one with its AV1 reference
slot (R187). -/
inductive RefMark where
  | free | current
  | short (idx : Nat)
  | long (idx slot : Nat)
deriving DecidableEq, Repr

/-- A frame buffer of the reference pool (R186): its mark, the hanks that hold its picture, the picture's place in presentation order, its
AV1 reference slot, and the chosen vector of each of its 16 × 16 blocks with the places to its reference (R189). -/
structure PoolBuf where
  mark  : RefMark := .free
  hanks : List Nat := []
  pos   : Nat := 0
  slot  : Nat := 0
  vecs  : List (Option (Int × Int × Int)) := []
deriving DecidableEq, Repr

/-- Encoder state of an output (R184 to R194): its buffers, output pictures since the last key, pictures coded since the start, VBV
fullness in bits, bits and QPs of the last pictures (newest first), place of the last key picture in presentation order, and whether a
skip record has come since the last picture (R188). -/
structure EncState where
  bufs      : List PoolBuf := []
  sinceKey  : Nat := 0
  coded     : Nat := 0
  vbv       : Nat := 0
  history   : List (Nat × Nat) := []
  keyPos    : Nat := 0
  skipped   : Bool := false
deriving DecidableEq, Repr

/-- Where a frame's output stands. -/
inductive OutState where
  | waiting                           -- its picture is not ready
  | coding                            -- encode lanes work it
  | ready                             -- finished, waits its place (R12)
  | skipped (reason : Nat) (shed : Bool)  -- a skip record stands in its place
deriving DecidableEq, Repr

/-- An output of a stream in presentation order (R12): SUB 0 of a source frame, or generated frame SUB j after it. `order`
numbers the accepted frame whose work it waits for; `group` numbers the coded group it belongs to (R185). Of a picture being coded or
coded: `qp` its base QP, `regions` those chosen for it as its first lane `started` (R17), `hidden` whether it is shown later (R184), `after` the encoder state once it is
coded, which its commit makes the committed one (R186). -/
structure Out where
  source   : Nat
  sub      : Nat
  order    : Nat
  state    : OutState
  arrival  : Nat
  pts      : Nat
  rep      : Bool
  key      : Bool
  conceal  : Nat := 0
  grain    : List Byte := []
  degraded : Bool := false
  throttled : Bool := false
  adapter  : Nat := 0
  changed  : Bool := false
  roi      : Option Nat := none
  roiCount : Nat := 0
  group    : Nat := 0
  unit     : List Byte := []
  look     : Look := {}
  qp       : Nat := 0
  regions  : List (Nat × Nat × Nat × Nat × Nat) := []
  hidden   : Bool := false
  started  : Bool := false
  after    : EncState := {}
deriving DecidableEq, Repr

/-- A skip record of a refused submission waiting to commit (R168), with the unit's hanks that are freed then (R280). -/
structure Skip where
  source  : Nat
  reason  : Nat
  arrival : Nat
  pts     : Nat
  hanks   : List Nat
deriving DecidableEq, Repr

/-- An accepted frame in flight: the parts of its unit, the decoded picture's hanks, the stages for which it is voided (`lost`),
whether its field is given up (R175) and since when the core waits to write it, whether the generated frames before it are repeats
(R197, R199), whether its detection is still to come (R16), and its number among the analysed frames (R200). `upHanks` holds the picture
that super-resolution makes of it, `genHanks` the frames generated before it, `anHanks` its analysis picture (R196, R197, R200). -/
structure FrameRt where
  source   : Nat
  order    : Nat
  arrival  : Nat
  pts      : Nat
  pic      : PicInfo
  parts    : List UnitPart
  picHanks : List Nat := []
  upHanks  : List Nat := []
  genHanks : List (List Nat) := []
  anHanks  : List Nat := []
  decoding : Bool := false
  decoded  : Bool := false
  lost     : List Nat := []
  fieldLost : Bool := false
  fieldWait : Option Nat := none
  still    : Bool := false
  detDue   : Bool := false
  anIdx    : Option Nat := none
deriving DecidableEq, Repr

/-- A detection committed for ROI use (R210, R211): source index and regions (box, class). -/
structure DetResult where
  source  : Nat
  regions : List (Nat × Nat × Nat × Nat × Nat)
deriving DecidableEq, Repr

/-- A track entry (Table 10.2). State 0 FREE, 1 TENTATIVE, 2 CONFIRMED, 3 LOST; boxes in 1/4 analysis samples; EMB as
stored GS8 codes with one E8 scale. `lastAn` is the number of the analysed frame LAST. -/
structure Track where
  slot    : Nat
  gen     : Nat
  ticket  : Nat
  state   : Nat
  cls     : Nat
  hits    : Nat
  misses  : Nat
  x0      : Nat
  y0      : Nat
  x1      : Nat
  y1      : Nat
  vx      : Int
  vy      : Int
  first   : Nat
  last    : Nat
  lastAn  : Nat
  hist    : List (Nat × Nat × Nat)
  embScale : Nat
  emb     : List Byte
deriving DecidableEq, Repr

/-- State of a sample of adaptation (R215 to R218). -/
inductive SampleState where
  | decoding | ready (since : Nat) | running | used
deriving DecidableEq, Repr

/-- A submitted sample (Table 10.7): what its descriptor says, when it was accepted, its state, the descriptor and its picture's headers. -/
structure Sample where
  id       : Nat
  epoch    : Nat
  cost     : Nat
  accepted : Nat
  state    : SampleState
  desc     : List Byte
  pic      : PicInfo
deriving DecidableEq, Repr

/-- An event of adaptation to be reported (Tables 10.8, 10.9); `source` is open for a version that no frame has begun with. -/
structure AdaptEv where
  event   : Nat
  reason  : Nat
  epoch   : Nat
  sample  : Nat
  step    : Nat
  version : Nat
  loss    : Nat
  elapsed : Nat
  list    : List Nat
  source  : Option Nat
deriving DecidableEq, Repr

/-- Adaptation of a ticket (R213 to R222). `master` holds the FP32 words of each adapter tensor, `train` the training copy with the
abs-max `records` of its tensors, `copies` the hanks of the master, the training and the two live copies (R214). `cache` is SAMPLE_ID with its picture's format and hanks, oldest insertion first; `used` the
samples of the step so far; `steps` the committed steps; `live` the two live copies, `liveB` which is in force; `events` the events
not yet made into records; `target` and `input` what the running sample trains on (R216). -/
structure Adapt where
  samples  : List Sample := []
  cache    : List (Nat × PicInfo × List Nat) := []
  used     : List Nat := []
  steps    : Nat := 0
  sincePub : Nat := 0
  rejected : Nat := 0
  version  : Nat := 0
  liveB    : Bool := false
  stopped  : Bool := false
  master   : List (List Word) := []
  train    : List Byte := []
  records  : List (List Byte) := []
  live     : List (List Byte) := [[], []]
  copies   : List (List Nat) := [[], [], [], []]
  events   : List AdaptEv := []
  target   : Option Picture := none
  input    : Option Picture := none
deriving DecidableEq, Repr

/-- A record unit of its own waiting to commit (R207): DETECT or ADAPT records, the source and PTS of its completion record,
the tick after which it is late, and the regions it gives the encoder (R210, R211). -/
structure RecUnit where
  recs   : List Byte
  source : Nat
  pts    : Nat
  due    : Option Nat
  det    : Option DetResult := none
  tracks : Option (List Track) := none
deriving DecidableEq, Repr

/-- A picture that a stream's decoder holds for reference: its name, display order, and samples (R169, R170). -/
structure HeldPic where
  name  : Nat
  order : Int
  pic   : Picture
deriving DecidableEq, Repr

/-- The motion field of a decoded picture, as the encoder's search reads it (R189); none where it was not written (R175). -/
structure FieldRt where
  order  : Nat
  width  : Nat
  height : Nat
  motion : Option (List Motion)
deriving DecidableEq, Repr

/-- A stream's decoder: the parameters its units need, the pictures it holds, the picture output last (R169), the motion fields of the last
pictures, newest first, and the submissions left to a recovery point (R162). -/
structure DecState where
  parms  : List Byte := []
  held   : List HeldPic := []
  last   : Option Picture := none
  fields : List FieldRt := []
  gdr    : Option Nat := none
deriving DecidableEq, Repr

/-- A live ticket. `id` is its number, or for a part of another module's garment the number with the lead's ID above it, since each lead
numbers on its own (R53, R59; log 110). `drainAt` is when a drain was decided, `partDrain` says that the lead has bound this part off (R57). `hopMods` are the modules between the members of a
garment that this module leads (R60). The rest is the request's limits (Table 3.1), its placement and reservations, and the stream's running
state: `roundPath` lists (destination, Guaranteed MB/s, RESV Bulk MB/s) reserved on the Round; `spare` counts CQ records reserved
for the generated frames of the last interval (R198, R278); `cqWait` says that its next output waits for CQ room. `bucketRest` is the part
of a bit, over 25,000, that the bit bucket has still to gain (R165); `begun` is the last frame whose enhancement began, with its adapter
version (R220); `voided` lists stage and frame of the work that the stages pass over
(R348); `outWait` is the output that the encoder, or without video the commit, waits for, as source index, SUB and since when (R18);
`sentOuts`, `sentRecs` and `sentSkips` count the first outputs, record units and skip records that are on their way over the Round (R11). -/
structure Ticket where
  id         : Nat
  fn         : Nat
  guaranteed : Bool
  outVideo   : Bool
  outCramar  : Bool
  srcRound   : Bool
  pipeline   : Nat
  codec      : Nat
  level      : Nat
  profile    : Nat
  queue      : Nat
  maxW       : Nat
  maxH       : Nat
  rateNum    : Nat
  rateDen    : Nat
  kbps       : Nat
  deadlineUs : Nat
  quota      : Nat
  priority   : Nat
  garment    : Option Nat
  lead       : Nat
  members    : List Nat
  hopMods    : List Nat := []
  placed     : List Placed
  contexts   : List Nat
  markers    : List Nat
  roundPath  : List (Nat × Nat × Nat)
  power      : Nat
  degraded   : Bool := false
  closing    : Bool := false
  drainTag   : Option (Nat × Nat) := none
  drainAt    : Nat := 0
  partDrain  : Bool := false
  lastAcc    : Option Nat := none
  lastSource : Option Nat := none
  bucket     : Nat := 0
  waitRap    : Bool := true
  nextSource : Nat := 0
  nextOrder  : Nat := 0
  nextAn     : Nat := 0
  frames     : List FrameRt := []
  outs       : List Out := []
  skips      : List Skip := []
  units      : List RecUnit := []
  spare      : Nat := 0
  groups     : Nat := 0
  cqWait     : Bool := false
  lastSub    : Option (Nat × Nat) := none
  prevPts    : Option Nat := none
  det        : Option DetResult := none
  enc        : EncState := {}
  encDone    : EncState := {}
  dec        : DecState := {}
  bucketRest : Nat := 0
  begun      : Option (Nat × Nat) := none
  voided     : List (Nat × Nat) := []
  outWait    : Option (Nat × Nat × Nat) := none
  sentOuts   : Nat := 0
  sentRecs   : Nat := 0
  sentSkips  : Nat := 0
  adapt      : Adapt := {}
deriving DecidableEq, Repr

/-- A reservation this member holds for a garment (R59), with the moment it drops it; `hop` says that the module only lies
between two members and holds Round bandwidth alone (R60). -/
structure GarmentHold where
  garment : Nat
  expires : Nat
  hop     : Bool
  ticket  : Ticket
deriving DecidableEq, Repr

/-- A garment this module leads and has not decided yet (R59): the request's tag and response address, when RESERVE was
sent, the modules asked and those that have not answered, and the lead's own part. -/
structure GarmentLead where
  garment : Nat
  fn      : Nat
  reqTag  : Nat
  respAddr : Nat
  sentAt  : Nat
  asked   : List Nat
  due     : List Nat
  price   : Nat
  ticket  : Ticket
deriving DecidableEq, Repr

/-- Round bandwidth of a garment that runs through this module (R60): lead, garment, ticket, reservations by destination. -/
structure GarmentHop where
  garment : Nat
  lead    : Nat
  ticket  : Nat
  path    : List (Nat × Nat × Nat)
deriving DecidableEq, Repr

/-- A request that the holder takes in turn (R45): a function's doorbell, or a RESERVE that came over the Round. -/
inductive Ask where
  | bell (fn : Nat)
  | peer (f : RFrame)
deriving DecidableEq, Repr

/-- The CAST block. `order` holds doorbells and RESERVEs in the order they came. Tickets in the order cast on. `lastTicket` is kept in the keep (R53). -/
structure Cast where
  fns        : Tbl CastFn := []
  order      : List Ask := []
  closed     : Bool := true
  tickets    : List Ticket := []
  closedIds  : List (Nat × Nat) := []
  lastTicket : Nat := 0
  holds      : List GarmentHold := []
  leads      : List GarmentLead := []
  hops       : List GarmentHop := []
  arrived    : Ctr := {}
  committed  : Ctr := {}
  late       : Ctr := {}
  skipped    : Ctr := {}
  refused    : Ctr := {}
  snapRow    : Nat := 0
deriving DecidableEq, Repr

/-! ### Hanks and markers (ch. 11) -/

/-- Hank states of Table 11.5. -/
inductive HankState where
  | free | held | shared | scrub
deriving DecidableEq, Repr

/-- A hank's record (R236). A SHARED hank that the holder holds after a frog keeps its readers (R241). -/
structure HankRec where
  state   : HankState := .free
  owner   : Nat := 0xFFFF
  ticket  : Nat := 0
  readers : List Nat := []
deriving DecidableEq, Repr

/-- A waiting allocation (R239). -/
structure AllocWait where
  ticket : Nat
  tag    : Nat
  n      : Nat
  isOver   : Bool
deriving DecidableEq, Repr

/-- The HANK block. The free ring is `fresh` to 2,097,151 and then `ring`; `cached` counts the entries at its head that the
on-chip cache holds (R239). `scrub` is the scrub order (R240). `views` is keyed by context × 4096 + entry (R227); `windows` by
function × 131072 + slot (R275). -/
structure Hank where
  recs      : Tbl HankRec := []
  fresh     : Nat := 0
  ring      : List Nat := []
  cached    : Nat := 0
  scrub     : List Nat := []
  waiters   : List AllocWait := []
  windows   : Tbl Nat := []
  views     : Tbl Nat := []
  sharedMin : Nat := 0
  ready     : Bool := false
  allocCtr  : Ctr := {}
  waitCtr   : Ctr := {}
  refused   : Ctr := {}
  snapRow   : Nat := 0
  lastIdx   : Nat := 0
  lastValid : Bool := false
  lastReason : Nat := 0
  lastTag   : Nat := 0xFFFF
deriving DecidableEq, Repr

/-- A marker (Table 11.14). Scope 0 free, 1 local, 2 garment, 3 holder. `time` is the whole reading of the time base at the last signal, of
which MRK_TIME shows the low half; `past` holds (count, reading) of each signal, newest first: when a count was reached (R18, R49). -/
structure Marker where
  count    : Nat := 0
  overflow : Bool := false
  scope    : Nat := 0
  ticket   : Nat := 0
  context  : Nat := 0
  time     : Nat := 0
  past     : List (Nat × Nat) := []
deriving DecidableEq, Repr

/-! ### Needles (ch. 5, 6) -/

/-- A byte range of the flat memory: base and length. -/
abbrev Range := Nat × Nat

/-- An operation in flight (R97, R98): fields kept to its end, its descriptor, the aux record and the outlier lists read at issue (R111), tiles
claimed and spilled, flat ranges read and written, abs-max records named, slots used, streaming stitches, the lowest NDL_ISSUE_RATE since
issue (R85), and the operand bytes its transfers brought, by flat address (R96). `bad` says that a transfer brought it poisoned data; `frame`
is the frame its context works on, if its descriptors name one (R14). -/
structure OpRt where
  tag      : Nat
  seq      : Nat
  opcode   : Nat
  context  : Nat
  status   : Nat
  flags    : Nat
  stitches : Nat
  busy     : Nat
  cost     : Nat
  issued   : Nat
  tiles    : Nat
  visits   : Nat
  spilled  : Nat
  reads    : List Range
  writes   : List Range
  records  : List Range
  slots    : List Range
  desc     : List Byte
  auxRec   : List Byte
  listA    : List Nat
  listB    : List Nat
  loaded   : List (Nat × List Byte)
  rate     : Nat
  signal   : Option (Nat × Nat)
  bandEnd  : Bool
  bad      : Bool
  frame    : Option Nat
deriving DecidableEq, Repr

/-- A descriptor waiting to issue: position in the stream and bytes. -/
structure TodWait where
  seq : Nat
  tod : List Byte
deriving DecidableEq, Repr

/-- A DMA transfer of a needle (R96): the flat ranges it moves, into the slot at `dst` one after another or out of the needle, and the
pieces that follow it into the same slot. Its time runs from `since`, when the last of its chunks was admitted: all of them are asked for at once,
and what comes before is waiting on a regulator (R343). -/
structure Dma where
  id      : Nat
  opTag   : Nat
  context : Nat
  runs    : List Range
  dst     : Nat
  inward  : Bool
  rest    : List (List Range)
  since   : Nat := 0
deriving DecidableEq, Repr
/-- Bytes that some ranges hold. -/
def bytesOf (rs : List Range) : Nat := (rs.map (fun r => r.2)).sum
/-- Bytes that a transfer moves. -/
def Dma.bytes (d : Dma) : Nat := bytesOf d.runs

/-- A weight swap in progress (R140): the stage as (pipeline, stage), where its weights lie and where they go, and their bytes. -/
structure Swap where
  key   : Nat × Nat
  src   : Nat
  dst   : Nat
  bytes : Nat
deriving DecidableEq, Repr

/-- A needle (Tables 5.8 to 5.13). `weights` is the stage whose weights the weight area holds, as (ticket's pipeline,
stage); `swap` the swap in progress; `band` the context whose band runs; `okEnds` the OK entries written at the newest reading of the time
base, as (reading, context, entry) (R58); `frames` the frame that each context's descriptors are for, and `since` the moment from which a
context's first descriptor waits (R14, R18). -/
structure Needle where
  retired   : Bool := false
  testing   : Bool := true
  routerBad : Bool := false
  panel     : Option Nat := none
  columns   : Nat := 0
  ops       : List OpRt := []
  waiting   : List TodWait := []
  freeTiles : Nat := 8
  spillTag  : Option Nat := none
  ringIdx   : Nat := 0
  ringBase  : Nat := 0
  dma       : List Dma := []
  dmaNext   : Nat := 0
  weights   : Option (Nat × Nat) := none
  swap      : Option Swap := none
  okEnds    : List (Nat × Nat × List Byte) := []
  band      : Option Nat := none
  frames    : Tbl Nat := []
  since     : Tbl Nat := []
  lastBe    : Nat := 0
  busy      : Ctr := {}
  opsCtr    : Ctr := {}
  spillCtr  : Ctr := {}
  throttled : Ctr := {}
  satCtr    : Ctr := {}
  nonfinCtr : Ctr := {}
  dmaRd     : Ctr := {}
  dmaWr     : Ctr := {}
  rdRest    : Nat := 0
  wrRest    : Nat := 0
  snapRow   : Nat := 0
  faultValid : Bool := false
  faultCol  : Nat := 0
  faultTag  : Nat := 0
  faultCtx  : Nat := 0
  sramCe    : Nat := 0
  runtime   : Bool := false
  failed    : Nat := 0
  failCols  : List Nat := []
  rowFaults : Nat := 0
deriving DecidableEq, Repr

/-- The needle array and the shared Marub engine, whose queue holds (needle, tag) in order of arrival (R130). -/
structure Needles where
  tab   : Tbl Needle := []
  marub : List (Nat × Nat) := []
deriving DecidableEq, Repr

/-! ### Panels and the chart cache (ch. 7) -/

/-- A waiting chunk (R151): resource 0 HBM, 1 yoke, 2 Round; bytes; guaranteed context; what it belongs to: (needle, transfer), (64 + needle, 0)
for a weight swap, (128, block) for a fill, (192 + core, 0) for a decode core, (224 + core, 0) for an encode core. -/
structure Chunk where
  res   : Nat
  bytes : Nat
  guar  : Bool
  own   : Option (Nat × Nat)
deriving DecidableEq, Repr

/-- A panel (Tables 7.5 to 7.8) with its buckets in bytes, indexed by resource. -/
structure Panel where
  valid     : Bool := false
  offline   : Bool := false
  sharedOn  : Bool := false
  declared  : List Nat := []
  presented : List Nat := []
  min       : Nat := 0
  dec       : List Nat := []
  enc       : List Nat := []
  yokeBase  : Nat := 0
  yokeSize  : Nat := 0
  gRate     : List Nat := [0, 0, 0]
  bRate     : List Nat := [0, 0, 0]
  gBucket   : List Int := [0, 0, 0]
  bBucket   : List Int := [0, 0, 0]
  waiting   : List Chunk := []
  gStall    : Ctr := {}
  bStall    : Ctr := {}
  swap      : Ctr := {}
  swapRest  : Nat := 0
  shcHit    : Ctr := {}
deriving DecidableEq, Repr

/-- A fill in flight (R148, R149): home address / 64 KiB, panel and bucket charged, store module of a remote home, retried
in the other direction, block to be kept, waiting since; `seg` is the RESIDENT segment it loads (R147); `failed` that its retry failed too,
so that what waits for it waits on (R149). -/
structure Fill where
  block   : Nat
  panel   : Nat
  guar    : Bool
  remote  : Option Nat
  retried : Bool
  keep    : Bool
  since   : Nat
  seg     : Option Nat
  failed  : Bool := false
deriving DecidableEq, Repr

/-- The PNL block and the caches of the yoke. `cached` holds unpinned blocks, most recently used first; `shc` the
shared-cache lines as (256 B line number, panel), most recently used first; `loaded` and `failedSegs` the RESIDENT segments
loaded and those whose remote load failed and is retried. -/
structure Pnl where
  panels   : Tbl Panel := []
  chartMib : Nat := 0
  sharedMib : Nat := 0
  ceilHbm  : Nat := 0
  warm     : Bool := false
  pinned   : List Nat := []
  cached   : List Nat := []
  fills    : List Fill := []
  loaded   : List Nat := []
  failedSegs : List Nat := []
  shc      : List (Nat × Nat) := []
  hit      : Ctr := {}
  miss     : Ctr := {}
  remote   : Ctr := {}
  evict    : Ctr := {}
  snapRow  : Nat := 0
  fail     : Nat := 0
deriving DecidableEq, Repr

/-! ### Video cores (ch. 8, 9) -/

/-- A picture's share on a core: ticket, source, SUB for encode lanes (for decode 1 marks a sample of adaptation), lane number,
samples assigned, class of R158, lanes of the picture, absolute sub-deadline and start of its first segment in ticks, abandoned
(R176, R181), and whether its picture's traffic has been issued (R151). -/
structure Job where
  ticket  : Nat
  context : Nat
  source  : Nat
  sub     : Nat
  lane    : Nat
  samples : Nat
  cls     : Nat
  width   : Nat
  due     : Nat := 0
  start   : Nat := 0
  abandon : Bool := false
  charged : Bool := false
deriving DecidableEq, Repr

/-- A decode or encode core (Tables 8.13, 9.7); `saved` is its context store (R159). -/
structure VCore where
  testing : Bool := true
  offline : Bool := false
  job     : Option Job := none
  saved   : List Job := []
  busy    : Ctr := {}
deriving DecidableEq, Repr

/-- The VDEC block. `ready` lists lanes ready and on no core, in order of arrival. -/
structure Vdec where
  cores     : Tbl VCore := []
  ready     : List Job := []
  lastValid : Bool := false
  lastCtx   : Nat := 0
  lastReason : Nat := 0
  pics      : Ctr := {}
  samples   : Ctr := {}
  refused   : Ctr := {}
  concealed : Ctr := {}
  preempt   : Ctr := {}
  snapRow   : Nat := 0
  lastLive : Nat := 0
  lastFile : Nat := 0
deriving DecidableEq, Repr

/-- The VENC block. `waiting` lists lanes that wait for a core (R178). -/
structure Venc where
  cores   : Tbl VCore := []
  waiting : List Job := []
  pics    : Ctr := {}
  samples : Ctr := {}
  kib     : Ctr := {}
  kibRest : Nat := 0
  skipped : Ctr := {}
  preempt : Ctr := {}
  clamp   : Ctr := {}
  filler  : Ctr := {}
  snapRow : Nat := 0
  lastLive : Nat := 0
  lastFile : Nat := 0
deriving DecidableEq, Repr

/-- The track table (R204, R205): entries in force, and the generation each slot last had. -/
structure Tracks where
  live : List Track := []
  gens : Tbl Nat := []
deriving DecidableEq, Repr

/-! ### HBM (ch. 11) -/

/-- A DRAM bank (R231): predictor, open row, tick of the last access. Keyed by pseudo-channel × 64 + bank. -/
structure Bank where
  pred   : Nat := 1
  row    : Option Nat := none
  access : Nat := 0
deriving DecidableEq, Repr

/-- The HBM block. -/
structure Hbm where
  trained  : Bool := false
  selfRefresh : Bool := false
  hotStacks : List Nat := []
  failedPcs : List Nat := []
  ce       : Nat := 0
  ue       : Nat := 0
  lastErr  : Option (Nat × Nat) := none
  poisoned : List Nat := []
  rdKib    : Ctr := {}
  wrKib    : Ctr := {}
  pageHit  : Ctr := {}
  parity   : Ctr := {}
  snapRow  : Nat := 0
  rdRest   : Nat := 0
  wrRest   : Nat := 0
  rowReplays : Tbl Nat := []
  banks    : Tbl Bank := []
deriving DecidableEq, Repr

/-! ### The Round (ch. 12) -/

/-- Port states of Table 12.11. -/
inductive PortState where
  | down | training | up | wrapped
deriving DecidableEq, Repr

/-- One port: link state, LSEQ both ways, replay buffer, cumulative credits by class, receive occupancy, egress queues (frames in
transit with the port they came in by), frames sent on the wire (log 8), the last frames sent as (beats, Control), newest first. -/
structure RPort where
  state     : PortState := .down
  bypassed  : Nat := 0
  locked    : Nat := 0
  nbValid   : Bool := false
  neighbour : Nat := 0
  txSeq     : Nat := 0
  rxSeq     : Nat := 0
  acked     : Nat := 0
  replay    : List RFrame := []
  replayAt  : Option Nat := none
  dropping  : Bool := false
  used      : List Nat := [0, 0, 0, 0]
  granted   : List Nat := [512, 4096, 2048, 2048]
  freed     : List Nat := [0, 0, 0, 0]
  egress    : List RFrame := []
  transit   : List (Port × RFrame) := []
  sent      : List RFrame := []
  recent    : List (Nat × Bool) := []
  wrrBe     : Nat := 0
  wrrBulk   : Nat := 0
  fecFails  : Nat := 0
  presets   : List Nat := []
deriving DecidableEq, Repr

/-- A routing entry (Table 12.12); 0x7FF means no path. -/
structure Route where
  valid : Bool := false
  west  : Bool := false
  hopsE : Nat := 0x7FF
  hopsW : Nat := 0x7FF
deriving DecidableEq, Repr

/-- A module that discovery has heard (R260). -/
structure Peer where
  serial  : Nat
  roles   : Nat
  rung    : Nat
  lastRun : Nat
deriving DecidableEq, Repr

/-- What the last frame of an output's transfer commits (R11): the first outputs of its ticket, whether skip records, its first record unit,
or its first skip record. -/
inductive SentKind where
  | head (n : Nat) (skip : Bool)
  | recs
  | skip
deriving DecidableEq, Repr

/-- An output on its way over the Round: its ticket, its kind, the tick after which it is late, and the places in its last frame of the
FRAME records that carry COMMIT and LATE, with the tick after which each is late (R55, R208). -/
structure Sent where
  ticket : Nat
  kind   : SentKind
  due    : Option Nat
  stamps : List (Nat × Option Nat)
deriving DecidableEq, Repr

/-- An outgoing transfer (R257): destination, frames, hanks kept, frames still in the port, when the last one left, resent;
`output` is the output that it commits. -/
structure XferOut where
  xfer   : Nat
  dest   : Nat
  cls    : RClass
  ticket : Nat
  garment : Nat
  arg    : Nat
  resv   : Bool
  hanks  : List Nat
  frames : List RFrame
  unsent : Nat
  leftAt : Option Nat
  resent : Bool
  output : Option Sent
  west   : Bool
deriving DecidableEq, Repr

/-- An incoming transfer (R257): hanks by index, bytes received as (offset, length), end if LAST came. -/
structure XferIn where
  src    : Nat
  xfer   : Nat
  ticket : Nat
  hanks  : List Nat
  got    : Nat
  resent : Bool
  done   : Bool
deriving DecidableEq, Repr

/-- Control-message order with one peer (R258): next ESEQ out and in, messages awaiting MSG_ACK, messages held for a
missing predecessor, since when the gap is open. -/
structure Eseq where
  nextOut : Nat := 0
  nextIn  : Nat := 0
  unacked : List (Nat × RFrame × Nat) := []
  held    : List RFrame := []
  gapAt   : Option Nat := none
deriving DecidableEq, Repr

/-- The RND block. -/
structure Rnd where
  east      : RPort := {}
  west      : RPort := {}
  overbooked : Bool := false
  dupId     : Bool := false
  slipped   : Bool := true
  ready     : Bool := false
  fromPattern : Bool := false
  straps    : Nat := 0
  id        : Nat := 0
  settledId : Bool := false
  roles     : Nat := 0
  ringSize  : Nat := 0
  ceilG     : Nat := 0
  ceilBulk  : Nat := 0
  wrrBe     : Nat := 0
  wrrBulk   : Nat := 0
  repKind   : Nat := 0
  repPort   : Nat := 0
  repDur    : Nat := 0
  tx        : Ctr := {}
  rx        : Ctr := {}
  txRest    : Nat := 0
  rxRest    : Nat := 0
  fecUncorr : Ctr := {}
  replays   : Ctr := {}
  resend    : Ctr := {}
  ttlDrop   : Ctr := {}
  alarmSupp : Ctr := {}
  badFrame  : Ctr := {}
  snapRow   : Nat := 0
  routes    : Tbl Route := []
  peers     : Tbl Peer := []
  runs      : Nat := 0
  nextXfer  : Nat := 0
  xout      : List XferOut := []
  xin       : List XferIn := []
  eseq      : Tbl Eseq := []
  slipPending : Bool := false
  slipAt    : Option Nat := none
deriving DecidableEq, Repr

/-! ### Reset, rungs, pattern, keep, pins (ch. 14, 16, 17, 18) -/

/-- A tink in progress (R354): engine, resets, suspects left with the one being replayed first, culprits. -/
structure Tink where
  engine   : Nat
  resets   : Nat
  left     : List Nat
  culprits : List Nat
deriving DecidableEq, Repr

/-- The RST block. -/
structure Rst where
  trayReq    : Bool := false
  fenced     : Bool := false
  panels     : List Nat := []
  reqBusy    : Bool := false
  reqResult  : Nat := 0
  lastValid  : Bool := false
  lastLevel  : Nat := 0
  lastCause  : Nat := 0
  lastEngine : Nat := 0
  lastCtx    : Nat := 0
  lastTime   : Nat := 0
  tink       : Option Tink := none
  waitTinks  : List Tink := []
  warmTimes  : List Nat := []
  warmCount  : Nat := 0
  trips      : Ctr := {}
  frogs      : Ctr := {}
  engResets  : Ctr := {}
  pnlResets  : Ctr := {}
  voided     : Ctr := {}
  aborts     : Ctr := {}
  snapRow    : Nat := 0
  inconclusive : Tbl Nat := []
  warmPending : Bool := false
deriving DecidableEq, Repr

/-- Rungs of Table 16.2. -/
inductive Rung where
  | run | hush | doze | nap | dormant
deriving DecidableEq, Repr

/-- The RUNG block. -/
structure RungB where
  rung      : Rung := .run
  since     : Nat := 0
  limit     : Nat := 2
  hushUs    : Nat := 5
  dozeQms   : Nat := 4
  wokeFrom  : Nat := 0
  exitFrom  : Nat := 0
  exitCause : Nat := 0
  exitNs    : Nat := 0
  hushTime  : Ctr := {}
  dozeTime  : Ctr := {}
  exits     : Ctr := {}
  snapRow   : Nat := 0
  vcoreKept : Nat := 1600
deriving DecidableEq, Repr

/-- PAT_STATUS.MODE (Table 14.13). -/
inductive PatMode where
  | starting | applied | maintRecovery | maintRom
deriving DecidableEq, Repr

/-- The PAT block, the flash and the staged pattern. `cal` is the identity and calibration region's factor of each gauge loop, as numerator
and denominator (R25). -/
structure Pat where
  mode      : PatMode := .starting
  applied   : Bool := false
  slotB     : Bool := false
  fallback  : Bool := false
  maintCause : Nat := 0
  version   : Nat := 0
  seq       : Nat := 0
  resA      : Nat := 0xF
  resB      : Nat := 0xF
  checkA    : Nat := 0
  checkB    : Nat := 0
  seqA      : Nat := 0
  seqB      : Nat := 0
  startMs   : Nat := 0
  wrAddr    : Nat := 0
  wrLen     : Word := 0
  wrBusy    : Bool := false
  wrTargetB : Bool := false
  wrStep    : Nat := 0
  wrPercent : Nat := 0
  wrResult  : Nat := 0xF
  wrImage   : Option Image := none
  wrFn      : Nat := 0
  digest    : Nat := 0
  staged    : Option Image := none
  stagedDigest : Nat := 0
  pattern   : Option Pattern := none
  flashA    : Slot := { image := none, commit := none }
  flashB    : Slot := { image := none, commit := none }
  recovery  : Slot := { image := none, commit := none }
  romRev    : Nat := 0
  cal       : Tbl (Nat × Nat) := []
deriving DecidableEq, Repr

/-- The keep (the always-on SRAM): what survives Nap and Dormant; `dead` the needles retired by their memories' test, `routers` those
whose router failed. -/
structure Keep where
  vcore2   : Nat := 1600
  columns  : Tbl Nat := []
  failCols : Tbl (List Nat) := []
  dead     : List Nat := []
  routers  : List Nat := []
  runtime  : List Nat := []
  offDec   : List Nat := []
  offEnc   : List Nat := []
  digest   : Nat := 0
  presets  : Bool := false
  training : Bool := false
  cycled   : Bool := false
  slotB    : Bool := false
deriving DecidableEq, Repr

/-- The pins and the ID block (Tables 18.2, 18.12). True means the electrical level high for PWR_EN, PG, MOD_RST_N,
PERST_N; asserted for WAKE_N, ALERT_N, TRAY_REQ_N. -/
structure Pins where
  aux      : Bool := true
  p48v     : Bool := true
  pwrEn    : Bool := true
  pg       : Bool := true
  modRstN  : Bool := true
  perstN   : Bool := false
  wake     : Bool := false
  alert    : Bool := false
  alertHot : Bool := false
  slotId   : Nat := 0
  strapsUnstable : Bool := false
  lockout  : Bool := false
  pwrLowAt : Option Nat := none
  boardRev : Nat := 0
  serial   : Nat := 0
  subsystem : Nat := 0
  eid      : Nat := 0
deriving DecidableEq, Repr

/-- An answer of the SMBus management interface (R379, R380), newest first. -/
inductive SmbAnswer where
  | endpointId (eid : Nat)
  | mctpVersion
  | messageTypes (types : List Nat)
  | vendorMessage (vendor : Nat)
  | noMore
  | vendor (command completion : Nat) (payload : List Byte)
  | alertAddress (addr : Nat)
deriving DecidableEq, Repr

/-- Everything of the block but the addressed memories and the command queue. -/
structure Chip where
  gauge   : Gauge := {}
  tens    : Tens := {}
  evc     : Evc := {}
  log     : Log := {}
  pcie    : Pcie := {}
  queues  : Tbl Queue := []
  waits   : List HostWait := []
  cast    : Cast := {}
  hank    : Hank := {}
  markers : Tbl Marker := []
  ndl     : Needles := {}
  pnl     : Pnl := {}
  vdec    : Vdec := {}
  venc    : Venc := {}
  tracks  : Tracks := {}
  hbm     : Hbm := {}
  rnd     : Rnd := {}
  rst     : Rst := {}
  rung    : RungB := {}
  pat     : Pat := {}
  keep    : Keep := {}
  pins    : Pins := {}
  smbus   : List SmbAnswer := []
  hostTx  : List HostWrite := []
  freeCtr : Nat := 0
deriving DecidableEq, Repr

/-- The block: its registers and engines, its memories, and the commands that wait, first in, first out. -/
structure State where
  chip    : Chip
  mem     : Mem
  pending : List Instr
deriving DecidableEq, Repr

/-- Reasons a step stops with a fault. No meaning of this model raises one: what the spec reports, it reports in answers,
status codes, events and recoveries, and the meanings do that. -/
inductive Fault where
  /-- Raised by nothing; the interface asks for the type. Safe. -/
  | none
deriving DecidableEq, Repr

/-- Reasons a command is refused. -/
inductive Refusal where
  /-- Raised by exec's arm of a command that has no meaning yet, under its mnemonic. Safe. -/
  | notModelled (mnemonic : String)
deriving DecidableEq, Repr

/-- The block right after reset: every field at the value the spec states, supplies up and PERST# asserted (log 4),
memory with nothing listed, no command waiting. -/
def State.reset : State := { chip := {}, mem := [], pending := [] }

end Sys2Proof.Machine
end

