-- ==== Sys2Proof/Machine/Ops.lean ====
section
/-!
DEFINITION. The operations every family shares: sparse tables, the canonical memory, bit fields, byte order, per-row
counters, and the time base.
-/
namespace Sys2Proof.Machine

/-! ### Numbers -/

/-- Field of `n` bits of `w` from bit `lo` up. -/
def bitf (w lo n : Nat) : Nat := w / 2 ^ lo % 2 ^ n

/-- Bit `i` of `w`. -/
def bit (w i : Nat) : Bool := w / 2 ^ i % 2 == 1

/-- A flag placed at bit `i`. -/
def flag (b : Bool) (i : Nat) : Nat := if b then 2 ^ i else 0

/-- Ceiling of a quotient; 0 for a zero divisor. -/
def ceilDiv (a b : Nat) : Nat := if b = 0 then 0 else (a + b - 1) / b

/-- Addition that stays at `m`. -/
def satAdd (m a b : Nat) : Nat := min m (a + b)

/-- The low 32 bits. -/
def low32 (n : Nat) : Nat := n % 4294967296

/-- A bit mask of a list of positions. -/
def maskOf (l : List Nat) : Nat := l.eraseDups.foldl (fun a i => a + 2 ^ i) 0

/-- Two's complement of `n` bits read as an integer. -/
def signed (n v : Nat) : Int := if v < 2 ^ (n - 1) then (v : Int) else (v : Int) - (2 ^ n : Nat)

/-- An integer as two's complement of `n` bits. -/
def unsigned (n : Nat) (v : Int) : Nat := (v % ((2 ^ n : Nat) : Int)).toNat

/-! ### Bytes -/

/-- Little-endian value of `n` bytes of `b` from offset `off`; bytes beyond the end read 0. -/
def le (b : List Byte) (off n : Nat) : Nat :=
  ((b.drop off).take n).foldr (fun x a => x.toNat + 256 * a) 0

/-- The `n` little-endian bytes of a value. -/
def leBytes : Nat → Nat → List Byte
  | 0, _ => []
  | n + 1, v => BitVec.ofNat 8 v :: leBytes n (v / 256)

/-- `n` zero bytes. -/
def zeros (n : Nat) : List Byte := List.replicate n 0

/-- Zero padding of a byte string to a multiple of `m`. -/
def padTo (m : Nat) (b : List Byte) : List Byte := b ++ zeros ((m - b.length % m) % m)

/-! ### Sparse tables -/

/-- Entry `k` of a table, or the reset value `d`. -/
def Tbl.get {α : Type} (d : α) : Tbl α → Nat → α
  | [], _ => d
  | (i, v) :: t, k => if i = k then v else if k < i then d else Tbl.get d t k

/-- Whether a table lists `k`. -/
def Tbl.has {α : Type} (t : Tbl α) (k : Nat) : Bool := t.any (fun e => e.1 == k)

/-- The table with entry `k` set, keys rising. -/
def Tbl.set {α : Type} : Tbl α → Nat → α → Tbl α
  | [], k, v => [(k, v)]
  | (i, w) :: t, k, v => if i = k then (k, v) :: t else if k < i then (k, v) :: (i, w) :: t else (i, w) :: Tbl.set t k v

/-- The table without entry `k`. -/
def Tbl.del {α : Type} (t : Tbl α) (k : Nat) : Tbl α := t.filter (fun e => e.1 != k)

/-- The table with entry `k` changed by `f`. -/
def Tbl.upd {α : Type} (d : α) (t : Tbl α) (k : Nat) (f : α → α) : Tbl α := Tbl.set t k (f (Tbl.get d t k))

/-- Every listed value changed by `f`. -/
def Tbl.mapV {α β : Type} (t : Tbl α) (f : α → β) : Tbl β := t.map (fun e => (e.1, f e.2))

/-! ### Memory -/

/-- What a byte that nothing has written reads as (log 6). -/
def blankByte : Byte := 0

/-- The byte at an address. -/
def Mem.read : Mem → Nat → Byte
  | [], _ => blankByte
  | (i, v) :: m, a => if i = a then v else if a < i then blankByte else Mem.read m a

/-- A cell in front of a memory, unless it holds what an unlisted address reads as. -/
def Mem.cons (a : Nat) (v : Byte) (m : Mem) : Mem := if v = blankByte then m else (a, v) :: m

/-- The memory with one byte written, in canonical form. -/
def Mem.write : Mem → Nat → Byte → Mem
  | [], a, v => Mem.cons a v []
  | (i, w) :: m, a, v =>
    if i = a then Mem.cons a v m else if a < i then Mem.cons a v ((i, w) :: m) else (i, w) :: Mem.write m a v

/-- Whether every address listed lies above `lo`, addresses rise, and no byte is blank. -/
def Mem.above : Option Nat → Mem → Bool
  | _, [] => true
  | lo, (i, v) :: m => (match lo with | none => true | some l => decide (l < i)) && v != blankByte && Mem.above (some i) m

/-- The canonical form of a memory. -/
def Mem.wf (m : Mem) : Bool := Mem.above none m

/-- Bytes written from an address up. -/
def Mem.writes (m : Mem) (a : Nat) (b : List Byte) : Mem :=
  (b.foldl (fun (acc : Mem × Nat) x => (Mem.write acc.1 acc.2 x, acc.2 + 1)) (m, a)).1

/-- Single bytes written in list order. -/
def Mem.scatter (m : Mem) (l : List (Nat × Byte)) : Mem := l.foldl (fun acc e => Mem.write acc e.1 e.2) m

/-- `n` bytes read from an address up. -/
def Mem.reads (m : Mem) (a n : Nat) : List Byte := (List.range n).map (fun i => Mem.read m (a + i))

/-- A range filled with zeros. -/
def Mem.clear (m : Mem) (a n : Nat) : Mem := m.filter (fun e => e.1 < a || a + n ≤ e.1)

/-- Little-endian value at an address. -/
def Mem.le (m : Mem) (a n : Nat) : Nat := Machine.le (Mem.reads m a n) 0 n

/-! ### The flat address space of the memories

HBM stands at its own address (R225), the yoke and the needles' SRAM above it. -/

/-- Flat base of the yoke. -/
def yokeBase : Nat := 0x100_0000_0000
/-- Flat base of needle `n`'s local SRAM. -/
def sramBase (n : Nat) : Nat := 0x200_0000_0000 + n * 0x40_0000
/-- Hank `h` in hank space (R235). -/
def hankAddr (h : Nat) : Nat := h * 0x4000
/-- Pseudo-channel of an HBM address (R224): a[14:8] XOR a[21:15]. -/
def pseudoChannel (a : Nat) : Nat := bitf a 8 7 ^^^ bitf a 15 7
/-- Bytes of a hank list read in order, `n` bytes from byte `off`. -/
def hankRead (m : Mem) (hs : List Nat) (off n : Nat) : List Byte :=
  (List.range n).map (fun i => Mem.read m (hankAddr (hs.getD ((off + i) / 0x4000) 0) + (off + i) % 0x4000))
/-- Bytes written into a hank list from byte `off` on; bytes beyond the list are dropped. -/
def hankWrite (m : Mem) (hs : List Nat) (off : Nat) (b : List Byte) : Mem :=
  (b.foldl (fun (acc : Mem × Nat) x =>
    (match hs[acc.2 / 0x4000]? with
     | some h => Mem.write acc.1 (hankAddr h + acc.2 % 0x4000) x
     | none => acc.1, acc.2 + 1)) (m, off)).1

/-! ### Per-row counters (R8) -/

/-- A live counter plus `n`; it saturates at 0xFFFF_FFFF. -/
def Ctr.add (c : Ctr) (n : Nat) : Ctr := { c with live := satAdd 4294967295 c.live n }
/-- A live counter plus one. -/
def Ctr.inc (c : Ctr) : Ctr := c.add 1
/-- Latched at the row boundary: the snapshot takes the live value, which restarts at 0. -/
def Ctr.latch (c : Ctr) : Ctr := { live := 0, snap := c.live }

/-! ### Time -/

/-- Ticks of the 25 MHz time base in `us` microseconds. -/
def usTicks (us : Nat) : Nat := 25 * us
/-- Ticks in `ns` nanoseconds, rounded up (R36). -/
def nsTicks (ns : Nat) : Nat := ceilDiv ns 40
/-- Nanoseconds that `st` stitches take at a pace in Mstitch/s (R22), rounded up. -/
def stitchNs (st pace : Nat) : Nat := ceilDiv (st * 1000) pace
/-- The time base now. -/
def Chip.now (c : Chip) : Nat := c.gauge.time
/-- Lower 32 bits of the time base, as registers show it. -/
def Chip.nowLo (c : Chip) : Nat := low32 c.gauge.time
/-- The time base moved on to `t`, if it has not reached it (log 2). -/
def Gauge.advance (g : Gauge) (t : Nat) : Gauge := { g with time := max g.time t % 18446744073709551616 }
/-- The block at the due time of a timed command. -/
def Chip.advance (c : Chip) (t : Nat) : Chip := { c with gauge := c.gauge.advance t }

/-- Reset value of a function's record: the PF exists (Table 13.17). -/
def funReset (fn : Nat) : Fun := { enabled := fn == 0 }
/-- Function `fn`. -/
def Pcie.fn (p : Pcie) (fn : Nat) : Fun := Tbl.get (funReset fn) p.fns fn
/-- Function `fn` changed. -/
def Pcie.updFn (p : Pcie) (fn : Nat) (f : Fun → Fun) : Pcie := { p with fns := Tbl.set p.fns fn (f (p.fn fn)) }
/-- Global queue number of a function's local queue (R276). -/
def globalQueue (fn q : Nat) : Nat := if fn = 0 then q else 128 + 8 * (fn - 1) + q
/-- Function that owns a global queue. -/
def queueFn (g : Nat) : Nat := if g < 128 then 0 else (g - 128) / 8 + 1
/-- Queue `g` (global). -/
def Chip.queue (c : Chip) (g : Nat) : Queue := Tbl.get {} c.queues g
/-- Queue `g` changed. -/
def Chip.updQueue (c : Chip) (g : Nat) (f : Queue → Queue) : Chip := { c with queues := Tbl.upd {} c.queues g f }
/-- Needle `n`. -/
def Chip.needle (c : Chip) (n : Nat) : Needle := Tbl.get {} c.ndl.tab n
/-- Needle `n` changed. -/
def Chip.updNeedle (c : Chip) (n : Nat) (f : Needle → Needle) : Chip :=
  { c with ndl := { c.ndl with tab := Tbl.upd {} c.ndl.tab n f } }
/-- Panel `p`. -/
def Chip.panel (c : Chip) (p : Nat) : Panel := Tbl.get {} c.pnl.panels p
/-- Panel `p` changed. -/
def Chip.updPanel (c : Chip) (p : Nat) (f : Panel → Panel) : Chip :=
  { c with pnl := { c.pnl with panels := Tbl.upd {} c.pnl.panels p f } }
/-- Marker `m`. -/
def Chip.marker (c : Chip) (m : Nat) : Marker := Tbl.get (if m < 1024 then { scope := 3 } else {}) c.markers m
/-- Key of another lead's ticket: its number with the lead's ID above it (R53, R59; log 110). -/
def partKey (lead number : Nat) : Nat := (lead + 1) * 4294967296 + number
/-- A live ticket. -/
def Chip.ticket? (c : Chip) (t : Nat) : Option Ticket := c.cast.tickets.find? (fun x => x.id == t)
/-- A live ticket changed. -/
def Cast.updTicket (k : Cast) (t : Nat) (f : Ticket → Ticket) : Cast :=
  { k with tickets := k.tickets.map (fun x => if x.id = t then f x else x) }
/-- A live ticket changed. -/
def Chip.updTicket (c : Chip) (t : Nat) (f : Ticket → Ticket) : Chip := { c with cast := c.cast.updTicket t f }
/-- The live ticket a context belongs to. -/
def Chip.ctxTicket (c : Chip) (ctx : Nat) : Option Ticket := c.cast.tickets.find? (fun x => x.contexts.contains ctx)
/-- The stream-table entry of a pipeline. -/
def Chip.stream? (c : Chip) (i : Nat) : Option StreamDef :=
  match c.pat.pattern with
  | none => none
  | some p => p.streams.find? (fun x => x.index == i)
/-- Whether guarantee is at risk (R32). -/
def Chip.gar (c : Chip) : Bool := c.gauge.holdVoltage || c.gauge.holdCrystal || c.tens.isOver
/-- Whether admission is closed or the chip fenced (R279). -/
def Chip.closed (c : Chip) : Bool := c.cast.closed || c.rst.fenced
/-- Whether the module is in maintenance start (R305). -/
def Chip.maint (c : Chip) : Bool := c.pat.mode == .maintRecovery || c.pat.mode == .maintRom

/-- Whether a ticket is a function's own: a part of another module's garment is not. -/
def Chip.ownTicket (c : Chip) (fn : Nat) (t : Ticket) : Bool := t.fn == fn && (t.garment.isNone || t.lead == c.rnd.id)
/-- Whether a guaranteed ticket is live. -/
def Chip.guaranteedLive (c : Chip) : Bool := c.cast.tickets.any (fun t => t.guaranteed)
/-- The latency tolerance that the endpoint reports, in µs: 20 while a guaranteed ticket is live, else 1 ms (R290). -/
def Chip.reportLtr (c : Chip) : Chip := { c with pcie := { c.pcie with ltrUs := if c.guaranteedLive then 20 else 1000 } }

end Sys2Proof.Machine
end

