-- ==== Sys2Proof/Machine/Operands.lean ====
section
/-!
DEFINITION. Number formats, scales and conversions (ch. 4): exact dyadic values, each rounded once where a rule says so.
-/
namespace Sys2Proof.Machine

/-! ### Values (R64, R65) -/

/-- A value: NaN, an infinity, or (−1)^neg × m × 2^e. Zero keeps its sign. -/
inductive FVal where
  | nan
  | inf (neg : Bool)
  | fin (neg : Bool) (m : Nat) (e : Int)
deriving DecidableEq, Repr

/-- Parameters of a floating-point format (Table 4.2); `ieee` is false for E4M3, which has no infinity. -/
structure FFmt where
  expBits : Nat
  manBits : Nat
  bias    : Nat
  ieee    : Bool
deriving DecidableEq, Repr

/-- E4M3. -/
def e4m3 : FFmt := { expBits := 4, manBits := 3, bias := 7, ieee := false }
/-- E5M2. -/
def e5m2 : FFmt := { expBits := 5, manBits := 2, bias := 15, ieee := true }
/-- BF16. -/
def bf16 : FFmt := { expBits := 8, manBits := 7, bias := 127, ieee := true }
/-- FP16. -/
def fp16 : FFmt := { expBits := 5, manBits := 10, bias := 15, ieee := true }
/-- FP32. -/
def fp32 : FFmt := { expBits := 8, manBits := 23, bias := 127, ieee := true }
/-- Bits of a format. -/
def FFmt.bits (f : FFmt) : Nat := 1 + f.expBits + f.manBits
/-- Exponent of the smallest subnormal's unit. -/
def FFmt.emin (f : FFmt) : Int := 1 - (f.bias : Int) - f.manBits
/-- Magnitude code of infinity, or of E4M3's NaN. -/
def FFmt.topCode (f : FFmt) : Nat := (2 ^ f.expBits - 1) * 2 ^ f.manBits
/-- Magnitude code of the largest finite value. -/
def FFmt.maxCode (f : FFmt) : Nat := if f.ieee then f.topCode - 1 else 2 ^ (f.bits - 1) - 2
/-- Canonical NaN (Table 4.2). -/
def FFmt.nanCode (f : FFmt) : Nat := if f.ieee then f.topCode + 2 ^ (f.manBits - 1) else 2 ^ (f.bits - 1) - 1
/-- Value of a stored code (R64, R65). -/
def FFmt.decode (f : FFmt) (c : Nat) : FVal :=
  let neg := bit c (f.bits - 1)
  let mag := c % 2 ^ (f.bits - 1)
  let ex := mag / 2 ^ f.manBits
  let man := mag % 2 ^ f.manBits
  if f.maxCode < mag then (if f.ieee ∧ mag = f.topCode then .inf neg else .nan)
  else if ex = 0 then .fin neg man f.emin
  else .fin neg (man + 2 ^ f.manBits) (f.emin + (ex - 1 : Nat))

/-! ### Rounding -/

/-- How a conversion rounds: to nearest, ties to even, or stochastically with a draw (R77, R78). -/
inductive Rounding where
  | nearest
  | stochastic (r : Nat)
deriving DecidableEq, Repr

/-- num / den × 2^k as quotient, remainder and divisor. -/
def quotParts (num den : Nat) (k : Int) : Nat × Nat × Nat :=
  let a := num * 2 ^ k.toNat
  let b := den * 2 ^ (-k).toNat
  (a / b, a % b, b)
/-- The integer that a rounding makes of q + rem / b. -/
def Rounding.pick (r : Rounding) (p : Nat × Nat × Nat) : Nat :=
  match r with
  | .nearest => if p.2.2 < 2 * p.2.1 ∨ (2 * p.2.1 = p.2.2 ∧ p.1 % 2 = 1) then p.1 + 1 else p.1
  | .stochastic d => if 65536 ≤ p.2.1 * 65536 / p.2.2 + d then p.1 + 1 else p.1
/-- floor(log2(num / den)) for positive num and den. -/
def log2Quot (num den : Nat) : Int :=
  let q : Int := (Nat.log2 num : Int) - (Nat.log2 den : Int)
  if num * 2 ^ (-q).toNat < den * 2 ^ q.toNat then q - 1 else q
/-- Magnitude code of num / den × 2^e in a format, before any overflow rule. -/
def FFmt.magOf (f : FFmt) (r : Rounding) (num den : Nat) (e : Int) : Nat :=
  if num = 0 ∨ den = 0 then 0
  else
    let u := max (log2Quot num den + e - f.manBits) f.emin
    (u - f.emin).toNat * 2 ^ f.manBits + r.pick (quotParts num den (e - u))
/-- Sign bit of a format. -/
def FFmt.signOf (f : FFmt) (neg : Bool) : Nat := flag neg (f.bits - 1)
/-- IEEE 754 rounding of num / den × 2^e: beyond the largest finite value an infinity (R65). -/
def FFmt.roundIeee (f : FFmt) (neg : Bool) (num den : Nat) (e : Int) : Nat :=
  f.signOf neg + min f.topCode (f.magOf .nearest num den e)
/-- IEEE code of a value. -/
def FFmt.encode (f : FFmt) : FVal → Nat
  | .nan => f.nanCode
  | .inf neg => f.signOf neg + f.topCode
  | .fin neg m e => f.roundIeee neg m 1 e
/-- RNE32 of a value (R65). -/
def rne32 (x : FVal) : FVal := fp32.decode (fp32.encode x)
/-- RNE32 of a quotient. -/
def rne32q (neg : Bool) (num den : Nat) (e : Int) : FVal := fp32.decode (fp32.roundIeee neg num den e)

/-! ### FP32 arithmetic (R65) -/

/-- Value 0. -/
def FVal.zero : FVal := .fin false 0 0
/-- An integer. -/
def FVal.ofInt (i : Int) : FVal := .fin (decide (i < 0)) i.natAbs 0
/-- Power of two. -/
def FVal.pow2 (e : Int) : FVal := .fin false 1 e
/-- Negation. -/
def FVal.neg : FVal → FVal
  | .nan => .nan | .inf s => .inf (!s) | .fin s m e => .fin (!s) m e
/-- Magnitude. -/
def FVal.abs : FVal → FVal
  | .nan => .nan | .inf _ => .inf false | .fin _ m e => .fin false m e
/-- Exact sum. -/
def FVal.add : FVal → FVal → FVal
  | .nan, _ => .nan
  | _, .nan => .nan
  | .inf s, .inf t => if s = t then .inf s else .nan
  | .inf s, _ => .inf s
  | _, .inf t => .inf t
  | .fin s m e, .fin t n f =>
    let k := min e f
    let a : Int := (m * 2 ^ (e - k).toNat : Nat)
    let b : Int := (n * 2 ^ (f - k).toNat : Nat)
    let v := (if s then -a else a) + (if t then -b else b)
    .fin (if v = 0 then s && t else decide (v < 0)) v.natAbs k
/-- Exact product. -/
def FVal.mul : FVal → FVal → FVal
  | .nan, _ => .nan
  | _, .nan => .nan
  | .inf s, .inf t => .inf (s != t)
  | .inf s, .fin t n _ => if n = 0 then .nan else .inf (s != t)
  | .fin s m _, .inf t => if m = 0 then .nan else .inf (s != t)
  | .fin s m e, .fin t n f => .fin (s != t) (m * n) (e + f)
/-- FP32 sum. -/
def fadd (a b : FVal) : FVal := rne32 (a.add b)
/-- FP32 difference. -/
def fsub (a b : FVal) : FVal := rne32 (a.add b.neg)
/-- FP32 product. -/
def fmul (a b : FVal) : FVal := rne32 (a.mul b)
/-- FP32 quotient. -/
def fdiv : FVal → FVal → FVal
  | .nan, _ => .nan
  | _, .nan => .nan
  | .inf _, .inf _ => .nan
  | .inf s, .fin t _ _ => .inf (s != t)
  | .fin s _ _, .inf t => .fin (s != t) 0 0
  | .fin s m e, .fin t n f =>
    if n = 0 then (if m = 0 then .nan else .inf (s != t)) else rne32q (s != t) m n (e - f)
/-- Whether a value is finite. -/
def FVal.finite : FVal → Bool
  | .fin _ _ _ => true | _ => false
/-- Whether a < b; false with a NaN. -/
def FVal.lt : FVal → FVal → Bool
  | .nan, _ => false
  | _, .nan => false
  | .inf s, .inf t => s && !t
  | .inf s, _ => s
  | _, .inf t => !t
  | .fin s m e, .fin t n f =>
    let k := min e f
    let a : Int := (m * 2 ^ (e - k).toNat : Nat)
    let b : Int := (n * 2 ^ (f - k).toNat : Nat)
    decide ((if s then -a else a) < (if t then -b else b))
/-- Whether a ≤ b; false with a NaN. -/
def FVal.le (a b : FVal) : Bool := match a, b with | .nan, _ => false | _, .nan => false | _, _ => !b.lt a
/-- The larger of two values; a NaN wins. -/
def FVal.max (a b : FVal) : FVal := match a, b with | .nan, _ => .nan | _, .nan => .nan | _, _ => if a.lt b then b else a
/-- The smaller of two values; a NaN wins. -/
def FVal.min (a b : FVal) : FVal := match a, b with | .nan, _ => .nan | _, .nan => .nan | _, _ => if b.lt a then b else a
/-- FP32 code of a value already in FP32. -/
def FVal.code32 (x : FVal) : Nat := fp32.encode x

/-! ### Format codes (R61, R62) -/

/-- Formats of Table 4.1. -/
inductive Fmt where
  | s8 | a8 | s4 | a4 | e4m3 | e5m2 | bf16 | fp16 | fp32 | i32 | gs8 | gs4
deriving DecidableEq, Repr
/-- Format of a code; none for the reserved ones. -/
def Fmt.ofCode (c : Nat) : Option Fmt :=
  [Fmt.s8, .a8, .s4, .a4, .e4m3, .e5m2, .bf16, .fp16, .fp32, .i32, .gs8, .gs4][c]?
/-- Bits of an element. -/
def Fmt.bits : Fmt → Nat
  | .s8 => 8 | .a8 => 8 | .s4 => 4 | .a4 => 4 | .e4m3 => 8 | .e5m2 => 8 | .bf16 => 16 | .fp16 => 16 | .fp32 => 32
  | .i32 => 32 | .gs8 => 8 | .gs4 => 4
/-- Whether a format is allowed as a matrix operand. -/
def Fmt.matrixOk : Fmt → Bool
  | .fp32 => false | .i32 => false | _ => true
/-- Whether a format is allowed as a vector operand. -/
def Fmt.vectorOk : Fmt → Bool
  | .s8 => true | .e4m3 => true | .e5m2 => true | .bf16 => true | .fp16 => true | .fp32 => true | _ => false
/-- Floating-point parameters of a format. -/
def Fmt.float? : Fmt → Option FFmt
  | .e4m3 => some Machine.e4m3 | .e5m2 => some Machine.e5m2 | .bf16 => some Machine.bf16 | .fp16 => some Machine.fp16
  | .fp32 => some Machine.fp32 | _ => none
/-- Whether a format is group-scaled. -/
def Fmt.grouped : Fmt → Bool
  | .gs8 => true | .gs4 => true | _ => false
/-- Whether a format carries a zero point. -/
def Fmt.zeroPoint : Fmt → Bool
  | .a8 => true | .a4 => true | _ => false
/-- Whether a matrix operand is an integer one. -/
def Fmt.integer : Fmt → Bool
  | .s8 => true | .a8 => true | .s4 => true | .a4 => true | .gs8 => true | .gs4 => true | _ => false
/-- Whether a format has 4-bit elements. -/
def Fmt.nibble (f : Fmt) : Bool := f.bits == 4
/-- Whether a pair of matrix operands is listed in Table 4.3. -/
def pairOk (a b : Fmt) : Bool :=
  (a.integer && b.integer) ||
  ((a == .e4m3 || a == .e5m2) && (b == .e4m3 || b == .e5m2)) ||
  (a == .bf16 && b == .bf16) || (a == .fp16 && b == .fp16)
/-- MACs per stitch of a pair (Table 4.3). -/
def pairRate (a b : Fmt) : Nat :=
  if a.integer then (if a.nibble ∧ b.nibble then 8192 else 4096) else if a = .bf16 ∨ a = .fp16 then 1024 else 4096
/-- Whether the accumulator of a pair is I32 rather than FP32 (Table 4.3). -/
def pairI32 (a b : Fmt) : Bool := a.integer && !a.grouped && !b.grouped
/-- Integer value of a stored element, widened by the zero point (R63, R73); the stored value of a float is its code. -/
def Fmt.widen (f : Fmt) (z c : Nat) : Int :=
  match f with
  | .s8 => signed 8 c | .gs8 => signed 8 c | .s4 => signed 4 c | .gs4 => signed 4 c
  | .a8 => (c : Int) - z | .a4 => (c : Int) - z | .i32 => signed 32 c | _ => c
/-- Value of a stored element before any scale. -/
def Fmt.value (f : Fmt) (z c : Nat) : FVal :=
  match f.float? with
  | some p => p.decode c
  | none => FVal.ofInt (f.widen z c)

/-! ### Scales (R69, R81, R82) -/

/-- Value of an E8 scale. -/
def e8Value (c : Nat) : FVal := if c = 255 then .nan else .pow2 ((c : Int) - 127)
/-- A scale stored as a float: positive and finite, or +0; anything else is NaN. -/
def floatScale (f : FFmt) (c : Nat) : FVal :=
  match f.decode c with
  | .fin false m e => .fin false m e
  | _ => .nan
/-- Qmax of R82. -/
def Fmt.qmax : Fmt → Nat
  | .e4m3 => 448 | .e5m2 => 57344 | .s8 => 127 | .gs8 => 127 | _ => 7
/-- Smallest integer e with q × 2^e ≥ m × 2^f, for positive m. -/
def smallestExp (q m : Nat) (f : Int) : Int :=
  let g := log2Quot m q
  f + (if q * 2 ^ g.toNat = m * 2 ^ (-g).toNat ∨ q * 2 ^ g.toNat ≥ m * 2 ^ (-g).toNat then g else g + 1)
/-- e + m of R82, clamped to −127 to 127, as an E8 code. -/
def e8Code (x : Int) : Nat := ((if x < -127 then -127 else if 127 < x then 127 else x) + 127).toNat
/-- E8 scale of a group for its abs-max (R82); code 0 for an abs-max of 0. -/
def deriveE8 (f : Fmt) (margin : Nat) (amax : FVal) : Nat :=
  match amax with
  | .fin _ 0 _ => 0
  | .fin _ m e => e8Code (smallestExp f.qmax m e + margin)
  | _ => 0
/-- Smallest BF16 code at or above num / den × 2^e. -/
def bf16Above (num den : Nat) (e : Int) : Nat :=
  let u := max (log2Quot num den + e - 7) bf16.emin
  let p := quotParts num den (e - u)
  min bf16.topCode ((u - bf16.emin).toNat * 128 + (if p.2.1 = 0 then p.1 else p.1 + 1))
/-- A positive BF16 code times 2^margin, its exponent held to 127 (R82). -/
def bf16Scaled (k margin : Nat) : Nat :=
  if 128 ≤ k then 128 * min (k / 128 + margin) 254 + k % 128 else bf16.encode ((bf16.decode k).mul (.pow2 margin))
/-- BF16 scale of a group (R82); the margin multiplies by a power of two. -/
def deriveBf16 (f : Fmt) (margin : Nat) (amax : FVal) : Nat :=
  match amax with
  | .fin _ 0 _ => 0
  | .fin _ m e => bf16Scaled (bf16Above m f.qmax e) margin
  | _ => 0

/-! ### Conversion (R77, R78) -/

/-- A stored value with whether it saturated and whether the value was not finite. -/
structure Conv where
  code   : Nat
  sat    : Bool
  nonfin : Bool
deriving DecidableEq, Repr
/-- What the scale does to a value: divides it, or multiplies it (FIXED multiplier of R81). -/
inductive Scaling where
  | divide (s : FVal)
  | times (r : FVal)
deriving DecidableEq, Repr
/-- The exact scaled value as sign, numerator, divisor and exponent; none for NaN or an infinity. -/
def Scaling.exact (s : Scaling) (x : FVal) : Option (Bool × Nat × Nat × Int) :=
  match s, x with
  | .divide (.fin _ n f), .fin sg m e => if n = 0 then some (sg, 0, 1, 0) else some (sg, m, n, e - f)
  | .times (.fin t n f), .fin sg m e => some (sg != t, m * n, 1, e + f)
  | _, _ => none
/-- Whether the scaled value is NaN: a NaN value, a NaN scale, or an infinity times zero. -/
def Scaling.isNan (s : Scaling) (x : FVal) : Bool :=
  match s, x with
  | _, .nan => true
  | .divide .nan, _ => true
  | .times .nan, _ => true
  | .times (.fin _ 0 _), .inf _ => true
  | _, _ => false
/-- Sign of an infinite scaled value. -/
def Scaling.infNeg (s : Scaling) (x : FVal) : Bool :=
  match s, x with
  | .times (.fin t _ _), .inf sg => sg != t
  | _, .inf sg => sg
  | _, .fin sg _ _ => sg
  | _, .nan => false
/-- Conversion into a floating-point format (R77): finite values saturate, E4M3 saturates infinities too. -/
def convFloat (f : FFmt) (r : Rounding) (s : Scaling) (x : FVal) : Conv :=
  if s.isNan x then { code := f.nanCode, sat := false, nonfin := true }
  else match s.exact x with
    | none =>
      { code := f.signOf (s.infNeg x) + (if f.ieee then f.topCode else f.maxCode), sat := false, nonfin := true }
    | some (sg, num, den, e) =>
      { code := f.signOf sg + min f.maxCode (f.magOf r num den e), sat := decide (f.maxCode < f.magOf r num den e), nonfin := false }
/-- Saturation of an integer into a target's range (R63, R77), zero point added. -/
def Fmt.clampInt (f : Fmt) (z : Nat) (v : Int) : Int :=
  match f with
  | .s8 => max (-127) (min 127 v) | .gs8 => max (-127) (min 127 v)
  | .s4 => max (-7) (min 7 v) | .gs4 => max (-7) (min 7 v)
  | .a8 => max 0 (min 255 (v + z)) | .a4 => max 0 (min 15 (v + z))
  | _ => v
/-- Zero point a target adds. -/
def Fmt.zOf (f : Fmt) (z : Nat) : Int := if f.zeroPoint then z else 0
/-- Conversion into an integer format (R77): NaN converts to the zero point, infinities saturate. -/
def convInt (f : Fmt) (z : Nat) (r : Rounding) (s : Scaling) (x : FVal) : Conv :=
  if s.isNan x then { code := unsigned f.bits (f.zOf z), sat := false, nonfin := true }
  else match s.exact x with
    | none =>
      { code := unsigned f.bits (f.clampInt z (if s.infNeg x then -65536 else 65536)), sat := false, nonfin := true }
    | some (sg, num, den, e) =>
      let n : Int := (r.pick (quotParts num (if den = 0 then 1 else den) e) : Nat)
      let v := if sg then -n else n
      { code := unsigned f.bits (f.clampInt z v), sat := decide (f.clampInt z v ≠ v + f.zOf z), nonfin := false }
/-- Conversion of a value into a format (R77). -/
def convert (f : Fmt) (z : Nat) (r : Rounding) (s : Scaling) (x : FVal) : Conv :=
  match f.float? with
  | some p => convFloat p r s x
  | none => convInt f z r s x
/-- The 16-bit draw of R78 for element `i`. -/
def draw (seed step i : Nat) : Nat :=
  let h0 := low32 (seed + step * 0x85EBCA77 + low32 i * 0x9E3779B9 + i / 4294967296)
  let h1 := low32 ((h0 ^^^ h0 / 65536) * 0x7FEB352D)
  let h2 := low32 ((h1 ^^^ h1 / 32768) * 0x846CA68B)
  (h2 ^^^ h2 / 65536) % 65536

/-! ### Abs-max records (R79, R80, R83) -/

/-- Whether a record may be used (R80). -/
def amaxOk (b : List Byte) : Bool :=
  let len := le b 0x40 1
  decide (1 ≤ len ∧ len ≤ 16 ∧ le b 0x41 1 < len ∧ le b 0x42 1 ≤ len ∧ le b 0x43 1 ≠ 255)
/-- Largest AMAX entry of a record's window. -/
def amaxWindow (b : List Byte) : FVal :=
  (List.range (le b 0x42 1)).foldl (fun a i => a.max (fp32.decode (le b (4 * i) 4))) FVal.zero
/-- E8 code that a DELAYED step uses (R82). -/
def delayedE8 (f : Fmt) (margin : Nat) (b : List Byte) : Nat :=
  match amaxWindow b with
  | .fin _ 0 _ => le b 0x43 1
  | .fin s m e => if le b 0x42 1 = 0 then le b 0x43 1 else deriveE8 f margin (.fin s m e)
  | _ => le b 0x43 1
/-- A record after its step (R83): this step's abs-max, scale used, saturations and non-finite values. -/
def amaxUpdate (b : List Byte) (amax : FVal) (scale sats nonfin : Nat) : List Byte :=
  let len := le b 0x40 1
  let head := le b 0x41 1
  (List.range 16).flatMap (fun i => leBytes 4 (if i = head then amax.code32 else le b (4 * i) 4)) ++
  leBytes 1 len ++ leBytes 1 ((head + 1) % max 1 len) ++ leBytes 1 (min (le b 0x42 1 + 1) len) ++ leBytes 1 scale ++
  leBytes 4 ((le b 0x44 4 + 1) % 4294967296) ++ leBytes 4 (satAdd 4294967295 (le b 0x48 4) sats) ++
  leBytes 4 (satAdd 4294967295 (le b 0x4C 4) nonfin)
/-- The larger abs-max, infinities and NaN left out (R79). -/
def amaxJoin (a x : FVal) : FVal := if x.finite then a.max x.abs else a

end Sys2Proof.Machine
end

