-- ==== Sys2Proof/Config.lean ====
section
/-!
DEFINITION. The free values: what the spec leaves open, as constants without a body. Nothing in Lean can evaluate them or
prove a value of them; each is named in the assumption log.
-/
namespace Sys2Proof.Config

/-- A byte of an output the spec calls undefined (R58, Table 5.6), drawn with the state's counter (log 15). -/
opaque freeByte : Nat → Byte

/-- CODE of an incident where the spec gives no number (R320; log 13). -/
opaque incidentCode : Machine.Incident → Nat

/-- Severity of an incident that is no alarm: 0 INFO, 1 WARNING, 2 ERROR after reduction modulo 3 (Table 15.2; log 13). -/
opaque incidentSeverity : Machine.Incident → Nat

/-- Distance in units of the last place of a fixed function of the vector unit from the correctly rounded value, for a
function number and an FP32 operand; the model keeps it within the 2 ulp of R122 (log 14). -/
opaque vecUlp : Nat → Word → Int

/-- SEQ that an alarm slot and an ALARM message show for a record that the log does not keep, by LOG_LOST (Table 15.2; log 64). -/
opaque unkeptSeq : Nat → Nat

/-- Rank of an edge needle in the order in which the regions outside the needles take its fourth gauge loop: ch. 2 gives how many
lie in each, not which (log 5). -/
opaque siteRank : Nat → Nat

/-- A duration in ns that the module measures on itself where the model counts no time (RUNG_LAST_EXIT, RND_LAST_REPAIR),
drawn with the state's counter and kept within the bound the spec gives (log 19). -/
opaque duration : Nat → Nat

/-- Bank, 0 to 63 after reduction, and row in which HBM places the 256 B line of an address within its pseudo-channel;
R224 leaves the placement open because it changes only timing (log 36). -/
opaque hbmBank : Nat → Nat
/-- Row of a line (log 36). -/
opaque hbmRow : Nat → Nat

/-- Columns that a needle's self-test finds failing in a warm chip reset (R100, R102), drawn with the state's counter (log 24). -/
opaque selfTestColumns : Nat → Nat → List Nat

/-- Elementary operations of a vector or DMA operation whose count no rule gives, for an opcode and a number of output
elements (R103; log 39). -/
opaque elementaryOps : Nat → Nat → Nat

/-- What the front end parses from an access unit that came over the Round, for a codec and the unit's bytes: the codecs'
own syntax (log 11). -/
opaque headers : Nat → List Byte → PicInfo

/-- SOURCE of an ADAPT record before any source frame was accepted (Table 10.8 gives none; log 46). -/
opaque noSource : Nat

/-- PTS of the completion record of a unit that holds no FRAME record (Table 13.8; log 46). -/
opaque recordPts : Nat → Nat

/-- First number of the Box–Muller pair of two draws, in 1/65,536: R216 gives no rounding of its elementary functions (log 47). -/
opaque boxMuller : Nat → Nat → Int

/-- How an access unit is coded, for a codec, the parameters that its stream holds and its bytes: the codecs' own syntax (log 119). -/
opaque coded : Nat → List Byte → List Byte → CodedUnit
/-- Prediction and reconstruction of a frame from its references, for a codec (log 119). -/
opaque predicted : Nat → CodedFrame → List Picture → Recon
/-- In-loop filtering of a reconstruction, for a codec; edges between the given concealed areas and the rest are not deblocked
(R169; log 119). -/
opaque filtered : Nat → CodedFrame → List Rect → Picture → Picture
/-- Operating point 0 of the AV1 sequence header in force: a bit for each temporal layer in [7:0] and each spatial layer in [11:8]; 0
where every layer belongs to it (log 119). -/
opaque operatingPoint : List Byte → Nat

/-- A sample of a picture at a place in quarter samples, by the interpolation of HEVC or AV1 (R190; log 121). -/
opaque interpolated : Bool → Picture → Int → Int → Nat
/-- λ of the motion search (R190; log 121). -/
opaque searchLambda : PicHead → Nat
/-- Bits of a vector in quarter samples (R190; log 121). -/
opaque vectorBits : PicHead → Int → Int → Nat
/-- Base QP that the controller chooses from the fullness and the bits and QPs of earlier pictures (R193; log 122). -/
opaque baseQp : RcMode → PicKind → Nat → List (Nat × Nat) → Nat
/-- Change of a CTU row's QP from the base, from the bits of the rows it may use (R193; log 122). -/
opaque rowStep : PicHead → List Nat → Int
/-- The payload of a NAL unit or OBU that carries no coded samples, emulation prevention done (R183; log 123). -/
opaque headUnit : HeadUnit → PicHead → List Byte
/-- A CTU or superblock coded after those before it in its unit and in the units before (R183; log 123). -/
opaque codedCtu : PicHead → Picture → List Picture → List (List CtuOut) → CtuIn → CtuOut
/-- Coded data of a split unit (log 123). -/
opaque unitData : PicHead → List CtuOut → List Byte
/-- The reconstructed picture, in-loop filters done (log 123). -/
opaque rebuilt : PicHead → List Picture → List (List CtuOut) → Picture
/-- A mastering or light-level message of one codec in the form of the other, for whether the source is AV1 (R183; log 123). -/
opaque lookAs : Bool → List Byte → List Byte

/-- HBM address of the uncorrectable word that a video core's poisoned read met: its command does not carry it (log 54). -/
opaque errorAddress : Nat → Nat

/-- CAUSE in RST_LAST where Table 17.11 has no code: of a garment abort by its cause, 16 for a warm chip reset that overruns, 17 for
a start that fails (log 52). -/
opaque recoveryCause : Nat → Nat

/-- SHA-384 digest of a measured part that the model holds no bytes of: 1 the ROM, 2 the holder's firmware, 3 the identity
region (Table 13.13; log 21). -/
opaque spdmDigest : Nat → Nat

end Sys2Proof.Config
end

