-- ==== Sys2Proof/Machine/Link.lean ====
section
/-!
DEFINITION. What the Round's link protocol shares: CRCs, frame construction, routing, egress queues and the numbering of
Control messages (R249, R250, R255, R258, R261, R264).
-/
namespace Sys2Proof.Machine

/-! ### CRCs (R250) -/

/-- One bit of the HCRC shift register: polynomial 0x1021, no reflection. -/
def crc16Bit (c : Nat) : Nat := if c * 2 < 65536 then c * 2 else (c * 2) % 65536 ^^^ 0x1021
/-- HCRC over one more byte. -/
def crc16Byte (c : Nat) (b : Byte) : Nat := Nat.repeat crc16Bit 8 (c ^^^ b.toNat * 256)
/-- HCRC of a byte string, initial value 0xFFFF. -/
def crc16 (bs : List Byte) : Nat := bs.foldl crc16Byte 0xFFFF
/-- One bit of the CRC-32 of IEEE 802.3, in its reflected form. -/
def crc32Bit (c : Nat) : Nat := if c % 2 = 0 then c / 2 else c / 2 ^^^ 0xEDB88320
/-- CRC-32 over one more byte. -/
def crc32Byte (c : Nat) (b : Byte) : Nat := Nat.repeat crc32Bit 8 (c ^^^ b.toNat)
/-- CRC-32 of a byte string. -/
def crc32 (bs : List Byte) : Nat := bs.foldl crc32Byte 0xFFFFFFFF ^^^ 0xFFFFFFFF

end Sys2Proof.Machine

namespace Sys2Proof
open Sys2Proof.Machine

/-! ### Frames -/

/-- CLASS code of Table 12.2. -/
def RClass.code : RClass → Nat
  | .control => 0 | .guaranteed => 1 | .bestEffort => 2 | .bulk => 3

/-- Header bytes 0x00 to 0x1D of Table 12.2; `resv` fills the reserved bits of CTRL, DEST, SRC, TTL and GARMENT. -/
def RFrame.header (f : RFrame) : List Byte :=
  leBytes 1 f.type ++
  leBytes 1 (f.cls.code + flag f.last 2 + flag f.resvBulk 3 + flag f.resent 4 + flag f.turned 5 + 64 * (f.resv % 4)) ++
  leBytes 2 (f.dest + 1024 * (f.resv / 4 % 64)) ++ leBytes 2 (f.src + 1024 * (f.resv / 256 % 64)) ++
  leBytes 2 (f.ttl + 4096 * (f.resv / 16384 % 16)) ++ leBytes 2 f.lseq ++ leBytes 2 f.length ++
  leBytes 4 f.ticket ++ leBytes 4 f.xfer ++ leBytes 4 f.offset ++ leBytes 4 f.arg ++
  leBytes 2 (f.garment + 4096 * (f.resv / 262144 % 16))

/-- Whether the header's CRC is good. -/
def RFrame.hcrcOk (f : RFrame) : Bool := f.hcrc == crc16 f.header
/-- PCRC of a payload with its last beat padded (R249, R250). -/
def payloadCrc (b : List Byte) : Nat := crc32 (padTo 32 b)
/-- Whether the payload's CRC is good. -/
def RFrame.pcrcOk (f : RFrame) : Bool := f.pcrc == payloadCrc f.payload
/-- Beats of a frame: header, payload, trailer (R249). -/
def RFrame.beats (f : RFrame) : Nat := 2 + ceilDiv f.length 32
/-- Whether a frame is malformed (R249): a reserved field, an undefined TYPE, or LENGTH above 4,096. -/
def RFrame.bad (f : RFrame) : Bool := f.resv != 0 || f.type == 0 || 6 < f.type || 4096 < f.length
/-- Whether a frame uses credits and an LSEQ (Table 12.4). -/
def RFrame.credited (f : RFrame) : Bool := f.type != 4 && f.type != 5

/-- The other port. -/
def Port.other : Port → Port
  | .east => .west | .west => .east

end Sys2Proof

namespace Sys2Proof.Machine

/-- A frame as its source makes it: TTL 2,048, PCRC computed, link fields still to be filled when it is sent. -/
def newFrame (src type : Nat) (cls : RClass) (dest ticket xfer offset arg garment : Nat) (last resv : Bool)
    (payload : List Byte) : RFrame :=
  { type := type, cls := cls, last := last, resvBulk := resv, resent := false, turned := false, dest := dest,
    src := src, ttl := 2048, lseq := 0, length := payload.length, ticket := ticket, xfer := xfer, offset := offset,
    arg := arg, garment := garment, hcrc := 0, payload := payload, pcrc := payloadCrc payload, stomp := false,
    nak := false, ack := 0, credits := [0, 0, 0, 0], resv := 0 }

/-! ### Ports and routes -/

/-- A port's state. -/
def Rnd.port (r : Rnd) : Port → RPort
  | .east => r.east | .west => r.west
/-- One port changed. -/
def Rnd.updPort (r : Rnd) (p : Port) (f : RPort → RPort) : Rnd :=
  { r with east := (if p = .east then f r.east else r.east), west := (if p = .west then f r.west else r.west) }
/-- Routing entry of a module. -/
def Rnd.route (r : Rnd) (k : Nat) : Route := Tbl.get {} r.routes k
/-- DIR of Table 12.12 from the hops: the direction with fewer, a tie East (R261). -/
def Route.steer (x : Route) : Route := { x with west := decide (x.hopsW < x.hopsE) }
/-- Port by which frames for `k` leave; none if no path is known. -/
def Rnd.exit (r : Rnd) (k : Nat) : Option Port :=
  if (r.route k).west then (if (r.route k).hopsW = 0x7FF then none else some .west)
  else (if (r.route k).hopsE = 0x7FF then none else some .east)
/-- Whether a module is known and reachable. -/
def Rnd.reachable (r : Rnd) (k : Nat) : Bool := (r.route k).valid && (r.exit k).isSome

/-- Whether the frame goes out at the other port because its own is wrapped (R264). -/
def Rnd.turns (r : Rnd) (p : Port) : Bool := (r.port p).state == .wrapped
/-- A frame of this module, or one in transit that came in by a port, queued at an egress port, or at the other one with TURNED if that port is wrapped (R264). -/
def Rnd.enqueue (r : Rnd) (p : Port) (from_ : Option Port) (f : RFrame) : Rnd :=
  r.updPort (if r.turns p then p.other else p) (fun x =>
    match from_ with
    | none => { x with egress := x.egress ++ [if r.turns p then { f with turned := true } else f] }
    | some q => { x with transit := x.transit ++ [(q, if r.turns p then { f with turned := true } else f)] })
/-- A frame of this module queued by DIR (R261); without a path it is lost, and the timeouts of R257 and R258 follow. -/
def Rnd.launch (r : Rnd) (f : RFrame) : Rnd :=
  match r.exit f.dest with
  | none => r
  | some p => r.enqueue p none f

/-! ### Control messages (R258) -/

/-- Payload of a Control message: 2-byte code, then the message's own bytes. -/
def ctlPayload (code : Nat) (b : List Byte) : List Byte := leBytes 2 code ++ b
/-- Order state with a peer. -/
def Rnd.eseqOf (r : Rnd) (k : Nat) : Eseq := Tbl.get {} r.eseq k
/-- Sends a numbered Control message and keeps it until it is acknowledged (R258). -/
def Rnd.sendControl (r : Rnd) (now dest code ticket garment : Nat) (b : List Byte) : Rnd :=
  let q := r.eseqOf dest
  let f := newFrame r.id 2 .control dest (low32 ticket) 0 q.nextOut 0 garment false false (ctlPayload code b)
  { r.launch f with
    eseq := Tbl.set r.eseq dest { q with nextOut := (q.nextOut + 1) % 4294967296, unacked := q.unacked ++ [(q.nextOut, f, now)] } }
/-- Sends MSG_ACK or XFER_ACK, which are not themselves acknowledged and take no ESEQ (R258; log 26). -/
def Rnd.sendAck (r : Rnd) (dest code ticket garment v : Nat) : Rnd :=
  r.launch (newFrame r.id 2 .control dest ticket 0 0 0 garment false false (ctlPayload code (leBytes 4 v)))
/-- RING_CHANGE to every module discovered: kind 1 SLIP_PENDING, 2 SLIP, 3 WRAP, 4 UNWRAP, 5 JOIN, and the modules
concerned (R261, R262; the kinds' numbers are log 27). -/
def Rnd.broadcastChange (r : Rnd) (now kind : Nat) (mods : List Nat) : Rnd :=
  (r.peers.map (fun e => e.1)).foldl
    (fun r k => if k = r.id then r else r.sendControl now k 0x000C 0 0 (leBytes 1 kind ++ mods.flatMap (leBytes 2))) r

end Sys2Proof.Machine
end

