-- ==== Sys2Proof/Machine/Flags.lean ====
section
/-!
DEFINITION. Every flag the block raises: event sources and their vectors (R310 to R319), log records (R320 to R322) and
alarms (R324, R325). The other files raise incidents and alarms only through these operations.
-/
namespace Sys2Proof.Machine

/-! ### Vectors -/

/-- Key of a function's vector. -/
def vecKey (fn v : Nat) : Nat := fn * 2048 + v
/-- A function's vector. -/
def Evc.vec (e : Evc) (fn v : Nat) : Vec := Tbl.get {} e.vecs (vecKey fn v)
/-- A function's vector changed. -/
def Evc.updVec (e : Evc) (fn v : Nat) (f : Vec → Vec) : Evc := { e with vecs := Tbl.upd {} e.vecs (vecKey fn v) f }
/-- Whether the moderation timer runs at `now` (R317). -/
def Vec.timing (x : Vec) (now : Nat) : Bool := match x.timer with | none => false | some t => decide (now < t)
/-- Whether a host vector's message can leave (R316, case 2). -/
def Evc.opened (e : Evc) (p : Pcie) (fn : Nat) (x : Vec) : Bool :=
  !e.disable && (p.fn fn).msixEnable && !(p.fn fn).funcMask && !x.masked && (p.fn fn).bme
/-- Whether the vector sends its message now (R316). -/
def Evc.sends (e : Evc) (p : Pcie) (now fn : Nat) (x : Vec) : Bool := x.req && (!x.timing now || x.idle) && e.opened p fn x
/-- MOD_US of a vector: the PF's own, or EVC_VF_MOD (R317). -/
def Evc.modOf (e : Evc) (fn : Nat) (x : Vec) : Nat := if fn = 0 then x.modUs else e.vfMod
/-- A vector after its message: REQ and the hint clear and the timer restarts (R316, R317). -/
def Vec.afterSend (x : Vec) (now us : Nat) : Vec :=
  { x with req := false, idle := false, timer := if us = 0 then none else some (now + usTicks us) }
/-- Sends a vector's message if R316 lets it go. -/
def Evc.trySend (e : Evc) (p : Pcie) (now fn v : Nat) : Evc :=
  if e.sends p now fn (e.vec fn v) then
    { e.updVec fn v (fun x => x.afterSend now (e.modOf fn x)) with sent := e.sent.inc, msgs := (fn, v) :: e.msgs }
  else e
/-- Sets REQ on a vector and sends if R316 lets it (R316). -/
def Evc.request (e : Evc) (p : Pcie) (now fn v : Nat) : Evc := (e.updVec fn v (fun x => { x with req := true })).trySend p now fn v

/-! ### Sources -/

/-- Sources that Table 15.1 reserves; they never become pending (R310). -/
def reservedSource (s : Nat) : Bool := (282 ≤ s && s < 320) || 596 ≤ s
/-- Source of function `f`'s CAST block (Table 15.1). -/
def castSource (f : Nat) : Nat := 256 + f
/-- A source's record. -/
def Evc.src (e : Evc) (s : Nat) : Src := Tbl.get {} e.srcs s
/-- Target of a source as (kind, function, vector or core): VF CAST sources go to that VF's vector 0 and DOE to PF
vector 0 (Table 15.1); the rest as stored (R311). -/
def Evc.route (e : Evc) (s : Nat) : Nat × Nat × Nat :=
  if 256 < s ∧ s ≤ 272 then (1, s - 256, 0) else if s = 273 then (1, 0, 0)
  else ((e.src s).target, (e.src s).func, (e.src s).vector)
/-- A source requests delivery on its target (R316); a holder core takes its message at once (R318). -/
def Evc.deliver (e : Evc) (p : Pcie) (now s : Nat) : Evc :=
  match e.route s with
  | (1, fn, v) => e.request p now fn v
  | (2, _, v) => { e with holder := (v % 4, s) :: e.holder }
  | _ => e
/-- PENDING, COUNT and SAT after an edge (R312). -/
def Src.edge (x : Src) : Src :=
  { x with
    pending := true,
    count := if x.pending then min 255 (x.count + 1) else 0,
    sat := x.sat || (x.pending && x.count == 255) }
/-- PENDING, COUNT and SAT cleared. -/
def Src.clear (x : Src) : Src := { x with pending := false, count := 0, sat := false }
/-- An edge on a source; a rise of PENDING requests delivery (R310, R312, R316). -/
def Evc.edge (p : Pcie) (now s : Nat) (e : Evc) : Evc :=
  if reservedSource s then e
  else if (e.src s).pending then { e with srcs := Tbl.upd {} e.srcs s Src.edge }
  else Evc.deliver { e with srcs := Tbl.upd {} e.srcs s Src.edge } p now s
/-- What an acknowledgement does (R313): ignored, ignored and logged, cleared, or counted down. -/
inductive Ack where
  | ignored | logged | cleared | left
deriving DecidableEq, Repr
/-- The case of R313's table for a pending flag, its count and the value seen. -/
def ackCase (pending : Bool) (n seen : Nat) : Ack :=
  if !pending then .ignored else if n < seen then .logged else if seen = n then .cleared else .left
/-- Whether a source is acknowledged implicitly (R314). -/
def implicitAck (s : Nat) : Bool := s < 273
/-- The case of R313 for a write of EVC_ACK_s. -/
def Evc.ackOf (e : Evc) (s seen : Nat) : Ack :=
  if implicitAck s then .ignored else ackCase (e.src s).pending (e.src s).count seen
/-- A source acknowledged (R313). -/
def Evc.ack (e : Evc) (p : Pcie) (now s seen : Nat) : Evc :=
  match e.ackOf s seen with
  | .cleared => { e with srcs := Tbl.upd {} e.srcs s Src.clear }
  | .left => Evc.deliver { e with srcs := Tbl.upd {} e.srcs s (fun x => { x with count := x.count - seen - 1 }) } p now s
  | _ => e

/-! ### The incident log -/

/-- CODE of an incident: the numbers of Table 11.6's reasons where the spec gives them, else free (log 13). -/
def Incident.code (i : Incident) : Nat :=
  match i with
  | .doubleFree => 1 | .badReleaser => 2 | .badState => 3 | .noHank => 4 | .bar2Drop => 5
  | _ => Config.incidentCode i % 65536
/-- Severity of an incident that is no alarm (log 13). -/
def Incident.severity (i : Incident) : Nat := Config.incidentSeverity i % 3

/-- Event sources named in Table 15.1. -/
def srcDoe : Nat := 273
/-- GAR source. -/
def srcGar : Nat := 274
/-- PAT_WRITE source. -/
def srcPatWrite : Nat := 275
/-- ALARM source. -/
def srcAlarm : Nat := 276
/-- LOG source. -/
def srcLog : Nat := 277
/-- REG_ACCESS source. -/
def srcRegAccess : Nat := 278
/-- ROUND source. -/
def srcRound : Nat := 279
/-- HBM source. -/
def srcHbm : Nat := 280
/-- HANK source. -/
def srcHank : Nat := 281

/-- Budget and suppressed count of a source. -/
def Log.src (l : Log) (s : Nat) : LogSrc := Tbl.get {} l.srcs s
/-- Whether the on-chip tier is full: 8,192 records wait to be copied (Table 15.3). -/
def Log.full (l : Log) : Bool := 8192 ≤ l.toCopy.length
/-- A record written into the on-chip tier, or counted in LOG_LOST when it is full (R321). The record's SEQ is set here. -/
def Log.put (l : Log) (r : LogRec) : Log :=
  if l.full then { l with lost := satAdd 4294967295 l.lost 1 }
  else
    let n := if l.kept then (l.seq + 1) % 4294967296 else 0
    let r := { r with seq := n }
    { l with
      chip := (r :: l.chip).take 8192,
      toCopy := l.toCopy ++ [r],
      toPersist := if 2 ≤ r.severity then l.toPersist ++ [r] else l.toPersist,
      seq := n, kept := true, headChip := (l.headChip + 1) % 8192, keptCtr := l.keptCtr.inc }
/-- Whether a record of a source is kept in full (R322). -/
def Log.keeps (l : Log) (s : Nat) : Bool := 0 < (l.src s).budget && !l.full
/-- A detailed record under its source's budget (R322). -/
def Log.add (l : Log) (r : LogRec) : Log :=
  if 0 < (l.src r.source).budget then
    (if l.full then l
     else { l with srcs := Tbl.upd {} l.srcs r.source (fun x => { x with budget := x.budget - 1 }) }).put r
  else
    { l with
      srcs := Tbl.upd {} l.srcs r.source (fun x => { x with suppressed := satAdd 65535 x.suppressed 1 }),
      lost := satAdd 4294967295 l.lost 1,
      suppCtr := l.suppCtr.inc,
      rowSupp := if l.rowSupp.contains r.source then l.rowSupp else r.source :: l.rowSupp }
/-- A source's budget restored (R322), for ROUND with those of the origin modules (R325). -/
def Log.restore (l : Log) (s : Nat) : Log :=
  { l with srcs := Tbl.upd {} l.srcs s (fun x => { x with budget := 32 }), origins := if s = srcRound then [] else l.origins }

/-- A record of this module with TIME and ORIGIN filled in (Table 15.2). -/
def Chip.logRec (c : Chip) (src sev code alarm : Nat) (ctx : Option Nat) (ticket argHi arg : Nat) : LogRec :=
  { time := c.now, seq := 0, source := src, severity := sev, summary := false, remote := false, alarm := alarm,
    code := code, context := ctx, origin := c.rnd.id, argHi := argHi, ticket := ticket, arg := low32 arg }

/-- An edge on source `s`. -/
def Chip.edge (c : Chip) (s : Nat) : Chip := { c with evc := c.evc.edge c.pcie c.now s }


/-- An incident that is no alarm: an edge on its source, and a log record under its budget; a record of severity ERROR
that is kept is an edge on LOG (R310, R320, R322, Table 15.1). -/
def Chip.incident (c : Chip) (i : Incident) (src : Nat) (ctx : Option Nat) (ticket argHi arg : Nat) : Chip :=
  { c with
    log := c.log.add (c.logRec src i.severity i.code 0xFF ctx ticket argHi arg)
    evc := (if c.log.keeps src ∧ i.severity = 2 then Evc.edge c.pcie c.now srcLog else id)
      (c.evc.edge c.pcie c.now src) }
/-- A log record without an edge on its source. -/
def Chip.note (c : Chip) (i : Incident) (src : Nat) (ctx : Option Nat) (ticket argHi arg : Nat) : Chip :=
  { c with
    log := c.log.add (c.logRec src i.severity i.code 0xFF ctx ticket argHi arg)
    evc := (if c.log.keeps src ∧ i.severity = 2 then Evc.edge c.pcie c.now srcLog else id) c.evc }
/-- A register access discarded or ignored and logged under REG_ACCESS, ARG the address (R4). -/
def Chip.regIncident (c : Chip) (i : Incident) (addr : Nat) : Chip := c.incident i srcRegAccess none 0 0 addr

/-! ### Alarms -/

/-- An alarm slot. -/
def Log.slot (l : Log) (k : Nat) : AlarmSlot := Tbl.get {} l.alarms k
/-- An alarm slot after its alarm is raised (R324). -/
def AlarmSlot.raise (x : AlarmSlot) (r : LogRec) : AlarmSlot :=
  match x.first with
  | none => { first := some r, lastTime := r.time, rep := 0, sat := false }
  | some _ => { x with lastTime := r.time, rep := min 255 (x.rep + 1), sat := x.sat || x.rep == 255 }
/-- An alarm slot acknowledged (R324 under the rules of R313). -/
def AlarmSlot.ack (x : AlarmSlot) (seen : Nat) : AlarmSlot :=
  match ackCase x.first.isSome x.rep seen with
  | .cleared => {}
  | .left => { x with rep := x.rep - seen - 1 }
  | _ => x
/-- Bytes of a log record (Table 15.2). -/
def LogRec.bytes (r : LogRec) : List Byte :=
  leBytes 8 r.time ++ leBytes 4 r.seq ++ leBytes 2 r.source ++
  leBytes 1 (r.severity + flag r.summary 2 + flag r.remote 3) ++ leBytes 1 r.alarm ++ leBytes 2 r.code ++
  leBytes 2 (match r.context with | none => 0 | some x => x + 16384) ++ leBytes 2 r.origin ++ leBytes 2 r.argHi ++
  leBytes 4 r.ticket ++ leBytes 4 r.arg
/-- Collector modules of the pattern (R325). -/
def Chip.collectors (c : Chip) : List Nat := match c.pat.pattern with | none => [] | some p => p.events.collectors
/-- An alarm sent to the collectors: at most 16 ALARM messages per class and row, the rest counted (R258, R325). -/
def Rnd.sendAlarm (r : Rnd) (now : Nat) (cols : List Nat) (rec : LogRec) : Rnd :=
  cols.foldl (fun r k => if k = r.id then r else r.sendControl now k 0x000A 0 0 rec.bytes) r
/-- The alarm's slot, record and message (R324, R325): class `k`, source `src`; the slot and the message show the SEQ of the record kept, or a
free value where it is suppressed (log 64). The ALARM source takes an edge, which
asserts ALERT_N (R377). The source itself takes an edge only where `e` says so. -/
def Chip.alarm (c : Chip) (e : Bool) (i : Incident) (k src : Nat) (ctx : Option Nat) (ticket argHi arg : Nat) : Chip :=
  let l := c.log.add (c.logRec src 3 i.code k ctx ticket argHi arg)
  let r := { c.logRec src 3 i.code k ctx ticket argHi arg with
    seq := if c.log.keeps src then l.seq else Config.unkeptSeq l.lost % 4294967296 }
  let isOver := 16 ≤ Tbl.get 0 c.log.alarmSent k
  { c with
    log :=
      { l with
        alarms := Tbl.upd {} c.log.alarms k (fun x => x.raise r)
        alarmSent := if isOver then c.log.alarmSent else Tbl.upd 0 c.log.alarmSent k (· + 1)
        alarmSupp := if isOver then Tbl.upd 0 c.log.alarmSupp k (· + 1) else c.log.alarmSupp }
    evc := Evc.edge c.pcie c.now srcAlarm (if e then c.evc.edge c.pcie c.now src else c.evc)
    rnd := if isOver then { c.rnd with alarmSupp := c.rnd.alarmSupp.inc } else c.rnd.sendAlarm c.now c.collectors r
    pins := { c.pins with alert := true } }

/-- An alarm raised where `b` holds. -/
def Chip.alarmIf (c : Chip) (b e : Bool) (i : Incident) (k src : Nat) (ctx : Option Nat) (ticket argHi arg : Nat) : Chip :=
  let d := if b then c.alarm e i k src ctx ticket argHi arg else c
  { c with log := d.log, evc := d.evc, rnd := d.rnd, pins := d.pins }
/-- An incident where `b` holds. -/
def Chip.incidentIf (c : Chip) (b : Bool) (i : Incident) (src : Nat) (ctx : Option Nat) (ticket argHi arg : Nat) : Chip :=
  let d := if b then c.incident i src ctx ticket argHi arg else c
  { c with log := d.log, evc := d.evc }
/-- An edge on a source where `b` holds. -/
def Chip.edgeIf (c : Chip) (b : Bool) (s : Nat) : Chip := { c with evc := if b then c.evc.edge c.pcie c.now s else c.evc }

/-- A record received from another module (R325): budget of its ORIGIN, source ROUND, REMOTE = 1. -/
def Log.addRemote (l : Log) (r : LogRec) : Log :=
  if 0 < Tbl.get 32 l.origins r.origin then
    (if l.full then l else { l with origins := Tbl.upd 32 l.origins r.origin (· - 1) }).put r
  else { l with lost := satAdd 4294967295 l.lost 1, suppCtr := l.suppCtr.inc,
                srcs := Tbl.upd {} l.srcs srcRound (fun x => { x with suppressed := satAdd 65535 x.suppressed 1 }),
                rowSupp := if l.rowSupp.contains srcRound then l.rowSupp else srcRound :: l.rowSupp }

/-- The row's SUMMARY record (R322): TICKET the number of sources that suppressed records, ARG the records suppressed. -/
def Chip.summaryRecord (c : Chip) (suppressed : Nat) : Chip :=
  { c with
    log := if c.log.rowSupp = [] then c.log else
      { c.log.put { c.logRec srcLog Incident.summary.severity Incident.summary.code 0xFF none c.log.rowSupp.length 0 suppressed
                    with summary := true } with rowSupp := [] }
    evc := if c.log.rowSupp = [] then c.evc else c.evc.edge c.pcie c.now srcLog }

/-! ### The rows of this family -/

/-- EVC_ACK_s: the source acknowledged, its budget restored when PENDING clears, a SEEN above COUNT logged (R313, R315,
R322). -/
def Chip.eventAck (c : Chip) (s seen : Nat) : Chip :=
  match c.evc.ackOf s seen with
  | .logged => c.regIncident .ackIgnored (0x22000 + 4 * s)
  | .cleared => { c with evc := c.evc.ack c.pcie c.now s seen, log := c.log.restore s }
  | _ => { c with evc := c.evc.ack c.pcie c.now s seen }
/-- EVC_IDLE: the hint set, and a request on the now idle vector sent at once (R318). -/
def Chip.idleHint (c : Chip) (v : Nat) : Chip :=
  { c with evc := (c.evc.updVec 0 v (fun x => { x with idle := true })).trySend c.pcie c.now 0 v }
/-- Every vector with REQ sends if it can (R319, R287). -/
def Evc.flush (e : Evc) (p : Pcie) (now : Nat) (which : Nat → Bool) : Evc :=
  (e.vecs.map (fun x => x.1)).foldl (fun e k => if which (k / 2048) then e.trySend p now (k / 2048) (k % 2048) else e) e
/-- EVC_CTRL.DISABLE written (R319). -/
def Chip.evcDisable (c : Chip) (on : Bool) : Chip :=
  { c with evc := ({ c.evc with disable := on }).flush c.pcie c.now (fun _ => true) }
/-- LOG_ALARM_ACK_k (R324). -/
def Chip.alarmAck (c : Chip) (k seen : Nat) : Chip :=
  match ackCase (c.log.slot k).first.isSome (c.log.slot k).rep seen with
  | .logged => c.regIncident .ackIgnored (0x1002000 + 4 * k)
  | _ => { c with log := { c.log with alarms := Tbl.upd {} c.log.alarms k (fun x => x.ack seen) } }

end Sys2Proof.Machine
end

