-- ==== Sys2Proof/Machine/Gauge.lean ====
section
/-!
DEFINITION. The gauge, the voltage loop, guarantee at risk and the time base (ch. 2). VCORE is held in half millivolts.
-/
namespace Sys2Proof.Machine

/-! ### Sites and paces (R26, R28) -/

/-- Mesh column of a needle in the 8 × 8 mesh. -/
def meshX (n : Nat) : Nat := n % 8
/-- Mesh row of a needle. -/
def meshY (n : Nat) : Nat := n / 8
/-- Whether a needle lies on the mesh edge. -/
def meshEdge (n : Nat) : Bool := meshX n == 0 || meshX n == 7 || meshY n == 0 || meshY n == 7
/-- Hops between two needles of the mesh. -/
def meshHops (a b : Nat) : Nat :=
  (max (meshX a) (meshX b) - min (meshX a) (meshX b)) + (max (meshY a) (meshY b) - min (meshY a) (meshY b))
/-- Needles on the mesh edge. -/
def edgeNeedles : List Nat := (List.range 64).filter meshEdge
/-- Place of an edge needle among the 28, by the free rank and then by number. -/
def sitePlace (n : Nat) : Nat :=
  (edgeNeedles.filter (fun m => decide (Config.siteRank m < Config.siteRank n ∨ (Config.siteRank m = Config.siteRank n ∧ m < n)))).length
/-- Region code of the place: 8 loops in video-core regions, then 12 in memory regions, 4 in the Round ports and 4 in the holder. -/
def placeRegion (i : Nat) : Nat := if i < 8 then 1 else if i < 20 then 2 else if i < 24 then 3 else 4
/-- Site code of a loop (Table 2.8): 0 in the needle, else the neighbouring region of an edge needle's fourth loop. -/
def loopRegion (k : Nat) : Nat := if k % 4 = 3 ∧ meshEdge (k / 4) then placeRegion (sitePlace (k / 4)) else 0
/-- A loop. -/
def Gauge.loop (g : Gauge) (k : Nat) : Loop := Tbl.get {} g.loops k
/-- Lowest reading among loops that are not retired. -/
def Gauge.lowest (g : Gauge) (ks : List Nat) : Option Nat :=
  ((ks.filter (fun k => !(g.loop k).retired)).map (fun k => (g.loop k).reading)).min?
/-- Loops within needle `n`. -/
def needleLoops (n : Nat) : List Nat := if meshEdge n then [4 * n, 4 * n + 1, 4 * n + 2] else [4 * n, 4 * n + 1, 4 * n + 2, 4 * n + 3]
/-- Lowest reading of the nearest needles that still have a live loop, `d` hops and outward (R28); the floor pace if none
has any (log 31). -/
def Gauge.nearest (g : Gauge) (ns : List Nat) : Nat → Nat → Nat
  | 0, _ => g.floor
  | fuel + 1, d =>
    match g.lowest (((List.range 64).filter (fun m => ns.any (fun n => meshHops m n == d))).flatMap needleLoops) with
    | some r => r
    | none => g.nearest ns fuel (d + 1)
/-- Pace of a needle (R26). -/
def Gauge.needlePace (g : Gauge) (n : Nat) : Nat := (g.lowest (needleLoops n)).getD (g.nearest [n] 15 0)
/-- Pace of a region of Table 2.8's codes 1 to 4 (R26). -/
def Gauge.regionPace (g : Gauge) (r : Nat) : Nat :=
  let ks := (List.range 256).filter (fun k => loopRegion k == r)
  (g.lowest ks).getD (g.nearest (ks.map (· / 4)) 15 0)

/-! ### The voltage loop -/

/-- VCORE setpoint changed; the regulator settles within 20 µs (R31). -/
def Gauge.setVcore (g : Gauge) (v : Nat) : Gauge :=
  { g with vcore2 := v, settleAt := if v = g.vcore2 then g.settleAt else some (g.time + usTicks 20) }
/-- Whether a row minimum meets the margin target floor × 1.08 (R29). -/
def Gauge.meets (g : Gauge) (rowMin : Nat) : Bool := decide (g.floor * 108 ≤ rowMin * 100)
/-- The step of R30 for a row minimum. -/
def Gauge.r30 (g : Gauge) (rowMin : Nat) : Gauge :=
  if rowMin * 100 < g.floor * 108 then { g.setVcore (min (g.vcore2 + 10) 1800) with calmRows := 0 }
  else if g.floor * 112 ≤ rowMin * 100 then
    (if 8 ≤ g.calmRows + 1 then { g.setVcore (max (g.vcore2 - 5) (2 * g.vmin)) with calmRows := 0 }
     else { g with calmRows := g.calmRows + 1 })
  else { g with calmRows := 0 }
/-- The voltage hold at a row boundary (R32): `before` is the setpoint in force at the end of the row. -/
def Gauge.r32 (g : Gauge) (before rowMin : Nat) : Gauge :=
  if g.holdVoltage then
    (if g.meets rowMin then
       (if 4 ≤ g.goodRows + 1 then { g with holdVoltage := false, goodRows := 0 } else { g with goodRows := g.goodRows + 1 })
     else { g with goodRows := 0 })
  else if before = 1800 ∧ ¬ g.meets rowMin then { g with holdVoltage := true, goodRows := 0 } else g
/-- The fast step of R31 for the lowest reading of a window; at 900 mV it raises nothing and counts all the same (log 108). -/
def Gauge.fastStep (g : Gauge) (low : Nat) : Gauge :=
  if low * 100 < g.floor * 104 ∧ g.fastHold = none then
    { g.setVcore (min (g.vcore2 + 40) 1800) with fastHold := some (g.time + usTicks 50), fast := g.fast.inc }
  else g
/-- Guarantee at risk rises: the event and alarm 1 (R32). -/
def Chip.garRise (c : Chip) (before : Bool) : Chip := c.alarmIf (c.gar && !before) true .garRise 1 srcGar none 0 0 0

/-! ### Windows (R25 to R28) -/

/-- Whether the module is in Doze. -/
def Chip.dozing (c : Chip) : Bool := c.rung.rung == .doze
/-- A loop's reading from its count (R25). -/
def Loop.scaled (x : Loop) (count : Nat) : Nat := count * x.calNum / x.calDen
/-- A reading that R28 rejects. -/
def implausible (r : Nat) : Bool := r < 500 || 3000 < r
/-- A loop after an accepted reading. -/
def Loop.accept (x : Loop) (r : Nat) : Loop := { x with reading := r, rejected := 0 }
/-- A loop after a rejected reading; the 16th in consecutive windows retires it (R28). -/
def Loop.reject (x : Loop) : Loop :=
  { x with rejected := x.rejected + 1, retired := decide (16 ≤ x.rejected + 1), reading := if 16 ≤ x.rejected + 1 then 0 else x.reading }
/-- The gauge after loop `k`'s count of a window, with the loops rejected so far. -/
def windowLoop (doze : Bool) (acc : Gauge × Nat × List Nat) (kc : Nat × Nat) : Gauge × Nat × List Nat :=
  let g := acc.1
  let x := g.loop kc.1
  let r := x.scaled kc.2
  if x.retired || (doze && loopRegion kc.1 < 3) then acc
  else if implausible r then
    ({ g with loops := Tbl.set g.loops kc.1 x.reject, implausible := satAdd 65535 g.implausible 1 }, acc.2.1, acc.2.2 ++ [kc.1])
  else
    ({ g with
       loops := Tbl.set g.loops kc.1 (x.accept r)
       minPace := if r < g.minPace then r else g.minPace
       minLoop := if r < g.minPace then kc.1 else if r = g.minPace then min kc.1 g.minLoop else g.minLoop
       meanSum := g.meanSum + r, meanCount := g.meanCount + 1 }, min acc.2.1 r, acc.2.2)
/-- All loops of a window. -/
def Gauge.window (g : Gauge) (doze : Bool) (counts : List Nat) : Gauge × Nat × List Nat :=
  ((List.range counts.length).zip counts).foldl (windowLoop doze) (g, 0xFFF, [])
/-- The end of a 10 µs window: readings, row minimum, GAUGE_BELOW_FLOOR, fast step (R25 to R28, R31, R33). -/
def Gauge.windowEnd (g : Gauge) (doze : Bool) (counts : List Nat) : Gauge × List Nat :=
  let g0 := { g.advance (g.windowStart + 250) with windowStart := g.windowStart + 250 }
  let w := g0.window doze counts
  let g1 := { w.1 with below := if w.2.1 < g.floor then w.1.below.inc else w.1.below }
  (if doze then g1 else g1.fastStep w.2.1, w.2.2)
/-- The window's end on the chip; each rejected reading is logged with its loop index (R28). -/
def Chip.gaugeWindowEnd (c : Chip) (counts : List Nat) : Chip :=
  if c.gauge.running then
    (c.gauge.windowEnd c.dozing counts).2.foldl (fun c k => c.note .implausible srcGar none 0 0 k)
      { c with gauge := (c.gauge.windowEnd c.dozing counts).1 }
  else c

/-- The gauge's part of the snapshot (R8, R27). -/
def Gauge.latch (g : Gauge) : Gauge :=
  { g with
    minPaceSnap := g.minPace, minLoopSnap := g.minLoop, minPace := 0xFFF, minLoop := 0
    meanSnap := g.meanSum / g.meanCount, meanSum := 0, meanCount := 0
    fast := g.fast.latch, below := g.below.latch, snapRow := g.rowNum }

/-! ### The commands -/

/-- GAUGE_WINDOW_END (R25). -/
def execGaugeWindowEnd (counts : List Nat) (s : State) : Host.Outcome State Fault Refusal :=
  .next { s with chip := s.chip.gaugeWindowEnd counts }

/-- The 50 µs after a fast step are over (R31). -/
def Gauge.fastExpire (g : Gauge) : Gauge := { g.advance (g.fastHold.getD 0) with fastHold := none }
/-- FAST_HOLD_EXPIRE (R31). -/
def execFastHoldExpire (s : State) : Host.Outcome State Fault Refusal :=
  .next { s with chip := { s.chip with gauge := s.chip.gauge.fastExpire } }

/-- The regulator has settled on the setpoint (R31). -/
def Gauge.settle (g : Gauge) : Gauge := { g.advance (g.settleAt.getD 0) with settled2 := g.vcore2, settleAt := none }
/-- VCORE_SETTLED (R31). -/
def execVcoreSettled (s : State) : Host.Outcome State Fault Refusal :=
  .next { s with chip := { s.chip with gauge := s.chip.gauge.settle } }

/-- A provisional row boundary (R35): the step of R30 on the provisional row minimum, then GAUGE_MIN restarts. -/
def Gauge.provisionalRow (g : Gauge) : Gauge :=
  let g0 := g.advance (g.rowStart + 25000)
  { g0.r30 g.minPace with rowStart := g.rowStart + 25000, minPace := 0xFFF, minLoop := 0, meanSum := 0, meanCount := 0 }
/-- Settling of VCORE and the 50 µs of a fast step that are over by a moment (R31). -/
def Gauge.timers (g : Gauge) (t : Nat) : Gauge :=
  let g1 := if decide (g.settleAt.getD (t + 1) ≤ t) then { g with settled2 := g.vcore2, settleAt := none } else g
  if decide (g1.fastHold.getD (t + 1) ≤ t) then { g1 with fastHold := none } else g1
/-- A window of a start before the pattern is applied (R35). -/
def Chip.startWindow (c : Chip) (counts : List Nat) : Chip :=
  Chip.gaugeWindowEnd { c with gauge := c.gauge.timers (c.gauge.windowStart + 250) } counts
/-- A provisional row of a start: its windows, then its boundary (R35). -/
def Chip.startRow (c : Chip) (windows : List (List Nat)) : Chip :=
  let d := windows.foldl Chip.startWindow c
  { d with gauge := d.gauge.provisionalRow }
/-- PROVISIONAL_ROW_BOUNDARY (R35): only before the pattern is applied. -/
def execProvisionalRowBoundary (s : State) : Host.Outcome State Fault Refusal :=
  .next { s with chip := { s.chip with gauge :=
    if s.chip.gauge.running ∧ s.chip.gauge.provisional then s.chip.gauge.provisionalRow else s.chip.gauge } }

/-- Whether the margin has not been reached within 64 rows of step 8 (R35). -/
def Gauge.marginLate (g : Gauge) : Bool := !g.marginMet && decide (64 ≤ g.startRows)
/-- The voltage hold set by R35. -/
def Chip.marginTimeout (c : Chip) : Chip :=
  Chip.garRise { c with gauge :=
    { c.gauge with
      holdVoltage := c.gauge.holdVoltage || c.gauge.marginLate
      goodRows := if c.gauge.marginLate then 0 else c.gauge.goodRows } } c.gar
/-- MARGIN_TIMEOUT (R35). -/
def execMarginTimeout (s : State) : Host.Outcome State Fault Refusal := .next { s with chip := s.chip.marginTimeout }

/-- The upper half latched (R37). -/
def Gauge.latchTime (g : Gauge) : Gauge := { g with timeHi := g.time / 4294967296 }
/-- GAUGE_TIME_LO_READ (R37). -/
def execGaugeTimeLoRead (s : State) : Host.Outcome State Fault Refusal :=
  .next { s with chip := { s.chip with gauge := s.chip.gauge.latchTime } }

/-- The crystal has failed (R38): CRYSTAL_FAIL, alarm 0, the crystal hold; outputs are marked late while it stands. -/
def Chip.crystalFail (c : Chip) : Chip :=
  Chip.garRise (Chip.alarmIf { c with gauge := { c.gauge with crystalFail := true, holdCrystal := true } }
    (!c.gauge.crystalFail) false .crystalFail 0 srcGar none 0 0 0) c.gar
/-- CRYSTAL_FAIL (R38). -/
def execCrystalFail (s : State) : Host.Outcome State Fault Refusal := .next { s with chip := s.chip.crystalFail }

end Sys2Proof.Machine
end

