-- ==== Sys2Proof/Machine/Tension.lean ====
section
/-!
DEFINITION. Tension, the thermal states and the rungs (ch. 16). Powers are in mW, caps in 0.1 W, temperatures in 0.25 °C.
-/
namespace Sys2Proof.Machine

/-! ### Power samples (R326, R327, R332) -/

/-- Whether a sample is discarded (R327): outside 0 to 450 W or 30 to 70 V. -/
def badSample (mw mv : Nat) : Bool := 450000 < mw || mv < 30000 || 70000 < mv
/-- Whether the input voltage lies outside 40 to 60 V. -/
def vinOut (mv : Nat) : Bool := mv < 40000 || 60000 < mv
/-- Whether a sample exceeds 1.1 × cap_eff (R332). -/
def Tens.cuts (t : Tens) (mw : Nat) : Bool := decide (t.capEff * 110 < mw)
/-- A 10 kHz sample taken in (R326, R327, R332). -/
def Tens.sample (t : Tens) (mw mv : Nat) : Tens :=
  if badSample mw mv then { t with sampleBad := t.sampleBad + 1 }
  else
    { t with
      sampleSum := t.sampleSum + mw, sampleOk := t.sampleOk + 1
      meas := (t.sampleSum + mw) / (t.sampleOk + 1) / 100
      vin := mv, vinRange := vinOut mv
      rateB := if t.cuts mw then 1 else t.rateB
      shedding := t.shedding || t.cuts mw
      fastCut := if t.cuts mw then t.fastCut.inc else t.fastCut }

/-! ### Thermal sensors (R328) -/

/-- A sensor. -/
def Tens.sensor (t : Tens) (k : Nat) : Sensor := Tbl.get {} t.sensors k
/-- Whether a reading is ignored: outside −40 to 150 °C. -/
def tempBad (x : Int) : Bool := x < -160 || 600 < x
/-- A sensor after a reading; the 16th ignored in a row retires it. -/
def Sensor.read (x : Sensor) (t : Int) : Sensor :=
  if x.retired then x
  else if tempBad t then { x with ignored := x.ignored + 1, retired := decide (16 ≤ x.ignored + 1) }
  else { x with temp := t, ignored := 0 }
/-- Sensors that this reading retires. -/
def Tens.retiring (t : Tens) (temps : List Int) : List Nat :=
  ((List.range temps.length).zip temps).filterMap (fun e =>
    if !(t.sensor e.1).retired && ((t.sensor e.1).read e.2).retired then some e.1 else none)
/-- Valid readings of a 100 µs reading. -/
def Tens.valid (t : Tens) (temps : List Int) : List Int :=
  ((List.range temps.length).zip temps).filterMap (fun e => if (t.sensor e.1).retired || tempBad e.2 then none else some e.2)
/-- The sensors read (R328). -/
def Tens.readTemps (t : Tens) (temps : List Int) : Tens :=
  { t with
    sensors := ((List.range temps.length).zip temps).foldl (fun m e => Tbl.upd {} m e.1 (fun x => x.read e.2)) t.sensors
    tj := (t.valid temps).foldl (fun a x => some (match a with | none => x | some y => max x y)) t.tj }
/-- Whether a valid reading is a Trip reading: 110 °C or above (Table 16.1). -/
def Tens.trips (t : Tens) (temps : List Int) : Bool := (t.valid temps).any (fun x => decide (440 ≤ x))
/-- Whether every one of the 32 sensors is retired. -/
def Tens.blind (t : Tens) : Bool := (List.range 32).all (fun k => (t.sensor k).retired)
/-- Tj of the row that ends (R328). -/
def Tens.rowTj (t : Tens) : Int :=
  if t.blind then 424 else match t.tj with | some x => x | none => t.tjLast.getD 424
/-- Thermal state of a row's Tj (Table 16.1). -/
def thermalOf (tj : Int) : Thermal := if tj < 380 then .normal else if tj ≤ 400 then .warm else if tj < 420 then .hot else .critical
/-- Effective cap of a row's Tj (Table 16.1), in 0.1 W. -/
def capOf (cap : Nat) (tj : Int) : Nat := if tj < 380 then cap else max 600 (cap - 50 * (tj - 380).toNat)
/-- The thermal state and the effective cap for the next row (R329). -/
def Tens.thermalStep (t : Tens) : Tens :=
  { t with thermal := thermalOf t.rowTj, capEff := capOf t.cap t.rowTj, tjLast := some t.rowTj, tj := none }

/-! ### Calibration (R327) -/

/-- Whether more than half of the row's samples were discarded. -/
def Tens.halfBad (t : Tens) : Bool := decide (t.sampleOk + t.sampleBad < 2 * t.sampleBad)
/-- Whether the estimate used for the row missed the row's measured power by more than 15% of the cap. -/
def Tens.missed (t : Tens) : Bool :=
  match t.estUsed with
  | none => false
  | some e => t.sampleOk != 0 &&
      decide (15 * t.cap * t.sampleOk < (max (e * t.sampleOk) t.sampleSum) - (min (e * t.sampleOk) t.sampleSum))
/-- Rows in a row that missed, this one included. -/
def Tens.misses (t : Tens) : Nat := if t.missed then t.mismatch + 1 else 0
/-- Whether the condition of R327 holds. -/
def Tens.calBad (t : Tens) : Bool := t.halfBad || decide (8 ≤ t.misses)
/-- The calibration check at a row's end (R327); it ends after the condition has been clear for 16 rows (log 32). -/
def Tens.calibrate (t : Tens) : Tens :=
  { t with
    mismatch := t.misses
    clearRows := if t.calBad then 0 else t.clearRows + 1
    calFrozen := t.calBad || (t.calFrozen && decide (t.clearRows + 1 < 16))
    scaled := t.calBad || (t.scaled && decide (t.clearRows + 1 < 16)) }

/-! ### The tension step (R330, R331) -/

/-- g_floor (R330). -/
def guaranteedFloor (floor rowMin : Nat) : Nat := if rowMin = 0 then 64 else min 64 (ceilDiv (64 * floor) rowMin)
/-- min(limit, ceil(cut / w)) of R331; a unit that saves nothing leaves the limit. -/
def cutUnits (limit cut : Int) (w : Nat) : Int := if w = 0 then limit else min limit (ceilDiv cut.toNat w : Nat)
/-- Estimate for the coming row, times 1.10 while the calibration is frozen (R327). -/
def Tens.power (t : Tens) (estimate : Nat) : Nat := if t.scaled then estimate * 11 / 10 else estimate
/-- The cuts of R331's first branch: rates, shedding, over. -/
def Tens.cut (t : Tens) (gf : Nat) (e : RowEnv) (cut : Int) : Tens × Bool :=
  let uB := cutUnits (t.rateB - 1 : Nat) cut e.wB
  let c1 := cut - uB * e.wB
  let uG : Int := if 0 < c1 then cutUnits ((t.rateG : Int) - gf) c1 e.wG else 0
  let c2 := c1 - uG * e.wG
  ({ t with rateB := (t.rateB - uB).toNat, rateG := (t.rateG - uG).toNat, shedding := t.shedding || decide (0 < c2), restoreRows := 0 },
   decide (0 < c2 ∧ 0 < c2 - e.beOther))
/-- The restoring branch of R331. -/
def Tens.restore (t : Tens) (anyDegraded : Bool) : Tens × Bool :=
  let full := decide (16 ≤ t.restoreRows + 1) && anyDegraded
  ({ t with rateG := 64, shedding := false, rateB := min 64 (t.rateB + 8), restoreRows := if full then 0 else t.restoreRows + 1 }, full)
/-- The branches of R331: the new state, whether the row ends over, whether one ticket is restored. -/
def Tens.branch (t : Tens) (gf : Nat) (e : RowEnv) (anyDegraded : Bool) : Tens × Bool × Bool :=
  if t.capEff * 98 < t.power e.estimate then
    ((t.cut gf e ((t.power e.estimate : Int) - (t.capEff * 98 : Nat))).1,
     (t.cut gf e ((t.power e.estimate : Int) - (t.capEff * 98 : Nat))).2, false)
  else if t.power e.estimate < t.capEff * 92 then ((t.restore anyDegraded).1, false, (t.restore anyDegraded).2)
  else ({ t with restoreRows := 0 }, false, false)
/-- The floor and the Critical state override the rates (R330, R331, R329). -/
def Tens.override (t : Tens) (gf : Nat) : Tens :=
  { t with
    gFloor := gf
    rateG := if t.thermal = .critical then 1 else max t.rateG gf
    rateB := if t.thermal = .critical then 1 else t.rateB
    shedding := t.shedding || t.thermal == .critical }
/-- OVER after a row boundary (R334). -/
def Tens.setOver (t : Tens) (isOver : Bool) : Tens :=
  { t with
    isOver := isOver || (t.isOver && decide (t.calmOver + 1 < 4))
    calmOver := if isOver then 0 else t.calmOver + 1 }
/-- The estimate recorded for the coming row, and gain and offset unless frozen (R326, R327). -/
def Tens.fit (t : Tens) (e : RowEnv) : Tens :=
  { t with
    estUsed := some (t.power e.estimate), est := min 8191 (t.power e.estimate / 100)
    gain := if t.calFrozen then t.gain else e.gain, offset := if t.calFrozen then t.offset else e.offset
    wB := e.wB, wG := e.wG, sampleSum := 0, sampleOk := 0, sampleBad := 0, meas := 0 }
/-- The TENS part of the snapshot (R8). -/
def Tens.latch (t : Tens) (row : Nat) : Tens :=
  { t with
    measSnap := t.meas, estSnap := t.est, tjSnap := t.rowTj, fastCut := t.fastCut.latch, shed := t.shed.latch, snapRow := row }

/-- The ticket that `better` prefers among those that `p` admits; `better x y` says that x beats the earlier y. -/
def pickTicket (l : List Ticket) (p : Ticket → Bool) (better : Ticket → Ticket → Bool) : Option Ticket :=
  l.foldl (fun a x => if p x then (match a with | none => some x | some y => if better x y then some x else some y) else a) none
/-- The ticket that DEGRADE 1 takes: guaranteed, lowest PRIORITY, ties to the latest cast on (R334). -/
def degradeChoice (l : List Ticket) : Option Ticket :=
  pickTicket l (fun x => x.guaranteed && !x.degraded) (fun x y => decide (x.priority ≤ y.priority))
/-- The degraded ticket restored first: highest PRIORITY, ties to the earliest cast on (R334). -/
def restoreChoice (l : List Ticket) : Option Ticket :=
  pickTicket l (fun x => x.degraded) (fun x y => decide (y.priority < x.priority))
/-- One ticket falls back under R199, with its event and alarm 17 (R334). -/
def Chip.degradeOne (c : Chip) : Chip :=
  match (if c.tens.degrade = 1 then degradeChoice c.cast.tickets else none) with
  | none => c
  | some t => ({ c with cast := c.cast.updTicket t.id (fun x => { x with degraded := true }) }).alarm true .degraded 17 321 none t.id 0 0
/-- One degraded ticket restored, with its event (R331, R334). -/
def Chip.restoreOne (c : Chip) : Chip :=
  match restoreChoice c.cast.tickets with
  | none => c
  | some t => ({ c with cast := c.cast.updTicket t.id (fun x => { x with degraded := false }) }).incident .restored 321 none t.id 0 0

/-- Thermal state and calibration for the row that begins, with their alarms (R327, R329). -/
def Chip.thermalRow (c : Chip) : Chip :=
  let t := c.tens.thermalStep.calibrate
  let c1 := { c with tens := t }
  let c2 := c1.alarmIf (t.thermal == .hot && c.tens.thermal != .hot) true .thermalHot 18 322 none 0 0 0
  let c3 := c2.alarmIf (t.thermal == .critical && c.tens.thermal != .critical) true .thermalCritical 19 323 none 0 0 0
  let c4 := c3.alarmIf (t.calFrozen && !c.tens.calFrozen) true .calFrozen 22 325 none 0 0 0
  { c4 with pins := { c4.pins with alertHot := t.thermal == .hot || t.thermal == .critical } }
/-- Tension's step at a row boundary (R331, R334), after R30. -/
def Chip.tensionRow (c : Chip) (e : RowEnv) : Chip :=
  let gf := guaranteedFloor c.gauge.floor c.gauge.minPaceSnap
  let b := c.tens.branch gf e (c.cast.tickets.any (fun x => x.degraded))
  let t := ((b.1.override gf).setOver b.2.1).fit e
  let c1 := { c with tens := t }
  let c2 := c1.alarmIf b.2.1 (t.isOver && !c.tens.isOver) .tensionOver 16 320 none 0 0 0
  let c3 := if b.2.1 then c2.degradeOne else c2
  if b.2.2 then c3.restoreOne else c3

/-! ### Rungs (R336 to R338) -/

/-- Whole microseconds passed since the rung was entered. -/
def RungB.elapsed (r : RungB) (now : Nat) : Nat := (now - r.since) / 25
/-- Time in Hush or Doze brought up to `now`. -/
def RungB.settle (r : RungB) (now : Nat) : RungB :=
  { r with
    hushTime := if r.rung = .hush then r.hushTime.add (r.elapsed now) else r.hushTime
    dozeTime := if r.rung = .doze then r.dozeTime.add (r.elapsed now) else r.dozeTime
    since := if r.rung = .hush ∨ r.rung = .doze then r.since + 25 * r.elapsed now else r.since }
/-- A rung entered at `now`. -/
def RungB.enter (r : RungB) (now : Nat) (x : Rung) : RungB := { r.settle now with rung := x, since := now }
/-- FROM code of RUNG_LAST_EXIT. -/
def Rung.fromCode : Rung → Nat
  | .run => 0 | .hush => 1 | .doze => 2 | .nap => 3 | .dormant => 4
/-- CAUSE code of a wake (R337). -/
def wakeCode : WakeCause → Nat
  | .host => 0 | .round => 1 | .marker => 2 | .holder => 3
/-- Bound of an exit in ns (Table 16.2). -/
def Rung.exitBound : Rung → Nat
  | .run => 0 | .hush => 1000 | .doze => 10000 | .nap => 1000000 | .dormant => 100000000
/-- A rung left for Run, recorded in RUNG_LAST_EXIT and RUNG_EXITS (R338). -/
def RungB.leave (r : RungB) (now cause draw : Nat) : RungB :=
  { r.settle now with
    rung := .run, since := now, exitFrom := r.rung.fromCode, exitCause := cause
    exitNs := min 0xFFFFF (min (Config.duration draw) r.rung.exitBound), exits := r.exits.inc }
/-- Whether a needle has a ready or running band, an operation or a DMA transfer. -/
def Needle.busyNow (n : Needle) : Bool :=
  !n.ops.isEmpty || !n.waiting.isEmpty || !n.dma.isEmpty || n.band.isSome || n.swap.isSome
/-- No ready band, picture, DMA transfer or hank operation (R337). -/
def Chip.idle (c : Chip) : Bool :=
  c.ndl.tab.all (fun e => !e.2.busyNow) && c.vdec.cores.all (fun e => e.2.job.isNone) && c.vdec.ready.isEmpty &&
  c.venc.cores.all (fun e => e.2.job.isNone) && c.venc.waiting.isEmpty && c.hank.waiters.isEmpty
/-- Entry to Hush or Doze: the rung, its event (R337, R338, Table 16.4). -/
def Chip.enterRung (c : Chip) (x : Rung) : Chip :=
  { c with
    rung := { c.rung.enter c.now x with vcoreKept := c.gauge.vcore2 }
    hbm := { c.hbm with selfRefresh := c.hbm.selfRefresh || x == .doze }
    evc := c.evc.edge c.pcie c.now 326 }
/-- Whether Hush may be entered (R337). -/
def Chip.hushable (c : Chip) : Bool := c.rung.rung == .run && decide (1 ≤ c.rung.limit) && c.idle
/-- HUSH_ENTRY (R337). -/
def execHushEntry (s : State) : Host.Outcome State Fault Refusal :=
  .next { s with chip := if s.chip.hushable then s.chip.enterRung .hush else s.chip }
/-- Whether Doze may be entered (R337). -/
def Chip.dozeable (c : Chip) : Bool := c.rung.rung == .hush && decide (2 ≤ c.rung.limit) && c.idle && !c.guaranteedLive
/-- DOZE_ENTRY (R337). -/
def execDozeEntry (s : State) : Host.Outcome State Fault Refusal :=
  .next { s with chip := if s.chip.dozeable then s.chip.enterRung .doze else s.chip }
/-- The module returns to Run (R337, R338): on exit from Doze VCORE returns to the setpoint held at entry. -/
def Chip.wake (c : Chip) (cause : Nat) : Chip :=
  if c.rung.rung = .hush ∨ c.rung.rung = .doze then
    { c with
      rung := c.rung.leave c.now cause c.freeCtr
      gauge := { c.gauge with vcore2 := if c.rung.rung = .doze then c.rung.vcoreKept else c.gauge.vcore2 }
      hbm := { c.hbm with selfRefresh := false }
      evc := c.evc.edge c.pcie c.now 326
      freeCtr := c.freeCtr + 1 }
  else c
/-- WAKE (R337). -/
def execWake (c : WakeCause) (s : State) : Host.Outcome State Fault Refusal :=
  .next { s with chip := s.chip.wake (wakeCode c) }

end Sys2Proof.Machine
end

