-- ==== Sys2Proof/Machine/HostQueue.lean ====
section
/-!
DEFINITION. Queue pairs, completion records and read tags of the host endpoint (ch. 13): what every submission and every
output shares.
-/
namespace Sys2Proof.Machine

/-! ### Tags (R284 to R288) -/

/-- Completion timeout in ticks for a Completion Timeout Value (Table 13.10). -/
def timeoutTicks (v : Nat) : Nat :=
  if v = 1 then 2500 else if v = 2 then 200000 else if v = 5 then 800000 else if v = 6 then 3200000 else 400000
/-- Lowest number not among sorted keys. -/
def lowestFree : List Nat → Nat → Nat
  | [], n => n
  | k :: ks, n => if k = n then lowestFree ks (n + 1) else lowestFree ks n
/-- Tags in use by a function (Table 13.17): outstanding ones. -/
def Pcie.tagsOf (p : Pcie) (fn : Nat) : Nat := (p.tags.filter (fun e => e.2.fn == fn && (e.2.state == .outstanding || e.2.state == .discard))).length
/-- Whether a quarantined state. -/
def TagState.quarantined : TagState → Bool
  | .quarantinedTimeout => true | .quarantinedFlr => true | _ => false
/-- Tags in quarantine. -/
def Pcie.quarantined (p : Pcie) : Nat := (p.tags.filter (fun e => e.2.state.quarantined)).length
/-- A read request sent: the lowest free tag is taken, within 768 tags and 256 for the function (R284). -/
def Pcie.take (p : Pcie) (now fn : Nat) (w : ReadFor) (st : TagState) : Pcie :=
  { p with
    tags :=
      if 256 ≤ p.tagsOf fn ∨ 768 ≤ p.tags.length then p.tags
      else Tbl.set p.tags (lowestFree (p.tags.map (fun e => e.1)) 0)
        { fn := fn, purpose := w, sent := now, timeout := timeoutTicks (p.fn fn).cplTimeout, state := st } }
/-- The outstanding reads for a purpose answered: their tags are freed. -/
def Pcie.endReads (p : Pcie) (w : ReadFor) : Pcie :=
  { p with tags := p.tags.filter (fun e => !(e.2.purpose == w && e.2.state == .outstanding)) }
/-- The outstanding reads for a purpose timed out: their tags are quarantined, AER and PCIE_CPL_TIMEOUT count (R285). -/
def Pcie.timeoutReads (p : Pcie) (w : ReadFor) : Pcie :=
  { p with
    tags := p.tags.mapV (fun t => if t.purpose = w ∧ t.state = .outstanding then { t with state := .quarantinedTimeout } else t)
    cplTo := p.cplTo.inc, aerTimeouts := p.aerTimeouts + 1 }
/-- Bytes read from the host, counted in KiB (Table 13.14); traffic brings the link back to L0 (R290). -/
def Pcie.countRead (p : Pcie) (n : Nat) : Pcie :=
  { p with power := .l0, rdKib := p.rdKib.add ((p.rdBytes + n) / 1024), rdBytes := (p.rdBytes + n) % 1024 }
/-- Bytes written to the host, counted in KiB. -/
def Pcie.countWrite (p : Pcie) (n : Nat) : Pcie :=
  { p with power := .l0, wrKib := p.wrKib.add ((p.wrBytes + n) / 1024), wrBytes := (p.wrBytes + n) % 1024 }
/-- The endpoint after a read that its command resolves: data counted, or a timeout with its tag quarantined (R285). -/
def Pcie.resolve (p : Pcie) (now fn : Nat) (w : ReadFor) : HostRead → Pcie
  | .data b => (p.endReads w).countRead b.length
  | .timedOut => if p.tags.any (fun e => e.2.purpose == w && e.2.state == .outstanding) then p.timeoutReads w
                 else { p.take now fn w .quarantinedTimeout with cplTo := p.cplTo.inc, aerTimeouts := p.aerTimeouts + 1 }
  | .failed => p.endReads w

/-! ### Writes to the host -/

/-- A memory write to the host (log 8). -/
def Chip.hostWrite (c : Chip) (addr : Nat) (b : List Byte) : Chip :=
  { c with hostTx := c.hostTx ++ [{ addr := addr, bytes := b }], pcie := c.pcie.countWrite b.length }

/-! ### Completion queues (R278, R281) -/

/-- Entries of the SQ. -/
def Queue.sqSize (q : Queue) : Nat := 2 ^ q.sqLog2
/-- Records of the CQ. -/
def Queue.cqSize (q : Queue) : Nat := 2 ^ q.cqLog2
/-- Room of R278: size, less records not consumed, less records reserved. -/
def Queue.room (q : Queue) : Nat := q.cqSize - q.cqCount - q.reserved
/-- Bytes of a CQ record (Table 13.8). -/
def CqRec.bytes32 (r : CqRec) (sqHead : Nat) (phase : Bool) : List Byte :=
  leBytes 2 r.tag ++ leBytes 1 r.status ++ leBytes 1 r.kind ++ leBytes 4 r.ticket ++ leBytes 4 r.source ++
  leBytes 4 r.list ++ leBytes 4 r.bytes ++ leBytes 8 r.pts ++ leBytes 2 sqHead ++ leBytes 1 (flag r.late 0) ++
  leBytes 1 (flag phase 0)
/-- The CQ after one more record is written. -/
def Queue.written (q : Queue) : Queue :=
  { q with
    cqTail := (q.cqTail + 1) % q.cqSize, cqCount := q.cqCount + 1
    phase := if q.cqTail + 1 = q.cqSize then !q.phase else q.phase }
/-- A record written at the tail of CQ `g`: one 32-byte write, the QUEUE source's edge (R281, R283). -/
def Chip.cqPut (c : Chip) (g : Nat) (r : CqRec) : Chip :=
  let q := c.queue g
  { c with
    hostTx := c.hostTx ++ [{ addr := q.cqBase + 32 * q.cqTail, bytes := r.bytes32 q.sqHead q.phase }]
    pcie := c.pcie.countWrite 32
    queues := Tbl.set c.queues g q.written
    evc := c.evc.edge c.pcie c.now g }
/-- A record of function `fn` held while Bus Master Enable is 0 (R287). -/
def Chip.cqHold (c : Chip) (g : Nat) (r : CqRec) : Chip :=
  { c with pcie := c.pcie.updFn (queueFn g) (fun f => { f with held := f.held ++ [(g, r)] }) }
/-- A record that has a reservation is written, or held while Bus Master Enable is 0 (R278, R287). -/
def Chip.cqWrite (c : Chip) (g : Nat) (r : CqRec) : Chip :=
  if (c.pcie.fn (queueFn g)).bme then (c.updQueue g (fun q => { q with reserved := q.reserved - 1 })).cqPut g r
  else c.cqHold g r
/-- An answer's record (Table 13.8). -/
def answerRec (tag status ticket bytes : Nat) : CqRec :=
  { tag := tag, status := status, kind := 0, ticket := ticket, source := 0, list := 0xFFFFFFFF, bytes := bytes, pts := 0, late := false }
/-- An entry answered. -/
def Chip.answer (c : Chip) (g tag status ticket bytes : Nat) : Chip := c.cqWrite g (answerRec tag status ticket bytes)

/-! ### Status codes (Table 13.9) -/

/-- OK. -/
def stOk : Nat := 0
/-- STREAM_CLOSED. -/
def stClosed : Nat := 1
/-- BAD_DESCRIPTOR. -/
def stBad : Nat := 2
/-- UNKNOWN_TICKET. -/
def stUnknown : Nat := 3
/-- NO_HANKS. -/
def stNoHanks : Nat := 4
/-- HOST_ACCESS_OFF. -/
def stAccessOff : Nat := 5
/-- DMA_ERROR. -/
def stDma : Nat := 6
/-- TIMEOUT. -/
def stTimeout : Nat := 7
/-- FENCED. -/
def stFenced : Nat := 8

/-! ### Submission entries (R277 to R279) -/

/-- Fields of a submission entry (Table 13.6). -/
def eOp (e : List Byte) : Nat := le e 0 1
/-- FLAGS. -/
def eFlags (e : List Byte) : Nat := le e 1 1
/-- TAG. -/
def eTag (e : List Byte) : Nat := le e 2 2
/-- TICKET. -/
def eTicket (e : List Byte) : Nat := le e 4 4
/-- ADDR. -/
def eAddr (e : List Byte) : Nat := le e 8 8
/-- LEN. -/
def eLen (e : List Byte) : Nat := le e 16 4
/-- COUNT. -/
def eCount (e : List Byte) : Nat := le e 20 2
/-- MARKER. -/
def eMarker (e : List Byte) : Nat := le e 22 2
/-- VALUE. -/
def eValue (e : List Byte) : Nat := le e 24 4
/-- TIMEOUT_US. -/
def eTimeout (e : List Byte) : Nat := le e 28 4
/-- PTS. -/
def ePts (e : List Byte) : Nat := le e 32 8
/-- ADDR2. -/
def eAddr2 (e : List Byte) : Nat := le e 40 8

/-- Whether the entry at the head of queue `g` can be taken: the queue runs, an entry has been handed over, the function
may read host memory, and the CQ has room for every record the entry can cause (R277, R278, R287). -/
def Chip.takes (c : Chip) (g need : Nat) : Bool :=
  (c.queue g).state == .running && (c.queue g).sqHead != (c.queue g).sqTail &&
  (c.pcie.fn (queueFn g)).bme && !(c.pcie.fn (queueFn g)).fenced && need ≤ (c.queue g).room
/-- The queue after its head entry is accepted with `need` records reserved. -/
def Queue.accept (q : Queue) (need : Nat) : Queue :=
  { q with sqHead := (q.sqHead + 1) % q.sqSize, accepted := q.accepted.inc, reserved := q.reserved + need }
/-- An entry accepted: the head advances, the records are reserved, the fetch's tag is freed (R277, R278). -/
def Chip.accept (c : Chip) (g need : Nat) : Chip :=
  { c with queues := Tbl.upd {} c.queues g (fun q => q.accept need), pcie := c.pcie.endReads (.sqEntries g) }
/-- Records reserved by an entry and no longer needed are returned (R278). -/
def Chip.unreserve (c : Chip) (g n : Nat) : Chip := c.updQueue g (fun q => { q with reserved := q.reserved - n })

/-- Whether fields that an opcode does not use are 0 (R279): `used` lists (offset, size) of the used ones; OP and TAG
always count as used. -/
def unusedZero (e : List Byte) (used : List (Nat × Nat)) : Bool :=
  (List.range 64).all (fun i => i == 0 || i == 2 || i == 3 || used.any (fun u => decide (u.1 ≤ i ∧ i < u.1 + u.2)) || (e.getD i 0) == 0)
/-- Whether TAG lies in 0x0000 to 0xFFFE. -/
def tagOk (e : List Byte) : Bool := decide (eTag e ≠ 0xFFFF)
/-- The live ticket an entry names, if it belongs to the function. -/
def Chip.fnTicket (c : Chip) (fn t : Nat) : Option Ticket :=
  match c.ticket? t with
  | none => none
  | some x => if x.fn = fn then some x else none
/-- Status of an entry that names a ticket: FENCED first (R279), then what the ticket's state makes of it (R57). -/
def Chip.ticketStatus (c : Chip) (fn t : Nat) : Nat :=
  if c.closed then stFenced
  else match c.fnTicket fn t with
    | none => if c.cast.closedIds.any (fun e => e.1 == t && e.2 == fn) then stClosed else stUnknown
    | some x => if x.closing then stClosed else stOk

end Sys2Proof.Machine
end

