-- ==== Sys2Proof/Machine/Pool.lean ====
section
/-!
DEFINITION. The hank pool, the markers and the HBM controller (ch. 11).
-/
namespace Sys2Proof.Machine

/-- Hanks of a unit's parts. -/
def partHanks (ps : List UnitPart) : List Nat := ps.flatMap (fun p => p.hanks)
/-- Hanks of an accepted frame's unit. -/
def FrameRt.hanks (f : FrameRt) : List Nat := partHanks f.parts

/-! ### Owner tags and handles (R235, R275) -/

/-- Hanks of the pool. -/
def poolSize : Nat := 2097152
/-- Host tag of a function (Table 11.4). -/
def hostTag (fn : Nat) : Nat := 0xFF00 + fn
/-- Tag of a context. -/
def ctxTag (c : Nat) : Nat := c + 1
/-- Context of a context tag. -/
def tagContext (t : Nat) : Option Nat := if 1 ≤ t ∧ t ≤ 0x4000 then some (t - 1) else none
/-- Function of a host tag. -/
def tagFn (t : Nat) : Option Nat := if 0xFF00 ≤ t ∧ t ≤ 0xFF10 then some (t - 0xFF00) else none
/-- A hank's record (R236). -/
def Hank.entry (k : Hank) (h : Nat) : HankRec := Tbl.get {} k.recs h
/-- Whether a hank is charged (Table 11.5). -/
def HankRec.charged (r : HankRec) : Bool := r.state == .held || r.state == .shared
/-- Slots of a VF's window that are taken, rising. -/
def Hank.slots (k : Hank) (fn : Nat) : List Nat :=
  (k.windows.filter (fun e => e.1 / 131072 == fn)).map (fun e => e.1 % 131072)
/-- Handle by which a function names a hank its host tag holds. -/
def Hank.handle (k : Hank) (fn h : Nat) : Nat :=
  if fn = 0 then h
  else match k.windows.find? (fun e => e.1 / 131072 == fn && e.2 == h) with
    | some e => e.1 % 131072
    | none => 131072
/-- Hank that a handle names, if it names one (R275, R237). -/
def Hank.ofHandle (k : Hank) (fn x : Nat) : Option Nat :=
  if fn = 0 then (if x < poolSize then some x else none)
  else if x < 131072 then (k.windows.find? (fun e => e.1 == fn * 131072 + x)).map (fun e => e.2) else none
/-- The window tables after a host tag comes to hold a hank: the lowest free slot of its VF (R275). -/
def Hank.place (k : Hank) (tag h : Nat) : Tbl Nat :=
  match tagFn tag with
  | none => k.windows
  | some fn => if fn = 0 then k.windows else Tbl.set k.windows (fn * 131072 + lowestFree (k.slots fn) 0) h
/-- The window tables after every hold of a hank ends. -/
def Hank.unplace (k : Hank) (h : Nat) : Tbl Nat := k.windows.filter (fun e => e.2 != h)

/-! ### Accounting (R238) -/

/-- Hanks charged to a ticket. -/
def Hank.used (k : Hank) (t : Nat) : Nat := (k.recs.filter (fun e => e.2.charged && e.2.ticket == t)).length
/-- Hanks in state FREE. -/
def Hank.freeCount (k : Hank) : Nat := poolSize - k.fresh + k.ring.length
/-- Every reservation that counts as taken (R45): live tickets, holds for garments, garments this module leads. -/
def Chip.claims (c : Chip) : List Ticket := c.cast.tickets ++ c.cast.holds.map (fun h => h.ticket) ++ c.cast.leads.map (fun h => h.ticket)
/-- Sum of the quotas. -/
def Chip.quotaSum (c : Chip) : Nat := c.claims.foldl (fun a t => a + t.quota) 0
/-- HANK_OVER (R238). -/
def Chip.hankOver (c : Chip) : Nat := c.cast.tickets.foldl (fun a t => a + (c.hank.used t.id - t.quota)) 0
/-- Whether a charged hank is an orphan: its ticket is no longer live. -/
def Chip.orphaned (c : Chip) (r : HankRec) : Bool := r.charged && (c.ticket? r.ticket).isNone
/-- HANK_ORPHAN (R238). -/
def Chip.hankOrphan (c : Chip) : Nat := (c.hank.recs.filter (fun e => c.orphaned e.2)).length
/-- The shared remainder R. -/
def Chip.remainder (c : Chip) : Nat := poolSize - c.quotaSum
/-- Over-quota part that `n` more hanks add to a ticket's use. -/
def overPart (q u n : Nat) : Nat := (u + n - q) - (u - q)
/-- Whether the quota lets a ticket take `n` more (R238). -/
def Chip.quotaFits (c : Chip) (t : Ticket) (n : Nat) : Bool :=
  decide (c.hank.used t.id + n ≤ t.quota) ||
  decide (c.hankOver + overPart t.quota (c.hank.used t.id) n + c.hankOrphan ≤ c.remainder)
/-- Hanks charged to a VF's tickets, and its orphans (R275). -/
def Chip.vfHanks (c : Chip) (fn : Nat) : Nat :=
  (c.hank.recs.filter (fun e => e.2.charged &&
    (match c.ticket? e.2.ticket with | some t => t.fn == fn | none => e.2.owner == hostTag fn))).length
/-- Whether a VF's windows have room for `n` more (R275). -/
def Chip.windowFits (c : Chip) (fn n : Nat) : Bool := fn == 0 || decide (c.vfHanks fn + n ≤ 131072)
/-- Whether an allocation would exceed the quota. -/
def Chip.overQuota (c : Chip) (t : Ticket) (n : Nat) : Bool := decide (t.quota < c.hank.used t.id + n)
/-- Whether an earlier request stands before one of this kind (R239). -/
def Hank.blocked (k : Hank) (isOver : Bool) : Bool := if isOver then !k.waiters.isEmpty else k.waiters.any (fun w => !w.isOver)
/-- Whether free hanks, quota and windows meet a request now. -/
def Chip.canMeet (c : Chip) (t : Ticket) (n : Nat) : Bool :=
  c.hank.ready && decide (n ≤ c.hank.freeCount) && c.quotaFits t n && c.windowFits t.fn n
/-- Whether a new request is granted at once (R239). -/
def Chip.grantable (c : Chip) (t : Ticket) (n : Nat) : Bool := c.canMeet t n && !c.hank.blocked (c.overQuota t n)

/-! ### Allocation (R239) -/

/-- The next `n` hanks of the free ring, first in first out. -/
def Hank.next (k : Hank) (n : Nat) : List Nat :=
  List.range' k.fresh (min n (poolSize - k.fresh)) ++ k.ring.take (n - min n (poolSize - k.fresh))
/-- Entries in the on-chip cache after `n` were taken: 1,024 more come from the ring's head below 1,024 (R239). -/
def refill (cached n free : Nat) : Nat := if cached - n < 1024 then min free (cached - n + 1024) else cached - n
/-- `n` hanks taken off the free ring and HELD by a tag, charged to a ticket. -/
def Hank.alloc (k : Hank) (ticket tag n : Nat) : Hank :=
  { k with
    recs := (k.next n).foldl (fun r h => Tbl.set r h { state := .held, owner := tag, ticket := ticket, readers := [] }) k.recs
    windows := ((k.next n).foldl (fun j h => { j with windows := j.place tag h }) k).windows
    fresh := k.fresh + min n (poolSize - k.fresh)
    ring := k.ring.drop (n - min n (poolSize - k.fresh))
    cached := refill k.cached n (k.freeCount - n)
    allocCtr := k.allocCtr.add n }
/-- A request of an engine or a context: granted at once, or put in line (R239). -/
def Chip.hankAlloc (c : Chip) (ticket tag n : Nat) : Chip :=
  { c with
    hank := match c.ticket? ticket with
      | none => c.hank
      | some t =>
        if c.grantable t n then c.hank.alloc ticket tag n
        else { c.hank with
          waiters := c.hank.waiters ++ [{ ticket := ticket, tag := tag, n := n, isOver := c.overQuota t n }]
          waitCtr := c.hank.waitCtr.inc } }
/-- HANK_ALLOC (R237, R239). -/
def execHankAlloc (ticket tag n : Nat) (s : State) : Host.Outcome State Fault Refusal :=
  .next { s with chip := s.chip.hankAlloc ticket tag n }
/-- The waiting request served first: within quota in order of arrival, then over quota (R239). -/
def Hank.firstWaiter (k : Hank) : Option AllocWait :=
  match k.waiters.find? (fun w => !w.isOver) with | some w => some w | none => k.waiters.head?
/-- The waiting request that can be granted now, if it is the first to be served. -/
def Chip.grantNow (c : Chip) : Option AllocWait :=
  match c.hank.firstWaiter with
  | none => none
  | some w => match c.ticket? w.ticket with
    | none => none
    | some t => if c.canMeet t w.n then some w else none
/-- A waiting allocation granted (R239). -/
def Chip.hankGrant (c : Chip) : Chip :=
  { c with hank := match c.grantNow with
      | none => c.hank
      | some w => { c.hank.alloc w.ticket w.tag w.n with waiters := c.hank.waiters.erase w } }
/-- HANK_ALLOC_GRANT (R239). -/
def execHankAllocGrant (s : State) : Host.Outcome State Fault Refusal := .next { s with chip := s.chip.hankGrant }

/-! ### SHARE, PASS, FREE (R237) -/

/-- REASON codes of Table 11.12. -/
inductive HankRefusal where
  | doubleFree | badReleaser | badState
deriving DecidableEq, Repr
/-- Code of a reason. -/
def HankRefusal.code : HankRefusal → Nat
  | .doubleFree => 1 | .badReleaser => 2 | .badState => 3
/-- Incident of a reason. -/
def HankRefusal.incident : HankRefusal → Incident
  | .doubleFree => .doubleFree | .badReleaser => .badReleaser | .badState => .badState
/-- The pool's registers after a refused operation. -/
def Hank.refuse (k : Hank) (why : HankRefusal) (h caller : Nat) : Hank :=
  { k with refused := k.refused.inc, lastValid := true, lastReason := why.code, lastTag := caller, lastIdx := h }
/-- A refused operation: counted, recorded and logged under source HANK; the hank is unchanged (R237). -/
def Chip.hankRefuse (c : Chip) (why : HankRefusal) (h caller : Nat) : Chip :=
  Chip.incident { c with hank := c.hank.refuse why h caller } why.incident srcHank (tagContext caller)
    (if (c.hank.entry h).charged then (c.hank.entry h).ticket else 0) caller h
/-- Whether a tag may receive a hank of this ticket: a context of it, or the host tag of its function (R237). -/
def Chip.tagOfTicket (c : Chip) (ticket tag : Nat) : Bool :=
  match c.ticket? ticket with
  | none => false
  | some t => tag == hostTag t.fn || (match tagContext tag with | some x => t.contexts.contains x | none => false)
/-- Whether a SHARE or PASS by `caller` to `tag` is accepted (Table 11.6). -/
def Chip.handsOver (c : Chip) (h caller tag : Nat) : Bool :=
  (c.hank.entry h).state == .held && (c.hank.entry h).owner == caller && c.tagOfTicket (c.hank.entry h).ticket tag
/-- A hank that changes its holder: the windows follow (R275). -/
def Hank.hand (k : Hank) (h tag : Nat) (r : HankRec) : Hank :=
  { k with recs := Tbl.set k.recs h r, windows := ({ k with windows := k.unplace h }).place tag h }
/-- SHARE (R237). -/
def Chip.hankShare (c : Chip) (h caller releaser : Nat) (readers : List Nat) : Chip :=
  if c.handsOver h caller releaser then
    { c with hank := c.hank.hand h releaser { c.hank.entry h with state := .shared, owner := releaser, readers := readers } }
  else c.hankRefuse .badState h caller
/-- HANK_SHARE (R237). -/
def execHankShare (h caller releaser : Nat) (readers : List Nat) (s : State) : Host.Outcome State Fault Refusal :=
  .next { s with chip := s.chip.hankShare h caller releaser readers }
/-- PASS (R237). -/
def Chip.hankPass (c : Chip) (h caller tag : Nat) : Chip :=
  if c.handsOver h caller tag then { c with hank := c.hank.hand h tag { c.hank.entry h with owner := tag } }
  else c.hankRefuse .badState h caller
/-- HANK_PASS (R237). -/
def execHankPass (h caller tag : Nat) (s : State) : Host.Outcome State Fault Refusal :=
  .next { s with chip := s.chip.hankPass h caller tag }
/-- Whether a FREE is accepted (Table 11.6). -/
def Hank.frees (k : Hank) (h caller : Nat) : Bool := (k.entry h).charged && (k.entry h).owner == caller
/-- A hank put into SCRUB, at the end of the scrub order (R237, R240). -/
def Hank.release (k : Hank) (h : Nat) : Hank :=
  { k with recs := Tbl.set k.recs h { state := .scrub, owner := 0xFFFF, ticket := 0, readers := [] }
           windows := k.unplace h, scrub := k.scrub ++ [h] }
/-- A frame without a freed hank. -/
def FrameRt.forget (f : FrameRt) (h : Nat) : FrameRt :=
  { f with
    parts := f.parts.map (fun p => { p with hanks := p.hanks.erase h }), picHanks := f.picHanks.erase h, upHanks := f.upHanks.erase h
    genHanks := f.genHanks.map (fun l => l.erase h), anHanks := f.anHanks.erase h }
/-- A reference pool without a freed hank: a buffer that loses one takes new hanks when it is next written. -/
def EncState.forget (e : EncState) (h : Nat) : EncState :=
  { e with bufs := e.bufs.map (fun b => if b.hanks.contains h then { b with hanks := [] } else b) }
/-- A freed hank is no longer any frame's, reference's, skip record's, adapter copy's or cached sample's. -/
def Cast.forget (k : Cast) (h : Nat) : Cast :=
  { k with tickets := k.tickets.map (fun t => { t with
      frames := t.frames.map (fun f => f.forget h), enc := t.enc.forget h, encDone := t.encDone.forget h
      skips := t.skips.map (fun x => { x with hanks := x.hanks.erase h })
      adapt := { t.adapt with
        cache := t.adapt.cache.map (fun e => (e.1, e.2.1, e.2.2.erase h)), copies := t.adapt.copies.map (fun l => l.erase h) } }) }
/-- A freed hank is no longer part of a unit being handed over. -/
def Queue.forget (q : Queue) (h : Nat) : Queue :=
  { q with unit := q.unit.map (fun u => (u.1, u.2.map (fun p => { p with hanks := p.hanks.erase h }))) }
/-- FREE (R237). -/
def Chip.hankFree (c : Chip) (h caller : Nat) : Chip :=
  if c.hank.frees h caller then
    { c with hank := c.hank.release h, cast := c.cast.forget h, queues := c.queues.mapV (fun q => q.forget h) }
  else c.hankRefuse (if (c.hank.entry h).charged then .badReleaser else .doubleFree) h caller
/-- HANK_FREE (R237). -/
def execHankFree (h caller : Nat) (s : State) : Host.Outcome State Fault Refusal :=
  .next { s with chip := s.chip.hankFree h caller }
/-- Hanks freed by the holder, whoever holds them (R241, R280). -/
def Hank.releaseAll (k : Hank) (hs : List Nat) : Hank := hs.foldl (fun k h => if (k.entry h).charged then k.release h else k) k
/-- A free of a handle that names no hank: refused, counted and logged; HANK_LAST_REFUSE stays (R237). -/
def Chip.freeNoHank (c : Chip) (fn handle : Nat) : Chip :=
  Chip.incident { c with hank := { c.hank with refused := c.hank.refused.inc } } .noHank srcHank none 0 (hostTag fn) handle

/-! ### Scrubbing (R240) -/

/-- Whether two byte ranges overlap. -/
def Range.meets (a b : Range) : Bool := decide (a.1 < b.1 + b.2 ∧ b.1 < a.1 + a.2)
/-- Whether an access in flight touches a hank, which is then not yet clear (R240). -/
def Chip.hankBusy (c : Chip) (h : Nat) : Bool :=
  c.ndl.tab.any (fun e =>
    e.2.ops.any (fun o => (o.reads ++ o.writes).any (fun r => Range.meets r (hankAddr h, 0x4000))) ||
    e.2.dma.any (fun d => d.runs.any (fun r => Range.meets r (hankAddr h, 0x4000))))
/-- The first clear hank of the scrub order. -/
def Chip.scrubNext (c : Chip) : Option Nat := c.hank.scrub.find? (fun h => !c.hankBusy h)
/-- A scrubbed hank goes to the ring's tail and is FREE (R240). -/
def Hank.scrubbed (k : Hank) (h : Nat) : Hank :=
  { k with recs := Tbl.del k.recs h, scrub := k.scrub.erase h, ring := k.ring ++ [h] }
/-- The pool after the scrubber has done hank `h`, its turn having come. -/
def Chip.scrubDone (c : Chip) (h : Nat) : Chip :=
  { c with hank := if c.scrubNext = some h then c.hank.scrubbed h else c.hank }

/-! ### Views (R227) -/

/-- Key of a view entry. -/
def viewKey (ctx i : Nat) : Nat := ctx * 4096 + i
/-- Hank that a view entry names, if it is VALID. -/
def Hank.view (k : Hank) (ctx i : Nat) : Option Nat := (k.views.find? (fun e => e.1 == viewKey ctx i)).map (fun e => e.2)
/-- A buffer's hanks written into consecutive entries of a context's view. -/
def Hank.setView (k : Hank) (ctx off : Nat) (hs : List Nat) : Hank :=
  { k with views := (hs.zip (List.range hs.length)).foldl (fun v e => Tbl.set v (viewKey ctx (off + e.2)) e.1) k.views }
/-- The entries of a context's view that name the hanks of a buffer cleared. -/
def Hank.clearView (k : Hank) (ctx : Nat) (hs : List Nat) : Hank :=
  { k with views := k.views.filter (fun e => !(e.1 / 4096 == ctx && hs.contains e.2)) }
/-- Every entry of the contexts' views cleared. -/
def Hank.dropViews (k : Hank) (ctxs : List Nat) : Hank :=
  { k with views := k.views.filter (fun e => !ctxs.contains (e.1 / 4096)) }

/-! ### Markers (R242 to R246) -/

/-- Whether a signaller of a ticket reaches marker `m`: it must be reserved to that ticket (R244). -/
def Marker.takesSignal (x : Marker) (ticket : Nat) : Bool := x.scope != 0 && x.ticket == ticket
/-- A marker after a SIGNAL (R243). -/
def Marker.signal (x : Marker) (n ctx now : Nat) : Marker :=
  { x with count := min 4294967295 (x.count + n), overflow := x.overflow || decide (4294967295 < x.count + n), context := ctx, time := now
           past := (min 4294967295 (x.count + n), now) :: x.past }
/-- The moment at which a marker's count reached a value: that of the first signal that took it there. -/
def Marker.reachedAt (x : Marker) (v : Nat) : Option Nat := (x.past.reverse.find? (fun e => decide (v ≤ e.1))).map (fun e => e.2)
/-- Host waits that a marker's count satisfies (R243, R244). -/
def Chip.metWaits (c : Chip) (m : Nat) : List HostWait := c.waits.filter (fun w => w.marker == m && decide (w.value ≤ (c.marker m).count))
/-- Every satisfied host wait on a marker answered at once with the count (R244, Table 13.7). -/
def Chip.wakeWaits (c : Chip) (m : Nat) : Chip :=
  (c.metWaits m).foldl (fun d w => d.answer w.q w.tag stOk w.ticket (c.marker m).count)
    { c with waits := c.waits.filter (fun w => !(w.marker == m && decide (w.value ≤ (c.marker m).count))) }
/-- A SIGNAL of `n` to marker `m` by an agent of a ticket (R243, R244); a foreign one has no effect and is logged. -/
def Chip.signal (c : Chip) (m n ctx ticket : Nat) : Chip :=
  if (c.marker m).takesSignal ticket then
    (if 4294967295 < (c.marker m).count + n then (fun d : Chip => d.note .markerOverflow srcHank (some ctx) ticket 0 m) else id)
      (Chip.wakeWaits { c with markers := Tbl.set c.markers m ((c.marker m).signal n ctx c.now) } m)
  else c.note .markerForeign srcHank (some ctx) ticket 0 m
/-- A signal to an entry of a ticket's marker map, sent to the other members where the marker has garment scope (R245). -/
def Chip.signalMap (c : Chip) (t : Ticket) (i n ctx : Nat) : Chip :=
  match t.markers[i]? with
  | none => c
  | some m =>
    let d := c.signal m n ctx t.id
    { d with rnd :=
        if (c.marker m).scope = 2 then
          t.members.foldl (fun r k => if k = c.rnd.id then r else
            r.sendControl c.now k 0x0001 t.id (t.garment.getD 0) (leBytes 2 i ++ leBytes 2 n)) d.rnd
        else d.rnd }
/-- Count of an entry of a ticket's marker map. -/
def Chip.mapCount (c : Chip) (t : Ticket) (i : Nat) : Nat := match t.markers[i]? with | none => 0 | some m => (c.marker m).count
/-- Markers given back (R242): free again, host waits on them answered STREAM_CLOSED with the count. -/
def Chip.releaseMarkers (c : Chip) (ms : List Nat) : Chip :=
  (c.waits.filter (fun w => ms.contains w.marker)).foldl
    (fun d w => d.answer w.q w.tag stClosed w.ticket (c.marker w.marker).count)
    { c with
      waits := c.waits.filter (fun w => !ms.contains w.marker)
      markers := ms.foldl (fun t m => Tbl.set t m {}) c.markers }
/-- Markers free for tickets: 1,024 to 65,535 with scope 0 (R242). -/
def Chip.freeMarkers (c : Chip) : Nat := 64512 - (c.markers.filter (fun e => 1024 ≤ e.1 && e.2.scope != 0)).length
/-- The lowest `n` free markers (log 20). -/
def pickFree (taken : List Nat) : Nat → Nat → List Nat
  | 0, _ => []
  | n + 1, from_ => lowestFree taken from_ :: pickFree taken n (lowestFree taken from_ + 1)
/-- The lowest `n` free ticket markers. -/
def Chip.pickMarkers (c : Chip) (n : Nat) : List Nat :=
  pickFree ((c.markers.filter (fun e => 1024 ≤ e.1 && e.2.scope != 0)).map (fun e => e.1)) n 1024

/-! ### HBM (R229 to R233) -/

/-- KiB counted with the bytes left over. -/
def Hbm.count (h : Hbm) (write : Bool) (n : Nat) : Hbm :=
  if write then { h with wrKib := h.wrKib.add ((h.wrRest + n) / 1024), wrRest := (h.wrRest + n) % 1024 }
  else { h with rdKib := h.rdKib.add ((h.rdRest + n) / 1024), rdRest := (h.rdRest + n) % 1024 }
/-- Key of the bank an address lies in. -/
def bankKey (a : Nat) : Nat := pseudoChannel a * 64 + Config.hbmBank a % 64
/-- A bank after an access to a row (R231). -/
def Bank.touch (b : Bank) (row now : Nat) : Bank :=
  let p := match b.row with
    | none => b.pred
    | some r => if r = row then min 3 (b.pred + 1) else b.pred - 1
  { pred := p, row := if 2 ≤ p then some row else none, access := now }
/-- The controller after an access to one line (R231). -/
def Hbm.line (h : Hbm) (now a : Nat) : Hbm :=
  let b := Tbl.get {} h.banks (bankKey a)
  { h with
    pageHit := if b.row = some (Config.hbmRow a) then h.pageHit.inc else h.pageHit
    banks := Tbl.set h.banks (bankKey a) (b.touch (Config.hbmRow a) now) }
/-- The controller after a transfer of `n` bytes at `a`. -/
def Hbm.access (h : Hbm) (now : Nat) (write : Bool) (a n : Nat) : Hbm :=
  ((List.range (ceilDiv n 256)).foldl (fun h i => h.line now (a + 256 * i)) h).count write n
/-- Whether a range of HBM holds a word that ends a read as an uncorrectable error: poisoned, or on a failed
pseudo-channel (R230, R232). -/
def Hbm.poison (h : Hbm) (r : Range) : Bool :=
  h.poisoned.any (fun w => Range.meets (w, 8) r) ||
  (!h.failedPcs.isEmpty && decide (r.1 < yokeBase) &&
    (List.range (ceilDiv (r.2 + r.1 % 256) 256)).any (fun i => h.failedPcs.contains (pseudoChannel (r.1 + 256 * i))))
/-- Address at which a read of a range meets a bad word, if it does. -/
def Hbm.badAt (h : Hbm) (r : Range) : Option Nat :=
  if h.poison r then
    some ((h.poisoned.find? (fun w => Range.meets (w, 8) r)).getD
      (((List.range (ceilDiv (r.2 + r.1 % 256) 256)).map (fun i => r.1 + 256 * i)).find? (fun a => h.failedPcs.contains (pseudoChannel a)) |>.getD r.1))
  else none
/-- An uncorrectable error at an address (R232): counted, recorded, alarm 4 and the edge on HBM. -/
def Chip.hbmUe (c : Chip) (a : Nat) : Chip :=
  Chip.alarm { c with hbm := { c.hbm with ue := satAdd 4294967295 c.hbm.ue 1, lastErr := some (a, pseudoChannel a) } }
    true .hbmUncorrectable 4 srcHbm none 0 0 (a / 32)
/-- ROW_IDLE_CLOSE (R231): a row left open is closed 2 µs after its last access. -/
def Hbm.closeRow (h : Hbm) (pc bank : Nat) : Hbm :=
  { h with banks := Tbl.upd {} h.banks (pc * 64 + bank) (fun b => { b with row := none }) }
/-- ROW_IDLE_CLOSE (R231). -/
def execRowIdleClose (pc bank : Nat) (s : State) : Host.Outcome State Fault Refusal :=
  .next { s with chip :=
    { s.chip.advance ((Tbl.get {} s.chip.hbm.banks (pc * 64 + bank)).access + usTicks 2) with hbm := s.chip.hbm.closeRow pc bank } }
/-- HBM_STACK_TEMPERATURE (R233): refresh is doubled while any stack reads above 85 °C. -/
def Hbm.stackTemp (h : Hbm) (stack : Nat) (hot : Bool) : Hbm :=
  { h with hotStacks := if hot then (if h.hotStacks.contains stack then h.hotStacks else stack :: h.hotStacks)
                        else h.hotStacks.filter (· != stack) }
/-- HBM_STACK_TEMPERATURE (R233). -/
def execHbmStackTemperature (stack : Nat) (hot : Bool) (s : State) : Host.Outcome State Fault Refusal :=
  .next { s with chip := { s.chip with hbm := s.chip.hbm.stackTemp stack hot } }

end Sys2Proof.Machine
end

