-- ==== Sys2Proof/Machine/Panels.lean ====
section
/-!
DEFINITION. Panels, the yoke's caches and the bandwidth regulators (ch. 7), and the one way every agent's HBM traffic
goes: counters, shared cache, poison.
-/
namespace Sys2Proof.Machine

/-! ### Regulators (R151 to R153) -/

/-- Resources of a regulator: 0 HBM, 1 yoke, 2 Round. -/
def resHbm : Nat := 0
/-- Yoke. -/
def resYoke : Nat := 1
/-- Round. -/
def resRound : Nat := 2
/-- Bytes that a rate in MB/s gives in a number of ticks, rounded down (R152). -/
def refillBytes (rate ticks : Nat) : Nat := rate * ticks / 25
/-- One resource's entry changed. -/
def setAt {α : Type} (l : List α) (i : Nat) (x : α) : List α := l.set i x
/-- Bucket a chunk draws from now: G while positive for a guaranteed context, then B (R151). -/
def Panel.draws (p : Panel) (res : Nat) (guar : Bool) : Option Bool :=
  if guar ∧ 0 < p.gBucket.getD res 0 then some true else if 0 < p.bBucket.getD res 0 then some false else none
/-- A chunk's bytes subtracted from its bucket. -/
def Panel.spend (p : Panel) (res bytes : Nat) (fromG : Bool) : Panel :=
  if fromG then { p with gBucket := setAt p.gBucket res (p.gBucket.getD res 0 - bytes) }
  else { p with bBucket := setAt p.bBucket res (p.bBucket.getD res 0 - bytes) }
/-- A chunk issued: admitted, or put in line and counted (R151). -/
def Panel.chunk (p : Panel) (k : Chunk) : Panel :=
  match (if p.waiting.any (fun w => w.res == k.res && w.guar == k.guar) then none else p.draws k.res k.guar) with
  | some g => p.spend k.res k.bytes g
  | none =>
    { p with
      waiting := p.waiting ++ [k]
      gStall := if k.guar then p.gStall.inc else p.gStall
      bStall := if k.guar then p.bStall else p.bStall.inc }
/-- Traffic of `bytes` cut into chunks of at most 4 KiB. -/
def chunksOf (res bytes : Nat) (guar : Bool) (own : Option (Nat × Nat)) : List Chunk :=
  List.replicate (bytes / 4096) { res := res, bytes := 4096, guar := guar, own := own } ++
  (if bytes % 4096 = 0 then [] else [{ res := res, bytes := bytes % 4096, guar := guar, own := own }])
/-- Traffic charged to a panel. -/
def Chip.charge (c : Chip) (panel res bytes : Nat) (guar : Bool) (own : Option (Nat × Nat)) : Chip :=
  c.updPanel panel (fun p => (chunksOf res bytes guar own).foldl Panel.chunk p)
/-- The first waiting chunk of a kind with the bucket it would draw from now, true for G. -/
def Panel.nextChunk (p : Panel) (res : Nat) (guar : Bool) : Option (Chunk × Bool) :=
  match p.waiting.find? (fun w => w.res == res && w.guar == guar) with
  | none => none
  | some w => (p.draws res guar).map (fun g => (w, g))
/-- A waiting chunk admitted (R151). -/
def Panel.grantChunk (p : Panel) (res : Nat) (guar : Bool) : Panel :=
  match p.nextChunk res guar with
  | none => p
  | some (w, g) => { p.spend res w.bytes g with waiting := p.waiting.erase w }
/-- Whether a chunk that draws from a G bucket waits for a resource in any panel (R152). -/
def Pnl.waitsG (n : Pnl) (res : Nat) : Bool := n.panels.any (fun e => (e.2.nextChunk res true).any (fun k => k.2))
/-- The time of a needle's DMA transfer runs from now: a chunk of it was admitted (R343). -/
def Chip.dmaBegins (c : Chip) (own : Nat × Nat) : Chip :=
  if own.1 < 64 then c.updNeedle own.1 (fun x => { x with dma := x.dma.map (fun d => if d.id = own.2 then { d with since := c.now } else d) }) else c
/-- A waiting chunk of a panel admitted, unless it draws from B while one that draws from G waits for the same resource. -/
def Chip.admitChunk (c : Chip) (panel res : Nat) (guar : Bool) : Chip :=
  match (c.panel panel).nextChunk res guar with
  | none => c
  | some (k, g) =>
    if g || !c.pnl.waitsG res then (match k.own with | some o => c.dmaBegins o | none => c).updPanel panel (fun p => p.grantChunk res guar) else c
/-- CHUNK_ADMIT (R151, R152). -/
def execChunkAdmit (panel res : Nat) (guaranteed : Bool) (s : State) : Host.Outcome State Fault Refusal :=
  .next { s with chip := s.chip.admitChunk panel res guaranteed }
/-- A bucket at a row boundary (R152). -/
def refillBucket (b : Int) (refill : Nat) : Int := min (b + refill) (2 * refill : Nat)
/-- A panel's buckets at a row boundary (R152). -/
def Panel.refill (p : Panel) (ticks : Nat) : Panel :=
  { p with
    gBucket := (p.gBucket.zip p.gRate).map (fun e => refillBucket e.1 (refillBytes e.2 ticks))
    bBucket := (p.bBucket.zip p.bRate).map (fun e => refillBucket e.1 (refillBytes e.2 ticks)) }
/-- Every panel's buckets at a row boundary. -/
def Pnl.refill (n : Pnl) (ticks : Nat) : Pnl := { n with panels := n.panels.mapV (fun p => p.refill ticks) }
/-- Snapshots of a panel (R8). -/
def Panel.latch (p : Panel) : Panel :=
  { p with gStall := p.gStall.latch, bStall := p.bStall.latch, swap := p.swap.latch, shcHit := p.shcHit.latch }
/-- Snapshots of the PNL block (R8). -/
def Pnl.latch (n : Pnl) (row : Nat) : Pnl :=
  { n with
    panels := n.panels.mapV Panel.latch, hit := n.hit.latch, miss := n.miss.latch, remote := n.remote.latch
    evict := n.evict.latch, snapRow := row }

/-! ### Offline panels (R134, R147) -/

/-- Segments of the pattern, numbered. -/
def Chip.segments (c : Chip) : List Segment := match c.pat.pattern with | none => [] | some p => p.segments
/-- Panel that a chart is given to. -/
def Chip.chartPanel (c : Chip) (k : Nat) : Option Nat :=
  match c.pat.pattern with
  | none => none
  | some p => (p.charts.find? (fun x => x.chart == k)).map (fun x => x.panel)
/-- Whether a panel needs a remote RESIDENT segment that cannot be loaded (R147). -/
def Chip.lacksSegment (c : Chip) (p : Nat) : Bool :=
  c.pnl.failedSegs.any (fun i => match c.segments[i]? with | none => false | some s => c.chartPanel s.chart == some p)
/-- Whether a panel counts as offline (R134, R147). -/
def Chip.panelOffline (c : Chip) (p : Nat) : Bool := (c.panel p).offline || c.lacksSegment p

/-! ### HBM traffic of every agent -/

/-- Whether a flat address lies in HBM. -/
def inHbm (a : Nat) : Bool := decide (a < yokeBase)
/-- Shared-cache lines that a range touches. -/
def linesOf (r : Range) : List Nat := (List.range (ceilDiv (r.1 % 256 + r.2) 256)).map (fun i => r.1 / 256 + i)
/-- The caches and the controller after a write of HBM by any agent: matching shared-cache lines go, the words written are
good again (R145, R232). -/
def Chip.hbmWrote (c : Chip) (r : Range) : Chip :=
  { c with
    hbm := if inHbm r.1 then
        { c.hbm.access c.now true r.1 r.2 with
          poisoned := c.hbm.poisoned.filter (fun w => !(decide (r.1 ≤ w ∧ w + 8 ≤ r.1 + r.2))) }
      else c.hbm
    pnl := if inHbm r.1 then { c.pnl with shc := c.pnl.shc.filter (fun e => !(linesOf r).contains e.1) } else c.pnl }
/-- Several ranges written. -/
def Chip.wrote (c : Chip) (rs : List Range) : Chip := rs.foldl Chip.hbmWrote c
/-- A read of HBM without a cache. -/
def Chip.hbmRead (c : Chip) (r : Range) : Chip :=
  { c with hbm := if inHbm r.1 then c.hbm.access c.now false r.1 r.2 else c.hbm }
/-- A read of HBM by no needle and no video core: a bad word in it is counted and recorded as it is returned (R232). -/
def Chip.hbmFetch (c : Chip) (r : Range) : Chip :=
  (match (if inHbm r.1 then c.hbm.badAt r else none) with | some a => c.hbmUe a | none => c).hbmRead r

/-- HANK_SCRUB_DONE (R240): the hank's bytes are zero and it is the ring's last; the scrubber's writes go the way of every agent's (R145). -/
def execHankScrubDone (h : Nat) (s : State) : Host.Outcome State Fault Refusal :=
  .next { s with
    chip := if s.chip.scrubNext = some h then (s.chip.scrubDone h).hbmWrote (hankAddr h, 0x4000) else s.chip
    mem := if s.chip.scrubNext = some h then s.mem.clear (hankAddr h) 0x4000 else s.mem }

/-! ### The shared cache (R144) -/

/-- Panels that hold a share. -/
def Pnl.sharers (n : Pnl) : Nat := (n.panels.filter (fun e => e.2.sharedOn)).length
/-- Lines a panel's share holds in one set: all 16 ways, or 8 each of two panels. -/
def Pnl.ways (n : Pnl) : Nat := if n.sharers = 1 then 16 else 8
/-- Sets of the shared cache: 256 B lines in 16 ways. -/
def Pnl.sets (n : Pnl) : Nat := n.sharedMib * 256
/-- The lines after panel `p` looks up line `x`; within a set the line used least recently leaves first (log 38). -/
def Pnl.lookup (n : Pnl) (p x : Nat) : List (Nat × Nat) :=
  if n.sets = 0 then n.shc
  else
    let rest := n.shc.filter (fun e => e != (x, p))
    let mine := rest.filter (fun e => e.2 == p && e.1 % n.sets == x % n.sets)
    (x, p) :: (match mine[n.ways - 1]? with | some v => rest.erase v | none => rest)
/-- Panel `p` reads one line through the shared cache. -/
def Chip.sharedLine (c : Chip) (p x : Nat) : Chip :=
  { c with
    pnl := { c.pnl with
      shc := c.pnl.lookup p x
      panels := if c.pnl.shc.contains (x, p) then Tbl.upd {} c.pnl.panels p (fun q => { q with shcHit := q.shcHit.inc }) else c.pnl.panels }
    hbm := if c.pnl.shc.contains (x, p) then c.hbm else c.hbm.access c.now false (256 * x) 256 }

/-! ### The chart cache (R146 to R150) -/

/-- Bytes of a chart block. -/
def blockBytes : Nat := 65536
/-- The segment an HBM address belongs to, with its number. -/
def Chip.segmentAt (c : Chip) (a : Nat) : Option (Nat × Segment) :=
  ((List.range c.segments.length).zip c.segments).find? (fun e => decide (e.2.home ≤ a ∧ a < e.2.home + e.2.blocks * blockBytes))
/-- Unpinned blocks the cache can hold. -/
def Pnl.room (n : Pnl) : Nat := n.chartMib * 16 - n.pinned.length
/-- Blocks held or being filled among the unpinned ones. -/
def Pnl.held (n : Pnl) : Nat := n.cached.length + (n.fills.filter (fun f => f.keep && !f.failed)).length
/-- Whether a DMA transfer or a weight swap reads a block now, which keeps it from eviction (R140, R148). -/
def Chip.blockBusy (c : Chip) (b : Nat) : Bool :=
  c.ndl.tab.any (fun e => e.2.dma.any (fun d => d.inward && d.runs.any (fun r => Range.meets r (b * blockBytes, blockBytes))) ||
    e.2.swap.any (fun s => Range.meets (s.src, s.bytes) (b * blockBytes, blockBytes)))
/-- The unpinned block that a fill replaces: the one used least recently that is not busy. -/
def Chip.victim (c : Chip) : Option Nat := c.pnl.cached.reverse.find? (fun b => !c.blockBusy b)
/-- Block number of a FETCH: its offset within the requester's WINDOW region (R267). -/
def Chip.windowBlock (c : Chip) (b : Nat) : Nat :=
  match c.pat.pattern with
  | none => b
  | some p =>
    match p.regions.find? (fun r => r.kind == .window && decide (r.base ≤ b * blockBytes ∧ b * blockBytes < r.base + r.size)) with
    | none => b
    | some r => (b * blockBytes - r.base) / blockBytes
/-- A FETCH frame for a block (R149, R267), by DIR or the other way. -/
def Chip.sendFetch (c : Chip) (store b : Nat) (guar other : Bool) : Rnd :=
  let f := newFrame c.rnd.id 3 .bulk store 0 c.rnd.nextXfer 0 (c.windowBlock b) 0 true guar []
  let r := { c.rnd with nextXfer := (c.rnd.nextXfer + 1) % 4294967296 }
  if other then (match c.rnd.exit store with | none => r | some p => r.enqueue p.other none f) else r.launch f
/-- A fill started: a local one from HBM, a remote one by a FETCH; charged to its panel (R148 to R150). -/
def Chip.startFill (c : Chip) (f : Fill) : Chip :=
  let d := c.charge f.panel (if f.remote.isSome then resRound else resHbm) blockBytes f.guar (some (128, f.block))
  { d with
    pnl := { d.pnl with fills := d.pnl.fills ++ [{ f with since := c.now }] }
    rnd := match f.remote with | none => d.rnd | some s => c.sendFetch s f.block f.guar f.retried
    hbm := match f.remote with | none => d.hbm.access c.now false (f.block * blockBytes) blockBytes | some _ => d.hbm }
/-- A miss: the block takes the least recently used unpinned place; where every one is busy a local home serves the read itself, and a
remote one sends the block without its being kept (R148). -/
def Chip.miss (c : Chip) (panel b : Nat) (r : Range) (guar : Bool) (remote : Option Nat) (own : Option (Nat × Nat)) : Chip :=
  let full := decide (c.pnl.room ≤ c.pnl.held)
  let out := if full then c.victim else none
  if full && out.isNone && remote.isNone then (c.charge panel resHbm r.2 guar own).hbmRead r
  else
    Chip.startFill
      { c with pnl := { c.pnl with
          fills := c.pnl.fills.filter (fun f => f.block != b)
          cached := (match out with | some v => c.pnl.cached.erase v | none => c.pnl.cached)
          evict := if out.isSome then c.pnl.evict.inc else c.pnl.evict } }
      { block := b, panel := panel, guar := guar, remote := remote, retried := false, keep := !full || out.isSome, since := 0, seg := none }
/-- A range of one block read through the chart cache (R146, R148, R150). -/
def Chip.readBlock (c : Chip) (panel : Nat) (r : Range) (guar : Bool) (remote : Option Nat) (own : Option (Nat × Nat)) : Chip :=
  let b := r.1 / blockBytes
  let d := c.charge panel resYoke r.2 guar own
  if d.pnl.pinned.contains b then { d with pnl := { d.pnl with hit := d.pnl.hit.inc } }
  else if d.pnl.cached.contains b then { d with pnl := { d.pnl with hit := d.pnl.hit.inc, cached := b :: d.pnl.cached.erase b } }
  else
    let e := { d with pnl := { d.pnl with miss := d.pnl.miss.inc } }
    if e.pnl.fills.any (fun f => f.block == b && !f.failed) then e else e.miss panel b r guar remote own
/-- The parts of a range in each block it touches. -/
def blocksOf (r : Range) : List Range :=
  (List.range (ceilDiv (r.1 % blockBytes + r.2) blockBytes)).map (fun i =>
    let b := r.1 / blockBytes + i
    (max r.1 (b * blockBytes), min (r.1 + r.2) ((b + 1) * blockBytes) - max r.1 (b * blockBytes)))
/-- A range of one block read by a needle: chart segments, which are whole blocks, through the chart cache, other HBM through the shared
cache if the panel has a share, else directly. -/
def Chip.hbmBlockRead (c : Chip) (panel : Nat) (r : Range) (guar : Bool) (own : Option (Nat × Nat)) : Chip :=
  match c.segmentAt r.1 with
  | some (_, s) => c.readBlock panel r guar s.remote own
  | none =>
    let d := c.charge panel resHbm r.2 guar own
    if (c.panel panel).sharedOn then (linesOf r).foldl (fun c x => c.sharedLine panel x) d else d.hbmRead r
/-- A needle's read of a range of the flat memory, block by block where it lies in HBM, charged to the panel's regulators (R144, R146, R150,
R151). -/
def Chip.needleRead (c : Chip) (panel : Nat) (r : Range) (guar : Bool) (own : Option (Nat × Nat)) : Chip :=
  if inHbm r.1 then (blocksOf r).foldl (fun c b => c.hbmBlockRead panel b guar own) c
  else if r.1 < sramBase 0 then c.charge panel resYoke r.2 guar own
  else c
/-- A needle's or video core's write of a range, charged to the panel's regulators (R151). -/
def Chip.panelWrite (c : Chip) (panel : Nat) (r : Range) (guar : Bool) (own : Option (Nat × Nat)) : Chip :=
  if inHbm r.1 then (c.charge panel resHbm r.2 guar own).hbmWrote r
  else if r.1 < sramBase 0 then c.charge panel resYoke r.2 guar own
  else c
/-- Whether a fill that a range waits for is still in flight, or has failed for good (R149). -/
def Chip.filling (c : Chip) (r : Range) : Bool :=
  inHbm r.1 && c.pnl.fills.any (fun f => Range.meets (f.block * blockBytes, blockBytes) r)

/-! ### Fills and RESIDENT segments -/

/-- The fill in flight for a block. -/
def Pnl.fill? (n : Pnl) (b : Nat) : Option Fill := n.fills.find? (fun f => f.block == b)
/-- A fill arrived: the block is cached if it is kept; a remote one is counted (R148, Table 7.1). -/
def Pnl.filled (n : Pnl) (f : Fill) : Pnl :=
  { n with
    fills := n.fills.erase f
    cached := if f.keep then f.block :: n.cached else n.cached
    remote := if f.remote.isSome then n.remote.add 64 else n.remote }
/-- Whether a chunk of an owner waits for its bucket (R151). -/
def Pnl.chunkWaits (n : Pnl) (own : Nat × Nat) : Bool := n.panels.any (fun e => e.2.waiting.any (fun w => w.own == some own))
/-- The fill that CHART_FILL_COMPLETE ends: one in flight whose chunks have all been admitted (R151). -/
def Pnl.fillDone (n : Pnl) (b : Nat) : Option Fill := if n.chunkWaits (128, b) then none else (n.fill? b).filter (fun f => !f.failed)
/-- CHART_FILL_COMPLETE (R148): a remote block's bytes stand at its home address from here on. -/
def execChartFillComplete (block : Nat) (d : List Byte) (s : State) : Host.Outcome State Fault Refusal :=
  .next { s with
    chip := { s.chip with pnl := match s.chip.pnl.fillDone block with | none => s.chip.pnl | some f => s.chip.pnl.filled f }
    mem := match s.chip.pnl.fillDone block with
      | some { remote := some _, .. } => s.mem.writes (block * blockBytes) (d.take blockBytes)
      | _ => s.mem }
/-- The fills after one has failed for good: what waits for its block goes on waiting, a RESIDENT segment's load is given up until the next
row (R147, R149). -/
def Pnl.failFill (n : Pnl) (f : Fill) : Pnl :=
  { n with
    fills := if f.seg.isSome then n.fills.erase f else n.fills.map (fun g => if g = f then { g with failed := true } else g)
    fail := satAdd 4294967295 n.fail 1
    failedSegs := match f.seg with
      | none => n.failedSegs
      | some i => if n.failedSegs.contains i then n.failedSegs else n.failedSegs ++ [i] }
/-- A remote fill unanswered for 1 ms: retried once in the other direction, then counted and logged (R149); a RESIDENT
segment that cannot be loaded is retried every row (R147). -/
def Chip.fillTimeout (c : Chip) (b : Nat) : Chip :=
  match c.pnl.fill? b with
  | none => c
  | some f =>
    match f.remote with
    | none => c
    | some st =>
      let d := c.advance (f.since + usTicks 1000)
      if f.failed then c
      else if f.retried then
        Chip.note { d with pnl := d.pnl.failFill f }
          .chartFillFail srcRound none 0 0 (b * blockBytes)
      else
        { d with
          pnl := { d.pnl with fills := d.pnl.fills.map (fun g => if g = f then { g with retried := true, since := d.now } else g) }
          rnd := d.sendFetch st b f.guar true }
/-- CHART_FILL_TIMEOUT (R149). -/
def execChartFillTimeout (block : Nat) (s : State) : Host.Outcome State Fault Refusal :=
  .next { s with chip := s.chip.fillTimeout block }
/-- Blocks of a segment. -/
def segBlocks (g : Segment) : List Nat := (List.range g.blocks).map (fun i => g.home / blockBytes + i)
/-- RESIDENT segments of the pattern; a chart that only best-effort work uses has none pinned (R148). -/
def Chip.residentSegs (c : Chip) : List Nat :=
  ((List.range c.segments.length).zip c.segments).filterMap (fun e => if e.2.resident && !e.2.beOnly then some e.1 else none)
/-- A RESIDENT segment loaded: its blocks are pinned, unpinned blocks that find no place any more are evicted; WARM when all are loaded
(R147). -/
def Pnl.segLoaded (n : Pnl) (i : Nat) (g : Segment) (all : List Nat) : Pnl :=
  let loaded := if n.loaded.contains i then n.loaded else n.loaded ++ [i]
  let pinned := n.pinned ++ (segBlocks g).filter (fun b => !n.pinned.contains b)
  let cached := n.cached.filter (fun b => !(segBlocks g).contains b)
  let kept := cached.take (n.chartMib * 16 - pinned.length)
  { n with
    loaded := loaded
    pinned := pinned
    cached := kept
    evict := n.evict.add (cached.length - kept.length)
    failedSegs := n.failedSegs.filter (· != i)
    fills := n.fills.filter (fun f => f.seg != some i)
    warm := all.all (fun k => loaded.contains k) }
/-- RESIDENT_SEGMENT_LOADED (R147). -/
def execResidentSegmentLoaded (seg : Nat) (s : State) : Host.Outcome State Fault Refusal :=
  .next { s with chip := { s.chip with pnl :=
    match s.chip.segments[seg]? with
    | none => s.chip.pnl
    | some g => if s.chip.residentSegs.contains seg then s.chip.pnl.segLoaded seg g s.chip.residentSegs else s.chip.pnl } }
/-- A remote RESIDENT segment asked for from its store, block by block (R147). -/
def Chip.loadRemote (c : Chip) (i : Nat) : Chip :=
  match c.segments[i]? with
  | some { remote := some st, chart, home, blocks, .. } =>
    (List.range blocks).foldl (fun c k =>
      c.startFill { block := home / blockBytes + k, panel := (c.chartPanel chart).getD 0, guar := true, remote := some st,
                    retried := false, keep := false, since := 0, seg := some i }) c
  | _ => c
/-- Every RESIDENT segment loaded at start (R147): remote ones are asked for here. -/
def Chip.loadResident (c : Chip) : Chip :=
  c.residentSegs.foldl Chip.loadRemote { c with pnl := { c.pnl with warm := c.residentSegs.isEmpty } }
/-- Failed remote loads tried again at a row boundary (R147). -/
def Chip.retryResident (c : Chip) : Chip :=
  c.pnl.failedSegs.foldl (fun c i => if c.pnl.fills.any (fun f => f.seg == some i) then c else c.loadRemote i) c

end Sys2Proof.Machine
end

