-- ==== Sys2Proof/Machine/Tod.lean ====
section
/-!
DEFINITION. The tensor operation descriptor (ch. 6): its fields, operand addresses, extents, and the checks of R112.
-/
namespace Sys2Proof.Machine

/-! ### Fields (Tables 6.3 to 6.6) -/

/-- A descriptor's fields as they stand in its 128 bytes (Table 6.3). -/
structure Tod where
  opcode  : Nat
  variant : Nat
  control : Nat
  context : Nat
  formats : Nat
  scaling : Nat
  zpA     : Nat
  zpB     : Nat
  zpY     : Nat
  tile    : Nat
  batch   : Nat
  shape   : List Byte
  addrA   : Nat
  addrB   : Nat
  addrY   : Nat
  addrAux : Nat
  addrEpi : Nat
  addrRes : Nat
  strideA : Nat
  strideB : Nat
  strideY : Nat
  slotA0  : Nat
  slotA1  : Nat
  slotB0  : Nat
  slotB1  : Nat
  slotKib : Nat
  waitMrk : Nat
  waitVal : Nat
  sigMrk  : Nat
  sigAdd  : Nat
  seed    : Nat
  step    : Nat
  cost    : Nat
  actParam : Nat
  resv    : Nat
deriving DecidableEq, Repr

/-- The fields of 128 bytes. -/
def todOf (b : List Byte) : Tod :=
  { opcode := le b 0 1, variant := le b 1 1, control := le b 2 2, context := le b 4 2, formats := le b 6 2, scaling := le b 8 1,
    zpA := le b 9 1, zpB := le b 0xA 1, zpY := le b 0xB 1, tile := le b 0xC 2, batch := le b 0xE 2, shape := (b.drop 0x10).take 24,
    addrA := le b 0x28 6, addrB := le b 0x2E 6, addrY := le b 0x34 6, addrAux := le b 0x3A 6, addrEpi := le b 0x40 6,
    addrRes := le b 0x46 6, strideA := le b 0x4C 4, strideB := le b 0x50 4, strideY := le b 0x54 4, slotA0 := le b 0x58 3,
    slotA1 := le b 0x5B 3, slotB0 := le b 0x5E 3, slotB1 := le b 0x61 3, slotKib := le b 0x64 2, waitMrk := le b 0x66 2,
    waitVal := le b 0x68 4, sigMrk := le b 0x6C 2, sigAdd := le b 0x6E 2, seed := le b 0x70 4, step := le b 0x74 4,
    cost := le b 0x78 4, actParam := le b 0x7C 2, resv := le b 0x7E 2 }

/-- CONTROL.AUX. -/
def Tod.aux (t : Tod) : Bool := bit t.control 15
/-- CONTROL.B_ROWS. -/
def Tod.bRows (t : Tod) : Bool := bit t.control 14
/-- CONTROL.RES_FIRST. -/
def Tod.resFirst (t : Tod) : Bool := bit t.control 13
/-- CONTROL.SIGNAL. -/
def Tod.signal (t : Tod) : Bool := bit t.control 12
/-- CONTROL.WAIT. -/
def Tod.wait (t : Tod) : Bool := bit t.control 11
/-- CONTROL.ACT. -/
def Tod.act (t : Tod) : Nat := bitf t.control 8 3
/-- CONTROL.RESIDUAL. -/
def Tod.residual (t : Tod) : Bool := bit t.control 7
/-- CONTROL.BIAS. -/
def Tod.bias (t : Tod) : Bool := bit t.control 6
/-- CONTROL.S2D. -/
def Tod.s2d (t : Tod) : Bool := bit t.control 5
/-- CONTROL.DATAFLOW. -/
def Tod.dataflow (t : Tod) : Nat := bitf t.control 3 2
/-- CONTROL.TRANS_B. -/
def Tod.transB (t : Tod) : Bool := bit t.control 2
/-- CONTROL.TRANS_A. -/
def Tod.transA (t : Tod) : Bool := bit t.control 1
/-- CONTROL.FENCE. -/
def Tod.fence (t : Tod) : Bool := bit t.control 0
/-- Context of a descriptor. -/
def Tod.ctx (t : Tod) : Nat := t.context % 16384
/-- FMT_A. -/
def Tod.fmtA (t : Tod) : Option Fmt := Fmt.ofCode (bitf t.formats 0 4)
/-- FMT_B. -/
def Tod.fmtB (t : Tod) : Option Fmt := Fmt.ofCode (bitf t.formats 4 4)
/-- FMT_Y. -/
def Tod.fmtY (t : Tod) : Option Fmt := Fmt.ofCode (bitf t.formats 8 4)
/-- GROUP: the group size, 0 for none. -/
def Tod.group (t : Tod) : Nat := [0, 32, 64, 128].getD (bitf t.formats 12 2) 0
/-- SCALING.MODE. -/
def Tod.mode (t : Tod) : Nat := bitf t.scaling 0 2
/-- SCALING.MARGIN. -/
def Tod.margin (t : Tod) : Nat := bitf t.scaling 2 2
/-- SCALING.STOCH. -/
def Tod.stoch (t : Tod) : Bool := bit t.scaling 4
/-- M of the matrix view (Table 6.5). -/
def Tod.mM (t : Tod) : Nat := le t.shape 0 4
/-- K of the matrix view. -/
def Tod.mK (t : Tod) : Nat := le t.shape 4 4
/-- N of the matrix view. -/
def Tod.mN (t : Tod) : Nat := le t.shape 8 4
/-- IN_N of the spatial view. -/
def Tod.inN (t : Tod) : Nat := le t.shape 0 2
/-- IN_H. -/
def Tod.inH (t : Tod) : Nat := le t.shape 2 2
/-- IN_W. -/
def Tod.inW (t : Tod) : Nat := le t.shape 4 2
/-- IN_C. -/
def Tod.inC (t : Tod) : Nat := le t.shape 6 2
/-- OUT_C. -/
def Tod.outC (t : Tod) : Nat := le t.shape 8 2
/-- GROUPS. -/
def Tod.groups (t : Tod) : Nat := le t.shape 10 2
/-- KH. -/
def Tod.kh (t : Tod) : Nat := le t.shape 12 1
/-- KW. -/
def Tod.kw (t : Tod) : Nat := le t.shape 13 1
/-- SH. -/
def Tod.sh (t : Tod) : Nat := le t.shape 14 1
/-- SW. -/
def Tod.sw (t : Tod) : Nat := le t.shape 15 1
/-- DH. -/
def Tod.dh (t : Tod) : Nat := le t.shape 16 1
/-- DW. -/
def Tod.dw (t : Tod) : Nat := le t.shape 17 1
/-- PT. -/
def Tod.pt (t : Tod) : Nat := le t.shape 18 1
/-- PB. -/
def Tod.pb (t : Tod) : Nat := le t.shape 19 1
/-- PL. -/
def Tod.pl (t : Tod) : Nat := le t.shape 20 1
/-- PR. -/
def Tod.pr (t : Tod) : Nat := le t.shape 21 1
/-- Whether an opcode reads the spatial view (Table 6.7). -/
def Tod.spatial (t : Tod) : Bool := t.opcode == 2 || t.opcode == 3 || t.opcode == 4 || t.opcode == 11 || t.opcode == 12
/-- Whether an opcode runs on the array. -/
def Tod.array (t : Tod) : Bool := t.opcode == 1 || t.opcode == 2
/-- Whether an opcode copies stored bits (R114). -/
def Tod.copies (t : Tod) : Bool := t.opcode == 8 || (t.opcode == 9 && t.variant == 0) || t.opcode == 11
/-- Whether an opcode has a second operand read as a tensor. -/
def Tod.hasB (t : Tod) : Bool := t.opcode == 1 || t.opcode == 2 || t.opcode == 3 || (t.opcode == 5 && bitf t.variant 0 4 != 5) || t.opcode == 12
/-- Factor of a space-to-depth regrouping, 1 where there is none (R129). -/
def Tod.factor (t : Tod) : Nat := if t.opcode = 11 ∨ (t.opcode = 2 ∧ t.s2d = true) then bitf t.variant 0 4 else 1
/-- Height of the regrouped input. -/
def Tod.gH (t : Tod) : Nat := ceilDiv t.inH t.factor
/-- Width of the regrouped input. -/
def Tod.gW (t : Tod) : Nat := ceilDiv t.inW t.factor
/-- Channels of the regrouped input. -/
def Tod.gC (t : Tod) : Nat := t.inC * t.factor * t.factor
/-- Output size of one dimension (R116). -/
def outSize (n p0 p1 d k s : Nat) : Int := ((n : Int) + p0 + p1 - d * ((k : Int) - 1) - 1) / s + 1
/-- Output height (R116). -/
def Tod.oh (t : Tod) : Int := outSize t.gH t.pt t.pb t.dh t.kh t.sh
/-- Output width (R116). -/
def Tod.ow (t : Tod) : Int := outSize t.gW t.pl t.pr t.dw t.kw t.sw
/-- Input channels of a group. -/
def Tod.cg (t : Tod) : Nat := t.gC / max 1 t.groups
/-- Output channels of a group. -/
def Tod.ng (t : Tod) : Nat := t.outC / max 1 t.groups
/-- Reduction length of an array operation: for a convolution R119's k runs over taps and whole channel blocks (R115, R119). -/
def Tod.redLen (t : Tod) : Nat := if t.opcode = 1 then t.mK else t.kh * t.kw * (ceilDiv t.cg 64 * 64)
/-- Whether several groups share one 64 × 64 block (R119). -/
def Tod.packed (t : Tod) : Bool := decide (1 < t.groups) && (t.cg == 16 || t.cg == 32)

/-- The aux record's fields (Table 6.6). -/
structure Aux where
  scaleA : Nat
  scaleB : Nat
  scaleY : Nat
  amax   : Nat
  outlA  : Nat
  sideA  : Nat
  outlB  : Nat
  sideB  : Nat
  present : Nat
  gran   : Nat
  enc    : Nat
  resv   : Bool
deriving DecidableEq, Repr
/-- The fields of 64 bytes. -/
def auxOf (b : List Byte) : Aux :=
  { scaleA := le b 0 6, scaleB := le b 6 6, scaleY := le b 0xC 6, amax := le b 0x12 6, outlA := le b 0x18 6, sideA := le b 0x1E 6,
    outlB := le b 0x24 6, sideB := le b 0x2A 6, present := le b 0x30 1, gran := le b 0x31 1, enc := le b 0x32 1,
    resv := (b.drop 0x33).any (· != 0) || 64 ≤ le b 0x30 1 || 64 ≤ le b 0x31 1 || 64 ≤ le b 0x32 1 }
/-- The record of a descriptor without one (Table 6.4). -/
def auxNone : Aux := auxOf []
/-- PRESENT bits. -/
def Aux.has (x : Aux) (i : Nat) : Bool := bit x.present i
/-- GRAN of operand 0 A, 1 B, 2 Y. -/
def Aux.granOf (x : Aux) (i : Nat) : Nat := bitf x.gran (2 * i) 2
/-- ENC of operand 0 A, 1 B, 2 Y. -/
def Aux.encOf (x : Aux) (i : Nat) : Nat := bitf x.enc (2 * i) 2

/-! ### Operand addresses (Table 6.2, R106, R143, R226, R227) -/

/-- Space of an operand address. -/
def opSpace (a : Nat) : Nat := bitf a 46 2
/-- Flat address of one byte an operand address names, as needle `n` and a context reach it. -/
def Chip.xlat (c : Chip) (n ctx a : Nat) : Nat :=
  match opSpace a with
  | 0 => sramBase n + bitf a 0 22
  | 1 => yokeBase + bitf a 0 26
  | 2 => if bitf a 0 37 < 0x4000000 then hankAddr ((c.hank.view ctx (bitf a 14 12)).getD 0) + bitf a 0 14 else bitf a 0 37
  | _ => sramBase (bitf a 40 6) + bitf a 0 22
/-- View entries that a range touches. -/
def viewEntries (off len : Nat) : List Nat := (List.range (ceilDiv (off % 0x4000 + len) 0x4000)).map (fun i => off / 0x4000 + i)
/-- Flat ranges of an operand range: a range of view addresses falls apart at entry bounds. -/
def Chip.flat (c : Chip) (n ctx : Nat) (r : Range) : List Range :=
  if opSpace r.1 = 2 ∧ bitf r.1 0 37 < 0x4000000 then
    (viewEntries (bitf r.1 0 37) r.2).map (fun i =>
      let lo := max (bitf r.1 0 37) (i * 0x4000)
      (c.xlat n ctx (2 ^ 47 + lo), min (bitf r.1 0 37 + r.2) ((i + 1) * 0x4000) - lo))
  else [(c.xlat n ctx r.1, r.2)]
/-- Regions of the pattern. -/
def Chip.regions (c : Chip) : List Region := match c.pat.pattern with | none => [] | some p => p.regions
/-- Whether a context of a panel may touch an HBM range of the pattern area; an output overlaps no segment (R146, R228). -/
def Chip.regionOk (c : Chip) (panel off len : Nat) (write : Bool) : Bool :=
  c.regions.any (fun r => decide (r.base ≤ off ∧ off + len ≤ r.base + r.size) && bit r.mask panel && (r.kind == .data || !write)) &&
  !(write && c.segments.any (fun g => Range.meets (off, len) (g.home, g.blocks * blockBytes)))
/-- Whether a view entry serves an access: VALID, and not SHARED for a write (R227). -/
def Chip.viewOk (c : Chip) (ctx i : Nat) (write : Bool) : Bool :=
  match c.hank.view ctx i with
  | none => false
  | some h => !(write && (c.hank.entry h).state == .shared)
/-- Whether an operand range of a descriptor is one the operation may touch (R106, R143, R146, R226, R227, R228). -/
def Chip.rangeOk (c : Chip) (n ctx : Nat) (r : Range) (write : Bool) : Bool :=
  let a := r.1
  match opSpace a, (c.needle n).panel with
  | 0, _ => bitf a 22 24 == 0 && decide (bitf a 0 22 + r.2 ≤ 0x2E0000)
  | 1, some p =>
    bitf a 26 20 == 0 && decide ((c.panel p).yokeBase * 0x100000 ≤ bitf a 0 26 ∧
      bitf a 0 26 + r.2 ≤ ((c.panel p).yokeBase + (c.panel p).yokeSize) * 0x100000)
  | 2, some p =>
    bitf a 37 9 == 0 && decide (bitf a 0 37 + r.2 ≤ 0x1800000000) &&
    (if bitf a 0 37 + r.2 ≤ 0x4000000 then (viewEntries (bitf a 0 37) r.2).all (fun i => c.viewOk ctx i write)
     else c.regionOk p (bitf a 0 37) r.2 write)
  | 3, some p => bitf a 22 18 == 0 && decide (bitf a 0 22 + r.2 ≤ 0x2E0000) && (c.needle (bitf a 40 6)).panel == some p
  | _, _ => false

/-! ### Extents (R104, R105) -/

/-- Bytes of `rows` rows of `cols` channels in a format, whole channel blocks. -/
def rowsBytes (f : Fmt) (rows cols : Nat) : Nat := rows * (ceilDiv cols 64 * 64 * f.bits / 8)
/-- Output positions of a spatial operation. -/
def Tod.positions (t : Tod) : Nat := t.inN * t.oh.toNat * t.ow.toNat
/-- Bytes of one depthwise output channel's run (Table 6.1). -/
def dwRun (f : Fmt) (t : Tod) : Nat := ceilDiv (t.kh * t.kw * t.cg * f.bits / 8) 16 * 16
/-- Bytes of A of one problem. -/
def Tod.bytesA (t : Tod) (f : Fmt) : Nat :=
  match t.opcode with
  | 1 => if t.transA then rowsBytes f t.mK t.mM else rowsBytes f t.mM t.mK
  | 2 => if t.transA then rowsBytes f t.inC (t.inN * t.inH * t.inW) else rowsBytes f (t.inN * t.inH * t.inW) t.inC
  | 8 => rowsBytes f t.mK t.mN
  | 12 => t.inN * t.inC * t.inH * (ceilDiv t.inW 16 * 16)
  | _ => if t.spatial then rowsBytes f (t.inN * t.inH * t.inW) t.inC else rowsBytes f t.mM t.mN
/-- Bytes of B of one problem, or of the index list. -/
def Tod.bytesB (t : Tod) (f : Fmt) : Nat :=
  match t.opcode with
  | 1 => if t.bRows then (if t.transB then rowsBytes f t.mK t.mN else rowsBytes f t.mN t.mK)
         else ceilDiv t.mN 64 * ceilDiv t.mK 64 * (4096 * f.bits / 8)
  | 2 => if t.bRows then (if t.transB then rowsBytes f (t.groups * t.redLen) t.ng else rowsBytes f t.outC t.redLen)
         else if t.packed then ceilDiv t.gC 64 * t.kh * t.kw * (64 * t.cg * f.bits / 8)
         else t.groups * ceilDiv t.ng 64 * t.kh * t.kw * ceilDiv t.cg 64 * (4096 * f.bits / 8)
  | 3 => t.outC * dwRun f t
  | 5 => if bit t.variant 4 then rowsBytes f 1 t.mN else rowsBytes f t.mM t.mN
  | 12 => t.kh * t.kw * 4096
  | _ => 4 * t.mM
/-- Rows of the output of one problem. -/
def Tod.rowsY (t : Tod) : Nat :=
  match t.opcode with
  | 9 => t.mK
  | 11 => t.inN * t.gH * t.gW
  | _ => if t.spatial then t.positions else t.mM
/-- Channels of the output. -/
def Tod.colsY (t : Tod) : Nat :=
  match t.opcode with
  | 11 => t.gC
  | _ => if t.spatial then t.outC else t.mN
/-- Bytes of Y of one problem. -/
def Tod.bytesY (t : Tod) (f : Fmt) : Nat := if t.opcode = 10 then 8 * t.mM else rowsBytes f t.rowsY t.colsY
/-- Whether an output dimension is 0 or less (R112 step 3). -/
def Tod.empty (t : Tod) : Bool :=
  t.opcode != 13 &&
  (if t.opcode = 11 then false
   else if t.spatial then decide (t.oh ≤ 0 ∨ t.ow ≤ 0) else t.mM == 0 || t.mN == 0)
/-- Operand ranges of A, one a problem. -/
def Tod.rangesA (t : Tod) (f : Fmt) : List Range := (List.range (max 1 t.batch)).map (fun p => (t.addrA + 64 * p * t.strideA, t.bytesA f))
/-- Operand ranges of B. -/
def Tod.rangesB (t : Tod) (f : Fmt) : List Range := (List.range (max 1 t.batch)).map (fun p => (t.addrB + 64 * p * t.strideB, t.bytesB f))
/-- Output ranges. -/
def Tod.rangesY (t : Tod) (f : Fmt) : List Range := (List.range (max 1 t.batch)).map (fun p => (t.addrY + 64 * p * t.strideY, t.bytesY f))
/-- Output ranges with the rows of the whole masked tiles that the array and the vector unit compute, as R97 compares them (R120). -/
def Tod.tilesY (t : Tod) (f : Fmt) : List Range :=
  if t.opcode ≤ 7 then
    (List.range (max 1 t.batch)).map (fun p => (t.addrY + 64 * p * t.strideY, rowsBytes f (ceilDiv t.rowsY 64 * 64) t.colsY))
  else t.rangesY f
/-! ### What is read (R105, R118, R120) -/

/-- Runs in rising order, those that touch joined. -/
def joinRuns : List Range → List Range
  | [] => []
  | r :: l =>
    match joinRuns l with
    | [] => [r]
    | q :: k => if r.1 + r.2 = q.1 then (r.1, r.2 + q.2) :: k else r :: q :: k
/-- The run of `n` elements of a format from element `i` of a tensor. -/
def runOf (f : Fmt) (base i n : Nat) : Range := (base + i * f.bits / 8, ceilDiv (n * f.bits) 8)
/-- The lanes of some rows of a tensor of `cols` channels (Table 6.1). -/
def rowRuns (f : Fmt) (base cols : Nat) (rows : List Nat) : List Range := rows.map (fun r => runOf f base (r * (ceilDiv cols 64 * 64)) cols)
/-- Whether a window reaches index `i` of a dimension: output size `o`, padding, dilation, kernel, stride (R116, R118). -/
def reached (o : Int) (p d k s i : Nat) : Bool :=
  (List.range k).any (fun y => let v : Int := (i : Int) + p - (y * d : Nat); decide (0 ≤ v ∧ v % s = 0 ∧ v / s < o))
/-- Stored positions that windows reach, in stored order. -/
def Tod.reachedPos (t : Tod) : List Nat :=
  let hs := (List.range t.inH).filter (fun i => reached t.oh t.pt t.dh t.kh t.sh (i / t.factor))
  let ws := (List.range t.inW).filter (fun i => reached t.ow t.pl t.dw t.kw t.sw (i / t.factor))
  (List.range t.inN).flatMap (fun n => hs.flatMap (fun h => ws.map (fun w => (n * t.inH + h) * t.inW + w)))
/-- Runs of A that one problem reads, at a base. -/
def Tod.runsA (t : Tod) (f : Fmt) (base : Nat) : List Range :=
  joinRuns (match t.opcode with
  | 1 => if t.transA then rowRuns f base t.mM (List.range t.mK) else rowRuns f base t.mK (List.range t.mM)
  | 12 =>
    let row := ceilDiv t.inW 16 * 16
    (List.range t.inN).flatMap (fun n => (List.range t.inC).flatMap (fun c =>
      (((List.range t.inH).filter (fun i => reached t.oh t.pt t.dh t.kh t.sh i)).flatMap (fun h =>
        ((List.range t.inW).filter (fun i => reached t.ow t.pl t.dw t.kw t.sw i)).map (fun w => (base + ((n * t.inC + c) * t.inH + h) * row + w, 1))))))
  | _ =>
    if t.spatial then
      (if t.opcode = 2 ∧ t.transA = true then
        (List.range t.inC).flatMap (fun c => t.reachedPos.map (fun q => runOf f base (c * (ceilDiv (t.inN * t.inH * t.inW) 64 * 64) + q) 1))
       else rowRuns f base t.inC t.reachedPos)
    else rowRuns f base t.mN (List.range t.mM))
/-- Runs of weight blocks: `n` rows of `k` elements in blocks of 64 × 64 (Table 6.1). -/
def blockRuns (f : Fmt) (base n k : Nat) : List Range :=
  (List.range (ceilDiv n 64)).flatMap (fun nb => (List.range (ceilDiv k 64)).flatMap (fun kb =>
    (List.range (min 64 (n - 64 * nb))).map (fun i => runOf f base (((nb * ceilDiv k 64 + kb) * 64 + i) * 64) (min 64 (k - 64 * kb)))))
/-- Runs of B that one problem reads, at a base. -/
def Tod.runsB (t : Tod) (f : Fmt) (base : Nat) : List Range :=
  joinRuns (match t.opcode with
  | 1 =>
    if t.bRows then (if t.transB then rowRuns f base t.mN (List.range t.mK) else rowRuns f base t.mK (List.range t.mN))
    else if t.transB then blockRuns f base t.mK t.mN else blockRuns f base t.mN t.mK
  | 2 =>
    if t.bRows then
      (if t.transB then
        (List.range t.groups).flatMap (fun g => (List.range (t.kh * t.kw)).flatMap (fun tap =>
          rowRuns f base t.ng ((List.range t.cg).map (fun c => g * t.redLen + tap * (ceilDiv t.cg 64 * 64) + c))))
       else (List.range t.outC).flatMap (fun o => (List.range (t.kh * t.kw)).map (fun tap =>
          runOf f base (o * t.redLen + tap * (ceilDiv t.cg 64 * 64)) t.cg)))
    else if t.packed then
      (List.range (t.groups / (64 / t.cg) + 1)).flatMap (fun b => (List.range (t.kh * t.kw)).flatMap (fun tap =>
        (List.range (min (64 / t.cg) (t.groups - b * (64 / t.cg)))).map (fun i =>
          runOf f base (((b * (t.kh * t.kw) + tap) * (64 / t.cg) + i) * (t.cg * t.cg)) (t.cg * t.cg))))
    else
      let n := if t.transB then t.cg else t.ng
      let k := if t.transB then t.ng else t.cg
      (List.range (t.groups * ceilDiv n 64)).flatMap (fun b => (List.range (t.kh * t.kw * ceilDiv k 64)).flatMap (fun q =>
        (List.range (min 64 (n - 64 * (b % ceilDiv n 64)))).map (fun i =>
          runOf f base (((b * (t.kh * t.kw * ceilDiv k 64) + q) * 64 + i) * 64) (min 64 (k - 64 * (q % ceilDiv k 64))))))
  | 3 => (List.range t.outC).map (fun o => (base + o * dwRun f t, ceilDiv (t.kh * t.kw * t.cg * f.bits) 8))
  | 5 => rowRuns f base t.mN (List.range (if bit t.variant 4 then 1 else t.mM))
  | 12 => (List.range (t.kh * t.kw)).flatMap (fun tap => (List.range t.outC).map (fun o => (base + tap * 4096 + o * 64, t.inC)))
  | _ => [])
/-- Runs of A that an operation reads. -/
def Tod.readsA (t : Tod) (f : Fmt) : List Range := (List.range (max 1 t.batch)).flatMap (fun p => t.runsA f (t.addrA + 64 * p * t.strideA))
/-- Runs of B that an operation reads; problems that share B read it once. -/
def Tod.readsB (t : Tod) (f : Fmt) : List Range :=
  (List.range (if t.strideB = 0 then 1 else max 1 t.batch)).flatMap (fun p => t.runsB f (t.addrB + 64 * p * t.strideB))

/-! ### Lists, epilogue operands and attachments -/

/-- Range of the index list. -/
def Tod.rangeList (t : Tod) : Range := (t.addrB, 4 * t.mM)
/-- Range of the bias, or of gamma and beta. -/
def Tod.rangeEpi (t : Tod) : Range :=
  (t.addrEpi, if t.opcode = 6 then 4 * t.mN * (if t.variant = 0 then 2 else 1) else 4 * t.colsY)
/-- Whether ADDR_EPI is read. -/
def Tod.readsEpi (t : Tod) : Bool := t.bias || t.opcode == 6
/-- Whether an operand is group-scaled. -/
def isGs (f : Option Fmt) : Bool := match f with | some x => x.grouped | none => false
/-- Format of the residual (R121). -/
def Tod.resFmt (t : Tod) : Fmt := if t.fmtY = some .fp32 then .fp32 else .bf16
/-- Range of the residual. -/
def Tod.rangeRes (t : Tod) : Range := (t.addrRes, rowsBytes t.resFmt t.rowsY t.colsY)
/-- Groups of an output row. -/
def Tod.groupsY (t : Tod) : Nat := ceilDiv t.colsY (max 1 t.group)
/-- Abs-max records of the operation (R80). -/
def Tod.records (t : Tod) : Nat := if t.fmtY = some .gs8 ∨ t.fmtY = some .gs4 then t.groupsY else 1
/-- Range of the abs-max records. -/
def Tod.rangeAmax (t : Tod) (x : Aux) : Range := (x.amax, 80 * t.records)
/-- Bytes of one scale of an encoding. -/
def encBytes (e : Nat) : Nat := if e = 0 then 1 else if e = 1 then 2 else 4
/-- Bytes of a row of `n` group scales (R72). -/
def scaleRow (enc n : Nat) : Nat := ceilDiv (n * encBytes enc) 16 * 16
/-- Bytes of a side tensor's row (R74). -/
def sideRow (n : Nat) : Nat := ceilDiv (2 * n) 32 * 32
/-- Range where the group scales of a GS output are written (R72, Table 6.6). -/
def Tod.rangeScaleY (t : Tod) (x : Aux) : Range := (x.scaleY, t.rowsY * scaleRow (x.encOf 2) t.groupsY)
/-- Rows of A as it is stored, each with its own scales and side values (R72, R74). -/
def Tod.rowsA (t : Tod) : Nat := if t.opcode = 2 then t.inN * t.inH * t.inW else if t.opcode = 8 then t.mK else t.mM
/-- Group scales of a row of A. -/
def Tod.groupsA (t : Tod) : Nat := ceilDiv (if t.opcode = 1 then t.mK else if t.opcode = 2 then t.inC else t.mN) (max 1 t.group)
/-- Group scales of a row of B: a convolution's taps one after another (R72; log 75). -/
def Tod.groupsB (t : Tod) : Nat :=
  if t.opcode = 2 then t.kh * t.kw * ceilDiv t.cg (max 1 t.group) else ceilDiv t.mK (max 1 t.group)
/-- Bytes of the scales of an operand that has no groups: one, or one for each output channel (R69). -/
def Tod.flatScales (t : Tod) (x : Aux) (i : Nat) : Nat := encBytes (x.encOf i) * (if x.granOf i = 2 then t.colsY else 1)

/-! ### BAD_DESCRIPTOR (R86, R106 to R110, R113 to R115, R119, R123, R128 to R130) -/

/-- Whether a value lies in a range. -/
def inR (lo hi v : Nat) : Bool := decide (lo ≤ v ∧ v ≤ hi)
/-- Fields out of range or reserved, whatever the opcode (R108). -/
def Tod.badCommon (t : Tod) : Bool :=
  t.opcode == 0 || 14 ≤ t.opcode || 16384 ≤ t.context || 16384 ≤ t.formats || 32 ≤ t.scaling || t.mode == 3 || t.resv != 0 ||
  0x400000 ≤ t.slotA0 || 0x400000 ≤ t.slotA1 || 0x400000 ≤ t.slotB0 || 0x400000 ≤ t.slotB1 ||
  (t.signal && t.sigAdd == 0) || (t.opcode != 13 && t.cost == 0) ||
  [t.addrA, t.addrB, t.addrY, t.addrAux, t.addrEpi, t.addrRes, t.slotA0, t.slotA1, t.slotB0, t.slotB1].any (fun a => a % 64 != 0)
/-- A zero point where its format has none, or one with high bits for a 4-bit format (R73). -/
def badZp (f : Option Fmt) (z : Nat) : Bool := match f with | some .a8 => false | some .a4 => 16 ≤ z | _ => z != 0
/-- BATCH out of range (Table 6.7). -/
def Tod.badBatch (t : Tod) : Bool :=
  if t.opcode = 1 ∨ t.opcode = 5 ∨ t.opcode = 7 then t.batch == 0 else t.batch != 1
/-- SHAPE out of range (Table 6.5). -/
def Tod.badShape (t : Tod) : Bool :=
  if t.opcode = 13 then false
  else if t.spatial then
    !(inR 1 65535 t.inN && inR 1 8192 t.inH && inR 1 8192 t.inW && inR 1 65535 t.inC && inR 1 65535 t.outC && inR 1 65535 t.groups &&
      inR 1 15 t.kh && inR 1 15 t.kw && inR 1 8 t.sh && inR 1 8 t.sw && inR 1 8 t.dh && inR 1 8 t.dw &&
      t.pt ≤ 15 && t.pb ≤ 15 && t.pl ≤ 15 && t.pr ≤ 15 && le t.shape 22 2 == 0)
  else
    !(inR 1 16777216 t.mK && (if t.opcode = 10 then inR 1 65535 t.mN else t.mN ≤ 16777216) && (t.shape.drop 12).all (· == 0))
/-- Epilogue steps that Table 6.7 does not allow (R113). -/
def Tod.badEpilogue (t : Tod) : Bool :=
  match t.opcode with
  | 1 => false
  | 2 => false
  | 3 => false
  | 4 => t.bias || t.residual
  | 5 => t.residual
  | 6 => t.bias || t.residual || t.act == 2 || t.act == 3
  | 12 => t.residual || 2 ≤ t.act
  | _ => t.bias || t.residual || t.act != 0
/-- VARIANT codes that no rule gives; an opcode that gives VARIANT no meaning takes 0 (R108; log 113). -/
def Tod.badVariant (t : Tod) : Bool :=
  match t.opcode with
  | 2 => if t.s2d then !inR 2 8 t.variant else t.variant != 0
  | 4 => 3 ≤ t.variant
  | 5 => 6 ≤ bitf t.variant 0 4 || 32 ≤ t.variant
  | 6 => 2 ≤ t.variant
  | 9 => 2 ≤ t.variant
  | 11 => !inR 2 8 t.variant
  | _ => t.variant != 0
/-- Rules that bind single opcodes. -/
def Tod.badOpcode (t : Tod) : Bool :=
  (t.s2d && t.opcode != 2) ||
  (t.copies && t.scaling != 0) ||
  (t.array && t.dataflow != 3 && !(t.tile % 64 == 0 && inR 64 512 t.tile)) ||
  (decide (1 < t.batch) && (t.residual || decide (64 * t.strideY < (match t.fmtY with | some f => t.bytesY f | none => 0)))) ||
  (match t.opcode with
   | 2 => t.gC % t.groups != 0 || t.outC % t.groups != 0 || 65535 < t.gC ||
          (decide (1 < t.groups) && !(t.cg == 16 || t.cg == 32 || t.cg % 64 == 0)) || (t.packed && t.ng != t.cg)
   | 3 => t.inC % t.groups != 0 || t.outC % t.groups != 0 || !inR 1 15 t.cg
   | 4 => t.outC != t.inC
   | 11 => 65535 < t.gC
   | 12 => !(inR 1 4 t.inC && t.inH ≤ 4096 && t.inW ≤ 4096 && t.kh == t.kw && (t.kh == 3 || t.kh == 5 || t.kh == 7) &&
             t.dh == 1 && t.dw == 1 && t.sh == t.sw && (t.sh == 1 || t.sh == 2 || t.sh == 4) && t.pt == t.pb && t.pt == t.pl && t.pt == t.pr &&
             t.pt ≤ (t.kh - 1) / 2 && inR 1 32 t.outC && t.groups == 1)
   | _ => false)
/-- The BAD_DESCRIPTOR rules that the descriptor alone decides. -/
def Tod.badFields (t : Tod) : Bool :=
  t.badCommon || badZp t.fmtA t.zpA || badZp t.fmtB t.zpB || badZp t.fmtY t.zpY || t.badBatch || t.badShape || t.badEpilogue ||
  t.badVariant || t.badOpcode
/-- Whether a range lies in this needle's own SRAM. -/
def isLocal (r : Range) : Bool := opSpace r.1 == 0
/-- Whether an operand's slots serve it: none for a local operand, else two in local SRAM of a 64 × 64 block or more (R107). -/
def slotsOk (f : Fmt) (a s0 s1 kib : Nat) (slotted : Bool) : Bool :=
  if opSpace a = 0 then kib == 0
  else !slotted || decide (4096 * f.bits / 8 ≤ kib * 1024 ∧ s0 + kib * 1024 ≤ 0x2E0000 ∧ s1 + kib * 1024 ≤ 0x2E0000)
/-- Whether the operands come in through slots: the array, the vector unit or the Marub engine reads them (R107; log 113). -/
def Tod.slotted (t : Tod) : Bool := t.opcode ≤ 7 || t.opcode == 10 || t.opcode == 12 || (t.opcode == 9 && t.variant == 1)
/-- Index list entries (R128). -/
def Chip.indexAt (c : Chip) (m : Mem) (n : Nat) (t : Tod) (i : Nat) : Nat := m.le (c.xlat n t.ctx (t.addrB + 4 * i)) 4
/-- Whether the index list names a row that does not exist (R128). -/
def Chip.badIndex (c : Chip) (m : Mem) (n : Nat) (t : Tod) : Bool :=
  (t.opcode == 8 || t.opcode == 9) &&
  (List.range t.mM).any (fun i => c.indexAt m n t i != 0xFFFFFFFF && decide (t.mK ≤ c.indexAt m n t i))
/-- The aux record of a descriptor, read once at issue (R111). -/
def Chip.auxAt (c : Chip) (m : Mem) (n : Nat) (t : Tod) : Aux := if t.aux then auxOf (m.reads (c.xlat n t.ctx t.addrAux) 64) else auxNone
/-- Bytes that an operation reads one by one by operand address. -/
def Chip.readsAt (c : Chip) (m : Mem) (n ctx a len : Nat) : List Byte := (List.range len).map (fun i => m.read (c.xlat n ctx (a + i)))
/-- An outlier list's used entries (R74). -/
def Chip.outliers (c : Chip) (m : Mem) (n ctx a : Nat) : List Nat :=
  ((List.range 64).map (fun i => m.le (c.xlat n ctx (a + 2 * i)) 2)).takeWhile (· != 0xFFFF)
/-- Ranges of what the aux record names but the abs-max record, all of which must be local (R107, Table 6.6): scales, outlier lists and side
tensors; for MARUB the requantisation entries at SCALE_Y (R130). -/
def Chip.attachments (c : Chip) (m : Mem) (n : Nat) (t : Tod) (x : Aux) : List Range :=
  (if x.has 0 then [(x.scaleA, if isGs t.fmtA then t.rowsA * scaleRow (x.encOf 0) t.groupsA else t.flatScales x 0)] else []) ++
  (if x.has 1 then [(x.scaleB, if isGs t.fmtB then t.colsY * scaleRow (x.encOf 1) t.groupsB else t.flatScales x 1)] else []) ++
  (if x.has 2 then
    [if t.opcode = 12 then (x.scaleY, 4 * t.outC) else if t.mode != 0 && isGs t.fmtY then t.rangeScaleY x else (x.scaleY, t.flatScales x 2)] else []) ++
  (if x.has 4 then [(x.outlA, 128), (x.sideA, t.rowsA * sideRow (c.outliers m n t.ctx x.outlA).length)] else []) ++
  (if x.has 5 then [(x.outlB, 128), (x.sideB, t.colsY * sideRow (c.outliers m n t.ctx x.outlB).length)] else [])
/-- Whether a requantisation entry of MARUB is out of its limits: shift 1 to 31, reserved bits 0 (Table 6.10). -/
def badRequant (e : Nat) : Bool := bitf e 16 5 == 0 || 2097152 ≤ e
/-- The BAD_DESCRIPTOR rules of addresses. -/
def Chip.badRanges (c : Chip) (m : Mem) (n : Nat) (t : Tod) : Bool :=
  let x := c.auxAt m n t
  let ok (r : Range) (w : Bool) := c.rangeOk n t.ctx r w
  let okLocal (r : Range) := isLocal r && ok r false
  t.opcode != 13 &&
  ((t.aux && !(okLocal (t.addrAux, 64) && !x.resv && (List.range 3).all (fun i => x.has i || x.granOf i == 0) &&
      (c.attachments m n t x).all (fun r => r.1 % 64 == 0 && okLocal r) && (!x.has 3 || (x.amax % 16 == 0 && ok (t.rangeAmax x) true)))) ||
   (match t.fmtA with | none => false | some f => !((t.rangesA f).all (fun r => ok r false)) || !slotsOk f t.addrA t.slotA0 t.slotA1 (t.slotKib % 256) t.slotted) ||
   (match t.fmtB with
    | none => false
    | some f => t.hasB && (!((t.rangesB f).all (fun r => ok r false)) || !slotsOk f t.addrB t.slotB0 t.slotB1 (t.slotKib / 256) t.slotted)) ||
   ((t.opcode == 8 || t.opcode == 9) && (!okLocal t.rangeList || t.slotKib / 256 != 0)) ||
   (t.opcode == 12 && x.has 2 && (List.range t.outC).any (fun i => badRequant (m.le (c.xlat n t.ctx (x.scaleY + 4 * i)) 4))) ||
   (match t.fmtY with | none => false | some f => !((t.rangesY f).all (fun r => ok r true))) ||
   (t.readsEpi && !okLocal t.rangeEpi) || (t.residual && !okLocal t.rangeRes) || c.badIndex m n t)
/-- Step 1 of R112. -/
def Chip.badDescriptor (c : Chip) (m : Mem) (n : Nat) (t : Tod) : Bool := t.badFields || c.badRanges m n t

/-! ### BAD_FORMAT (R61, R66, R69, R70, R74, R75, R80, R81, R88, R111, R113) -/

/-- Class of a DWCONV operand: operands pair within one class. -/
def dwClass : Fmt → Nat
  | .s8 => 1 | .e4m3 => 2 | .e5m2 => 2 | .bf16 => 3 | .fp16 => 4 | .fp32 => 5 | _ => 0
/-- Whether the operand formats are those of Table 6.7. -/
def Tod.formatsOk (t : Tod) : Bool :=
  match t.opcode, t.fmtA, t.fmtB, t.fmtY with
  | 1, some a, some b, some _ => a.matrixOk && b.matrixOk && pairOk a b
  | 2, some a, some b, some _ => a.matrixOk && b.matrixOk && pairOk a b
  | 3, some a, some b, some _ => dwClass a != 0 && dwClass a == dwClass b
  | 4, some a, _, some _ => a.vectorOk
  | 5, some a, some b, some _ => a.vectorOk && (b.vectorOk || !t.hasB)
  | 5, some a, none, some _ => a.vectorOk && !t.hasB
  | 6, some a, _, some _ => a.vectorOk
  | 7, some a, _, some _ => a.vectorOk
  | 8, some a, _, some y => a == y
  | 9, some a, _, some y => if t.variant = 1 then y == .fp32 else a == y
  | 10, some a, _, some y => a.vectorOk && y == .fp32
  | 11, some a, _, some y => a == y && !a.grouped
  | 12, some .a8, some .s8, some .a8 => true
  | 13, _, _, _ => true
  | _, _, _, _ => false
/-- Whether a FORMATS field holds a reserved code (R61). -/
def Tod.reservedFmt (t : Tod) : Bool := t.fmtA.isNone || t.fmtB.isNone || t.fmtY.isNone
/-- Whether the group size is named where a format needs it (R70). -/
def Tod.groupOk (t : Tod) : Bool := !((isGs t.fmtA || (t.hasB && isGs t.fmtB) || isGs t.fmtY) && t.group == 0)
/-- Whether a GS operand is read transposed (R88). -/
def Tod.gsTransposed (t : Tod) : Bool := t.array && ((isGs t.fmtA && t.transA) || (isGs t.fmtB && t.transB))
/-- Whether the scale mode suits the output (R81, R131). -/
def Tod.modeOk (t : Tod) : Bool :=
  match t.mode, t.fmtY with
  | 0, _ => !(t.opcode == 12 && t.stoch)
  | 1, some y => y.grouped && t.opcode != 12
  | 2, some y => (y.grouped || y == .e4m3 || y == .e5m2 || y == .s8 || y == .s4) && t.opcode != 12
  | _, _ => false
/-- Whether what R111 asks of the aux record is present. -/
def Tod.auxOk (t : Tod) (x : Aux) : Bool :=
  (!isGs t.fmtA || x.has 0) && (!(t.hasB && isGs t.fmtB) || x.has 1) &&
  (!(t.mode == 1) || x.has 2) && (!(t.mode == 2 && isGs t.fmtY) || x.has 2) && (!(t.mode == 2) || x.has 3) &&
  (!(t.opcode == 12) || x.has 2)
/-- Whether an operand's granularity and encoding are ones R69 allows. -/
def Tod.scaleOk (t : Tod) (x : Aux) (i : Nat) (gs : Bool) : Bool :=
  !x.has i ||
  (if gs then x.granOf i == 3 && x.encOf i ≤ 1
   else (x.granOf i == 1 || (i == 1 && (t.array || t.opcode == 3) && x.granOf i == 2)) && x.encOf i ≤ 2)
/-- Whether the output scale's coding is allowed (R69, R81, Table 6.6). -/
def Tod.scaleYOk (t : Tod) (x : Aux) : Bool :=
  !x.has 2 || t.opcode == 12 ||
  (if t.mode = 0 then (x.granOf 2 == 1 || x.granOf 2 == 2) && (x.encOf 2 == 0 || x.encOf 2 == 2)
   else if t.mode = 1 then x.encOf 2 ≤ 1 else x.encOf 2 == 0)
/-- Whether an outlier list is in order, without repeats, below the reduction length, unused entries last (R74). -/
def Chip.outliersOk (c : Chip) (m : Mem) (n ctx a k : Nat) : Bool :=
  let l := c.outliers m n ctx a
  ((List.range 64).drop l.length).all (fun i => m.le (c.xlat n ctx (a + 2 * i)) 2 == 0xFFFF) &&
  (l.zip (l.drop 1)).all (fun e => decide (e.1 < e.2)) && l.all (fun i => decide (i < k))
/-- Step 2 of R112. -/
def Chip.badFormat (c : Chip) (m : Mem) (n : Nat) (t : Tod) : Bool :=
  let x := c.auxAt m n t
  t.reservedFmt || t.opcode != 13 &&
  (!t.formatsOk || !t.groupOk || t.gsTransposed || !t.modeOk || !t.auxOk x ||
   !t.scaleOk x 0 (isGs t.fmtA) || !(t.scaleOk x 1 (isGs t.fmtB) || !t.hasB) || !t.scaleYOk x ||
   ((x.has 4 || x.has 5) && (t.opcode == 12 || t.fmtY == some .i32)) ||
   (t.array && x.has 4 && !c.outliersOk m n t.ctx x.outlA t.redLen) || (t.array && x.has 5 && !c.outliersOk m n t.ctx x.outlB t.redLen) ||
   (t.mode == 2 && x.has 3 && (List.range t.records).any (fun g => !amaxOk (c.readsAt m n t.ctx (x.amax + 80 * g) 80))))
/-- Status that the checks of R112 give: 0 OK, 1 EMPTY, 2 BAD_FORMAT, 3 BAD_DESCRIPTOR (Table 5.6). -/
def Chip.todStatus (c : Chip) (m : Mem) (n : Nat) (t : Tod) : Nat :=
  if c.badDescriptor m n t then 3 else if c.badFormat m n t then 2 else if t.empty then 1 else 0

end Sys2Proof.Machine
end

