-- ==== Sys2Proof/Machine/Vecfn.lean ====
section
/-!
DEFINITION. The fixed functions of the vector unit (R122): each result lies within 2 ulp of the exact value, and
Config.vecUlp says which of the codes within 2 ulp it is. The value is computed in fixed point with 128 fraction bits.
-/
namespace Sys2Proof.Machine

/-- Fraction bits of the fixed point. -/
def fxBits : Nat := 128
/-- 1 in fixed point. -/
def fxOne : Int := (2 ^ fxBits : Nat)
/-- ln 2 in fixed point. -/
def fxLn2 : Int := 235865763225513294137944142764154484399
/-- Sum of the exponential series: term `t`, index `i`. -/
def expSeries (r : Int) : Nat → Int → Nat → Int
  | 0, _, _ => 0
  | n + 1, t, i => t + expSeries r n (t * r / fxOne / (i + 1)) (i + 1)
/-- A finite value in fixed point, cut off. -/
def fxOf (neg : Bool) (m : Nat) (e : Int) : Int :=
  let v : Int := (m * 2 ^ (e + fxBits).toNat / 2 ^ (-(e + fxBits)).toNat : Nat)
  if neg then -v else v
/-- exp of a fixed-point number as a fixed-point factor in [1, 2) and a power of two. -/
def fxExp (x : Int) : Nat × Int := ((expSeries (x - x / fxLn2 * fxLn2) 40 fxOne 0).toNat, x / fxLn2)
/-- Digit-by-digit square root, rounded down: `fuel` bits from bit `fuel` − 1 of the root down. -/
def isqrt (n : Nat) : Nat → Nat → Nat
  | 0, r => r
  | k + 1, r => if (r + 2 ^ k) * (r + 2 ^ k) ≤ n then isqrt n k (r + 2 ^ k) else isqrt n k r

/-- A code within 2 ulp of num / den × 2^e, for function `fn` of operand `x`; infinities are not moved. -/
def ulpPick (fn : Nat) (x : Nat) (neg : Bool) (num den : Nat) (e : Int) : FVal :=
  let q := fp32.magOf (.stochastic 0) num den e
  let exact := q == fp32.magOf (.stochastic 65535) num den e && q == fp32.magOf .nearest num den e
  let off : Int := if exact then Config.vecUlp fn (BitVec.ofNat 32 x) % 5 - 2 else Config.vecUlp fn (BitVec.ofNat 32 x) % 4 - 1
  if fp32.topCode ≤ q then .inf neg
  else fp32.decode (fp32.signOf neg + min fp32.topCode ((q : Int) + off).toNat)

/-- Whether a value's magnitude is 128 or more, where exp leaves FP32 and tanh and sigmoid reach their bounds. -/
def FVal.huge (x : FVal) : Bool := (FVal.fin false 128 0).le x.abs
/-- exp (function 0). -/
def vexp (x : FVal) : FVal :=
  match x with
  | .nan => .nan
  | .inf true => .zero
  | .inf false => .inf false
  | .fin neg m e =>
    if x.huge then (if neg then ulpPick 0 x.code32 false 1 1 (-400) else .inf false)
    else ulpPick 0 x.code32 false (fxExp (fxOf neg m e)).1 1 ((fxExp (fxOf neg m e)).2 - fxBits)
/-- num / den of sigmoid: 1 / (1 + exp(−y)). -/
def sigmoidParts (neg : Bool) (m : Nat) (e : Int) : Nat × Nat :=
  let p := fxExp (-(fxOf neg m e))
  (2 ^ fxBits * 2 ^ (-p.2).toNat, 2 ^ fxBits * 2 ^ (-p.2).toNat + p.1 * 2 ^ p.2.toNat)
/-- sigmoid (function 1). -/
def vsigmoid (x : FVal) : FVal :=
  match x with
  | .nan => .nan
  | .inf neg => if neg then .zero else .fin false 1 0
  | .fin neg m e =>
    if x.huge then (if neg then ulpPick 1 x.code32 false 1 1 (-400) else ulpPick 1 x.code32 false 1 1 0)
    else ulpPick 1 x.code32 false (sigmoidParts neg m e).1 (sigmoidParts neg m e).2 0
/-- tanh (function 2): by exp, and by x − x³/3 below 2^−12. -/
def vtanh (x : FVal) : FVal :=
  match x with
  | .nan => .nan
  | .inf neg => .fin neg 1 0
  | .fin neg m e =>
    if x.huge then ulpPick 2 x.code32 neg 1 1 0
    else if (FVal.pow2 (-12)).le x.abs then
      let p := fxExp (2 * fxOf false m e)
      ulpPick 2 x.code32 neg (p.1 * 2 ^ p.2.toNat - 2 ^ fxBits) (p.1 * 2 ^ p.2.toNat + 2 ^ fxBits) 0
    else if m = 0 then x
    else ulpPick 2 x.code32 neg (3 * m * 2 ^ (-(2 * e)).toNat - m * m * m * 2 ^ (2 * e).toNat) 3 (e - (-(2 * e)).toNat)
/-- Reciprocal square root (function 3). -/
def vrsqrt (x : FVal) : FVal :=
  match x with
  | .nan => .nan
  | .inf neg => if neg then .nan else .zero
  | .fin neg m e =>
    if m = 0 then .inf neg
    else if neg then .nan
    else
      let h := e / 2
      ulpPick 3 x.code32 false (2 ^ 128) (isqrt (m * 2 ^ (e - 2 * h).toNat * 2 ^ 256) 160 0) (-h)

/-! ### Activation functions (Table 6.9) -/

/-- 0.7978845608 in FP32. -/
def geluC : FVal := fp32.decode 0x3F4C422A
/-- 0.044715 in FP32. -/
def geluA : FVal := fp32.decode 0x3D372713
/-- GELU, each step rounded in FP32. -/
def gelu (y : FVal) : FVal :=
  let inner := fmul geluC (fadd y (fmul geluA (fmul (fmul y y) y)))
  fmul (fmul (.fin false 1 (-1)) y) (fadd (.fin false 1 0) (vtanh inner))
/-- Whether a value is above 0. -/
def FVal.pos (x : FVal) : Bool := FVal.zero.lt x
/-- ReLU. -/
def relu (y : FVal) : FVal := match y with | .nan => .nan | _ => if y.pos then y else .zero
/-- The activation function of a code with its parameter. -/
def activate (code : Nat) (p y : FVal) : FVal :=
  match y, code with
  | .nan, _ => .nan
  | _, 0 => y
  | _, 1 => relu y
  | _, 2 => (relu y).min p
  | _, 3 => if FVal.zero.le y then y else fmul y p
  | _, 4 => gelu y
  | _, 5 => fmul y (vsigmoid y)
  | _, 6 => vsigmoid y
  | _, _ => vtanh y

/-! ### Sums and comparisons (R67, R124, R125) -/

/-- One level of the pairwise tree. -/
def pairLevel : List FVal → List FVal
  | a :: b :: t => fadd a b :: pairLevel t
  | l => l
/-- Pairwise tree over 64 values (R67). -/
def tree64 (l : List FVal) : FVal := (Nat.repeat pairLevel 6 l).headD .zero
/-- Sum of a row in the order of R125: trees of 64, blocks added in increasing order. -/
def rowSum (l : List FVal) : FVal :=
  (List.range (ceilDiv l.length 64)).foldl (fun a b => fadd a (tree64 ((List.range 64).map (fun i => l.getD (64 * b + i) .zero)))) .zero
/-- Sign of a value. -/
def FVal.isNeg : FVal → Bool
  | .nan => false | .inf s => s | .fin s _ _ => s
/-- Maximum with −0 below +0; NaN if either is NaN (R124). -/
def vmax (a b : FVal) : FVal := if a = .nan ∨ b = .nan then .nan else if a.lt b then b else if b.lt a then a else if a.isNeg then b else a
/-- Minimum with −0 below +0; NaN if either is NaN (R124). -/
def vmin (a b : FVal) : FVal := if a = .nan ∨ b = .nan then .nan else if a.lt b then a else if b.lt a then b else if a.isNeg then a else b

end Sys2Proof.Machine
end

