-- ==== Sys2Proof/Machine/Tensor.lean ====
section
/-!
DEFINITION. What a tensor operation computes and the bytes it writes (ch. 4 to 6), as functions of the memory it reads.
`rd` reads one byte of an operand address.
-/
namespace Sys2Proof.Machine

/-! ### Reading tensors -/

/-- Little-endian value of `n` bytes at an operand address. -/
def leAt (rd : Nat → Byte) (a n : Nat) : Nat := (List.range n).foldr (fun i v => (rd (a + i)).toNat + 256 * v) 0
/-- Stored code of element `i` of a tensor (R62). -/
def elemAt (rd : Nat → Byte) (f : Fmt) (base i : Nat) : Nat :=
  if f.bits = 4 then bitf (rd (base + i / 2)).toNat (4 * (i % 2)) 4 else leAt rd (base + i * (f.bits / 8)) (f.bits / 8)
/-- Element offset of (row, channel) (Table 6.1). -/
def rowIdx (r c cols : Nat) : Nat := r * (ceilDiv cols 64 * 64) + c
/-- Element offset of a weight block tensor's (k, n) (Table 6.1). -/
def wIdx (kb k n : Nat) : Nat := ((n / 64 * kb + k / 64) * 64 + n % 64) * 64 + k % 64
/-- Scale `i` of an encoding at an address (R69). -/
def scaleAt (rd : Nat → Byte) (enc base i : Nat) : FVal :=
  if enc = 0 then e8Value (leAt rd (base + i) 1)
  else if enc = 1 then floatScale bf16 (leAt rd (base + 2 * i) 2) else floatScale fp32 (leAt rd (base + 4 * i) 4)
/-- Scale of a vector operand, per tensor (R114). -/
def tensorScale (rd : Nat → Byte) (x : Aux) (i : Nat) : FVal :=
  if x.has i then scaleAt rd (x.encOf i) (if i = 0 then x.scaleA else x.scaleB) 0 else .pow2 0
/-- A vector operand's element in FP32 (R114). -/
def vecElem (rd : Nat → Byte) (f : Fmt) (z : Nat) (s : FVal) (base i : Nat) : FVal := rne32 ((f.value z (elemAt rd f base i)).mul s)

/-! ### Reductions on the array (R67, R68, R71, R75) -/

/-- One output element's reduction: `taps` runs of `chans` channels; stored codes of A and B at (tap, channel), none for
padding; the operands' scales there; side values by reduction index. -/
structure Red where
  fa    : Fmt
  fb    : Fmt
  za    : Nat
  zb    : Nat
  taps  : Nat
  chans : Nat
  group : Nat
  a     : Nat → Nat → Option Nat
  b     : Nat → Nat → Option Nat
  sa    : Nat → Nat → FVal
  sb    : Nat → Nat → FVal
  cable : List Nat
  sideA : Nat → Option FVal
  sideB : Nat → Option FVal
/-- Reduction index of (tap, channel) (R119). -/
def Red.k (r : Red) (tap c : Nat) : Nat := tap * (ceilDiv r.chans 64 * 64) + c
/-- Whether a position enters the array as zero in both operands: beyond the bound, or a cable channel. -/
def Red.off (r : Red) (tap c : Nat) : Bool := decide (r.chans ≤ c) || r.cable.contains (r.k tap c)
/-- Widened integer of A (R73). -/
def Red.aInt (r : Red) (tap c : Nat) : Int := match r.a tap c with | none => 0 | some v => r.fa.widen r.za v
/-- Widened integer of B. -/
def Red.bInt (r : Red) (tap c : Nat) : Int := match r.b tap c with | none => 0 | some v => r.fb.widen r.zb v
/-- Value of A before its scale. -/
def Red.aVal (r : Red) (tap c : Nat) : FVal := match r.a tap c with | none => .zero | some v => r.fa.value r.za v
/-- Value of B before its scale. -/
def Red.bVal (r : Red) (tap c : Nat) : FVal := match r.b tap c with | none => .zero | some v => r.fb.value r.zb v
/-- Exact sum of integer products over channels `lo` to `lo + n − 1` of a tap. -/
def Red.intSum (r : Red) (tap lo n : Nat) : Int :=
  (List.range n).foldl (fun s i => if r.off tap (lo + i) then s else s + r.aInt tap (lo + i) * r.bInt tap (lo + i)) 0
/-- Saturating addition to an I32 accumulator, with the number of saturations so far (R68). -/
def satI32 (acc : Int × Nat) (v : Int) : Int × Nat :=
  if acc.1 + v < -2147483648 then (-2147483648, acc.2 + 1)
  else if 2147483647 < acc.1 + v then (2147483647, acc.2 + 1) else (acc.1 + v, acc.2)
/-- Integer accumulation in increasing blocks (R67). -/
def Red.accI32 (r : Red) : Int × Nat :=
  (List.range r.taps).foldl (fun s tap => (List.range (ceilDiv r.chans 64)).foldl (fun s b => satI32 s (r.intSum tap (64 * b) 64)) s) (0, 0)
/-- Floating-point accumulation: rounded products, pairwise tree, blocks in increasing order (R67). -/
def Red.accFp (r : Red) : FVal :=
  (List.range r.taps).foldl (fun s tap => (List.range (ceilDiv r.chans 64)).foldl (fun s b =>
    fadd s (tree64 ((List.range 64).map (fun i =>
      if r.off tap (64 * b + i) then .zero else fmul (r.aVal tap (64 * b + i)) (r.bVal tap (64 * b + i)))))) s) .zero
/-- Group-scaled accumulation (R71). -/
def Red.accGs (r : Red) : FVal :=
  (List.range r.taps).foldl (fun s tap => (List.range (ceilDiv r.chans r.group)).foldl (fun s g =>
    fadd s (rne32 ((FVal.ofInt (r.intSum tap (r.group * g) r.group)).mul
      (fmul (r.sa tap (r.group * g)) (r.sb tap (r.group * g)))))) s) .zero
/-- Tap and channel of a reduction index. -/
def Red.split (r : Red) (k : Nat) : Nat × Nat := (k / max 1 (ceilDiv r.chans 64 * 64), k % max 1 (ceilDiv r.chans 64 * 64))
/-- Outlier sum on the cable path (R75). -/
def Red.outlier (r : Red) : FVal :=
  r.cable.foldl (fun s k =>
    let p := r.split k
    let u := match r.sideA k with | some v => v | none => rne32 ((r.aVal p.1 p.2).mul (r.sa p.1 p.2))
    let v := match r.sideB k with | some v => v | none => rne32 ((r.bVal p.1 p.2).mul (r.sb p.1 p.2))
    fadd s (fmul u v)) .zero
/-- Accumulator of an element and what it saturated: an I32, or an FP32. -/
inductive Acc where
  | int (v : Int) (sats : Nat)
  | fp (v : FVal)
/-- Accumulation by the pair's rule (Table 4.3). -/
def Red.acc (r : Red) : Acc :=
  if r.fa.integer then
    (if r.fa.grouped || r.fb.grouped then .fp r.accGs else .int r.accI32.1 r.accI32.2)
  else .fp r.accFp
/-- Saturations of an accumulator. -/
def Acc.sats : Acc → Nat
  | .int _ n => n | .fp _ => 0
/-- Bits of an accumulator stored as it stands (R76). -/
def Acc.code : Acc → Nat
  | .int v _ => unsigned 32 v | .fp v => v.code32
/-- Steps 1 and 2 of Table 4.4 with the operands' scales; an FP32 accumulator is taken as it stands, so that scales of FP8 operands act on the
cable path alone (log 73). -/
def Acc.deq (a : Acc) (sa sb : FVal) : FVal :=
  match a with | .int v _ => fmul (rne32 (FVal.ofInt v)) (fmul sa sb) | .fp v => v
/-- Sorted union of two sorted lists. -/
def insertSorted (x : Nat) : List Nat → List Nat
  | [] => [x]
  | y :: t => if x = y then y :: t else if x < y then x :: y :: t else y :: insertSorted x t

/-! ### The operations' reductions -/

/-- What every element of an array operation shares: reader, descriptor, aux record, lists. -/
structure Job2 where
  rd  : Nat → Byte
  t   : Tod
  x   : Aux
  fa  : Fmt
  fb  : Fmt
  la  : List Nat
  lb  : List Nat
/-- Side value of a listed channel. -/
def Job2.side (j : Job2) (list : List Nat) (base row k : Nat) : Option FVal :=
  if list.contains k then some (bf16.decode (leAt j.rd (base + row * sideRow list.length + 2 * list.idxOf k) 2)) else none
/-- Scale of a non-grouped operand of the array: per tensor, or per output channel. -/
def Job2.flatScale (j : Job2) (i chan : Nat) : FVal :=
  if j.x.has i then scaleAt j.rd (j.x.encOf i) (if i = 0 then j.x.scaleA else j.x.scaleB) (if j.x.granOf i = 2 then chan else 0) else .pow2 0
/-- Group scale `g` of row `row` of an operand with `n` scales a row (R72). -/
def Job2.groupScale (j : Job2) (i row n g : Nat) : FVal :=
  let base := if i = 0 then j.x.scaleA else j.x.scaleB
  scaleAt j.rd (j.x.encOf i) (base + row * scaleRow (j.x.encOf i) n) g
/-- MATMUL's element (row, col) of problem `p` (R88, R115). -/
def Job2.matmul (j : Job2) (p row col : Nat) : Red :=
  let t := j.t
  let a := t.addrA + 64 * p * t.strideA
  let b := t.addrB + 64 * p * t.strideB
  { fa := j.fa, fb := j.fb, za := t.zpA, zb := t.zpB, taps := 1, chans := t.mK, group := t.group
    a := fun _ k => some (elemAt j.rd j.fa a (if t.transA then rowIdx k row t.mM else rowIdx row k t.mK))
    b := fun _ k => some (elemAt j.rd j.fb b
      (if t.bRows then (if t.transB then rowIdx k col t.mN else rowIdx col k t.mK)
       else if t.transB then wIdx (ceilDiv t.mN 64) col k else wIdx (ceilDiv t.mK 64) k col))
    sa := fun _ k => if j.fa.grouped then j.groupScale 0 row t.groupsA (k / t.group) else j.flatScale 0 0
    sb := fun _ k => if j.fb.grouped then j.groupScale 1 col t.groupsB (k / t.group) else j.flatScale 1 col
    cable := j.lb.foldl (fun l k => insertSorted k l) j.la
    sideA := fun k => j.side j.la j.x.sideA row k
    sideB := fun k => j.side j.lb j.x.sideB col k }
/-- Input position of an output row and a tap: image, row, column of the regrouped input (R116). -/
def Tod.tapPos (t : Tod) (row tap : Nat) : Nat × Int × Int :=
  let w := t.ow.toNat
  let h := t.oh.toNat
  (row / (w * h), (((row / w % h) * t.sh : Nat) : Int) - t.pt + ((tap / t.kw * t.dh : Nat) : Int),
   (((row % w) * t.sw : Nat) : Int) - t.pl + ((tap % t.kw * t.dw : Nat) : Int))
/-- Stored position and channel of a regrouped one, if it lies in the stored tensor: (row of positions, channel) (R117, R129). -/
def Tod.stored (t : Tod) (q : Nat × Int × Int) (ch : Nat) : Option (Nat × Nat) :=
  let f := t.factor
  if q.2.1 < 0 ∨ q.2.2 < 0 then none
  else
    let ih := q.2.1.toNat * f + ch / t.inC / f
    let iw := q.2.2.toNat * f + ch / t.inC % f
    if t.inH ≤ ih ∨ t.inW ≤ iw then none else some ((q.1 * t.inH + ih) * t.inW + iw, ch % t.inC)
/-- Element offset of A of a convolution at a stored position and channel; TRANS_A reads channels as the stored rows (R88; log 114). -/
def Tod.convA (t : Tod) (q : Nat × Nat) : Nat := if t.transA then rowIdx q.2 q.1 (t.inN * t.inH * t.inW) else rowIdx q.1 q.2 t.inC
/-- Element offset of B of a convolution for group `g`, output channel `o` of it, tap and channel `c`; B_ROWS takes R119's k along rows,
TRANS_B swaps the roles of `o` and `c` (Table 6.1, R88; log 114). -/
def Tod.convB (t : Tod) (g o tap c : Nat) : Nat :=
  let cb := ceilDiv t.cg 64
  if t.bRows then
    (if t.transB then rowIdx (g * t.redLen + tap * (cb * 64) + c) o t.ng else (g * t.ng + o) * t.redLen + tap * (cb * 64) + c)
  else
    let i := if t.transB then o else c
    let r := if t.transB then c else o
    if t.packed then ((g / (64 / t.cg) * (t.kh * t.kw) + tap) * (64 / t.cg) + g % (64 / t.cg)) * (t.cg * t.cg) + r * t.cg + i
    else
      let nr := ceilDiv (if t.transB then t.cg else t.ng) 64
      let ni := ceilDiv (if t.transB then t.ng else t.cg) 64
      ((((g * nr + r / 64) * (t.kh * t.kw) + tap) * ni + i / 64) * 64 + r % 64) * 64 + i % 64
/-- CONV's element (row, out channel) (R119, R129). -/
def Job2.conv (j : Job2) (row col : Nat) : Red :=
  let t := j.t
  let g := col / t.ng
  let o := col % t.ng
  { fa := j.fa, fb := j.fb, za := t.zpA, zb := t.zpB, taps := t.kh * t.kw, chans := t.cg, group := t.group
    a := fun tap c => (t.stored (t.tapPos row tap) (g * t.cg + c)).map (fun q => elemAt j.rd j.fa t.addrA (t.convA q))
    b := fun tap c => some (elemAt j.rd j.fb t.addrB (t.convB g o tap c))
    sa := fun tap c =>
      if j.fa.grouped then
        (match t.stored (t.tapPos row tap) (g * t.cg + c) with
         | none => .pow2 0
         | some q => j.groupScale 0 q.1 t.groupsA (q.2 / t.group))
      else j.flatScale 0 0
    sb := fun tap c =>
      if j.fb.grouped then j.groupScale 1 col t.groupsB (tap * ceilDiv t.cg t.group + c / t.group)
      else j.flatScale 1 col
    cable := j.lb.foldl (fun l k => insertSorted k l) j.la
    sideA := fun k =>
      let w := max 1 (ceilDiv t.cg 64 * 64)
      match t.stored (t.tapPos row (k / w)) (g * t.cg + k % w) with
      | none => if j.la.contains k then some .zero else none
      | some q => j.side j.la j.x.sideA q.1 k
    sideB := fun k => j.side j.lb j.x.sideB col k }
/-- Element (row, col) of problem `p` of an array operation. -/
def Job2.red (j : Job2) (p row col : Nat) : Red := if j.t.opcode = 1 then j.matmul p row col else j.conv row col
/-- An array element after steps 1 to 3 of Table 4.4 (R76). -/
def Job2.elem (j : Job2) (p row col : Nat) : FVal :=
  let r := j.red p row col
  let y := r.acc.deq (j.flatScale 0 0) (j.flatScale 1 col)
  if j.x.has 4 || j.x.has 5 then fadd y r.outlier else y

/-! ### DWCONV and POOL (R93, R123) -/

/-- Stored code of A under a tap, none for padding. -/
def Job2.tapCode (j : Job2) (row tap ch : Nat) : Option Nat :=
  (j.t.stored (j.t.tapPos row tap) ch).map (fun q => elemAt j.rd j.fa j.t.addrA (rowIdx q.1 q.2 j.t.inC))
/-- Depthwise weight of (out channel, tap, channel) (Table 6.1). -/
def Job2.dwWeight (j : Job2) (col tap c : Nat) : Nat :=
  elemAt j.rd j.fb (j.t.addrB + col * dwRun j.fb j.t) (tap * j.t.cg + c)
/-- DWCONV's integer sum, each addition saturating (R93). -/
def Job2.dwInt (j : Job2) (row col : Nat) : Int × Nat :=
  let g := col / j.t.ng
  (List.range (j.t.kh * j.t.kw * j.t.cg)).foldl (fun s i =>
    let v : Int := match j.tapCode row (i / j.t.cg) (g * j.t.cg + i % j.t.cg) with
      | none => 0 | some w => j.fa.widen j.t.zpA w
    satI32 s (v * j.fb.widen j.t.zpB (j.dwWeight col (i / j.t.cg) (i % j.t.cg)))) (0, 0)
/-- DWCONV's floating-point sum (R93). -/
def Job2.dwFp (j : Job2) (row col : Nat) : FVal :=
  let g := col / j.t.ng
  (List.range (j.t.kh * j.t.kw * j.t.cg)).foldl (fun s i =>
    let u := match j.tapCode row (i / j.t.cg) (g * j.t.cg + i % j.t.cg) with
      | none => .zero | some w => rne32 ((j.fa.value j.t.zpA w).mul (tensorScale j.rd j.x 0))
    fadd s (fmul u (rne32 ((j.fb.value j.t.zpB (j.dwWeight col (i / j.t.cg) (i % j.t.cg))).mul (j.flatScale 1 col))))) .zero
/-- DWCONV's accumulator. -/
def Job2.dwAcc (j : Job2) (row col : Nat) : Acc :=
  if j.fa = .s8 then .int (j.dwInt row col).1 (j.dwInt row col).2 else .fp (j.dwFp row col)
/-- DWCONV's element after step 2, with a per-tensor or per-channel scale of the weights (R69, R114). -/
def Job2.dwElem (j : Job2) (row col : Nat) : FVal := (j.dwAcc row col).deq (j.flatScale 0 0) (j.flatScale 1 col)
/-- In-bounds taps of a pooling window, as FP32 values in row-major order. -/
def Job2.window (j : Job2) (row col : Nat) : List FVal :=
  (List.range (j.t.kh * j.t.kw)).filterMap (fun tap =>
    (j.tapCode row tap col).map (fun w => rne32 ((j.fa.value j.t.zpA w).mul (tensorScale j.rd j.x 0))))
/-- POOL's element (R123). -/
def Job2.pool (j : Job2) (row col : Nat) : FVal :=
  match j.window row col with
  | [] => .zero
  | v :: l =>
    if j.t.variant = 0 then l.foldl vmax v
    else fdiv ((v :: l).foldl fadd .zero) (FVal.ofInt (if j.t.variant = 1 then j.t.kh * j.t.kw else l.length + 1 : Nat))

/-! ### Row operations (R124 to R127) -/

/-- Element of A of a matrix-view operation in FP32 (R114). -/
def Job2.av (j : Job2) (p row col : Nat) : FVal :=
  vecElem j.rd j.fa j.t.zpA (tensorScale j.rd j.x 0) (j.t.addrA + 64 * p * j.t.strideA) (rowIdx row col j.t.mN)
/-- Element of B of ELTWISE, a row vector where VARIANT[4] = 1. -/
def Job2.bv (j : Job2) (p row col : Nat) : FVal :=
  vecElem j.rd j.fb j.t.zpB (tensorScale j.rd j.x 1) (j.t.addrB + 64 * p * j.t.strideB)
    (rowIdx (if bit j.t.variant 4 then 0 else row) col j.t.mN)
/-- ELTWISE's element (R124). -/
def Job2.eltwise (j : Job2) (p row col : Nat) : FVal :=
  match bitf j.t.variant 0 4 with
  | 0 => fadd (j.av p row col) (j.bv p row col)
  | 1 => fsub (j.av p row col) (j.bv p row col)
  | 2 => fmul (j.av p row col) (j.bv p row col)
  | 3 => vmax (j.av p row col) (j.bv p row col)
  | 4 => vmin (j.av p row col) (j.bv p row col)
  | _ => j.av p row col
/-- A row of A. -/
def Job2.row (j : Job2) (p r : Nat) : List FVal := (List.range j.t.mN).map (fun c => j.av p r c)
/-- FP32 vector element at ADDR_EPI. -/
def Job2.epi (j : Job2) (i : Nat) : FVal := fp32.decode (leAt j.rd (j.t.addrEpi + 4 * i) 4)
/-- ACT_PARAM's value. -/
def Tod.param (t : Tod) : FVal := bf16.decode t.actParam
/-- NORM's row (R125). -/
def Job2.norm (j : Job2) (r : Nat) : List FVal :=
  let xs := j.row 0 r
  let n := FVal.ofInt (xs.length : Nat)
  let mean := if j.t.variant = 0 then fdiv (rowSum xs) n else .zero
  let ds := xs.map (fun v => fsub v mean)
  let inv := vrsqrt (fadd (fdiv (rowSum (ds.map (fun d => fmul d d))) n) j.t.param)
  ((List.range xs.length).zip ds).map (fun e =>
    let y := fmul (fmul e.2 inv) (j.epi e.1)
    if j.t.variant = 0 then fadd y (j.epi (j.t.mN + e.1)) else y)
/-- SOFTMAX's row (R126). -/
def Job2.softmax (j : Job2) (p r : Nat) : List FVal :=
  let xs := if j.t.actParam = 0 then j.row p r else (j.row p r).map (fun v => fmul v j.t.param)
  if xs.contains .nan then xs.map (fun _ => .nan)
  else if xs.all (· == .inf true) then xs.map (fun _ => .zero)
  else
    let mx := xs.foldl vmax (.inf true)
    let es := xs.map (fun v => vexp (fsub v mx))
    let s := rowSum es
    es.map (fun e => fdiv e s)
/-- ARGMAX's entry: index and value of the largest channel (R127). -/
def Job2.argmax (j : Job2) (r : Nat) : Nat × FVal :=
  ((List.range j.t.mN).zip (j.row 0 r)).foldl (fun a e =>
    if e.2 = .nan then a else if a.2 = .nan ∨ a.2.lt e.2 then e else a) (0xFFFF, .nan)

/-! ### The epilogue (R121) -/

/-- Step 4 of Table 4.4 on an element of row `r`, channel `c`. -/
def Job2.epilogue (j : Job2) (r c : Nat) (y0 : FVal) : FVal :=
  let y := if j.t.bias then fadd y0 (j.epi c) else y0
  let act (v : FVal) := activate j.t.act j.t.param v
  let res (v : FVal) :=
    if j.t.residual then fadd v (j.t.resFmt.value 0 (elemAt j.rd j.t.resFmt j.t.addrRes (rowIdx r c j.t.colsY))) else v
  if j.t.resFirst then act (res y) else res (act y)
/-- A row of a problem before step 4 (R114). -/
def Job2.rowBase (j : Job2) (p r : Nat) : List FVal :=
  match j.t.opcode with
  | 6 => j.norm r
  | 7 => j.softmax p r
  | op => (List.range j.t.colsY).map (fun c =>
      if op = 1 ∨ op = 2 then j.elem p r c else if op = 3 then j.dwElem r c else if op = 4 then j.pool r c else j.eltwise p r c)
/-- A problem's rows of values after step 4. -/
def Job2.rows (j : Job2) (p : Nat) : List (List FVal) :=
  (List.range j.t.rowsY).map (fun r =>
    match j.t.opcode with
    | 6 => (j.rowBase p r).map (activate j.t.act j.t.param)
    | 7 => j.rowBase p r
    | _ => ((List.range j.t.colsY).zip (j.rowBase p r)).map (fun e => j.epilogue r e.1 e.2))
/-- I32 outputs of a problem, steps 2 to 6 skipped: accumulators as they stand; a vector result's FP32 bits where there is no accumulator
(R76; log 115). -/
def Job2.rawRows (j : Job2) (p : Nat) : List (List Nat) :=
  (List.range j.t.rowsY).map (fun r =>
    if j.t.array then (List.range j.t.colsY).map (fun c => (j.red p r c).acc.code)
    else if j.t.opcode = 3 then (List.range j.t.colsY).map (fun c => (j.dwAcc r c).code)
    else (j.rowBase p r).map FVal.code32)
/-- Saturations of the I32 accumulators of a problem. -/
def Job2.accSats (j : Job2) (p : Nat) : Nat :=
  if (j.t.array && pairI32 j.fa j.fb) || (j.t.opcode == 3 && j.fa == .s8) then
    (List.range j.t.rowsY).foldl (fun s r => (List.range j.t.colsY).foldl (fun s c =>
      s + (if j.t.array then (j.red p r c).acc.sats else (j.dwAcc r c).sats)) s) 0
  else 0

/-! ### Conversion and writing (R77 to R83, R120) -/

/-- What an operation leaves behind at its completion: output bytes and abs-max records written, saturations and non-finite values for the
needle's counters, and whether an I32 accumulator saturated. -/
structure TodOut where
  writes : List (Nat × Byte)
  recs   : List (Nat × Byte)
  sats   : Nat
  nonfin : Nat
  i32    : Bool
deriving DecidableEq, Repr
/-- Bytes of a row of codes at an operand address; the other nibble of a last 4-bit element keeps its content (R120). -/
def packRow (rd : Nat → Byte) (f : Fmt) (base : Nat) (codes : List Nat) : List (Nat × Byte) :=
  if f.bits = 4 then
    (List.range (ceilDiv codes.length 2)).map (fun i =>
      (base + i, BitVec.ofNat 8 (codes.getD (2 * i) 0 % 16 + 16 * (match codes[2 * i + 1]? with | some v => v % 16 | none => (rd (base + i)).toNat / 16))))
  else
    ((List.range codes.length).zip codes).flatMap (fun e =>
      ((List.range (f.bits / 8)).zip (leBytes (f.bits / 8) e.2)).map (fun b => (base + e.1 * (f.bits / 8) + b.1, b.2)))
/-- Rows of codes of a problem written at ADDR_Y. -/
def Job2.store (j : Job2) (f : Fmt) (p : Nat) (rows : List (List Nat)) : List (Nat × Byte) :=
  ((List.range rows.length).zip rows).flatMap (fun e =>
    packRow j.rd f (j.t.addrY + 64 * p * j.t.strideY + e.1 * (rowsBytes f 1 j.t.colsY)) e.2)
/-- Groups of a GS output, else one. -/
def Tod.grouping (t : Tod) (f : Fmt) : Nat := if f.grouped then max 1 t.group else max 1 t.colsY
/-- Whether a value is a zero. -/
def FVal.isZero : FVal → Bool
  | .fin _ 0 _ => true | _ => false
/-- Abs-max of a list (R79). -/
def amaxOf (l : List FVal) : FVal := l.foldl amaxJoin .zero
/-- Elements of group `g` of a row. -/
def slice {α : Type} (n g : Nat) (l : List α) : List α := (l.drop (n * g)).take n
/-- Whether a group of a GS output has abs-max 0 (R82). -/
def Job2.zeroGroup (j : Job2) (f : Fmt) (row : List FVal) (g : Nat) : Bool := f.grouped && (amaxOf (slice (j.t.grouping f) g row)).isZero
/-- Scale code of a group: 0 where its abs-max is 0, derived in IMMEDIATE mode from its own abs-max, in DELAYED mode from its record (R82). -/
def Job2.groupCode (j : Job2) (f : Fmt) (row : List FVal) (g : Nat) : Nat :=
  if j.zeroGroup f row g then 0
  else if j.t.mode = 1 then
    (if j.x.encOf 2 = 1 then deriveBf16 f j.t.margin (amaxOf (slice (j.t.grouping f) g row))
     else deriveE8 f j.t.margin (amaxOf (slice (j.t.grouping f) g row)))
  else delayedE8 f j.t.margin ((List.range 80).map (fun i => j.rd (j.x.amax + 80 * g + i)))
/-- Scaling of an element by the mode (R77, R81). -/
def Job2.scaling (j : Job2) (f : Fmt) (row : List FVal) (c : Nat) : Scaling :=
  if f = .bf16 ∨ f = .fp16 ∨ f = .fp32 then .divide (.pow2 0)
  else if j.t.mode = 0 then
    (if j.x.has 2 then
      (if j.x.encOf 2 = 2 then .times (scaleAt j.rd 2 j.x.scaleY (if j.x.granOf 2 = 2 then c else 0))
       else .divide (scaleAt j.rd 0 j.x.scaleY (if j.x.granOf 2 = 2 then c else 0)))
     else .divide (.pow2 0))
  else
    let k := j.groupCode f row (c / j.t.grouping f)
    if j.t.mode = 1 ∧ j.x.encOf 2 = 1 then .divide (bf16.decode k) else .divide (e8Value k)
/-- Rounding of element (row, c) of problem `p` (R78). -/
def Job2.rounding (j : Job2) (f : Fmt) (p r c : Nat) : Rounding :=
  if j.t.stoch then .stochastic (draw j.t.seed j.t.step (64 * p * j.t.strideY * 8 / f.bits + rowIdx r c j.t.colsY)) else .nearest
/-- An element converted; a group whose abs-max is 0 is written as 0 where its scale is derived (R82). -/
def Job2.convertAt (j : Job2) (f : Fmt) (p r c : Nat) (row : List FVal) (v : FVal) : Conv :=
  let k := convert f j.t.zpY (j.rounding f p r c) (j.scaling f row c) v
  if j.t.mode ≠ 0 ∧ j.zeroGroup f row (c / j.t.grouping f) = true then { k with code := 0 } else k
/-- Converted rows of a problem. -/
def Job2.convertRows (j : Job2) (f : Fmt) (p : Nat) (rows : List (List FVal)) : List (List Conv) :=
  ((List.range rows.length).zip rows).map (fun e =>
    ((List.range e.2.length).zip e.2).map (fun v => j.convertAt f p e.1 v.1 e.2 v.2))
/-- Group scales written for a GS output in IMMEDIATE or DELAYED mode (R72); the problems of a batch write the same rows, the last one over
the others (log 116). -/
def Job2.scaleWrites (j : Job2) (f : Fmt) (rows : List (List FVal)) : List (Nat × Byte) :=
  if j.t.mode = 0 ∨ f.grouped = false then []
  else ((List.range rows.length).zip rows).flatMap (fun e =>
    let bytes := padTo 16 ((List.range j.t.groupsY).flatMap (fun g => leBytes (encBytes (j.x.encOf 2)) (j.groupCode f e.2 g)))
    ((List.range bytes.length).zip bytes).map (fun b => (j.x.scaleY + e.1 * bytes.length + b.1, b.2)))
/-- Records updated by a DELAYED operation (R83). -/
def Job2.recordWrites (j : Job2) (f : Fmt) (vals : List (List FVal)) (convs : List (List Conv)) : List (Nat × Byte) :=
  if j.t.mode = 2 then
    (List.range j.t.records).flatMap (fun g =>
      let n := j.t.grouping f
      let old := (List.range 80).map (fun i => j.rd (j.x.amax + 80 * g + i))
      let cs := convs.flatMap (fun row => slice n g row)
      let new := amaxUpdate old (amaxOf (vals.flatMap (fun row => slice n g row))) (delayedE8 f j.t.margin old)
        (cs.filter (fun k => k.sat)).length (cs.filter (fun k => k.nonfin)).length
      ((List.range 80).zip new).map (fun b => (j.x.amax + 80 * g + b.1, b.2)))
  else []
/-- Problems of an operation. -/
def Tod.problems (t : Tod) : List Nat := List.range (max 1 t.batch)
/-- An operation whose output is converted (Table 4.4). -/
def Job2.computed (j : Job2) (f : Fmt) : TodOut :=
  if f = .i32 then
    { writes := j.t.problems.flatMap (fun p => j.store f p (j.rawRows p))
      recs := [], sats := (j.t.problems.map j.accSats).sum, nonfin := 0, i32 := (j.t.problems.map j.accSats).sum != 0 }
  else
    let vals := j.t.problems.map (fun p => (p, j.rows p))
    let convs := vals.map (fun e => (e.1, j.convertRows f e.1 e.2))
    let flat := convs.flatMap (fun e => e.2)
    let i32 := (j.t.problems.map j.accSats).sum
    { writes := convs.flatMap (fun e => j.store f e.1 (e.2.map (fun r => r.map (fun k => k.code)))) ++
        vals.flatMap (fun e => j.scaleWrites f e.2)
      recs := j.recordWrites f (vals.flatMap (fun e => e.2)) flat
      sats := i32 + (if j.t.mode = 2 then 0 else (flat.map (fun r => (r.filter (fun k => k.sat)).length)).sum)
      nonfin := if j.t.mode = 2 then 0 else (flat.map (fun r => (r.filter (fun k => k.nonfin)).length)).sum
      i32 := i32 != 0 }

/-! ### Copying operations, ARGMAX, MARUB (R127 to R131) -/

/-- Stored codes of a row. -/
def Job2.codes (j : Job2) (r : Nat) : List Nat := (List.range j.t.mN).map (fun c => elemAt j.rd j.fa j.t.addrA (rowIdx r c j.t.mN))
/-- Entry of the index list. -/
def Job2.index (j : Job2) (i : Nat) : Nat := leAt j.rd (j.t.addrB + 4 * i) 4
/-- Bytes of only what is written. -/
def plainOut (w : List (Nat × Byte)) : TodOut := { writes := w, recs := [], sats := 0, nonfin := 0, i32 := false }
/-- GATHER (R128). -/
def Job2.gather (j : Job2) : TodOut :=
  plainOut (j.store j.fa 0 ((List.range j.t.mM).map (fun i =>
    if j.index i = 0xFFFFFFFF then List.replicate j.t.mN 0 else j.codes (j.index i))))
/-- Destination of SCATTER's row. -/
def Job2.destRow (j : Job2) (f : Fmt) (r : Nat) : Nat := j.t.addrY + r * rowsBytes f 1 j.t.mN
/-- A byte reader after some writes. -/
def overlay (rd : Nat → Byte) (w : List (Nat × Byte)) : Nat → Byte :=
  fun a => match w.reverse.find? (fun e => e.1 == a) with | some e => e.2 | none => rd a
/-- SCATTER, rows in list order; VARIANT 1 adds into FP32, each addition rounded (R128). -/
def Job2.scatter (j : Job2) (f : Fmt) : TodOut :=
  plainOut ((List.range j.t.mM).foldl (fun w i =>
    if j.index i = 0xFFFFFFFF then w
    else if j.t.variant = 0 then w ++ packRow (overlay j.rd w) f (j.destRow f (j.index i)) (j.codes i)
    else w ++ packRow j.rd f (j.destRow f (j.index i)) ((List.range j.t.mN).map (fun c =>
      (fadd (fp32.decode (elemAt (overlay j.rd w) f (j.destRow f (j.index i)) c)) (j.av 0 i c)).code32))) [])
/-- S2D (R129). -/
def Job2.regroup (j : Job2) : TodOut :=
  plainOut (j.store j.fa 0 ((List.range j.t.rowsY).map (fun r => (List.range j.t.gC).map (fun ch =>
    match j.t.stored (r / (j.t.gH * j.t.gW), ((r / j.t.gW % j.t.gH : Nat) : Int), ((r % j.t.gW : Nat) : Int)) ch with
    | none => if j.fa.zeroPoint then j.t.zpA else 0
    | some q => elemAt j.rd j.fa j.t.addrA (rowIdx q.1 q.2 j.t.inC)))))
/-- ARGMAX's entries (R127). -/
def Job2.argmaxOut (j : Job2) : TodOut :=
  plainOut ((List.range j.t.mM).flatMap (fun r =>
    let e := j.argmax r
    let b := leBytes 2 e.1 ++ leBytes 2 0 ++ leBytes 4 e.2.code32
    ((List.range 8).zip b).map (fun x => (j.t.addrY + 8 * r + x.1, x.2))))
/-- MARUB's accumulator: exact I32 sum and bias (R131). -/
def Job2.marubAcc (j : Job2) (row col : Nat) : Int :=
  let t := j.t
  let s := (List.range (t.kh * t.kw * t.inC)).foldl (fun (s : Int) i =>
    let tap := i / t.inC
    let c := i % t.inC
    let q := t.tapPos row tap
    if q.2.1 < 0 ∨ q.2.2 < 0 ∨ (t.inH : Int) ≤ q.2.1 ∨ (t.inW : Int) ≤ q.2.2 then s
    else
      let a := leAt j.rd (t.addrA + ((q.1 * t.inC + c) * t.inH + q.2.1.toNat) * (ceilDiv t.inW 16 * 16) + q.2.2.toNat) 1
      let w := signed 8 (leAt j.rd (t.addrB + tap * 4096 + col * 64 + c) 1)
      s + ((a : Int) - t.zpA) * w) 0
  let s := if t.bias then s + signed 32 (leAt j.rd (t.addrEpi + 4 * col) 4) else s
  signed 32 (unsigned 32 s)
/-- MARUB's output code (R131). -/
def Job2.marubCode (j : Job2) (row col : Nat) : Nat :=
  let e := leAt j.rd (j.x.scaleY + 4 * col) 4
  let shift := bitf e 16 5
  let q : Int := (j.marubAcc row col * (bitf e 0 16 : Nat) + (2 ^ (shift - 1) : Nat)) / (2 ^ shift : Nat)
  let q := if j.t.act = 1 then max 0 q else q
  (max 0 (min 255 (q + j.t.zpY))).toNat
/-- MARUB (R130, R131). -/
def Job2.marub (j : Job2) : TodOut :=
  plainOut (j.store .a8 0 ((List.range j.t.rowsY).map (fun r => (List.range j.t.outC).map (fun c => j.marubCode r c))))

/-! ### The whole operation -/

/-- Byte at a flat address as the operation reads it: what its transfers brought, else what stands in memory (R96, R107). -/
def OpRt.byteAt (o : OpRt) (m : Mem) (a : Nat) : Byte :=
  match o.loaded.find? (fun e => decide (e.1 ≤ a ∧ a < e.1 + e.2.length)) with
  | some e => e.2.getD (a - e.1) 0
  | none => m.read a
/-- The job of an operation in flight. -/
def Chip.jobOf (c : Chip) (m : Mem) (n : Nat) (o : OpRt) : Job2 :=
  let t := todOf o.desc
  { rd := fun a => o.byteAt m (c.xlat n o.context a), t := t, x := auxOf o.auxRec, fa := t.fmtA.getD .s8, fb := t.fmtB.getD .s8
    la := o.listA, lb := o.listB }
/-- What the operation writes, by operand address (R113). -/
def Job2.out (j : Job2) : TodOut :=
  match j.t.opcode with
  | 8 => j.gather
  | 9 => j.scatter (j.t.fmtY.getD .s8)
  | 10 => j.argmaxOut
  | 11 => j.regroup
  | 12 => j.marub
  | 13 => plainOut []
  | _ => j.computed (j.t.fmtY.getD .s8)
/-- What an operation leaves behind, at flat addresses; nothing where R112 ended it. -/
def Chip.opOut (c : Chip) (m : Mem) (n : Nat) (o : OpRt) : TodOut :=
  if o.status = 0 then
    { (c.jobOf m n o).out with
      writes := (c.jobOf m n o).out.writes.map (fun e => (c.xlat n o.context e.1, e.2))
      recs := (c.jobOf m n o).out.recs.map (fun e => (c.xlat n o.context e.1, e.2)) }
  else plainOut []

/-! ### Costs and flags (R84, R87, R90, R94, R103) -/

/-- Shape of one problem of an array operation: M, K blocks, N, and how many problems run. -/
def Tod.problem (t : Tod) : Nat × Nat × Nat × Nat :=
  if t.opcode = 1 then (t.mM, ceilDiv t.mK 64, t.mN, t.batch)
  else if t.packed then (t.positions, t.kh * t.kw, 64, ceilDiv t.gC 64)
  else (t.positions, t.kh * t.kw * ceilDiv t.cg 64, t.ng, t.groups)
/-- Twice the stitches a streamed row takes (Table 5.2). -/
def twiceR (a b : Fmt) : Nat := if a.nibble ∧ b.nibble ∧ a.integer then 1 else if a = .bf16 ∨ a = .fp16 then 8 else 2
/-- Dataflow and TILE used, with `f` free tiles (R87): AUTO chooses. -/
def Tod.flow (t : Tod) (f : Nat) : Nat × Nat :=
  if t.dataflow = 3 then
    let want := if t.problem.2.2.1 ≤ t.problem.1 then (0, 64 * min (ceilDiv t.problem.1 64) 8) else (1, 64 * min (ceilDiv t.problem.2.2.1 64) 8)
    if f < want.2 / 64 then (2, 64) else want
  else (t.dataflow, t.tile)
/-- Accumulator tiles the loop order assumes (Table 5.3). -/
def tilesOf (flow : Nat × Nat) : Nat := if flow.1 = 2 then 1 else flow.2 / 64
/-- Streaming, stationary blocks and exposed loads of one problem for P columns (Tables 5.3 and 5.7). -/
def streamCost (flow : Nat × Nat) (r2 mm kb nn cols : Nat) : Nat × Nat × Nat :=
  let mb := ceilDiv mm 64
  let nb := ceilDiv nn 64
  let exposed (rows : Nat) := 64 - r2 * rows / 2
  match flow.1 with
  | 1 =>
    let runs := ceilDiv nn flow.2
    (r2 * 64 * ceilDiv mm cols * kb * nb / 2, kb * ceilDiv mm cols * runs,
     kb * ceilDiv mm cols * ((runs - 1) * exposed flow.2 + exposed (64 * nb - flow.2 * (runs - 1))))
  | 2 => (r2 * 64 * mb * kb * ceilDiv nn cols / 2, mb * kb * ceilDiv nn cols, mb * kb * ceilDiv nn cols * exposed 64)
  | _ =>
    let runs := ceilDiv mm flow.2
    (r2 * 64 * mb * kb * ceilDiv nn cols / 2, kb * ceilDiv nn cols * runs,
     kb * ceilDiv nn cols * ((runs - 1) * exposed flow.2 + exposed (64 * mb - flow.2 * (runs - 1))))
/-- Elementary operations of a vector or DMA operation; where no rule counts them, a free value (log 39). -/
def Tod.elementary (t : Tod) : Nat :=
  match t.opcode with
  | 3 => t.positions * t.outC * t.kh * t.kw * t.cg
  | 4 => t.positions * t.outC * t.kh * t.kw
  | 5 => max 1 t.batch * t.mM * t.mN
  | op => Config.elementaryOps op (t.rowsY * t.colsY)
/-- Elementary operations of the vector unit per stitch: four a lane for 8-bit products summed in I32, two for 16-bit operands, one for the
rest, which works in FP32 (R92, R114). -/
def Tod.laneRate (t : Tod) : Nat :=
  if t.opcode = 3 ∧ t.fmtA = some .s8 then 512 else if t.fmtA = some .bf16 ∨ t.fmtA = some .fp16 then 256 else 128
/-- What issue decides about an operation: dataflow and TILE, tiles assumed, spill visits, streaming stitches, cost in
stitches, and whether the cable path adds to it. -/
structure Cost where
  flow    : Nat
  tiles   : Nat
  visits  : Nat
  streaming : Nat
  stitches : Nat
  cableExtra : Bool
deriving DecidableEq, Repr
/-- Cost of an operation issued with `f` free tiles on a needle of `cols` columns and `cable` cable channels (R103). -/
def Tod.costOf (t : Tod) (f cols cable : Nat) : Cost :=
  if t.array then
    let fl := t.flow f
    let p := t.problem
    let s := streamCost fl (twiceR (t.fmtA.getD .s8) (t.fmtB.getD .s8)) p.1 p.2.1 p.2.2.1 (max 1 cols)
    let visits := if tilesOf fl ≤ f then 0 else (tilesOf fl - f) * (s.2.1 * p.2.2.2)
    let base := p.2.2.2 * (s.1 + s.2.2) + 64 * visits
    let extra := ceilDiv (max 1 t.batch * t.rowsY * t.colsY * cable) 128
    { flow := fl.1, tiles := tilesOf fl, visits := visits, streaming := p.2.2.2 * s.1, stitches := max base extra + 128, cableExtra := decide (base < extra) }
  else
    { flow := 0, tiles := 1, visits := 0, streaming := 0, cableExtra := false
      stitches := if t.opcode = 13 then 0
        else if t.opcode = 12 then ceilDiv (t.positions * t.outC * t.kh * t.kw * t.inC) 288
        else ceilDiv t.elementary t.laneRate + 32 }

end Sys2Proof.Machine
end

