-- ==== Sys2Proof/Machine/Needle.lean ====
section
/-!
DEFINITION. The sequencer of a needle (R97, R98), its bands and weight swaps (R138 to R141), its DMA engine (R96), and how
its operations end.
-/
namespace Sys2Proof.Machine

/-! ### Contexts and stages -/

/-- The placed stage a context serves. -/
def Ticket.stageOf (t : Ticket) (ctx : Nat) : Option Placed := t.placed.find? (fun p => p.contexts.contains ctx)
/-- Whether a context's work is guaranteed: its ticket is, and its stage is not adaptation, which is best-effort in every ticket (R213). -/
def Chip.ctxGuaranteed (c : Chip) (ctx : Nat) : Bool :=
  match c.ctxTicket ctx with | none => false | some t => t.guaranteed && !(t.stageOf ctx).any (fun p => p.kind == .adapt)
/-- Marker map index signalled at arrival by a stream without a decode stage (log 42). -/
def Ticket.arrivalIdx (t : Ticket) : Nat := t.placed.length + 1
/-- Frame, counted from 0, whose input a stage waits for with a WAIT for value `v` on map index `i`; none where that is no input (log 44). -/
def Ticket.waitFrame (t : Ticket) (p : Placed) (i v : Nat) : Option Nat :=
  if v = 0 then none
  else if i = t.arrivalIdx then some (v - 1)
  else match t.placed.find? (fun q => q.stage == i) with
    | none => none
    | some q =>
      if q.perFrame = 0 ∨ p.stage ≤ q.stage ∨ q.kind = .analysis ∨ q.kind = .adapt then none
      else some ((v - 1) / q.perFrame + (if q.kind = .frameGen then 1 else 0))
/-- The weights that a context's bands need on needle `n`; none for a stage without weights (R140). -/
def Chip.ctxWeights (c : Chip) (n ctx : Nat) : Option Swap :=
  match c.ctxTicket ctx with
  | none => none
  | some t =>
    match t.stageOf ctx, c.stream? t.pipeline with
    | some p, some sd =>
      match sd.stages[p.stage]? with
      | some st =>
        if st.weightBytes = 0 then none
        else some { key := (t.pipeline, p.stage), src := st.weightAt, dst := sramBase n + st.weightArea, bytes := st.weightBytes }
      | none => none
    | _, _ => none
/-- Marker that an index of a context's map names. -/
def Chip.ctxMarker (c : Chip) (ctx i : Nat) : Option Nat := match c.ctxTicket ctx with | none => none | some t => t.markers[i]?

/-! ### Bands (R138, R139) -/

/-- Whether a descriptor's WAIT is met; an index outside the map holds nothing back, and the checks end it (R112, R242). -/
def Chip.waitMet (c : Chip) (t : Tod) : Bool :=
  !t.wait || (match c.ctxMarker t.ctx t.waitMrk with | none => true | some m => decide (t.waitVal ≤ (c.marker m).count))
/-- Frame that a descriptor is for: the one whose input it waits for, else that of its context's descriptors before it (log 44). -/
def Chip.todFrame (c : Chip) (n : Nat) (t : Tod) : Option Nat :=
  match c.ctxTicket t.ctx with
  | none => none
  | some k => match k.stageOf t.ctx with
    | none => none
    | some p => (if t.wait then k.waitFrame p t.waitMrk t.waitVal else none).orElse (fun _ => (c.needle n).frames.lookup t.ctx)
/-- Whether a context's stage passes over a frame (R14, R348). -/
def Chip.passed (c : Chip) (ctx : Nat) (frame : Option Nat) : Bool :=
  match frame, c.ctxTicket ctx with
  | some k, some t => (t.stageOf ctx).any (fun p => t.voided.contains (p.stage, k))
  | _, _ => false
/-- Whether a context has an operation of a frame in flight. -/
def Chip.ctxWorks (c : Chip) (ctx k : Nat) : Bool := c.ndl.tab.any (fun e => e.2.ops.any (fun o => o.context == ctx && o.frame == some k))
/-- First waiting descriptor of a context. -/
def Needle.headOf (x : Needle) (ctx : Nat) : Option TodWait := x.waiting.find? (fun w => (todOf w.tod).ctx == ctx)
/-- Contexts with waiting descriptors, in order of arrival. -/
def Needle.contexts (x : Needle) : List Nat := (x.waiting.map (fun w => (todOf w.tod).ctx)).eraseDups
/-- Whether a context is an adaptation stage's. -/
def Chip.adaptCtx (c : Chip) (ctx : Nat) : Bool :=
  match c.ctxTicket ctx with | none => false | some t => (t.stageOf ctx).any (fun p => p.kind == .adapt)
/-- Whether an engine under recovery runs nothing for a context: it replays another one, or its tink waits its turn (R347, R354; log 55). -/
def Chip.engineHeld (c : Chip) (e ctx : Nat) : Bool :=
  (match c.rst.tink with | none => false | some k => k.engine == e && k.left.head? != some ctx) || c.rst.waitTinks.any (fun k => k.engine == e)
/-- Whether a context is held: its needle or the needle's DMA engine is under recovery (R347), or it is an adaptation band while work is
shed (R333). -/
def Chip.fencedCtx (c : Chip) (n ctx : Nat) : Bool :=
  (c.tens.shedding && c.adaptCtx ctx) || c.engineHeld n ctx || c.engineHeld (64 + n) ctx
/-- Contexts whose next band is ready (R139). -/
def Chip.readyBands (c : Chip) (n : Nat) : List Nat :=
  (c.needle n).contexts.filter (fun x => !c.fencedCtx n x && (match (c.needle n).headOf x with | none => false | some w => c.waitMet (todOf w.tod)))
/-- Absolute sub-deadline of a context's band in ticks: the moment its input was signalled, which is when the count it waits for was reached,
plus d (R49; log 40). -/
def Chip.bandDeadline (c : Chip) (n ctx : Nat) : Nat :=
  match c.ctxTicket ctx, (c.needle n).headOf ctx with
  | some t, some w =>
    (if (todOf w.tod).wait then (match c.ctxMarker ctx (todOf w.tod).waitMrk with | none => 0 | some m => ((c.marker m).reachedAt (todOf w.tod).waitVal).getD 0) else 0) +
      (match t.stageOf ctx with | none => 0 | some p => nsTicks p.dNs)
  | _, _ => 0
/-- Ticket number of a context. -/
def Chip.ctxTicketId (c : Chip) (ctx : Nat) : Nat := match c.ctxTicket ctx with | none => 0 | some t => t.id
/-- Whether guaranteed band `a` goes before `b`: earlier sub-deadline, lower ticket, lower context (R139). -/
def Chip.bandBefore (c : Chip) (n a b : Nat) : Bool :=
  let da := c.bandDeadline n a
  let db := c.bandDeadline n b
  if da = db then (if c.ctxTicketId a = c.ctxTicketId b then decide (a < b) else decide (c.ctxTicketId a < c.ctxTicketId b)) else decide (da < db)
/-- Whether best-effort band `a` goes before `b`: round-robin by ticket after the one served last, then lower context. -/
def Chip.robinBefore (c : Chip) (last a b : Nat) : Bool :=
  let ta := c.ctxTicketId a
  let tb := c.ctxTicketId b
  if ta = tb then decide (a < b)
  else if decide (last < ta) == decide (last < tb) then decide (ta < tb) else decide (last < ta)
/-- The element that `before` puts first. -/
def pickFirst (before : Nat → Nat → Bool) : List Nat → Option Nat
  | [] => none
  | x :: l => some (l.foldl (fun a y => if before y a then y else a) x)
/-- The band chosen next (R139). -/
def Chip.nextBand (c : Chip) (n : Nat) : Option Nat :=
  match pickFirst (c.bandBefore n) ((c.readyBands n).filter c.ctxGuaranteed) with
  | some x => some x
  | none => pickFirst (c.robinBefore (c.needle n).lastBe) (c.readyBands n)

/-! ### Issue (R97) -/

/-- Lowest free tag of 16. -/
def Needle.freeTag (x : Needle) : Option Nat := (List.range 16).find? (fun k => !(x.ops.any (fun o => o.tag == k)))
/-- Whether two lists of ranges overlap. -/
def rangesMeet (a b : List Range) : Bool := a.any (fun x => b.any (fun y => Range.meets x y))
/-- Status at issue: the checks of R112, and a marker index outside the map (R242). -/
def Chip.issueStatus (c : Chip) (m : Mem) (n : Nat) (t : Tod) : Nat :=
  if (t.wait && (c.ctxMarker t.ctx t.waitMrk).isNone) || (t.signal && (c.ctxMarker t.ctx t.sigMrk).isNone) then 3 else c.todStatus m n t
/-- Flat ranges an operation reads, attachments and records included (R97). -/
def Chip.opReads (c : Chip) (m : Mem) (n : Nat) (t : Tod) : List Range :=
  let x := c.auxAt m n t
  ((match t.fmtA with | some f => t.rangesA f | none => []) ++ (match t.fmtB with | some f => if t.hasB then t.rangesB f else [] | none => []) ++
   (if t.opcode = 8 ∨ t.opcode = 9 then [t.rangeList] else []) ++ (if t.readsEpi then [t.rangeEpi] else []) ++
   (if t.residual then [t.rangeRes] else []) ++ (if t.aux then [(t.addrAux, 64)] else []) ++ c.attachments m n t x ++
   (if x.has 3 then [t.rangeAmax x] else [])).flatMap (c.flat n t.ctx)
/-- Flat ranges an operation writes: the output, its group scales, its abs-max records (R97, R120). -/
def Chip.opWrites (c : Chip) (m : Mem) (n : Nat) (t : Tod) : List Range :=
  let x := c.auxAt m n t
  ((match t.fmtY with | some f => t.tilesY f | none => []) ++ (if t.mode != 0 && isGs t.fmtY then [t.rangeScaleY x] else []) ++
   (if t.mode = 2 then [t.rangeAmax x] else [])).flatMap (c.flat n t.ctx)
/-- Slots of the operands that come in by DMA. -/
def Tod.slotRanges (t : Tod) (n : Nat) : List Range :=
  (if t.slotted && opSpace t.addrA != 0 then [(sramBase n + t.slotA0, t.slotKib % 256 * 1024), (sramBase n + t.slotA1, t.slotKib % 256 * 1024)] else []) ++
  (if t.slotted && t.hasB && opSpace t.addrB != 0 then [(sramBase n + t.slotB0, t.slotKib / 256 * 1024), (sramBase n + t.slotB1, t.slotKib / 256 * 1024)] else [])
/-- A run cut into parts of at most `slot` bytes. -/
def cutRun (slot : Nat) (r : Range) : List Range :=
  (List.range (ceilDiv r.2 (max 1 slot))).map (fun i => (r.1 + i * max 1 slot, min (max 1 slot) (r.2 - i * max 1 slot)))
/-- Runs packed in order into pieces of at most `slot` bytes. -/
def packRuns (slot : Nat) (rs : List Range) : List (List Range) :=
  (((rs.flatMap (cutRun slot)).foldl (fun (a : List (List Range) × List Range) r =>
    if a.2 = [] then (a.1, [r]) else if bytesOf a.2 + r.2 ≤ slot then (a.1, a.2 ++ [r]) else (a.1 ++ [a.2], [r])) ([], []))
    |> fun a => if a.2 = [] then a.1 else a.1 ++ [a.2])
/-- Every other element of a list, from the first. -/
def everyOther {α : Type} : List α → List α
  | [] => []
  | [x] => [x]
  | x :: _ :: l => x :: everyOther l
/-- The transfer of the first of some pieces into a slot, the others to follow it. -/
def slotDma (tag ctx dst : Nat) : List (List Range) → List Dma
  | [] => []
  | p :: l => [{ id := 0, opTag := tag, context := ctx, runs := p, dst := dst, inward := true, rest := l }]
/-- First transfers of an operand's runs into its two slots, which the pieces take in turn. -/
def slotStream (tag ctx : Nat) (rs : List Range) (slot s0 s1 : Nat) : List Dma :=
  slotDma tag ctx s0 (everyOther (packRuns slot rs)) ++ slotDma tag ctx s1 (everyOther ((packRuns slot rs).drop 1))
/-- Transfers an operation starts with: what it reads of operands that are not local, and its output if that is not local (R96, R105, R107,
R118). -/
def Chip.opDma (c : Chip) (n : Nat) (t : Tod) (tag : Nat) : List Dma :=
  (if t.slotted && opSpace t.addrA != 0 then
    slotStream tag t.ctx ((match t.fmtA with | some f => t.readsA f | none => []).flatMap (c.flat n t.ctx)) (t.slotKib % 256 * 1024)
      (sramBase n + t.slotA0) (sramBase n + t.slotA1) else []) ++
  (if t.slotted && t.hasB && opSpace t.addrB != 0 then
    slotStream tag t.ctx ((match t.fmtB with | some f => t.readsB f | none => []).flatMap (c.flat n t.ctx)) (t.slotKib / 256 * 1024)
      (sramBase n + t.slotB0) (sramBase n + t.slotB1) else []) ++
  (if opSpace t.addrY != 0 && t.opcode != 13 then
    (match t.fmtY with | some f => (t.rangesY f).flatMap (c.flat n t.ctx) | none => []).map (fun (r : Range) =>
      { id := 0, opTag := tag, context := t.ctx, runs := [r], dst := 0, inward := false, rest := [] }) else [])
/-- A transfer whose time runs from a moment. -/
def Dma.begun (now : Nat) (d : Dma) : Dma := { d with since := now }
/-- Transfers numbered from the needle's next number. -/
def numberDma (k : Nat) : List Dma → List Dma
  | [] => []
  | d :: l => { d with id := k } :: numberDma (k + 1) l
/-- Traffic of transfers on the regulators and caches (R96, R150, R151). -/
def Chip.dmaTraffic (c : Chip) (n : Nat) (guar : Bool) (ds : List Dma) : Chip :=
  match (c.needle n).panel with
  | none => c
  | some p => ds.foldl (fun c d => d.runs.foldl (fun c r =>
      if d.inward then c.needleRead p r guar (some (n, d.id)) else c.charge p (if inHbm r.1 then resHbm else resYoke)
        (if r.1 < sramBase 0 then r.2 else 0) guar (some (n, d.id))) c) c
/-- NDL_ISSUE_RATE.RATE: the grade of the running band's ticket takes RATE_G or RATE_B, an adaptation context's band RATE_B; 64 with no band
(R85, R330, R331). -/
def Chip.issueRate (c : Chip) (n : Nat) : Nat :=
  match (c.needle n).band with
  | none => 64
  | some ctx => if c.ctxGuaranteed ctx then c.tens.rateG else c.tens.rateB
/-- The operation that a descriptor becomes at issue. -/
def Chip.opOf (c : Chip) (m : Mem) (n : Nat) (w : TodWait) (tag : Nat) : OpRt :=
  let t := todOf w.tod
  let st := c.issueStatus m n t
  let x := c.auxAt m n t
  let la := if st = 0 ∧ x.has 4 = true then c.outliers m n t.ctx x.outlA else []
  let lb := if st = 0 ∧ x.has 5 = true then c.outliers m n t.ctx x.outlB else []
  let k := t.costOf (c.needle n).freeTiles (c.needle n).columns (if t.array then (lb.foldl (fun l i => insertSorted i l) la).length else 0)
  { tag := tag, seq := w.seq, opcode := t.opcode, context := t.ctx, status := st
    flags := (if st = 0 then flag (k.visits != 0) 1 + 8 * k.flow + flag k.cableExtra 5 else 0)
    stitches := if st = 0 then k.stitches else 0, busy := if st = 0 then k.streaming else 0, cost := t.cost, issued := c.now
    tiles := if st = 0 then min k.tiles (c.needle n).freeTiles else 1, visits := if st = 0 then k.visits else 0
    spilled := if st = 0 ∧ k.visits ≠ 0 then k.tiles - (c.needle n).freeTiles else 0
    reads := if st = 0 ∧ t.opcode ≠ 13 then c.opReads m n t else [], writes := if st = 0 ∧ t.opcode ≠ 13 then c.opWrites m n t else []
    records := if st = 0 ∧ t.mode = 2 ∧ t.opcode ≠ 13 then c.flat n t.ctx (t.rangeAmax x) else []
    slots := if st = 0 then t.slotRanges n else [], desc := w.tod, auxRec := if t.aux then m.reads (c.xlat n t.ctx t.addrAux) 64 else []
    listA := la, listB := lb, loaded := [], rate := c.issueRate n
    signal := if t.signal then some (t.sigMrk, t.sigAdd) else none, bandEnd := t.fence && t.signal, bad := false
    frame := c.todFrame n t }
/-- Whether an operation in flight on another needle names an abs-max record of this one: the record is read only after the earlier one has
updated it (R83). -/
def Chip.recordBusy (c : Chip) (n : Nat) (o : OpRt) : Bool :=
  c.ndl.tab.any (fun e => e.1 != n && e.2.ops.any (fun p => rangesMeet p.records o.records))
/-- Whether a needle may issue an operation now: a free tag, a free tile, no other spill, ring room (the holder takes entries as
they are written; log 41), no hazard, the fence met (R97, R83, R89, R91). -/
def Chip.mayIssue (c : Chip) (n : Nat) (o : OpRt) (fence : Bool) : Bool :=
  let x := c.needle n
  x.freeTiles != 0 && !(o.visits != 0 && x.spillTag.isSome) && 2 * (x.ops.length + 1) ≤ 256 &&
  (!fence || x.ops.isEmpty) && !(x.ops.any (fun p => rangesMeet p.writes (o.reads ++ o.writes) || rangesMeet p.reads o.writes)) &&
  !c.recordBusy n o
/-- The needle with an operation in flight. -/
def Needle.take (x : Needle) (w : TodWait) (o : OpRt) (ds : List Dma) : Needle :=
  { x with
    ops := x.ops ++ [o], waiting := x.waiting.erase w, freeTiles := x.freeTiles - o.tiles
    frames := match o.frame with | some k => Tbl.set x.frames o.context k | none => x.frames
    spillTag := if o.visits = 0 then x.spillTag else some o.tag
    dma := x.dma ++ numberDma x.dmaNext ds, dmaNext := x.dmaNext + ds.length }
/-- Issues one descriptor if it may, none otherwise; one for a Marub engine under recovery waits (R347). -/
def Chip.issueHead (c : Chip) (m : Mem) (n : Nat) (w : TodWait) : Option Chip :=
  let t := todOf w.tod
  match c.waitMet t, (c.needle n).freeTag with
  | true, some tag =>
    let o := c.opOf m n w tag
    let ds := if o.status = 0 then (c.opDma n t tag).map (Dma.begun c.now) else []
    if c.mayIssue n o t.fence && !(t.opcode == 12 && c.engineHeld 148 t.ctx) then
      let d := c.updNeedle n (fun x => x.take w o ds)
      let e := d.dmaTraffic n (c.ctxGuaranteed t.ctx) (numberDma (c.needle n).dmaNext ds)
      some { e with ndl := { e.ndl with marub := if t.opcode = 12 ∧ o.status = 0 then e.ndl.marub ++ [(n, tag)] else e.ndl.marub } }
    else none
  | _, _ => none
/-- The needle without a descriptor that its stage passes over; with the last of a band the band is over. -/
def Needle.passOver (x : Needle) (w : TodWait) (frame : Option Nat) : Needle :=
  let t := todOf w.tod
  { x with
    waiting := x.waiting.erase w
    frames := match frame with | some k => Tbl.set x.frames t.ctx k | none => x.frames
    band := if t.fence && t.signal && x.band == some t.ctx then none else x.band }
/-- First descriptor at the head of its context whose frame its stage passes over: it is not run (R14, R348). -/
def Chip.passHead (c : Chip) (n : Nat) : Option Chip :=
  (((c.needle n).contexts.filterMap (c.needle n).headOf).find? (fun w => c.passed (todOf w.tod).ctx (c.todFrame n (todOf w.tod)))).map (fun w =>
    c.updNeedle n (fun x => x.passOver w (c.todFrame n (todOf w.tod))))
/-- A weight swap started: the weights' blocks are read through the chart cache, charged to the panel's yoke regulator and counted (R140,
R150). -/
def Chip.startSwap (c : Chip) (n ctx : Nat) (k : Swap) : Chip :=
  let d := c.updNeedle n (fun x => { x with swap := some k, weights := none })
  match (c.needle n).panel with
  | none => d
  | some p =>
    ((blocksOf (k.src, k.bytes)).foldl (fun e r =>
      e.readBlock p r (c.ctxGuaranteed ctx) ((e.segmentAt r.1).bind (fun g => g.2.remote)) (some (64 + n, 0))) d).updPanel p
      (fun q => { q with swap := q.swap.add ((q.swapRest + k.bytes) / 1024), swapRest := (q.swapRest + k.bytes) % 1024 })
/-- A band of a context begun. -/
def Needle.beginBand (x : Needle) (ctx : Nat) (served : Option Nat) : Needle := { x with band := some ctx, lastBe := served.getD x.lastBe }
/-- The running band's next descriptor issued up to the one that ends it, else a band chosen, its weights swapped in first if they are not
there (R138 to R140). -/
def Chip.dispatch (c : Chip) (m : Mem) (n : Nat) : Option Chip :=
  let x := c.needle n
  match x.swap, x.band with
  | some _, _ => none
  | none, some ctx => if c.fencedCtx n ctx || x.ops.any (fun o => o.bandEnd) then none else (x.headOf ctx).bind (fun w => c.issueHead m n w)
  | none, none =>
    match c.nextBand n with
    | none => none
    | some ctx =>
      let begin := c.updNeedle n (fun y => y.beginBand ctx (if c.ctxGuaranteed ctx then none else some (c.ctxTicketId ctx)))
      match c.ctxWeights n ctx with
      | some k => if x.weights = some k.key then some begin else some (c.startSwap n ctx k)
      | none => some begin
/-- One step of the sequencer: what is passed over goes first. -/
def Chip.pumpOne (c : Chip) (m : Mem) (n : Nat) : Option Chip := match c.passHead n with | some d => some d | none => c.dispatch m n
/-- The dispatcher run until nothing more can issue. -/
def Chip.pumpN (m : Mem) (n : Nat) : Nat → Chip → Chip
  | 0, c => c
  | k + 1, c => match c.pumpOne m n with | none => c | some d => Chip.pumpN m n k d
/-- Contexts whose first descriptor waits, each with the moment from which it does (R18). -/
def Chip.noteWaits (c : Chip) (n : Nat) : Chip :=
  c.updNeedle n (fun x => { x with since :=
    (x.contexts.filter (fun k => match x.headOf k with | some w => !c.waitMet (todOf w.tod) | none => false)).map (fun k => (k, (x.since.lookup k).getD c.now)) })
/-- A needle's sequencer brought up to date. -/
def Chip.pump (c : Chip) (m : Mem) (n : Nat) : Chip := (Chip.pumpN m n (3 * (c.needle n).waiting.length + 2) c).noteWaits n
/-- Every needle with waiting descriptors brought up to date. -/
def Chip.pumpAll (c : Chip) (m : Mem) : Chip :=
  (c.ndl.tab.filter (fun e => !e.2.waiting.isEmpty)).foldl (fun c e => c.pump m e.1) c

/-- A descriptor of a row's opcode reaches needle `n`; one whose OPCODE byte is another is taken as a reserved code. A
retired needle and one in no panel take no work (R100, R132). -/
def Chip.takeTod (c : Chip) (m : Mem) (op n seq : Nat) (tod : List Byte) : Chip :=
  if (c.needle n).panel.isNone ∨ (c.needle n).retired = true then c
  else
    (c.updNeedle n (fun x => { x with waiting := x.waiting ++ [{ seq := seq % 4294967296, tod := if le tod 0 1 = op then tod else 0 :: tod.drop 1 }] })).pump m n
/-- MATMUL (R115). -/
def execMatmul (n seq : Nat) (tod : List Byte) (s : State) : Host.Outcome State Fault Refusal :=
  .next { s with chip := s.chip.takeTod s.mem 1 n seq tod }
/-- CONV (R119). -/
def execConv (n seq : Nat) (tod : List Byte) (s : State) : Host.Outcome State Fault Refusal :=
  .next { s with chip := s.chip.takeTod s.mem 2 n seq tod }
/-- DWCONV (R93). -/
def execDwconv (n seq : Nat) (tod : List Byte) (s : State) : Host.Outcome State Fault Refusal :=
  .next { s with chip := s.chip.takeTod s.mem 3 n seq tod }
/-- POOL (R123). -/
def execPool (n seq : Nat) (tod : List Byte) (s : State) : Host.Outcome State Fault Refusal :=
  .next { s with chip := s.chip.takeTod s.mem 4 n seq tod }
/-- ELTWISE (R124). -/
def execEltwise (n seq : Nat) (tod : List Byte) (s : State) : Host.Outcome State Fault Refusal :=
  .next { s with chip := s.chip.takeTod s.mem 5 n seq tod }
/-- NORM (R125). -/
def execNorm (n seq : Nat) (tod : List Byte) (s : State) : Host.Outcome State Fault Refusal :=
  .next { s with chip := s.chip.takeTod s.mem 6 n seq tod }
/-- SOFTMAX (R126). -/
def execSoftmax (n seq : Nat) (tod : List Byte) (s : State) : Host.Outcome State Fault Refusal :=
  .next { s with chip := s.chip.takeTod s.mem 7 n seq tod }
/-- GATHER (R128). -/
def execGather (n seq : Nat) (tod : List Byte) (s : State) : Host.Outcome State Fault Refusal :=
  .next { s with chip := s.chip.takeTod s.mem 8 n seq tod }
/-- SCATTER (R128). -/
def execScatter (n seq : Nat) (tod : List Byte) (s : State) : Host.Outcome State Fault Refusal :=
  .next { s with chip := s.chip.takeTod s.mem 9 n seq tod }
/-- ARGMAX (R127). -/
def execArgmax (n seq : Nat) (tod : List Byte) (s : State) : Host.Outcome State Fault Refusal :=
  .next { s with chip := s.chip.takeTod s.mem 10 n seq tod }
/-- S2D (R129). -/
def execS2d (n seq : Nat) (tod : List Byte) (s : State) : Host.Outcome State Fault Refusal :=
  .next { s with chip := s.chip.takeTod s.mem 11 n seq tod }
/-- MARUB (R130). -/
def execMarub (n seq : Nat) (tod : List Byte) (s : State) : Host.Outcome State Fault Refusal :=
  .next { s with chip := s.chip.takeTod s.mem 12 n seq tod }
/-- SYNC (R113). -/
def execSync (n seq : Nat) (tod : List Byte) (s : State) : Host.Outcome State Fault Refusal :=
  .next { s with chip := s.chip.takeTod s.mem 13 n seq tod }

/-! ### Completion (R98) -/

/-- Bytes of a completion entry (Table 5.5). -/
def opEntry (o : OpRt) (status flags stitches : Nat) : List Byte :=
  leBytes 1 o.tag ++ leBytes 1 status ++ leBytes 2 flags ++ leBytes 2 o.context ++ leBytes 2 0 ++ leBytes 4 o.seq ++ leBytes 4 stitches
/-- Flat address of the needle's next completion entry: 256 entries from the ring's base (R98). -/
def Needle.ringAddr (x : Needle) (n : Nat) : Nat := sramBase n + x.ringBase + 16 * x.ringIdx
/-- The needle after an operation of it ended: entry counted, tag, tiles and spill area released, transfers gone (R98). -/
def Needle.finish (x : Needle) (o : OpRt) : Needle :=
  { x with
    ops := x.ops.erase o, freeTiles := min 8 (x.freeTiles + o.tiles)
    spillTag := if x.spillTag = some o.tag then none else x.spillTag
    dma := x.dma.filter (fun d => d.opTag != o.tag), ringIdx := (x.ringIdx + 1) % 256, opsCtr := x.opsCtr.inc
    band := if o.bandEnd then none else x.band }
/-- Free bytes in place of an undefined output (Table 5.6; log 15). -/
def undefinedBytes (k : Nat) (w : List (Nat × Byte)) : List (Nat × Byte) :=
  ((List.range w.length).zip w).map (fun e => (e.2.1, Config.freeByte (k + e.1)))
/-- What the spill area holds after an operation kept tiles' partial sums in it: the spec places them nowhere in it (R90, R91; log 117). -/
def spillBytes (n k tiles : Nat) : List (Nat × Byte) :=
  (List.range (16384 * tiles)).map (fun i => (sramBase n + 0x2E0000 + i, Config.freeByte (k + i)))
/-- Free values that the end of an operation takes. -/
def OpRt.frees (o : OpRt) (out : TodOut) : Nat := 16384 * o.spilled + out.writes.length
/-- An operation that ends: what it spilled, outputs or undefined bytes, records if OK, then its entry. -/
def opMem (m : Mem) (n : Nat) (o : OpRt) (out : TodOut) (status free entryAt : Nat) (entry : List Byte) : Mem :=
  let m := m.scatter (spillBytes n free o.spilled)
  ((if status = 0 then (m.scatter out.writes).scatter out.recs
    else if status = 4 ∨ status = 6 ∨ status = 7 then m.scatter (undefinedBytes (free + 16384 * o.spilled) out.writes) else m)).writes entryAt entry
/-- Operations of some contexts on a needle ended ABORTED by a frog, bind-off or reset, their transfers cancelled (R99, R58). -/
def abortOps (n : Nat) (keep : OpRt → Bool) (c : Chip × Mem) : Chip × Mem :=
  (((c.1.needle n).ops.filter (fun o => !keep o)).foldl (fun d o =>
    let x := d.1.needle n
    let out := d.1.opOut d.2 n o
    (({ d.1.updNeedle n (fun y => { y.finish o with band := y.band }) with freeCtr := d.1.freeCtr + o.frees out }).wrote o.writes,
     opMem d.2 n o out 4 d.1.freeCtr (x.ringAddr n) (opEntry o 4 o.flags o.stitches))) c)
/-- OK entries of some contexts that were written at this reading of the time base. -/
def Chip.okNow (c : Chip) (n : Nat) (ctxs : List Nat) : List (Nat × Nat × List Byte) :=
  (c.needle n).okEnds.filter (fun e => e.1 == c.now && ctxs.contains e.2.1)
/-- The FROGGED entries that follow the OK entries of operations which completed as the frog of their context came (R58, Table 5.6; log 81). -/
def frogEntries (n : Nat) (ctxs : List Nat) (c : Chip × Mem) : Chip × Mem :=
  (c.1.okNow n ctxs).foldl (fun d e =>
    (d.1.updNeedle n (fun y => { y with ringIdx := (y.ringIdx + 1) % 256, opsCtr := y.opsCtr.inc, okEnds := y.okEnds.erase e }),
     d.2.writes ((d.1.needle n).ringAddr n) (e.2.2.take 1 ++ leBytes 1 5 ++ e.2.2.drop 2))) c
/-- Chunks of a needle's cancelled transfers leave the regulators' lines. -/
def Chip.dropChunks (c : Chip) (n : Nat) (gone : Nat → Bool) : Chip :=
  { c with pnl := { c.pnl with panels := c.pnl.panels.mapV (fun p =>
      { p with waiting := p.waiting.filter (fun w => match w.own with | some (a, i) => !(a == n && gone i) | none => true) }) } }
/-- A needle's work for some contexts ended: operations in flight, waiting descriptors, transfers, the band (R99). -/
def frogNeedle (n : Nat) (ctxs : List Nat) (c : Chip × Mem) : Chip × Mem :=
  let ids := ((c.1.needle n).dma.filter (fun d => ctxs.contains d.context)).map (fun d => d.id)
  let d := abortOps n (fun o => !ctxs.contains o.context) (frogEntries n ctxs c)
  let e := (d.1.updNeedle n (fun x =>
    { x with
      waiting := x.waiting.filter (fun w => !ctxs.contains (todOf w.tod).ctx)
      dma := x.dma.filter (fun q => !ctxs.contains q.context)
      band := match x.band with | some b => if ctxs.contains b then none else some b | none => none })).dropChunks n (fun i => ids.contains i)
  ({ e with ndl := { e.ndl with marub := e.ndl.marub.filter (fun q => q.1 != n || (e.needle n).ops.any (fun o => o.tag == q.2)) } }, d.2)
/-- Every needle's work for some contexts ended. -/
def frogNeedles (ctxs : List Nat) (c : Chip × Mem) : Chip × Mem :=
  (c.1.ndl.tab.map (fun e => e.1)).foldl (fun d n => frogNeedle n ctxs d) c
/-- The operation in flight with a tag. -/
def Needle.op? (x : Needle) (tag : Nat) : Option OpRt := x.ops.find? (fun o => o.tag == tag)
/-- Whether an operation can complete: its transfers are done, and it is the Marub engine's first if it runs there (R96, R130). -/
def Chip.canComplete (c : Chip) (n : Nat) (o : OpRt) : Bool :=
  !((c.needle n).dma.any (fun d => d.opTag == o.tag)) && (o.opcode != 12 || o.status != 0 || c.ndl.marub.head? == some (n, o.tag))
/-- Status an operation ends with (Table 5.6). -/
def OpRt.endStatus (o : OpRt) (e : OpEnd) : Nat :=
  if o.status != 0 then o.status
  else match e with
    | .ok => if o.bad then 7 else 0
    | .columnFault _ => 6
    | .memoryError => 7
/-- Most stitches on which the gate can have withheld a row, by the lowest rate the operation met: RATE rows are admitted in each 64
consecutive opportunities, and all of them at 64 (R85; log 118). -/
def OpRt.maxWithheld (o : OpRt) (rate : Nat) : Nat := (64 - min o.rate rate) * ceilDiv o.busy (max 1 (min o.rate rate))
/-- Stitches on which the gate withheld a row: what the completion says, within that bound. -/
def OpRt.withheld (o : OpRt) (w rate : Nat) : Nat := min w (o.maxWithheld rate)
/-- The needle's counters after a completion (Table 5.8). -/
def Needle.counted (x : Needle) (o : OpRt) (out : TodOut) (status withheld corrected : Nat) : Needle :=
  { x with
    busy := x.busy.add o.busy, throttled := x.throttled.add withheld, spillCtr := x.spillCtr.add o.visits
    sramCe := satAdd 4294967295 x.sramCe corrected
    satCtr := if status = 0 then x.satCtr.add out.sats else x.satCtr
    nonfinCtr := if status = 0 then x.nonfinCtr.add out.nonfin else x.nonfinCtr }
/-- A run-time column fault recorded (R102). -/
def Needle.columnFault (x : Needle) (o : OpRt) (col : Nat) : Needle :=
  { x with faultValid := true, faultCol := col, faultTag := o.tag, faultCtx := o.context, runtime := true, rowFaults := x.rowFaults + 1 }
/-- The OK entry of an operation noted for a frog that meets it (R58). -/
def Needle.noteOk (x : Needle) (now : Nat) (o : OpRt) (status : Nat) (entry : List Byte) : Needle :=
  { x with okEnds := x.okEnds.filter (fun e => e.1 == now) ++ (if status = 0 then [(now, o.context, entry)] else []) }
/-- Outputs of the frame that an operation worked on whose records show THROTTLED: the picture of SUB 0, or for frame generation the frames
before it (R85, R208). -/
def Ticket.throttle (t : Ticket) (p : Placed) (frame : Nat) : Ticket :=
  { t with outs := t.outs.map (fun o =>
      if o.order = frame ∧ decide (o.sub = 0) ≠ decide (p.kind = .frameGen) ∧ !o.rep then { o with throttled := true } else o) }
/-- The ticket of an operation on whose rows the gate was withheld. -/
def Chip.throttled (c : Chip) (o : OpRt) (w : Nat) : Chip :=
  match o.frame, c.ctxTicket o.context with
  | some k, some t => match t.stageOf o.context with
    | some p => if w = 0 then c else { c with cast := c.cast.updTicket t.id (fun x => x.throttle p k) }
    | none => c
  | _, _ => c
/-- An operation completed: outputs, entry, release, counters, and its marker signalled after the entry (R98), but for a frame that its stage
passes over, whose markers the holder signals (R348). -/
def completeOp (n : Nat) (o : OpRt) (e : OpEnd) (stalls withheld corrected : Nat) (c : Chip × Mem) : Chip × Mem :=
  let st := o.endStatus e
  let x := c.1.needle n
  let out := c.1.opOut c.2 n o
  let w := o.withheld withheld (c.1.issueRate n)
  let entry := opEntry o st (o.flags + flag out.i32 0 + flag (w != 0) 2) (o.stitches + stalls)
  let m := opMem c.2 n o out st c.1.freeCtr (x.ringAddr n) entry
  let d := c.1.updNeedle n (fun y =>
    let z := ((y.finish o).counted o out st w corrected).noteOk c.1.now o st entry
    match e with | .columnFault col => if st = 6 then z.columnFault o col else z | _ => z)
  let d := { d with ndl := { d.ndl with marub := d.ndl.marub.filter (· != (n, o.tag)) }, freeCtr := d.freeCtr + o.frees out }
  let d := (d.wrote (if st = 0 ∨ st = 6 ∨ st = 7 then o.writes else [])).throttled o w
  (match o.signal, d.ctxTicket o.context with
   | some (i, k), some t => if d.passed o.context o.frame then d else d.signalMap t i k o.context
   | _, _ => d, m)

/-! ### DMA (R96) -/

/-- The transfer with a number. -/
def Needle.dma? (x : Needle) (id : Nat) : Option Dma := x.dma.find? (fun d => d.id == id)
/-- Whether a transfer can complete: it is among the 32 in flight, none of its chunks waits, no fill it reads is in flight or has failed,
and no earlier operation still reads its slot (R96, R148, R149, R151). -/
def Chip.dmaReady (c : Chip) (n : Nat) (d : Dma) : Bool :=
  ((c.needle n).dma.take 32).contains d && !c.pnl.chunkWaits (n, d.id) && !(d.inward && d.runs.any c.filling) &&
  !(d.inward && ((c.needle n).ops.takeWhile (fun o => o.tag != d.opTag)).any (fun o => rangesMeet o.slots [(d.dst, d.bytes)]))
/-- The piece that follows into the same slot. -/
def Dma.next (d : Dma) : Option Dma := match d.rest with | [] => none | p :: l => some { d with runs := p, rest := l }
/-- The runs of a transfer whose data are poisoned: chart segments are reloaded, the rest ends its operation (R232, R346). -/
def Chip.dmaPoison (c : Chip) (d : Dma) : Bool :=
  d.inward && d.runs.any (fun r => inHbm r.1 && (c.segmentAt r.1).isNone && c.hbm.poison r)
/-- What an inward transfer brought, by flat address. -/
def Dma.data (d : Dma) (m : Mem) : List (Nat × List Byte) := if d.inward then d.runs.map (fun r => (r.1, m.reads r.1 r.2)) else []
/-- The needle after a transfer: KiB counted, the transfer gone or its next piece in its place, its operation's operands with what came. -/
def Needle.dmaDone (x : Needle) (now : Nat) (d : Dma) (data : List (Nat × List Byte)) (bad : Bool) : Needle :=
  { x with
    dma := (x.dma.erase d) ++ (match d.next with | none => [] | some e => [{ e with id := x.dmaNext, since := now }])
    dmaNext := x.dmaNext + 1
    dmaRd := if d.inward then x.dmaRd.add ((x.rdRest + d.bytes) / 1024) else x.dmaRd
    rdRest := if d.inward then (x.rdRest + d.bytes) % 1024 else x.rdRest
    dmaWr := if d.inward then x.dmaWr else x.dmaWr.add ((x.wrRest + d.bytes) / 1024)
    wrRest := if d.inward then x.wrRest else (x.wrRest + d.bytes) % 1024
    ops := x.ops.map (fun o => if o.tag = d.opTag then { o with bad := o.bad || bad, loaded := o.loaded ++ data } else o) }
/-- A transfer's read of one run: a bad word is counted and recorded, and poisoned chart blocks are loaded anew (R232, R346). -/
def Chip.runRead (c : Chip) (r : Range) : Chip :=
  let d := match (if inHbm r.1 then c.hbm.badAt r else none) with | none => c | some a => c.hbmUe a
  if inHbm r.1 && (d.segmentAt r.1).isSome then
    { d with hbm := { d.hbm with poisoned := d.hbm.poisoned.filter (fun w => !Range.meets (w, 8) r) } }
  else d
/-- A transfer completed: its slot holds the piece, its operation has its bytes, the next piece is charged. -/
def Chip.dmaComplete (c : Chip) (m : Mem) (n id : Nat) : Chip :=
  match (c.needle n).dma? id with
  | none => c
  | some d =>
    if c.dmaReady n d then
      let k := (c.needle n).dmaNext
      let e := c.updNeedle n (fun x => x.dmaDone c.now d (d.data m) (c.dmaPoison d))
      let e := if d.inward then d.runs.foldl Chip.runRead e else e
      (e.dmaTraffic n (c.ctxGuaranteed d.context) ((e.needle n).dma.filter (fun q => q.id == k && q.inward))).pump m n
    else c
/-- DMA_TRANSFER_COMPLETE (R96): an inward transfer fills its slot. -/
def execDmaTransferComplete (n id : Nat) (s : State) : Host.Outcome State Fault Refusal :=
  .next { s with
    chip := s.chip.dmaComplete s.mem n id
    mem := match (s.chip.needle n).dma? id with
      | none => s.mem
      | some d => if d.inward && s.chip.dmaReady n d then s.mem.writes d.dst ((d.data s.mem).flatMap (fun e => e.2)) else s.mem }
/-- Whether a swap's weights have all come: no chunk of it waits, no fill it reads is in flight (R140, R151). -/
def Chip.swapReady (c : Chip) (n : Nat) (k : Swap) : Bool := !c.pnl.chunkWaits (64 + n, 0) && !c.filling (k.src, k.bytes)
/-- The swap that WEIGHT_SWAP_COMPLETE ends. -/
def Chip.swapEnd (c : Chip) (n : Nat) : Option Swap := (c.needle n).swap.filter (c.swapReady n)
/-- The swap's weights stand in the weight area (R140). -/
def Needle.swapDone (x : Needle) (k : Swap) : Needle := { x with weights := some k.key, swap := none }
/-- WEIGHT_SWAP_COMPLETE (R140, R141): the weight area holds the weights. -/
def execWeightSwapComplete (n : Nat) (s : State) : Host.Outcome State Fault Refusal :=
  let m := match s.chip.swapEnd n with | none => s.mem | some k => s.mem.writes k.dst (s.mem.reads k.src k.bytes)
  .next { s with
    chip := match s.chip.swapEnd n with | none => s.chip | some k => (s.chip.updNeedle n (fun x => x.swapDone k)).pump m n
    mem := m }

/-- Needle snapshots (R8). -/
def Needle.latch (x : Needle) (row : Nat) : Needle :=
  { x with
    busy := x.busy.latch, opsCtr := x.opsCtr.latch, spillCtr := x.spillCtr.latch, throttled := x.throttled.latch, satCtr := x.satCtr.latch
    nonfinCtr := x.nonfinCtr.latch, dmaRd := x.dmaRd.latch, dmaWr := x.dmaWr.latch, snapRow := row, rowFaults := 0 }
/-- The lowest issue rate that operations in flight have met, after the rates were set (R85). -/
def Chip.meetRates (c : Chip) : Chip :=
  { c with ndl := { c.ndl with tab := c.ndl.tab.map (fun e =>
      (e.1, { e.2 with ops := e.2.ops.map (fun o => { o with rate := min o.rate (c.issueRate e.1) }) })) } }

end Sys2Proof.Machine
end

