-- ==== Sys2Proof/Machine/Codec.lean ====
section
/-!
DEFINITION. What the codecs' own specifications give the front end: levels, bitrate limits, profiles (Tables 8.3 and 8.4)
and the division of a picture among cores (Table 8.2). The numbers of the level tables are the codec specifications' (log 12).
-/
namespace Sys2Proof.Machine

/-- A level: code, priced picture size L, largest width and height, highest bitrate in kb/s before a profile's factor. -/
structure LevelRow where
  code : Nat
  size : Nat
  maxW : Nat
  maxH : Nat
  kbps : Nat
deriving DecidableEq, Repr

/-- A level whose pictures are limited alike in both directions. -/
def squareLevel (code size dim kbps : Nat) : LevelRow := { code := code, size := size, maxW := dim, maxH := dim, kbps := kbps }
/-- H.264, lower levels (log 12). -/
def levelsAvcLow : List LevelRow :=
  [squareLevel 10 25344 448 64, squareLevel 11 101376 896 192, squareLevel 12 101376 896 384, squareLevel 13 101376 896 768,
   squareLevel 20 101376 896 2000, squareLevel 21 202752 1264 4000, squareLevel 22 414720 1808 4000,
   squareLevel 30 414720 1808 10000, squareLevel 31 921600 2704 14000, squareLevel 32 1310720 3232 20000]
/-- H.264, upper levels (log 12). -/
def levelsAvcHigh : List LevelRow :=
  [squareLevel 40 2097152 4096 20000, squareLevel 41 2097152 4096 50000, squareLevel 42 2228224 4208 50000,
   squareLevel 50 5652480 6720 135000, squareLevel 51 9437184 8688 240000, squareLevel 52 9437184 8688 240000,
   squareLevel 60 35651584 16880 240000, squareLevel 61 35651584 16880 480000, squareLevel 62 35651584 16880 800000]
/-- HEVC and VVC, with the bitrate of Level 6, which differs (log 12). -/
def levelsHevc (six : Nat) : List LevelRow :=
  [squareLevel 10 36864 543 128, squareLevel 20 122880 991 1500, squareLevel 21 245760 1402 3000,
   squareLevel 30 552960 2103 6000, squareLevel 31 983040 2804 10000, squareLevel 40 2228224 4222 30000,
   squareLevel 41 2228224 4222 50000, squareLevel 50 8912896 8444 100000, squareLevel 51 8912896 8444 160000,
   squareLevel 52 8912896 8444 240000, squareLevel 60 35651584 16888 six, squareLevel 61 35651584 16888 480000,
   squareLevel 62 35651584 16888 800000]
/-- VP9 (log 12). -/
def levelsVp9 : List LevelRow :=
  [squareLevel 10 36864 512 200, squareLevel 11 73728 768 800, squareLevel 20 122880 960 1800, squareLevel 21 245760 1344 3600,
   squareLevel 30 552960 2048 7200, squareLevel 31 983040 2752 12000, squareLevel 40 2228224 4160 18000,
   squareLevel 41 2228224 4160 30000, squareLevel 50 8912896 8384 60000, squareLevel 51 8912896 8384 120000,
   squareLevel 52 8912896 8384 180000, squareLevel 60 35651584 16832 180000, squareLevel 61 35651584 16832 240000,
   squareLevel 62 35651584 16832 480000]
/-- An AV1 level. -/
def av1Level (code size w h kbps : Nat) : LevelRow := { code := code, size := size, maxW := w, maxH := h, kbps := kbps }
/-- AV1 (log 12). -/
def levelsAv1 : List LevelRow :=
  [av1Level 20 147456 2048 1152 1500, av1Level 21 278784 2816 1584 3000, av1Level 30 665856 4352 2448 6000,
   av1Level 31 1065024 5504 3096 10000, av1Level 40 2359296 6144 3456 30000, av1Level 41 2359296 6144 3456 50000,
   av1Level 50 8912896 8192 4352 100000, av1Level 51 8912896 8192 4352 160000, av1Level 52 8912896 8192 4352 240000,
   av1Level 53 8912896 8192 4352 240000, av1Level 60 35651584 16384 8704 240000, av1Level 61 35651584 16384 8704 480000,
   av1Level 62 35651584 16384 8704 800000, av1Level 63 35651584 16384 8704 800000]
/-- Levels of a codec (Table 8.4). -/
def levelsOf (codec : Nat) : List LevelRow :=
  if codec = 1 then levelsAvcLow ++ levelsAvcHigh else if codec = 2 then levelsHevc 240000 else if codec = 3 then levelsVp9
  else if codec = 4 then levelsAv1 else if codec = 5 then levelsHevc 320000 else []
/-- The level that CODEC and LEVEL name (R161). -/
def levelRow (codec level : Nat) : Option LevelRow := (levelsOf codec).find? (fun r => r.code == level)
/-- Highest MAX_KBPS of a level for a profile (R161). -/
def maxKbps (r : LevelRow) (profile : Nat) : Nat :=
  if profile = 0x0101 then r.kbps * 5 / 4 else if profile = 0x0102 then r.kbps * 3
  else if profile = 0x0203 then r.kbps * 1667 / 1000 else r.kbps

/-- A row of Table 8.3. -/
structure ProfileRow where
  code    : Nat
  depths  : List Nat
  chromas : List Chroma
  accepts : List BitProfile
deriving DecidableEq, Repr

/-- Table 8.3. -/
def profileRows : List ProfileRow :=
  [{ code := 0x0101, depths := [8], chromas := [.c420, .c400], accepts := [.constrainedBaseline, .h264Main, .h264High] },
   { code := 0x0102, depths := [8, 10], chromas := [.c420, .c400], accepts := [.constrainedBaseline, .h264Main, .h264High, .h264High10] },
   { code := 0x0201, depths := [8], chromas := [.c420], accepts := [.hevcMain] },
   { code := 0x0202, depths := [8, 10], chromas := [.c420, .c400], accepts := [.hevcMain, .hevcMain10] },
   { code := 0x0203, depths := [8, 10], chromas := [.c420, .c422, .c400], accepts := [.hevcMain, .hevcMain10, .hevcMain422] },
   { code := 0x0300, depths := [8], chromas := [.c420], accepts := [.vp9p0] },
   { code := 0x0302, depths := [10], chromas := [.c420], accepts := [.vp9p2] },
   { code := 0x0400, depths := [8, 10], chromas := [.c420, .c400], accepts := [.av1Main] },
   { code := 0x0501, depths := [8, 10], chromas := [.c420, .c400], accepts := [.vvcMain10] }]
/-- The profile that PROFILE names; its upper byte must equal CODEC (R160). -/
def profileRow (codec profile : Nat) : Option ProfileRow :=
  if profile / 256 = codec then profileRows.find? (fun r => r.code == profile) else none

/-- Largest reference count and decoded picture buffer of H.264 at a level, in macroblocks (log 12). -/
def avcDpbMbs (level : Nat) : Nat :=
  if level ≤ 10 then 396 else if level ≤ 11 then 900 else if level ≤ 20 then 2376 else if level ≤ 21 then 4752 else if level ≤ 30 then 8100
  else if level ≤ 31 then 18000 else if level ≤ 32 then 20480 else if level ≤ 41 then 32768 else if level ≤ 42 then 34816
  else if level ≤ 50 then 110400 else if level ≤ 52 then 184320 else 696320
/-- Pictures of a size that fit where `base` of the level's largest do, 16 at most (log 12). -/
def dpbBySize (base size samples : Nat) : Nat :=
  min 16 (if 4 * samples ≤ size then 4 * base else if 2 * samples ≤ size then 2 * base else if 4 * samples ≤ 3 * size then 4 * base / 3 else base)
/-- Largest reference count and decoded picture buffer size of a level for a picture's size, in pictures (check 5 of R163; log 12). -/
def dpbLimit (r : LevelRow) (codec w h : Nat) : Nat :=
  if codec = 1 then min 16 (avcDpbMbs r.code / max 1 (ceilDiv w 16 * ceilDiv h 16))
  else if codec = 2 then dpbBySize 6 r.size (w * h) else if codec = 5 then dpbBySize 8 r.size (w * h)
  else if codec = 3 then (if r.code ≤ 40 then 8 else if r.code ≤ 41 then 6 else 4) else 8
/-- Decode price of a picture of `n` luma samples: 2 stitches a sample (R48, R155). -/
def decodePrice (n : Nat) : Nat := 2 * n

/-! ### Dividing a picture (R156, R178) -/

/-- Index of the smallest of a list, the first on a tie. -/
def argMin : List Nat → Nat → Nat × Nat → Nat
  | [], _, best => best.1
  | x :: l, i, best => argMin l (i + 1) (if x < best.2 then (i, x) else best)
/-- Adds to one place of a list. -/
def addAt (l : List Nat) (i n : Nat) : List Nat := l.set i (l.getD i 0 + n)
/-- Samples of each lane when units are dealt in turn. -/
def dealRows (w : Nat) (units : List Nat) : List Nat :=
  ((List.range units.length).zip units).foldl (fun a e => addAt a (e.1 % w) e.2) (List.replicate w 0)
/-- Samples of each lane when each unit goes to the lane with the fewest, the lower on a tie. -/
def dealLeast (w : Nat) (units : List Nat) : List Nat :=
  units.foldl (fun a u => addAt a (argMin a 0 (0, a.headD 0)) u) (List.replicate w 0)
/-- Whether a row of Table 8.2 applies to a division that a codec's coding allows. -/
def splitFits (codec : Nat) (s : Split) : Bool :=
  match s.kind with
  | .wavefront => codec == 2 || codec == 5
  | .tiles => codec != 1 && decide (2 ≤ s.units.length)
  | .slices => decide (2 ≤ s.units.length)
  | .whole => false
/-- A division of a kind among those that a coding allows. -/
def splitOfKind (codec : Nat) (l : List Split) (k : SplitKind) : Option Split := l.find? (fun s => s.kind == k && splitFits codec s)
/-- Luma samples of each core that takes a picture, for a stage of width `w` (Table 8.2): as many cores as units at most. -/
def splitLoads (sp : Split) (w : Nat) : List Nat :=
  let n := max 1 (min w sp.units.length)
  match sp.kind with
  | .wavefront => dealRows n sp.units
  | .tiles => dealLeast n sp.units
  | .slices => dealLeast n sp.units
  | .whole => [sp.units.foldl (· + ·) 0]

end Sys2Proof.Machine

namespace Sys2Proof
open Machine
/-- How the front end divides a picture: the first row of Table 8.2 that its coding allows (R156). -/
def PicInfo.split (p : PicInfo) : Split :=
  (((splitOfKind p.codec p.splits .wavefront).orElse (fun _ => splitOfKind p.codec p.splits .tiles)).orElse
    (fun _ => splitOfKind p.codec p.splits .slices)).getD { kind := .whole, units := [p.frames.foldl (· + ·) 0] }
end Sys2Proof
end

