-- ==== Sys2Proof/Machine/Picture.lean ====
section
/-!
DEFINITION. Pictures: their layout in hanks (R172), conversion between 8 and 10 bits (R182), and the scaler (R199).
-/
namespace Sys2Proof
open Machine

/-! ### Layout (R172) -/

/-- Rows of a chroma plane. -/
def planeRows (ch : Chroma) (h : Nat) : Nat := match ch with | .c400 => 0 | .c420 => (h + 1) / 2 | _ => h
/-- Columns of a chroma plane. -/
def planeCols (ch : Chroma) (w : Nat) : Nat := match ch with | .c400 => 0 | .c444 => w | _ => (w + 1) / 2
/-- Bytes of a sample. -/
def depthBytes (depth : Nat) : Nat := if depth ≤ 8 then 1 else 2
/-- Bytes of a row, padded to 64. -/
def rowPad (n : Nat) : Nat := ceilDiv n 64 * 64
/-- Bytes of a picture of a size: the luma plane, then one plane of interleaved Cb and Cr. -/
def picSize (w h depth : Nat) (ch : Chroma) : Nat :=
  h * rowPad (w * depthBytes depth) + planeRows ch h * rowPad (2 * planeCols ch w * depthBytes depth)
/-- Bytes of the picture that a submission's headers announce. -/
def pictureBytes (p : PicInfo) : Nat := picSize p.width p.height p.depth p.chroma
/-- Hanks that hold a number of bytes. -/
def hankCount (n : Nat) : Nat := max 1 (ceilDiv n 0x4000)
/-- A row of samples as bytes: one byte for 8 bits; bits [9:0] of a little-endian 16-bit word for 10 bits, [15:10] zero; padded to a
multiple of 64 bytes with zeros. -/
def rowBytes (depth : Nat) (row : List Nat) : List Byte :=
  padTo 64 (row.flatMap (fun s => if depth ≤ 8 then leBytes 1 (s % 256) else leBytes 2 (s % 1024)))
/-- Cb and Cr interleaved. -/
def interleave : List Nat → List Nat → List Nat
  | a :: l, b :: m => a :: b :: interleave l m
  | _, _ => []
/-- A picture's bytes. -/
def Picture.bytes (p : Picture) : List Byte :=
  p.luma.flatMap (rowBytes p.depth) ++
  (if p.chroma = .c400 then [] else (p.cb.zip p.cr).flatMap (fun e => rowBytes p.depth (interleave e.1 e.2)))
/-- A plane of a size built sample by sample. -/
def mkPlane (w h : Nat) (f : Nat → Nat → Nat) : List (List Nat) := (List.range h).map (fun y => (List.range w).map (fun x => f x y))
/-- A picture of a size built sample by sample: luma, then the chroma planes. -/
def mkPicture (w h depth : Nat) (ch : Chroma) (y cb cr : Nat → Nat → Nat) : Picture :=
  { width := w, height := h, depth := depth, chroma := ch, luma := mkPlane w h y,
    cb := mkPlane (planeCols ch w) (planeRows ch h) cb, cr := mkPlane (planeCols ch w) (planeRows ch h) cr }
/-- A sample of a plane. -/
def sampleOf (p : List (List Nat)) (x y : Nat) : Nat := (p.getD y []).getD x 0
/-- A sample of a plane, the nearest one beyond its edges. -/
def clampedOf (p : List (List Nat)) (x y : Int) : Nat :=
  let row := p.getD (min y.toNat (p.length - 1)) []
  row.getD (min x.toNat (row.length - 1)) 0
/-- A picture held to a size, a bit depth and a chroma format. -/
def Picture.fit (p : Picture) (w h depth : Nat) (ch : Chroma) : Picture :=
  mkPicture w h depth ch (fun x y => sampleOf p.luma x y % 2 ^ depth) (fun x y => sampleOf p.cb x y % 2 ^ depth) (fun x y => sampleOf p.cr x y % 2 ^ depth)
/-- A picture whose samples are all 2^(depth - 1) (R169). -/
def grey (w h depth : Nat) (ch : Chroma) : Picture :=
  mkPicture w h depth ch (fun _ _ => 2 ^ (depth - 1)) (fun _ _ => 2 ^ (depth - 1)) (fun _ _ => 2 ^ (depth - 1))
/-- A sample at a byte place. -/
def sampleAt (rd : Nat → Byte) (depth base i : Nat) : Nat :=
  if depth ≤ 8 then (rd (base + i)).toNat else ((rd (base + 2 * i)).toNat + 256 * (rd (base + 2 * i + 1)).toNat) % 1024
/-- The picture that a layout in memory holds. -/
def readPicture (rd : Nat → Byte) (w h depth : Nat) (ch : Chroma) : Picture :=
  let lr := rowPad (w * depthBytes depth)
  let cr := rowPad (2 * planeCols ch w * depthBytes depth)
  mkPicture w h depth ch (fun x y => sampleAt rd depth (y * lr) x) (fun x y => sampleAt rd depth (h * lr + y * cr) (2 * x))
    (fun x y => sampleAt rd depth (h * lr + y * cr) (2 * x + 1))
/-- Byte `i` of a hank list. -/
def hankByte (m : Mem) (hs : List Nat) (i : Nat) : Byte :=
  match hs[i / 0x4000]? with | some h => Mem.read m (hankAddr h + i % 0x4000) | none => 0
/-- The picture in a hank list. -/
def hankPicture (m : Mem) (hs : List Nat) (w h depth : Nat) (ch : Chroma) : Picture := readPicture (hankByte m hs) w h depth ch

/-! ### Areas -/

/-- Whether an area holds a luma sample. -/
def Rect.has (r : Rect) (x y : Nat) : Bool := decide (r.x ≤ x) && decide (x < r.x + r.w) && decide (r.y ≤ y) && decide (y < r.y + r.h)
/-- Whether one of some areas holds a luma sample. -/
def covered (l : List Rect) (x y : Nat) : Bool := l.any (fun r => r.has x y)
/-- Luma samples of a picture that lie in one of some areas. -/
def coveredCount (l : List Rect) (w h : Nat) : Nat :=
  ((List.range h).map (fun y => ((List.range w).filter (fun x => covered l x y)).length)).foldl (· + ·) 0
/-- Luma column and row of a chroma sample. -/
def lumaOf (ch : Chroma) (x y : Nat) : Nat × Nat := (if ch = .c444 then x else 2 * x, if ch = .c420 then 2 * y else y)

/-! ### Bit depths (R182) -/

/-- A sample of one bit depth at another: shifted left by 2, or (x + 2) >> 2 clamped to 255. -/
def toDepth (src dst x : Nat) : Nat := if src < dst then x * 4 else if dst < src then min 255 ((x + 2) / 4) else x
/-- A picture at a bit depth. -/
def Picture.convert (p : Picture) (depth : Nat) : Picture :=
  { p with depth := depth, luma := p.luma.map (fun r => r.map (toDepth p.depth depth)), cb := p.cb.map (fun r => r.map (toDepth p.depth depth)),
           cr := p.cr.map (fun r => r.map (toDepth p.depth depth)) }

/-! ### The scaler (R199; log 120) -/

/-- RNE(a / b). -/
def rneDiv (a b : Nat) : Nat := if 2 * (a % b) < b ∨ (2 * (a % b) = b ∧ a / b % 2 = 0) then a / b else a / b + 1
/-- RNE(a / b) of a signed number. -/
def rneInt (a : Int) (b : Nat) : Int := if a < 0 then -((rneDiv a.natAbs b : Nat) : Int) else (rneDiv a.natAbs b : Nat)
/-- The four Catmull-Rom weights at n/d beyond the second tap, over 2 d³. -/
def catmullRom (n d : Int) : List Int :=
  [-n * d * d + 2 * n * n * d - n * n * n, 2 * d * d * d - 5 * n * n * d + 3 * n * n * n,
   n * d * d + 4 * n * n * d - 3 * n * n * n, n * n * n - n * n * d]
/-- The second tap and the place beyond it, over twice the output's length, of output sample `i`: sample centres are aligned. -/
def tapOf (src dst i : Nat) : Int × Int :=
  let p : Int := (2 * (i : Int) + 1) * src - dst
  (p / (2 * dst), p % (2 * dst))
/-- Sample (x, y) of a plane scaled from one size to another: edge samples repeat, one rounding at the end. -/
def scaledSample (p : List (List Nat)) (w h w' h' top x y : Nat) : Nat :=
  let tx := tapOf w w' x
  let ty := tapOf h h' y
  let wx := catmullRom tx.2 (2 * w')
  let wy := catmullRom ty.2 (2 * h')
  let sum : Int := ((List.range 4).zip wy).foldl (fun a r =>
    a + r.2 * ((List.range 4).zip wx).foldl (fun (b : Int) q => b + q.2 * (clampedOf p (max 0 (tx.1 + q.1 - 1)) (max 0 (ty.1 + r.1 - 1)) : Nat)) (0 : Int)) (0 : Int)
  (max 0 (min (top : Int) (rneInt sum (4 * (2 * w') ^ 3 * (2 * h') ^ 3)))).toNat
/-- A picture scaled to a size, luma and chroma alike. -/
def Picture.scale (p : Picture) (w h : Nat) : Picture :=
  let top := 2 ^ p.depth - 1
  let cw := planeCols p.chroma p.width
  let chh := planeRows p.chroma p.height
  mkPicture w h p.depth p.chroma (scaledSample p.luma p.width p.height w h top)
    (scaledSample p.cb cw chh (planeCols p.chroma w) (planeRows p.chroma h) top)
    (scaledSample p.cr cw chh (planeCols p.chroma w) (planeRows p.chroma h) top)

end Sys2Proof
end

