-- ==== Sys2Proof/Machine/Cast.lean ====
section
/-!
DEFINITION. Admission (ch. 3): the request descriptor, the checks of Table 3.3, placement and pricing (R47 to R50, R136),
reservations (R51 to R53), and the response record.
-/
namespace Sys2Proof.Machine

/-! ### The request (R43) -/

/-- A request descriptor (Table 3.1); `resv` is nonzero where a reserved byte is. -/
structure Req where
  version  : Nat
  op       : Nat
  flags    : Nat
  tag      : Nat
  resp     : Nat
  pipeline : Nat
  codec    : Nat
  level    : Nat
  profile  : Nat
  queue    : Nat
  maxW     : Nat
  maxH     : Nat
  rateNum  : Nat
  rateDen  : Nat
  kbps     : Nat
  deadline : Nat
  ticket   : Nat
  quota    : Nat
  garment  : Nat
  priority : Nat
  resv     : Nat
deriving DecidableEq, Repr

/-- The fields of 64 descriptor bytes (Table 3.1). -/
def Req.of (b : List Byte) : Req :=
  { version := le b 0 2, op := le b 2 1, flags := le b 3 1, tag := le b 4 4, resp := le b 8 8, pipeline := le b 16 2,
    codec := le b 18 1, level := le b 19 1, profile := le b 20 2, queue := le b 22 2, maxW := le b 24 2, maxH := le b 26 2,
    rateNum := le b 28 2, rateDen := le b 30 2, kbps := le b 32 4, deadline := le b 36 4, ticket := le b 40 4,
    quota := le b 44 4, garment := le b 48 2, priority := le b 50 1, resv := le b 51 13 }
/-- GRADE 0: guaranteed. -/
def Req.guaranteed (r : Req) : Bool := !bit r.flags 0
/-- DRAIN. -/
def Req.drain (r : Req) : Bool := bit r.flags 1
/-- Queues a function has (R276). -/
def queuesOf (fn : Nat) : Nat := if fn = 0 then 128 else 8
/-- Whether RATE_NUM / RATE_DEN lies outside 1 to 300 frames per second. -/
def Req.rateBad (r : Req) : Bool := r.rateDen != 0 && (decide (r.rateNum < r.rateDen) || decide (300 * r.rateDen < r.rateNum))
/-- Whether DEADLINE_US lies outside its range for the grade. -/
def Req.deadlineBad (r : Req) : Bool :=
  if r.guaranteed then decide (r.deadline < 1000 ∨ 2000000 < r.deadline) else r.deadline != 0
/-- Fields judged for every operation, and then those of a cast-on, as (offset, bad), in increasing offset (R43). -/
def Req.faults (r : Req) (fn op : Nat) : List (Nat × Bool) :=
  [(0x00, r.version != 1), (0x02, r.op != op), (0x03, decide (32 ≤ r.flags)), (0x08, r.resp % 32 != 0)] ++
  (if op = 2 then [] else
    [(0x16, decide (queuesOf fn ≤ r.queue)), (0x18, decide (r.maxW < 16 ∨ 8192 < r.maxW)), (0x1A, decide (r.maxH < 16 ∨ 4320 < r.maxH)),
     (0x1C, r.rateBad), (0x1E, r.rateDen == 0), (0x24, r.deadlineBad), (0x28, r.ticket != 0), (0x30, decide (4096 ≤ r.garment))]) ++
  [(0x33, r.resv != 0)]
/-- Offset of the first bad field. -/
def Req.firstBad (r : Req) (fn op : Nat) : Option Nat := ((r.faults fn op).find? (fun e => e.2)).map (fun e => e.1)

/-! ### Verdicts -/

/-- What an admission request comes to (Table 3.2). -/
structure Verdict where
  reason   : Nat
  detail   : Nat := 0
  panel    : Nat := 0xFF
  resource : Nat := 0xFF
  load     : Nat := 0
  price    : Nat := 0
  ticket   : Nat := 0
deriving DecidableEq, Repr

/-- A refusal with its DETAIL. -/
def refuse (reason detail : Nat) : Verdict := { reason := reason, detail := detail }
/-- Bytes of a response record (Table 3.2). -/
def Verdict.bytes (v : Verdict) (tag decidedAt module : Nat) : List Byte :=
  leBytes 4 tag ++ leBytes 4 v.ticket ++ leBytes 2 v.reason ++ leBytes 1 v.panel ++ leBytes 1 v.resource ++
  leBytes 4 (min 4294967295 v.detail) ++ leBytes 4 (min 4294967295 v.load) ++ leBytes 4 v.price ++ leBytes 4 decidedAt ++
  leBytes 2 module ++ leBytes 2 0
/-- First refusal of a list of checks. -/
def firstOf : List (Option Verdict) → Option Verdict
  | [] => none
  | some v :: _ => some v
  | none :: l => firstOf l

/-! ### Checks of the request as a whole (Table 3.3, rows 0x0004 to 0x0008) -/

/-- Row 0x0004 (R160, R161). -/
def Req.unsupported (r : Req) : Option Nat :=
  if r.codec < 1 ∨ 5 < r.codec then some 0x12
  else match levelRow r.codec r.level with
    | none => some 0x13
    | some l =>
      if (profileRow r.codec r.profile).isNone then some 0x14
      else if l.maxW < r.maxW then some 0x18
      else if l.maxH < r.maxH then some 0x1A
      else if maxKbps l r.profile < r.kbps then some 0x20
      else none
/-- Whether a role is held by this module. -/
def Chip.holdsRole (c : Chip) (role : Nat) : Bool := role == 0 || bit c.rnd.roles (role - 1)
/-- Whether some reachable module holds a role (R19). -/
def Chip.roleReachable (c : Chip) (role : Nat) : Bool :=
  c.holdsRole role || c.rnd.peers.any (fun e => c.rnd.reachable e.1 && bit e.2.roles (role - 1))
/-- First role that no reachable module holds. -/
def Chip.missingRole (c : Chip) (sd : StreamDef) : Option Nat :=
  (sd.stages.find? (fun s => !c.roleReachable s.role)).map (fun s => s.role)
/-- Input streams that count against the limit of 128. -/
def Chip.streams (c : Chip) : Nat := (c.claims.filter (fun t => !t.placed.isEmpty)).length
/-- Rows 0x0004 to 0x0008 (R46); the guarantee at risk as it stands when the check is made. -/
def Chip.wholeChecks (c : Chip) (r : Req) (sd : Option StreamDef) : Option Verdict :=
  match r.unsupported, sd with
  | some off, _ => some (refuse 0x0004 off)
  | none, none => some (refuse 0x0005 0)
  | none, some s =>
    if !s.codecs.contains r.codec then some (refuse 0x0005 0)
    else match c.missingRole s with
      | some k => some (refuse 0x0006 k)
      | none => if r.guaranteed && c.gar then some (refuse 0x0007 0) else if 128 ≤ c.streams then some (refuse 0x0008 128) else none

/-! ### Pricing (R47 to R49) -/

/-- RESOURCE of a stage's kind for a stage without a cost entry (Table 14.6). -/
def kindResource : StageKind → Nat
  | .decode => 0 | .encode => 1 | _ => 2
/-- Cost entry of a stage for a placement variant (R297, R134). -/
def Chip.costEntry (c : Chip) (pipeline stage variant : Nat) : Option CostEntry :=
  match c.pat.pattern with
  | none => none
  | some p => p.costs.find? (fun e => e.pipeline == pipeline && e.stage == stage && e.variant == variant)
/-- Price that matches a needle's presented columns (R297). -/
def costPriceFor (e : CostEntry) (columns : Nat) : Nat :=
  if columns = 64 then e.price64 else if columns = 63 then e.price63 else e.price62
/-- Period of a stage as a fraction of a second: encode runs per output frame, analysis per analysed frame (R48, R200). -/
def stagePeriod (k : StageKind) (sd : StreamDef) (num den : Nat) : Nat × Nat :=
  match k with
  | .encode => (den, num * (sd.fgK + 1))
  | .analysis => (den * sd.anEvery, num)
  | _ => (den, num)
/-- Needles of a stage on a panel for a presented size: those of its variant's mask that the panel presents (Table 14.5; log 102). -/
def stageNeedles (st : StageDef) (p size : Nat) (presented : List Nat) : List Nat :=
  (((st.needles.find? (fun x => x.1 == p && x.2.1 == size)).map (fun x => x.2.2)).getD []).filter presented.contains
/-- A stage of a request placed on a panel: its cost entry, price and needles there (R47, R48, R101, R297). -/
def Chip.placedAt (c : Chip) (r : Req) (sd : StreamDef) (st : StageDef) (i p : Nat) : Option Placed :=
  let variant := if st.kind = .decode ∨ st.kind = .encode then 0 else (c.panel p).presented.length
  match c.costEntry sd.index i variant with
  | none => none
  | some e =>
    let ns := if e.resource = 2 then stageNeedles st p variant (c.panel p).presented else []
    let price :=
      if e.resource = 0 then (match levelRow r.codec r.level with | none => 0 | some l => decodePrice l.size)
      else if e.resource = 1 then e.price64
      else ns.foldl (fun a n => max a (costPriceFor e (c.needle n).columns)) 0
    let t := stagePeriod st.kind sd r.rateNum r.rateDen
    some { stage := i, kind := st.kind, panel := p, resource := e.resource, price := price, width := max 1 e.width,
           critical := e.critical, tested := r.guaranteed && !e.beOnly, tA := t.1, tB := t.2, eNs := 0, dNs := 0, fixedNs := e.fixedNs,
           energy := e.energy, hbm := e.hbm, yoke := e.yoke, round := e.round, bulk := e.bulk, nCtx := e.contexts, nMrk := e.markers,
           hanks := e.hanks, perFrame := st.perFrame, viewOff := st.viewOff, outOff := st.outOff, needles := ns, contexts := [] }
/-- Whether a stage may stand on a candidate panel (R19, R134, R136): one whose role this module does not hold stands on none (log 111). -/
def Chip.candidateOk (c : Chip) (st : StageDef) (p : Nat) : Bool :=
  !c.panelOffline p && !c.rst.panels.contains p && c.holdsRole st.role
/-- Candidates of a stage that are not offline, each with the stage placed there. -/
def Chip.candidatesOf (c : Chip) (r : Req) (sd : StreamDef) (st : StageDef) (i : Nat) : List Placed :=
  (st.candidates.filter (c.candidateOk st)).filterMap (c.placedAt r sd st i)
/-- Product of the widths: a common denominator for the e of R47. -/
def widthProduct (ps : List Placed) : Nat := ps.foldl (fun a p => a * p.width) 1
/-- e of a stage over the common denominator widthProduct × floor pace, in µs. -/
def eNum (ps : List Placed) (p : Placed) : Nat := p.price * (widthProduct ps / p.width)
/-- Sum of e over the critical path. -/
def eSum (ps : List Placed) : Nat := (ps.filter (fun p => p.critical)).foldl (fun a p => a + eNum ps p) 0
/-- Transfer allowances of the critical path in ns. -/
def allowanceNs (ps : List Placed) : Nat := (ps.filter (fun p => p.critical)).foldl (fun a p => a + p.fixedNs) 0
/-- Output frame periods that a coded group of HIER_g adds (R185). -/
def gopExtra : Gop → Nat
  | .lowDelay => 0 | .hier g => g - 1
/-- Round bandwidth in MB/s that tested stages send their outputs with: ρ of R256. -/
def sendRate (ps : List Placed) : Nat := (ps.filter (fun p => p.tested)).foldl (fun a p => a + p.round) 0
/-- Hops of the route in use to a module. -/
def Rnd.hopsTo (r : Rnd) (k : Nat) : Nat := if (r.route k).west then (r.route k).hopsW else (r.route k).hopsE
/-- The hop bound of the pipeline's Round transfers in ns, as a fraction: B / ρ + 2.3 µs a hop (R49, R256). -/
def Chip.hopBound (c : Chip) (sd : StreamDef) (ps : List Placed) : Nat × Nat :=
  match sd.sendTo with
  | none => (0, 1)
  | some d => if sendRate ps = 0 ∨ c.rnd.reachable d = false then (0, 1)
    else (1000 * sd.sendBytes + 2300 * c.rnd.hopsTo d * sendRate ps, sendRate ps)
/-- Fixed latency in ns as a fraction over `fixedDen`: a source interval if frames are generated, the coded group's periods, the
allowances, and the hop bound of Round transfers (R49, R185). -/
def fixedNum (sd : StreamDef) (num den : Nat) (hop : Nat × Nat) (ps : List Placed) : Nat :=
  ((if sd.fgK = 0 then 0 else 1000000000 * den * (sd.fgK + 1)) + gopExtra sd.gop * 1000000000 * den + allowanceNs ps * num * (sd.fgK + 1)) * hop.2 +
  hop.1 * num * (sd.fgK + 1)
/-- Denominator of `fixedNum`. -/
def fixedDen (sd : StreamDef) (num : Nat) (hop : Nat × Nat) : Nat := num * (sd.fgK + 1) * hop.2
/-- The minimum deadline in µs, rounded up (R49). -/
def minDeadline (floor : Nat) (sd : StreamDef) (num den : Nat) (hop : Nat × Nat) (ps : List Placed) : Nat :=
  let d1 := widthProduct ps * floor
  let d2 := fixedDen sd num hop * 1000
  ceilDiv (eSum ps * d2 + fixedNum sd num den hop ps * d1) (d1 * d2)
/-- A stage's sub-deadline in ns as a fraction in lowest terms: e × (deadline − fixed latency) / sum(e) (R49). -/
def subDeadline (floor : Nat) (sd : StreamDef) (num den deadline : Nat) (hop : Nat × Nat) (ps : List Placed) (p : Placed) : Nat × Nat :=
  let span := deadline * 1000 * fixedDen sd num hop - fixedNum sd num den hop ps
  let x := if eSum ps = 0 then (eNum ps p * 1000, widthProduct ps * floor) else (eNum ps p * span, eSum ps * fixedDen sd num hop)
  (x.1 / Nat.gcd x.1 x.2, x.2 / Nat.gcd x.1 x.2)
/-- A stage with its standalone time (rounded up) and its sub-deadline. -/
def Placed.timed (p : Placed) (floor : Nat) (d : Nat × Nat) : Placed :=
  { p with eNs := ceilDiv (p.price * 1000) (p.width * floor), dNs := d.1 / d.2, dA := d.1, dB := d.2 }
/-- Every stage with its times; one that is not tested has no sub-deadline. -/
def withTimes (floor : Nat) (sd : StreamDef) (num den deadline : Nat) (hop : Nat × Nat) (ps : List Placed) : List Placed :=
  ps.map (fun p => p.timed floor (if p.tested then subDeadline floor sd num den deadline hop ps p else (0, 1)))

/-! ### The demand-bound test (R50) -/

/-- Sum of two fractions, in lowest terms. -/
def addFrac (x y : Nat × Nat) : Nat × Nat :=
  let n := x.1 * y.2 + y.1 * x.2
  let d := x.2 * y.2
  (n / Nat.gcd n d, d / Nat.gcd n d)
/-- sum(C / T) of stages in stitches per second. -/
def demand (l : List Placed) : Nat × Nat := l.foldl (fun a p => addFrac a (p.price * p.tB, p.tA)) (0, 1)
/-- Units of a panel's resource (R50). -/
def Chip.units (c : Chip) (p r : Nat) : Nat :=
  if r = 0 then ((c.panel p).dec.filter (fun k => !(Tbl.get {} c.vdec.cores k).offline)).length
  else if r = 1 then ((c.panel p).enc.filter (fun k => !(Tbl.get {} c.venc.cores k).offline)).length
  else (c.panel p).presented.length
/-- Load in ppm of capacity at floor pace, rounded down (log 65). -/
def loadPpm (x : Nat × Nat) (units floor : Nat) : Nat :=
  if units * floor * x.2 = 0 then (if x.1 = 0 then 0 else 4294967295) else x.1 / (x.2 * units * floor)
/-- Stages of guaranteed work on a panel and resource. -/
def Chip.stagesOn (c : Chip) (p r : Nat) : List Placed :=
  c.claims.flatMap (fun t => t.placed.filter (fun s => s.tested && s.panel == p && s.resource == r))
/-- dbf(t) at t = n / d ns. -/
def dbf (l : List Placed) (n d : Nat) : Nat :=
  l.foldl (fun a s => a + (if s.dA * d ≤ n * s.dB then ((n * s.dB - s.dA * d) * s.tB / (s.dB * d * 1000000000 * s.tA) + 1) * s.price else 0)) 0
/-- The point d + k × T of a stage, in ns over dB × tB. -/
def Placed.point (s : Placed) (k : Nat) : Nat := s.dA * s.tB + k * 1000000000 * s.tA * s.dB
/-- Whether dbf holds at every d + k × T of one stage up to 1 s. -/
def dbfAt (l : List Placed) (units floor : Nat) (s : Placed) : Bool :=
  if 1000000000 * s.dB < s.dA then true
  else (List.range ((1000000000 * s.dB - s.dA) * s.tB / (1000000000 * s.tA * s.dB) + 1)).all (fun k =>
    decide (dbf l (s.point k) (s.dB * s.tB) * 10000 * (s.dB * s.tB) ≤ 9 * units * floor * s.point k))
/-- Whether stages pass the test of R50 on a number of units. -/
def demandOk (l : List Placed) (units floor : Nat) : Bool :=
  decide ((demand l).1 * 10 ≤ 9 * units * floor * 1000000 * (demand l).2) && l.all (dbfAt l units floor)

/-! ### Bandwidth (R154, R256) -/

/-- Allowance of a stage for a resource of its panel; remote fills draw on the Round bucket (R150). -/
def Placed.allowance (p : Placed) (res : Nat) : Nat := if res = resHbm then p.hbm else if res = resYoke then p.yoke else p.round + p.bulk
/-- Allowances of tested stages. -/
def allowances (ps : List Placed) (res : Nat) : Nat := (ps.filter (fun p => p.tested)).foldl (fun a p => a + p.allowance res) 0
/-- Sum of the G rates of all panels for a resource. -/
def Chip.gSum (c : Chip) (res : Nat) : Nat := allowances (c.claims.flatMap (fun t => t.placed)) res
/-- Store module whose blocks the charts of a panel fetch. -/
def Chip.storeOf (c : Chip) (p : Nat) : Option Nat :=
  (c.segments.find? (fun g => g.remote.isSome && c.chartPanel g.chart == some p)).bind (fun g => g.remote)
/-- Round bandwidth that stages reserve: ROUND towards the module the outputs go to, BULK on the path of the store (R256). -/
def Chip.roundPath (c : Chip) (dest : Option Nat) (ps : List Placed) : List (Nat × Nat × Nat) :=
  (ps.filter (fun p => p.tested)).flatMap (fun p =>
    (match dest with | some d => if p.round = 0 then [] else [(d, p.round, 0)] | none => []) ++
    (match c.storeOf p.panel with | some d => if p.bulk = 0 then [] else [(d, 0, p.bulk)] | none => []))
/-- Bandwidth of reservations that leave by a port: Guaranteed and RESV Bulk. -/
def Rnd.portLoad (r : Rnd) (p : Port) (l : List (Nat × Nat × Nat)) : Nat × Nat :=
  (l.filter (fun x => r.exit x.1 == some p)).foldl (fun a x => (a.1 + x.2.1, a.2 + x.2.2)) (0, 0)
/-- Every Round reservation of this module. -/
def Chip.roundClaims (c : Chip) : List (Nat × Nat × Nat) :=
  c.claims.flatMap (fun t => t.roundPath) ++ c.cast.hops.flatMap (fun h => h.path)
/-- Row 0x000D on a port, if the request asks for bandwidth there. -/
def Chip.roundCheck (c : Chip) (p : Port) (l : List (Nat × Nat × Nat)) : Option Verdict :=
  let mine := c.rnd.portLoad p l
  let all := c.rnd.portLoad p (c.roundClaims ++ l)
  if mine.1 != 0 && decide (c.rnd.ceilG < all.1) then
    some { reason := 0x000D, detail := all.1 - c.rnd.ceilG, resource := 5, load := all.1 * 1000000 / 95384 }
  else if mine.2 != 0 && decide (c.rnd.ceilBulk < all.2) then
    some { reason := 0x000D, detail := all.2 - c.rnd.ceilBulk, resource := 5, load := all.2 * 1000000 / 95384 }
  else none
/-- Row 0x000D. -/
def Chip.bandwidthCheck (c : Chip) (ps : List Placed) (path : List (Nat × Nat × Nat)) : Option Verdict :=
  let h := c.gSum resHbm + allowances ps resHbm
  let y := c.gSum resYoke + allowances ps resYoke
  let f := c.gauge.floor
  if allowances ps resHbm != 0 && decide (c.pnl.ceilHbm < h) then
    some { reason := 0x000D, detail := h - c.pnl.ceilHbm, resource := 3, load := h * 1000000 / 4915200 }
  else if allowances ps resYoke != 0 && decide (9 * 4096 * f < 10 * y) then
    some { reason := 0x000D, detail := ceilDiv (10 * y - 9 * 4096 * f) 10, resource := 4, load := y * 1000000 / (4096 * f) }
  else firstOf [c.roundCheck .east path, c.roundCheck .west path]

/-! ### Rows 0x0009 to 0x000F -/

/-- Contexts taken. -/
def Chip.usedContexts (c : Chip) : List Nat := c.claims.flatMap (fun t => t.contexts)
/-- Contexts stages need. -/
def ctxNeed (ps : List Placed) : Nat := ps.foldl (fun a p => a + p.nCtx) 0
/-- Markers stages need. -/
def mrkNeed (ps : List Placed) : Nat := ps.foldl (fun a p => a + p.nMrk) 0
/-- The quota: the cost-table figure, or a higher HANK_QUOTA (R43). -/
def quotaFor (r : Req) (ps : List Placed) : Nat := max r.quota (ps.foldl (fun a p => a + p.hanks) 0)
/-- Whether a quota does not fit (R238). -/
def Chip.quotaRefused (c : Chip) (q : Nat) : Bool :=
  decide (poolSize - c.hank.sharedMin < c.quotaSum + q) || decide (poolSize < c.quotaSum + q + c.hankOver + c.hankOrphan)
/-- Energy per frame over the period, in µW, rounded up per stage (R52). -/
def powerOf (ps : List Placed) : Nat := (ps.filter (fun p => p.tested)).foldl (fun a p => a + ceilDiv (p.energy * p.tB) p.tA) 0
/-- Reserved power in µW: base power and every guaranteed stage (R52). -/
def Chip.reservedPower (c : Chip) : Nat := c.tens.base * 100000 + c.claims.foldl (fun a t => a + t.power) 0
/-- Row 0x000E for one panel and resource. -/
def Chip.capacityCheck (c : Chip) (ps : List Placed) (p r : Nat) : Option Verdict :=
  let l := c.stagesOn p r ++ ps.filter (fun s => s.tested && s.panel == p && s.resource == r)
  if demandOk l (c.units p r) c.gauge.floor then none
  else some { reason := 0x000E, detail := p, resource := r, load := loadPpm (demand l) (c.units p r) c.gauge.floor }
/-- Row 0x000F; DETAIL is rounded up to 0.1 W (log 112). -/
def Chip.powerCheck (c : Chip) (ps : List Placed) : Option Verdict :=
  let w := c.reservedPower + powerOf ps
  if c.tens.cap * 100000 < w then
    some { reason := 0x000F, detail := ceilDiv w 100000, resource := 6, load := if c.tens.cap = 0 then 4294967295 else w * 10 / c.tens.cap }
  else none
/-- Rows 0x0009 to 0x000F for the stages `ps`, with the demand-bound test on the places `at_`; best-effort skips rows
0x0009, 0x000E and 0x000F (R46). `carry` is what the module carries between other members of a garment (R60). -/
def Chip.placeChecks (c : Chip) (r : Req) (sd : StreamDef) (carry : List (Nat × Nat × Nat)) (ps : List Placed) (at_ : List (Nat × Nat)) : Option Verdict :=
  let qs := withTimes c.gauge.floor sd r.rateNum r.rateDen r.deadline (c.hopBound sd ps) ps
  let low := minDeadline c.gauge.floor sd r.rateNum r.rateDen (c.hopBound sd ps) ps
  firstOf
    ([if r.guaranteed && decide (r.deadline < low) then some (refuse 0x0009 low) else none,
      if 16384 < c.usedContexts.length + ctxNeed ps then some (refuse 0x000A (ctxNeed ps)) else none,
      if c.freeMarkers < mrkNeed ps ∨ 1024 < mrkNeed ps then some (refuse 0x000B (mrkNeed ps)) else none,
      if c.quotaRefused (quotaFor r ps) then some (refuse 0x000C (quotaFor r ps)) else none,
      c.bandwidthCheck ps (c.roundPath sd.sendTo ps ++ carry)] ++
     (if r.guaranteed then at_.map (fun a => c.capacityCheck qs a.1 a.2) ++ [c.powerCheck ps] else []))

/-! ### Placement (R136) -/

/-- Later stages, each at its first candidate that is not offline. -/
def Chip.firstChoices (c : Chip) (r : Req) (sd : StreamDef) (l : List (Nat × StageDef)) : List Placed :=
  l.filterMap (fun e => (c.candidatesOf r sd e.2 e.1).head?)
/-- Result of trying a stage on one candidate. -/
def Chip.trial (c : Chip) (r : Req) (sd : StreamDef) (carry : List (Nat × Nat × Nat)) (done later : List Placed) (p : Placed) : Option Verdict :=
  c.placeChecks r sd carry (done ++ [p] ++ later) (if p.tested then [(p.panel, p.resource)] else [])
/-- A refusal with PANEL, the panel of the first stage if one was chosen (Table 3.2). -/
def Verdict.chosen (v : Verdict) (done : List Placed) : Verdict := { v with panel := ((done.head?).map (fun p => p.panel)).getD 0xFF }
/-- Stages placed in pipeline order, each on the first candidate that passes; otherwise the first candidate's refusal. A stage that this
module does not hold the role of has no candidate (R19; log 111). -/
def Chip.placeFrom (c : Chip) (r : Req) (sd : StreamDef) (carry : List (Nat × Nat × Nat)) : List (Nat × StageDef) → List Placed → Verdict ⊕ List Placed
  | [], done => .inr done
  | (i, st) :: rest, done =>
    match c.candidatesOf r sd st i with
    | [] => .inl (Verdict.chosen { reason := 0x000E, detail := st.candidates.headD 0, resource := kindResource st.kind } done)
    | p :: ps =>
      match (p :: ps).find? (fun q => (c.trial r sd carry done (c.firstChoices r sd rest) q).isNone) with
      | some q => c.placeFrom r sd carry rest (done ++ [q])
      | none => .inl (((c.trial r sd carry done (c.firstChoices r sd rest) p).getD (refuse 0x000E 0)).chosen done)
/-- The places that hold a tested stage. -/
def places (ps : List Placed) : List (Nat × Nat) := ((ps.filter (fun p => p.tested)).map (fun p => (p.panel, p.resource))).eraseDups
/-- Rows 0x0004 to 0x000F: the stages placed, with their times, or the refusal (R46, R136). -/
def Chip.judge (c : Chip) (r : Req) (pipeline : Nat) (carry : List (Nat × Nat × Nat)) : Verdict ⊕ List Placed :=
  match c.wholeChecks r (c.stream? pipeline), c.stream? pipeline with
  | some v, _ => .inl v
  | none, none => .inl (refuse 0x0005 0)
  | none, some sd =>
    match c.placeFrom r sd carry ((List.range sd.stages.length).zip sd.stages) [] with
    | .inl v => .inl v
    | .inr ps =>
      match c.placeChecks r sd carry ps (places ps) with
      | some v => .inl (v.chosen ps)
      | none => .inr (withTimes c.gauge.floor sd r.rateNum r.rateDen r.deadline (c.hopBound sd ps) ps)

/-! ### Reservations (R51 to R53) -/

/-- Contexts dealt to the stages in order. -/
def dealContexts : List Placed → List Nat → List Placed
  | [], _ => []
  | p :: ps, l => { p with contexts := l.take p.nCtx } :: dealContexts ps (l.drop p.nCtx)
/-- The ticket a request becomes, before it has its number: contexts and markers are the lowest free ones (log 20). -/
def Chip.makeTicket (c : Chip) (fn : Nat) (r : Req) (pipeline : Nat) (garment : Option Nat) (lead : Nat) (members : List Nat) (ps : List Placed) : Ticket :=
  let ctx := pickFree (c.usedContexts.foldl (fun l k => insertSorted k l) []) (ctxNeed ps) 0
  { id := 0, fn := fn, guaranteed := r.guaranteed, outVideo := bit r.flags 2, outCramar := bit r.flags 3, srcRound := bit r.flags 4,
    pipeline := pipeline, codec := r.codec, level := r.level, profile := r.profile, queue := globalQueue fn r.queue, maxW := r.maxW,
    maxH := r.maxH, rateNum := r.rateNum, rateDen := r.rateDen, kbps := r.kbps, deadlineUs := r.deadline, quota := quotaFor r ps,
    priority := r.priority, garment := garment, lead := lead, members := members, placed := dealContexts ps ctx, contexts := ctx,
    markers := c.pickMarkers (mrkNeed ps),
    roundPath := c.roundPath (match c.stream? pipeline with | none => none | some sd => sd.sendTo) ps, power := powerOf ps,
    bucket := r.kbps * 500 }
/-- Markers reserved to a ticket at count 0: local scope, or garment scope (R242, R245). -/
def Chip.holdMarkers (c : Chip) (t : Ticket) (id : Nat) : Chip :=
  { c with markers := t.markers.foldl (fun m k => Tbl.set m k { scope := if t.garment.isSome then 2 else 1, ticket := id }) c.markers }
/-- Ticks left in the row. -/
def Gauge.rowLeft (g : Gauge) : Nat := g.rowStart + g.rowLen - g.time
/-- A stage's allowances added to the regulators of its panel, credited for the rest of the row (R151, R153). -/
def Chip.addAllowance (c : Chip) (p : Placed) : Chip :=
  if p.tested then
    c.updPanel p.panel (fun x => { x with
      gRate := (x.gRate.zip [resHbm, resYoke, resRound]).map (fun e => e.1 + p.allowance e.2)
      gBucket := (x.gBucket.zip [resHbm, resYoke, resRound]).map (fun e => e.1 + (refillBytes (p.allowance e.2) c.gauge.rowLeft : Nat)) })
  else c
/-- A stage's allowances taken off; the bucket keeps what it holds until the next row boundary (R153). -/
def Chip.dropAllowance (c : Chip) (p : Placed) : Chip :=
  if p.tested then
    c.updPanel p.panel (fun x => { x with gRate := (x.gRate.zip [resHbm, resYoke, resRound]).map (fun e => e.1 - p.allowance e.2) })
  else c
/-- The number after the last ticket issued; 0 is skipped (R53). -/
def nextTicket (last : Nat) : Nat := if last + 1 = 4294967296 then 1 else last + 1
/-- The encoder's state at cast-on: NREF free buffers, and the initial VBV fullness in bits (R186, R192). -/
def encStart (sd : StreamDef) : EncState :=
  { bufs := List.replicate sd.nref {}
    vbv := match sd.rc with | .cqp _ _ _ => 0 | .cbr _ _ init => init * 1000 | .vbr _ _ v => v * 1000 | .cq _ _ v => v * 1000 }
/-- A ticket goes live with its number (R51, R53). -/
def Chip.openTicket (c : Chip) (t : Ticket) (id : Nat) : Chip :=
  let e := match c.stream? t.pipeline with | none => {} | some sd => encStart sd
  let d := t.placed.foldl Chip.addAllowance (c.holdMarkers t id)
  Chip.reportLtr { d with cast := { d.cast with tickets := d.cast.tickets ++ [{ t with id := id, enc := e, encDone := e }] } }
/-- Loads in ppm of the engines that tested stages stand on, as (load, RESOURCE). -/
def Chip.engineLoads (c : Chip) (ps : List Placed) : List (Nat × Nat) :=
  (places ps).map (fun e =>
    (loadPpm (demand (c.stagesOn e.1 e.2 ++ ps.filter (fun s => s.tested && s.panel == e.1 && s.resource == e.2))) (c.units e.1 e.2) c.gauge.floor, e.2))
/-- Load in ppm of a port that a request reserves bandwidth on. -/
def Chip.portShare (c : Chip) (p : Port) (path : List (Nat × Nat × Nat)) : List (Nat × Nat) :=
  let mine := c.rnd.portLoad p path
  let all := c.rnd.portLoad p (c.roundClaims ++ path)
  if mine.1 + mine.2 = 0 then [] else [((all.1 + all.2) * 1000000 / 95384, 5)]
/-- Loads in ppm of the memories, ports and power that a request reserves, as (load, RESOURCE). -/
def Chip.shareLoads (c : Chip) (ps : List Placed) (path : List (Nat × Nat × Nat)) : List (Nat × Nat) :=
  (if allowances ps resHbm = 0 then [] else [((c.gSum resHbm + allowances ps resHbm) * 1000000 / 4915200, 3)]) ++
  (if allowances ps resYoke = 0 ∨ c.gauge.floor = 0 then [] else [((c.gSum resYoke + allowances ps resYoke) * 1000000 / (4096 * c.gauge.floor), 4)]) ++
  c.portShare .east path ++ c.portShare .west path ++
  (if powerOf ps = 0 ∨ c.tens.cap = 0 then [] else [((c.reservedPower + powerOf ps) * 10 / c.tens.cap, 6)])
/-- The binding resource of an acceptance: the one with the highest load of all the request reserves, the first of equal ones (log 65). -/
def Chip.binding (c : Chip) (ps : List Placed) (path : List (Nat × Nat × Nat)) : Nat × Nat :=
  (c.engineLoads ps ++ c.shareLoads ps path).foldl (fun a e => if a.1 < e.1 ∨ a.2 = 0xFF then e else a) (0, 0xFF)
/-- The verdict of an acceptance. -/
def Chip.accepted (c : Chip) (ps : List Placed) (path : List (Nat × Nat × Nat)) (id price : Nat) : Verdict :=
  { reason := 0, ticket := id, panel := ((ps.head?).map (fun p => p.panel)).getD 0xFF, resource := (c.binding ps path).2, load := (c.binding ps path).1, price := price }
/-- DECODE_PRICE of a request: of its level, once that is known. -/
def Req.price (r : Req) : Nat := match levelRow r.codec r.level with | none => 0 | some l => if r.unsupported.isSome then 0 else decodePrice l.size

/-! ### Responses (R42, R44) -/

/-- A function's CAST registers. -/
def Cast.fn (k : Cast) (fn : Nat) : CastFn := Tbl.get {} k.fns fn
/-- A function's CAST registers changed. -/
def Cast.updFn (k : Cast) (fn : Nat) (f : CastFn → CastFn) : Cast := { k with fns := Tbl.upd {} k.fns fn f }
/-- A request answered: CAST_LAST, BUSY, the cast-on event (R42). -/
def Chip.answered (c : Chip) (fn reason : Nat) : Chip :=
  Chip.edge { c with cast := c.cast.updFn fn (fun x => { x with busy := false, last := reason }) } (castSource fn)
/-- A response record written and the request answered, or held with BUSY while Bus Master Enable is 0 (R42, R287; log 33). -/
def Chip.respWrite (c : Chip) (fn addr reason : Nat) (b : List Byte) : Chip :=
  if (c.pcie.fn fn).bme then (c.hostWrite addr b).answered fn reason
  else { c with pcie := c.pcie.updFn fn (fun f => { f with heldResp := f.heldResp ++ [{ write := { addr := addr, bytes := b }, reason := reason }] }) }
/-- The response to a request decided at a moment; no record is written to an address that is not aligned (R42, R44). -/
def Chip.respondAt (c : Chip) (fn resp tag module decided : Nat) (v : Verdict) : Chip :=
  if resp % 32 = 0 then c.respWrite fn resp v.reason (v.bytes tag decided module) else c.answered fn v.reason
/-- The response to a request decided now. -/
def Chip.respond (c : Chip) (fn resp tag module : Nat) (v : Verdict) : Chip := c.respondAt fn resp tag module c.nowLo v
/-- A request refused; refused cast-ons are counted. -/
def Chip.respondRefused (c : Chip) (fn : Nat) (r : Req) (v : Verdict) : Chip :=
  ({ c with cast := { c.cast with refused := if r.op = 2 then c.cast.refused else c.cast.refused.inc } }).respond fn r.resp r.tag c.rnd.id
    { v with price := if r.op = 2 then 0 else r.price }
/-- Rows 0x0001 and 0x0002 (R43, R46). -/
def Chip.firstChecks (c : Chip) (fn op : Nat) (r : Req) : Option Verdict :=
  match r.firstBad fn op with
  | some off => some (refuse 0x0001 off)
  | none => if c.closed then some (refuse 0x0002 0) else none
/-- A cast-on decided (R46, R51). -/
def Chip.castOn (c : Chip) (fn : Nat) (r : Req) : Chip :=
  match c.firstChecks fn 1 r with
  | some v => c.respondRefused fn r v
  | none =>
    match c.judge r r.pipeline [] with
    | .inl v => c.respondRefused fn r v
    | .inr ps =>
      let id := nextTicket c.cast.lastTicket
      let t := c.makeTicket fn r r.pipeline none c.rnd.id [] ps
      (({ c with cast := { c.cast with lastTicket := id } }).openTicket t id).respond fn r.resp r.tag c.rnd.id (c.accepted ps t.roundPath id r.price)
/-- What the read of a request descriptor does to the endpoint, and the request dropped if it failed (Table 13.11). -/
def Chip.castRead (c : Chip) (fn : Nat) (d : HostRead) : Chip :=
  { c with
    pcie := c.pcie.resolve c.now fn (.castDescriptor fn) d
    cast := match d with | .data _ => c.cast | _ => c.cast.updFn fn (fun x => { x with busy := false }) }
/-- Whether a function's request is in flight and not read yet: no garment of it is undecided, no ticket drains, no response waits (R41, R42,
R57, R59). -/
def Chip.unread (c : Chip) (fn : Nat) : Bool :=
  (c.cast.fn fn).busy && (c.pcie.fn fn).heldResp.isEmpty && c.cast.leads.all (fun l => l.fn != fn) && c.cast.tickets.all (fun t => t.fn != fn || t.drainTag.isNone)

end Sys2Proof.Machine
end

