-- ==== Sys2Proof/Machine/Reserve.lean ====
section
/-!
DEFINITION. The order in which the holder takes admission requests (R45), RESERVE of a garment as one of them (R59, R60), and the read of a
request's descriptor (R41, R42).
-/
namespace Sys2Proof.Machine

/-! ### Who is asked (R59, R60) -/

/-- A module's place on the ring, East of this one. -/
def Chip.ringPos (c : Chip) (k : Nat) : Nat := if k = c.rnd.id then 0 else (c.rnd.route k).hopsE
/-- Distance East from one module to another. -/
def Chip.eastOf (c : Chip) (a b : Nat) : Nat := (c.ringPos b + c.rnd.ringSize - c.ringPos a) % max 1 c.rnd.ringSize
/-- Modules on the hops between two modules, in the direction with fewer hops, a tie East. -/
def Chip.between (c : Chip) (a b : Nat) : List Nat :=
  let ks := c.rnd.id :: (c.rnd.peers.map (fun e => e.1)).filter (fun k => k != c.rnd.id)
  if c.eastOf a b ≤ c.eastOf b a then ks.filter (fun k => decide (0 < c.eastOf a k ∧ c.eastOf a k < c.eastOf a b))
  else ks.filter (fun k => decide (0 < c.eastOf k a ∧ c.eastOf k a < c.eastOf b a))
/-- Cost entries of a sub-pipeline's stages that reserve bandwidth, each with the stage's first candidate panel. -/
def Chip.pipelineCosts (c : Chip) (pipeline : Nat) : List (CostEntry × Nat) :=
  match c.pat.pattern, c.stream? pipeline with
  | some p, some sd =>
    ((List.range sd.stages.length).zip sd.stages).filterMap (fun x =>
      (p.costs.find? (fun e => e.pipeline == pipeline && e.stage == x.1 && !e.beOnly)).map (fun e => (e, x.2.candidates.headD 0)))
  | _, _ => []
/-- Reservations on the paths of a member's sub-pipeline by the cost table: ROUND towards the module its outputs go to in Guaranteed class,
BULK on the path of the store its charts fetch from (R60, R256). -/
def Chip.pipelinePaths (c : Chip) (pipeline : Nat) : List (Nat × Nat × Nat) :=
  (c.pipelineCosts pipeline).flatMap (fun e =>
    (match (c.stream? pipeline).bind (fun sd => sd.sendTo) with | some d => if e.1.round = 0 then [] else [(d, e.1.round, 0)] | none => []) ++
    (match c.storeOf e.2 with | some d => if e.1.bulk = 0 then [] else [(d, 0, e.1.bulk)] | none => []))
/-- Bandwidth each module between two others of the garment carries: (module, destination, Guaranteed MB/s, RESV Bulk MB/s). -/
def Chip.hopLoads (c : Chip) (r : Req) (ms : List Member) : List (Nat × Nat × Nat × Nat) :=
  if r.guaranteed then ms.flatMap (fun m => (c.pipelinePaths m.pipeline).flatMap (fun e => (c.between m.module e.1).map (fun k => (k, e)))) else []
/-- What a module must carry for others. -/
def loadsOf (l : List (Nat × Nat × Nat × Nat)) (k : Nat) : List (Nat × Nat × Nat) := (l.filter (fun e => e.1 == k)).map (fun e => e.2)

/-! ### RESERVE (log 53) -/

/-- Payload of RESERVE: the descriptor, the recipient's own part, what it carries for others, the members. -/
def reserveBytes (d : List Byte) (part : Option Member) (path : List (Nat × Nat × Nat)) (members : List Nat) : List Byte :=
  ((d ++ zeros 64).take 64) ++
  (match part with
   | some m => leBytes 1 1 ++ leBytes 2 m.pipeline ++ leBytes 4 m.deadline
   | none => leBytes 1 0 ++ leBytes 2 0 ++ leBytes 4 0) ++
  leBytes 1 path.length ++ path.flatMap (fun e => leBytes 2 e.1 ++ leBytes 4 e.2.1 ++ leBytes 4 e.2.2) ++ leBytes 1 members.length ++ members.flatMap (leBytes 2)
/-- The path that a RESERVE asks its recipient to carry. -/
def reservePath (b : List Byte) : List (Nat × Nat × Nat) :=
  (List.range (le b 71 1)).map (fun i => (le b (72 + 10 * i) 2, le b (74 + 10 * i) 4, le b (78 + 10 * i) 4))
/-- The members that a RESERVE lists. -/
def reserveMembers (b : List Byte) : List Nat :=
  (List.range (le b (72 + 10 * le b 71 1) 1)).map (fun i => le b (73 + 10 * le b 71 1 + 2 * i) 2)
/-- Whether a garment ID is live, held or being decided here. -/
def Chip.garmentBusy (c : Chip) (g : Nat) : Bool :=
  c.cast.tickets.any (fun t => t.garment == some g) || c.cast.holds.any (fun h => h.garment == g) || c.cast.hops.any (fun h => h.garment == g) ||
  c.cast.leads.any (fun l => l.garment == g)
/-- What a module that lies only between members holds: Round bandwidth. -/
def hopTicket (g lead : Nat) (path : List (Nat × Nat × Nat)) : Ticket :=
  { id := 0, fn := 0, guaranteed := true, outVideo := false, outCramar := false, srcRound := true, pipeline := 0, codec := 0, level := 0,
    profile := 0, queue := 0, maxW := 0, maxH := 0, rateNum := 0, rateDen := 0, kbps := 0, deadlineUs := 0, quota := 0, priority := 0,
    garment := some g, lead := lead, members := [], placed := [], contexts := [], markers := [], roundPath := path, power := 0 }
/-- A garment member's part judged: the reason, and what would be held (R59, step 3). -/
def Chip.judgePart (c : Chip) (r : Req) (m : Member) (lead : Nat) (members : List Nat) (path : List (Nat × Nat × Nat)) : Verdict ⊕ Ticket :=
  match c.judge { r with deadline := m.deadline } m.pipeline path with
  | .inl v => .inl v
  | .inr ps =>
    if c.garmentBusy r.garment then .inl ((refuse 0x0012 c.rnd.id).chosen ps)
    else
      let t := c.makeTicket 0 { r with deadline := m.deadline } m.pipeline (some r.garment) lead members ps
      .inr { t with roundPath := t.roundPath ++ path }
/-- An ANSWER to the lead. -/
def Chip.sendAnswer (c : Chip) (lead g reason : Nat) : Chip := { c with rnd := c.rnd.sendControl c.now lead 0x0005 0 g (leBytes 2 reason) }
/-- A part held for 10 ms from the answer, its markers taken. -/
def Chip.holdPart (c : Chip) (g : Nat) (hop : Bool) (t : Ticket) : Chip :=
  let d := c.holdMarkers t 0
  { d with cast := { d.cast with holds := d.cast.holds ++ [{ garment := g, expires := c.now + usTicks 10000, hop := hop, ticket := t }] } }
/-- RESERVE (R59): Table 3.3 on this module's part, a hold, an answer; the part is fed over the Round (log 53). -/
def Chip.gReserve (c : Chip) (f : RFrame) : Chip :=
  let b := f.payload.drop 2
  let r := Req.of b
  if c.closed then c.sendAnswer f.src f.garment 0x0002
  else if le b 64 1 = 0 then
    (match firstOf [c.roundCheck .east (reservePath b), c.roundCheck .west (reservePath b)] with
     | some v => c.sendAnswer f.src f.garment v.reason
     | none =>
       if c.garmentBusy f.garment then c.sendAnswer f.src f.garment 0x0012
       else (c.holdPart f.garment true (hopTicket f.garment f.src (reservePath b))).sendAnswer f.src f.garment 0)
  else
    match c.judgePart { r with garment := f.garment } { module := c.rnd.id, deadline := le b 67 4, pipeline := le b 65 2 } f.src (reserveMembers b) (reservePath b) with
    | .inl v => c.sendAnswer f.src f.garment v.reason
    | .inr t => (c.holdPart f.garment false { t with srcRound := true }).sendAnswer f.src f.garment 0

/-! ### The order of requests (R45) -/

/-- Whether a function's request can be read: Bus Master Enable is set and the function in D0 (R41, R287, R291). -/
def Chip.bellReads (c : Chip) (fn : Nat) : Bool := c.unread fn && (c.pcie.fn fn).bme && !(c.pcie.fn fn).d3hot
/-- The doorbell whose request is taken next: the oldest whose request can be read. -/
def Chip.firstBell (c : Chip) : Option Nat :=
  (c.cast.order.filterMap (fun a => match a with | .bell k => some k | .peer _ => none)).find? c.bellReads
/-- Whether a function's request is the one that is taken next (R45). -/
def Chip.requested (c : Chip) (fn : Nat) : Bool := c.bellReads fn && c.firstBell.getD fn == fn
/-- RESERVEs taken that no older doorbell holds back; doorbells answered since leave the order. -/
def Chip.serve : List Ask → List Ask → Chip → Chip
  | [], kept, c => { c with cast := { c.cast with order := kept } }
  | .bell k :: l, kept, c =>
    if c.bellReads k then { c with cast := { c.cast with order := kept ++ .bell k :: l } }
    else Chip.serve l (if c.unread k then kept ++ [.bell k] else kept) c
  | .peer f :: l, kept, c => Chip.serve l kept (c.gReserve f)
/-- The order after a request was decided or dropped. -/
def Chip.nextAsk (c : Chip) : Chip := Chip.serve c.cast.order [] c
/-- RESERVE in its turn: behind the doorbells that came before it. -/
def Chip.reserveAsk (c : Chip) (f : RFrame) : Chip :=
  Chip.nextAsk { c with cast := { c.cast with order := c.cast.order ++ [.peer f] } }
/-- A request's command: nothing unless the function's request is next (R41, R45), else the read and what `f` makes of the descriptor. -/
def Chip.request (c : Chip) (fn : Nat) (d : HostRead) (f : Chip → Req → Chip) : Chip :=
  if c.requested fn then
    (match d with | .data b => f (c.castRead fn d) (Req.of b) | _ => c.castRead fn d).nextAsk
  else c
/-- A request's command where its decision writes memory. -/
def requestM (fn : Nat) (d : HostRead) (f : Req → Chip × Mem → Chip × Mem) (c : Chip × Mem) : Chip × Mem :=
  if c.1.requested fn then
    let e := match d with | .data b => f (Req.of b) (c.1.castRead fn d, c.2) | _ => (c.1.castRead fn d, c.2)
    (e.1.nextAsk, e.2)
  else c
/-- CAST_ON (R46). -/
def execCastOn (fn : Nat) (d : HostRead) (s : State) : Host.Outcome State Fault Refusal :=
  .next { s with chip := s.chip.request fn d (fun c r => c.castOn fn r) }

end Sys2Proof.Machine
end

