-- ==== Sys2Proof/Machine/Stream.lean ====
section
/-!
DEFINITION. A stream's frames (ch. 1, 8): the input filter, arrival, which work of a frame is done, voiding, and what a
submission's records are reserved for.
-/
namespace Sys2Proof.Machine

/-! ### Stages of a ticket -/

/-- The placed stage of a kind. -/
def Ticket.kindStage (t : Ticket) (k : StageKind) : Option Placed := t.placed.find? (fun p => p.kind == k)
/-- First context of a stage of a kind; the ticket's first where there is none. -/
def Ticket.kindContext (t : Ticket) (k : StageKind) : Nat :=
  ((t.kindStage k).bind (fun p => p.contexts.head?)).getD (t.contexts.headD 0)
/-- Marker map index of the field release marker (R175): the first after the stages' (log 42). -/
def Ticket.releaseIdx (t : Ticket) : Nat := t.placed.length
/-- Whether the ticket's outputs hold video: OUT_VIDEO and an encode stage. -/
def Ticket.video (t : Ticket) : Bool := t.outVideo && (t.kindStage .encode).isSome
/-- Number of a frame's work in a stage, counted from 0; none where the stage does no work for it. -/
def stageOrdinal (f : FrameRt) (p : Placed) : Option Nat :=
  match p.kind with
  | .frameGen => if f.order = 0 then none else some (f.order - 1)
  | .analysis => f.anIdx
  | .adapt => none
  | .encode => none
  | _ => some f.order
/-- Whether a stage's marker counts a frame's work in full (R18). -/
def Chip.stageDone (c : Chip) (t : Ticket) (p : Placed) (f : FrameRt) : Bool :=
  match stageOrdinal f p with
  | none => true
  | some k => decide ((k + 1) * p.perFrame ≤ c.mapCount t p.stage)
/-- The stage whose hand-off the encoder, or the frame's record, waits for: for SUB 0 the last stage that makes the source
picture, for a generated frame frame generation. -/
def Ticket.feed (t : Ticket) (sub : Nat) : Option Placed :=
  if sub = 0 then (t.placed.filter (fun p => p.kind == .decode || p.kind == .superRes || p.kind == .other)).getLast?
  else t.kindStage .frameGen
/-- Whether an output's picture is complete: the feeding stage's marker counts it (R18); a repeat takes the picture of SUB 0. -/
def Chip.outReady (c : Chip) (t : Ticket) (o : Out) : Bool :=
  match t.feed (if o.rep || o.degraded then 0 else o.sub) with
  | none => true
  | some p => decide ((if p.kind = .frameGen then o.order else o.order + 1) * p.perFrame ≤ c.mapCount t p.stage)
/-- A live ticket's frame. -/
def Ticket.frame? (t : Ticket) (source : Nat) : Option FrameRt := t.frames.find? (fun f => f.source == source)
/-- A frame changed. -/
def Ticket.updFrame (t : Ticket) (source : Nat) (f : FrameRt → FrameRt) : Ticket :=
  { t with frames := t.frames.map (fun x => if x.source = source then f x else x) }
/-- Stages that consume a stage's work for a frame, itself included (R348). -/
def Ticket.downstream (t : Ticket) (stage : Nat) : List Nat :=
  match t.placed.find? (fun p => p.stage == stage) with
  | none => []
  | some p =>
    match p.kind with
    | .analysis => [stage]
    | .adapt => [stage]
    | _ => (t.placed.filter (fun q => decide (stage ≤ q.stage) && q.kind != .adapt && (q.kind != .analysis || p.kind == .decode))).map (fun q => q.stage)
/-- CQ records reserved and no longer needed are returned, for a ticket fed over PCI Express (R278). -/
def Chip.giveBack (c : Chip) (t : Ticket) (n : Nat) : Chip :=
  { c with queues := if t.srcRound then c.queues else Tbl.upd {} c.queues t.queue (fun q => { q with reserved := q.reserved - n }) }
/-- CQ records a ticket still has reserved: one for each output, skip, record unit, event of adaptation and detection to come, three
for each sample of the step, and the spare ones. -/
def Ticket.reserved (t : Ticket) : Nat :=
  t.outs.length + t.skips.length + t.spare +
  (if t.outCramar then (t.frames.filter (fun f => f.detDue)).length + t.units.length + t.adapt.events.length + 3 * t.adapt.samples.length else 0)
/-- A live ticket changed; the reservations it no longer needs are returned. -/
def Chip.reTicket (c : Chip) (t u : Ticket) : Chip :=
  Chip.giveBack { c with cast := c.cast.updTicket t.id (fun _ => u) } t (t.reserved - u.reserved)

/-! ### The input filter (R163 to R167) -/

/-- T_ticks (R164). -/
def Ticket.period (t : Ticket) : Nat := 25000000 * t.rateDen / t.rateNum
/-- Luma samples of a submission's decoded frames (R166). -/
def picSamples (p : PicInfo) : Nat := p.frames.foldl (· + ·) 0
/-- Whether Table 8.5 refuses a tool for a codec. -/
def toolRefused (codec : Nat) : Tool → Bool
  | .fieldPicture => codec == 1
  | .mbaff => codec == 1
  | .fieldSeq => codec == 2
  | .largeScaleTile => codec == 4
/-- Whether a refused tool is signalled at sequence level (R167). -/
def toolAtSequence (p : PicInfo) : Tool → Bool
  | .fieldPicture => false
  | .mbaff => true
  | .fieldSeq => true
  | .largeScaleTile => p.faultAt == .sequence
/-- Width of the ticket's decode stage. -/
def Ticket.decodeWidth (t : Ticket) : Nat := ((t.kindStage .decode).map (fun p => p.width)).getD 1
/-- Priced picture size L of the ticket's level. -/
def Ticket.levelSize (t : Ticket) : Nat := ((levelRow t.codec t.level).map (fun r => r.size)).getD 0
/-- Limit of the ticket's level on reference count and decoded picture buffer size for a picture (check 5). -/
def Ticket.dpbLimit (t : Ticket) (p : PicInfo) : Nat := ((levelRow t.codec t.level).map (fun r => Machine.dpbLimit r t.codec p.width p.height)).getD 0
/-- Whether a picture is a random-access point: by itself, or as the recovery point of a gradual decoding refresh (R162; log 124). -/
def Ticket.isRap (t : Ticket) (p : PicInfo) : Bool := p.rap || (t.codec == 5 && (p.gdr == some 0 || t.dec.gdr == some 1))
/-- Submissions left to the recovery point once one more has been refused (R162; log 124). -/
def Ticket.gdrNext (t : Ticket) (p : Option PicInfo) : Option Nat :=
  match t.dec.gdr, p.bind (fun q => if t.codec = 5 then q.gdr else none) with
  | some k, _ => if k ≤ 1 then none else some (k - 1)
  | none, n => n
/-- Checks 3 to 9 (Table 8.6): skip reason and whether the stream then waits for a random-access point (R167). -/
def Ticket.headerCheck (t : Ticket) (p : PicInfo) : Option (Nat × Bool) :=
  match p.syntaxBad, profileRow t.codec t.profile with
  | some l, _ => some (0x03, l == .sequence)
  | none, none => some (0x04, p.faultAt == .sequence)
  | none, some row =>
    if p.codec ≠ t.codec ∨ !row.accepts.contains p.profile then some (0x04, p.faultAt == .sequence)
    else if t.level < p.level then some (0x05, p.faultAt == .sequence)
    else if t.dpbLimit p < p.refs ∨ t.dpbLimit p < p.dpb then some (0x05, p.dpbAt == .sequence)
    else if !row.depths.contains p.depth ∨ !row.chromas.contains p.chroma then some (0x06, p.faultAt == .sequence)
    else if p.tools.any (toolRefused t.codec) then some (0x07, (p.tools.filter (toolRefused t.codec)).any (toolAtSequence p))
    else if t.maxW < p.width ∨ t.maxH < p.height ∨ p.width < 16 ∨ p.height < 16 ∨ t.levelSize < picSamples p then some (0x08, false)
    else if ceilDiv t.levelSize t.decodeWidth < (splitLoads p.split t.decodeWidth).foldl max 0 then some (0x09, false)
    else none
/-- The filter (Table 8.6 and R167): RATE and BITS first unless it is a sample, then the headers, then the wait for a
random-access point. -/
def Ticket.filter (t : Ticket) (now bytes : Nat) (sample : Bool) (p : PicInfo) : Option (Nat × Bool) :=
  if !sample && (match t.lastAcc with | none => false | some a => decide (now < a + t.period)) then some (0x01, false)
  else if !sample && decide (t.bucket < 8 * bytes) then some (0x02, false)
  else match t.headerCheck p with
    | some r => some r
    | none => if !sample && t.waitRap && !t.isRap p then some (0x0A, false) else none

/-! ### Arrival (R10, R163 to R168, R198) -/

/-- Bytes of a unit's parts. -/
def partBytes (ps : List UnitPart) : Nat := ps.foldl (fun a p => a + p.bytes) 0
/-- The access unit that parts in hanks hold. -/
def unitBytes (m : Mem) (ps : List UnitPart) : List Byte := ps.flatMap (fun p => hankRead m p.hanks 0 p.bytes)

/-- PTS of generated frame `j` of `k` between two frames (R198), in unsigned 64-bit arithmetic. -/
def genPts (k j a b : Nat) : Nat :=
  if b < a then a else (a + j * (b - a) % 18446744073709551616 / (k + 1)) % 18446744073709551616
/-- A generated frame's output before a new submission. -/
def genOut (source order arrival : Nat) (rep : Bool) (k a b : Nat) (look : Look) (j : Nat) : Out :=
  { source := source, sub := j, order := order, state := .waiting, arrival := arrival, pts := genPts k j a b, rep := rep, key := false, look := look }
/-- Colours of the stream's last output to come (R183). -/
def Ticket.look (t : Ticket) : Look := ((t.outs.getLast?).map (fun o => o.look)).getD (((t.frames.getLast?).map (fun f => f.pic.look)).getD {})
/-- Outputs of the interval before a new submission: FG_K generated frames after the last submission, if any accepted frame
exists (R197, R198; log 43). -/
def Ticket.interval (t : Ticket) (k order arrival pts : Nat) (rep : Bool) (look : Look) : List Out :=
  match t.lastSub with
  | none => []
  | some (s, a) =>
    if t.nextOrder = 0 then []
    else (List.range k).map (fun i => { genOut s (if rep then t.nextOrder - 1 else order) arrival rep k a pts look (i + 1) with
      adapter := match t.begun with | some (n, v) => if rep ∧ n + 1 = t.nextOrder then v else 0 | none => 0 })
/-- Whether the interval before an accepted picture repeats: a key picture, or a predecessor that was refused (R197). -/
def Ticket.intervalStill (t : Ticket) (p : PicInfo) : Bool :=
  p.keyPic || (match t.lastSub with | some (s, _) => t.lastSource != some s | none => true)
/-- The ticket after a refused submission. -/
def Ticket.refuse (t : Ticket) (k now pts : Nat) (hs : List Nat) (p : PicInfo) (why : Nat × Bool) : Ticket :=
  { t with
    nextSource := t.nextSource + 1
    waitRap := t.waitRap || why.2
    skips := t.skips ++ [{ source := t.nextSource, reason := why.1, arrival := now, pts := pts, hanks := hs }]
    outs := t.outs ++ t.interval k 0 now pts true t.look
    dec := { t.dec with gdr := t.gdrNext (if why.1 = 0x0A then some p else none) }
    spare := if t.lastSub.isNone then t.spare + k else t.spare
    prevPts := t.lastSub.map (fun e => e.2)
    lastSub := some (t.nextSource, pts) }
/-- Whether a source frame is analysed (R200). -/
def Ticket.analyses (t : Ticket) (sd : StreamDef) (source : Nat) : Bool :=
  (t.kindStage .analysis).isSome && source % max 1 sd.anEvery == 0
/-- The frame an accepted submission becomes. -/
def Ticket.newFrame (t : Ticket) (sd : StreamDef) (now pts : Nat) (ps : List UnitPart) (p : PicInfo) (still : Bool) : FrameRt :=
  { source := t.nextSource, order := t.nextOrder, arrival := now, pts := pts, pic := p, parts := ps, still := still,
    detDue := t.analyses sd t.nextSource, anIdx := if t.analyses sd t.nextSource then some t.nextAn else none }
/-- The ticket after an accepted submission; presentation order is the order of submission, whatever its PTS (R12; log 133). -/
def Ticket.accept (t : Ticket) (sd : StreamDef) (now pts : Nat) (key : Bool) (ps : List UnitPart) (p : PicInfo) : Ticket :=
  { t with
    nextSource := t.nextSource + 1
    nextOrder := t.nextOrder + 1
    nextAn := if t.analyses sd t.nextSource then t.nextAn + 1 else t.nextAn
    lastAcc := some now
    lastSource := some t.nextSource
    bucket := t.bucket - 8 * partBytes ps
    waitRap := false
    voided := if t.intervalStill p then t.voided ++ (t.kindStage .frameGen).elim [] (fun q => [(q.stage, t.nextOrder)]) else t.voided
    frames := t.frames ++ [t.newFrame sd now pts ps p (t.intervalStill p)]
    outs := t.outs ++ t.interval sd.fgK t.nextOrder now pts (t.intervalStill p) p.look ++
      [{ source := t.nextSource, sub := 0, order := t.nextOrder, state := .waiting, arrival := now, pts := pts, rep := false, key := key, look := p.look }]
    dec := { t.dec with gdr := none }
    spare := if t.lastSub.isNone then t.spare + sd.fgK else t.spare
    prevPts := t.lastSub.map (fun e => e.2)
    lastSub := some (t.nextSource, pts) }
/-- CQ records of a submission's reservation that it cannot use (R278): those of an interval that makes no frames, and the
detection's where none is due or returned. -/
def Ticket.unusable (t : Ticket) (sd : StreamDef) (accepted : Bool) : Nat :=
  (if t.lastSub.isSome && t.nextOrder == 0 then sd.fgK else 0) +
  (if accepted && t.outCramar && t.analyses sd t.nextSource then 0 else 1)
/-- An access unit arrives at the filter (R10, R163): refused with a skip record, or a frame in flight. -/
def Chip.arriveUnit (c : Chip) (t : Ticket) (ps : List UnitPart) (pts : Nat) (key : Bool) (p : PicInfo) : Chip :=
  match c.stream? t.pipeline with
  | none => c
  | some sd =>
    let why := if (t.kindStage .decode).isSome then t.filter c.now (partBytes ps) false p else none
    let d := c.giveBack t (t.unusable sd why.isNone)
    { d with
      cast := { d.cast.updTicket t.id (fun x => match why with
          | some w => x.refuse sd.fgK c.now pts (partHanks ps) p w
          | none => x.accept sd c.now pts key ps p) with arrived := d.cast.arrived.inc }
      vdec := match why with
        | some w => { d.vdec with refused := d.vdec.refused.inc, lastValid := true, lastCtx := t.kindContext .decode, lastReason := w.1 }
        | none => d.vdec }

/-! ### Hanks of a frame -/

/-- Hanks a frame holds are freed and leave the views of the ticket's contexts (R15, R280). -/
def Chip.freeHanks (c : Chip) (t : Ticket) (hs : List Nat) : Chip :=
  { c with
    hank := (t.contexts.foldl (fun k x => k.clearView x hs) c.hank).releaseAll hs
    cast := hs.foldl (fun k h => k.forget h) c.cast }

/-! ### Voiding (R348) -/

/-- Whether an output depends on a stage's work. -/
def Ticket.needs (t : Ticket) (o : Out) (stage : Nat) : Bool :=
  match t.placed.find? (fun p => p.stage == stage) with
  | none => false
  | some p =>
    match p.kind with
    | .analysis => false
    | .adapt => false
    | .frameGen => o.sub != 0 && !o.rep && !o.degraded
    | .encode => t.video
    | _ => true
/-- Outputs at the head that commit together: a coded group of HIER_g, or one output (R185); those on their way over the Round are
before it. -/
def Ticket.headGroup (t : Ticket) : List Out :=
  match t.outs.drop t.sentOuts with
  | [] => []
  | o :: l => if o.group ≤ 1 then [o] else o :: l.takeWhile (fun x => x.group == o.group)
/-- Whether an output is on its way over the Round. -/
def Ticket.onWire (t : Ticket) (o : Out) : Bool := (t.outs.take t.sentOuts).any (fun x => x.source == o.source && x.sub == o.sub)
/-- Whether an output is replaced by a skip record. -/
def Out.skip (o : Out) : Bool := match o.state with | .skipped _ _ => true | _ => false
/-- Number of the coded picture that an output is or becomes. -/
def EncState.number (e : EncState) (o : Out) : Option Nat :=
  match o.state with | .coding => some (e.coded + 1) | .ready => some o.after.coded | _ => none
/-- An earlier encoder state with the hanks that its buffers have been given since. -/
def EncState.withHanks (e now : EncState) : EncState :=
  { e with bufs := (e.bufs.zip now.bufs).map (fun x => if x.1.hanks.isEmpty then { x.1 with hanks := x.2.hanks } else x.1) }
/-- The encoder state after the last picture coded before number `n` (R188). -/
def Ticket.encBefore (t : Ticket) (n : Nat) : EncState :=
  (t.outs.filter (fun o => o.state == .ready && decide (o.after.coded < n))).foldl
    (fun e o => if e.coded < o.after.coded then o.after else e) t.encDone
/-- Outputs that enter no coded picture (R185, R188): the pictures coded since the first of them, or of its coded group, are coded again,
and the rest of that group singly. -/
def Ticket.rewind (t : Ticket) (gone : Out → Bool) : Ticket :=
  let groups := ((t.outs.filter gone).map (fun o => o.group)).filter (fun g => decide (1 < g))
  let broken := fun (o : Out) => gone o || groups.contains o.group
  match ((t.outs.filter broken).filterMap t.enc.number).min? with
  | none => { t with
      outs := t.outs.map (fun o => if groups.contains o.group then { o with group := 1 } else o)
      enc := if t.outs.any gone then { t.enc with skipped := true } else t.enc }
  | some n => { t with
      outs := t.outs.map (fun o =>
        let q := if groups.contains o.group then { o with group := 1 } else o
        if !gone o && (t.enc.number o).any (fun k => decide (n ≤ k)) then { q with state := .waiting, unit := [] } else q)
      enc := { (t.encBefore n).withHanks t.enc with skipped := true } }
/-- Outputs that a voided frame would have produced: replaced by a skip record each. -/
def Ticket.skips? (t : Ticket) (order stage : Nat) (o : Out) : Bool := o.order == order && t.needs o stage && !o.skip && !t.onWire o
/-- The ticket with those outputs replaced. -/
def Ticket.skipOuts (t : Ticket) (order stage reason : Nat) (shed : Bool) : Ticket :=
  let u := t.rewind (t.skips? order stage)
  { u with outs := u.outs.map (fun o => if t.skips? order stage o then { o with state := .skipped reason shed, unit := [] } else o) }
/-- Outputs that voiding replaces. -/
def Ticket.skipCount (t : Ticket) (order stage : Nat) : Nat := (t.outs.filter (t.skips? order stage)).length
/-- The work that needle stages pass over for a frame voided from a stage on (R348). -/
def Ticket.passes (t : Ticket) (f : FrameRt) (stage : Nat) : List (Nat × Nat) :=
  ((t.downstream stage).filter (fun s => t.placed.any (fun p => p.stage == s && !p.needles.isEmpty))).map (fun s => (s, f.order))
/-- The ticket with a frame voided from a stage on (R348). -/
def Ticket.voidFrame (t : Ticket) (f : FrameRt) (stage reason : Nat) (shed : Bool) : Ticket :=
  let u := (t.skipOuts f.order stage reason shed).updFrame f.source (fun x =>
    { x with lost := (x.lost ++ t.downstream stage).eraseDups
             detDue := x.detDue && !(t.downstream stage).any (fun s => (t.placed.find? (fun p => p.stage == s)).any (fun p => p.kind == .analysis)) })
  { u with voided := (u.voided ++ t.passes f stage).eraseDups }
/-- A core's jobs of some contexts ended (R176, R181): stored ones go, the one on it is abandoned at its segment's end. -/
def VCore.frog (k : VCore) (gone : Job → Bool) : VCore :=
  { k with job := k.job.map (fun j => if gone j then { j with abandon := true } else j), saved := k.saved.filter (fun j => !gone j) }
/-- Whether a lane codes an output that its ticket no longer codes. -/
def Ticket.uncoded (t : Ticket) (j : Job) : Bool :=
  j.ticket == t.id && !t.outs.any (fun o => o.source == j.source && o.sub == j.sub && o.state == .coding)
/-- Lanes of outputs that a ticket no longer codes, abandoned at the end of their segments (R181). -/
def Chip.uncode (c : Chip) (t : Ticket) : Chip :=
  { c with venc := { c.venc with cores := c.venc.cores.mapV (fun k => k.frog t.uncoded), waiting := c.venc.waiting.filter (fun j => !t.uncoded j) } }
/-- A frame voided from a stage on, with its skip records and counters (R188, R348); the detection's record is given back. -/
def Chip.voidFrame (c : Chip) (t : Ticket) (f : FrameRt) (stage reason : Nat) (shed : Bool) : Chip :=
  let u := t.voidFrame f stage reason shed
  let d := { c with
    cast := c.cast.updTicket t.id (fun _ => u)
    venc := if t.video then { c.venc with skipped := c.venc.skipped.add (t.skipCount f.order stage) } else c.venc
    rst := if shed then c.rst else { c.rst with voided := c.rst.voided.inc }
    tens := if shed then { c.tens with shed := c.tens.shed.inc } else c.tens }
  (d.giveBack t (t.reserved - u.reserved)).uncode u
/-- Whether the holder signals a stage's marker in a frame's place: it is voided there, or its generated frames are repeats. -/
def passesOver (f : FrameRt) (p : Placed) : Bool := f.lost.contains p.stage || (p.kind == .frameGen && f.still)
/-- The frame whose work a stage's marker counts next, and what is left of it. -/
def Chip.nextWork (c : Chip) (t : Ticket) (p : Placed) : Option (FrameRt × Nat) :=
  if p.perFrame = 0 then none
  else (t.frames.find? (fun f => stageOrdinal f p == some (c.mapCount t p.stage / p.perFrame))).map (fun f => (f, p.perFrame - c.mapCount t p.stage % p.perFrame))
/-- One marker signalled by the holder in a frame's place, in the order of the frames (R348; log 44). -/
def Chip.passOne (c : Chip) (t : Ticket) : Option Chip :=
  (t.placed.findSome? (fun p =>
    match c.nextWork t p with
    | some (f, n) => if passesOver f p then some (c.signalMap t p.stage n (p.contexts.headD 0)) else none
    | none => none))

end Sys2Proof.Machine
end

