-- ==== Sys2Proof/Machine/Output.lean ====
section
/-!
DEFINITION. Cramar records (R207 to R212), output units and their commit to the host or over the Round (R11, R12, R55, R257,
R282).
-/
namespace Sys2Proof.Machine

/-! ### Records -/

/-- Record header (Table 10.3). -/
def recHeader (type len16 ticket source sub : Nat) : List Byte :=
  leBytes 1 type ++ leBytes 1 1 ++ leBytes 2 len16 ++ leBytes 4 ticket ++ leBytes 4 source ++ leBytes 1 sub ++ leBytes 3 0
/-- A record of a type with its body, padded to 16 bytes and sized by its LENGTH. -/
def mkRec (type ticket source sub : Nat) (body : List Byte) : List Byte :=
  recHeader type (ceilDiv (16 + body.length) 16) ticket source sub ++ padTo 16 body
/-- FLAGS of a FRAME record (Table 10.4). -/
def frameFlags (t : Ticket) (o : Out) (late : Bool) : Nat :=
  let skip := match o.state with | .skipped _ _ => true | _ => false
  let shed := match o.state with | .skipped _ s => s | _ => false
  flag late 0 + flag skip 1 + flag (o.sub != 0) 2 + flag (o.rep && !skip) 3 + flag o.degraded 4 + flag o.throttled 5 + flag shed 6 +
  flag (t.video && !skip && o.roi.isNone) 7 + flag (t.video && !skip) 8 + flag o.changed 9 +
  flag (t.outCramar && !skip && !o.grain.isEmpty) 10
/-- FRAME record (Table 10.4). -/
def frameRec (t : Ticket) (o : Out) (commit : Nat) (late : Bool) : List Byte :=
  let reason := match o.state with | .skipped r s => if s then 0 else r | _ => 0
  let skip := match o.state with | .skipped _ _ => true | _ => false
  mkRec 0x01 t.id o.source o.sub
    (leBytes 8 o.arrival ++ leBytes 8 commit ++ leBytes 4 (frameFlags t o late) ++ leBytes 1 reason ++
     leBytes 1 (flag (o.degraded && (t.kindStage .superRes).isSome) 0 + flag (o.degraded && o.sub != 0) 1) ++
     leBytes 2 (if skip then 0 else o.conceal) ++ leBytes 4 (o.roi.getD 0xFFFFFFFF) ++ leBytes 2 o.roiCount ++ leBytes 2 0 ++
     leBytes 4 o.adapter ++ zeros 12)
/-- GRAIN record (R212). -/
def grainRec (ticket source : Nat) (g : List Byte) : List Byte := mkRec 0x04 ticket source 0 (leBytes 2 g.length ++ zeros 14 ++ g)
/-- Records of an output: FRAME, then GRAIN if it is returned (R208, R212). -/
def outRecs (t : Ticket) (o : Out) (commit : Nat) (late : Bool) : List Byte :=
  frameRec t o commit late ++ (if bit (frameFlags t o late) 10 then grainRec t.id o.source o.grain else [])
/-- FRAME record of a refused submission (R168). -/
def skipRec (t : Ticket) (k : Skip) (commit : Nat) (late : Bool) : List Byte :=
  frameRec t { source := k.source, sub := 0, order := 0, state := .skipped k.reason false, arrival := k.arrival, pts := k.pts,
               rep := false, key := false } commit late

/-! ### Transfers (R257) -/

/-- A buffer cut into payloads of at most 4,096 bytes with their OFFSETs, the first at `base`. -/
def payloads (base : Nat) (b : List Byte) : List (Nat × List Byte) :=
  (List.range (ceilDiv b.length 4096)).map (fun i => (base + 4096 * i, (b.drop (4096 * i)).take 4096))
/-- Frames of a transfer: payloads with increasing OFFSET, LAST on the last; a new one begins at `cut`. -/
def xferFrames (src : Nat) (cls : RClass) (dest ticket xfer arg garment : Nat) (resv : Bool) (cut : Nat) (b : List Byte) : List RFrame :=
  let ps := payloads 0 (b.take cut) ++ payloads cut (b.drop cut)
  let qs := if ps.isEmpty then [(0, [])] else ps
  ((List.range qs.length).zip qs).map (fun e => newFrame src 1 cls dest ticket xfer e.2.1 arg garment (e.1 + 1 == qs.length) resv e.2.2)
/-- Transfers not acknowledged yet. -/
def Rnd.openXfers (r : Rnd) : Nat := r.xout.length
/-- A transfer started: numbered, its frames queued by DIR, its hanks kept until XFER_ACK (R257). -/
def Rnd.startXfer (r : Rnd) (cls : RClass) (dest ticket garment arg : Nat) (resv : Bool) (hs : List Nat) (cut : Nat) (b : List Byte)
    (out : Option Sent) : Rnd :=
  let fs := xferFrames r.id cls dest (low32 ticket) r.nextXfer arg garment resv cut b
  { fs.foldl Rnd.launch r with
    nextXfer := (r.nextXfer + 1) % 4294967296
    xout := r.xout ++ [{ xfer := r.nextXfer, dest := dest, cls := cls, ticket := ticket, garment := garment, arg := arg, resv := resv,
                         hanks := hs, frames := fs, unsent := fs.length, leftAt := none, resent := false, output := out,
                         west := r.exit dest == some .west }] }
/-- A frame whose FRAME records at some places carry COMMIT and LATE as it leaves (R208; log 126). -/
def stamped (f : RFrame) (now : Nat) (stamps : List (Nat × Bool)) : RFrame :=
  let p := stamps.foldl (fun (b : List Byte) e =>
    b.take (e.1 + 0x18) ++ leBytes 8 now ++ leBytes 1 (le b (e.1 + 0x20) 1 / 2 * 2 + flag e.2 0) ++ b.drop (e.1 + 0x21)) f.payload
  if stamps.isEmpty then f else { f with payload := p, pcrc := payloadCrc p }

/-! ### Output units (R282) -/

/-- Tick after which an output is late: its arrival plus the deadline, for a guaranteed ticket (R55). -/
def Ticket.dueAt (t : Ticket) (arrival : Nat) : Option Nat := if t.guaranteed then some (arrival + usTicks t.deadlineUs) else none
/-- Whether an output that commits now is late; every guaranteed one while the crystal has failed (R38, R55). -/
def Chip.lateNow (c : Chip) (due : Option Nat) : Bool :=
  match due with | none => false | some d => decide (d < c.now) || c.gauge.crystalFail
/-- Module a ticket's outputs go to over the Round. -/
def Chip.sendsTo (c : Chip) (t : Ticket) : Option (Nat × Nat) :=
  match c.stream? t.pipeline with | none => none | some sd => sd.sendTo.map (fun d => (d, sd.sendArg))
/-- Bytes of a list hank: the number of data handles, then the handles (R282). -/
def listBytes (k : Hank) (fn : Nat) (data : List Nat) : List Byte :=
  leBytes 4 data.length ++ data.flatMap (fun h => leBytes 4 (k.handle fn h))
/-- Whether a unit can commit to the host now: Bus Master Enable, room in the CQ for a ticket fed over the Round, hanks. -/
def Chip.canCommit (c : Chip) (t : Ticket) (n : Nat) : Bool :=
  (c.pcie.fn t.fn).bme && (!t.srcRound || (c.queue t.queue).room != 0) && c.grantable t n
/-- An output that finds its CQ full is counted once in Q_CQ_WAIT (R278). -/
def Chip.countCqWait (c : Chip) (t : Ticket) : Chip :=
  { c with
    queues := if t.srcRound && (c.sendsTo t).isNone && (c.pcie.fn t.fn).bme && (c.queue t.queue).room == 0 && !t.cqWait then
        Tbl.upd {} c.queues t.queue (fun q => { q with cqWait := q.cqWait.inc }) else c.queues
    cast := c.cast.updTicket t.id (fun x => { x with cqWait := t.srcRound && (c.queue t.queue).room == 0 }) }
/-- A record written without a reservation, for a ticket fed over the Round, or against its reservation. -/
def Chip.cqCommit (c : Chip) (t : Ticket) (r : CqRec) : Chip := if t.srcRound then c.cqPut t.queue r else c.cqWrite t.queue r
/-- A unit committed to the host: hanks allocated to the host tag and filled, the list hank, the output record (R11, R282). -/
def commitHost (t : Ticket) (kind : Nat) (payload : List Byte) (bytes source pts : Nat) (due : Option Nat) (c : Chip × Mem) : Chip × Mem :=
  let n := max 1 (ceilDiv payload.length 0x4000)
  let hs := c.1.hank.next (n + 1)
  let late := c.1.lateNow due
  let d := { c.1 with
    hank := c.1.hank.alloc t.id (hostTag t.fn) (n + 1)
    cast := { c.1.cast with committed := c.1.cast.committed.inc, late := if late then c.1.cast.late.inc else c.1.cast.late } }
  let e := d.wrote (hs.map (fun h => (hankAddr h, 0x4000)))
  let list := hs.getLastD 0
  (e.cqCommit t { tag := 0xFFFF, status := stOk, kind := kind, ticket := t.id, source := source, list := e.hank.handle t.fn list,
                  bytes := bytes, pts := pts, late := late },
   hankWrite (hankWrite c.2 (hs.take n) 0 payload) [list] 0 (listBytes e.hank t.fn (hs.take n)))
/-- Class in which a ticket's frames and tokens travel over the Round (R20). -/
def Ticket.class (t : Ticket) : RClass := if t.guaranteed then .guaranteed else .bestEffort
/-- A unit sent over the Round in the ticket's class; it commits when its last frame leaves (R11, R20). Its records begin a frame of their
own. -/
def commitRound (t : Ticket) (dest arg : Nat) (video recs : List Byte) (out : Sent) (c : Chip × Mem) : Chip × Mem :=
  let payload := video ++ recs
  let n := max 1 (ceilDiv payload.length 0x4000)
  let hs := c.1.hank.next n
  let d := { c.1 with
    hank := c.1.hank.alloc t.id (ctxTag (t.contexts.headD 0)) n
    rnd := c.1.rnd.startXfer t.class dest t.id (t.garment.getD 0) arg false hs video.length payload (some out) }
  (d.wrote (hs.map (fun h => (hankAddr h, 0x4000))), hankWrite c.2 hs 0 payload)
/-- A unit committed to the host if it can be; none while it must wait for hanks, for CQ room or for Bus Master Enable. -/
def commitUnit (t : Ticket) (kind : Nat) (payload : List Byte) (bytes source pts : Nat) (due : Option Nat) (c : Chip × Mem) : Option (Chip × Mem) :=
  if c.1.canCommit t (max 1 (ceilDiv payload.length 0x4000) + 1) then some (commitHost t kind payload bytes source pts due c) else none
/-- A unit sent over the Round if it can be; none while it must wait for hanks or for one of the 4,096 transfers. -/
def sendUnit (t : Ticket) (dest arg : Nat) (video recs : List Byte) (out : Sent) (c : Chip × Mem) : Option (Chip × Mem) :=
  if c.1.grantable t (max 1 (ceilDiv (video ++ recs).length 0x4000)) && decide (c.1.rnd.openXfers < 4096) then some (commitRound t dest arg video recs out c)
  else none

/-! ### Committing in order (R12, R16) -/

/-- Positions of a mini-GOP between two coded ones, middle first. -/
def betweenOrder : Nat → Nat → Nat → List Nat
  | 0, _, _ => []
  | fuel + 1, lo, hi => if hi ≤ lo + 1 then [] else (lo + hi) / 2 :: (betweenOrder fuel lo ((lo + hi) / 2) ++ betweenOrder fuel ((lo + hi) / 2) hi)
/-- Decoding order of a mini-GOP of `g` frames, positions from 1: the last first, then halves (R184, R185; log 45). -/
def groupOrder (g : Nat) : List Nat := if g = 0 then [] else g :: betweenOrder 4 0 g
/-- Whether an output is finished: encoded, skipped, or, without video, its picture complete. -/
def Chip.outDone (c : Chip) (t : Ticket) (o : Out) : Bool :=
  match o.state with
  | .ready => true
  | .skipped _ _ => true
  | .coding => false
  | .waiting => !t.video && c.outReady t o
/-- Whether an output waits for its frame's detection, which is to come or has not committed yet (R16, R211). -/
def Ticket.detBlocks (t : Ticket) (o : Out) : Bool :=
  t.video && o.sub == 0 &&
  ((match t.frame? o.source with | some f => f.detDue | none => false) || t.units.any (fun u => u.source == o.source && u.det.isSome))
/-- A temporal unit's delimiter (R183). -/
def temporalDelimiter : List Byte := [0x12, 0x00]
/-- The frame header OBU that shows a hidden frame of a slot (R184; log 123). -/
def showExisting (slot : Nat) : List Byte := [0x1A, 0x01] ++ leBytes 1 (0x88 + 16 * slot)
/-- AV1 slot that an output's picture holds once it is coded. -/
def Out.slot (o : Out) : Nat :=
  ((o.after.bufs.find? (fun b => match b.mark with | .short i => i == o.after.coded | .long i _ => i == o.after.coded | _ => false)).map (fun b => b.slot)).getD 0
/-- The temporal units of an AV1 group: frames in decoding order, `have_` those decoded, `next` the next to be shown; a frame that is next
is shown as it is decoded, a hidden one by a header of its own (R183, R184). -/
def temporalUnits (l : List Out) : List Nat → List Nat → Nat → List Byte → List Byte
  | [], _, _, open_ => open_
  | k :: ks, have_, next, open_ =>
    let b := (l[k - 1]?).elim [] (fun o => o.unit)
    if k = next then
      let run := ((List.range (l.length + 1)).filter (fun i => decide (next < i) && (List.range (i + 1)).all (fun m => decide (m ≤ next) || have_.contains m)))
      temporalDelimiter ++ open_ ++ b ++ run.flatMap (fun i => temporalDelimiter ++ (l[i - 1]?).elim [] (fun o => showExisting o.slot)) ++
        temporalUnits l ks have_ (next + 1 + run.length) []
    else temporalUnits l ks (k :: have_) next (open_ ++ b)
/-- A group's coded bytes in decoding order; in AV1 a temporal delimiter opens each temporal unit (R183, R185). -/
def groupUnit (av1 : Bool) (l : List Out) : List Byte :=
  let order := if l.length ≤ 1 then [1] else groupOrder l.length
  if av1 && l.any (fun o => !o.unit.isEmpty) then temporalUnits l order [] 1 [] else order.flatMap (fun k => (l[k - 1]?).elim [] (fun o => o.unit))
/-- Whether a ticket's video is AV1. -/
def Chip.codesAv1 (c : Chip) (t : Ticket) : Bool := match c.stream? t.pipeline with | some sd => sd.av1 | none => false
/-- Places of the FRAME records of some outputs from a byte on, with the tick after which each is late. -/
def stampsOf (t : Ticket) : List Out → Nat → List (Nat × Option Nat)
  | [], _ => []
  | o :: l, at_ => (at_, t.dueAt o.arrival) :: stampsOf t l (at_ + (outRecs t o 0 false).length)
/-- The head outputs committed (R11): they leave the line, the committed reference pool takes the state after them (R186), unused
reservations of a group are returned (R185, R278). -/
def Chip.headDone (c : Chip) (t : Ticket) (n : Nat) (skip : Bool) : Chip :=
  let l := t.outs.take n
  Chip.giveBack { c with
    cast := { c.cast.updTicket t.id (fun x => { x with
                outs := x.outs.drop n
                encDone := l.foldl (fun e o => if o.state = .ready ∧ e.coded < o.after.coded then o.after else e) x.encDone }) with
              skipped := if skip then c.cast.skipped.inc else c.cast.skipped } } t (n - 1)
/-- The track table with the entries of a ticket as its committed association leaves them (R204, R205). -/
def Tracks.commit (x : Tracks) (ticket : Nat) (l : List Track) : Tracks :=
  { live := x.live.filter (fun k => k.ticket != ticket) ++ l, gens := l.foldl (fun g k => Tbl.set g k.slot k.gen) x.gens }
/-- The first record unit committed: its regions are the encoder's from now, and the track table's copy of its frame comes into force
(R17, R205, R211). -/
def Chip.recsDone (c : Chip) (t : Ticket) : Chip :=
  match t.units with
  | [] => c
  | u :: _ => { c with
      tracks := match u.tracks with | some l => c.tracks.commit t.id l | none => c.tracks
      cast := c.cast.updTicket t.id (fun x => { x with units := x.units.drop 1, det := if u.det.isSome then u.det else x.det }) }
/-- The first skip record committed; its unit's hanks are freed then (R168, R280). -/
def Chip.skipDone (c : Chip) (t : Ticket) : Chip :=
  match t.skips with
  | [] => c
  | k :: _ => Chip.freeHanks { c with
      cast := { c.cast.updTicket t.id (fun x => { x with skips := x.skips.drop 1 }) with skipped := c.cast.skipped.inc } } t k.hanks
/-- What an output sent over the Round does as its last frame leaves (R11, R55): it is committed and counted, and late if it is so then. -/
def Chip.sentDone (c : Chip) (s : Sent) : Chip :=
  let late := c.lateNow s.due
  let d := { c with cast := { c.cast with committed := c.cast.committed.inc, late := if late then c.cast.late.inc else c.cast.late } }
  match d.ticket? s.ticket with
  | none => match s.kind with
    | .head _ true => { d with cast := { d.cast with skipped := d.cast.skipped.inc } }
    | .skip => { d with cast := { d.cast with skipped := d.cast.skipped.inc } }
    | _ => d
  | some t => match s.kind with
    | .head n skip => ({ d with cast := d.cast.updTicket t.id (fun x => { x with sentOuts := x.sentOuts - n }) }).headDone t n skip
    | .recs => ({ d with cast := d.cast.updTicket t.id (fun x => { x with sentRecs := x.sentRecs - 1 }) }).recsDone t
    | .skip => ({ d with cast := d.cast.updTicket t.id (fun x => { x with sentSkips := x.sentSkips - 1 }) }).skipDone t
/-- Frame whose picture an output shows. -/
def Ticket.sourceOf (t : Ticket) (o : Out) : Option FrameRt := t.frames.find? (fun f => f.order == o.order)
/-- Hanks of an output's picture: a generated one; else what enhancement makes of the frame, or the decoded picture where there is none
(R182, R196). -/
def Ticket.inputHanks (t : Ticket) (o : Out) : List Nat :=
  match t.sourceOf o with
  | none => []
  | some f =>
    if o.sub ≠ 0 ∧ !o.rep ∧ !o.degraded then f.genHanks.getD (o.sub - 1) []
    else if (t.kindStage .superRes).isSome ∨ (t.kindStage .other).isSome then f.upHanks else f.picHanks
/-- Bytes of an output's picture, or of the tokens that its stages make of it. -/
def Ticket.stageBytes (t : Ticket) (sd : StreamDef) (o : Out) : Nat :=
  match t.sourceOf o with
  | none => 0
  | some f =>
    if (t.kindStage .other).isSome then sd.sendBytes
    else if (t.kindStage .superRes).isSome then picSize sd.outW sd.outH f.pic.depth f.pic.chroma else pictureBytes f.pic
/-- What a stage without an encoder hands on over the Round for an output: its picture or its tokens (R20; log 131). -/
def Chip.stageData (c : Chip) (m : Mem) (t : Ticket) (o : Out) : List Byte :=
  match c.stream? t.pipeline with
  | none => []
  | some sd => if t.outVideo && !t.video && !o.skip then padTo 16 (hankRead m (t.inputHanks o) 0 (t.stageBytes sd o)) else []
/-- The head output, or coded group, committed to the host or sent over the Round if it can be. -/
def commitHead (t : Ticket) (c : Chip × Mem) : Option (Chip × Mem) :=
  let l := t.headGroup
  match l with
  | [] => none
  | o :: _ =>
    if l.all (c.1.outDone t) && !l.any t.detBlocks then
      let dues := l.map (fun x => t.dueAt x.arrival)
      let due := dues.foldl (fun a x => match a, x with | some p, some q => some (min p q) | _, _ => none) (t.dueAt o.arrival)
      let isVideo := t.video && !o.skip
      let unit := groupUnit (c.1.codesAv1 t) l
      let video := padTo 16 unit
      let recs := l.flatMap (fun x => outRecs t x c.1.now (c.1.lateNow (t.dueAt x.arrival)))
      match c.1.sendsTo t with
      | some (dest, arg) =>
        let base := 4096 * ((recs.length - 1) / 4096)
        let stamps := ((stampsOf t l 0).filter (fun e => decide (base ≤ e.1))).map (fun e => (e.1 - base, e.2))
        (sendUnit t dest arg (if isVideo then video else l.flatMap (c.1.stageData c.2 t)) recs { ticket := t.id, kind := .head l.length o.skip, due := due, stamps := stamps } c).map (fun d =>
          ({ d.1 with cast := d.1.cast.updTicket t.id (fun x => { x with sentOuts := x.sentOuts + l.length }) }, d.2))
      | none =>
        (commitUnit t (if isVideo then 1 else 2) (video ++ recs) (if isVideo then unit.length else recs.length) o.source o.pts due c).map (fun d =>
          (d.1.headDone t l.length o.skip, d.2))
    else none
/-- The first record unit committed to the host or sent over the Round if it can be. -/
def commitRecs (t : Ticket) (c : Chip × Mem) : Option (Chip × Mem) :=
  match t.units.drop t.sentRecs with
  | [] => none
  | u :: _ =>
    match c.1.sendsTo t with
    | some (dest, arg) => (sendUnit t dest arg [] u.recs { ticket := t.id, kind := .recs, due := u.due, stamps := [] } c).map (fun d =>
        ({ d.1 with cast := d.1.cast.updTicket t.id (fun x => { x with sentRecs := x.sentRecs + 1 }) }, d.2))
    | none => (commitUnit t 2 u.recs u.recs.length u.source u.pts u.due c).map (fun d => (d.1.recsDone t, d.2))
/-- The first skip record of a refused submission committed to the host or sent over the Round if it can be. -/
def commitSkip (t : Ticket) (c : Chip × Mem) : Option (Chip × Mem) :=
  match t.skips.drop t.sentSkips with
  | [] => none
  | k :: _ =>
    let due := t.dueAt k.arrival
    let b := skipRec t k c.1.now (c.1.lateNow due)
    match c.1.sendsTo t with
    | some (dest, arg) => (sendUnit t dest arg [] b { ticket := t.id, kind := .skip, due := due, stamps := [(0, due)] } c).map (fun d =>
        ({ d.1 with cast := d.1.cast.updTicket t.id (fun x => { x with sentSkips := x.sentSkips + 1 }) }, d.2))
    | none => (commitUnit t 2 b b.length k.source k.pts due c).map (fun d => (d.1.skipDone t, d.2))
/-- Everything of a ticket that can commit committed: record units, then outputs in presentation order (R12, R16). -/
def flush (ticket : Nat) : Nat → Chip × Mem → Chip × Mem
  | 0, c => c
  | k + 1, c =>
    match c.1.ticket? ticket with
    | none => c
    | some t =>
      match commitRecs t c with
      | some d => flush ticket k d
      | none => match commitHead t c with
        | some d => flush ticket k d
        | none => if t.units.isEmpty && !(t.headGroup.all (c.1.outDone t) && !t.headGroup.isEmpty) then c else (c.1.countCqWait t, c.2)
/-! ### Pictures no longer needed (R15, R241) -/

/-- Whether a frame's decode, or its voiding, is over. -/
def FrameRt.settled (f : FrameRt) : Bool := !f.decoding && (f.decoded || !f.lost.isEmpty)
/-- Whether stages of some kinds have passed a frame: their markers count it, and none of their operations for it is in flight. -/
def Chip.passedBy (c : Chip) (t : Ticket) (kinds : StageKind → Bool) (f : FrameRt) : Bool :=
  t.placed.all (fun p => !kinds p.kind || (c.stageDone t p f && !p.contexts.any (fun x => c.ctxWorks x f.order)))
/-- Whether frame generation has passed the interval after a frame, whose picture it reads, or there is none to come. -/
def Chip.intervalPassed (c : Chip) (t : Ticket) (f : FrameRt) : Bool :=
  match t.kindStage .frameGen with
  | none => true
  | some p => (decide ((f.order + 1) * p.perFrame ≤ c.mapCount t p.stage) && !p.contexts.any (fun x => c.ctxWorks x (f.order + 1))) ||
              (t.closing && f.order + 1 == t.nextOrder)
/-- Whether no output to come shows the frame itself. -/
def Ticket.shown (t : Ticket) (f : FrameRt) : Bool := !t.outs.any (fun o => o.order == f.order && (o.sub == 0 || o.rep || o.degraded))
/-- Whether enhancement makes another picture of a frame. -/
def Ticket.enhances (t : Ticket) : Bool := (t.kindStage .superRes).isSome || (t.kindStage .other).isSome
/-- Whether every reader of the decoded picture has passed it: analysis, enhancement, and where nothing enhances it frame generation and the
outputs (R15, R241). -/
def Chip.pictureDone (c : Chip) (t : Ticket) (f : FrameRt) : Bool :=
  f.settled && !f.detDue && c.passedBy t (fun k => k == .analysis || k == .superRes || k == .other || (k == .frameGen && !t.enhances)) f &&
  (t.enhances || (t.shown f && c.intervalPassed t f))
/-- Whether every reader of the enhanced picture has passed it. -/
def Chip.upDone (c : Chip) (t : Ticket) (f : FrameRt) : Bool :=
  f.settled && c.passedBy t (fun k => k != .analysis && k != .adapt) f && t.shown f && c.intervalPassed t f
/-- Whether the frames generated before a frame are out. -/
def Chip.genDone (c : Chip) (t : Ticket) (f : FrameRt) : Bool :=
  f.settled && c.passedBy t (· == .frameGen) f && !t.outs.any (fun o => o.order == f.order && o.sub != 0 && !o.rep && !o.degraded)
/-- Whether a frame's analysis is over. -/
def Chip.analysisDone (c : Chip) (t : Ticket) (f : FrameRt) : Bool := f.settled && !f.detDue && c.passedBy t (· == .analysis) f
/-- Hanks of a frame that nothing needs any longer. -/
def Chip.spent (c : Chip) (t : Ticket) (f : FrameRt) : List Nat :=
  (if f.settled then f.hanks else []) ++ (if c.pictureDone t f then f.picHanks else []) ++ (if c.upDone t f then f.upHanks else []) ++
  (if c.genDone t f then f.genHanks.flatMap id else []) ++ (if c.analysisDone t f then f.anHanks else [])
/-- The views of a stage without the buffers of a frame in which its part has ended; those of frame generation and of the encoder end with
the buffers (R227). -/
def Chip.clearPart (c : Chip) (t : Ticket) (f : FrameRt) (k : Hank) (p : Placed) : Hank :=
  if p.kind = .frameGen ∨ p.kind = .encode ∨ f.settled = false ∨ c.passedBy t (· == p.kind) f = false then k
  else p.contexts.foldl (fun k x => k.clearView x (f.picHanks ++ f.upHanks ++ f.anHanks)) k
/-- Every frame's views brought up to date. -/
def Chip.clearParts (c : Chip) (t : Ticket) : Chip :=
  { c with hank := t.frames.foldl (fun k f => t.placed.foldl (c.clearPart t f) k) c.hank }
/-- Frames whose work is over leave; the hanks of pictures no longer needed are freed (R15, R18). -/
def Chip.reap (c : Chip) (ticket : Nat) : Chip :=
  match c.ticket? ticket with
  | none => c
  | some t =>
    let d := (c.clearParts t).freeHanks t (t.frames.flatMap (c.spent t))
    { d with cast := d.cast.updTicket ticket (fun x => { x with
        frames := x.frames.filter (fun f =>
          !(c.pictureDone t f && c.upDone t f && c.genDone t f && c.analysisDone t f && t.placed.all (fun p => c.stageDone t p f))) }) }

/-- SKIP_RECORD_COMMIT (R168): within 100 µs of the refusal, in arrival order. -/
def execSkipRecordCommit (ticket : Nat) (s : State) : Host.Outcome State Fault Refusal :=
  .next (
    match s.chip.ticket? ticket with
    | none => s
    | some t =>
      match commitSkip t (s.chip, s.mem) with
      | none => s
      | some d => { s with chip := d.1, mem := d.2 })

end Sys2Proof.Machine
end

