-- ==== Sys2Proof/Machine/Adapt.lean ====
section
/-!
DEFINITION. In-loop adaptation (R213 to R222): samples and their cache, the order in which they run, optimiser steps,
publications, and the ADAPT records.
-/
namespace Sys2Proof.Machine

/-! ### The augmentation descriptor (Table 10.7) -/

/-- HFLIP. -/
def dHflip (d : List Byte) : Bool := bit (le d 2 2) 0
/-- VFLIP. -/
def dVflip (d : List Byte) : Bool := bit (le d 2 2) 1
/-- IN_CACHE. -/
def dInCache (d : List Byte) : Bool := bit (le d 2 2) 2
/-- TICKET. -/
def dTicket (d : List Byte) : Nat := le d 4 4
/-- SAMPLE_ID. -/
def dSample (d : List Byte) : Nat := le d 8 4
/-- EPOCH. -/
def dEpoch (d : List Byte) : Nat := le d 12 2
/-- ROTATE. -/
def dRotate (d : List Byte) : Nat := le d 14 1
/-- DOWN. -/
def dDown (d : List Byte) : Nat := le d 15 1
/-- CROP: x, y, width, height. -/
def dCrop (d : List Byte) (i : Nat) : Nat := le d (16 + 2 * i) 2
/-- GAIN. -/
def dGain (d : List Byte) : Nat := le d 24 2
/-- OFFSET. -/
def dOffset (d : List Byte) : Int := signed 16 (le d 26 2)
/-- NOISE. -/
def dNoise (d : List Byte) : Nat := le d 28 2
/-- SEED. -/
def dSeed (d : List Byte) : Nat := le d 32 4
/-- COST. -/
def dCost (d : List Byte) : Nat := le d 36 4
/-- BITS_ADDR. -/
def dBitsAddr (d : List Byte) : Nat := le d 40 8
/-- BITS_LEN. -/
def dBitsLen (d : List Byte) : Nat := le d 48 4
/-- Whether every field but those that need the picture lies in its range (Table 10.7). -/
def descOk (d : List Byte) (ticket : Nat) : Bool :=
  le d 0 2 == 1 && decide (le d 2 2 < 8) && dTicket d == ticket && decide (dRotate d < 4) && decide (2 ≤ dDown d ∧ dDown d ≤ 4) &&
  (List.range 4).all (fun i => dCrop d i % 2 == 0) && dCrop d 2 != 0 && dCrop d 3 != 0 && dCrop d 2 % (64 * dDown d) == 0 &&
  dCrop d 3 % (64 * dDown d) == 0 && decide (1 ≤ dGain d ∧ dGain d ≤ 16384) && le d 30 2 == 0 && dCost d != 0 &&
  (!dInCache d || dBitsAddr d == 0) && le d 52 4 == 0 && le d 56 8 == 0
/-- Whether CROP lies within the picture. -/
def cropOk (d : List Byte) (p : PicInfo) : Bool :=
  decide (dCrop d 0 + dCrop d 2 ≤ p.width) && decide (dCrop d 1 + dCrop d 3 ≤ p.height)

/-! ### Target and input (R216) -/

/-- Column and row of the crop that place (x, y) of the turned image shows: flips first, then quarter turns clockwise. -/
def turned (rot w h : Nat) (hf vf : Bool) (x y : Nat) : Nat × Nat :=
  let p := if rot = 0 then (x, y) else if rot = 1 then (y, h - 1 - x) else if rot = 2 then (w - 1 - x, h - 1 - y) else (w - 1 - y, x)
  (if hf then w - 1 - p.1 else p.1, if vf then h - 1 - p.2 else p.2)
/-- A sample through GAIN and OFFSET, clamped to 10 bits. -/
def toneMap (gain : Nat) (offset : Int) (x : Nat) : Nat := (max 0 (min 1023 ((rneDiv (x * gain) 4096 : Nat) + offset))).toNat
/-- A plane of the target: `w` × `h` samples of a plane of the picture from (x0, y0). -/
def targetPlane (d : List Byte) (depth : Nat) (p : List (List Nat)) (x0 y0 w h : Nat) : List (List Nat) :=
  let flat := dRotate d % 2 = 0
  mkPlane (if flat then w else h) (if flat then h else w) (fun x y =>
    let q := turned (dRotate d) w h (dHflip d) (dVflip d) x y
    toneMap (dGain d) (dOffset d) (toDepth depth 10 (sampleOf p (x0 + q.1) (y0 + q.2))))
/-- The target: crop, flips, rotation, tone, in 10-bit range. -/
def target (d : List Byte) (p : Picture) : Picture :=
  let sx := if p.chroma = .c444 then 1 else 2
  let sy := if p.chroma = .c420 then 2 else 1
  let flat := dRotate d % 2 = 0
  { width := if flat then dCrop d 2 else dCrop d 3, height := if flat then dCrop d 3 else dCrop d 2, depth := 10, chroma := p.chroma
    luma := targetPlane d p.depth p.luma (dCrop d 0) (dCrop d 1) (dCrop d 2) (dCrop d 3)
    cb := if p.chroma = .c400 then [] else targetPlane d p.depth p.cb (dCrop d 0 / sx) (dCrop d 1 / sy) (dCrop d 2 / sx) (dCrop d 3 / sy)
    cr := if p.chroma = .c400 then [] else targetPlane d p.depth p.cr (dCrop d 0 / sx) (dCrop d 1 / sy) (dCrop d 2 / sx) (dCrop d 3 / sy) }
/-- A sample with its noise: the Box–Muller pair of draws 2i and 2i + 1 of the generator of R78 at SEED and step 0, times the standard
deviation (log 47). -/
def noisy (d : List Byte) (i x : Nat) : Nat :=
  let g := Config.boxMuller (draw (dSeed d) 0 (2 * i)) (draw (dSeed d) 0 (2 * i + 1))
  (max 0 (min 1023 ((x : Int) + rneInt ((dNoise d : Int) * g) (256 * 65536)))).toNat
/-- A plane with its noise, its first sample being element `base` of the input. -/
def noisyPlane (d : List Byte) (base w : Nat) (p : List (List Nat)) : List (List Nat) :=
  ((List.range p.length).zip p).map (fun r => ((List.range r.2.length).zip r.2).map (fun e => noisy d (base + w * r.1 + e.1) e.2))
/-- The input: the target scaled down by DOWN, plus the noise; its elements are those of luma, then Cb, then Cr (log 47). -/
def trainInput (d : List Byte) (t : Picture) : Picture :=
  let s := t.scale (t.width / dDown d) (t.height / dDown d)
  let cw := planeCols s.chroma s.width
  let n := s.width * s.height
  { s with luma := noisyPlane d 0 s.width s.luma, cb := noisyPlane d n cw s.cb, cr := noisyPlane d (n + cw * planeRows s.chroma s.height) cw s.cr }

/-! ### Events and ADAPT records (R221) -/

/-- ADAPT record (Table 10.8). -/
def adaptRec (ticket : Nat) (e : AdaptEv) : List Byte :=
  mkRec 0x03 ticket (e.source.getD (Config.noSource % 4294967296)) 0
    (leBytes 1 e.event ++ leBytes 1 e.reason ++ leBytes 2 e.epoch ++ leBytes 4 e.sample ++ leBytes 4 e.step ++ leBytes 4 e.version ++
     leBytes 4 e.loss ++ leBytes 4 e.elapsed ++ leBytes 2 e.list.length ++ zeros 6 ++ e.list.flatMap (leBytes 4))
/-- Whether an event still waits for the frame of its version. -/
def AdaptEv.open (e : AdaptEv) : Bool := e.event == 3 && e.source.isNone
/-- A record unit of an event. -/
def adaptUnit (ticket : Nat) (e : AdaptEv) : RecUnit :=
  { recs := adaptRec ticket e, source := e.source.getD (Config.noSource % 4294967296), pts := Config.recordPts ticket % 18446744073709551616, due := none }
/-- Events turned into record units in event order, up to the first that waits for its frame; none without OUT_CRAMAR. -/
def Ticket.drainEvents (t : Ticket) : Ticket :=
  { t with
    units := if t.outCramar then t.units ++ (t.adapt.events.takeWhile (fun e => !e.open)).map (adaptUnit t.id) else t.units
    adapt := { t.adapt with events := t.adapt.events.dropWhile (fun e => !e.open) } }
/-- An event reported. -/
def Ticket.report (t : Ticket) (event reason epoch sample loss elapsed : Nat) (l : List Nat) : Ticket :=
  Ticket.drainEvents { t with adapt := { t.adapt with events := t.adapt.events ++
    [{ event := event, reason := reason, epoch := epoch, sample := sample, step := t.adapt.steps, version := t.adapt.version, loss := loss,
       elapsed := min 4294967295 elapsed, list := l, source := if event = 3 then none else t.lastSource }] } }

/-! ### Samples (R215 to R218) -/

/-- Why a sample was dropped (Table 10.8). -/
inductive DropReason where
  | tooSlow | badDescriptor | notCached | filtered | aborted
deriving DecidableEq, Repr
/-- REASON of a drop. -/
def DropReason.code : DropReason → Nat
  | .tooSlow => 1 | .badDescriptor => 2 | .notCached => 3 | .filtered => 4 | .aborted => 5
/-- A sample's record of being dropped. -/
def Ticket.reportDrop (t : Ticket) (now : Nat) (s : Sample) (why : DropReason) : Ticket :=
  t.report 2 why.code s.epoch s.id 0 ((now - s.accepted) / 25) []
/-- A sample dropped (R218). -/
def Ticket.dropSample (t : Ticket) (now : Nat) (s : Sample) (why : DropReason) : Ticket :=
  Ticket.reportDrop { t with adapt := { t.adapt with samples := t.adapt.samples.erase s } } now s why
/-- A decoded picture in the cache. -/
def Adapt.cached (a : Adapt) (id : Nat) : Option (PicInfo × List Nat) := (a.cache.find? (fun e => e.1 == id)).map (fun e => e.2)
/-- Hanks of the cache. -/
def Adapt.cacheSize (a : Adapt) : Nat := a.cache.foldl (fun k e => k + e.2.2.length) 0
/-- Whether a sample of the step uses a picture. -/
def Adapt.uses (a : Adapt) (id : Nat) : Bool := a.samples.any (fun s => s.id == id)
/-- Entries to evict, inserted earliest first, until `n` more hanks fit; those a sample uses stay (R215). -/
def Adapt.evicts (a : Adapt) (cap n : Nat) : List Nat :=
  (a.cache.foldl (fun (acc : Nat × List Nat) e =>
    if acc.1 + n ≤ cap ∨ a.uses e.1 = true then acc else (acc.1 - e.2.2.length, acc.2 ++ [e.1])) (a.cacheSize, [])).2
/-- Whether `n` hanks fit after evicting. -/
def Adapt.fits (a : Adapt) (cap n : Nat) : Bool :=
  decide (((a.cache.filter (fun e => !(a.evicts cap n).contains e.1)).foldl (fun k e => k + e.2.2.length) 0) + n ≤ cap)
/-- The ready sample that became ready first, the lower SAMPLE_ID on a tie (R217). -/
def Adapt.first (a : Adapt) : Option Sample :=
  a.samples.foldl (fun b s =>
    match s.state, b with
    | .ready x, some c => (match c.state with | .ready y => if x < y ∨ (x = y ∧ s.id < c.id) then some s else b | _ => some s)
    | .ready _, none => some s
    | _, _ => b) none
/-- Whether the adaptation context is free for another sample. -/
def Ticket.mayRun (t : Ticket) (sd : StreamDef) : Bool :=
  !t.adapt.stopped && decide (t.adapt.used.length < sd.accum) && !t.adapt.samples.any (fun s => s.state == .running)
/-- The next sample started if the context is free and no work is shed: its target and input are made from the cached picture (R216,
R217, R333). -/
def Chip.startSample (c : Chip) (m : Mem) (ticket : Nat) : Chip :=
  match c.ticket? ticket with
  | none => c
  | some t =>
    match c.stream? t.pipeline, t.adapt.first with
    | some sd, some s =>
      if t.mayRun sd && !c.tens.shedding then
        let y := (t.adapt.cached s.id).map (fun e => target s.desc (hankPicture m e.2 e.1.width e.1.height e.1.depth e.1.chroma))
        { c with cast := c.cast.updTicket ticket (fun x => { x with adapt := { x.adapt with
            samples := x.adapt.samples.map (fun q => if q = s then { q with state := .running } else q)
            target := y, input := y.map (trainInput s.desc) } }) }
      else c
    | _, _ => c
/-- A sample's picture decoded into the cache, in place of an older one of its SAMPLE_ID; the sample is ready (R215; log 51). -/
def Chip.cacheSample (c : Chip) (t : Ticket) (cap : Nat) (s : Sample) (hs : List Nat) : Chip :=
  let out := s.id :: t.adapt.evicts cap hs.length
  let d := c.freeHanks t ((t.adapt.cache.filter (fun e => out.contains e.1)).flatMap (fun e => e.2.2))
  { d with cast := d.cast.updTicket t.id (fun x => { x with adapt := { x.adapt with
      cache := x.adapt.cache.filter (fun e => !out.contains e.1) ++ [(s.id, s.pic, hs)]
      samples := x.adapt.samples.map (fun q => if q = s then { q with state := .ready c.now } else q) } }) }
/-- Ticks within which a sample's forward pass must start: 32 × COST / floor pace (R218). -/
def dropLimit (floor cost : Nat) : Nat := ceilDiv (32 * cost * 25) floor
/-- Whether a sample has not reached its commit point. -/
def Sample.open (s : Sample) : Bool := match s.state with | .decoding => true | .ready _ => true | _ => false
/-- A sample whose forward pass has not started in time dropped; its decode, if one runs, is abandoned (R218). -/
def Chip.sampleDropped (c : Chip) (ticket sample : Nat) : Chip :=
  match c.ticket? ticket with
  | none => c
  | some t =>
    match t.adapt.samples.find? (fun s => s.id == sample && s.open) with
    | none => c
    | some s =>
      let d := c.advance (s.accepted + dropLimit c.gauge.floor s.cost)
      let mine := fun (j : Job) => j.ticket == ticket && j.sub == 1 && j.source == sample
      let e := d.reTicket t (t.dropSample d.now s .tooSlow)
      { e with vdec := { e.vdec with
          ready := e.vdec.ready.filter (fun j => !mine j)
          cores := e.vdec.cores.mapV (fun k => { k with
            job := k.job.map (fun j => if mine j then { j with abandon := true } else j), saved := k.saved.filter (fun j => !mine j) }) } }

/-! ### Optimiser steps (R217, R219, R220) -/

/-- The running sample has run forward and backward. -/
def Ticket.sampleDone (t : Ticket) : Ticket :=
  { t with adapt := { t.adapt with
      used := t.adapt.used ++ (t.adapt.samples.filter (fun s => s.state == .running)).map (fun s => s.id)
      samples := t.adapt.samples.map (fun s => if s.state = .running then { s with state := .used } else s) } }
/-- The step's samples are over. -/
def Adapt.endStep (a : Adapt) : Adapt := { a with used := [], samples := a.samples.filter (fun s => s.state != .used) }
/-- Elements of a tensor in a format, packed and padded to 64 bytes. -/
def packTensor (f : Fmt) (codes : List Nat) : List Byte := padTo 64 (codes.flatMap (leBytes (f.bits / 8)))
/-- TRAIN_FMT. -/
def trainFmtOf (n : Nat) : Fmt := if n = 0 then .bf16 else if n = 1 then .e4m3 else .e5m2
/-- Values of a tensor's FP32 words. -/
def tensorVals (t : List Word) : List FVal := t.map (fun w => fp32.decode w.toNat)
/-- A tensor of the training copy, and its abs-max record once it is written: E4M3 and E5M2 in DELAYED mode; with stochastic rounding STEP
is the number of optimiser steps (R214, R83). -/
def trainTensor (sd : StreamDef) (step : Nat) (record : List Byte) (t : List Word) : List Byte × List Byte :=
  let f := trainFmtOf sd.trainFmt
  let vals := tensorVals t
  let round := fun (i : Nat) => match sd.trainSeed with | none => Rounding.nearest | some s => .stochastic (draw s step i)
  let scale := if f = .bf16 then 127 else delayedE8 f sd.trainMargin record
  let cs := ((List.range vals.length).zip vals).map (fun e => convert f 0 (round e.1) (.divide (e8Value scale)) e.2)
  (packTensor f (cs.map (fun x => x.code)),
   if f = .bf16 then record
   else amaxUpdate record (amaxOf vals) scale ((cs.filter (fun x => x.sat)).length) ((cs.filter (fun x => x.nonfin)).length))
/-- The training copy rewritten from the master copy, with its records (R217). -/
def Adapt.retrain (a : Adapt) (sd : StreamDef) : Adapt :=
  let l := ((List.range a.master.length).zip a.master).map (fun e => trainTensor sd a.steps (a.records.getD e.1 sd.trainRec) e.2)
  { a with train := l.flatMap (fun e => e.1), records := l.map (fun e => e.2) }
/-- The master copy in the enhancement chart's format (R220; log 130). -/
def liveCopy (sd : StreamDef) (master : List (List Word)) : List Byte :=
  let f := (Fmt.ofCode sd.liveFmt).getD .bf16
  master.flatMap (fun t => packTensor f ((tensorVals t).map (fun v => (convert f 0 .nearest (.divide (e8Value sd.liveScale)) v).code)))
/-- Bytes of the four copies. -/
def Adapt.images (a : Adapt) : List (List Byte) := a.master.flatMap (packTensor .fp32 ∘ List.map BitVec.toNat) :: a.train :: a.live
/-- A version published: the live copy not in force takes the master copy (R220). -/
def Ticket.publish (t : Ticket) (sd : StreamDef) : Ticket :=
  Ticket.report { t with adapt := { t.adapt with
    live := t.adapt.live.set (if t.adapt.liveB then 0 else 1) (liveCopy sd t.adapt.master), liveB := !t.adapt.liveB
    version := (t.adapt.version + 1) % 4294967296, sincePub := 0 } } 3 0 0 0xFFFFFFFF 0 0 []
/-- A step committed with its ADAPT record: the master copy is updated, the training copy rewritten, and a version published every
PUBLISH_STEPS (R217, R220). -/
def Ticket.stepCommit (t : Ticket) (sd : StreamDef) (loss : Nat) (master : List (List Word)) : Ticket :=
  let a := { t.adapt.endStep with master := master, steps := t.adapt.steps + 1, sincePub := t.adapt.sincePub + 1, rejected := 0 }
  let u := Ticket.report { t with adapt := a.retrain sd } 1 0 0 0xFFFFFFFF loss 0 t.adapt.used
  if u.adapt.sincePub < sd.publishSteps then u else u.publish sd
/-- A step that is not finite is rejected; after 8 in a row adaptation stops (R219). -/
def Ticket.stepRejected (t : Ticket) : Ticket :=
  let u := Ticket.report { t with adapt := { t.adapt.endStep with rejected := t.adapt.rejected + 1 } } 4 0 0 0xFFFFFFFF 0 0 []
  if u.adapt.rejected < 8 then u else Ticket.report { u with adapt := { u.adapt with stopped := true } } 5 0 0 0xFFFFFFFF 0 0 []
/-- Hanks for the copies that a ticket's adapter has none for yet, if they can be had (R214; log 130). -/
def Chip.copyHanks (c : Chip) (t : Ticket) : Chip :=
  let n := t.adapt.images.map (fun b => hankCount b.length)
  if t.adapt.copies.all (fun l => l.isEmpty) && !t.adapt.master.isEmpty && c.grantable t (n.foldl (· + ·) 0) then
    let hs := c.hank.next (n.foldl (· + ·) 0)
    { c with
      hank := c.hank.alloc t.id (ctxTag (t.kindContext .adapt)) (n.foldl (· + ·) 0)
      cast := c.cast.updTicket t.id (fun x => { x with adapt := { x.adapt with
        copies := (List.range 4).map (fun i => (hs.drop ((n.take i).foldl (· + ·) 0)).take (n.getD i 0)) } }) }
  else c
/-- The copies of a ticket's adapter written into their hanks. -/
def writeCopies (ticket : Nat) (c : Chip × Mem) : Chip × Mem :=
  match c.1.ticket? ticket with
  | none => c
  | some t =>
    let d := c.1.copyHanks t
    let a := (d.ticket? ticket).elim t.adapt (fun u => u.adapt)
    (d.wrote ((a.copies.flatMap id).map (fun h => (hankAddr h, 0x4000))), (a.copies.zip a.images).foldl (fun m e => hankWrite m e.1 0 e.2) c.2)
/-- The optimiser step's end, once ACCUM samples were used. -/
def optimiser (ticket loss : Nat) (finite : Bool) (master : List (List Word)) (c : Chip × Mem) : Chip × Mem :=
  match c.1.ticket? ticket with
  | none => c
  | some t =>
    match c.1.stream? t.pipeline with
    | none => c
    | some sd =>
      if t.adapt.used.length < sd.accum ∨ t.adapt.stopped = true then c
      else if finite then writeCopies ticket (c.1.reTicket t (t.stepCommit sd loss master), c.2)
      else (c.1.reTicket t t.stepRejected, c.2)
/-- A frame's enhancement begins: it and the frames generated before it take the version in force, and the versions published since the
frame before have found theirs (R220; repeats: log 137); `fall` says that the fall-back is in force as its first band would start (R199). -/
def Ticket.beginFrame (t : Ticket) (f : FrameRt) (fall : Bool) : Ticket :=
  let fresh := t.adapt.events.any AdaptEv.open
  Ticket.drainEvents { t with
    begun := some (f.order, t.adapt.version)
    outs := t.outs.map (fun o =>
      if o.source = f.source ∧ o.sub = 0 then
        { o with adapter := t.adapt.version, changed := o.changed || fresh, degraded := fall && (t.kindStage .superRes).isSome }
      else if o.source + 1 = f.source ∧ o.sub ≠ 0 ∧ o.rep = false then
        { o with adapter := t.adapt.version, degraded := fall, order := if fall then f.order - 1 else f.order }
      else if o.order = f.order ∧ o.sub ≠ 0 then { o with adapter := t.adapt.version }
      else o)
    frames := t.frames.map (fun x => if x.source = f.source then { x with still := x.still || fall } else x)
    adapt := { t.adapt with events := t.adapt.events.map (fun e => if e.open then { e with source := some f.source } else e) } }
/-- The adaptation context frogged: every sample of the step is dropped, and adaptation stops (R222). -/
def Ticket.stopAdapt (t : Ticket) (now : Nat) : Ticket :=
  let u := t.adapt.samples.foldl (fun x s => x.dropSample now s .aborted) t
  Ticket.report { u with adapt := { u.adapt with used := [], stopped := true } } 5 0 0 0xFFFFFFFF 0 0 []
/-- SAMPLE_DROPPED (R218). -/
def execSampleDropped (ticket sample : Nat) (s : State) : Host.Outcome State Fault Refusal :=
  .next { s with chip := (s.chip.sampleDropped ticket sample).startSample s.mem ticket }

end Sys2Proof.Machine
end

