-- ==== Sys2Proof/Machine/Decoding.lean ====
section
/-!
DEFINITION. Decode of an access unit (ch. 8): layers that are discarded, references and their substitutes, concealment, the motion field
and the residual energy. The codecs' own syntax, prediction and in-loop filters are the free values of `Config`.
-/
namespace Sys2Proof
open Machine

/-! ### Layers that are discarded (Table 8.5; log 119) -/

/-- NAL units of a byte stream: what stands between start codes. -/
def nalUnits : List Byte → List Byte → List (List Byte)
  | a :: b :: c :: l, cur => if a = 0 ∧ b = 0 ∧ c = 1 then cur.reverse :: nalUnits l [] else nalUnits (b :: c :: l) (a :: cur)
  | l, cur => [cur.reverse ++ l]
/-- Whether a NAL unit is decoded: not an SVC or MVC extension of H.264, and of layer 0 in HEVC and VVC. -/
def nalKept (codec : Nat) (n : List Byte) : Bool :=
  if codec = 1 then !([14, 15, 20, 21].contains (le n 0 1 % 32))
  else if codec = 2 then le n 0 1 % 2 == 0 && decide (le n 1 1 < 8)
  else if codec = 5 then le n 0 1 % 64 == 0 else true
/-- Value and length of a leb128 number. -/
def leb128 : List Byte → Nat → Nat → Nat → Nat × Nat
  | [], _, v, n => (v, n)
  | b :: l, k, v, n => if b.toNat < 128 then (v + b.toNat * 128 ^ k, n + 1) else leb128 l (k + 1) (v + b.toNat % 128 * 128 ^ k) (n + 1)
/-- Whether an OBU belongs to operating point 0: its header has no extension, or the point holds its layers. -/
def obuKept (idc : Nat) (b : List Byte) : Bool :=
  let type := le b 0 1 / 8 % 16
  type == 1 || type == 2 || idc == 0 || !bit (le b 0 1) 2 || (bit idc (le b 1 1 / 32) && bit idc (8 + le b 1 1 / 8 % 4))
/-- An OBU stream without the OBUs of other operating points. -/
def obusKept (idc : Nat) : Nat → List Byte → List Byte
  | 0, b => b
  | _, [] => []
  | k + 1, b =>
    let h := if bit (le b 0 1) 2 then 2 else 1
    let s := leb128 (b.drop h) 0 0 0
    let n := if bit (le b 0 1) 1 then h + s.2 + s.1 else b.length
    (if obuKept idc b then b.take n else []) ++ obusKept idc k (b.drop n)
/-- An access unit without the layers and operating points that are discarded. -/
def baseLayer (codec : Nat) (b : List Byte) : List Byte :=
  if codec = 4 then obusKept (Config.operatingPoint b) b.length b
  else if codec = 3 then b
  else (((nalUnits b []).drop 1).filter (nalKept codec)).flatMap (fun n => [0, 0, 1] ++ n)

/-! ### Concealment (R169 to R171) -/

/-- Areas whose data ran out or broke off: each slice's or tile's rest, whole macroblocks, CTUs or superblocks. -/
def CodedFrame.cut (f : CodedFrame) : List Rect := f.slices.flatMap (fun s => s.1.drop s.2)
/-- A picture in the form of another: its bit depth; grey where its chroma format differs. -/
def Picture.like (q p : Picture) : Picture := if q.chroma = p.chroma then q.convert p.depth else grey p.width p.height p.depth p.chroma
/-- A picture whose areas are copied from the co-located ones of the picture output last, or grey where there is none. -/
def Picture.conceal (p : Picture) (l : List Rect) (last : Option Picture) : Picture :=
  let q := match last with | some x => x.like p | none => grey p.width p.height p.depth p.chroma
  let here := fun (x y : Nat) => covered l (lumaOf p.chroma x y).1 (lumaOf p.chroma x y).2
  mkPicture p.width p.height p.depth p.chroma
    (fun x y => if covered l x y then clampedOf q.luma x y else sampleOf p.luma x y)
    (fun x y => if here x y then clampedOf q.cb x y else sampleOf p.cb x y)
    (fun x y => if here x y then clampedOf q.cr x y else sampleOf p.cr x y)
/-- Whether a block is predicted from one of the references at some places of the picture's list. -/
def PredBlock.from (b : PredBlock) (places : Nat → Bool) : Bool :=
  (b.first.map (fun e => places e.1)).getD false || (b.second.map (fun e => places e.1)).getD false

/-! ### Motion field (R173) -/

/-- Displacement of a model at a sample, in 1/16 luma samples. -/
def MotionModel.at (m : MotionModel) (x y : Nat) : Int × Int :=
  (rneInt (16 * (m.ax * x + m.bx * y + m.cx)) (2 ^ m.shift), rneInt (16 * (m.ay * x + m.bY * y + m.cy)) (2 ^ m.shift))
/-- Centre sample of a grid block, clamped into the picture. -/
def gridCentre (g w h x y : Nat) : Nat × Nat := (min (x * g + g / 2) (w - 1), min (y * g + g / 2) (h - 1))
/-- Motion of the prediction block that covers a sample: KIND 4 where it is concealed, 0 where it is intra or intra block copy; `dist` gives
each reference's output index less this picture's. -/
def blockMotion (f : CodedFrame) (concealed : List Rect) (dist : Nat → Int) (x y : Nat) : Motion :=
  let still (k : Nat) : Motion := { dx := 0, dy := 0, dist := 0, dx2 := 0, dy2 := 0, dist2 := 0, kind := k }
  if covered concealed x y then still 4
  else match f.blocks.find? (fun b => b.area.has x y) with
    | none => still 0
    | some b =>
      if b.copy then still 0
      else match b.first, b.second with
        | none, none => still 0
        | some a, none => { still 1 with dx := (a.2.at x y).1, dy := (a.2.at x y).2, dist := dist a.1 }
        | none, some c => { still 2 with dx2 := (c.2.at x y).1, dy2 := (c.2.at x y).2, dist2 := dist c.1 }
        | some a, some c => { dx := (a.2.at x y).1, dy := (a.2.at x y).2, dist := dist a.1,
                              dx2 := (c.2.at x y).1, dy2 := (c.2.at x y).2, dist2 := dist c.1, kind := 3 }
/-- A picture's motion, one entry for each grid block in raster order. -/
def motionGrid (f : CodedFrame) (concealed : List Rect) (dist : Nat → Int) (g w h : Nat) : List Motion :=
  (List.range (ceilDiv h g)).flatMap (fun y => (List.range (ceilDiv w g)).map (fun x =>
    blockMotion f concealed dist (gridCentre g w h x y).1 (gridCentre g w h x y).2))

/-! ### Residual energy (R174) -/

/-- Sum of the squared differences of two planes over an area, and its samples. -/
def squares (a b : List (List Nat)) (x0 y0 x1 y1 : Nat) : Nat × Nat :=
  ((List.range (y1 - y0)).foldl (fun s y => (List.range (x1 - x0)).foldl (fun s x =>
     s + (((sampleOf a (x0 + x) (y0 + y) : Int) - sampleOf b (x0 + x) (y0 + y)) ^ 2).natAbs) s) 0, (y1 - y0) * (x1 - x0))
/-- Squared residual of a grid block: reconstruction before in-loop filtering less prediction, over luma and over both chroma planes. -/
def blockResid (r : Recon) (g w h x y : Nat) : Resid :=
  let x1 := min w ((x + 1) * g)
  let y1 := min h ((y + 1) * g)
  let c := r.sum.chroma
  let cx := fun n => planeCols c n
  let cy := fun n => planeRows c n
  let l := squares r.sum.luma r.pred.luma (x * g) (y * g) x1 y1
  let u := squares r.sum.cb r.pred.cb (cx (x * g)) (cy (y * g)) (cx x1) (cy y1)
  let v := squares r.sum.cr r.pred.cr (cx (x * g)) (cy (y * g)) (cx x1) (cy y1)
  { lumaSum := l.1, lumaN := l.2, chromaSum := u.1 + v.1, chromaN := u.2 + v.2 }
/-- A picture's residuals, one entry for each grid block in raster order. -/
def residGrid (r : Recon) (g w h : Nat) : List Resid :=
  (List.range (ceilDiv h g)).flatMap (fun y => (List.range (ceilDiv w g)).map (fun x => blockResid r g w h x y))

namespace Machine

/-! ### Decoding a unit -/

/-- A picture that a stream's decoder holds. -/
def DecState.ref (d : DecState) (name : Nat) : Option HeldPic := d.held.find? (fun x => x.name == name)
/-- A frame decoded: its picture, prediction and reconstruction, and the areas that count as concealed. -/
structure DecodedFrame where
  pic       : Picture
  recon     : Recon
  concealed : List Rect
/-- A frame decoded from the pictures that the decoder holds; the picture output last takes the place of each missing reference, and what is
predicted from it counts as concealed (R169, R170). -/
def DecState.frame (d : DecState) (p : PicInfo) (f : CodedFrame) : DecodedFrame :=
  let stand := d.last.getD (grey p.width p.height p.depth p.chroma)
  let r := Config.predicted p.codec f (f.refs.map (fun n => ((d.ref n).map (fun x => x.pic)).getD stand))
  let r : Recon := { pred := r.pred.fit p.width p.height p.depth p.chroma, sum := r.sum.fit p.width p.height p.depth p.chroma }
  let lost := f.blocks.filter (fun b => b.from (fun i => (d.ref (f.refs.getD i 0)).isNone))
  { pic := ((Config.filtered p.codec f f.cut r.sum).fit p.width p.height p.depth p.chroma).conceal f.cut d.last
    recon := r, concealed := f.cut ++ lost.map (fun b => b.area) }
/-- The decoder after a frame: it is held as its codec says, just as it stands. -/
def DecState.hold (d : DecState) (order : Int) (f : CodedFrame) (pic : Picture) : DecState :=
  let mine : HeldPic := { name := f.name, order := order + f.order, pic := pic }
  { d with held := (d.held.filter (fun x => x.name != f.name) ++ [mine]).filter (fun (x : HeldPic) => f.keep.contains x.name) }
/-- What a decode core makes of an access unit (R172 to R174), and the stream's decoder after it. -/
structure Decoded where
  pic       : Picture
  motion    : List Motion
  resid     : List Resid
  concealed : Nat
  dec       : DecState
/-- A frame's outputs with the decoder before it. -/
def DecState.outputs (d : DecState) (p : PicInfo) (g : Nat) (order : Int) (f : CodedFrame) : Decoded :=
  let x := d.frame p f
  { pic := x.pic
    motion := motionGrid f x.concealed (fun i => ((d.ref (f.refs.getD i 0)).map (fun (h : HeldPic) => h.order - (order + f.order))).getD 0) g p.width p.height
    resid := residGrid x.recon g p.width p.height
    concealed := coveredCount x.concealed p.width p.height
    dec := d.hold order f x.pic }
/-- Frames decoded one after another; the outputs of the last. -/
def DecState.frames (p : PicInfo) (g : Nat) (order : Int) : List CodedFrame → Decoded → Decoded
  | [], x => x
  | f :: l, x => DecState.frames p g order l (x.dec.outputs p g order f)
/-- An access unit decoded with grid size `g` as the picture of output index `order`: hidden frames, then the shown one, or a held picture
shown again; what is shown is the picture output last from now (R166, R169; log 119). -/
def DecState.decode (d : DecState) (p : PicInfo) (g : Nat) (order : Int) (b : List Byte) : Decoded :=
  let u := Config.coded p.codec d.parms (baseLayer p.codec b)
  let blank : Decoded := { pic := d.last.getD (grey p.width p.height p.depth p.chroma), motion := motionGrid default [] (fun _ => 0) g p.width p.height,
                           resid := residGrid default g p.width p.height, concealed := 0, dec := d }
  let x := DecState.frames p g order u.frames blank
  let pic := (match u.shown with | some n => ((x.dec.ref n).map (fun (h : HeldPic) => h.pic)).getD x.pic | none => x.pic).fit p.width p.height p.depth p.chroma
  { x with pic := pic, dec := { x.dec with parms := u.parms, last := some pic } }

end Machine
end Sys2Proof
end

