-- ==== Sys2Proof/Machine/Track.lean ====
section
/-!
DEFINITION. Detection and the track table (R201 to R206, R209 to R211): what the association of an analysed frame does.
-/
namespace Sys2Proof.Machine

/-! ### Boxes and embeddings -/

/-- A box: x0, y0, x1, y1 in any unit. -/
structure Box where
  x0 : Int
  y0 : Int
  x1 : Int
  y1 : Int
deriving DecidableEq, Repr

/-- Area in FP32. -/
def Box.area (b : Box) : FVal := fmul (.ofInt (b.x1 - b.x0)) (.ofInt (b.y1 - b.y0))
/-- IoU in FP32 (R201): intersection over the sum of the areas less the intersection (log 48). -/
def iou (a b : Box) : FVal :=
  let w := min a.x1 b.x1 - max a.x0 b.x0
  let h := min a.y1 b.y1 - max a.y0 b.y0
  if w ≤ 0 ∨ h ≤ 0 then .zero
  else
    let i := fmul (.ofInt w) (.ofInt h)
    fdiv i (fsub (fadd a.area b.area) i)
/-- A candidate's box. -/
def candBox (c : Candidate) : Box := { x0 := c.x0, y0 := c.y0, x1 := c.x1, y1 := c.y1 }
/-- A candidate's score. -/
def candScore (c : Candidate) : FVal := fp32.decode c.score.toNat
/-- A threshold in 1/65,536. -/
def in65536 (n : Nat) : FVal := .fin false n (-16)
/-- Sum of products (R122, R202). -/
def dotProduct (a b : List FVal) : FVal := rowSum ((a.zip b).map (fun e => fmul e.1 e.2))
/-- Scaled to unit length (R201). -/
def unitLength (l : List FVal) : List FVal := l.map (fun x => fmul x (vrsqrt (dotProduct l l)))
/-- One GS8 group of 128 with its IMMEDIATE E8 scale (R81, R82, R201). -/
def storeEmb (l : List FVal) : Nat × List Byte :=
  let s := deriveE8 .gs8 0 (amaxOf l)
  (s, l.map (fun x => BitVec.ofNat 8 (convert .gs8 0 .nearest (.divide (e8Value s)) x).code))
/-- Dequantised elements of a stored embedding. -/
def loadEmb (scale : Nat) (b : List Byte) : List FVal := b.map (fun x => rne32 ((Fmt.gs8.value 0 x.toNat).mul (e8Value scale)))
/-- A candidate's embedding as stored. -/
def candEmb (c : Candidate) : Nat × List Byte := storeEmb (unitLength ((List.range 128).map (fun i => fp32.decode (c.emb.getD i 0).toNat)))
/-- RNE of a value times a factor, as a whole number from 0 to 65,535. -/
def rneScore (x : FVal) : Nat :=
  match x with
  | .fin false m e => min 65535 (Rounding.nearest.pick (quotParts (m * 65535) 1 e))
  | .inf false => 65535
  | _ => 0
/-- RNE(a / 2). -/
def rneHalf (a : Int) : Int := if a % 2 = 0 then a / 2 else if a / 2 % 2 = 0 then a / 2 else a / 2 + 1

/-! ### Detections (R201) -/

/-- Stable insertion by falling score. -/
def insertScore (x : Candidate) : List Candidate → List Candidate
  | [] => [x]
  | y :: l => if (candScore y).lt (candScore x) then x :: y :: l else y :: insertScore x l
/-- Steps 1 and 2: candidates at or above DET_MIN, highest score first, ties to the lower index. -/
def sortedCands (sd : StreamDef) (l : List Candidate) : List Candidate :=
  (l.filter (fun c => !(candScore c).lt (in65536 sd.detMin))).foldl (fun a c => insertScore c a) []
/-- Step 3: suppression class by class. -/
def suppress (sd : StreamDef) (l : List Candidate) : List Candidate :=
  l.foldl (fun kept c => if kept.any (fun k => k.cls == c.cls && (in65536 sd.nmsIou).lt (iou (candBox k) (candBox c))) then kept else kept ++ [c]) []

/-! ### Association (R202) -/

/-- Track ID (R204). -/
def Track.id (k : Track) : Nat := k.slot + 262144 * k.gen
/-- A track's box. -/
def Track.box (k : Track) : Box := { x0 := k.x0, y0 := k.y0, x1 := k.x1, y1 := k.y1 }
/-- A box in 1/16 samples. -/
def Box.fine (b : Box) : Box := { x0 := 4 * b.x0, y0 := 4 * b.y0, x1 := 4 * b.x1, y1 := 4 * b.y1 }
/-- The predicted box in 1/16 samples, `n` analysed frames after LAST. -/
def Track.predicted (k : Track) (n : Int) : Box :=
  { x0 := k.box.fine.x0 + n * k.vx, y0 := k.box.fine.y0 + n * k.vy, x1 := k.box.fine.x1 + n * k.vx, y1 := k.box.fine.y1 + n * k.vy }
/-- Score of a detection against a track. -/
def pairScore (sd : StreamDef) (an : Nat) (c : Candidate) (k : Track) : FVal :=
  let u := iou (k.predicted ((an : Int) - k.lastAn)) (candBox c).fine
  let a := dotProduct (loadEmb k.embScale k.emb) (loadEmb (candEmb c).1 (candEmb c).2)
  fmul (fadd (fmul (.ofInt sd.iouWeight) u) (fmul (.ofInt (256 - (sd.iouWeight : Int))) a)) (.pow2 (-8))
/-- A scored pair: score, detection index, track. -/
abbrev Pair := FVal × Nat × Track
/-- Whether a pair is taken before another: higher score, lower detection, lower track ID. -/
def pairBefore (a b : Pair) : Bool :=
  b.1.lt a.1 || (!a.1.lt b.1 && (decide (a.2.1 < b.2.1) || (a.2.1 == b.2.1 && decide (a.2.2.id < b.2.2.id))))
/-- Insertion into a list of pairs in that order. -/
def insertPair (x : Pair) : List Pair → List Pair
  | [] => [x]
  | y :: l => if pairBefore x y then x :: y :: l else y :: insertPair x l
/-- Pairs of the same class at or above MATCH_MIN, in the order they are taken. -/
def pairsOf (sd : StreamDef) (an : Nat) (dets : List Candidate) (tracks : List Track) : List Pair :=
  (((List.range dets.length).zip dets).flatMap (fun e => (tracks.filter (fun k => k.cls == e.2.cls)).filterMap (fun k =>
    let s := pairScore sd an e.2 k
    if s.lt (in65536 sd.matchMin) || s == .nan then none else some (s, e.1, k)))).foldl (fun a p => insertPair p a) []
/-- The pairs taken greedily. -/
def matches_ (l : List Pair) : List Pair :=
  l.foldl (fun taken p => if taken.any (fun q => q.2.1 == p.2.1 || q.2.2.slot == p.2.2.slot) then taken else taken ++ [p]) []

/-! ### The table's changes (R203, R204) -/

/-- Centre of a box in 1/4 samples, rounded down. -/
def centre (c : Candidate) : Nat × Nat := ((c.x0 + c.x1) / 2, (c.y0 + c.y1) / 2)
/-- HIST with one more entry, the oldest of 8 replaced. -/
def histAdd (h : List (Nat × Nat × Nat)) (source : Nat) (c : Candidate) : List (Nat × Nat × Nat) :=
  let l := h ++ [(source, (centre c).1, (centre c).2)]
  l.drop (l.length - 8)
/-- A matched track. -/
def Track.matched (k : Track) (sd : StreamDef) (source an : Nat) (c : Candidate) : Track :=
  let old := loadEmb k.embScale k.emb
  let new := loadEmb (candEmb c).1 (candEmb c).2
  let mix := (old.zip new).map (fun e => fadd (fmul (fp32.decode 0x3F600000) e.1) (fmul (fp32.decode 0x3E000000) e.2))
  let e := storeEmb (unitLength mix)
  let hits := min 65535 (k.hits + 1)
  { k with
    x0 := c.x0, y0 := c.y0, x1 := c.x1, y1 := c.y1
    vx := rneHalf (k.vx + 2 * (((c.x0 + c.x1 : Nat) : Int) - (k.x0 + k.x1 : Nat)))
    vy := rneHalf (k.vy + 2 * (((c.y0 + c.y1 : Nat) : Int) - (k.y0 + k.y1 : Nat)))
    embScale := e.1, emb := e.2, hits := hits, misses := 0, last := source, lastAn := an, hist := histAdd k.hist source c
    state := if k.state = 3 then 2 else if k.state = 1 ∧ sd.confirmHits ≤ hits then 2 else k.state }
/-- A track that no detection matched; none where it ends. -/
def Track.missed (k : Track) (sd : StreamDef) : Option Track :=
  if k.state = 1 ∨ sd.maxMisses < k.misses + 1 then none
  else some { k with misses := k.misses + 1, state := if k.state = 2 then 3 else k.state }
/-- The next generation of a slot (R204). -/
def nextGen (g : Nat) : Nat := if 16382 ≤ g then 0 else g + 1
/-- The table after a track starts in the lowest free slot, with that track; none if TRACK_MAX or the table is reached. -/
def Tracks.start (x : Tracks) (sd : StreamDef) (ticket source an : Nat) (c : Candidate) : Option (Tracks × Track) :=
  let slot := lowestFree ((x.live.map (fun k => k.slot)).foldl (fun l k => insertSorted k l) []) 0
  let g := nextGen (Tbl.get 0 x.gens slot)
  if (x.live.filter (fun k => k.ticket == ticket)).length < sd.trackMax ∧ slot < 262144 then
    let k : Track := { slot := slot, gen := g, ticket := ticket, state := 1, cls := c.cls, hits := 1, misses := 0, x0 := c.x0, y0 := c.y0,
                       x1 := c.x1, y1 := c.y1, vx := 0, vy := 0, first := source, last := source, lastAn := an,
                       hist := histAdd [] source c, embScale := (candEmb c).1, emb := (candEmb c).2 }
    some ({ live := x.live ++ [k], gens := Tbl.set x.gens slot g }, k)
  else none

/-! ### The DETECT record (R209) -/

/-- A detection entry (Table 10.6). -/
def detEntry (sd : StreamDef) (c : Candidate) (k : Option Track) : List Byte :=
  (match k with | some k => leBytes 4 k.id | none => leBytes 4 0xFFFFFFFF) ++ leBytes 1 c.cls ++
  leBytes 1 ((k.map (fun k => k.state)).getD 0) ++ leBytes 2 (rneScore (candScore c)) ++
  leBytes 2 c.x0 ++ leBytes 2 c.y0 ++ leBytes 2 c.x1 ++ leBytes 2 c.y1 ++
  leBytes 2 (unsigned 16 ((k.map (fun k => k.vx)).getD 0)) ++ leBytes 2 (unsigned 16 ((k.map (fun k => k.vy)).getD 0)) ++
  leBytes 2 ((k.map (fun k => k.hits)).getD 0) ++ leBytes 1 (sd.roiMap.getD c.cls 0) ++ zeros 9
/-- Insertion of an ended track by ID. -/
def insertById (k : Track) : List Track → List Track
  | [] => [k]
  | x :: l => if k.id < x.id then k :: x :: l else x :: insertById k l
/-- What an association produces. -/
structure Assoc where
  tracks  : Tracks
  dets    : List (Candidate × Option Track)
  ended   : List Track
  dropped : Nat
deriving DecidableEq, Repr
/-- Association of an analysed frame (R201 to R204): matches, then missed tracks, then new ones (log 48). -/
def associate (x : Tracks) (sd : StreamDef) (ticket source an : Nat) (cands : List Candidate) : Assoc :=
  let kept := suppress sd (sortedCands sd cands)
  let dets := kept.take sd.detMax
  let mine := x.live.filter (fun k => k.ticket == ticket)
  let ms := matches_ (pairsOf sd an dets mine)
  let isMatched := fun (k : Track) => ms.any (fun p => p.2.2.slot == k.slot)
  let live := x.live.filterMap (fun k =>
    if k.ticket ≠ ticket then some k
    else match ms.find? (fun p => p.2.2.slot == k.slot) with
      | some p => (dets[p.2.1]?).map (fun c => k.matched sd source an c)
      | none => k.missed sd)
  let ended := (mine.filter (fun k => !isMatched k && (k.missed sd).isNone)).foldl (fun l k => insertById k l) []
  let r := ((List.range dets.length).zip dets).foldl (fun (acc : Tracks × List (Candidate × Option Track)) e =>
    match ms.find? (fun p => p.2.1 == e.1) with
    | some p => (acc.1, acc.2 ++ [(e.2, acc.1.live.find? (fun k => k.slot == p.2.2.slot))])
    | none =>
      if (candScore e.2).lt (in65536 sd.newMin) then (acc.1, acc.2 ++ [(e.2, none)])
      else match acc.1.start sd ticket source an e.2 with
        | some (y, k) => (y, acc.2 ++ [(e.2, some k)])
        | none => (acc.1, acc.2 ++ [(e.2, none)])) ({ x with live := live }, [])
  { tracks := r.1, dets := r.2, ended := ended, dropped := kept.length - sd.detMax }
/-- Detections reported without a track because none could start (NO_SLOT). -/
def Assoc.noSlot (a : Assoc) (sd : StreamDef) : Nat :=
  (a.dets.filter (fun e => e.2.isNone && !(candScore e.1).lt (in65536 sd.newMin))).length
/-- DETECT record (Table 10.5). -/
def Assoc.record (a : Assoc) (sd : StreamDef) (ticket source : Nat) : List Byte :=
  mkRec 0x02 ticket source 0
    (leBytes 2 sd.anW ++ leBytes 2 sd.anH ++ leBytes 2 a.dets.length ++ leBytes 2 a.ended.length ++ leBytes 2 a.dropped ++
     leBytes 2 (a.noSlot sd) ++ zeros 4 ++ a.dets.flatMap (fun e => detEntry sd e.1 e.2) ++
     a.ended.flatMap (fun k => leBytes 4 k.id ++ leBytes 4 k.last))
/-- Regions the encoder may use (R210). -/
def Assoc.regions (a : Assoc) (sd : StreamDef) : List (Nat × Nat × Nat × Nat × Nat) :=
  (a.dets.filter (fun e => decide (1 ≤ sd.roiMap.getD e.1.cls 0 ∧ sd.roiMap.getD e.1.cls 0 ≤ 7))).map (fun e =>
    (e.1.x0, e.1.y0, e.1.x1, e.1.y1, sd.roiMap.getD e.1.cls 0))
/-- Entries that associations of a ticket leave and that no commit has brought into force yet. -/
def Ticket.pendingTracks (t : Ticket) : List (List Track) := t.units.filterMap (fun u => u.tracks)
/-- The working set of a ticket's association: its own entries as its last association leaves them, and every other entry, in force or
about to be, so that no slot is taken twice (R205; log 49). -/
def Chip.workTracks (c : Chip) (t : Ticket) : Tracks :=
  let own := (t.pendingTracks.getLast?).getD (c.tracks.live.filter (fun k => k.ticket == t.id))
  let all := c.cast.tickets.flatMap (fun u => u.pendingTracks)
  { live := own ++ c.tracks.live.filter (fun k => k.ticket != t.id) ++ (all.flatMap id).filter (fun k => k.ticket != t.id)
    gens := (all.flatMap id).foldl (fun g k => Tbl.set g k.slot k.gen) c.tracks.gens }
/-- Association of a frame completed: the DETECT record is queued to commit, and with it the copy of the changed entries; without
OUT_CRAMAR it commits at once and is kept for ROI alone (R205, R211). -/
def Chip.associated (c : Chip) (ticket source : Nat) (cands : List Candidate) : Chip :=
  match c.ticket? ticket with
  | none => c
  | some t =>
    match c.stream? t.pipeline, t.frame? source with
    | some sd, some f =>
      match f.detDue, f.anIdx with
      | true, some an =>
        let a := associate (c.workTracks t) sd ticket source an cands
        let mine := a.tracks.live.filter (fun k => k.ticket == ticket)
        let det : DetResult := { source := source, regions := a.regions sd }
        let u := t.updFrame source (fun x => { x with detDue := false })
        Chip.reTicket { c with tracks := if t.outCramar then c.tracks else c.tracks.commit ticket mine } t
          (if t.outCramar then { u with units := u.units ++ [{ recs := a.record sd ticket source, source := source, pts := f.pts,
                                                               due := t.dueAt f.arrival, det := some det, tracks := some mine }] }
           else { u with det := some det })
      | _, _ => c
    | _, _ => c
/-- Every slot of a ticket freed (R204). -/
def Tracks.free (x : Tracks) (ticket : Nat) : Tracks := { x with live := x.live.filter (fun k => k.ticket != ticket) }

/-! ### The tracker's candidate for motion search (R206) -/

/-- HIST entry with the largest source index not above `n`. -/
def Track.entryAt (k : Track) (n : Nat) : Option (Nat × Nat × Nat) :=
  k.hist.foldl (fun b e => if e.1 ≤ n then (match b with | some x => if x.1 ≤ e.1 then some e else b | none => some e) else b) none
/-- Displacement of a track between two pictures, in output samples over the analysis size: (dx × OUT_W, AN_W), (dy × OUT_H, AN_H),
each in 1/4 samples. -/
def Track.displacement (k : Track) (sd : StreamDef) (now ref : Nat) : Option ((Int × Nat) × (Int × Nat)) :=
  match k.entryAt now, k.entryAt ref with
  | some a, some b => some ((((a.2.1 : Int) - b.2.1) * sd.outW, sd.anW), (((a.2.2 : Int) - b.2.2) * sd.outH, sd.anH))
  | _, _ => none

end Sys2Proof.Machine
end

