-- ==== Sys2Proof/Machine/Search.lean ====
section
/-!
DEFINITION. Motion search of the encoder (R189, R190, R206): candidates, scores, refinement. Vectors are in quarter samples.
-/
namespace Sys2Proof.Machine

/-- A vector in quarter samples. -/
abbrev Vect := Int × Int
/-- A reference of the search: its picture, its place in presentation order, the source index it shows, and its vectors with the places
to their reference. -/
structure SearchRef where
  pic    : Picture
  pos    : Nat
  source : Nat
  vecs   : List (Option (Int × Int × Int))
/-- What the search of a picture reads: what its headers say, the picture, its place and source index, its references, the motion field of
the source picture nearest in presentation order, and the ticket's tracks. -/
structure SearchEnv where
  sd     : StreamDef
  head   : PicHead
  cur    : Picture
  pos    : Nat
  source : Nat
  refs   : List SearchRef
  field  : Option FieldRt
  tracks : List Track
/-- Vectors chosen so far: block column and row, place of the reference, vector. -/
abbrev Chosen := List ((Nat × Nat × Nat) × Vect)

/-! ### Candidates (R189) -/

/-- A vector clamped to ±1,024 samples horizontally and ±512 vertically. -/
def Vect.clamp (v : Vect) : Vect := (max (-4096) (min 4096 v.1), max (-2048) (min 2048 v.2))
/-- RNE(a × num / den) of signed numbers. -/
def scaleInt (a num den : Int) : Int := rneInt (if den < 0 then -(a * num) else a * num) den.natAbs
/-- Places from the picture to a reference. -/
def SearchEnv.gap (e : SearchEnv) (r : SearchRef) : Int := (r.pos : Int) - e.pos
/-- The reference nearest in presentation order, the first on a tie. -/
def SearchEnv.nearest (e : SearchEnv) : Option SearchRef :=
  e.refs.foldl (fun a r => match a with | none => some r | some b => if (e.gap r).natAbs < (e.gap b).natAbs then some r else a) none
/-- Columns of 16 × 16 blocks of the output. -/
def SearchEnv.cols (e : SearchEnv) : Nat := ceilDiv e.head.width 16
/-- Vectors of the left, above, above-right and above-left blocks already coded. -/
def spatial (c : Chosen) (bx by_ k : Nat) : List Vect :=
  ((if bx = 0 then [] else [(bx - 1, by_, k)]) ++ (if by_ = 0 then [] else [(bx, by_ - 1, k), (bx + 1, by_ - 1, k)]) ++
   (if bx = 0 ∨ by_ = 0 then [] else [(bx - 1, by_ - 1, k)])).filterMap (fun i => (c.find? (fun e => e.1 == i)).map (fun e => e.2))
/-- The vector of the co-located block in the nearest reference, scaled by the ratio of temporal distances. -/
def SearchEnv.temporal (e : SearchEnv) (bx by_ : Nat) (r : SearchRef) : List Vect :=
  match e.nearest with
  | none => []
  | some n => match n.vecs.getD (by_ * e.cols + bx) none with
    | some (dx, dy, d) => if d = 0 then [] else [(scaleInt dx (e.gap r) d, scaleInt dy (e.gap r) d)]
    | none => []
/-- The source's motion at a block, scaled by the sizes and by the ratio of temporal distances; none where the block is intra or concealed,
or the field was not written. -/
def SearchEnv.decoder (e : SearchEnv) (bx by_ : Nat) (r : SearchRef) : List Vect :=
  match e.field.bind (fun f => f.motion.map (fun m => (f, m))) with
  | none => []
  | some (f, m) =>
    let gx := ((16 * bx + 8) * f.width / e.head.width) / e.sd.mfGrid
    let gy := ((16 * by_ + 8) * f.height / e.head.height) / e.sd.mfGrid
    match m[gy * ceilDiv f.width e.sd.mfGrid + gx]? with
    | none => []
    | some b =>
      if b.kind = 0 ∨ b.kind = 4 then []
      else
        let v := if b.kind = 2 then (b.dx2, b.dy2, b.dist2) else (b.dx, b.dy, b.dist)
        let den := v.2.2 * (e.sd.fgK + 1 : Nat)
        if den = 0 then []
        else [(scaleInt v.1 (e.gap r * e.head.width) (den * (4 * f.width : Nat)), scaleInt v.2.1 (e.gap r * e.head.height) (den * (4 * f.height : Nat)))]
/-- Whether a track's box, scaled to the output, covers the centre of a block (R206). -/
def Track.covers (k : Track) (sd : StreamDef) (bx by_ : Nat) : Bool :=
  decide (k.x0 * sd.outW ≤ (16 * bx + 8) * 4 * sd.anW) && decide ((16 * bx + 8) * 4 * sd.anW < k.x1 * sd.outW) &&
  decide (k.y0 * sd.outH ≤ (16 * by_ + 8) * 4 * sd.anH) && decide ((16 * by_ + 8) * 4 * sd.anH < k.y1 * sd.outH)
/-- Area of a track's box. -/
def Track.area (k : Track) : Nat := (k.x1 - k.x0) * (k.y1 - k.y0)
/-- The track that covers a block's centre with the smallest area, the lower ID on a tie. -/
def SearchEnv.track (e : SearchEnv) (bx by_ : Nat) : Option Track :=
  (e.tracks.filter (fun k => k.covers e.sd bx by_)).foldl (fun a k => match a with
    | none => some k
    | some b => if k.area < b.area ∨ (k.area = b.area ∧ k.id < b.id) then some k else a) none
/-- The displacement of that track since the reference's frame. -/
def SearchEnv.tracker (e : SearchEnv) (bx by_ : Nat) (r : SearchRef) : List Vect :=
  match (e.track bx by_).bind (fun k => k.displacement e.sd e.source r.source) with
  | none => []
  | some (x, y) => [(scaleInt x.1 1 x.2, scaleInt y.1 1 y.2)]
/-- The candidates of a block for a reference in their order: zero, spatial, temporal, decoder, tracker; clamped, duplicates dropped. -/
def SearchEnv.candidates (e : SearchEnv) (c : Chosen) (bx by_ k : Nat) (r : SearchRef) : List Vect :=
  (((0, 0) :: spatial c bx by_ k ++ e.temporal bx by_ r ++ e.decoder bx by_ r ++ e.tracker bx by_ r).map Vect.clamp).eraseDups

/-! ### Scores and refinement (R190) -/

/-- A sample of a reference at a place in quarter samples; whole places take the sample itself. -/
def SearchEnv.refSample (e : SearchEnv) (p : Picture) (x y : Int) : Nat :=
  if x % 4 = 0 ∧ y % 4 = 0 then clampedOf p.luma (max 0 (x / 4)) (max 0 (y / 4)) else Config.interpolated e.head.av1 p x y
/-- SAD of a block and a reference displaced by a vector. -/
def SearchEnv.sad (e : SearchEnv) (bx by_ : Nat) (p : Picture) (v : Vect) : Nat :=
  (List.range 16).foldl (fun s j => (List.range 16).foldl (fun s i =>
    let x := 16 * bx + i
    let y := 16 * by_ + j
    if x < e.head.width ∧ y < e.head.height then
      s + ((sampleOf e.cur.luma x y : Int) - e.refSample p (4 * (x : Int) + v.1) (4 * (y : Int) + v.2)).natAbs
    else s) s) 0
/-- A vector's score: SAD plus λ times its bits. -/
def SearchEnv.score (e : SearchEnv) (bx by_ : Nat) (p : Picture) (v : Vect) : Nat :=
  e.sad bx by_ p v + Config.searchLambda e.head * Config.vectorBits e.head v.1 v.2
/-- Whether a scored vector is better than one found before: its score, then the smaller |dx| + |dy|, then the smaller dy. -/
def better (a b : Nat × Vect) : Bool :=
  let l := fun (v : Vect) => v.1.natAbs + v.2.natAbs
  decide (a.1 < b.1) || (a.1 == b.1 && (decide (l a.2 < l b.2) || (l a.2 == l b.2 && decide (a.2.2 < b.2.2))))
/-- The best of the candidates: the earlier on a tie. -/
def SearchEnv.first (e : SearchEnv) (bx by_ : Nat) (p : Picture) (l : List Vect) : Nat × Vect :=
  l.foldl (fun a v => if e.score bx by_ p v < a.1 then (e.score bx by_ p v, v) else a) (e.score bx by_ p (0, 0), (0, 0))
/-- Vectors `k` steps around one, clamped. -/
def around (step : Int) (k : Nat) (v : Vect) : List Vect :=
  (List.range (2 * k + 1)).flatMap (fun (j : Nat) => (List.range (2 * k + 1)).map (fun (i : Nat) =>
    Vect.clamp (v.1 + step * ((i : Int) - k), v.2 + step * ((j : Int) - k))))
/-- The best of a vector and some others. -/
def SearchEnv.refine (e : SearchEnv) (bx by_ : Nat) (p : Picture) (a : Nat × Vect) (l : List Vect) : Nat × Vect :=
  l.foldl (fun a v => if better (e.score bx by_ p v, v) a then (e.score bx by_ p v, v) else a) a
/-- The nearest vector of whole samples. -/
def Vect.whole (v : Vect) : Vect := (4 * rneInt v.1 4, 4 * rneInt v.2 4)
/-- The vector of a block for a reference: the best candidate, refined by whole samples up to ±8, half samples and quarter samples
(log 121). -/
def SearchEnv.search (e : SearchEnv) (c : Chosen) (bx by_ k : Nat) (r : SearchRef) : Vect :=
  let a := e.first bx by_ r.pic (e.candidates c bx by_ k r)
  let a := e.refine bx by_ r.pic a (around 4 8 a.2.whole)
  let a := e.refine bx by_ r.pic a (around 2 1 a.2)
  (e.refine bx by_ r.pic a (around 1 1 a.2)).2
/-- The blocks of an area in raster order. -/
def gridBlocks (r : Rect) : List (Nat × Nat) :=
  (List.range (ceilDiv r.h 16)).flatMap (fun j => (List.range (ceilDiv r.w 16)).map (fun i => (r.x / 16 + i, r.y / 16 + j)))
/-- The search of a block for every reference. -/
def SearchEnv.block (e : SearchEnv) (c : Chosen) (b : Nat × Nat) : Chosen :=
  c ++ ((List.range e.refs.length).zip e.refs).map (fun q => ((b.1, b.2, q.1), e.search c b.1 b.2 q.1 q.2))
/-- The search of an area's blocks, those chosen before it given. -/
def SearchEnv.area (e : SearchEnv) (c : Chosen) (r : Rect) : Chosen := (gridBlocks r).foldl e.block c
/-- Vectors of a block for every reference. -/
def SearchEnv.vectors (e : SearchEnv) (c : Chosen) (b : Nat × Nat) : List Vect :=
  (List.range e.refs.length).map (fun k => ((c.find? (fun x => x.1 == (b.1, b.2, k))).map (fun x => x.2)).getD (0, 0))

end Sys2Proof.Machine
end

