-- ==== Sys2Proof/Machine/Coding.lean ====
section
/-!
DEFINITION. Coding of a picture (ch. 9): regions of interest, QPs and hard limits, split units, NAL units and OBUs. The entropy coder and
the decisions the spec leaves to it are the free values of `Config`.
-/
namespace Sys2Proof.Machine

/-! ### Regions (R191) -/

/-- A region: its box in 1/4 analysis samples and its class. -/
abbrev Region5 := Nat × Nat × Nat × Nat × Nat
/-- A region's box in blocks of the 16 × 16 grid of the output: first and last column and row (R191). -/
def roiBlocks (sd : StreamDef) (r : Region5) : Nat × Nat × Nat × Nat :=
  (r.1 * sd.outW / (4 * sd.anW) / 16, r.2.1 * sd.outH / (4 * sd.anH) / 16,
   ceilDiv (ceilDiv (r.2.2.1 * sd.outW) (4 * sd.anW)) 16 - 1, ceilDiv (ceilDiv (r.2.2.2.1 * sd.outH) (4 * sd.anH)) 16 - 1)
/-- QP offset and class of a grid block: the lowest offset of the regions that cover it, the lower class on a tie (R191). -/
def roiAt (sd : StreamDef) (l : List Region5) (x y : Nat) : Int × Nat :=
  l.foldl (fun best r =>
    let b := roiBlocks sd r
    if b.1 ≤ x ∧ x ≤ b.2.2.1 ∧ b.2.1 ≤ y ∧ y ≤ b.2.2.2 then
      let off := sd.roiOffsets.getD (r.2.2.2.2 - 1) 0
      if best.2 = 0 ∨ off < best.1 ∨ (off = best.1 ∧ r.2.2.2.2 < best.2) then (off, r.2.2.2.2) else best
    else best) (0, 0)
/-- A block's QP with its region's offset: 0 to 51 in HEVC; in AV1 the qindex, 4 for each QP, of its class's segment, 1 to 255 (R191;
log 122). -/
def blockQp (av1 : Bool) (qp offset : Int) : Nat :=
  if av1 then (max 1 (min 255 (4 * qp + 4 * offset))).toNat else (max 0 (min 51 (qp + offset))).toNat

/-! ### Rate control (R192, R193) -/

/-- VBV size in bits; 0 without a buffer model. -/
def vbvSize : RcMode → Nat
  | .cqp _ _ _ => 0 | .cbr _ v _ => v * 1000 | .vbr _ _ v => v * 1000 | .cq _ _ v => v * 1000
/-- Rate in bits per second that refills the buffer. -/
def vbvRate : RcMode → Nat
  | .cqp _ _ _ => 0 | .cbr r _ _ => r * 1000 | .vbr _ r _ => r * 1000 | .cq _ r _ => r * 1000
/-- Whether a mode pads with filler (Table 9.4). -/
def RcMode.fills : RcMode → Bool
  | .cbr _ _ _ => true | _ => false
/-- The buffer model that the headers signal: rate, size, CBR (R192). -/
def hrdOf (rc : RcMode) : Option (Nat × Nat × Bool) :=
  match rc with | .cqp _ _ _ => none | _ => some (vbvRate rc, vbvSize rc, RcMode.fills rc)
/-- Base QP of a picture: fixed for its kind and layer; chosen from the fullness and the bits and QPs of earlier committed pictures; or the
quality QP unless the buffer forces it higher (Table 9.4, R193). -/
def baseQpOf (rc : RcMode) (kind : PicKind) (layer vbv : Nat) (history : List (Nat × Nat)) : Nat :=
  let free := min 51 (Config.baseQp rc kind vbv history)
  match rc with
  | .cqp k p l => (match kind with | .key => k | .p => p | .b => l.getD layer p)
  | .cbr _ _ _ => free
  | .vbr _ _ _ => free
  | .cq q _ _ => max q free
/-- Bits of coded CTUs. -/
def bitsOf (l : List CtuOut) : Nat := l.foldl (fun n c => n + c.bits) 0
/-- Change of the QP of CTU row `r` in a wavefront split: at most ±1, from the bits of rows up to r − 8 (R193). -/
def rowChange (h : PicHead) (done : List (List CtuOut)) : Int :=
  if h.rows ∧ 8 ≤ done.length then max (-1) (min 1 (Config.rowStep h ((done.take (done.length - 7)).map bitsOf))) else 0
/-- Shares of a limit among units in proportion to their samples, the remainder to the last (R193). -/
def shares (limit : Nat) (units : List Nat) : List Nat :=
  let total := units.foldl (· + ·) 0
  let l := units.map (fun u => limit * u / max 1 total)
  l.set (l.length - 1) (limit - (l.take (l.length - 1)).foldl (· + ·) 0)

/-! ### Split units (R178) -/

/-- CTUs or superblocks of a span of columns and rows, in raster order. -/
def ctusIn (w h x0 x1 y0 y1 : Nat) : List Rect :=
  (List.range (y1 - y0)).flatMap (fun j => (List.range (x1 - x0)).map (fun i =>
    ({ x := 64 * (x0 + i), y := 64 * (y0 + j), w := min 64 (w - 64 * (x0 + i)), h := min 64 (h - 64 * (y0 + j)) } : Rect)))
/-- First CTU of each of `n` uniform columns or rows of a tile grid over `len` CTUs, and the end: by HEVC's uniform spacing, or by AV1's. -/
def tileStarts (av1 : Bool) (len n : Nat) : List Nat :=
  (List.range (n + 1)).map (fun i => if av1 then min len (i * ceilDiv len n) else i * len / max 1 n)
/-- Split units of a picture, each as its CTUs in coding order. -/
def splitUnits (av1 : Bool) (sp : Split) (w h : Nat) : List (List Rect) :=
  let cw := ceilDiv w 64
  let ch := ceilDiv h 64
  match sp.kind with
  | .wavefront => (List.range ch).map (fun y => ctusIn w h 0 cw y (y + 1))
  | _ =>
    let xs := tileStarts av1 cw sp.cols
    let ys := tileStarts av1 ch (sp.units.length / max 1 sp.cols)
    (List.range (ys.length - 1)).flatMap (fun j => (List.range (xs.length - 1)).map (fun i =>
      ctusIn w h (xs.getD i 0) (xs.getD (i + 1) 0) (ys.getD j 0) (ys.getD (j + 1) 0)))
/-- Luma samples of some areas. -/
def samplesOf (l : List Rect) : Nat := l.foldl (fun n r => n + r.w * r.h) 0

/-! ### Coding -/

/-- What a CTU is coded with: QPs with the regions' offsets, vectors, and whether it is forced; a forced one of a key picture takes the
highest QP (R191, R193). -/
def ctuIn (e : SearchEnv) (c : Chosen) (regions : List Region5) (qp : Int) (forced : Bool) (r : Rect) : CtuIn :=
  { area := r, forced := forced
    blocks := (gridBlocks r).map (fun b =>
      let o := roiAt e.sd regions b.1 b.2
      (if forced ∧ e.head.kind = .key then (if e.head.av1 then 255 else 51) else blockQp e.head.av1 qp o.1, o.2))
    vecs := (gridBlocks r).map (e.vectors c) }
/-- A unit's CTUs coded in order. Once the bits coded plus 64 for each CTU still to code reach the unit's share, the rest is coded as skip
or DC blocks of at most 64 bits; no unit exceeds its share (R193; log 122). -/
def codeCtus (e : SearchEnv) (c : Chosen) (regions : List Region5) (qp : Int) (done : List (List CtuOut)) (share : Option Nat) :
    List Rect → List CtuOut → Bool → List CtuOut × Bool
  | [], acc, clamped => (acc, clamped)
  | r :: rs, acc, clamped =>
    let used := bitsOf acc
    let forced := clamped || (match share with | none => false | some s => decide (s ≤ used + 64 * (rs.length + 1)))
    let o := Config.codedCtu e.head e.cur (e.refs.map (fun x => x.pic)) (done ++ [acc]) (ctuIn e c regions qp forced r)
    let bits := match share with
      | none => o.bits
      | some s => if forced then min (min 64 o.bits) (s - used) else min o.bits (s - used - 64 * rs.length)
    codeCtus e c regions qp done share rs (acc ++ [{ o with bits := bits }]) forced
/-- Split units coded one after another: each unit's CTUs and whether one was clamped. -/
def codeUnits (e : SearchEnv) (c : Chosen) (regions : List Region5) : List (List Rect × Option Nat) → List (List CtuOut) → Bool → List (List CtuOut) × Bool
  | [], done, clamped => (done, clamped)
  | u :: us, done, clamped =>
    let r := codeCtus e c regions ((e.head.qp : Int) + rowChange e.head done) done u.2 u.1 [] false
    codeUnits e c regions us (done ++ [r.1]) (clamped || r.2)
/-- Vectors of a picture: unit by unit; the blocks of other tiles are not used, those of the rows above are (R189). -/
def SearchEnv.vectorsOf (e : SearchEnv) (units : List (List Rect)) : Chosen :=
  if e.head.rows then (units.flatMap id).foldl e.area [] else units.flatMap (fun u => u.foldl e.area [])

/-! ### NAL units and OBUs (R183; log 123) -/

/-- A NAL unit in an Annex B byte stream. -/
def annexB (type : Nat) (b : List Byte) : List Byte := [0, 0, 0, 1] ++ leBytes 1 (2 * type) ++ [1] ++ b
/-- A number as leb128. -/
def lebBytes : Nat → Nat → List Byte
  | 0, n => leBytes 1 (n % 128)
  | k + 1, n => if n < 128 then leBytes 1 n else leBytes 1 (n % 128 + 128) ++ lebBytes k (n / 128)
/-- An OBU with its size. -/
def obu (type : Nat) (b : List Byte) : List Byte := leBytes 1 (8 * type + 2) ++ lebBytes 8 b.length ++ b
/-- A message of the source in the form of the output's codec. -/
def carried (srcAv1 av1 : Bool) (b : List Byte) : List Byte := if srcAv1 = av1 then b else Config.lookAs srcAv1 b
/-- An SEI message in a NAL unit of its own. -/
def sei (type : Nat) (b : List Byte) : List Byte := annexB 39 (leBytes 1 type ++ leBytes 1 b.length ++ b ++ [0x80])
/-- An AV1 metadata OBU. -/
def metadata (type : Nat) (b : List Byte) : List Byte := obu 5 (leBytes 1 type ++ b ++ [0x80])
/-- What stands before a picture's coded data: parameter sets or the sequence header, mastering display and light level of the source with
a key picture, and the buffer model's messages (R183, R192). Film grain parameters are never among them. -/
def headBytes (h : PicHead) (srcAv1 : Bool) : List Byte :=
  let key := decide (h.kind = .key)
  let m := (h.look.mastering.map (carried srcAv1 h.av1)).filter (fun _ => key)
  let l := (h.look.light.map (carried srcAv1 h.av1)).filter (fun _ => key)
  if h.av1 then
    (if key then obu 1 (Config.headUnit .sequence h) else []) ++ m.elim [] (metadata 2) ++ l.elim [] (metadata 1)
  else
    (if key then annexB 32 (Config.headUnit .vps h) ++ annexB 33 (Config.headUnit .sps h) ++ annexB 34 (Config.headUnit .pps h) else []) ++
    m.elim [] (sei 137) ++ l.elim [] (sei 144) ++
    (if h.hrd.isSome ∧ key then annexB 39 (Config.headUnit .buffering h) else []) ++ (if h.hrd.isSome then annexB 39 (Config.headUnit .timing h) else [])
/-- A byte list held to a length. -/
def fitBytes (n : Nat) (b : List Byte) : List Byte := b.take n ++ zeros (n - b.length)
/-- A picture's coded data: an IDR or trailing slice NAL unit, or a frame OBU. -/
def dataBytes (h : PicHead) (units : List (List CtuOut)) : List Byte :=
  let b := Config.headUnit .frame h ++ units.flatMap (fun u => fitBytes (ceilDiv (bitsOf u) 8) (Config.unitData h u))
  if h.av1 then obu 6 b else annexB (if h.kind = .key then 19 else 1) b
/-- Filler of at least some bytes: a filler data NAL unit, or a padding OBU. -/
def fillerBytes (av1 : Bool) (n : Nat) : List Byte :=
  if n = 0 then [] else if av1 then obu 15 (List.replicate (n - 3) 0 ++ [0x80]) else annexB 38 (List.replicate (n - 7) 0xFF ++ [0x80])

/-! ### A picture -/

/-- A coded picture: its access unit, whether it was clamped, its filler bytes, its reconstruction, and its vectors with their gaps. -/
structure CodedPic where
  unit    : List Byte
  clamped : Bool
  filler  : Nat
  recon   : Picture
  vecs    : List (Option (Int × Int × Int))
/-- Fullness of the buffer after a picture of some bits, and what it gains until the next. -/
def vbvAfter (rc : RcMode) (vbv bits : Nat) (rate : Nat × Nat) : Nat := vbv - bits + vbvRate rc * rate.2 / max 1 rate.1
/-- A picture coded (R193): its hard limit is the fullness at its removal, less what stands before its data; a CBR picture that would leave
the buffer above its size is padded. -/
def codePicture (e : SearchEnv) (srcAv1 : Bool) (regions : List Region5) (vbv : Nat) (rate : Nat × Nat) : CodedPic :=
  let units := splitUnits e.head.av1 e.sd.split e.head.width e.head.height
  let head := headBytes e.head srcAv1
  let rest := (dataBytes e.head []).length + units.length + 8
  let limit := (hrdOf e.sd.rc).map (fun _ => vbv - 8 * (head.length + rest))
  let cuts : List (Option Nat) := match limit with | none => units.map (fun _ => none) | some n => (shares n (units.map samplesOf)).map some
  let chosen := e.vectorsOf units
  let r := codeUnits e chosen regions (units.zip cuts) [] false
  let b := head ++ dataBytes e.head r.1
  let excess := vbvAfter e.sd.rc vbv (8 * b.length) rate - vbvSize e.sd.rc
  let fill := if RcMode.fills e.sd.rc then fillerBytes e.head.av1 (ceilDiv excess 8) else []
  { unit := b ++ fill, clamped := r.2, filler := fill.length
    recon := (Config.rebuilt e.head (e.refs.map (fun x => x.pic)) r.1).fit e.head.width e.head.height e.head.depth .c420
    vecs := (gridBlocks { x := 0, y := 0, w := e.head.width, h := e.head.height }).map (fun q =>
      match e.refs with
      | [] => none
      | x :: _ => (chosen.find? (fun z => z.1 == (q.1, q.2, 0))).map (fun z => (z.2.1, z.2.2, e.gap x))) }

end Sys2Proof.Machine
end

