-- ==== Sys2Proof/Machine/Video.lean ====
section
/-!
DEFINITION. What decode and encode cores share: classes and order of pictures (R158, R180), the context store (R159), and
which core may take what.
-/
namespace Sys2Proof.Machine

/-- Class of a picture (R158): 0 guaranteed, 1 best-effort live, 2 file; a sample of adaptation is always file class. -/
def Chip.pictureClass (c : Chip) (t : Ticket) (sample : Bool) : Nat :=
  if sample then 2 else if t.guaranteed then 0 else match c.stream? t.pipeline with | some sd => if sd.live then 1 else 2 | none => 2
/-- Whether job `a` goes before job `b` (R158): class; sub-deadline, ticket, lane for guaranteed; round-robin by ticket after the
one of its class served last for the rest. -/
def jobBefore (last : Nat → Nat) (a b : Job) : Bool :=
  if a.cls ≠ b.cls then decide (a.cls < b.cls)
  else if a.cls = 0 then
    decide (a.due < b.due) || (a.due == b.due && (decide (a.ticket < b.ticket) || (a.ticket == b.ticket && decide (a.lane < b.lane))))
  else if a.ticket = b.ticket then decide (a.lane < b.lane) && a.source == b.source && a.sub == b.sub
  else if decide (last a.cls < a.ticket) == decide (last a.cls < b.ticket) then decide (a.ticket < b.ticket) else decide (last a.cls < a.ticket)
/-- The job that goes first. -/
def firstJob (last : Nat → Nat) : List Job → Option Job
  | [] => none
  | j :: l => some (l.foldl (fun a b => if jobBefore last b a then b else a) j)
/-- The ticket that a class served last on the decode cores: best-effort live, or file. -/
def Vdec.last (v : Vdec) (cls : Nat) : Nat := if cls = 1 then v.lastLive else v.lastFile
/-- The ticket that a class served last on the encode cores. -/
def Venc.last (v : Venc) (cls : Nat) : Nat := if cls = 1 then v.lastLive else v.lastFile
/-- Whether a job that became ready takes the core from the one on it (R159). -/
def preempts (a cur : Job) : Bool := decide (a.cls < cur.cls) || (a.cls == 0 && cur.cls == 0 && decide (a.due < cur.due))
/-- Whether two jobs are lanes of one picture. -/
def samePicture (a b : Job) : Bool := a.ticket == b.ticket && a.source == b.source && a.sub == b.sub
/-- Panel whose cores work a context. -/
def Chip.ctxPanel (c : Chip) (ctx : Nat) : Option Nat := (c.ctxTicket ctx).bind (fun t => (t.stageOf ctx).map (fun p => p.panel))
/-- Whether a context may not be dispatched on an engine: its panel is being reset, or the engine is under
recovery and replays another context (R347, R354). -/
def Chip.heldOn (c : Chip) (engine ctx : Nat) : Bool :=
  (match c.ctxPanel ctx with | some p => c.rst.panels.contains p | none => true) ||
  c.engineHeld engine ctx
/-- A job on its core from now. -/
def Job.begin (j : Job) (now : Nat) : Job := { j with start := now }
/-- A core that takes a job: from its context store, where `start` holds the time already worked, or anew; the time that it was pre-empted
does not count (R343). -/
def VCore.take (k : VCore) (j : Job) (now : Nat) : VCore :=
  { k with job := some (j.begin (if k.saved.contains j then now - j.start else now)), saved := k.saved.erase j }
/-- A core whose job is done or abandoned. -/
def VCore.release (k : VCore) : VCore := { k with job := none }
/-- A core that switches: the current picture's state goes to its context store (R159). -/
def VCore.switch (k : VCore) (j : Job) (now : Nat) : VCore :=
  match k.job with
  | none => k.take j now
  | some cur => { (k.take j now) with saved := (k.take j now).saved ++ [cur.begin (now - cur.start)] }
/-- Whether a core can take work. -/
def VCore.free (k : VCore) : Bool := !k.offline && !k.testing && k.job.isNone
/-- A core's jobs ended at once by an engine reset: nothing is left on it or in its store (R353). -/
def VCore.reset (k : VCore) : VCore := { k with job := none, saved := [] }
/-- Snapshots of a core (R8). -/
def VCore.latch (k : VCore) : VCore := { k with busy := k.busy.latch }
/-- Jobs on a block's cores and in their stores. -/
def coreJobs (cores : Tbl VCore) : List Job := cores.flatMap (fun e => (match e.2.job with | some j => [j] | none => []) ++ e.2.saved)
/-- Cores working a picture (WIDTH of Tables 8.13 and 9.7). -/
def picWidth (cores : Tbl VCore) (j : Job) : Nat := (cores.filter (fun e => match e.2.job with | some k => samePicture j k | none => false)).length
/-- 8 × 2 × samples / floor pace + 100 µs in ticks (R343). -/
def coreLimit (floor samples : Nat) : Nat := ceilDiv (16 * samples * 25) floor + usTicks 100

end Sys2Proof.Machine
end

