-- ==== Sys2Proof/Machine/Venc.lean ====
section
/-!
DEFINITION. Video encode (ch. 9): which output is coded next, its group, references and regions, lanes on cores, and the end
of an encoded picture.
-/
namespace Sys2Proof.Machine

/-! ### References (R184 to R188) -/

/-- Output frames a second as a fraction. -/
def Ticket.outRate (t : Ticket) (sd : StreamDef) : Nat × Nat := (t.rateNum * (sd.fgK + 1), t.rateDen)
/-- Whether the picture is coded as a key picture (R184): the flag, the first, or the interval's end. -/
def EncState.isKey (e : EncState) (sd : StreamDef) (flagged : Bool) : Bool :=
  flagged || e.coded == 0 || (sd.keyInterval != 0 && decide (sd.keyInterval ≤ e.sinceKey))
/-- Marks of the pool. -/
def EncState.marks (e : EncState) : List RefMark := e.bufs.map (fun b => b.mark)
/-- The pool with other marks. -/
def EncState.withMarks (e : EncState) (ms : List RefMark) : EncState := { e with bufs := (e.bufs.zip ms).map (fun x => { x.1 with mark := x.2 }) }
/-- Marks of the buffers in use. -/
def freeMark : RefMark → Bool
  | .free => true | _ => false
/-- First place of a list that holds what `p` looks for. -/
def placeOf (p : RefMark → Bool) : List RefMark → Nat → Option Nat
  | [], _ => none
  | x :: l, i => if p x then some i else placeOf p l (i + 1)
/-- Marks once a key picture has made every other buffer FREE (R187). -/
def EncState.cleared (e : EncState) (key : Bool) : List RefMark := if key then e.marks.map (fun _ => RefMark.free) else e.marks
/-- The buffer that the next picture takes: a FREE one, first of those that the committed set has free too, so that a frog finds its
pictures (R181, R186). -/
def EncState.nextBuf (e committed : EncState) (key : Bool) : Option Nat :=
  let ms := e.cleared key
  (placeOf freeMark ((ms.zip committed.marks).map (fun x => if freeMark x.2 then x.1 else .current)) 0).orElse (fun _ => placeOf freeMark ms 0)
/-- Number of the oldest picture among marks chosen by `f`. -/
def oldest (f : RefMark → Option Nat) (ms : List RefMark) : Option Nat :=
  ms.foldl (fun a m => match f m, a with | some i, some k => some (min i k) | some i, none => some i | none, _ => a) none
/-- Picture of a SHORT mark. -/
def shortIdx : RefMark → Option Nat
  | .short i => some i | _ => none
/-- Picture of a LONG mark. -/
def longIdx : RefMark → Option Nat
  | .long i _ => some i | _ => none
/-- Slot of a LONG mark with its picture. -/
def longSlots (ms : List RefMark) : List (Nat × Nat) := ms.filterMap (fun m => match m with | .long i k => some (i, k) | _ => none)
/-- AV1 slot of a new LONG picture: 7, then 6, then that of the older LONG picture (R187). -/
def nextSlot (ms : List RefMark) : Nat :=
  match longSlots ms with
  | [] => 7
  | [x] => if x.2 = 7 then 6 else 7
  | x :: y :: _ => if x.1 < y.1 then x.2 else y.2
/-- Whether a number of coded pictures makes the next one LONG too. -/
def nextIsLong (sd : StreamDef) (coded : Nat) : Bool := sd.ltrInterval != 0 && (coded + 1) % sd.ltrInterval == 0
/-- AV1 slot of the next picture: a LONG one's, or the lowest that no reference holds; slots 6 and 7 are LONG pictures' while LTR_INTERVAL
is not 0 (R187). -/
def slotFor (sd : StreamDef) (coded : Nat) (bufs : List PoolBuf) : Nat :=
  if nextIsLong sd coded then nextSlot (bufs.map (fun b => b.mark))
  else
    let used := (bufs.filter (fun b => !freeMark b.mark)).map (fun b => match b.mark with | .long _ k => k | _ => b.slot)
    ((List.range (if sd.ltrInterval = 0 then 8 else 6)).find? (fun k => !used.contains k)).getD 0
/-- A picture being coded takes a free buffer, with its hanks, as CURRENT; a key picture marks every other buffer FREE (R186, R187,
Table 9.3). -/
def EncState.begin (e committed : EncState) (sd : StreamDef) (key : Bool) (pos : Nat) (hs : List Nat) : EncState :=
  let d := e.withMarks (e.cleared key)
  { d with
    bufs := match e.nextBuf committed key with
      | some i => d.bufs.set i { mark := .current, hanks := hs, pos := pos, slot := slotFor sd e.coded d.bufs }
      | none => d.bufs
    keyPos := if key then pos else e.keyPos }
/-- The buffer being written. -/
def EncState.current (e : EncState) : Option PoolBuf := e.bufs.find? (fun (b : PoolBuf) => b.mark == .current)
/-- Marks chosen by `f` beyond `n` made FREE, the oldest first. -/
def dropOldest (f : RefMark → Option Nat) (n : Nat) : Nat → List RefMark → List RefMark
  | 0, ms => ms
  | k + 1, ms =>
    if (ms.filter (fun m => (f m).isSome)).length ≤ n then ms
    else dropOldest f n k (ms.map (fun m => if f m = oldest f ms then .free else m))
/-- SHORT references a structure keeps (R184; log 50). -/
def shortsKept (sd : StreamDef) : Nat := match sd.gop with | .lowDelay => 4 | .hier _ => sd.nref - 1
/-- The marks after a picture is coded: CURRENT becomes LONG every LTR_INTERVAL pictures, else SHORT; at most 2 are LONG (R186, R187). -/
def marksDone (sd : StreamDef) (coded : Nat) (ms : List RefMark) : List RefMark :=
  let ms := ms.map (fun m => if m = .current then (if nextIsLong sd coded then .long (coded + 1) (nextSlot ms) else .short (coded + 1)) else m)
  let ms := dropOldest longIdx 2 ms.length ms
  let longs := (ms.filter (fun m => (longIdx m).isSome)).length
  dropOldest shortIdx (min (shortsKept sd) (sd.nref - 1 - longs)) ms.length ms
/-- The working set and rate-control state after a picture is coded: marks, the picture's vectors, the buffer model (R186, R187, R193). -/
def EncState.done (e : EncState) (sd : StreamDef) (rate : Nat × Nat) (key : Bool) (bits qp : Nat) (vecs : List (Option (Int × Int × Int))) : EncState :=
  let d := { e with bufs := e.bufs.map (fun (b : PoolBuf) => if b.mark = RefMark.current then { b with vecs := vecs } else b) }
  { d.withMarks (marksDone sd e.coded e.marks) with
    sinceKey := if key then 1 else e.sinceKey + 1
    coded := e.coded + 1
    vbv := min (vbvSize sd.rc) (vbvAfter sd.rc e.vbv bits rate)
    history := ((bits, qp) :: e.history).take 16
    skipped := false }
/-- Insertion of a buffer by a number, the greater first. -/
def insertBuf (f : PoolBuf → Int) (b : PoolBuf) : List PoolBuf → List PoolBuf
  | [] => [b]
  | x :: l => if f x < f b then b :: x :: l else x :: insertBuf f b l
/-- Buffers by a number, the greater first. -/
def sortBufs (f : PoolBuf → Int) (l : List PoolBuf) : List PoolBuf := l.foldl (fun a b => insertBuf f b a) []
/-- Buffers that a picture may refer to: SHORT and LONG ones; after a skip record, those of the committed set alone (R188). -/
def EncState.usable (e committed : EncState) : List PoolBuf :=
  e.bufs.filter (fun b => ((shortIdx b.mark).isSome || (longIdx b.mark).isSome) && (!e.skipped || committed.bufs.any (fun q => q.mark == b.mark)))
/-- Reference lists of an inter picture at a place: SHORT pictures, the nearest first, up to 4 for a P picture, two each way for a B picture;
then the LONG ones, the newer first (R184, R187; log 127). -/
def EncState.lists (e committed : EncState) (kind : PicKind) (pos : Nat) : List PoolBuf × List PoolBuf :=
  let l := e.usable committed
  let longs := sortBufs (fun b => ((longIdx b.mark).getD 0 : Nat)) (l.filter (fun b => (longIdx b.mark).isSome))
  let shorts := l.filter (fun b => (shortIdx b.mark).isSome)
  let past := sortBufs (fun b => (b.pos : Int)) (shorts.filter (fun b => decide (b.pos < pos)))
  let next := sortBufs (fun b => -(b.pos : Int)) (shorts.filter (fun b => decide (pos < b.pos)))
  match kind with
  | .key => ([], [])
  | .p => (past.take (4 - longs.length) ++ longs, [])
  | .b => (past.take 2 ++ longs, (if next.isEmpty then past else next).take 2 ++ longs)

/-! ### Groups (R185) -/

/-- Whether an output's place in a coded group is still to be decided. -/
def Out.undecided (o : Out) : Bool := o.group == 0 && (match o.state with | .waiting => true | .skipped _ _ => true | _ => false)
/-- The first `g` outputs whose group is undecided. -/
def Ticket.window (t : Ticket) (g : Nat) : List Out := ((t.outs.dropWhile (fun o => !o.undecided)).takeWhile Out.undecided).take g
/-- Position of a key picture within the window after its first. -/
def keyWithin (e : EncState) (sd : StreamDef) : List Out → Nat → Option Nat
  | [], _ => none
  | o :: l, i => if i ≠ 0 ∧ (o.key = true ∨ (sd.keyInterval ≠ 0 ∧ sd.keyInterval ≤ e.sinceKey + i)) then some i else keyWithin e sd l (i + 1)
/-- Outputs of the window to be decided now, as (how many, as one group): a key picture alone, a whole group of g, or single pictures
where a skip record or a key picture falls within, or the stream ends (R185). None while the inputs have not all arrived. -/
def Chip.groupNow (c : Chip) (t : Ticket) (sd : StreamDef) : Option (Nat × Bool) :=
  match sd.gop with
  | .lowDelay => none
  | .hier g =>
    let w := t.window g
    match w with
    | [] => none
    | o :: _ =>
      if t.enc.isKey sd o.key && !o.skip then some (1, false)
      else if !w.all (fun x => x.skip || c.outReady t x) then none
      else match keyWithin t.enc sd w 0 with
        | some i => some (i, false)
        | none =>
          if w.length < g then (if t.closing then some (w.length, false) else none)
          else some (g, !w.any Out.skip)
/-- The window's first `n` outputs given their group. -/
def Ticket.setGroup (t : Ticket) (n : Nat) (whole : Bool) : Ticket :=
  let ids := (t.window n).map (fun o => (o.source, o.sub))
  { t with
    groups := t.groups + 1
    outs := t.outs.map (fun o => if o.group = 0 ∧ ids.contains (o.source, o.sub) then { o with group := if whole then t.groups + 2 else 1 } else o) }
/-- The next output to code: the first waiting one; within a coded group, in decoding order. -/
def Ticket.nextOut (t : Ticket) (sd : StreamDef) : Option Out :=
  match t.outs.find? (fun o => o.state == .waiting) with
  | none => none
  | some o =>
    match sd.gop with
    | .lowDelay => some o
    | .hier _ =>
      if o.group = 0 then none else if o.group = 1 then some o
      else
        let l := t.outs.filter (fun x => x.group == o.group)
        ((groupOrder l.length).filterMap (fun k => l[k - 1]?)).find? (fun x => x.state == .waiting)

/-! ### Regions (R17, R191) -/

/-- Output frames from an analysed frame to a picture. -/
def outDistance (sd : StreamDef) (o : Out) (source : Nat) : Nat :=
  if source ≤ o.source then (o.source - source) * (sd.fgK + 1) + o.sub else (source - o.source) * (sd.fgK + 1) - o.sub
/-- Analysis result that a picture uses: the last committed, if it is recent enough. -/
def Ticket.roiFor (t : Ticket) (sd : StreamDef) (o : Out) : Option DetResult :=
  match t.det with
  | none => none
  | some d => if outDistance sd o d.source ≤ sd.roiMaxAge then some d else none
/-! ### Lanes (R178, R180) -/

/-- Jobs waiting for a panel's encode cores. -/
def Chip.encWaiting (c : Chip) (p : Nat) : List Job := c.venc.waiting.filter (fun j => c.ctxPanel j.context == some p)
/-- Encode cores of a panel, lowest first. -/
def Chip.encCores (c : Chip) (p : Nat) : List Nat := (c.panel p).enc.foldl (fun l k => insertSorted k l) []
/-- An encode core. -/
def Venc.core (v : Venc) (k : Nat) : VCore := Tbl.get {} v.cores k
/-- Engine index of an encode core (Table 17.1). -/
def encEngine (core : Nat) : Nat := 140 + core
/-- An output changed. -/
def Ticket.updOut (t : Ticket) (source sub : Nat) (f : Out → Out) : Ticket :=
  { t with outs := t.outs.map (fun o => if o.source = source ∧ o.sub = sub then f o else o) }
/-- Encoding of a picture begins with its first lane: its regions are those of the analysis result committed last (R17). -/
def Out.start (o : Out) (roi : Option DetResult) : Out :=
  if o.started then o
  else { o with started := true, roi := roi.map DetResult.source, roiCount := (roi.map (fun (r : DetResult) => r.regions.length)).getD 0
                regions := (roi.map (fun (r : DetResult) => r.regions)).getD [] }
/-- The ticket of a lane once it is on a core. -/
def Chip.beginOut (c : Chip) (j : Job) : Cast :=
  match c.ticket? j.ticket with
  | none => c.cast
  | some t => match c.stream? t.pipeline with
    | none => c.cast
    | some sd => c.cast.updTicket t.id (fun x => x.updOut j.source j.sub (fun o => o.start (x.roiFor sd o)))
/-- A lane put on a core. -/
def Chip.startLane (c : Chip) (core : Nat) (j : Job) : Chip :=
  { c with
    cast := c.beginOut j
    venc := { c.venc with
      cores := Tbl.upd {} c.venc.cores core (fun k => k.switch j c.now), waiting := c.venc.waiting.erase j
      lastLive := if j.cls = 1 then j.ticket else c.venc.lastLive, lastFile := if j.cls = 2 then j.ticket else c.venc.lastFile } }
/-- Lanes of a new picture on the lowest free cores that hold no picture in store, lowest lane first; the rest wait (R178, R180). -/
def Chip.placeLanes (c : Chip) (p : Nat) (js : List Job) : Chip :=
  let free := if (c.encWaiting p).isEmpty then
      (c.encCores p).filter (fun k => (c.venc.core k).free && (c.venc.core k).saved.isEmpty && !js.any (fun j => c.heldOn (encEngine k) j.context)) else []
  let d := { c with venc := { c.venc with waiting := c.venc.waiting ++ js } }
  (js.zip free).foldl (fun d e => d.startLane e.2 e.1) d
/-- Jobs a core may take now: its stored ones and the waiting ones of its panels. -/
def Chip.encChoices (c : Chip) (core : Nat) : List Job :=
  ((c.venc.core core).saved ++ c.venc.waiting.filter (fun j => match c.ctxPanel j.context with | some p => (c.panel p).enc.contains core | none => false)).filter
    (fun j => !c.heldOn (encEngine core) j.context)
/-- LANE_START (R178, R180): a core that is free takes the first of its choices. -/
def Chip.laneStart (c : Chip) (core : Nat) : Chip :=
  if (c.venc.core core).free then (match firstJob c.venc.last (c.encChoices core) with | some j => c.startLane core j | none => c) else c
/-- LANE_START (R178). -/
def execLaneStart (core : Nat) (s : State) : Host.Outcome State Fault Refusal := .next { s with chip := s.chip.laneStart core }
/-- End of an encode segment (R180, R181): an abandoned picture leaves the core, a more urgent one takes it. -/
def Chip.encSegment (c : Chip) (core : Nat) : Chip :=
  match (c.venc.core core).job with
  | none => c
  | some cur =>
    if cur.abandon then { c with venc := { c.venc with cores := Tbl.upd {} c.venc.cores core VCore.release } }
    else match firstJob c.venc.last (c.encChoices core) with
      | none => c
      | some j =>
        if preempts j cur then { c.startLane core j with venc := { (c.startLane core j).venc with preempt := c.venc.preempt.inc } } else c
/-- ENCODE_SEGMENT_END (R180). -/
def execEncodeSegmentEnd (core : Nat) (s : State) : Host.Outcome State Fault Refusal := .next { s with chip := s.chip.encSegment core }

/-! ### Coding an output -/

/-- Moment a stage's hand-off was last signalled plus the encode stage's sub-deadline, in ticks (R49; log 40). -/
def Chip.encDue (c : Chip) (t : Ticket) (p : Placed) (o : Out) : Nat :=
  (match (t.feed (if o.rep || o.degraded then 0 else o.sub)).bind (fun q => t.markers[q.stage]?) with
   | some m => (c.marker m).time | none => o.arrival) + nsTicks p.dNs
/-- An output's lanes. -/
def Chip.encJobs (c : Chip) (t : Ticket) (sd : StreamDef) (p : Placed) (o : Out) : List Job :=
  let loads := splitLoads sd.split p.width
  ((List.range loads.length).zip loads).map (fun e =>
    { ticket := t.id, context := p.contexts.headD 0, source := o.source, sub := o.sub, lane := e.1, samples := e.2,
      cls := c.pictureClass t false, width := loads.length, due := c.encDue t p o })
/-- Place of an output in presentation order: generated frames and refused submissions are counted (R188). -/
def Out.pos (o : Out) (sd : StreamDef) : Nat := o.source * (sd.fgK + 1) + o.sub
/-- Place of an output in its coded group, from 1, with the group's size. -/
def Ticket.placeIn (t : Ticket) (o : Out) : Nat × Nat :=
  let l := t.outs.filter (fun x => x.group == o.group)
  ((l.takeWhile (fun x => !(x.source == o.source && x.sub == o.sub))).length + 1, l.length)
/-- Hierarchy layer of a place in a group of `g`: 0 for the last, one more for each halving (R184). -/
def layerOf : Nat → Nat → Nat → Nat
  | 0, _, _ => 0
  | k + 1, g, i => if g ≤ 1 ∨ i % g = 0 then 0 else 1 + layerOf k (g / 2) i
/-- How an output is coded (R184, R185): a key picture, a B picture of its group, or a P picture. -/
def Out.kind (o : Out) : PicKind := if o.key then .key else if o.group ≤ 1 then .p else .b
/-- What an output's headers say of its picture. -/
def Ticket.picHead (t : Ticket) (sd : StreamDef) (o : Out) : PicHead :=
  let l := t.enc.lists t.encDone o.kind (o.pos sd)
  let entry := fun (b : PoolBuf) => (b.pos - t.enc.keyPos, (longIdx b.mark).isSome)
  { av1 := sd.av1, width := sd.outW, height := sd.outH, depth := sd.outDepth, kind := o.kind, poc := o.pos sd - t.enc.keyPos
    list0 := l.1.map entry, list1 := l.2.map entry
    refresh := if o.key then 255 else 2 ^ ((t.enc.current.map (fun b => b.slot)).getD 0)
    hidden := o.hidden, rows := sd.split.kind == .wavefront, cols := sd.split.cols, qp := o.qp, hrd := hrdOf sd.rc, look := o.look }
/-- An output's picture as the encoder reads it: 4:2:0, at the output's bit depth (R182; log 127). -/
def Ticket.input (t : Ticket) (sd : StreamDef) (o : Out) (m : Mem) : Picture :=
  match t.sourceOf o with
  | none => grey sd.outW sd.outH sd.outDepth .c420
  | some f =>
    let up := (t.kindStage .superRes).isSome
    let w := if up then sd.outW else f.pic.width
    let h := if up then sd.outH else f.pic.height
    let p := (hankPicture m (t.inputHanks o) w h f.pic.depth f.pic.chroma).convert sd.outDepth
    (if p.chroma = .c420 then p else { p with cb := (grey w h sd.outDepth .c420).cb, cr := (grey w h sd.outDepth .c420).cr }).fit sd.outW sd.outH sd.outDepth .c420
/-- Motion field of the source picture nearest to an output (R189). -/
def Ticket.fieldFor (t : Ticket) (sd : StreamDef) (o : Out) : Option FieldRt :=
  let n := if o.sub = 0 ∨ o.rep ∨ o.degraded then o.order else if 2 * o.sub ≤ sd.fgK + 1 then o.order - 1 else o.order
  t.dec.fields.find? (fun f => f.order == n)
/-- What the search of an output's picture reads. -/
def Ticket.searchEnv (t : Ticket) (sd : StreamDef) (o : Out) (tracks : List Track) (m : Mem) : SearchEnv :=
  let l := t.enc.lists t.encDone o.kind (o.pos sd)
  { sd := sd, head := t.picHead sd o, cur := t.input sd o m, pos := o.pos sd, source := o.source
    refs := (l.1 ++ l.2).eraseDups.map (fun b =>
      { pic := hankPicture m b.hanks sd.outW sd.outH sd.outDepth .c420, pos := b.pos, source := b.pos / (sd.fgK + 1), vecs := b.vecs })
    field := t.fieldFor sd o, tracks := tracks.filter (fun k => k.ticket == t.id) }
/-- An output of a ticket coded. -/
def Ticket.codeOut (t : Ticket) (sd : StreamDef) (o : Out) (tracks : List Track) (m : Mem) : CodedPic :=
  codePicture (t.searchEnv sd o tracks m) (t.codec == 4) o.regions t.enc.vbv (t.outRate sd)
/-- Hanks of a buffer of the pool. -/
def poolHanks (sd : StreamDef) : Nat := hankCount (picSize sd.outW sd.outH sd.outDepth .c420)
/-- Coding of an output begins: its buffer and base QP are chosen, its lanes start (R178, R186, R193). -/
def Chip.encodeOut (c : Chip) (t : Ticket) (sd : StreamDef) (p : Placed) (o : Out) : Chip :=
  let key := t.enc.isKey sd o.key
  let held := ((t.enc.nextBuf t.encDone key).bind (fun i => t.enc.bufs[i]?)).map (fun b => b.hanks)
  let fresh := held == some []
  let hs := if fresh then c.hank.next (poolHanks sd) else held.getD []
  let kind : PicKind := { o with key := key }.kind
  let place := t.placeIn o
  let qp := baseQpOf sd.rc kind (layerOf 4 place.2 place.1) t.enc.vbv t.encDone.history
  let hidden := decide (1 < o.group) && t.outs.any (fun x => x.group == o.group && x.state == .waiting && decide (x.pos sd < o.pos sd))
  let d := { c with
    hank := if fresh then c.hank.alloc t.id (ctxTag (p.contexts.headD 0)) (poolHanks sd) else c.hank
    cast := c.cast.updTicket t.id (fun x =>
      { x.updOut o.source o.sub (fun q => { q with state := .coding, key := key, qp := qp, hidden := hidden, started := false }) with
        enc := x.enc.begin x.encDone sd key (o.pos sd) hs }) }
  d.placeLanes p.panel (c.encJobs t sd p o)
/-- Whether the buffer that the next picture takes has its hanks or can have them. -/
def Chip.bufferReady (c : Chip) (t : Ticket) (sd : StreamDef) (o : Out) : Bool :=
  ((t.enc.nextBuf t.encDone (t.enc.isKey sd o.key)).bind (fun i => t.enc.bufs[i]?)).all (fun b => !b.hanks.isEmpty || c.grantable t (poolHanks sd))
/-- The next output of a ticket put to the encoder, one at a time, once its picture is complete. -/
def Chip.encodeNext (c : Chip) (ticket : Nat) : Chip :=
  match c.ticket? ticket with
  | none => c
  | some t =>
    match c.stream? t.pipeline, t.kindStage .encode with
    | some sd, some p =>
      if !t.outVideo || t.outs.any (fun o => o.state == .coding) then c
      else
        let u := match c.groupNow t sd with | some (n, whole) => t.setGroup n whole | none => t
        let d := { c with cast := c.cast.updTicket ticket (fun _ => u) }
        match u.nextOut sd with
        | none => d
        | some o => if d.outReady u o && d.bufferReady u sd o then d.encodeOut u sd p o else d
    | _, _ => c
/-- An output whose coding failed on poisoned data: its frame is voided (R346). -/
def Chip.encodeFault (c : Chip) (core : Nat) (t : Ticket) (j : Job) : Chip :=
  let u := t.rewind (fun o => o.source == j.source && o.sub == j.sub)
  let d := { c with
    cast := c.cast.updTicket t.id (fun _ => u.updOut j.source j.sub (fun q => { q with state := .skipped 0x41 false, unit := [] }))
    venc := { c.venc with skipped := c.venc.skipped.inc }
    rst := { c.rst with voided := c.rst.voided.inc } }
  let d := { d.hbmUe (Config.errorAddress d.freeCtr) with freeCtr := d.freeCtr + 1 }
  d.incident .videoFault (588 + core) (some j.context) t.id 0 j.source
/-- An output coded: its access unit stands, its reconstruction is in the pool, the working set and the counters follow (R181, R186,
R193). -/
def encoded (t : Ticket) (sd : StreamDef) (o : Out) (c : Chip × Mem) : Chip × Mem :=
  let r := t.codeOut sd o c.1.tracks.live c.2
  let hs := (t.enc.current.map (fun b => b.hanks)).getD []
  let e := t.enc.done sd (t.outRate sd) o.key (8 * r.unit.length) o.qp r.vecs
  let d := { c.1 with
    cast := c.1.cast.updTicket t.id (fun x => { x.updOut o.source o.sub (fun q => { q with state := .ready, unit := r.unit, after := e }) with enc := e })
    venc := { c.1.venc with
      pics := c.1.venc.pics.inc, kib := c.1.venc.kib.add ((c.1.venc.kibRest + r.unit.length) / 1024), kibRest := (c.1.venc.kibRest + r.unit.length) % 1024
      clamp := if r.clamped then c.1.venc.clamp.inc else c.1.venc.clamp, filler := c.1.venc.filler.add r.filler } }
  (d.wrote (hs.map (fun h => (hankAddr h, 0x4000))), hankWrite c.2 hs 0 r.recon.bytes)
/-- Whether another lane of a picture is still to be coded. -/
def Venc.lanesLeft (v : Venc) (j : Job) : Bool := (coreJobs v.cores ++ v.waiting).any (samePicture j)
/-- The other lanes of a picture abandoned at the end of their segments. -/
def Chip.dropLanes (c : Chip) (j : Job) : Chip :=
  { c with venc := { c.venc with cores := c.venc.cores.mapV (fun k => k.frog (samePicture j)), waiting := c.venc.waiting.filter (fun q => !samePicture j q) } }
/-- Whether a lane of a wavefront split that has not started holds back rows of a lane (R178). -/
def Chip.heldBack (c : Chip) (sd : StreamDef) (j : Job) : Bool :=
  sd.split.kind == .wavefront &&
  c.venc.waiting.any (fun w => samePicture w j && w.lane != j.lane && (decide (w.lane < j.lane) || decide (j.lane + j.width < sd.split.units.length)))
/-- The lane on a core once its picture's traffic has been issued: the input and each reference read, the reconstruction written, in chunks
of the encode context (R151; log 128). -/
def Chip.encTraffic (c : Chip) (core : Nat) (t : Ticket) (sd : StreamDef) (j : Job) : Chip :=
  let o := t.outs.find? (fun o => o.source == j.source && o.sub == j.sub)
  let l := (o.map (fun o => t.enc.lists t.encDone o.kind (o.pos sd))).getD ([], [])
  let n := picSize sd.outW sd.outH sd.outDepth .c420 * (2 + (l.1 ++ l.2).eraseDups.length)
  let d := { c with venc := { c.venc with cores := Tbl.upd {} c.venc.cores core (fun (k : VCore) => { k with job := k.job.map (fun (x : Job) => { x with charged := true }) }) } }
  if j.charged then c else d.charge ((t.stageOf j.context).elim 0 (fun p => p.panel)) resHbm n t.guaranteed (some (224 + core, 0))
/-- A core freed of its lane, its stitches and samples counted. -/
def Chip.encodeFree (c : Chip) (core : Nat) (j : Job) : Chip :=
  { c with venc := { c.venc with
    cores := Tbl.upd {} c.venc.cores core (fun k => { k.release with busy := if j.abandon then k.busy else k.busy.add (2 * j.samples) })
    samples := if j.abandon then c.venc.samples else c.venc.samples.add j.samples } }
/-- What the last lane of a picture, or one with poisoned data, does to the picture. -/
def codedEnd (core : Nat) (t : Ticket) (sd : StreamDef) (j : Job) (poisoned : Bool) (c : Chip × Mem) : Chip × Mem :=
  if poisoned then ((c.1.dropLanes j).encodeFault core t j, c.2)
  else match t.outs.find? (fun o => o.source == j.source && o.sub == j.sub) with
    | none => c
    | some o => encoded t sd o c
/-- A lane finished on a core: the core is free; the picture is over with its last lane. Unchanged but for the traffic while rows are held
back or chunks wait. -/
def encodeComplete (core : Nat) (poisoned : Bool) (c : Chip × Mem) : Chip × Mem :=
  match (c.1.venc.core core).job with
  | none => c
  | some j =>
    if j.abandon then (c.1.encodeFree core j, c.2)
    else match c.1.ticket? j.ticket with
      | none => (c.1.encodeFree core j, c.2)
      | some t => match c.1.stream? t.pipeline with
        | none => (c.1.encodeFree core j, c.2)
        | some sd =>
          if poisoned then codedEnd core t sd j true (c.1.encodeFree core j, c.2)
          else if c.1.heldBack sd j then c
          else if (c.1.encodeFree core j).venc.lanesLeft j then (c.1.encodeFree core j, c.2)
          else
            let d := c.1.encTraffic core t sd j
            if d.pnl.chunkWaits (224 + core, 0) then (d, c.2) else codedEnd core t sd j false (d.encodeFree core j, c.2)
/-- VENC snapshots (R8). -/
def Venc.latch (v : Venc) (row : Nat) : Venc :=
  { v with
    cores := v.cores.mapV VCore.latch, pics := v.pics.latch, samples := v.samples.latch, kib := v.kib.latch, skipped := v.skipped.latch
    preempt := v.preempt.latch, clamp := v.clamp.latch, filler := v.filler.latch, snapRow := row }

end Sys2Proof.Machine
end

