-- ==== Sys2Proof/Machine/Vdec.lean ====
section
/-!
DEFINITION. Video decode (ch. 8): pictures on cores, their three outputs, the field release wait, samples of adaptation, and
`progress`, which brings a stream up to date after any of its work is done.
-/
namespace Sys2Proof.Machine

/-! ### Cores -/

/-- A decode core. -/
def Vdec.core (v : Vdec) (k : Nat) : VCore := Tbl.get {} v.cores k
/-- Engine index of a decode core (Table 17.1). -/
def decEngine (core : Nat) : Nat := 128 + core
/-- Decode cores of a panel, lowest first. -/
def Chip.decCores (c : Chip) (p : Nat) : List Nat := (c.panel p).dec.foldl (fun l k => insertSorted k l) []
/-- Pictures a core may take now: its stored ones and the ready ones of its panel (R158, R159); samples of adaptation only while no
work is shed (R333). -/
def Chip.decChoices (c : Chip) (core : Nat) : List Job :=
  ((c.vdec.core core).saved ++ c.vdec.ready.filter (fun j => match c.ctxPanel j.context with | some p => (c.panel p).dec.contains core | none => false)).filter
    (fun j => !c.heldOn (decEngine core) j.context && !(c.tens.shedding && j.sub == 1))
/-- A picture put on a core. -/
def Chip.startDec (c : Chip) (core : Nat) (j : Job) : Chip :=
  { c with vdec := { c.vdec with
      cores := Tbl.upd {} c.vdec.cores core (fun k => k.switch j c.now), ready := c.vdec.ready.erase j
      lastLive := if j.cls = 1 then j.ticket else c.vdec.lastLive, lastFile := if j.cls = 2 then j.ticket else c.vdec.lastFile } }
/-- A free core takes the first of its choices (R158). -/
def Chip.fillDec (c : Chip) (core : Nat) : Chip :=
  if (c.vdec.core core).free then (match firstJob c.vdec.last (c.decChoices core) with | some j => c.startDec core j | none => c) else c
/-- Every free core of a panel, lowest first (R156). -/
def Chip.fillPanel (c : Chip) (p : Nat) : Chip := (c.decCores p).foldl Chip.fillDec c
/-- End of a decode segment (R159, R176): an abandoned picture leaves the core, a more urgent one takes it. -/
def Chip.decSegment (c : Chip) (core : Nat) : Chip :=
  match (c.vdec.core core).job with
  | none => c
  | some cur =>
    if cur.abandon then Chip.fillDec { c with vdec := { c.vdec with cores := Tbl.upd {} c.vdec.cores core VCore.release } } core
    else match firstJob c.vdec.last (c.decChoices core) with
      | none => c
      | some j =>
        if preempts j cur then { c.startDec core j with vdec := { (c.startDec core j).vdec with preempt := c.vdec.preempt.inc } } else c
/-- DECODE_SEGMENT_END (R159). -/
def execDecodeSegmentEnd (core : Nat) (s : State) : Host.Outcome State Fault Refusal := .next { s with chip := s.chip.decSegment core }

/-! ### Starting a picture -/

/-- Lanes of a picture for the decode stage `p` (R156). -/
def decJobs (ticket ctx source sub cls width due : Nat) (sp : Split) : List Job :=
  let loads := splitLoads sp width
  ((List.range loads.length).zip loads).map (fun e =>
    { ticket := ticket, context := ctx, source := source, sub := sub, lane := e.1, samples := e.2, cls := cls, width := loads.length, due := due })
/-- Lanes made ready. -/
def Vdec.queue (v : Vdec) (js : List Job) : Vdec := { v with ready := v.ready ++ js }
/-- Stages that read a decoded picture: where enhancement makes another of it, frame generation and the encoder read that one (R15, R196,
R197). -/
def Ticket.consumers (t : Ticket) : List Placed :=
  t.placed.filter (fun p => p.kind != .decode && p.kind != .adapt && !p.contexts.isEmpty && !(t.enhances && (p.kind == .frameGen || p.kind == .encode)))
/-- Buffer, of those a stream's pictures take in turn, that a frame's views are at (R175, R227; log 42). -/
def picSlot (sd : StreamDef) (order : Nat) : Nat := order % max 2 sd.nbuf
/-- A picture's hanks SHAREd with some stages, the last of them the releaser, and written into their views (R15, R227, R237). -/
def Hank.sharePicture (k : Hank) (readers : List Placed) (slot : Nat) (hs : List Nat) : Hank :=
  match readers.getLast? with
  | none => k
  | some l =>
    let tags := readers.map (fun p => ctxTag (p.contexts.headD 0))
    let k1 := hs.foldl (fun k h => k.hand h (ctxTag (l.contexts.headD 0))
      { k.entry h with state := .shared, owner := ctxTag (l.contexts.headD 0), readers := tags }) k
    readers.foldl (fun k p => p.contexts.foldl (fun k x => k.setView x (p.viewOff + slot * hs.length) hs) k) k1
/-- Whether a ticket has a stage that enhances its frames, whose first band begins a frame (R220). -/
def Ticket.beginsLater (t : Ticket) : Bool := t.enhances || (t.kindStage .frameGen).isSome
/-- Frames of a stream without a decode stage handed on as they arrive (log 42). -/
def Chip.handOn (c : Chip) (t : Ticket) : Chip :=
  (t.frames.filter (fun f => !f.decoded && f.lost.isEmpty)).foldl (fun d f =>
    Chip.signalMap { d with
      hank := d.hank.sharePicture t.consumers (((c.stream? t.pipeline).map (fun sd => picSlot sd f.order)).getD 0) f.hanks
      cast := d.cast.updTicket t.id (fun x =>
        (if x.beginsLater then x else x.beginFrame f false).updFrame f.source (fun y => { y with decoded := true, picHanks := f.hanks, parts := [] })) }
      t t.arrivalIdx 1 (t.contexts.headD 0)) c
/-- The next picture of a stream put to its panel's cores, one at a time in bitstream order (ch. 1, R156). -/
def Chip.decodeNext (c : Chip) (ticket : Nat) : Chip :=
  match c.ticket? ticket with
  | none => c
  | some t =>
    match t.kindStage .decode with
    | none => c.handOn t
    | some p =>
      if t.frames.any (fun f => f.decoding) then c
      else match t.frames.find? (fun f => !f.decoded && !f.lost.contains p.stage) with
        | none => c
        | some f =>
          Chip.fillPanel { c with
            cast := c.cast.updTicket ticket (fun x => x.updFrame f.source (fun y => { y with decoding := true }))
            vdec := c.vdec.queue (decJobs ticket (p.contexts.headD 0) f.source 0 (c.pictureClass t false) p.width (f.arrival + nsTicks p.dNs) f.pic.split) } p.panel
/-- Context that decodes a ticket's samples. -/
def Ticket.sampleContext (t : Ticket) : Nat := if (t.kindStage .decode).isSome then t.kindContext .decode else t.kindContext .adapt
/-- A sample's picture queued for decode in the file class (R215). -/
def Chip.decodeSample (c : Chip) (t : Ticket) (s : Sample) : Chip :=
  let d := { c with vdec := c.vdec.queue (decJobs t.id t.sampleContext s.id 1 (c.pictureClass t true) t.decodeWidth 0 s.pic.split) }
  match d.ctxPanel t.sampleContext with | some p => d.fillPanel p | none => d

/-! ### The three outputs (R172 to R175) -/

/-- Grid columns. -/
def gridW (sd : StreamDef) (p : PicInfo) : Nat := ceilDiv p.width sd.mfGrid
/-- Grid rows. -/
def gridH (sd : StreamDef) (p : PicInfo) : Nat := ceilDiv p.height sd.mfGrid
/-- FP16 of a number over a power of two. -/
def half (v : Int) (shift : Nat) : List Byte := leBytes 2 (fp16.encode (.fin (decide (v < 0)) v.natAbs (-(shift : Int))))
/-- The eight channels of a grid block (Table 8.8): a list that the block does not use holds +0. -/
def motionLanes (b : Motion) : List Byte :=
  let first := b.kind == 1 || b.kind == 3
  let second := b.kind == 2 || b.kind == 3
  (if first then half b.dx 4 ++ half b.dy 4 ++ half b.dist 0 else zeros 6) ++
  (if second then half b.dx2 4 ++ half b.dy2 4 ++ half b.dist2 0 else zeros 6) ++ half b.kind 0 ++ zeros 2
/-- A row of grid blocks cut into positions of 64 lanes, the lanes beyond the grid +0. -/
def gridRow (perPos laneBytes : Nat) (blocks : List (List Byte)) : List Byte :=
  let b := blocks.flatMap id
  b ++ zeros (ceilDiv blocks.length perPos * perPos * laneBytes - b.length)
/-- The motion field's bytes (R173). -/
def motionField (sd : StreamDef) (p : PicInfo) (l : List Motion) : List Byte :=
  (List.range (gridH sd p)).flatMap (fun y => gridRow 8 16 (((l.drop (y * gridW sd p)).take (gridW sd p)).map motionLanes))
/-- A mean of squared residuals as FP16 (R174): rounded once, saturated at 65,504. -/
def meanHalf (sum n depth : Nat) : List Byte :=
  leBytes 2 (if n = 0 then 0 else min 0x7BFF (fp16.roundIeee false sum n (-(2 * (depth - 8 : Nat) : Int))))
/-- The two channels of a grid block; a concealed block holds −1.0 (R174). -/
def residLanes (depth : Nat) (r : Resid) (kind : Nat) : List Byte :=
  if kind = 4 then leBytes 2 0xBC00 ++ leBytes 2 0xBC00
  else meanHalf r.lumaSum r.lumaN depth ++ meanHalf r.chromaSum r.chromaN depth
/-- The residual energy map's bytes (R174). -/
def residMap (sd : StreamDef) (p : PicInfo) (depth : Nat) (l : List Resid) (m : List Motion) : List Byte :=
  let lanes := (l.zip (m.map (fun b => b.kind))).map (fun e => residLanes depth e.1 e.2)
  (List.range (gridH sd p)).flatMap (fun y => gridRow 32 4 ((lanes.drop (y * gridW sd p)).take (gridW sd p)))
/-- Bytes laid over flat ranges in order. -/
def layBytes : List Range → List Byte → Mem → Mem
  | [], _, m => m
  | r :: rs, b, m => layBytes rs (b.drop r.2) (m.writes r.1 (b.take r.2))
/-- Whether a picture's fields must wait: its buffers are still in use (R175). -/
def Chip.fieldWaits (c : Chip) (t : Ticket) (sd : StreamDef) (f : FrameRt) : Bool :=
  !sd.mfBufs.isEmpty && !f.fieldLost && decide (sd.nbuf ≤ f.order) && decide (c.mapCount t t.releaseIdx < f.order - sd.nbuf + 1)
/-- Needle and context whose operand addresses name the field buffers: the first stage after decode that runs on needles. -/
def Ticket.fieldHome (t : Ticket) : Option (Nat × Nat) :=
  (t.placed.find? (fun p => p.kind != .decode && !p.needles.isEmpty)).map (fun p => (p.needles.headD 0, p.contexts.headD 0))
/-- Motion field and residual map written into the picture's buffers; a frame whose field is given up writes neither (R175). -/
def writeFields (t : Ticket) (sd : StreamDef) (p : Placed) (f : FrameRt) (r : Decoded) (c : Chip × Mem) : Chip × Mem :=
  match sd.mfBufs[f.order % max 1 sd.nbuf]?, sd.reBufs[f.order % max 1 sd.nbuf]?, t.fieldHome with
  | some a, some b, some (n, ctx) =>
    if f.fieldLost then c
    else
      let mf := motionField sd f.pic r.motion
      let re := residMap sd f.pic f.pic.depth r.resid r.motion
      let ra := c.1.flat n ctx (a, mf.length)
      let rb := c.1.flat n ctx (b, re.length)
      ((ra ++ rb).foldl (fun d x => d.panelWrite p.panel x t.guaranteed none) c.1, layBytes rb re (layBytes ra mf c.2))
  | _, _, _ => c
/-- Whether the motion field marks a scene cut (R197). -/
def sceneCut (sd : StreamDef) (p : PicInfo) (l : List Motion) : Bool :=
  decide (sd.cutShare * (gridW sd p * gridH sd p) < 256 * (l.filter (fun b => b.kind == 0 || b.kind == 4)).length)
/-- CONCEAL_256 (R171). -/
def conceal256 (concealed : Nat) (p : PicInfo) : Nat := ceilDiv (256 * concealed) (p.width * p.height)
/-- Outputs after a picture is decoded: CONCEAL_256 and grain of its own, and the generated frames before it repeated at a scene cut
(R171, R197, R212). -/
def Ticket.decodedOuts (t : Ticket) (f : FrameRt) (concealed : Nat) (cut : Bool) : Ticket :=
  { t with outs := t.outs.map (fun o =>
      if o.source = f.source ∧ o.sub = 0 then
        { o with conceal := conceal256 concealed f.pic, grain := if f.pic.codec = 4 then f.pic.grain else [] }
      else if cut ∧ o.order = f.order ∧ o.sub ≠ 0 ∧ o.state = .waiting ∧ o.rep = false then { o with rep := true, order := f.order - 1 }
      else o) }
/-- The stream's decoder after a picture, with its motion field for the encoder's search where it was written (R189). -/
def Decoded.after (r : Decoded) (sd : StreamDef) (f : FrameRt) : DecState :=
  { r.dec with fields := ({ order := f.order, width := f.pic.width, height := f.pic.height
                            motion := if f.fieldLost || sd.mfBufs.isEmpty then none else some r.motion } :: r.dec.fields).take 32 }
/-- The ticket once a picture of it is decoded: what the frame holds, its outputs, and the decoder (R14). -/
def Ticket.decodedFrame (t : Ticket) (sd : StreamDef) (f : FrameRt) (r : Decoded) (cut : Bool) (hs up : List Nat) (gens : List (List Nat)) (an : List Nat) : Ticket :=
  let u := (if t.beginsLater then t else t.beginFrame f false).decodedOuts f r.concealed cut
  { u.updFrame f.source (fun y => { y with
      decoding := false, decoded := true, parts := [], picHanks := hs, upHanks := up, genHanks := gens, anHanks := an, still := y.still || cut }) with
    dec := r.after sd f
    voided := if cut then u.voided ++ (u.kindStage .frameGen).elim [] (fun q => [(q.stage, f.order)]) else u.voided }
/-- Hanks held by a context for a ticket. -/
def Chip.hold (c : Chip) (t : Ticket) (ctx n : Nat) : Chip × List Nat :=
  if n = 0 then (c, []) else ({ c with hank := c.hank.alloc t.id (ctxTag ctx) n }, c.hank.next n)
/-- Hanks of what enhancement makes of a frame: tokens of another stage, or super-resolution's picture (R196; log 129). -/
def Ticket.upCount (t : Ticket) (sd : StreamDef) (f : FrameRt) : Nat :=
  if !f.lost.isEmpty then 0
  else if (t.kindStage .other).isSome then hankCount sd.sendBytes
  else if (t.kindStage .superRes).isSome then hankCount (picSize sd.outW sd.outH f.pic.depth f.pic.chroma) else 0
/-- Hanks of one frame generated before a frame, and how many are (R197). -/
def Ticket.genCount (t : Ticket) (sd : StreamDef) (f : FrameRt) (cut : Bool) : Nat × Nat :=
  if (t.kindStage .frameGen).isNone || f.order == 0 || f.still || cut || !f.lost.isEmpty then (0, 0)
  else (if (t.kindStage .superRes).isSome then hankCount (picSize sd.outW sd.outH f.pic.depth f.pic.chroma) else hankCount (pictureBytes f.pic), sd.fgK)
/-- Hanks of a frame's analysis picture (R200). -/
def anCount (sd : StreamDef) (f : FrameRt) : Nat :=
  if f.anIdx.isSome && f.lost.isEmpty then hankCount (picSize sd.anW sd.anH f.pic.depth f.pic.chroma) else 0
/-- Buffers that a stage of a kind writes placed in its contexts' views, at the offset the placement names for them. -/
def Hank.viewOut (k : Hank) (t : Ticket) (kind : StageKind) (slot : Nat) (hs : List Nat) : Hank :=
  match t.kindStage kind with
  | none => k
  | some p => p.contexts.foldl (fun k x => k.setView x (p.outOff + slot * hs.length) hs) k
/-- A picture's end (R14): its hanks, those of what the stages make of it, its fields, its analysis picture, and the marker; none while hanks
or the field buffers are not to be had. -/
def finishPicture (t : Ticket) (sd : StreamDef) (p : Placed) (f : FrameRt) (c : Chip × Mem) : Option (Chip × Mem) :=
  let r := t.dec.decode f.pic sd.mfGrid f.order (unitBytes c.2 f.parts)
  let cut := sceneCut sd f.pic r.motion
  let n := hankCount (pictureBytes f.pic)
  let g := t.genCount sd f cut
  if !c.1.grantable t (n + t.upCount sd f + g.1 * g.2 + anCount sd f) || c.1.fieldWaits t sd f then none
  else
    let ctx := p.contexts.headD 0
    let hs := c.1.hold t ctx n
    let up := hs.1.hold t (t.kindContext (if (t.kindStage .other).isSome then .other else .superRes)) (t.upCount sd f)
    let gen := up.1.hold t (t.kindContext .frameGen) (g.1 * g.2)
    let an := gen.1.hold t (t.kindContext .analysis) (anCount sd f)
    let d := f.hanks.foldl (fun d h => d.hbmRead (hankAddr h, 0x4000)) an.1
    let d := d.wrote ((hs.2 ++ an.2).map (fun h => (hankAddr h, 0x4000)))
    let m := hankWrite (hankWrite c.2 hs.2 0 r.pic.bytes) an.2 0 (if an.2.isEmpty then [] else (r.pic.scale sd.anW sd.anH).bytes)
    let e := writeFields t sd p f r (d, m)
    let h := e.1.freeHanks t f.hanks
    let h := { h with
      hank := ((((h.hank.sharePicture t.consumers (picSlot sd f.order) hs.2).viewOut t .superRes (picSlot sd f.order) up.2).viewOut t .other (picSlot sd f.order) up.2).viewOut t
        .frameGen (picSlot sd f.order) gen.2).viewOut t .analysis (picSlot sd f.order) an.2
      vdec := { h.vdec with pics := h.vdec.pics.inc, concealed := if r.concealed = 0 then h.vdec.concealed else h.vdec.concealed.inc }
      cast := h.cast.updTicket t.id (fun x => x.decodedFrame sd f r cut hs.2 up.2 ((List.range g.2).map (fun i => (gen.2.drop (g.1 * i)).take g.1)) an.2) }
    some (h.signalMap t p.stage p.perFrame ctx, e.2)
/-- A picture whose data was poisoned: its frame is voided and its unit freed (R346). -/
def Chip.pictureFault (c : Chip) (core : Nat) (t : Ticket) (p : Placed) (f : FrameRt) : Chip :=
  let d := (c.voidFrame t f p.stage 0x41 false).freeHanks t f.hanks
  let d := { d.hbmUe (Config.errorAddress d.freeCtr) with freeCtr := d.freeCtr + 1 }
  Chip.incident { d with cast := d.cast.updTicket t.id (fun x => x.updFrame f.source (fun y => { y with decoding := false })) }
    .videoFault (576 + core) (some (p.contexts.headD 0)) t.id 0 f.source
/-- Hanks that a descriptor's coded picture lies in (R226). -/
def Chip.bitsHanks (c : Chip) (t : Ticket) (d : List Byte) : List (Option Nat) :=
  (List.range (ceilDiv (dBitsAddr d % 0x4000 + dBitsLen d) 0x4000)).map (fun i => c.hank.ofHandle t.fn (dBitsAddr d / 0x4000 + i))
/-- A descriptor's coded picture. -/
def Chip.bitsBytes (c : Chip) (m : Mem) (t : Ticket) (d : List Byte) : List Byte :=
  hankRead m ((c.bitsHanks t d).filterMap id) (dBitsAddr d % 0x4000) (dBitsLen d)
/-- A sample's picture decoded into the cache, by itself; none while it does not fit (R215; log 51). -/
def finishSample (t : Ticket) (sd : StreamDef) (s : Sample) (c : Chip × Mem) : Option (Chip × Mem) :=
  let n := hankCount (pictureBytes s.pic)
  if c.1.grantable t n && t.adapt.fits sd.cacheHanks n then
    let r := ({} : DecState).decode s.pic 0 0 (c.1.bitsBytes c.2 t s.desc)
    let hs := c.1.hank.next n
    let d := { c.1 with hank := c.1.hank.alloc t.id (ctxTag (t.kindContext .adapt)) n }
    let d := (d.cacheSample t sd.cacheHanks s hs).wrote (hs.map (fun h => (hankAddr h, 0x4000)))
    let m := hankWrite c.2 hs 0 r.pic.bytes
    some (({ d with vdec := { d.vdec with pics := d.vdec.pics.inc, concealed := if r.concealed = 0 then d.vdec.concealed else d.vdec.concealed.inc } }).startSample m t.id, m)
  else none
/-- Whether another lane of a picture is still to be decoded. -/
def Vdec.lanesLeft (v : Vdec) (core : Nat) (j : Job) : Bool :=
  (coreJobs (Tbl.upd {} v.cores core VCore.release) ++ v.ready).any (samePicture j)
/-- The other lanes of a picture abandoned at the end of their segments. -/
def Vdec.dropLanes (v : Vdec) (j : Job) : Vdec :=
  { v with cores := v.cores.mapV (fun k => k.frog (samePicture j)), ready := v.ready.filter (fun q => !samePicture j q) }
/-- A core freed of its lane, its stitches and samples counted, and its next picture taken (R155, R158). -/
def Chip.decodeFree (c : Chip) (core : Nat) (j : Job) : Chip :=
  Chip.fillDec { c with vdec := { c.vdec with
    cores := Tbl.upd {} c.vdec.cores core (fun k => { k.release with busy := if j.abandon then k.busy else k.busy.add (2 * j.samples) })
    samples := if j.abandon then c.vdec.samples else c.vdec.samples.add j.samples } } core
/-- Bytes that the decode of a picture moves: its unit, and the picture. -/
def Chip.decBytes (c : Chip) (j : Job) : Nat :=
  match c.ticket? j.ticket with
  | none => 0
  | some t =>
    if j.sub = 1 then (t.adapt.samples.find? (fun s => s.id == j.source)).elim 0 (fun s => dBitsLen s.desc + pictureBytes s.pic)
    else (t.frame? j.source).elim 0 (fun f => partBytes f.parts + pictureBytes f.pic)
/-- The lane on a core once its picture's traffic has been issued in chunks of the decode context (R151). -/
def Chip.decTraffic (c : Chip) (core : Nat) (j : Job) : Chip :=
  let d := { c with vdec := { c.vdec with cores := Tbl.upd {} c.vdec.cores core (fun (k : VCore) => { k with job := k.job.map (fun (x : Job) => { x with charged := true }) }) } }
  if j.charged then c
  else d.charge ((c.ctxPanel j.context).getD 0) resHbm (c.decBytes j) (j.cls == 0) (some (192 + core, 0))
/-- What the last lane of a picture, or one with poisoned data, does to the picture; none while the core must wait. -/
def pictureEnd (core : Nat) (j : Job) (poisoned : Bool) (c : Chip × Mem) : Option (Chip × Mem) :=
  match c.1.ticket? j.ticket with
  | none => some c
  | some t =>
    match c.1.stream? t.pipeline with
    | none => some c
    | some sd =>
      if j.sub = 1 then
        match t.adapt.samples.find? (fun s => s.id == j.source && s.state == .decoding) with
        | none => some c
        | some s =>
          if poisoned then some (Chip.reTicket { c.1 with vdec := c.1.vdec.dropLanes j } t (t.dropSample c.1.now s .aborted), c.2)
          else finishSample t sd s c
      else match t.kindStage .decode, t.frame? j.source with
        | some p, some f =>
          if poisoned then some (Chip.pictureFault { c.1 with vdec := c.1.vdec.dropLanes j } core t p f, c.2)
          else finishPicture t sd p f c
        | _, _ => some c
/-- The moment noted from which a core waits for a picture's field buffers (R175). -/
def Chip.noteFieldWait (c : Chip) (j : Job) : Chip :=
  match c.ticket? j.ticket with
  | none => c
  | some t => match c.stream? t.pipeline, t.frame? j.source with
    | some sd, some f =>
      if j.sub ≠ 1 ∧ c.fieldWaits t sd f = true ∧ f.fieldWait.isNone = true then
        { c with cast := c.cast.updTicket t.id (fun x => x.updFrame f.source (fun y => { y with fieldWait := some c.now })) }
      else c
    | _, _ => c

/-! ### Shedding (R333) -/

/-- Whether a stage has begun a frame's work: its marker counts some of it, or a needle runs its band for it. -/
def Chip.stageBegun (c : Chip) (t : Ticket) (p : Placed) (f : FrameRt) : Bool :=
  match stageOrdinal f p with
  | none => false
  | some k =>
    decide (k * p.perFrame < c.mapCount t p.stage) ||
    (decide (k * p.perFrame = c.mapCount t p.stage) &&
      c.ndl.tab.any (fun e => match e.2.band with | some b => p.contexts.contains b | none => false))
/-- Whether a frame's first decode segment, or without a decode stage its first band, has started. -/
def Chip.frameBegun (c : Chip) (t : Ticket) (f : FrameRt) : Bool :=
  if (t.kindStage .decode).isSome then
    f.decoded || (coreJobs c.vdec.cores).any (fun j => j.ticket == t.id && j.source == f.source && j.sub != 1)
  else t.placed.any (fun p => c.stageBegun t p f)
/-- The generated frames before a shed frame that stand as repeats of its predecessor are shed with it, if their coding has not begun
(R198). -/
def Ticket.shedStill (t : Ticket) (f : FrameRt) : Ticket :=
  { t with outs := t.outs.map (fun o =>
      if o.source + 1 = f.source ∧ o.sub ≠ 0 ∧ o.state = .waiting then { o with state := .skipped 0 true } else o) }
/-- A frame shed: its records with SHED = 1 take its outputs' places, its lanes leave the line. -/
def Chip.shedFrame (c : Chip) (t : Ticket) (f : FrameRt) : Chip :=
  let first := match t.kindStage .decode with | some p => p.stage | none => ((t.placed.head?).map (fun p => p.stage)).getD 0
  let d := c.voidFrame t f first 0 true
  { d with
    vdec := { d.vdec with ready := d.vdec.ready.filter (fun j => !(j.ticket == t.id && j.source == f.source && j.sub != 1)) }
    cast := d.cast.updTicket t.id (fun x => (x.shedStill f).updFrame f.source (fun (y : FrameRt) => { y with decoding := false })) }
/-- Best-effort frames not started yet, while work is shed. -/
def Chip.shedding (c : Chip) (ticket : Nat) : Chip :=
  match c.ticket? ticket with
  | none => c
  | some t =>
    if c.tens.shedding && !t.guaranteed then
      (t.frames.filter (fun f => f.lost.isEmpty && !c.frameBegun t f)).foldl (fun d f =>
        match d.ticket? ticket with | some u => d.shedFrame u f | none => d) c
    else c

/-! ### Bringing a stream up to date -/

/-- The first enhancement stage of a ticket, whose first band of a frame begins the frame. -/
def Ticket.firstStage (t : Ticket) : Option Placed := (t.kindStage .superRes).orElse (fun _ => t.kindStage .frameGen)
/-- The frame that a ticket's fall-back takes next, with what its stage's marker still counts for it: the next one decoded whose first band
has not started (R199; log 134). -/
def Chip.fallsBack (c : Chip) (t : Ticket) : Option (Placed × FrameRt × Nat) :=
  match t.firstStage with
  | none => none
  | some p => match c.nextWork t p with
    | none => none
    | some (f, n) =>
      if t.degraded && f.decoded && n == p.perFrame && !passesOver f p && t.begun.all (fun b => decide (b.1 < f.order)) && !p.contexts.any (fun x => c.ctxWorks x f.order)
      then some (p, f, n) else none
/-- A frame passed through: its outputs and those generated before it show the fall-back, the scaler takes super-resolution's place, and the
chart's descriptors for it are passed over (R199). -/
def passThrough (t : Ticket) (p : Placed) (f : FrameRt) (n : Nat) (c : Chip × Mem) : Chip × Mem :=
  let stages := (p.stage, f.order) :: (t.kindStage .frameGen).elim [] (fun q => [(q.stage, f.order)])
  let d := { c.1 with cast := c.1.cast.updTicket t.id (fun x => { x.beginFrame f true with voided := (x.voided ++ stages).eraseDups }) }
  match p.kind, c.1.stream? t.pipeline with
  | .superRes, some sd =>
    let pic := hankPicture c.2 f.picHanks f.pic.width f.pic.height f.pic.depth f.pic.chroma
    ((d.wrote (f.upHanks.map (fun h => (hankAddr h, 0x4000)))).signalMap t p.stage n (p.contexts.headD 0),
     hankWrite c.2 f.upHanks 0 (pic.scale sd.outW sd.outH).bytes)
  | _, _ => (d, c.2)
/-- Markers that the holder owes signalled, and frames passed through, in the order of the frames. -/
def settle (ticket : Nat) : Nat → Chip × Mem → Chip × Mem
  | 0, c => c
  | k + 1, c =>
    match c.1.ticket? ticket with
    | none => c
    | some t =>
      match c.1.passOne t with
      | some d => settle ticket k (d, c.2)
      | none => match c.1.fallsBack t with
        | none => c
        | some (p, f, n) => settle ticket k (passThrough t p f n c)
/-- A frame's enhanced picture, and the frames generated before it, SHAREd with their readers once their stages are done. -/
def Chip.shareFrame (c : Chip) (t : Ticket) (k : Hank) (f : FrameRt) : Hank :=
  let slot := ((c.stream? t.pipeline).map (fun sd => picSlot sd f.order)).getD 0
  let gens := f.genHanks.flatMap id
  let done := fun (s : StageKind) => f.lost.isEmpty && (t.kindStage s).all (fun p => c.stageDone t p f)
  let held := fun (l : List Nat) => l.any (fun h => (k.entry h).state == .held)
  let j := if done .superRes && done .other && held f.upHanks then k.sharePicture (t.placed.filter (fun p => p.kind == .frameGen || p.kind == .encode)) slot f.upHanks else k
  if done .frameGen && held gens then j.sharePicture (t.placed.filter (fun p => p.kind == .encode)) slot gens else j
/-- Pictures that enhancement has made handed on to their readers (R15, R227). -/
def Chip.shareMade (c : Chip) (ticket : Nat) : Chip :=
  match c.ticket? ticket with
  | none => c
  | some t => { c with hank := t.frames.foldl (c.shareFrame t) c.hank }
/-- The output that the encoder, or without video the commit, waits for, noted with the moment from which it does (R18). -/
def Chip.noteOut (c : Chip) (ticket : Nat) : Chip :=
  match c.ticket? ticket with
  | none => c
  | some t =>
    let next := t.outs.find? (fun o => o.state == .waiting)
    let waits := next.filter (fun o => !c.outReady t o && !t.outs.any (fun x => x.state == .coding))
    { c with cast := c.cast.updTicket ticket (fun x => { x with outWait := waits.map (fun o =>
        (o.source, o.sub, (x.outWait.filter (fun w => w.1 == o.source && w.2.1 == o.sub)).elim c.now (fun w => w.2.2))) }) }
/-- A stream after any of its work is done: frames to shed, markers the holder owes and the fall-back, the next picture to decode and to
encode, what can commit, what can be freed, and the needles that may issue. -/
def progress (ticket : Nat) (c : Chip × Mem) : Chip × Mem :=
  let n := match c.1.ticket? ticket with
    | none => 0
    | some t => (t.placed.length + 1) * (t.frames.length + 1) + t.outs.length + t.units.length + t.skips.length
  let s := settle ticket (n + 1) (c.1.shedding ticket, c.2)
  let d := flush ticket (n + 1) (((s.1.shareMade ticket).decodeNext ticket).encodeNext ticket, s.2)
  (((d.1.reap ticket).noteOut ticket).pumpAll d.2, d.2)
/-- Several streams. -/
def progressAll (tickets : List Nat) (c : Chip × Mem) : Chip × Mem := tickets.foldl (fun d t => progress t d) c
/-- A lane finished on a core (R14): the core waits while its traffic's chunks wait (R151), for hanks, or for the field buffers. -/
def decodeComplete (core : Nat) (poisoned : Bool) (c : Chip × Mem) : Chip × Mem :=
  match (c.1.vdec.core core).job with
  | none => c
  | some j =>
    if j.abandon || (c.1.vdec.lanesLeft core j && !poisoned) then (c.1.decodeFree core j, c.2)
    else
      let d := if poisoned then c.1 else c.1.decTraffic core j
      if !poisoned && d.pnl.chunkWaits (192 + core, 0) then (d, c.2)
      else match pictureEnd core j poisoned (d, c.2) with
        | none => (d.noteFieldWait j, c.2)
        | some e => progress j.ticket (e.1.decodeFree core j, e.2)
/-- DECODE_COMPLETE (R14). -/
def execDecodeComplete (core : Nat) (poisoned : Bool) (s : State) : Host.Outcome State Fault Refusal :=
  .next { s with chip := (decodeComplete core poisoned (s.chip, s.mem)).1, mem := (decodeComplete core poisoned (s.chip, s.mem)).2 }
/-- A wait on the field release marker expired 8 × e + 100 µs after the core began it (R175): the frame's consumers are voided, its picture
is still decoded. -/
def Chip.fieldTimeout (c : Chip) (ticket source : Nat) : Chip :=
  match c.ticket? ticket with
  | none => c
  | some t =>
    match c.stream? t.pipeline, t.kindStage .decode, t.frame? source with
    | some sd, some p, some f =>
      match f.fieldWait with
      | none => c
      | some since =>
        if f.decoding && c.fieldWaits t sd f then
          let d := (c.advance (since + nsTicks (8 * p.eNs) + usTicks 100)).voidFrame t f p.stage 0x40 false
          { d with cast := d.cast.updTicket ticket (fun x => x.updFrame source (fun y => { y with fieldLost := true, lost := y.lost.erase p.stage })) }
        else c
    | _, _, _ => c
/-- FIELD_RELEASE_TIMEOUT (R175). -/
def execFieldReleaseTimeout (ticket source : Nat) (s : State) : Host.Outcome State Fault Refusal :=
  .next { s with
    chip := (progress ticket (s.chip.fieldTimeout ticket source, s.mem)).1
    mem := (progress ticket (s.chip.fieldTimeout ticket source, s.mem)).2 }
/-- A lane coded on a core, and its stream brought up to date. -/
def encodeEnd (core : Nat) (poisoned : Bool) (c : Chip × Mem) : Chip × Mem :=
  let t := match (c.1.venc.core core).job with | some j => j.ticket | none => 0
  progress t (encodeComplete core poisoned c)
/-- ENCODE_COMPLETE (R181): the output commits in its place. -/
def execEncodeComplete (core : Nat) (poisoned : Bool) (s : State) : Host.Outcome State Fault Refusal :=
  .next { s with chip := (encodeEnd core poisoned (s.chip, s.mem)).1, mem := (encodeEnd core poisoned (s.chip, s.mem)).2 }
/-- VDEC snapshots (R8). -/
def Vdec.latch (v : Vdec) (row : Nat) : Vdec :=
  { v with
    cores := v.cores.mapV VCore.latch, pics := v.pics.latch, samples := v.samples.latch, refused := v.refused.latch
    concealed := v.concealed.latch, preempt := v.preempt.latch, snapRow := row }

end Sys2Proof.Machine
end

