-- ==== Sys2Proof/Machine/Frog.lean ====
section
/-!
DEFINITION. Frogs (R347 to R349), the end of a ticket (R57), and bind-off with and without DRAIN.
-/
namespace Sys2Proof.Machine

/-! ### Round reservations after they change (R266) -/

/-- Whether a port holds more than a ceiling. -/
def Chip.portOver (c : Chip) (p : Port) : Bool :=
  decide (c.rnd.ceilG < (c.rnd.portLoad p c.roundClaims).1) || decide (c.rnd.ceilBulk < (c.rnd.portLoad p c.roundClaims).2)
/-- OVERBOOKED brought up to date; its rise raises alarm 3 (R266). -/
def Chip.rebook (c : Chip) : Chip :=
  let isOver := c.portOver .east || c.portOver .west
  Chip.alarmIf { c with rnd := { c.rnd with overbooked := isOver } } (isOver && !c.rnd.overbooked) true .overbooked 3 srcRound none 0 0
    (flag (c.portOver .west) 0)

/-! ### Frogs -/

/-- A recovery recorded in RST_LAST (Table 17.11). -/
def Rst.record (r : Rst) (now level cause engine ctx : Nat) : Rst :=
  { r with lastValid := true, lastLevel := level, lastCause := cause, lastEngine := engine, lastCtx := ctx, lastTime := low32 now }
/-- Frames voided one after another from a stage on. -/
def Chip.voidFrames (c : Chip) (ticket stage : Nat) (fs : List FrameRt) : Chip :=
  fs.foldl (fun d f => match d.ticket? ticket with | some t => d.voidFrame t f stage 0x41 false | none => d) c
/-- A decode context frogged: pictures not yet decoded are voided, their cores abandon them, samples being decoded are dropped, and
the stream waits for a random-access point (R176, R349). -/
def Chip.frogDecode (c : Chip) (t : Ticket) (p : Placed) : Chip :=
  let fs := t.frames.filter (fun f => !f.decoded && !f.lost.contains p.stage)
  let d := c.voidFrames t.id p.stage fs
  let d := d.freeHanks t (fs.flatMap (fun f => f.hanks))
  let gone := fun (j : Job) => j.ticket == t.id
  let d := { d with
    vdec := { d.vdec with cores := d.vdec.cores.mapV (fun k => k.frog gone), ready := d.vdec.ready.filter (fun j => !gone j) }
    cast := d.cast.updTicket t.id (fun x => { x with waitRap := true, frames := x.frames.map (fun (f : FrameRt) => { f with decoding := false }) }) }
  match d.ticket? t.id with
  | none => d
  | some u => d.reTicket u ((u.adapt.samples.filter (fun (s : Sample) => s.state == .decoding)).foldl (fun x s => x.dropSample d.now s .aborted) u)
/-- Whether a frog of the encode context replaces an output: it is being coded, or coded and uncommitted, or ready to be coded. -/
def Chip.encodeHolds (c : Chip) (t : Ticket) (o : Out) : Bool :=
  !t.onWire o &&
  (match o.state with
   | .coding => true
   | .ready => true
   | .waiting => c.outReady t o
   | .skipped _ _ => false)
/-- The encoder state after the last output that is committed or on its way over the Round (R186). -/
def Ticket.encKept (t : Ticket) : EncState :=
  ((t.outs.take t.sentOuts).foldl (fun e o => if o.state = .ready ∧ e.coded < o.after.coded then o.after else e) t.encDone).withHanks t.enc
/-- An encode context frogged: its uncommitted outputs are replaced, the pool and the rate control return to the last commit
(R181, R186). -/
def Chip.frogEncode (c : Chip) (t : Ticket) : Chip :=
  let gone := fun (j : Job) => j.ticket == t.id
  let groups := (t.outs.filter (c.encodeHolds t)).map (fun o => o.group)
  let n := (t.outs.filter (c.encodeHolds t)).length
  { c with
    venc := { c.venc with
      cores := c.venc.cores.mapV (fun k => k.frog gone), waiting := c.venc.waiting.filter (fun j => !gone j), skipped := c.venc.skipped.add n }
    rst := { c.rst with voided := c.rst.voided.add n }
    cast := c.cast.updTicket t.id (fun x => { x with
      enc := { x.encKept with skipped := true }
      outs := x.outs.map (fun o => { (if c.encodeHolds t o then { o with state := .skipped 0x41 false, unit := [] } else o) with
        group := if o.group ≠ 0 ∧ groups.contains o.group then 1 else o.group }) }) }
/-- The stage whose hand-off a stage takes its input from. -/
def Ticket.source? (t : Ticket) (p : Placed) : Option Placed :=
  (t.placed.filter (fun q => decide (q.stage < p.stage) && q.kind != .analysis && q.kind != .adapt)).getLast?
/-- Whether a stage has a frame's input and has not finished its work for it. -/
def Chip.inStage (c : Chip) (t : Ticket) (p : Placed) (f : FrameRt) : Bool :=
  (match t.source? p with | none => true | some q => c.stageDone t q f) && !f.lost.contains p.stage &&
  (if p.kind = .analysis then f.detDue && f.anIdx.isSome else !c.stageDone t p f)
/-- Any other context frogged: the frames in its stage are voided from there on; an analysis context loses only the analysis. -/
def Chip.frogStage (c : Chip) (t : Ticket) (p : Placed) : Chip := c.voidFrames t.id p.stage (t.frames.filter (c.inStage t p))
/-- The adaptation context frogged (R222). -/
def Chip.frogAdapt (c : Chip) (t : Ticket) : Chip :=
  let gone := fun (j : Job) => j.ticket == t.id && j.sub == 1
  let d := { c with vdec := { c.vdec with cores := c.vdec.cores.mapV (fun k => k.frog gone), ready := c.vdec.ready.filter (fun j => !gone j) } }
  if t.adapt.stopped then d else d.reTicket t (t.stopAdapt d.now)
/-- Hanks that a frog leaves: those of skip records, units being handed over, samples, adapter copies, the reference pool, and transfers. -/
def Chip.spared (c : Chip) (t : Ticket) : List Nat :=
  t.skips.flatMap (fun k => k.hanks) ++ (match (c.queue t.queue).unit with | some (i, ps) => if i = t.id then ps.flatMap (fun p => p.hanks) else [] | none => []) ++
  t.adapt.cache.flatMap (fun e => e.2.2) ++ t.adapt.copies.flatMap id ++ t.enc.bufs.flatMap (fun b => b.hanks) ++ c.rnd.xout.flatMap (fun x => x.hanks) ++ c.rnd.xin.flatMap (fun x => x.hanks)
/-- Hanks of a frogged context (R241): HELD ones are freed, SHARED ones it would release pass to the holder. -/
def Chip.frogHanks (c : Chip) (t : Ticket) (p : Placed) (ctx : Nat) : Chip :=
  let keep := c.spared t
  let mine := (c.hank.recs.filter (fun e => e.2.owner == ctxTag ctx && e.2.state == .held && !keep.contains e.1)).map (fun e => e.1)
  let d := if p.kind = .adapt then c else c.freeHanks t mine
  { d with hank := { d.hank with recs := d.hank.recs.mapV (fun r => if r.state = .shared ∧ r.owner = ctxTag ctx then { r with owner := 0 } else r) } }
/-- What a frog does on the engine of the context's stage. -/
def Chip.frogKind (c : Chip) (t : Ticket) (p : Placed) : Chip :=
  match p.kind with
  | .decode => c.frogDecode t p
  | .encode => c.frogEncode t
  | .adapt => c.frogAdapt t
  | _ => c.frogStage t p
/-- One context frogged (R349): its engines end its work, hanks and frames follow, an edge on source 385; `cause` as in Table
17.11. A context of no live ticket has nothing to end. -/
def frogContext (cause ctx : Nat) (c : Chip × Mem) : Chip × Mem :=
  match c.1.ctxTicket ctx with
  | none => c
  | some t =>
    match t.stageOf ctx with
    | none => c
    | some p =>
      let d := frogNeedles [ctx] c
      let e := (d.1.frogKind t p).frogHanks t p ctx
      let e := Chip.edge { e with rst := { e.rst.record e.now 1 cause 0xFF ctx with frogs := e.rst.frogs.inc } } 385
      progress t.id ({ e with log := (e.note .frogDone 385 (some ctx) t.id 0 cause).log }, d.2)
/-- Several contexts frogged. -/
def frogContexts (cause : Nat) (ctxs : List Nat) (c : Chip × Mem) : Chip × Mem := ctxs.foldl (fun d x => frogContext cause x d) c

/-! ### The end of a ticket (R57, R242, R241) -/

/-- A ticket's work leaves the video cores at once. -/
def Chip.dropJobs (c : Chip) (ticket : Nat) : Chip :=
  let gone := fun (j : Job) => j.ticket == ticket
  { c with
    vdec := { c.vdec with cores := c.vdec.cores.mapV (fun k => k.frog gone), ready := c.vdec.ready.filter (fun j => !gone j) }
    venc := { c.venc with cores := c.venc.cores.mapV (fun k => k.frog gone), waiting := c.venc.waiting.filter (fun j => !gone j) } }
/-- Hanks charged to a ticket that no host tag holds. -/
def Chip.ticketHanks (c : Chip) (ticket : Nat) : List Nat :=
  (c.hank.recs.filter (fun e => e.2.charged && e.2.ticket == ticket && (tagFn e.2.owner).isNone)).map (fun e => e.1)
/-- A ticket's reservations returned (R51, R57): hanks, waits and markers, views, tracks, regulators, CQ records, Round. -/
def Chip.endTicket (c : Chip) (t : Ticket) : Chip :=
  let d := c.releaseMarkers t.markers
  let d := t.placed.foldl Chip.dropAllowance d
  let d := d.giveBack t t.reserved
  let d := { d with
    hank := { (d.hank.releaseAll (d.ticketHanks t.id)).dropViews t.contexts with waiters := d.hank.waiters.filter (fun w => w.ticket != t.id) }
    tracks := d.tracks.free t.id
    queues := d.queues.mapV (fun q => match q.unit with | some (i, _) => if i = t.id then { q with unit := none } else q | none => q)
    rnd := { d.rnd with xin := d.rnd.xin.filter (fun x => x.ticket != t.id) }
    cast := { d.cast with tickets := d.cast.tickets.filter (fun x => x.id != t.id), closedIds := (t.id, t.fn) :: d.cast.closedIds } }
  d.rebook.reportLtr
/-- What the needles know of the frames of some contexts forgotten. -/
def Chip.forgetContexts (c : Chip) (ctxs : List Nat) : Chip :=
  { c with ndl := { c.ndl with tab := c.ndl.tab.mapV (fun (x : Needle) =>
      { x with frames := x.frames.filter (fun e => !ctxs.contains e.1), since := x.since.filter (fun e => !ctxs.contains e.1) }) } }
/-- A ticket ended with no record of its frames (Table 17.4, step 2). -/
def killTicket (t : Ticket) (c : Chip × Mem) : Chip × Mem :=
  let d := frogNeedles t.contexts c
  ((((d.1.forgetContexts t.contexts).dropJobs t.id).endTicket t).pumpAll d.2, d.2)
/-- Every output of a ticket still uncommitted replaced by a skip record with FAULT. -/
def Ticket.faultOuts (t : Ticket) : Ticket :=
  { t with outs := t.outs.map (fun (o : Out) =>
             if t.onWire o then o else { o with unit := [], group := 1, state := match o.state with | .skipped r s => .skipped r s | _ => .skipped 0x41 false })
           frames := t.frames.map (fun (f : FrameRt) => { f with detDue := false }) }
/-- Skip records of a ticket committed, those of refused submissions too. -/
def flushSkips (ticket : Nat) : Nat → Chip × Mem → Chip × Mem
  | 0, c => c
  | k + 1, c =>
    match c.1.ticket? ticket with
    | none => c
    | some t => match commitSkip t c with | none => c | some d => flushSkips ticket k d
/-- A live ticket ended without DRAIN (R57, step 2b): its contexts frogged, skip records committed, its reservations returned. -/
def closeTicket (cause : Nat) (t : Ticket) (c : Chip × Mem) : Chip × Mem :=
  let d := frogContexts cause t.contexts c
  let d := ({ d.1 with cast := d.1.cast.updTicket t.id Ticket.faultOuts }, d.2)
  match d.1.ticket? t.id with
  | none => d
  | some u =>
    let e := flushSkips t.id (u.skips.length + 1) (flush t.id (u.outs.length + u.units.length + 1) d)
    match e.1.ticket? t.id with
    | none => e
    | some v => killTicket v e

/-! ### Bind-off -/

/-- The frames generated after the last source frame, which DRAIN commits as repeats (R198). -/
def Ticket.drainOuts (t : Ticket) (k now : Nat) : List Out :=
  match t.lastSub with
  | none => []
  | some (s, a) =>
    if t.nextOrder = 0 then []
    else
      let b := match t.prevPts with | none => a | some z => if a < z then a else (a + (a - z)) % 18446744073709551616
      (List.range k).map (fun i => genOut s (t.nextOrder - 1) now true k a b t.look (i + 1))
/-- A ticket that drains: it takes no more submissions, and its last interval is repeats (R57, R198). The request's tag and address are
kept, if it has one; a part of another module's garment has none. -/
def Ticket.drain (t : Ticket) (k now : Nat) (req : Option (Nat × Nat)) : Ticket :=
  { t with closing := true, drainTag := req, drainAt := now, partDrain := req.isNone, outs := t.outs ++ t.drainOuts k now, spare := t.spare - (t.drainOuts k now).length }
/-- Whether a draining ticket has committed everything. -/
def Ticket.drained (t : Ticket) : Bool := t.outs.isEmpty && t.skips.isEmpty && t.units.isEmpty && t.frames.all (fun f => !f.detDue && (f.decoded || !f.lost.isEmpty))
/-- The verdict of a bind-off. -/
def released (id : Nat) : Verdict := { reason := 0, ticket := id }
/-- A Control message to some modules, this one left out. -/
def Chip.tellAll (c : Chip) (ms : List Nat) (code ticket garment : Nat) (b : List Byte) : Chip :=
  { c with rnd := ms.foldl (fun r k => if k = r.id then r else r.sendControl c.now k code ticket garment b) c.rnd }
/-- The ticket a bind-off names, if it is live on the function, not closing, and led by this module (R46, R59). -/
def Chip.bindable (c : Chip) (fn : Nat) (r : Req) : Option Ticket :=
  match c.fnTicket fn r.ticket with
  | none => none
  | some t => if t.closing ∨ (t.garment.isSome ∧ t.lead ≠ c.rnd.id) then none else some t
/-- BIND_OFF to a garment's members and the modules between them (R59, Table 12.6); without DRAIN, RELEASE after it ends the parts that would
run on (log 109). -/
def Chip.tellBindOff (c : Chip) (t : Ticket) (drain : Bool) : Chip :=
  match t.garment with
  | none => c
  | some g =>
    let d := c.tellAll (t.members ++ t.hopMods) 0x0006 t.id g (leBytes 4 t.id)
    if drain then d else d.tellAll (t.members ++ t.hopMods) 0x0004 t.id g []
/-- A drain begun: the frames in flight run on and commit (R57, step 2a). -/
def drainTicket (t : Ticket) (req : Option (Nat × Nat)) (c : Chip × Mem) : Chip × Mem :=
  let k := match c.1.stream? t.pipeline with | none => 0 | some sd => sd.fgK
  progress t.id ({ c.1 with cast := c.1.cast.updTicket t.id (fun x => x.drain k c.1.now req) }, c.2)
/-- A bind-off decided (R57). -/
def bindOff (fn : Nat) (r : Req) (c : Chip × Mem) : Chip × Mem :=
  match c.1.firstChecks fn 2 r, c.1.bindable fn r with
  | some v, _ => (c.1.respondRefused fn r v, c.2)
  | none, none => (c.1.respondRefused fn r (refuse 0x0003 0), c.2)
  | none, some t =>
    if r.drain then drainTicket t (some (r.tag, r.resp)) c
    else
      let e := closeTicket 14 t (c.1.tellBindOff t false, c.2)
      (e.1.respond fn r.resp r.tag e.1.rnd.id (released t.id), e.2)
/-- BIND_OFF (R57). -/
def execBindOff (fn : Nat) (d : HostRead) (s : State) : Host.Outcome State Fault Refusal :=
  .next { s with chip := (requestM fn d (bindOff fn) (s.chip, s.mem)).1, mem := (requestM fn d (bindOff fn) (s.chip, s.mem)).2 }
/-- The last drained output has committed: the ticket ends and the response is written; a garment's members drain in turn (R57, R59). -/
def drainEnd (ticket : Nat) (c : Chip × Mem) : Chip × Mem :=
  match c.1.ticket? ticket with
  | none => c
  | some t =>
    if t.drained then
      match t.drainTag with
      | some (tag, resp) =>
        let d := killTicket t (c.1.tellBindOff t true, c.2)
        (d.1.respondAt t.fn resp tag d.1.rnd.id (low32 t.drainAt) (released t.id), d.2)
      | none => if t.partDrain then killTicket t c else c
    else c
/-- BIND_OFF_DRAIN_END (R57). -/
def execBindOffDrainEnd (ticket : Nat) (s : State) : Host.Outcome State Fault Refusal :=
  .next { s with chip := (drainEnd ticket (s.chip, s.mem)).1, mem := (drainEnd ticket (s.chip, s.mem)).2 }

end Sys2Proof.Machine
end

