-- ==== Sys2Proof/Machine/Rolivo.lean ====
section
/-!
DEFINITION. Rolivo's link level (R249 to R255, R263, R264): what a port receives, sends, replays, locks onto and wraps.
-/
namespace Sys2Proof.Machine

/-! ### Credits and acknowledgements (R252, R254) -/

/-- Receive buffer of a class in beats (Table 12.5). -/
def bufferBeats (cls : Nat) : Nat := if cls = 0 then 512 else if cls = 1 then 4096 else 2048
/-- Adds to one class's cumulative count, modulo 65,536. -/
def addBeats (l : List Nat) (cls n : Nat) : List Nat := l.set cls ((l.getD cls 0 + n) % 65536)
/-- Beats of a class that may still be sent. -/
def RPort.available (x : RPort) (cls : Nat) : Nat := (x.granted.getD cls 0 + 65536 - x.used.getD cls 0) % 65536
/-- The port after a trailer: frames up to ACK leave the replay buffer, credits are what the buffers hold and what was freed. -/
def RPort.trailer (x : RPort) (f : RFrame) : RPort :=
  let rest := (x.replay.dropWhile (fun g => g.lseq != f.ack)).drop 1
  let covered := x.replay.any (fun g => g.lseq == f.ack)
  { x with
    acked := if covered then f.ack else x.acked
    replay := if covered then rest else x.replay
    replayAt := if covered then none else x.replayAt
    granted := (List.range 4).map (fun i => (bufferBeats i + f.credits.getD i 0) % 65536) }
/-- Beats freed in a receive buffer (R254). -/
def RPort.free (x : RPort) (f : RFrame) : RPort := { x with freed := addBeats x.freed f.cls.code f.beats }
/-- A frame as it leaves the port: numbered if it uses credits, with this port's ACK and credits (R252, R254). -/
def RPort.stamp (x : RPort) (f : RFrame) : RFrame :=
  let g := { f with lseq := if f.credited then x.txSeq else f.lseq, ack := (x.rxSeq + 65535) % 65536, credits := x.freed }
  { g with hcrc := crc16 g.header }
/-- An IDLE frame, or a NAK, which is the same with STATUS.NAK (Tables 12.3 and 12.4). -/
def RPort.idleFrame (x : RPort) (id : Nat) (nak : Bool) : RFrame := x.stamp { newFrame id 4 .control 0 0 0 0 0 0 false false [] with nak := nak }
/-- A frame put on the wire that uses no credits. -/
def RPort.sendPlain (x : RPort) (f : RFrame) : RPort := { x with sent := x.sent ++ [f] }

/-! ### Receiving (R249 to R253) -/

/-- The port after a frame it cannot accept: credits back at once, one NAK until the replay (R252). -/
def RPort.reject (x : RPort) (id : Nat) (f : RFrame) : RPort :=
  let y := (x.free f)
  if x.dropping then y else { y.sendPlain (y.idleFrame id true) with dropping := true }
/-- The port after a frame it accepts. -/
def RPort.accept (x : RPort) (f : RFrame) : RPort := { x.trailer f with rxSeq := (x.rxSeq + 1) % 65536, dropping := false }
/-- Whether a frame can be sent on before it is checked whole: nothing waits at the egress, and the next hop has room (R253). -/
def RPort.cutThrough (x : RPort) (f : RFrame) : Bool := x.transit.isEmpty && decide (f.beats ≤ x.available f.cls.code) && x.state == .up
/-- Payload counted as taken in. -/
def Rnd.countRx (r : Rnd) (n : Nat) : Rnd := { r with rx := r.rx.add ((r.rxRest + n) / 1024), rxRest := (r.rxRest + n) % 1024 }
/-- Payload counted as sent. -/
def Rnd.countTx (r : Rnd) (n : Nat) : Rnd := { r with tx := r.tx.add ((r.txRest + n) / 1024), txRest := (r.txRest + n) % 1024 }
/-- A frame for another module sent on in its direction, or dropped at TTL 0 (R251, R253). -/
def Rnd.forward (r : Rnd) (p : Port) (f : RFrame) : Rnd :=
  if f.ttl ≤ 1 then { r.updPort p (fun x => x.free f) with ttlDrop := r.ttlDrop.inc }
  else r.enqueue p.other (some p) { f with ttl := f.ttl - 1 }
/-- A frame whose payload failed after its header was sent on: STOMP in the trailer that follows, a replay asked upstream (R253). -/
def Rnd.stomp (r : Rnd) (p : Port) (f : RFrame) : Rnd :=
  let q := if r.turns p.other then p else p.other
  if f.dest ≠ r.id ∧ f.type ≤ 3 ∧ 1 < f.ttl ∧ (r.port q).cutThrough f = true then
    r.updPort q (fun x => { (x.sendPlain (x.stamp { f with stomp := true, ttl := f.ttl - 1 })) with used := addBeats x.used f.cls.code f.beats })
  else r
/-- What a port makes of a credited frame (R249, R251 to R253): the ring after it, and whether it is for this module. DISCOVER is
handed up wherever it is from. -/
def Rnd.receive (r : Rnd) (p : Port) (f : RFrame) : Rnd × Bool :=
  let x := r.port p
  if x.state != .up then (r, false)
  else if f.stomp then (r.updPort p (fun y => y.free f), false)
  else if !f.hcrcOk || f.lseq != x.rxSeq then (r.updPort p (fun y => y.reject r.id f), false)
  else if !f.pcrcOk then ((r.stomp p f).updPort p (fun y => y.reject r.id f), false)
  else
    let q := r.updPort p (fun y => y.accept f)
    if f.bad then ({ q.updPort p (fun y => y.free f) with badFrame := q.badFrame.inc }, false)
    else if f.type = 6 ∨ f.dest = r.id then ((q.updPort p (fun y => y.free f)).countRx f.payload.length, true)
    else (q.forward p f, false)
/-- A frame without credits on a port: its header is checked, ACK and credits are taken (R254). -/
def Rnd.receivePlain (r : Rnd) (p : Port) (f : RFrame) : Rnd :=
  if (r.port p).state != .up ∨ f.hcrcOk = false then r
  else if f.bad then { r with badFrame := r.badFrame.inc }
  else r.updPort p (fun y => y.trailer f)
/-- IDLE (R254). -/
def execIdle (p : Port) (f : RFrame) (s : State) : Host.Outcome State Fault Refusal :=
  .next { s with chip := { s.chip with rnd := s.chip.rnd.receivePlain p f } }
/-- Frames after ACK sent again with their original headers (R252). -/
def Rnd.replayFrom (r : Rnd) (p : Port) (now : Nat) : Rnd :=
  if (r.port p).replay.isEmpty then r
  else { r.updPort p (fun x => { x with sent := x.sent ++ x.replay, replayAt := some now }) with replays := r.replays.inc }
/-- NAK (R252). -/
def execNak (p : Port) (f : RFrame) (s : State) : Host.Outcome State Fault Refusal :=
  .next { s with chip := { s.chip with rnd :=
    if (s.chip.rnd.port p).state == .up && f.hcrcOk && f.nak then (s.chip.rnd.receivePlain p f).replayFrom p s.chip.now else s.chip.rnd } }

/-! ### Sending (R254, R255) -/

/-- A frame waiting at a port with the port it came in by, if it is in transit. -/
abbrev Waiting := Option Port × RFrame
/-- First waiting frame of a kind: those in transit before this module's own (R255). -/
def RPort.head (x : RPort) (sel : RFrame → Bool) : Option Waiting :=
  match x.transit.find? (fun e => sel e.2) with
  | some e => some (some e.1, e.2)
  | none => (x.egress.find? sel).map (fun f => (none, f))
/-- Bytes in the replay buffer. -/
def RPort.replayBytes (x : RPort) : Nat := x.replay.foldl (fun a f => a + 32 * f.beats) 0
/-- Whether a waiting frame has credits and room in the replay buffer. -/
def RPort.sendable (x : RPort) (w : Waiting) : Bool :=
  decide (w.2.beats ≤ x.available w.2.cls.code) && decide (x.replayBytes + 32 * w.2.beats ≤ 262144)
/-- First waiting frame of a kind, if it can be sent. -/
def RPort.ready (x : RPort) (sel : RFrame → Bool) : Option Waiting := (x.head sel).bind (fun w => if x.sendable w then some w else none)
/-- Control beats among the last `n` beats sent. -/
def ctlBeats : List (Nat × Bool) → Nat → Nat
  | [], _ => 0
  | (b, ctl) :: l, n => if n = 0 then 0 else (if ctl then min b n else 0) + ctlBeats l (n - min b n)
/-- Whether a Control frame stays within 128 beats of any 4,096. -/
def RPort.ctlShare (x : RPort) (w : Waiting) : Bool := decide (ctlBeats x.recent (4096 - w.2.beats) + w.2.beats ≤ 128)
/-- Guaranteed and RESV Bulk frames, those in transit first. -/
def RPort.second (x : RPort) : Option Waiting :=
  match x.ready (fun f => f.cls == .guaranteed), x.ready (fun f => f.cls == .bulk && f.resvBulk) with
  | some a, some b => if a.1.isNone && b.1.isSome then some b else some a
  | some a, none => some a
  | none, b => b
/-- Best-effort and other Bulk frames by weighted round-robin, with the turns left after it. -/
def RPort.third (x : RPort) (wBe wBulk : Nat) : Option (Waiting × Nat × Nat) :=
  let t := if x.wrrBe = 0 ∧ x.wrrBulk = 0 then (wBe, wBulk) else (x.wrrBe, x.wrrBulk)
  match x.ready (fun f => f.cls == .bestEffort), x.ready (fun f => f.cls == .bulk && !f.resvBulk) with
  | some a, some b => if t.1 != 0 then some (a, t.1 - 1, t.2) else some (b, t.1, t.2 - 1)
  | some a, none => some (a, t.1 - 1, t.2)
  | none, some b => some (b, t.1, t.2 - 1)
  | none, none => none
/-- The frame a port sends next, with the round-robin turns left (R255). -/
def RPort.choose (x : RPort) (wBe wBulk : Nat) : Option (Waiting × Nat × Nat) :=
  let ctl := x.ready (fun f => f.cls == .control)
  match ctl.bind (fun w => if x.ctlShare w then some w else none), x.second, x.third wBe wBulk with
  | some w, _, _ => some (w, x.wrrBe, x.wrrBulk)
  | none, some w, _ => some (w, x.wrrBe, x.wrrBulk)
  | none, none, some w => some w
  | none, none, none => ctl.map (fun w => (w, x.wrrBe, x.wrrBulk))
/-- The port after it sends a waiting frame as `f`: numbered, kept for replay, its credits used. -/
def RPort.send (x : RPort) (w : Waiting) (f : RFrame) (turns : Nat × Nat) : RPort :=
  let g := x.stamp f
  { x with
    sent := x.sent ++ [g], replay := x.replay ++ [g]
    txSeq := (x.txSeq + 1) % 65536, used := addBeats x.used g.cls.code g.beats
    transit := match w.1 with | some q => x.transit.erase (q, w.2) | none => x.transit
    egress := match w.1 with | some _ => x.egress | none => x.egress.erase w.2
    recent := ((g.beats, g.cls == .control) :: x.recent).take 4096, wrrBe := turns.1, wrrBulk := turns.2 }
/-- A transfer's frame `old` has left as `f`: the last one starts the wait for XFER_ACK (R257). -/
def XferOut.left (x : XferOut) (now : Nat) (old f : RFrame) : XferOut :=
  { x with frames := x.frames.map (fun g => if g = old then f else g), unsent := x.unsent - 1, leftAt := if x.unsent = 1 then some now else x.leftAt, output := if x.unsent = 1 then none else x.output }
/-- Whether a frame is one of a transfer's. -/
def XferOut.owns (x : XferOut) (f : RFrame) : Bool := f.type == 1 && f.xfer == x.xfer && f.dest == x.dest && x.unsent != 0
/-- The output that commits as a frame leaves: the last frame of the transfer that carries it (R11). -/
def Rnd.commits (r : Rnd) (f : RFrame) : Option Sent := (r.xout.find? (fun x => x.owns f && x.unsent == 1)).bind (fun x => x.output)
/-- A port sends a waiting frame as `f`: the receive buffer of a frame in transit is freed. -/
def Chip.sendFrame (c : Chip) (p : Port) (w : Waiting) (f : RFrame) (turns : Nat × Nat) : Chip :=
  let r := c.rnd.updPort p (fun x => x.send w f turns)
  let r := match w.1 with | some q => r.updPort q (fun y => y.free w.2) | none => r.countTx f.payload.length
  { c with rnd := { r with xout := if w.1.isNone then r.xout.map (fun t => if t.owns w.2 then t.left c.now w.2 f else t) else r.xout } }
/-- A port sends its next frame (R255). With the last frame of an output's transfer the output commits: its records in that frame say when,
and whether it is late (R11, R55, R208). -/
def frameBoundary (p : Port) (c : Chip × Mem) : Chip × Mem :=
  let x := c.1.rnd.port p
  if x.state != .up then c
  else match x.choose c.1.rnd.wrrBe c.1.rnd.wrrBulk with
    | none => c
    | some (w, turns) =>
      match (if w.1.isNone then c.1.rnd.commits w.2 else none) with
      | none => (c.1.sendFrame p w w.2 turns, c.2)
      | some s => progress s.ticket ((c.1.sendFrame p w (stamped w.2 c.1.now (s.stamps.map (fun e => (e.1, c.1.lateNow e.2)))) turns).sentDone s, c.2)
/-- FRAME_BOUNDARY (R255). -/
def execFrameBoundary (p : Port) (s : State) : Host.Outcome State Fault Refusal :=
  .next { s with chip := (frameBoundary p (s.chip, s.mem)).1, mem := (frameBoundary p (s.chip, s.mem)).2 }
/-- An IDLE frame with ACK and credits, sent when the port has no traffic (R254). -/
def Rnd.idleSend (r : Rnd) (p : Port) : Rnd :=
  if (r.port p).state == .up && (r.port p).transit.isEmpty && (r.port p).egress.isEmpty then
    r.updPort p (fun x => x.sendPlain (x.idleFrame r.id false))
  else r
/-- IDLE_SEND (R254). -/
def execIdleSend (p : Port) (s : State) : Host.Outcome State Fault Refusal :=
  .next { s with chip := { s.chip with rnd := s.chip.rnd.idleSend p } }

/-! ### Routes (R261, R263, R264) -/

/-- Hops of a route by a port's direction. -/
def Route.hops (x : Route) (p : Port) : Nat := match p with | .east => x.hopsE | .west => x.hopsW
/-- A route with its hops by one direction set, and DIR chosen anew. -/
def Route.setHops (x : Route) (p : Port) (n : Nat) : Route :=
  Route.steer { x with hopsE := (if p = .east then n else x.hopsE), hopsW := (if p = .west then n else x.hopsW) }
/-- No path. -/
def noPath : Nat := 0x7FF
/-- Routes after a module left the ring by a slip: no path to it, one hop less beyond it (R261). -/
def Rnd.routeSlip (r : Rnd) (m : Nat) : Rnd :=
  let g := r.route m
  { r with routes := r.routes.map (fun e =>
      if e.1 = m then (e.1, (e.2.setHops .east noPath).setHops .west noPath)
      else
        let a := if g.hopsE < e.2.hopsE ∧ e.2.hopsE ≠ noPath then e.2.setHops .east (e.2.hopsE - 1) else e.2
        (e.1, if g.hopsW < a.hopsW ∧ a.hopsW ≠ noPath then a.setHops .west (a.hopsW - 1) else a)) }
/-- Routes after a gap that lies East of module `a` and West of module `b`: no path crosses it (R264). -/
def Rnd.routeGap (r : Rnd) (a b : Nat) : Rnd :=
  let ea := if a = r.id then 0 else (r.route a).hopsE
  let wb := if b = r.id then 0 else (r.route b).hopsW
  { r with routes := r.routes.map (fun e =>
      let x := if ea < e.2.hopsE then e.2.setHops .east noPath else e.2
      (e.1, if wb < x.hopsW then x.setHops .west noPath else x)) }
/-- Routes of a module whose neighbour on a port is now another one: those between are passed by (R263). -/
def Rnd.routeNext (r : Rnd) (p : Port) (nb : Nat) : Rnd :=
  let h := (r.route nb).hops p
  if !(r.route nb).valid || h = noPath || h ≤ 1 then r
  else { r with routes := r.routes.map (fun e =>
    if e.2.hops p = noPath then e
    else if e.2.hops p < h then (e.1, e.2.setHops p noPath) else (e.1, e.2.setHops p (e.2.hops p - (h - 1)))) }

/-! ### Lock, HELLO, wrap (R263, R264) -/

/-- Whether both ports are up or wrapped, as RND_STATUS.READY asks (Table 12.9). -/
def Rnd.portsOk (r : Rnd) : Bool := (r.east.state == .up || r.east.state == .wrapped) && (r.west.state == .up || r.west.state == .wrapped)
/-- A repair recorded in RND_LAST_REPAIR (Table 12.13); the interruption's length is measured (log 19). -/
def Chip.repaired (c : Chip) (kind : Nat) (p : Port) : Chip :=
  { c with rnd := { c.rnd with repKind := kind, repPort := (match p with | .east => 0 | .west => 1), repDur := Config.duration c.freeCtr % 31 }
           freeCtr := c.freeCtr + 1 }
/-- A port that lost its neighbour's signal trains again (R263). -/
def RPort.unlock (x : RPort) : RPort := { x with state := .training, locked := 0, nbValid := false }
/-- LOSS_OF_LOCK (R263). -/
def execLossOfLock (p : Port) (s : State) : Host.Outcome State Fault Refusal :=
  .next { s with chip := { s.chip with rnd := if s.chip.rnd.slipped then s.chip.rnd else s.chip.rnd.updPort p RPort.unlock } }
/-- The locked lanes of a port; the HELLO exchange follows (R263). -/
def Rnd.laneLocked (r : Rnd) (p : Port) (lanes : Nat) : Rnd :=
  if r.slipped then r
  else r.updPort p (fun x => { x with locked := lanes % 256, state := if x.state = .up then .up else .training })
/-- LANE_LOCKED (R263). -/
def execLaneLocked (p : Port) (lanes : Nat) (s : State) : Host.Outcome State Fault Refusal :=
  .next { s with chip := { s.chip with rnd := s.chip.rnd.laneLocked p lanes } }
/-- A wrapped port: idle, its waiting frames turned onto the other port (R264). -/
def Rnd.wrapPort (r : Rnd) (p : Port) : Rnd :=
  let x := r.port p
  let q := r.updPort p (fun y => { y with state := .wrapped, locked := 0, nbValid := false, egress := [], transit := [] })
  x.egress.foldl (fun q f => q.enqueue p none f) (x.transit.foldl (fun q e => q.enqueue p (some e.1) e.2) q)
/-- The modules on the two sides of a gap at a port, as (East of, West of). -/
def Rnd.gapSides (r : Rnd) (p : Port) : Nat × Nat := match p with | .east => (r.id, r.east.neighbour) | .west => (r.west.neighbour, r.id)
/-- A port wrapped: routes through the gap read no path, the other modules are told (R261, R264). -/
def Chip.wrap (c : Chip) (p : Port) : Chip :=
  if c.rnd.slipped ∨ (c.rnd.port p).state = .wrapped then c
  else
    let g := c.rnd.gapSides p
    let r := (c.rnd.routeGap g.1 g.2).wrapPort p
    (Chip.repaired { c with rnd := r.broadcastChange c.now 3 [g.1, g.2] } 2 p).rebook
/-- WRAP (R264): a port that cannot lock in time, or whose link is in fault. -/
def execWrap (p : Port) (s : State) : Host.Outcome State Fault Refusal :=
  .next { s with chip := if (s.chip.rnd.port p).state = .up then s.chip else s.chip.wrap p }
/-- A link in fault (R252): its replay stood unacknowledged for 20 µs, or 16 codewords failed. -/
def Chip.linkFault (c : Chip) (p : Port) : Chip :=
  match (c.rnd.port p).replayAt with
  | some t => { c.advance (t + usTicks 20) with rnd := c.rnd.updPort p (fun x => { x with state := .down, locked := 0, nbValid := false }) }
  | none => { c with rnd := { c.rnd.updPort p (fun x => { x with state := .down, locked := 0, nbValid := false, fecFails := x.fecFails + 16 }) with
                              fecUncorr := c.rnd.fecUncorr.add 16 } }
/-- LINK_FAULT (R252). -/
def execLinkFault (p : Port) (s : State) : Host.Outcome State Fault Refusal := .next { s with chip := s.chip.linkFault p }
/-- A port that has heard its neighbour: frames that its ACK covers are done, the rest are sent again (R252, R263). -/
def RPort.greet (x : RPort) (h : HelloInfo) : RPort :=
  { x with
    state := .up, bypassed := h.bypassed, nbValid := true, neighbour := h.neighbour
    presets := if x.presets.contains h.bypassed then x.presets else h.bypassed :: x.presets
    replay := if x.replay.any (fun f => f.lseq == h.ackLseq) then (x.replay.dropWhile (fun f => f.lseq != h.ackLseq)).drop 1 else x.replay }
/-- What a repair is called: 3 unwrap, 4 join, 5 cold join, 1 slip (Table 12.13). -/
def repairKind (was : PortState) (first cold : Bool) : Nat := if was = .wrapped then 3 else if first then (if cold then 5 else 4) else 1
/-- A HELLO exchange (R263, R264): three or more modules skipped wrap the port; otherwise it is up, its frames are replayed, routes
follow, and the ring is told. -/
def Chip.hello (c : Chip) (p : Port) (h : HelloInfo) : Chip :=
  let x := c.rnd.port p
  if c.rnd.slipped then c
  else if 2 < h.bypassed then c.wrap p
  else
    let first := x.neighbour == 0 && !x.nbValid && x.presets.isEmpty
    let kind := repairKind x.state first (!c.keep.presets)
    let r := (c.rnd.updPort p (fun y => y.greet h)).replayFrom p c.now
    let r := if kind = 1 then r.routeNext p h.neighbour else r
    let r := r.broadcastChange c.now (if kind = 3 then 4 else if kind = 1 then 2 else 5) (if kind = 1 then (if x.nbValid || x.neighbour = h.neighbour then [] else [x.neighbour]) else [c.rnd.id])
    (Chip.repaired { c with rnd := r, keep := { c.keep with presets := true } } kind p).rebook
/-- HELLO (R263). -/
def execHello (p : Port) (h : HelloInfo) (s : State) : Host.Outcome State Fault Refusal := .next { s with chip := s.chip.hello p h }

/-! ### Slip (R262) -/

/-- Ports of a module whose switches are closed: cut off, their frames lost (R262, R263). -/
def RPort.cut (x : RPort) : RPort :=
  { x with
    state := .down, locked := 0, bypassed := 0, nbValid := false, egress := [], transit := [], replay := [], replayAt := none
    txSeq := 0, rxSeq := 0, acked := 0, dropping := false, used := [0, 0, 0, 0], granted := [512, 4096, 2048, 2048], freed := [0, 0, 0, 0]
    recent := [] }
/-- The switches closed. -/
def Rnd.slip (r : Rnd) : Rnd :=
  { r with east := r.east.cut, west := r.west.cut, slipped := true, ready := false, slipPending := false, slipAt := none }
/-- The switches driven open: both ports train (R262, R265). -/
def Rnd.unslip (r : Rnd) : Rnd :=
  { r with east := { r.east with state := .training }, west := { r.west with state := .training }, slipped := false }
/-- A planned slip announced to both neighbours (R262). -/
def Rnd.announceSlip (r : Rnd) (now : Nat) : Rnd :=
  if r.slipped then r
  else
    let nbs := ((if r.east.nbValid then [r.east.neighbour] else []) ++ (if r.west.nbValid then [r.west.neighbour] else [])).eraseDups
    { nbs.foldl (fun r k => r.sendControl now k 0x000C 0 0 (leBytes 1 1 ++ leBytes 2 r.id)) r with slipPending := true, slipAt := some (now + usTicks 10) }
/-- PLANNED_SLIP (R262): the neighbours' buffers have drained, or 10 µs have passed. -/
def execPlannedSlip (s : State) : Host.Outcome State Fault Refusal :=
  .next { s with chip :=
    if s.chip.rnd.slipPending then
      { (match s.chip.rnd.slipAt with | some t => (if (s.chip.rnd.east.replay ++ s.chip.rnd.west.replay).isEmpty then s.chip else s.chip.advance t) | none => s.chip)
        with rnd := s.chip.rnd.slip }
    else s.chip }
/-- RND snapshots (R8). -/
def Rnd.latch (r : Rnd) (row : Nat) : Rnd :=
  { r with
    tx := r.tx.latch, rx := r.rx.latch, fecUncorr := r.fecUncorr.latch, replays := r.replays.latch, resend := r.resend.latch
    ttlDrop := r.ttlDrop.latch, alarmSupp := r.alarmSupp.latch, badFrame := r.badFrame.latch, snapRow := row
    east := { r.east with fecFails := 0 }, west := { r.west with fecFails := 0 } }

end Sys2Proof.Machine
end

