-- ==== Sys2Proof/Machine/Garment.lean ====
section
/-!
DEFINITION. Garments: the lead's side and the commit of a garment cast-on (R59), a garment's end, and the garment abort (R362 to R364). The
handlers of Control messages take the message with its order already checked (R258).
-/
namespace Sys2Proof.Machine

/-! ### The end of a hold -/

/-- The hold of a garment. -/
def Cast.hold? (k : Cast) (g : Nat) : Option GarmentHold := k.holds.find? (fun h => h.garment == g)
/-- A hold dropped: its markers are free again, its reservations no longer count. -/
def Chip.dropHold (c : Chip) (h : GarmentHold) : Chip :=
  let d := c.releaseMarkers h.ticket.markers
  { d with cast := { d.cast with holds := d.cast.holds.erase h } }
/-- A garment's reservation as a module between members dropped. -/
def Chip.dropHop (c : Chip) (g : Nat) : Chip := Chip.rebook { c with cast := { c.cast with hops := c.cast.hops.filter (fun h => h.garment != g) } }
/-- The live ticket of a garment. -/
def Chip.garmentTicket (c : Chip) (g : Nat) : Option Ticket := c.cast.tickets.find? (fun t => t.garment == some g)
/-- GARMENT_HOLD_EXPIRE (R59): neither COMMIT nor RELEASE came within 10 ms of the answer. -/
def Chip.holdExpire (c : Chip) (g : Nat) : Chip :=
  match c.cast.hold? g with
  | none => c
  | some h => (c.advance h.expires).dropHold h
/-- GARMENT_HOLD_EXPIRE (R59). -/
def execGarmentHoldExpire (garment : Nat) (s : State) : Host.Outcome State Fault Refusal := .next { s with chip := s.chip.holdExpire garment }
/-- COMMIT (R59): the hold becomes the ticket's reservations; without a hold it is refused. -/
def Chip.gCommit (c : Chip) (f : RFrame) : Chip :=
  match c.cast.hold? f.garment with
  | none => c.sendAnswer f.src f.garment 0x0011
  | some h =>
    let d := { c with cast := { c.cast with holds := c.cast.holds.erase h } }
    if h.hop then
      { d with cast := { d.cast with hops := d.cast.hops ++ [{ garment := h.garment, lead := f.src, ticket := f.ticket, path := h.ticket.roundPath }] } }
    else d.openTicket h.ticket (partKey f.src f.ticket)
/-- The part of a garment that this module has, ended: a hold dropped, a hop's bandwidth returned, a live ticket closed. -/
def endPart (g cause : Nat) (c : Chip × Mem) : Chip × Mem :=
  let d := match c.1.cast.hold? g with | none => c.1 | some h => c.1.dropHold h
  let d := if d.cast.hops.any (fun h => h.garment == g) then d.dropHop g else d
  match d.garmentTicket g with
  | none => (d, c.2)
  | some t => closeTicket cause t (d, c.2)
/-- RELEASE (R59). -/
def gRelease (f : RFrame) (c : Chip × Mem) : Chip × Mem := endPart f.garment 14 c
/-- BIND_OFF received (R57, R59): this module's part of the garment ends once its frames, and those on their way to it, have committed, or
with the RELEASE after it; a hold or a hop's bandwidth ends at once (log 109). -/
def gBindOff (f : RFrame) (c : Chip × Mem) : Chip × Mem :=
  match c.1.garmentTicket f.garment with
  | some t => if t.closing then c else drainTicket t none c
  | none => endPart f.garment 14 c

/-! ### The lead (R59) -/

/-- The garment being decided. -/
def Cast.lead? (k : Cast) (g : Nat) : Option GarmentLead := k.leads.find? (fun l => l.garment == g)
/-- A decision taken off the list. -/
def Chip.dropLead (c : Chip) (l : GarmentLead) : Chip := { c with cast := { c.cast with leads := c.cast.leads.erase l } }
/-- All answers OK: the ticket is issued, COMMIT goes to all, the response is written (R59, steps 4 and 5). -/
def Chip.commitGarment (c : Chip) (l : GarmentLead) : Chip :=
  let id := nextTicket c.cast.lastTicket
  let d := ({ c.dropLead l with cast := { (c.dropLead l).cast with lastTicket := id } }).tellAll l.asked 0x0003 id l.garment []
  (d.openTicket l.ticket id).respond l.fn l.respAddr l.reqTag c.rnd.id (d.accepted l.ticket.placed l.ticket.roundPath id l.price)
/-- A garment cast-on refused by a member, or for want of its answer (R59, step 4′). -/
def Chip.refuseGarment (c : Chip) (l : GarmentLead) (reason detail k : Nat) : Chip :=
  let d := ((c.dropLead l).releaseMarkers l.ticket.markers).tellAll l.asked 0x0004 0 l.garment []
  Chip.respond { d with cast := { d.cast with refused := d.cast.refused.inc } } l.fn l.respAddr l.reqTag k { reason := reason, detail := detail, price := l.price }
/-- ANSWER (R59). A refusal after COMMIT, of a member that had dropped its hold, ends the garment with RELEASE to all. -/
def gAnswer (f : RFrame) (c : Chip × Mem) : Chip × Mem :=
  let reason := le (f.payload.drop 2) 0 2
  match c.1.cast.lead? f.garment, c.1.garmentTicket f.garment with
  | some l, _ =>
    if !l.due.contains f.src then c
    else if reason ≠ 0 then (c.1.refuseGarment l (if reason = 0x0012 then 0x0012 else 0x0010) (if reason = 0x0012 then f.src else reason) f.src, c.2)
    else if l.due.erase f.src = [] then (c.1.commitGarment l, c.2)
    else ({ c.1 with cast := { c.1.cast with leads := c.1.cast.leads.map (fun x => if x = l then { x with due := x.due.erase f.src } else x) } }, c.2)
  | none, some t =>
    if reason ≠ 0 ∧ t.lead = c.1.rnd.id then
      closeTicket 14 t (c.1.tellAll ((t.members ++ t.hopMods).eraseDups) 0x0004 t.id f.garment [], c.2)
    else c
  | none, none => c
/-- A garment cast-on's first phase: the lead's own part, then RESERVE to every member and every module between (R59). -/
def Chip.garmentCastOn (c : Chip) (fn : Nat) (r : Req) (raw : List Byte) : Chip :=
  match c.firstChecks fn 3 r with
  | some v => c.respondRefused fn r v
  | none =>
    let ms := match c.stream? r.pipeline with | none => [] | some sd => sd.members
    let loads := c.hopLoads r ms
    let mine := (ms.find? (fun m => m.module == c.rnd.id)).getD { module := c.rnd.id, deadline := r.deadline, pipeline := r.pipeline }
    let ids := (c.rnd.id :: ms.map (fun m => m.module)).eraseDups
    match c.judgePart r mine c.rnd.id ids (loadsOf loads c.rnd.id) with
    | .inl v => c.respondRefused fn r v
    | .inr t =>
      let hops := ((loads.map (fun e => e.1)).filter (fun k => !ids.contains k)).eraseDups
      let asked := ids.filter (fun k => k != c.rnd.id) ++ hops
      let l : GarmentLead :=
        { garment := r.garment, fn := fn, reqTag := r.tag, respAddr := r.resp, sentAt := c.now, asked := asked, due := asked, price := r.price,
          ticket := { t with fn := fn, queue := globalQueue fn r.queue, hopMods := hops } }
      let d := c.holdMarkers t 0
      let d := { d with
        cast := { d.cast with leads := d.cast.leads ++ [l] }
        rnd := asked.foldl (fun q k => q.sendControl c.now k 0x0002 0 r.garment
          (reserveBytes raw (ms.find? (fun m => m.module == k)) (loadsOf loads k) ids)) d.rnd }
      if asked = [] then d.commitGarment l else d
/-- GARMENT_CAST_ON (R59). -/
def execGarmentCastOn (fn : Nat) (d : HostRead) (s : State) : Host.Outcome State Fault Refusal :=
  .next { s with chip := s.chip.request fn d (fun c r => c.garmentCastOn fn r (match d with | .data b => b | _ => [])) }
/-- GARMENT_ANSWER_TIMEOUT (R59): 5 ms after RESERVE some member has not answered. -/
def Chip.answerTimeout (c : Chip) (g : Nat) : Chip :=
  match c.cast.lead? g with
  | none => c
  | some l => (c.advance (l.sentAt + usTicks 5000)).refuseGarment l 0x0011 (l.due.headD 0) (l.due.headD 0)
/-- GARMENT_ANSWER_TIMEOUT (R59). -/
def execGarmentAnswerTimeout (garment : Nat) (s : State) : Host.Outcome State Fault Refusal :=
  .next { s with chip := s.chip.answerTimeout garment }

/-! ### Garment abort (R362 to R364) -/

/-- CAUSE in RST_LAST of an abort: 6 is the host's request, 5 a Function Level Reset or D3hot (Table 17.11; log 52). -/
def abortCode (cause : Nat) : Nat := if cause = 6 then 2 else if cause = 5 then 14 else Config.recoveryCause cause % 16
/-- Whether this module has a part in a garment: a live ticket, a hold, or bandwidth between members. -/
def Chip.inGarment (c : Chip) (g : Nat) : Bool :=
  (c.garmentTicket g).isSome || (c.cast.hold? g).isSome || c.cast.hops.any (fun h => h.garment == g)
/-- An abort recorded: RST_LAST, RST_ABORTS, the edge on source 390 and alarm 37 (R363, Table 17.6). -/
def Chip.recordAbort (c : Chip) (g cause ticket : Nat) : Chip :=
  Chip.alarm { c with rst := { c.rst.record c.now 6 (abortCode cause) 0xFF (g % 4096) with aborts := c.rst.aborts.inc } }
    true .garmentAbort 37 390 none ticket cause g
/-- A garment aborted here: GARMENT_ABORT to every member that has not been heard from about it, the record, this module's part ended. A
garment this module has no part in is left alone (R364). -/
def abortGarment (g cause : Nat) (heard : List Nat) (c : Chip × Mem) : Chip × Mem :=
  if c.1.inGarment g then
    let t := c.1.garmentTicket g
    let ms := match t with
      | some t => t.members ++ t.hopMods
      | none => match c.1.cast.hold? g with | some h => h.ticket.members | none => []
    let id := match t with | some t => t.id | none => 0
    let d := c.1.tellAll ((ms.eraseDups).filter (fun k => !heard.contains k && c.1.rnd.reachable k)) 0x0007 id g (leBytes 2 cause)
    let e := endPart g 14 (d, c.2)
    (e.1.recordAbort g cause id, e.2)
  else c
/-- GARMENT_ABORT received: this part ends, the abort is sent on (R363). -/
def gAbort (f : RFrame) (c : Chip × Mem) : Chip × Mem := abortGarment f.garment (le (f.payload.drop 2) 0 2) [f.src] c
/-- Every garment this module takes part in. -/
def Chip.garments (c : Chip) : List Nat :=
  (c.cast.tickets.filterMap (fun t => t.garment) ++ c.cast.holds.map (fun h => h.garment) ++ c.cast.hops.map (fun h => h.garment)).eraseDups
/-- The lead of a garment that has a part here. -/
def Chip.leadOf (c : Chip) (g : Nat) : Nat :=
  match c.garmentTicket g, c.cast.hold? g with
  | some t, _ => t.lead
  | none, some h => h.ticket.lead
  | none, none => ((c.cast.hops.find? (fun h => h.garment == g)).map (fun h => h.lead)).getD c.rnd.id
/-- Garments aborted that this module can no longer be part of: the lead, or for a lead a member, is unreachable (R245, R362, R363). -/
def Chip.brokenGarments (c : Chip) : List Nat :=
  c.garments.filter (fun g =>
    (decide (c.leadOf g ≠ c.rnd.id) && !c.rnd.reachable (c.leadOf g)) ||
    (match c.garmentTicket g with | none => false | some t => t.members.any (fun k => k != c.rnd.id && !c.rnd.reachable k)))
/-- Those garments aborted with cause 2. -/
def abortBroken (c : Chip × Mem) : Chip × Mem := c.1.brokenGarments.foldl (fun d g => abortGarment g 2 [] d) c

end Sys2Proof.Machine
end

