-- ==== Sys2Proof/Machine/Logs.lean ====
section
/-!
DEFINITION. The commands of the event block and of the incident log (ch. 15): acknowledgements, hints, moderation, and the tiers of
Table 15.3.
-/
namespace Sys2Proof.Machine

/-! ### Events -/

/-- EVENT_ACK (R313, R315). -/
def execEventAck (src seen : Nat) (s : State) : Host.Outcome State Fault Refusal :=
  .next { s with chip := s.chip.eventAck (src % 1024) (seen % 256) }
/-- IDLE_HINT (R318). -/
def execIdleHint (v : Nat) (s : State) : Host.Outcome State Fault Refusal := .next { s with chip := s.chip.idleHint (v % 2048) }
/-- EVC_DISABLE (R319). -/
def execEvcDisable (on : Bool) (s : State) : Host.Outcome State Fault Refusal := .next { s with chip := s.chip.evcDisable on }
/-- A vector's timer runs out; a request that waited for it is sent (R317). -/
def Chip.moderationExpire (c : Chip) (fn v : Nat) : Chip :=
  match (c.evc.vec fn v).timer with
  | none => c
  | some t =>
    let d := c.advance t
    { d with evc := (d.evc.updVec fn v (fun x => { x with timer := none })).trySend d.pcie d.now fn v }
/-- MODERATION_TIMER_EXPIRE (R317). -/
def execModerationTimerExpire (fn v : Nat) (s : State) : Host.Outcome State Fault Refusal :=
  .next { s with chip := s.chip.moderationExpire fn v }
/-- A vector unmasked and enabled: its own mask, the Function Mask and MSI-X Enable no longer hold it, and the requests of the function
that this lets go are sent (R316; log 57). -/
def Chip.vectorUnmask (c : Chip) (fn v : Nat) : Chip :=
  let d := { c with
    evc := c.evc.updVec fn v (fun x => { x with masked := false })
    pcie := c.pcie.updFn fn (fun f => { f with msixEnable := true, funcMask := false }) }
  { d with evc := d.evc.flush d.pcie d.now (fun f => f == fn) }
/-- VECTOR_UNMASK (R316). -/
def execVectorUnmask (fn v : Nat) (s : State) : Host.Outcome State Fault Refusal := .next { s with chip := s.chip.vectorUnmask fn v }
/-- ALARM_ACK (R324). -/
def execAlarmAck (k rep : Nat) (s : State) : Host.Outcome State Fault Refusal := .next { s with chip := s.chip.alarmAck (k % 64) (rep % 256) }

/-! ### Tiers of the log (R321) -/

/-- Records of the HBM tier and of the persistent tier (Table 15.3). -/
def tierSize : Nat := 524288
/-- The on-chip backlog copied to the HBM tier, once HBM is ready. -/
def Log.copy (l : Log) : Log :=
  if l.hbmReady then
    { l with hbm := (l.toCopy.reverse ++ l.hbm).take tierSize, headHbm := (l.headHbm + l.toCopy.length) % tierSize, toCopy := [] }
  else l
/-- LOG_COPY (R321). -/
def execLogCopy (s : State) : Host.Outcome State Fault Refusal := .next { s with chip := { s.chip with log := s.chip.log.copy } }
/-- The persistent tier with room for `n` more records: the oldest sector of 128 is erased when it is full. -/
def Log.sectorFor (l : Log) (n : Nat) : List LogRec :=
  if tierSize < l.pers.length + n then l.pers.take (l.pers.length - 128) else l.pers
/-- One page of at most 8 waiting ERROR and ALARM records programmed, unless a slot write defers it (R321). -/
def Log.page (l : Log) : Log :=
  if l.persDefer then l
  else
    let p := l.toPersist.take 8
    { l with pers := p.reverse ++ l.sectorFor p.length, headPers := (l.headPers + p.length) % tierSize, toPersist := l.toPersist.drop 8 }
/-- LOG_PERSIST (R321). -/
def execLogPersist (s : State) : Host.Outcome State Fault Refusal := .next { s with chip := { s.chip with log := s.chip.log.page } }
/-- Every waiting ERROR and ALARM record programmed, as before Nap and a power cycle (R340, R361). -/
def Log.persistAll : Nat → Log → Log
  | 0, l => l
  | k + 1, l => if l.toPersist.isEmpty then l else Log.persistAll k l.page
/-- The waiting records programmed page by page. -/
def Log.persist (l : Log) : Log := Log.persistAll (l.toPersist.length / 8 + 1) l
/-- LOG snapshots (R8). -/
def Log.latch (l : Log) (row : Nat) : Log :=
  { l with keptCtr := l.keptCtr.latch, suppCtr := l.suppCtr.latch, snapRow := row, alarmSent := [], alarmSupp := [] }
/-- EVC snapshots (R8). -/
def Evc.latch (e : Evc) (row : Nat) : Evc := { e with sent := e.sent.latch, snapRow := row }

end Sys2Proof.Machine
end

