-- ==== Sys2Proof/Machine/Pattern.lean ====
section
/-!
DEFINITION. The pattern (ch. 14): how a slot is judged (R300), the checks a pattern must pass (R302), and how it is applied
(R132 to R134, step 8 of Table 14.9).
-/
namespace Sys2Proof
open Sys2Proof.Machine

/-! ### Judging a slot (R295, R296, R300) -/

/-- Whether a commit record is valid (check 1 of R300). -/
def CommitRec.ok (r : CommitRec) : Bool := r.magic == 0x54494D43 && r.crcOk
/-- Commit sequence of a slot; 0 without a valid commit record. -/
def Slot.seq (s : Slot) : Nat := match s.commit with | none => 0 | some r => if r.ok then r.seq else 0
/-- Whether a slot's commit record is valid. -/
def Slot.committed (s : Slot) : Bool := match s.commit with | none => false | some r => r.ok
/-- Whether two pairs of base and length are disjoint. -/
def apart (a b : Nat × Nat) : Bool := decide (a.1 + a.2 ≤ b.1 ∨ b.1 + b.2 ≤ a.1)
/-- Whether every two elements of a list stand in a symmetric relation. -/
def pairwiseB {α : Type} (p : α → α → Bool) : List α → Bool
  | [] => true
  | x :: l => l.all (p x) && pairwiseB p l
/-- Whether the header and the directory keep R295 and R296. -/
def Image.headerOk (i : Image) : Bool :=
  i.magic == 0x4E525450 && i.format == 1 && decide (9 ≤ i.sections ∧ i.sections ≤ 16) && i.dir.length == i.sections && i.resvOk &&
  decide (i.keyIndex ≤ 3) && i.imageLen % 4096 == 0 && decide (i.imageLen ≤ 100659200) &&
  (List.range' 1 9).all (fun k => (i.dir.filter (fun e => e.kind == k)).length == 1) &&
  i.dir.all (fun e => (decide (1 ≤ e.kind ∧ e.kind ≤ 9) || bit e.kind 15) && e.offset % 4096 == 0 &&
    apart (e.offset, e.length) (0, 0x80 + 16 * i.sections) && decide (e.offset + e.length + 4096 ≤ i.imageLen)) &&
  pairwiseB apart (i.dir.map (fun e => (e.offset, e.length)))
/-- Whether every section's CRC holds. -/
def Image.crcsOk (i : Image) : Bool := i.dir.all (fun e => e.crc == e.actual)
/-- Checks 1 to 3 of R300 as a result code of Table 14.10, 0 if they pass. -/
def Slot.early (s : Slot) (rom : Nat) : Nat :=
  match s.commit, s.image with
  | some r, some i =>
    if !r.ok then 1 else if !i.headerOk || i.imageLen != r.imageLen then 2 else if rom < i.minRom then 3 else 0
  | some r, none => if r.ok then 2 else 1
  | none, _ => 1
/-- Checks 4 and 5 of R300 for an image and the digest it must have. -/
def Image.late (i : Image) (digest : Nat) : Nat := if i.digest ≠ digest ∨ i.crcsOk = false then 4 else if i.sigOk then 0 else 5

/-! ### Pattern checks (Table 14.18) -/

/-- Needles that a mesh route passes through: along the row, then along the column (R132). -/
def meshRoute (a b : Nat) : List Nat :=
  let row := if meshX a ≤ meshX b then List.range' (meshX a) (meshX b - meshX a + 1) else List.range' (meshX b) (meshX a - meshX b + 1)
  let col := if meshY a ≤ meshY b then List.range' (meshY a) (meshY b - meshY a + 1) else List.range' (meshY b) (meshY a - meshY b + 1)
  row.map (fun x => 8 * meshY a + x) ++ col.map (fun y => 8 * y + meshX b)
/-- Whether every route between two needles of a set stays in it. -/
def routeClosed (ns : List Nat) : Bool := ns.all (fun a => ns.all (fun b => (meshRoute a b).all (fun k => ns.contains k)))
/-- Whether no element occurs twice. -/
def distinct (l : List Nat) : Bool := l.eraseDups.length == l.length
/-- Check 1: R29. -/
def Pattern.gaugeOk (p : Pattern) : Bool :=
  decide (1000 ≤ p.policy.floor ∧ p.policy.floor ≤ 2300 ∧ 600 ≤ p.policy.vmin ∧ p.policy.vmin ≤ 900)
/-- Check 2: R132. -/
def Pattern.panelsOk (p : Pattern) : Bool :=
  decide (p.panels.length ≤ 16) && distinct (p.panels.map (fun x => x.id)) && p.panels.all (fun x => decide (x.id < 16) && x.needles.all (fun n => decide (n < 64)) && routeClosed x.needles) &&
  distinct (p.panels.flatMap (fun x => x.needles)) &&
  (List.range 12).all (fun k => (p.panels.filter (fun x => x.dec.contains k)).length == 1) && p.panels.all (fun x => x.dec.all (fun k => decide (k < 12))) &&
  (List.range 8).all (fun k => (p.panels.filter (fun x => x.enc.contains k)).length == 1) && p.panels.all (fun x => x.enc.all (fun k => decide (k < 8)))
/-- Check 3: R142. -/
def Pattern.yokeOk (p : Pattern) : Bool :=
  decide (16 ≤ p.policy.chartMib ∧ p.policy.chartMib ≤ 56 ∧ p.policy.sharedMib ≤ 32) &&
  p.policy.chartMib + p.policy.sharedMib + p.panels.foldl (fun a x => a + x.yokeMib) 0 == 64 &&
  p.panels.all (fun x => x.yokeMib == 0 || x.yokeBase == p.policy.chartMib + p.policy.sharedMib +
    (p.panels.filter (fun y => decide (y.id < x.id))).foldl (fun a y => a + y.yokeMib) 0)
/-- Width of a stage, by its cost entries. -/
def Pattern.widthOf (p : Pattern) (pipeline stage : Nat) : Nat :=
  (p.costs.filter (fun e => e.pipeline == pipeline && e.stage == stage)).foldl (fun a e => max a e.width) 1
/-- Stages of a stream-table entry of one kind, by number. -/
def StreamDef.stagesOf (sd : StreamDef) (k : StageKind) : List Nat :=
  ((List.range sd.stages.length).zip sd.stages).filterMap (fun e => if e.2.kind = k then some e.1 else none)
/-- Whether an output's split is one of R178: wavefront rows for HEVC, or a uniform tile grid. -/
def StreamDef.splitOk (sd : StreamDef) : Bool :=
  match sd.split.kind with | .wavefront => !sd.av1 | .tiles => sd.split.cols != 0 && sd.split.units.length % sd.split.cols == 0 | _ => false
/-- Check 4: R178. -/
def Pattern.splitsOk (p : Pattern) : Bool :=
  p.streams.all (fun sd => (sd.stagesOf .encode).all (fun i => sd.splitOk && decide (p.widthOf sd.index i ≤ sd.split.units.length)))
/-- Check 5: R182. -/
def Pattern.outputsOk (p : Pattern) : Bool :=
  p.streams.all (fun sd => (sd.stagesOf .encode).isEmpty ||
    (sd.outW % 2 == 0 && sd.outH % 2 == 0 && decide (64 ≤ sd.outW ∧ sd.outW ≤ 7680 ∧ 64 ≤ sd.outH ∧ sd.outH ≤ 4320)))
/-- Whether a number lies in a range. -/
def within (lo hi n : Nat) : Bool := decide (lo ≤ n ∧ n ≤ hi)
/-- Every parameter of Table 10.1 within its range: each pipeline of the stream table carries them all (R195). -/
def StreamDef.enhanceOk (sd : StreamDef) : Bool :=
  sd.outW % 2 == 0 && sd.outH % 2 == 0 && within 64 7680 sd.outW && within 64 4320 sd.outH && within 0 3 sd.fgK && within 1 255 sd.cutShare &&
  within 1 8 sd.anEvery && sd.anW % 16 == 0 && sd.anH % 16 == 0 && within 64 1920 sd.anW && within 64 1088 sd.anH &&
  within 0 65535 sd.detMin && within 0 65535 sd.newMin && within 0 65535 sd.nmsIou && within 0 65535 sd.matchMin && within 0 256 sd.iouWeight &&
  within 1 512 sd.detMax && within 1 4096 sd.trackMax && within 1 8 sd.confirmHits && within 1 255 sd.maxMisses && sd.roiMap.all (fun r => decide (r ≤ 7)) &&
  within 1 64 sd.rank && within 0 2 sd.trainFmt && within 1 64 sd.accum && within 1 1024 sd.publishSteps && within 0 65536 sd.cacheHanks &&
  (Fmt.ofCode sd.liveFmt).any (fun f => f.float?.isSome || f == .s8) && decide (sd.trainMargin ≤ 3)
/-- The parameters of a stream-table entry for its stages and video, each within its range: up to 4 candidate panels and a role for each
stage (R136, R19); the grid and NBUF where the entry has motion-field buffers (R173, R175); the output's STRUCTURE, KEY_INTERVAL, NREF,
ROI_MAX_AGE and ROI offsets where it encodes (R184, R186, R191). -/
def StreamDef.videoOk (sd : StreamDef) : Bool :=
  sd.stages.all (fun st => decide (st.candidates.length ≤ 4 ∧ st.role ≤ 3) && st.candidates.all (fun p => decide (p < 16))) &&
  (sd.mfBufs.isEmpty || (within 2 4 sd.nbuf && (sd.mfGrid == 8 || sd.mfGrid == 16))) &&
  ((sd.stagesOf .encode).isEmpty ||
    ((match sd.gop with | .lowDelay => true | .hier g => g == 2 || g == 4 || g == 8) &&
     within 0 65535 sd.keyInterval && within 2 17 sd.nref && (sd.outDepth == 8 || sd.outDepth == 10) && within 1 255 sd.roiMaxAge && sd.roiOffsets.all (fun x => decide (-12 ≤ x ∧ x ≤ 12))))
/-- Whether a stream-table entry passes check 6: at least one codec (R160) and every parameter within its range. -/
def StreamDef.ok (sd : StreamDef) : Bool := !sd.codecs.isEmpty && sd.enhanceOk && sd.videoOk
/-- Check 6: R195, R160. -/
def Pattern.streamsOk (p : Pattern) : Bool := p.streams.all StreamDef.ok
/-- Check 7: R228. -/
def Pattern.regionsOk (p : Pattern) : Bool :=
  decide (p.regions.length ≤ 64) &&
  p.regions.all (fun r => r.base % 0x200000 == 0 && r.size % 0x200000 == 0 && decide (0x840000000 ≤ r.base ∧ r.base + r.size ≤ 0x1800000000)) &&
  pairwiseB apart (p.regions.map (fun r => (r.base, r.size)))
/-- Check 8: R256. -/
def Pattern.roundOk (p : Pattern) : Bool := decide (p.round.ceilG + p.round.ceilBulk ≤ 85846)
/-- Check 9: the range of every PAT field. -/
def Pattern.fieldsOk (p : Pattern) : Bool :=
  within 3125 400000 p.policy.rowTicks && within 1200 3000 p.policy.cap && within 0 4095 p.policy.base && within 0 1 p.policy.degrade &&
  within 0 4194303 p.policy.sharedMin && within 0 4423680 p.policy.ceilHbm && within 1 1023 p.policy.hushUs && within 1 64 p.policy.dozeQms &&
  within 1 255 p.round.wrrBe && within 1 255 p.round.wrrBulk && within 0 7 p.round.roles && (match p.round.moduleId with | none => true | some k => decide (k < 1024)) &&
  p.panels.all (fun x => within 0 16777215 x.beHbm && within 0 16777215 x.beYoke && within 0 16777215 x.beRound)
/-- Sources whose entry must be 0: QUEUE, VF CAST, DOE and reserved sources (R298, Table 15.1). -/
def fixedSource (n : Nat) : Bool := decide (n ≤ 255) || decide (257 ≤ n ∧ n ≤ 273) || reservedSource n
/-- Whether a source entry keeps R298: TARGET 0, a PF vector, or a holder core. -/
def routeOk (r : Nat × Nat × Nat) : Bool :=
  decide (r.1 < 1024) &&
  (if fixedSource r.1 then r.2.1 == 0 && r.2.2 == 0
   else r.2.1 == 0 || (if r.2.1 = 1 then decide (r.2.2 < 2048) else r.2.1 == 2 && decide (r.2.2 < 4)))
/-- Check 10: R298. -/
def EventsDef.ok (e : EventsDef) : Bool :=
  e.routes.all routeOk &&
  e.vecMod.all (fun v => decide (v.1 < 2048 ∧ v.2 ≤ 1023)) && within 0 1023 e.vfMod && decide (e.collectors.length ≤ 2) && e.collectors.all (fun k => decide (k < 1024))
/-- Number of the first check of Table 14.18 that fails, 0 if none does. -/
def Pattern.check (p : Pattern) : Nat :=
  (([p.gaugeOk, p.panelsOk, p.yokeOk, p.splitsOk, p.outputsOk, p.streamsOk, p.regionsOk, p.roundOk, p.fieldsOk, p.events.ok].zip (List.range' 1 10)).find?
    (fun e => !e.1)).elim 0 (fun e => e.2)
/-- All the checks of R300 and R302 on a slot: result code and CHECK. -/
def Slot.full (s : Slot) (rom : Nat) : Nat × Nat :=
  if s.early rom ≠ 0 then (s.early rom, 0)
  else match s.image, s.commit with
    | some i, some r => if i.late r.digest ≠ 0 then (i.late r.digest, 0) else if i.pattern.check ≠ 0 then (6, i.pattern.check) else (0, 0)
    | _, _ => (1, 0)

/-! ### Choosing a slot (R300, R302) -/

/-- What the ROM makes of the two slots: results, checks, and the slot applied with whether it is the older one. -/
structure Choice where
  resA     : Nat
  resB     : Nat
  checkA   : Nat
  checkB   : Nat
  slotB    : Option Bool
  fallback : Bool
deriving DecidableEq, Repr
/-- Code that a slot shows when the other one was applied. -/
def Slot.unjudged (s : Slot) (rom : Nat) : Nat := if s.early rom = 0 then 0xF else s.early rom
/-- The slots judged: the one with the higher SEQ among those that pass checks 1 to 3 first, A if equal. -/
def judgeSlots (rom : Nat) (a b : Slot) : Choice :=
  let bFirst := b.early rom == 0 && (a.early rom != 0 || decide (a.seq < b.seq))
  let x := if bFirst then b else a
  let y := if bFirst then a else b
  let mk := fun (rx ry : Nat × Nat) (s : Option Bool) (old : Bool) =>
    if bFirst then ({ resA := ry.1, resB := rx.1, checkA := ry.2, checkB := rx.2, slotB := s, fallback := old } : Choice)
    else { resA := rx.1, resB := ry.1, checkA := rx.2, checkB := ry.2, slotB := s, fallback := old }
  if (x.full rom).1 = 0 then mk (0, 0) (y.unjudged rom, 0) (some bFirst) (y.committed && decide (x.seq < y.seq))
  else if (y.full rom).1 = 0 then mk (x.full rom) (0, 0) (some (!bFirst)) (x.committed && decide (y.seq ≤ x.seq))
  else mk (x.full rom) (y.full rom) none false

/-- Largest minimum size among a panel's charts. -/
def Pattern.minOf (p : Pattern) (panel : Nat) : Nat := (p.charts.filter (fun k => k.panel == panel)).foldl (fun a k => max a k.minSize) 0

end Sys2Proof

namespace Sys2Proof.Machine

/-! ### Applying a pattern (R132 to R134, R144; step 8 of Table 14.9) -/

/-- Needles of a declared set that are not retired (R133). -/
def Chip.presentedOf (c : Chip) (ns : List Nat) : List Nat := ns.filter (fun n => !(c.needle n).retired)
/-- Whether a failed router lies on a route between two other needles of the presented set (R133). -/
def Chip.routerCuts (c : Chip) (ns : List Nat) : Bool :=
  ns.any (fun r => (c.needle r).routerBad &&
    (c.presentedOf ns).any (fun a => (c.presentedOf ns).any (fun b => a != r && b != r && (meshRoute a b).contains r)))
/-- A panel as the pattern defines it. -/
def Chip.panelFrom (c : Chip) (p : Pattern) (d : PanelDef) : Panel :=
  let ns := c.presentedOf d.needles
  { valid := true, offline := decide (ns.length < p.minOf d.id) || (ns.isEmpty && d.needles.any (fun k => (c.needle k).routerBad)) || c.routerCuts d.needles
    sharedOn := decide (32 ≤ ns.length), declared := d.needles, presented := ns, min := p.minOf d.id, dec := d.dec, enc := d.enc
    yokeBase := d.yokeBase, yokeSize := d.yokeMib, bRate := [d.beHbm, d.beYoke, d.beRound] }
/-- Needles given to their panels, with the completion rings of the panels' charts. -/
def Chip.assignNeedles (c : Chip) (p : Pattern) : Tbl Needle :=
  (List.range 64).foldl (fun t n =>
    let d := p.panels.find? (fun x => x.needles.contains n && !(c.needle n).retired)
    Tbl.upd {} t n (fun x => { x with panel := d.map (fun x => x.id), ringBase := (d.map (fun x => x.ringBase)).getD 0 })) c.ndl.tab
/-- Local RESIDENT segments loaded and pinned; remote ones asked for (R147). -/
def Chip.loadCharts (c : Chip) : Chip :=
  let l := c.residentSegs.filter (fun i => match c.segments[i]? with | some s => s.remote.isNone | none => false)
  let d := l.foldl (fun (d : Chip) i => match d.segments[i]? with
    | some g => { d with pnl := d.pnl.segLoaded i g d.residentSegs }
    | none => d) { c with pnl := { c.pnl with loaded := [], pinned := [], cached := [], fills := [], failedSegs := [], warm := c.residentSegs.isEmpty } }
  (c.residentSegs.filter (fun i => !l.contains i)).foldl Chip.loadRemote d
/-- Routes and moderation of the EVENTS section (R298). -/
def Evc.applyEvents (e : Evc) (d : EventsDef) : Evc :=
  { e with
    vfMod := d.vfMod
    srcs := d.routes.foldl (fun t r => Tbl.upd {} t r.1 (fun x => { x with target := r.2.1, func := 0, vector := r.2.2 })) e.srcs
    vecs := d.vecMod.foldl (fun t v => Tbl.upd {} t (vecKey 0 v.1) (fun x => { x with modUs := v.2 })) e.vecs }
/-- PAT registers set from a pattern and its placement variants applied; VCORE is raised to the pattern's lower bound (R29). The module
ID follows R259. -/
def Chip.applyPattern (c : Chip) (p : Pattern) : Chip :=
  let c1 := { c with
    pat := { c.pat with pattern := some p }
    gauge := Gauge.setVcore { c.gauge with floor := p.policy.floor, vmin := p.policy.vmin, rowLen := p.policy.rowTicks, provisional := false }
      (max c.gauge.vcore2 (2 * p.policy.vmin))
    tens := { c.tens with cap := p.policy.cap, base := p.policy.base, degrade := p.policy.degrade, capEff := (match c.tens.tjLast with | none => p.policy.cap | some t => capOf p.policy.cap t) }
    hank := { c.hank with sharedMin := p.policy.sharedMin }
    pnl := { c.pnl with
      panels := p.panels.foldl (fun t (d : PanelDef) => Tbl.set t d.id (c.panelFrom p d)) []
      chartMib := p.policy.chartMib, sharedMib := p.policy.sharedMib, ceilHbm := p.policy.ceilHbm, shc := [] }
    rung := { c.rung with hushUs := p.policy.hushUs, dozeQms := p.policy.dozeQms }
    rnd := { c.rnd with
      id := p.round.moduleId.getD c.rnd.id, fromPattern := p.round.moduleId.isSome, settledId := c.rnd.settledId || p.round.moduleId.isSome
      roles := p.round.roles, ceilG := p.round.ceilG, ceilBulk := p.round.ceilBulk, wrrBe := p.round.wrrBe, wrrBulk := p.round.wrrBulk }
    evc := c.evc.applyEvents p.events
    ndl := { c.ndl with tab := c.assignNeedles p } }
  c1.loadCharts

end Sys2Proof.Machine
end

