-- ==== Sys2Proof/Machine/Recovery.lean ====
section
/-!
DEFINITION. The recovery ladder below a chip reset (ch. 17): trips, engine resets, tink, panel resets; and what every chip reset
shares. A level runs to its end within the command that starts it (log 55).
-/
namespace Sys2Proof.Machine

/-! ### Engines (Table 17.1) -/

/-- Needle of an engine index, for needles and their DMA engines. -/
def engineNeedle (e : Nat) : Option Nat := if e < 64 then some e else if e < 128 then some (e - 64) else none
/-- Decode core of an engine index. -/
def engineDec (e : Nat) : Option Nat := if 128 ≤ e ∧ e < 140 then some (e - 128) else none
/-- Encode core of an engine index. -/
def engineEnc (e : Nat) : Option Nat := if 140 ≤ e ∧ e < 148 then some (e - 140) else none
/-- Jobs on a core and in its context store. -/
def VCore.jobs (k : VCore) : List Job := (match k.job with | some j => [j] | none => []) ++ k.saved
/-- Contexts with work on an engine, or state in its context store. -/
def Chip.onEngine (c : Chip) (e : Nat) : List Nat :=
  if e < 64 then ((c.needle e).ops.map (fun o => o.context) ++ (match (c.needle e).band with | some b => [b] | none => [])).eraseDups
  else if e < 128 then ((c.needle (e - 64)).dma.map (fun d => d.context)).eraseDups
  else match engineDec e, engineEnc e with
    | some k, _ => ((c.vdec.core k).jobs.map (fun j => j.context)).eraseDups
    | none, some k => ((Tbl.get {} c.venc.cores k).jobs.map (fun j => j.context)).eraseDups
    | none, none =>
      if e = 148 then (c.ndl.marub.filterMap (fun q => ((c.needle q.1).op? q.2).map (fun o => o.context))).eraseDups else []
/-- Absolute sub-deadline of a context's frame in flight: its arrival plus the stage's sub-deadline (log 40). -/
def Chip.ctxDue (c : Chip) (ctx : Nat) : Nat :=
  match c.ctxTicket ctx with
  | none => 0
  | some t => match t.stageOf ctx with
    | none => 0
    | some p => match t.frames.find? (c.inStage t p) with
      | none => 0
      | some f => f.arrival + nsTicks p.dNs
/-- Whether suspect `a` is replayed before `b` (R354). -/
def Chip.suspectBefore (c : Chip) (a b : Nat) : Bool :=
  if c.ctxGuaranteed a != c.ctxGuaranteed b then c.ctxGuaranteed a
  else decide (c.ctxDue a < c.ctxDue b) || (c.ctxDue a == c.ctxDue b && decide (a < b))
/-- A context put in its place among suspects. -/
def Chip.insertSuspect (c : Chip) (x : Nat) : List Nat → List Nat
  | [] => [x]
  | y :: l => if c.suspectBefore x y then x :: y :: l else y :: c.insertSuspect x l
/-- Suspects in their order. -/
def Chip.orderSuspects (c : Chip) (l : List Nat) : List Nat := l.foldl (fun a x => c.insertSuspect x a) []
/-- Panel of an engine. -/
def Chip.enginePanel (c : Chip) (e : Nat) : Option Nat :=
  match engineNeedle e, engineDec e, engineEnc e with
  | some n, _, _ => (c.needle n).panel
  | none, some k, _ => (c.pnl.panels.find? (fun x => x.2.dec.contains k)).map (fun x => x.1)
  | none, none, some k => (c.pnl.panels.find? (fun x => x.2.enc.contains k)).map (fun x => x.1)
  | none, none, none => none

/-! ### Engine reset (R353) -/

/-- A needle's control state at its reset values, its local SRAM kept, its weight area empty. -/
def Needle.reinit (x : Needle) : Needle :=
  { x with waiting := [], freeTiles := 8, spillTag := none, ringIdx := 0, dma := [], weights := none, swap := none, band := none
           frames := [], since := [] }
/-- A needle's sequencer and array reset. -/
def resetNeedle (n : Nat) (c : Chip × Mem) : Chip × Mem :=
  let d := abortOps n (fun _ => false) c
  let e := ((d.1.updNeedle n Needle.reinit).dropChunks n (fun _ => true)).dropChunks (64 + n) (fun _ => true)
  ({ e with ndl := { e.ndl with marub := e.ndl.marub.filter (fun q => q.1 != n) } }, d.2)
/-- A needle's DMA engine reset: transfers cancelled, operations that wait for them ended, the rest of those contexts' descriptors
dropped with the frame that is to be run again. -/
def resetDma (n : Nat) (c : Chip × Mem) : Chip × Mem :=
  let x := c.1.needle n
  let ctxs := x.dma.map (fun d => d.context)
  let d := abortOps n (fun o => !x.dma.any (fun t => t.opTag == o.tag)) c
  let e := (d.1.updNeedle n (fun y => { y with
    dma := [], waiting := y.waiting.filter (fun w => !ctxs.contains (todOf w.tod).ctx)
    band := match y.band with | some b => if ctxs.contains b then none else some b | none => none })).dropChunks n (fun _ => true)
  ({ e with ndl := { e.ndl with marub := e.ndl.marub.filter (fun q => q.1 != n || (e.needle n).ops.any (fun o => o.tag == q.2)) } }, d.2)
/-- A decode core reset: its store is empty, the other lanes of its pictures are abandoned (R353, R354). -/
def Chip.resetDec (c : Chip) (k : Nat) : Chip :=
  let js := (c.vdec.core k).jobs
  let v := { c.vdec with cores := Tbl.upd {} c.vdec.cores k VCore.reset }
  { c with vdec := js.foldl (fun v j => v.dropLanes j) v }
/-- An encode core reset. -/
def Chip.resetEnc (c : Chip) (k : Nat) : Chip :=
  (Tbl.get {} c.venc.cores k).jobs.foldl (fun d j => d.dropLanes j)
    { c with venc := { c.venc with cores := Tbl.upd {} c.venc.cores k VCore.reset } }
/-- The Marub engine reset: its operations end ABORTED. -/
def resetMarub (c : Chip × Mem) : Chip × Mem :=
  let d := c.1.ndl.marub.foldl (fun d q => abortOps q.1 (fun o => o.tag != q.2) d) c
  ({ d.1 with ndl := { d.1.ndl with marub := [] } }, d.2)
/-- Whether a transfer reads through an HBM channel, which holds two pseudo-channels. -/
def Dma.onChannel (d : Dma) (ch : Nat) : Bool :=
  d.inward && d.runs.any (fun r => inHbm r.1 && (List.range (ceilDiv (r.2 + r.1 % 256) 256)).any (fun i => pseudoChannel (r.1 + 256 * i) / 2 == ch))
/-- An HBM channel reset: its commands end as uncorrectable errors (R353), which end the operations they serve. -/
def Chip.resetChannel (c : Chip) (ch : Nat) : Chip :=
  (List.range 64).foldl (fun d n =>
    ((d.needle n).dma.filter (fun t => t.onChannel ch)).foldl (fun e t =>
      (e.updNeedle n (fun x => { x with ops := x.ops.map (fun o => if o.tag = t.opTag then { o with bad := true } else o) })).hbmUe ((t.runs.head?.map (fun r => r.1)).getD 0)) d) c
/-- Whether an operation waits on an engine: a transfer of its needle's DMA engine, its turn on the Marub engine, or an HBM channel that a
transfer of it reads through (R344; log 136). -/
def Chip.waitsOn (c : Chip) (n : Nat) (o : OpRt) (e : Nat) : Bool :=
  (e == 64 + n && (c.needle n).dma.any (fun d => d.opTag == o.tag)) || (e == 148 && c.ndl.marub.contains (n, o.tag)) ||
  (decide (192 ≤ e ∧ e < 256) && (c.needle n).dma.any (fun d => d.opTag == o.tag && d.onChannel (e - 192)))
/-- Tinks in progress, those that wait among them. -/
def Rst.tinks (r : Rst) : List Tink := (match r.tink with | some k => [k] | none => []) ++ r.waitTinks
/-- Engines that have tripped and whose recovery has not ended. -/
def Chip.recovering (c : Chip) : List Nat := c.rst.tinks.map (fun k => k.engine)
/-- Whether the work of a context on a needle waits on another engine that has tripped, so that it does not trip itself (R344). -/
def Chip.waitsForTrip (c : Chip) (e ctx : Nat) : Bool :=
  let mine := (c.needle e).ops.filter (fun o => o.context == ctx)
  decide (e < 64) && !mine.isEmpty && mine.all (fun o => c.recovering.any (fun k => c.waitsOn e o k))
/-- The timers of the operations that waited on an engine start again from zero as its recovery ends (R344). -/
def Chip.restartTimers (c : Chip) (e : Nat) : Chip :=
  { c with ndl := { c.ndl with tab := c.ndl.tab.map (fun (x : Nat × Needle) =>
      (x.1, { x.2 with ops := x.2.ops.map (fun (o : OpRt) => if c.waitsOn x.1 o e then { o with issued := c.now } else o) })) } }
/-- An engine reset (R353). -/
def resetEngine (e : Nat) (c : Chip × Mem) : Chip × Mem :=
  if e < 64 then resetNeedle e c
  else if e < 128 then resetDma (e - 64) c
  else match engineDec e, engineEnc e with
    | some k, _ => (c.1.resetDec k, c.2)
    | none, some k => (c.1.resetEnc k, c.2)
    | none, none => if e = 148 then resetMarub c else if 192 ≤ e ∧ e < 256 then (c.1.resetChannel (e - 192), c.2) else c
/-- An engine reset with its record: RST_LAST, the counter, source 386 and alarm 32. -/
def engineReset (e ctx : Nat) (c : Chip × Mem) : Chip × Mem :=
  let d := resetEngine e c
  (Chip.alarm { d.1 with rst := { d.1.rst.record d.1.now 2 1 e ctx with engResets := d.1.rst.engResets.inc } }
    true .engineReset 32 386 (some ctx) (d.1.ctxTicketId ctx) e e, d.2)

/-! ### Panel reset (R356) -/

/-- Contexts with a stage on a panel. -/
def Chip.panelContexts (c : Chip) (p : Nat) : List Nat :=
  c.cast.tickets.flatMap (fun t => (t.placed.filter (fun s => s.panel == p)).flatMap (fun s => s.contexts))
/-- A panel's buckets at their refill. -/
def Panel.topUp (p : Panel) (ticks : Nat) : Panel :=
  { p with
    gBucket := p.gRate.map (fun r => (refillBytes r ticks : Nat)), bBucket := p.bRate.map (fun r => (refillBytes r ticks : Nat)), waiting := [] }
/-- The end of a tink told: source 389, alarm 36 with a culprit; what waited for the engine starts its timers anew (R344, R354). -/
def Chip.tinkOver (c : Chip) (k : Tink) : Chip :=
  Chip.alarmIf ((c.restartTimers k.engine).edgeIf k.culprits.isEmpty 389) (!k.culprits.isEmpty) true .tinkEnd 36 389 (k.culprits.head?) 0 k.engine k.engine
/-- Every tink in progress ended by a higher level (R355). -/
def Chip.endTink (c : Chip) : Chip :=
  let d := c.rst.tinks.foldl Chip.tinkOver c
  { d with rst := { d.rst with tink := none, waitTinks := [] } }
/-- A panel reset: contexts frogged, engines reset, scratch window emptied, buckets filled, then its record, source 387 and alarm 33. -/
def panelReset (p cause engine : Nat) (c : Chip × Mem) : Chip × Mem :=
  let d := frogContexts cause (c.1.panelContexts p) (c.1.endTink, c.2)
  let q := d.1.panel p
  let d := q.declared.foldl (fun d n => resetNeedle n d) d
  let e := q.enc.foldl Chip.resetEnc (q.dec.foldl Chip.resetDec d.1)
  let e := e.updPanel p (fun x => x.topUp e.gauge.rowLen)
  let m := d.2.clear (yokeBase + q.yokeBase * 0x100000) (q.yokeSize * 0x100000)
  let e := Chip.alarm { e with rst := { e.rst.record e.now 3 cause engine 0 with pnlResets := e.rst.pnlResets.inc } } true .panelReset 33 387 none 0 p p
  progressAll (e.cast.tickets.map (fun t => t.id)) (e, m)

/-! ### Tink (R354, R355) -/

/-- A picture's lanes put back on one core as a whole (R354): all its split units, on the tripped core alone. -/
def Job.whole (j : Job) (samples : Nat) : Job := { j with lane := 0, samples := samples, width := 1, abandon := false }
/-- Samples of a job's whole picture: of the decode picture's split, or of the output's. -/
def Chip.pictureLoad (c : Chip) (dec : Bool) (j : Job) : Nat :=
  match c.ticket? j.ticket with
  | none => j.samples
  | some t =>
    if dec then
      (if j.sub = 1 then (t.adapt.samples.find? (fun s => s.id == j.source)).map (fun s => s.pic.split.units.foldl (· + ·) 0)
       else (t.frame? j.source).map (fun f => f.pic.split.units.foldl (· + ·) 0)).getD j.samples
    else ((c.stream? t.pipeline).map (fun sd => sd.split.units.foldl (· + ·) 0)).getD j.samples
/-- Pictures that a video core held at a trip, to be replayed on it. -/
def Chip.replayJobs (c : Chip) (e : Nat) : List Job :=
  match engineDec e, engineEnc e with
  | some k, _ => (c.vdec.core k).jobs.map (fun j => j.whole (c.pictureLoad true j))
  | none, some k => (Tbl.get {} c.venc.cores k).jobs.map (fun j => j.whole (c.pictureLoad false j))
  | none, none => []
/-- Pictures put back on a core: the first is replayed, the rest wait in its store. -/
def VCore.restock (k : VCore) (js : List Job) (now : Nat) : VCore :=
  { k with job := (js.head?).map (fun j => j.begin now), saved := (js.drop 1).map (fun j => j.begin 0) }
/-- A video core given its pictures to replay. -/
def Chip.restock (c : Chip) (e : Nat) (js : List Job) : Chip :=
  match engineDec e, engineEnc e with
  | some k, _ => { c with vdec := { c.vdec with cores := Tbl.upd {} c.vdec.cores k (fun x => x.restock js c.now) } }
  | none, some k => { c with venc := { c.venc with cores := Tbl.upd {} c.venc.cores k (fun x => x.restock js c.now) } }
  | none, none => c
/-- Jobs in the order of their contexts among suspects. -/
def jobsInOrder (suspects : List Nat) (js : List Job) : List Job := suspects.flatMap (fun s => js.filter (fun j => j.context == s))
/-- An inconclusive tink of the engine within the last 1,024 rows. -/
def Chip.inconclusiveBefore (c : Chip) (e : Nat) : Bool :=
  match c.rst.inconclusive.find? (fun x => x.1 == e) with | none => false | some x => decide (c.gauge.rowNum ≤ x.2 + 1024)
/-- The end of a tink: source 389, alarm 36 with a culprit; a second inconclusive one within 1,024 rows becomes a panel reset. -/
def tinkEnd (k : Tink) (c : Chip × Mem) : Chip × Mem :=
  let none_ := k.culprits.isEmpty
  let again := none_ && c.1.inconclusiveBefore k.engine
  let next := c.1.rst.waitTinks
  let d := c.1.tinkOver k
  let d := { d with rst := { d.rst with
    tink := next.head?, waitTinks := next.drop 1
    inconclusive := if none_ then Tbl.set c.1.rst.inconclusive k.engine c.1.gauge.rowNum else c.1.rst.inconclusive } }
  if again then (match d.enginePanel k.engine with | some p => panelReset p 6 k.engine (d, c.2) | none => (d, c.2))
  else
    let d := match d.enginePanel k.engine with | some p => d.fillPanel p | none => d
    progressAll (d.cast.tickets.map (fun t => t.id)) (d.pumpAll c.2, c.2)
/-- A tink whose suspects are all replayed ends; others go on. -/
def tinkNext (k : Tink) (c : Chip × Mem) : Chip × Mem :=
  if k.left.isEmpty then tinkEnd k c else ({ c.1 with rst := { c.1.rst with tink := some k } }, c.2)
/-- A tink begun after an engine reset (R354). -/
def startTink (e : Nat) (suspects : List Nat) (js : List Job) (c : Chip × Mem) : Chip × Mem :=
  let k : Tink := { engine := e, resets := 1, left := suspects, culprits := [] }
  let d := (c.1.restock e (jobsInOrder suspects js), c.2)
  match d.1.rst.tink with
  | some _ => ({ d.1 with rst := { d.1.rst with waitTinks := d.1.rst.waitTinks ++ [k] } }, d.2)
  | none => tinkNext k d
/-- Watchdog limit of an operation in ticks: 8 × COST / floor pace + 100 µs, longer by its withheld stitches (R343, R85). -/
def opLimit (floor cost withheld : Nat) : Nat := ceilDiv (8 * cost * 25) floor + ceilDiv (withheld * 25) floor + usTicks 100
/-- Watchdog limit of a DMA transfer in ticks (R343). -/
def dmaLimit (floor bytes : Nat) : Nat := ceilDiv (8 * ceilDiv bytes 256 * 25) floor + usTicks 100
/-- Tick at which an operation passes its limit. -/
def Chip.opDue (c : Chip) (n : Nat) (o : OpRt) : Nat := o.issued + opLimit c.gauge.floor o.cost (o.maxWithheld (c.issueRate n))
/-- Ticks at which the units of work of a context on an engine pass their limits (R343): operations, transfers, the picture on a core, commands of
an HBM channel. -/
def Chip.unitsDue (c : Chip) (e ctx : Nat) : List Nat :=
  if e < 64 then ((c.needle e).ops.filter (fun o => o.context == ctx)).map (c.opDue e)
  else if e < 128 then ((c.needle (e - 64)).dma.filter (fun d => d.context == ctx)).map (fun d => d.since + dmaLimit c.gauge.floor d.bytes)
  else match engineDec e, engineEnc e with
    | some k, _ => ((c.vdec.core k).job.filter (fun j => j.context == ctx)).toList.map (fun j => j.start + coreLimit c.gauge.floor j.samples)
    | none, some k => ((c.venc.core k).job.filter (fun j => j.context == ctx)).toList.map (fun j => j.start + coreLimit c.gauge.floor j.samples)
    | none, none =>
      if e = 148 then c.ndl.marub.filterMap (fun q => (((c.needle q.1).op? q.2).filter (fun o => o.context == ctx)).map (c.opDue q.1))
      else if 192 ≤ e then
        c.ndl.tab.flatMap (fun x => (x.2.dma.filter (fun d => d.context == ctx && d.onChannel (e - 192))).map (fun d => d.since + usTicks 100))
      else []
/-- The chip at the tick of a trip: the first of the context's units on the engine has run for its limit (R343; log 140). -/
def Chip.toTrip (c : Chip) (e ctx : Nat) : Chip := match (c.unitsDue e ctx).min? with | none => c | some d => c.advance d
/-- A trip counted and logged (R343). -/
def Chip.countTrip (c : Chip) (e ctx : Nat) : Chip :=
  Chip.incident { c with rst := { c.rst with trips := c.rst.trips.inc } } .trip 384 (some ctx) (c.ctxTicketId ctx) 0 e
/-- A trip of an engine below the holder: engine reset, then tink; an HBM channel is not tinked (R351, R354, R355). -/
def engineTrip (e ctx : Nat) (c : Chip × Mem) : Chip × Mem :=
  let d := c.1.countTrip e ctx
  let suspects := d.orderSuspects (d.onEngine e)
  let js := d.replayJobs e
  let r := engineReset e ctx (d, c.2)
  if 192 ≤ e then ((r.1.restartTimers e).pumpAll r.2, r.2) else startTink e suspects js r
/-- A replay's end (R354): it completed, or it tripped and its context is the culprit; a fourth reset becomes a panel reset. -/
def tinkReplayEnd (tripped : Bool) (c : Chip × Mem) : Chip × Mem :=
  match c.1.rst.tink with
  | none => c
  | some k =>
    match k.left with
    | [] => tinkEnd k c
    | s :: rest =>
      if tripped then
        let d := ((c.1.toTrip k.engine s).countTrip k.engine s, c.2)
        if k.resets + 1 = 4 then
          (match d.1.enginePanel k.engine with
           | some p => panelReset p 6 k.engine d
           | none => (d.1.endTink, d.2))
        else
          let js := (d.1.replayJobs k.engine).filter (fun j => j.context != s)
          let e := frogContext 1 s (engineReset k.engine s d)
          tinkNext { k with resets := k.resets + 1, left := rest, culprits := k.culprits ++ [s] } (e.1.restock k.engine js, e.2)
      else
        let js := (c.1.replayJobs k.engine).filter (fun j => j.context != s)
        tinkNext { k with left := rest } (if js.isEmpty then c else (c.1.restock k.engine js, c.2))
/-- TINK_REPLAY_END (R354). -/
def execTinkReplayEnd (tripped : Bool) (s : State) : Host.Outcome State Fault Refusal :=
  .next { s with chip := (tinkReplayEnd tripped (s.chip, s.mem)).1, mem := (tinkReplayEnd tripped (s.chip, s.mem)).2 }

end Sys2Proof.Machine
end

