-- ==== Sys2Proof/Machine/Reset.lean ====
section
/-!
DEFINITION. Starts and chip resets: the start-up sequence (Table 14.9, R341), maintenance start (R305, R306), the warm chip reset
(Table 17.4) and the power-cycle request (Table 17.5).
-/
namespace Sys2Proof
/-- Module that discovery finds one hop away by a port. -/
def StartEnv.neighbour (e : StartEnv) (p : Port) : Option Nat :=
  (e.peers.find? (fun x => (match p with | .east => x.2.2.2.1 | .west => x.2.2.2.2) == 1)).map (fun x => x.1)
end Sys2Proof

namespace Sys2Proof.Machine

/-! ### Self-test (R100, R133, R155, R177) -/

/-- Logical columns left by a number of failing ones (R100). -/
def columnsLeft (failing : Nat) : Nat := if failing ≤ 2 then 64 else if failing = 3 then 63 else if failing = 4 then 62 else 0
/-- A needle after its self-test. -/
def Needle.tested (x : Needle) (cols : List Nat) (dead router : Bool) : Needle :=
  { x with
    testing := false, runtime := false, failed := min 7 cols.eraseDups.length, failCols := cols.foldl (fun l k => insertSorted k l) []
    columns := columnsLeft cols.eraseDups.length, routerBad := router, retired := columnsLeft cols.eraseDups.length == 0 || dead || router }
/-- What a start's self-test finds for a needle, or what the keep holds for one that is not tested. -/
def Chip.testNeedle (c : Chip) (e : StartEnv) (again : Bool) (n : Nat) : Needle :=
  if again || !Tbl.has c.keep.columns n then
    (c.needle n).tested (((e.failCols.find? (fun x => x.1 == n)).map (fun x => x.2)).getD []) (e.failMem.contains n) (e.failRouter.contains n)
  else (c.needle n).tested (Tbl.get [] c.keep.failCols n) (c.keep.dead.contains n) (c.keep.routers.contains n)
/-- The keep after self-test (R100, R340). -/
def Chip.keepTests (c : Chip) : Keep :=
  let ns := List.range 64
  { c.keep with
    columns := ns.map (fun n => (n, (c.needle n).columns)), failCols := ns.map (fun n => (n, (c.needle n).failCols))
    runtime := [], dead := ns.filter (fun n => (c.needle n).retired && (c.needle n).columns != 0 && !(c.needle n).routerBad)
    routers := ns.filter (fun n => (c.needle n).routerBad)
    offDec := (List.range 12).filter (fun k => (c.vdec.core k).offline), offEnc := (List.range 8).filter (fun k => (Tbl.get {} c.venc.cores k).offline) }
/-- Needles and video cores tested, all of them or those with a run-time fault kept (R100, R341); a retirement is an edge on the
needle's source. -/
def Chip.selfTest (c : Chip) (e : StartEnv) (full : Bool) : Chip :=
  let offD := if full then e.failDec else c.keep.offDec
  let offE := if full then e.failEnc else c.keep.offEnc
  let d := { c with
    ndl := { c.ndl with tab := (List.range 64).map (fun n => (n, c.testNeedle e (full || c.keep.runtime.contains n) n)) }
    vdec := { c.vdec with cores := (List.range 12).map (fun k => (k, ({ testing := false, offline := offD.contains k } : VCore))) }
    venc := { c.venc with cores := (List.range 8).map (fun k => (k, ({ testing := false, offline := offE.contains k } : VCore))) } }
  let d := (List.range 64).foldl (fun d n => d.incidentIf (d.needle n).retired .needleRetired (512 + n) none 0 0 n) d
  { d with keep := d.keepTests }

/-! ### What outlives a start -/

/-- The chip at its reset values, with what the keep, the always-on domain, the flash and the model's own records hold. -/
def Chip.fresh (c : Chip) : Chip :=
  { gauge := { time := c.gauge.time }
    log := { pers := c.log.pers, headPers := c.log.headPers, seq := c.log.seq, kept := c.log.kept, lost := c.log.lost }
    evc := { msgs := c.evc.msgs, holder := c.evc.holder }
    pcie := { doe := c.pcie.doe, smbSpdm := c.pcie.smbSpdm }
    cast := { lastTicket := c.cast.lastTicket }
    rnd := { routes := c.rnd.routes, east := { presets := c.rnd.east.presets, sent := c.rnd.east.sent }, west := { presets := c.rnd.west.presets, sent := c.rnd.west.sent } }
    rst := { lastValid := c.rst.lastValid, lastLevel := c.rst.lastLevel, lastCause := c.rst.lastCause, lastEngine := c.rst.lastEngine,
             lastCtx := c.rst.lastCtx, lastTime := c.rst.lastTime, warmTimes := c.rst.warmTimes, warmCount := c.rst.warmCount }
    pat := { flashA := c.pat.flashA, flashB := c.pat.flashB, recovery := c.pat.recovery, romRev := c.pat.romRev, cal := c.pat.cal }
    keep := c.keep
    pins := { c.pins with wake := false, alert := false, alertHot := false, strapsUnstable := false }
    smbus := c.smbus, hostTx := c.hostTx, freeCtr := c.freeCtr }

/-! ### The Round at a start (R259, R260, R262, R265, R373) -/

/-- Straps sampled, or unstable and logged under ROUND. -/
def Chip.sampleStraps (c : Chip) (e : StartEnv) : Chip :=
  match e.straps with
  | some v => { c with pins := { c.pins with slotId := v % 1024 }, rnd := { c.rnd with id := v % 1024, settledId := true } }
  | none => Chip.incident { c with pins := { c.pins with strapsUnstable := true }, rnd := { c.rnd with settledId := false } } .strapsUnstable srcRound none 0 0 0
/-- A port at the end of a join: up with the neighbour that discovery found next to it, else training. -/
def RPort.joined (x : RPort) (nb : Option Nat) : RPort :=
  match nb with
  | none => { x with state := .training }
  | some k => { x with state := .up, nbValid := true, neighbour := k, bypassed := 0, locked := 0xFF, presets := if x.presets.contains 0 then x.presets else 0 :: x.presets }
/-- The switches opened, both ports joined, discovery run (R260, R265). -/
def Rnd.join (r : Rnd) (e : StartEnv) : Rnd :=
  let q := { r with
    east := r.east.joined (e.neighbour .east)
    west := r.west.joined (e.neighbour .west)
    slipped := false, runs := r.runs + 1, ringSize := e.peers.length + 1
    peers := e.peers.foldl (fun (t : Tbl Peer) (p : Nat × Nat × Nat × Nat × Nat) => Tbl.set t p.1 { serial := p.2.1, roles := p.2.2.1, rung := 0, lastRun := r.runs + 1 }) []
    routes := e.peers.foldl (fun (t : Tbl Route) (p : Nat × Nat × Nat × Nat × Nat) => Tbl.set t p.1 (Route.steer { valid := true, hopsE := p.2.2.2.1, hopsW := p.2.2.2.2 })) [] }
  { q with ready := q.portsOk }
/-- Whether the switches may be driven open (R262). -/
def Chip.mayOpen (c : Chip) : Bool :=
  c.pins.pg && c.pins.modRstN && c.rnd.settledId && !c.rnd.dupId && !c.rst.trayReq && !c.maint && (c.rung.rung == .run || c.rung.rung == .hush || c.rung.rung == .doze)
/-- The module joins the ring unless it may not; a duplicate ID with the lower serial closes the slip again (R259). -/
def Chip.joinRing (c : Chip) (e : StartEnv) : Chip :=
  if c.mayOpen then
    match e.dupSerial with
    | some s =>
      if s < c.pins.serial then
        Chip.alarm { c with rnd := { c.rnd with dupId := true, ready := false } } true .duplicateId 2 srcRound none 0 0 c.rnd.id
      else { c with rnd := c.rnd.join e, keep := { c.keep with presets := true } }
    | none => { c with rnd := c.rnd.join e, keep := { c.keep with presets := true } }
  else c

/-! ### A start (Table 14.9, R341) -/

/-- BUILD_ID of an image copied into the log at start (Table 14.2), 4 bytes a record. -/
def Chip.logBuild (c : Chip) (id : Nat) : Chip :=
  (List.range 4).foldl (fun d i => d.note .buildId srcLog none 0 i (id / 2 ^ (32 * i))) c
/-- Contents of the local segments at their homes. -/
def loadSegments (p : Pattern) (m : Mem) : Mem :=
  p.segments.foldl (fun m s => if s.remote.isNone then m.writes s.home s.content else m) m
/-- Loops with the calibration factors of the identity region (R25). -/
def Pat.loops (p : Pat) : Tbl Loop := p.cal.mapV (fun x => { calNum := x.1, calDen := x.2 })
/-- Steps 1 to 6: fresh registers, calibration factors, VCORE, link, self-test, HBM, and the provisional rows (R25, R35, R269, R328). -/
def Chip.bringUp (c : Chip) (e : StartEnv) (full : Bool) : Chip :=
  let d := c.fresh
  let d := d.sampleStraps e
  let d := { d with
    gauge := { d.gauge with vcore2 := if full then 1600 else c.keep.vcore2, settled2 := if full then 1600 else c.keep.vcore2, running := true, windowStart := d.now, rowStart := d.now, loops := c.pat.loops }
    pcie := { d.pcie with up := true, speed := e.speed, width := e.width }
    hbm := { trained := true, hotStacks := e.hotStacks }
    log := { d.log with hbmReady := true, persReady := true, persCopy := d.log.pers }
    pins := { d.pins with perstN := true }
    keep := { d.keep with training := true, cycled := false } }
  let d := (if e.crystalOk then d else d.crystalFail).selfTest e full
  (e.provRows.foldl Chip.startRow d).advance (c.now + 25000 * e.startMs)
/-- The image of the applied slot staged, its pattern applied, admission opened (steps 8 and 9). -/
def applied (b : Bool) (old : Bool) (i : Image) (seq : Nat) (e : StartEnv) (c : Chip) : Chip × Mem :=
  let d := { c with
    pat := { c.pat with
      mode := .applied, applied := true, slotB := b, fallback := old, version := i.version, seq := seq, startMs := e.startMs % 65536
      digest := i.digest, staged := some i, stagedDigest := i.digest }
    keep := { c.keep with digest := i.digest, slotB := b } }
  let d := (d.logBuild i.buildId).applyPattern i.pattern
  let d := { d with
    cast := { d.cast with closed := false }, hank := { d.hank with ready := true }
    gauge := { d.gauge with rowStart := d.now, firstRow := true, startRows := 0, marginMet := false } }
  (d.joinRing e, loadSegments i.pattern [])
/-- Maintenance start (R305): the recovery image if it passes, else the ROM alone. -/
def Chip.maintain (c : Chip) (cause : Nat) : Chip :=
  { c with
    pat := { c.pat with mode := (if (c.pat.recovery.full c.pat.romRev).1 = 0 then .maintRecovery else .maintRom), maintCause := cause, applied := false, pattern := none, staged := none }
    cast := { c.cast with closed := true }
    rnd := c.rnd.slip }
/-- The slots judged and one applied, or maintenance start (R300 to R305). -/
def Chip.chooseSlot (c : Chip) (e : StartEnv) : Chip × Mem :=
  let j := judgeSlots c.pat.romRev c.pat.flashA c.pat.flashB
  let d := { c with pat := { c.pat with
    resA := j.resA, resB := j.resB, checkA := j.checkA, checkB := j.checkB, seqA := c.pat.flashA.seq, seqB := c.pat.flashB.seq } }
  match j.slotB with
  | none => (d.maintain 1, [])
  | some b =>
    match (if b then c.pat.flashB else c.pat.flashA).image with
    | none => (d.maintain 1, [])
    | some i => applied b j.fallback i (if b then c.pat.flashB else c.pat.flashA).seq e d
/-- A full start (Table 14.9). -/
def fullStart (e : StartEnv) (c : Chip) : Chip × Mem :=
  let d := (c.bringUp e true).chooseSlot e
  ({ d.1 with rung := { d.1.rung with wokeFrom := 0 } }, d.2)
/-- Surroundings of a start that no command describes: as the last start found them (log 56). -/
def Chip.selfEnv (c : Chip) : StartEnv :=
  { straps := if c.pins.strapsUnstable then none else some c.pins.slotId
    failCols := (List.range 64).map (fun n => (n, (c.needle n).failCols)), failMem := c.keep.dead, failRouter := c.keep.routers
    failDec := c.keep.offDec, failEnc := c.keep.offEnc
    peers := c.rnd.peers.map (fun p => (p.1, p.2.serial, p.2.roles, (c.rnd.route p.1).hopsE, (c.rnd.route p.1).hopsW)), dupSerial := none
    speed := c.pcie.speed, width := c.pcie.width, startMs := c.pat.startMs, crystalOk := !c.gauge.crystalFail, hotStacks := c.hbm.hotStacks }

/-! ### Power-cycle request (R361) -/

/-- Every garment told and recorded, holds and hops dropped, undecided garments refused FENCED. -/
def Chip.leaveGarments (c : Chip) (cause : Nat) : Chip :=
  let d := c.cast.leads.foldl (fun d l => d.refuseGarment l 0x0002 0 d.rnd.id) c
  d.garments.foldl (fun d g =>
    let ms := match d.garmentTicket g with | some t => t.members ++ t.hopMods | none => match d.cast.hold? g with | some h => h.ticket.members | none => []
    let id := match d.garmentTicket g with | some t => t.id | none => 0
    let e := (d.tellAll ms.eraseDups 0x0007 id g (leBytes 2 cause)).recordAbort g cause id
    let e := match e.cast.hold? g with | none => e | some h => e.dropHold h
    if e.cast.hops.any (fun h => h.garment == g) then e.dropHop g else e) d
/-- Every ticket ended with no record. -/
def killAll (c : Chip × Mem) : Chip × Mem := c.1.cast.tickets.foldl (fun d t => killTicket t d) c
/-- Engines reset, transfers and fills gone, reads abandoned (Table 17.4, steps 3 and 4). -/
def Chip.haltEngines (c : Chip) : Chip :=
  { c with
    pcie := { c.pcie with tags := c.pcie.tags.mapV (fun t => if t.state.quarantined then t else { t with state := .quarantinedTimeout }) }
    cast := { c.cast with fns := c.cast.fns.mapV (fun f => { f with busy := false }), order := [] }
    waits := [], queues := c.queues.mapV (fun q => { q with unit := none })
    ndl := { tab := c.ndl.tab.mapV (fun x => { x.reinit with ops := [] }), marub := [] }
    vdec := { c.vdec with cores := c.vdec.cores.mapV VCore.reset, ready := [] }
    venc := { c.venc with cores := c.venc.cores.mapV VCore.reset, waiting := [] }
    pnl := { c.pnl with fills := [], shc := [], panels := c.pnl.panels.mapV (fun p => { p with waiting := [] }) }
    hank := { c.hank with waiters := [], views := [] }
    tracks := { c.tracks with live := [] }
    hbm := { c.hbm with selfRefresh := true, banks := [] }
    log := { c.log with hbmReady := false } }
/-- A power cycle requested (Table 17.5): fenced, slipped, tickets ended, records programmed unless it is a thermal Trip,
TRAY_REQ_N asserted. -/
def powerCycle (cause engine : Nat) (c : Chip × Mem) : Chip × Mem :=
  if c.1.rst.trayReq then c
  else
    let d := c.1.endTink
    let d := { d with rst := { d.rst.record d.now 5 cause engine 0 with fenced := true }, cast := { d.cast with closed := true } }
    let d := d.leaveGarments 1
    let e := killAll ({ d with rnd := d.rnd.slip }, c.2)
    let f := e.1.haltEngines
    let f := if cause = 11 then f else { f with log := f.log.persist }
    (Chip.alarm { f with rst := { f.rst with trayReq := true, warmPending := false } } true .powerCycle 35 391 none 0 cause engine, e.2)

/-! ### Warm chip reset (R357) -/

/-- Steps 1 to 4 of Table 17.4. -/
def warmDown (cause engine : Nat) (c : Chip × Mem) : Chip × Mem :=
  let d := c.1.endTink
  let d := { d with rst := { d.rst.record d.now 4 cause engine 0 with fenced := true }, cast := { d.cast with closed := true } }
  let e := killAll (d.leaveGarments 1, c.2)
  (e.1.haltEngines, e.2)
/-- Needles whose run-time fault flag is set tested again (R100); what the test finds is free (log 24). -/
def Chip.retest (c : Chip) : Chip :=
  let d := { c with
    ndl := { c.ndl with tab := c.ndl.tab.map (fun (x : Nat × Needle) =>
      (x.1, if x.2.runtime then x.2.tested ((Config.selfTestColumns c.freeCtr x.1).map (fun k => k % 66)) false x.2.routerBad else x.2)) }
    freeCtr := c.freeCtr + 1 }
  let d := (List.range 64).foldl (fun d n => d.incidentIf ((d.needle n).retired && !(c.needle n).retired) .needleRetired (512 + n) none 0 0 n) d
  { d with keep := d.keepTests }
/-- The hank pool after a warm chip reset (R241): orphans and hanks of host tags stay, others are free. -/
def Chip.keepHanks (c : Chip) : Chip :=
  let gone := (c.hank.recs.filter (fun e => e.2.charged && !(tagFn e.2.owner).isSome && !c.orphaned e.2)).map (fun e => e.1)
  { c with hank := c.hank.releaseAll gone }
/-- Warm chip resets within the last 60 s. -/
def Chip.recentWarm (c : Chip) : List Nat := c.rst.warmTimes.filter (fun t => decide (c.now ≤ t + 1500000000))
/-- Steps 5 to 7 of Table 17.4, or a power-cycle request where the staged pattern does not match its digest (R304). -/
def warmUp (c : Chip × Mem) : Chip × Mem :=
  match c.1.pat.staged with
  | none => powerCycle 9 0xFF c
  | some i =>
    if i.digest ≠ c.1.pat.stagedDigest then powerCycle 9 0xFF c
    else
      let d := { c.1 with hbm := { c.1.hbm with selfRefresh := false }, log := { c.1.log with hbmReady := true } }
      let d := d.retest.keepHanks
      let d := { d with markers := d.markers.filter (fun e => e.1 < 1024), cast := { d.cast with closedIds := [] } }
      let d := d.applyPattern i.pattern
      let d := { d with
        cast := { d.cast with closed := false }
        rst := { d.rst with fenced := false, warmPending := false, warmCount := min 65535 (d.rst.warmCount + 1), warmTimes := d.now :: d.recentWarm } }
      (d.alarm true .warmReset 34 388 none 0 d.rst.lastCause d.rst.lastEngine, c.2)
/-- A warm chip reset; the third within 60 s is a power-cycle request (Table 17.3); in maintenance start it is a full start (R306). -/
def warmReset (cause engine : Nat) (c : Chip × Mem) : Chip × Mem :=
  if c.1.rst.trayReq ∨ c.1.pat.mode = .starting then c
  else if c.1.maint then
    fullStart c.1.selfEnv { c.1 with rst := { c.1.rst.record c.1.now 4 cause engine 0 with warmPending := false } }
  else if 2 ≤ c.1.recentWarm.length then powerCycle 10 engine c
  else warmUp (warmDown cause engine c)
/-- A maintenance start requested (R359): steps 1 to 4, then the recovery image. -/
def maintenanceStart (c : Chip × Mem) : Chip × Mem :=
  if c.1.rst.trayReq then c
  else
    let d := warmDown 2 0xFF c
    let e := d.1.maintain 2
    ({ e with
       rst := { e.rst with fenced := false, warmPending := false }, hbm := { e.hbm with selfRefresh := false }
       log := { e.log with hbmReady := true, persDefer := false }, rung := { e.rung with rung := .run }
       pat := { e.pat with wrBusy := false, wrStep := 0, wrImage := none } }, d.2)

end Sys2Proof.Machine
end

