-- ==== Sys2Proof/Machine/Faults.lean ====
section
/-!
DEFINITION. The faults that commands report (R18, R230, R232, R326 to R329, R343, R352, R360) and the recoveries that the host requests
(R365).
-/
namespace Sys2Proof.Machine

/-! ### Trips and overruns -/

/-- Whether an engine index is an engine of Table 17.1. -/
def realEngine (e : Nat) : Bool := decide (e < 153) || decide (192 ≤ e ∧ e < 256)
/-- A trip at its moment (R343, R351): an engine's own recovery, or a warm chip reset for a holder core. A fenced chip recovers already (R350); a unit that
waits on an engine that has tripped does not trip (R344). -/
def trip (engine ctx : Nat) (c : Chip × Mem) : Chip × Mem :=
  if !realEngine engine || c.1.rst.fenced || c.1.waitsForTrip engine (ctx % 16384) then c
  else if 149 ≤ engine ∧ engine < 153 then warmReset 8 engine (c.1.countTrip engine ctx, c.2)
  else engineTrip engine (ctx % 16384) (c.1.toTrip engine (ctx % 16384), c.2)
/-- TRIP (R343). -/
def execTrip (engine context : Nat) (s : State) : Host.Outcome State Fault Refusal :=
  .next { s with chip := (trip engine context (s.chip, s.mem)).1, mem := (trip engine context (s.chip, s.mem)).2 }
/-- A level that fails or overruns becomes the next one (R352, Table 17.3). -/
def overrun (l : RecLevel) (c : Chip × Mem) : Chip × Mem :=
  match l with
  | .engineReset =>
    (match c.1.enginePanel c.1.rst.lastEngine with
     | some p => panelReset p 5 c.1.rst.lastEngine c
     | none => warmReset 5 c.1.rst.lastEngine c)
  | .panelReset _ => warmReset 7 c.1.rst.lastEngine c
  | .warmReset => powerCycle (Config.recoveryCause 16 % 16) c.1.rst.lastEngine c
  | .powerCycle => c
/-- RECOVERY_OVERRUN (R352). -/
def execRecoveryOverrun (l : RecLevel) (s : State) : Host.Outcome State Fault Refusal :=
  .next { s with chip := (overrun l (s.chip, s.mem)).1, mem := (overrun l (s.chip, s.mem)).2 }
/-- HEARTBEAT_TIMEOUT (R360): one core silent for 1 ms or all for 10 ms; either is a warm chip reset. -/
def execHeartbeatTimeout (_all : Bool) (s : State) : Host.Outcome State Fault Refusal :=
  .next { s with chip := (warmReset 8 0xFF (s.chip, s.mem)).1, mem := (warmReset 8 0xFF (s.chip, s.mem)).2 }

/-! ### Wait timeouts (R18, R345) -/

/-- Whether an operation in flight has passed its limit; its timer stands still while it waits on an engine that has tripped (R343, R344). -/
def Chip.opLate (c : Chip) (n : Nat) (o : OpRt) : Bool :=
  decide (c.opDue n o < c.now) && !c.recovering.any (fun e => c.waitsOn n o e)
/-- Engine on which a stage works for its context, and whether its unit of work has passed its limit. -/
def Chip.stageEngine (c : Chip) (t : Ticket) (p : Placed) (source : Nat) : Option (Nat × Bool) :=
  let late := fun (j : Job) => decide (j.start + coreLimit c.gauge.floor j.samples < c.now)
  let mine := fun (k : VCore) => match k.job with | some j => j.ticket == t.id && j.source == source && j.sub != 1 | none => false
  match p.kind with
  | .decode => (c.vdec.cores.find? (fun e => mine e.2)).map (fun e => (decEngine e.1, e.2.job.any late))
  | .encode => (c.venc.cores.find? (fun e => mine e.2)).map (fun e => (encEngine e.1, e.2.job.any late))
  | _ =>
    (c.ndl.tab.find? (fun e => e.2.ops.any (fun o => p.contexts.contains o.context))).map (fun e =>
      (e.1, e.2.ops.any (fun o => p.contexts.contains o.context && c.opLate e.1 o)))
/-- Moment at which a stage's input for a frame was signalled: the frame's arrival for decode and for a stream without one (R18). -/
def Chip.inputAt (c : Chip) (t : Ticket) (p : Placed) (f : FrameRt) : Option Nat :=
  if p.kind = .decode then some f.arrival
  else match t.source? p with
    | none => some f.arrival
    | some q => match t.markers[q.stage]?, stageOrdinal f q with
      | some m, some k => (c.marker m).reachedAt ((k + 1) * q.perFrame)
      | _, _ => some f.arrival
/-- Moments from which waiters wait for a stage's work for a frame: needles whose first descriptor does, and the encoder or the commit (R18;
log 135). -/
def Chip.waiters (c : Chip) (t : Ticket) (p : Placed) (f : FrameRt) : List Nat :=
  c.ndl.tab.flatMap (fun e => e.2.since.filterMap (fun w =>
    match e.2.headOf w.1 with
    | none => none
    | some h => if t.contexts.contains w.1 ∧ (todOf h.tod).waitMrk = p.stage ∧ c.todFrame e.1 (todOf h.tod) = some f.order then some w.2 else none)) ++
  (match t.outWait with
   | none => []
   | some w => match t.outs.find? (fun o => o.source == w.1 && o.sub == w.2.1) with
     | none => []
     | some o => if o.order = f.order ∧ (t.feed (if o.rep || o.degraded then 0 else o.sub)).any (fun q => q.stage == p.stage) = true then [w.2.2] else [])
/-- Moment at which a wait for a stage's work on a frame ends (R18): for a guaranteed ticket counted from the stage's own input, for a
best-effort one from the first waiter's start; none while nothing is waited for. -/
def Chip.waitDue (c : Chip) (t : Ticket) (p : Placed) (f : FrameRt) : Option Nat :=
  if t.guaranteed then (c.inputAt t p f).map (fun a => a + nsTicks (max (8 * p.eNs) p.dNs) + usTicks 100)
  else ((c.waiters t p f).min?).map (fun a => a + nsTicks (8 * p.eNs) + usTicks 100)
/-- A wait for the stage that produces a frame's hand-off expired (R18): the stages and outputs that need it are voided with
WAIT_TIMEOUT, the stage itself goes on and signals its own marker; a unit past its limit is a trip (R345). -/
def waitTimeout (ticket source stage : Nat) (c : Chip × Mem) : Chip × Mem :=
  match c.1.ticket? ticket with
  | none => c
  | some t =>
    match t.placed.find? (fun p => p.stage == stage), t.frame? source with
    | some p, some f =>
      match c.1.waitDue t p f with
      | none => c
      | some due =>
       if c.1.stageDone t p f || f.lost.contains stage then c
       else
        let d := c.1.advance due
        let at_ := d.stageEngine t p source
        let e := d.voidFrame t f stage 0x40 false
        let e := { e with cast := e.cast.updTicket ticket (fun x => { x.updFrame source (fun (y : FrameRt) => { y with lost := y.lost.erase stage }) with
          voided := if t.voided.contains (stage, f.order) then x.voided else x.voided.erase (stage, f.order) }) }
        let e := e.note .waitTimeout 384 (p.contexts.head?) ticket 0 ((at_.map (fun x => x.1)).getD 0xFF)
        let r := match at_ with | some (k, true) => engineTrip k (p.contexts.headD 0) (e, c.2) | _ => (e, c.2)
        progress ticket r
    | _, _ => c
/-- WAIT_TIMEOUT (R18). -/
def execWaitTimeout (ticket source stage : Nat) (s : State) : Host.Outcome State Fault Refusal :=
  .next { s with chip := (waitTimeout ticket source stage (s.chip, s.mem)).1, mem := (waitTimeout ticket source stage (s.chip, s.mem)).2 }

/-! ### Host requests (R365) -/

/-- RST_REQ_STATUS.RESULT and the edge on source 392. -/
def Chip.requestDone (c : Chip) (result : Nat) : Chip := Chip.edge { c with rst := { c.rst with reqBusy := false, reqResult := result } } 392
/-- A recovery requested through RST_REQ: ignored and logged while one is in progress, absorbed by a higher level or a start, refused, or
done; `absorbed` says that what ran became a higher level (Table 17.10). -/
def hostRequest (ok : Bool) (run : Chip × Mem → Chip × Mem) (absorbed : Chip → Bool) (c : Chip × Mem) : Chip × Mem :=
  if c.1.rst.reqBusy then (c.1.regIncident .requestIgnored 0x700004, c.2)
  else if c.1.rst.fenced || c.1.rst.trayReq || c.1.pat.mode == .starting then (c.1.requestDone 3, c.2)
  else if ok then ((run c).1.requestDone (if absorbed (run c).1 then 3 else 1), (run c).2)
  else (c.1.requestDone 2, c.2)
/-- Whether a context may be frogged by the PF's request: it belongs to a live ticket of the PF. -/
def Chip.frogAllowed (c : Chip) (ctx : Nat) : Bool := match c.ctxTicket ctx with | none => false | some t => t.fn == 0
/-- A context frogged at the host's request; one of a garment aborts the garment, with cause 6 (R362, R365). -/
def hostFrog (ctx : Nat) (c : Chip × Mem) : Chip × Mem :=
  let d := (c.1.endTink, c.2)
  match (d.1.ctxTicket ctx).bind (fun t => t.garment) with
  | some g => abortGarment g 6 [] d
  | none => frogContext 2 ctx d
/-- FROG as a host request. -/
def frogRequest (ctx : Nat) (c : Chip × Mem) : Chip × Mem := hostRequest (c.1.frogAllowed ctx) (hostFrog ctx) (fun _ => false) c
/-- FROG (R349, R365). -/
def execFrog (context : Nat) (s : State) : Host.Outcome State Fault Refusal :=
  .next { s with chip := (frogRequest context (s.chip, s.mem)).1, mem := (frogRequest context (s.chip, s.mem)).2 }
/-- PANEL_RESET as a host request. -/
def panelRequest (p : Nat) (c : Chip × Mem) : Chip × Mem := hostRequest (c.1.panel p).valid (panelReset p 2 0xFF) (fun _ => false) c
/-- PANEL_RESET (R356, R365). -/
def execPanelReset (p : Nat) (s : State) : Host.Outcome State Fault Refusal :=
  .next { s with chip := (panelRequest p (s.chip, s.mem)).1, mem := (panelRequest p (s.chip, s.mem)).2 }
/-- WARM_CHIP_RESET as a host request; the third within 60 s becomes a power-cycle request. -/
def warmRequest (c : Chip × Mem) : Chip × Mem := hostRequest true (warmReset 2 0xFF) (fun d => d.rst.trayReq) c
/-- WARM_CHIP_RESET (R357, R365). -/
def execWarmChipReset (s : State) : Host.Outcome State Fault Refusal :=
  .next { s with chip := (warmRequest (s.chip, s.mem)).1, mem := (warmRequest (s.chip, s.mem)).2 }
/-- MAINTENANCE_START as a host request. -/
def maintRequest (c : Chip × Mem) : Chip × Mem := hostRequest true maintenanceStart (fun _ => false) c
/-- MAINTENANCE_START (R359, R365). -/
def execMaintenanceStart (s : State) : Host.Outcome State Fault Refusal :=
  .next { s with chip := (maintRequest (s.chip, s.mem)).1, mem := (maintRequest (s.chip, s.mem)).2 }
/-- POWER_CYCLE as a host request. -/
def cycleRequest (c : Chip × Mem) : Chip × Mem := hostRequest true (powerCycle 2 0xFF) (fun _ => false) c
/-- POWER_CYCLE (R361, R365). -/
def execPowerCycle (s : State) : Host.Outcome State Fault Refusal :=
  .next { s with chip := (cycleRequest (s.chip, s.mem)).1, mem := (cycleRequest (s.chip, s.mem)).2 }

/-! ### HBM (R230, R232) -/

/-- Replays of a pseudo-channel's retry buffer this row. -/
def Hbm.replays (h : Hbm) (pc : Nat) : Nat := Tbl.get 0 h.rowReplays pc
/-- A replay counted; the fourth in a row fails the pseudo-channel. -/
def Hbm.parityError (h : Hbm) (pc : Nat) : Hbm :=
  { h with
    parity := h.parity.inc, rowReplays := Tbl.set h.rowReplays pc (h.replays pc + 1)
    failedPcs := if h.replays pc + 1 = 4 ∧ h.failedPcs.contains pc = false then insertSorted pc h.failedPcs else h.failedPcs }
/-- A command or address parity alert (R230): a failed pseudo-channel raises alarm 5 and requests a power cycle (Table 17.3). -/
def parityError (pc : Nat) (c : Chip × Mem) : Chip × Mem :=
  let d := { c.1 with hbm := c.1.hbm.parityError pc }
  if c.1.hbm.replays pc + 1 = 4 then
    powerCycle 12 (192 + pc / 2) (d.alarm true .hbmPcFailed 5 srcHbm none 0 0 pc, c.2)
  else (d, c.2)
/-- HBM_PARITY_ERROR (R230). -/
def execHbmParityError (pc : Nat) (s : State) : Host.Outcome State Fault Refusal :=
  .next { s with chip := (parityError (pc % 128) (s.chip, s.mem)).1, mem := (parityError (pc % 128) (s.chip, s.mem)).2 }
/-- Word address of a byte. -/
def wordAddr (a : Nat) : Nat := a - a % 8
/-- A patrol scrub's findings (R232): corrected words counted and written back as they read, uncorrectable ones poisoned and reported. -/
def Chip.patrol (c : Chip) (fixed bad : List Nat) : Chip :=
  bad.foldl (fun d a =>
    ({ d with hbm := { d.hbm with poisoned := if d.hbm.poisoned.contains (wordAddr a) then d.hbm.poisoned else insertSorted (wordAddr a) d.hbm.poisoned } }).hbmUe (wordAddr a))
    { c with hbm := { c.hbm with ce := satAdd 4294967295 c.hbm.ce fixed.length } }
/-- PATROL_SCRUB (R232). -/
def execPatrolScrub (fixed bad : List Nat) (s : State) : Host.Outcome State Fault Refusal :=
  .next { s with chip := s.chip.patrol fixed bad }

/-! ### Power and temperature (R326 to R329, R332) -/

/-- A power sample (R326, R327, R332): VIN_RANGE's rise raises alarm 21. -/
def Chip.powerSample (c : Chip) (mw mv : Nat) : Chip :=
  let t := c.tens.sample mw mv
  Chip.alarmIf { c with tens := t } (t.vinRange && !c.tens.vinRange) true .vinRange 21 324 none 0 0 0
/-- Every live ticket brought up to date. -/
def progressEach (c : Chip × Mem) : Chip × Mem := progressAll (c.1.cast.tickets.map (fun t => t.id)) c
/-- A sample that cuts RATE_B cuts it for what is in flight too, and one that starts shedding sheds at once (R327, R333). -/
def powerSample (mw mv : Nat) (c : Chip × Mem) : Chip × Mem :=
  let p := c.1.powerSample mw mv
  let d := (if p.tens.rateB = c.1.tens.rateB then p else p.meetRates, c.2)
  if d.1.tens.shedding && !c.1.tens.shedding then progressEach d else d
/-- POWER_SAMPLE (R326). -/
def execPowerSample (mw mv : Nat) (s : State) : Host.Outcome State Fault Refusal :=
  .next { s with chip := (powerSample mw mv (s.chip, s.mem)).1, mem := (powerSample mw mv (s.chip, s.mem)).2 }
/-- The 32 sensors read (R328): those retired at this reading raise alarm 23 once, ARG the mask of them. -/
def Chip.thermalReading (c : Chip) (temps : List Int) : Chip :=
  let r := c.tens.retiring temps
  Chip.alarmIf { c with tens := c.tens.readTemps temps } (!r.isEmpty) true .sensorRetired 23 325 none 0 0 (maskOf r)
/-- A Trip reading: alarm 20, and a power-cycle request (R329, Table 17.3). -/
def thermalReading (temps : List Int) (c : Chip × Mem) : Chip × Mem :=
  let d := c.1.thermalReading temps
  if c.1.tens.trips temps then powerCycle 11 0xFF (d.alarm true .thermalTrip 20 323 none 0 0 0, c.2) else (d, c.2)
/-- THERMAL_READING (R328). -/
def execThermalReading (temps : List Int) (s : State) : Host.Outcome State Fault Refusal :=
  .next { s with chip := (thermalReading (temps.take 32) (s.chip, s.mem)).1, mem := (thermalReading (temps.take 32) (s.chip, s.mem)).2 }

end Sys2Proof.Machine
end

