-- ==== Sys2Proof/Machine/Rows.lean ====
section
/-!
DEFINITION. The row boundary (R8, R36): every block's snapshot, then the per-row actions in their order.
-/
namespace Sys2Proof.Machine

/-! ### Snapshots (R8) -/

/-- PCIE snapshots. -/
def Pcie.latch (p : Pcie) (row : Nat) : Pcie :=
  { p with
    late := p.late.latch, unexp := p.unexp.latch, cplTo := p.cplTo.latch, barDrop := p.barDrop.latch
    rdKib := p.rdKib.latch, wrKib := p.wrKib.latch, snapRow := row }
/-- Snapshots of a queue pair. -/
def Queue.latch (q : Queue) (row : Nat) : Queue := { q with accepted := q.accepted.latch, cqWait := q.cqWait.latch, snapRow := row }
/-- CAST snapshots. -/
def Cast.latch (k : Cast) (row : Nat) : Cast :=
  { k with
    arrived := k.arrived.latch, committed := k.committed.latch, late := k.late.latch, skipped := k.skipped.latch
    refused := k.refused.latch, snapRow := row }
/-- HANK snapshots. -/
def Hank.latch (k : Hank) (row : Nat) : Hank :=
  { k with allocCtr := k.allocCtr.latch, waitCtr := k.waitCtr.latch, refused := k.refused.latch, snapRow := row }
/-- HBM snapshots; the replays that R230 counts within a row start anew. -/
def Hbm.latch (h : Hbm) (row : Nat) : Hbm :=
  { h with
    rdKib := h.rdKib.latch, wrKib := h.wrKib.latch, pageHit := h.pageHit.latch, parity := h.parity.latch, snapRow := row, rowReplays := [] }
/-- RST snapshots. -/
def Rst.latch (r : Rst) (row : Nat) : Rst :=
  { r with
    trips := r.trips.latch, frogs := r.frogs.latch, engResets := r.engResets.latch, pnlResets := r.pnlResets.latch
    voided := r.voided.latch, aborts := r.aborts.latch, snapRow := row }
/-- RUNG snapshots; the time in the present rung is counted up to now first. -/
def RungB.latch (r : RungB) (now row : Nat) : RungB :=
  let s := r.settle now
  { s with hushTime := s.hushTime.latch, dozeTime := s.dozeTime.latch, exits := s.exits.latch, snapRow := row }
/-- Every block's snapshot, with the number of the row that ends. -/
def Chip.latchAll (c : Chip) : Chip :=
  let row := c.gauge.rowNum
  { c with
    gauge := c.gauge.latch, tens := c.tens.latch row, evc := c.evc.latch row, log := c.log.latch row, pcie := c.pcie.latch row
    queues := (List.range 256).map (fun g => (g, (c.queue g).latch row)), cast := c.cast.latch row, hank := c.hank.latch row
    ndl := { c.ndl with tab := c.ndl.tab.mapV (fun x => x.latch row) }, pnl := c.pnl.latch row, vdec := c.vdec.latch row
    venc := c.venc.latch row, hbm := c.hbm.latch row, rnd := c.rnd.latch row, rst := c.rst.latch row, rung := c.rung.latch c.now row }

/-! ### The voltage loop at a boundary (R30, R32, R35) -/

/-- The next row begins: its number, its start, and the rows since the first boundary of step 8, in one of which the margin must have been
met (R35, R36). -/
def Gauge.nextRow (g : Gauge) (at_ : Nat) : Gauge :=
  { g with
    rowNum := (g.rowNum + 1) % 4294967296, rowStart := at_, firstRow := false
    startRows := if g.firstRow then 0 else g.startRows + 1, marginMet := !g.firstRow && (g.marginMet || g.meets g.minPaceSnap) }
/-- R30 on the row minimum just latched, suspended in Doze, then R32 with the setpoint in force before it. -/
def Gauge.voltageRow (g : Gauge) (doze : Bool) : Gauge :=
  (if doze then g else g.r30 g.minPaceSnap).r32 g.vcore2 g.minPaceSnap
/-- Moment of the boundary: the first at step 8, the others a row after the one before (R36). -/
def Gauge.boundary (g : Gauge) : Nat := if g.firstRow then g.time else g.rowStart + g.rowLen

/-! ### Other per-row actions -/

/-- A ticket's bit bucket after a row of `ticks` (R165): MAX_KBPS × 1,000 bits a second, at most MAX_KBPS × 500. -/
def Ticket.credit (t : Ticket) (ticks : Nat) : Ticket :=
  let gain := t.bucketRest + t.kbps * ticks
  { t with bucket := min (t.kbps * 500) (t.bucket + gain / 25000), bucketRest := if t.kbps * 500 ≤ t.bucket + gain / 25000 then 0 else gain % 25000 }
/-- Payload of ALARM_SUMMARY: alarms of each class that were not sent, 2 bytes a class. -/
def summaryBytes (supp : Tbl Nat) : List Byte := (List.range 64).flatMap (fun k => leBytes 2 (Tbl.get 0 supp k))
/-- ALARM_SUMMARY to the collectors for a row in which alarms were not sent (R258). -/
def Chip.alarmSummary (c : Chip) (supp : Tbl Nat) : Chip :=
  if supp.isEmpty then c else c.tellAll c.collectors 0x000B 0 0 (summaryBytes supp)
/-- Work that may go on once nothing is shed: needles, decode cores, samples of adaptation (R333). -/
def resumeShed (c : Chip × Mem) : Chip × Mem :=
  let d := (c.1.pnl.panels.map (fun e => e.1)).foldl Chip.fillPanel c.1
  let d := (d.cast.tickets.map (fun t => t.id)).foldl (fun d t => d.startSample c.2 t) d
  (d.pumpAll c.2, c.2)

/-! ### The boundary -/

/-- The row's end: snapshots, the voltage loop, temperature and tension, regulators, buckets, summaries. -/
def Chip.rowEnd (c : Chip) (e : RowEnv) : Chip :=
  let due := c.gauge.boundary
  let supp := c.log.alarmSupp
  let gar := c.gar
  let d := (c.advance due).latchAll
  let d := { d with gauge := (d.gauge.nextRow due).voltageRow d.dozing }
  let d := ((d.thermalRow.tensionRow e).garRise gar).meetRates
  let d := { d with
    pnl := d.pnl.refill d.gauge.rowLen
    cast := { d.cast with tickets := d.cast.tickets.map (fun (t : Ticket) => t.credit d.gauge.rowLen) } }
  ((d.summaryRecord d.log.suppCtr.snap).alarmSummary supp).retryResident
/-- A row boundary: what is shed, and what goes on again, follows from the row's tension step (R333). -/
def rowBoundary (e : RowEnv) (c : Chip × Mem) : Chip × Mem :=
  if c.1.gauge.running && !c.1.gauge.provisional then
    let d := (c.1.rowEnd e, c.2)
    if d.1.tens.shedding then progressEach d else if c.1.tens.shedding then progressEach (resumeShed d) else d
  else c
/-- ROW_BOUNDARY (R8). -/
def execRowBoundary (e : RowEnv) (s : State) : Host.Outcome State Fault Refusal :=
  .next { s with chip := (rowBoundary e (s.chip, s.mem)).1, mem := (rowBoundary e (s.chip, s.mem)).2 }

end Sys2Proof.Machine
end

