-- ==== Sys2Proof/Machine/Complete.lean ====
section
/-!
DEFINITION. OPERATION_COMPLETE: the end of a needle's operation and what follows from it on the stream (R98, R102, R211, R217 to R220,
R346).
-/
namespace Sys2Proof.Machine

/-! ### Faults that end only a frame (R346) -/

/-- A running sample whose operation failed dropped as ABORTED, and the next one started. -/
def Chip.sampleFault (c : Chip) (m : Mem) (t : Ticket) : Chip :=
  match t.adapt.samples.find? (fun s => s.state == .running) with
  | none => c
  | some s => (c.reTicket t (t.dropSample c.now s .aborted)).startSample m t.id
/-- The frame that a context works on voided from its stage on; an analysis stage loses only its analysis, an adaptation stage its
sample. -/
def Chip.workFault (c : Chip) (m : Mem) (ticket : Nat) (p : Placed) (f : Option FrameRt) : Chip :=
  match c.ticket? ticket with
  | none => c
  | some t =>
    if p.kind = .adapt then c.sampleFault m t
    else match f with
      | none => c
      | some x => if x.lost.contains p.stage then c else c.voidFrame t x p.stage 0x41 false
/-- The frame that an operation worked on: the one its descriptors named, else the one its stage's marker counts next. -/
def Chip.workOf (c : Chip) (t : Ticket) (p : Placed) (o : OpRt) : Option FrameRt :=
  match o.frame with
  | some k => t.frames.find? (fun f => f.order == k)
  | none => (c.nextWork t p).map (fun x => x.1)
/-- The incident of a completion with COLUMN_FAULT or MEMORY_ERROR, with the edge on the needle's source (Table 15.1). -/
def Chip.faultIncident (c : Chip) (n ctx status : Nat) : Chip :=
  c.incident (if status = 6 then .columnFault else .memoryError) (512 + n) (some ctx) (c.ctxTicketId ctx) 0 n
/-- The 16th COLUMN_FAULT of a needle in one row: alarm 38 and a warm chip reset (R346). -/
def columnLimit (n : Nat) (c : Chip × Mem) : Chip × Mem :=
  if (c.1.needle n).rowFaults = 16 then warmReset 3 n (c.1.alarm false .columnFault 38 (512 + n) none 0 n n, c.2) else c

/-! ### What an operation was for -/

/-- A frame's first enhancement band run by the chart: the frame begins, unless it has (R199, R220). -/
def Ticket.enhanceStart (t : Ticket) (source : Nat) : Ticket :=
  match t.frame? source with
  | some f => if t.begun.all (fun b => decide (b.1 < f.order)) then t.beginFrame f false else t
  | none => t
/-- The end of an operation of a known role (R205, R211, R217 to R220). -/
def roleDone (r : OpRole) (c : Chip × Mem) : Chip × Mem :=
  match r with
  | .plain => c
  | .association ticket source cands => (c.1.associated ticket source cands, c.2)
  | .sampleDone ticket => (({ c.1 with cast := c.1.cast.updTicket ticket Ticket.sampleDone }).startSample c.2 ticket, c.2)
  | .optimiser ticket loss finite master =>
    let d := optimiser ticket loss.toNat finite master c
    (d.1.startSample d.2 ticket, d.2)
  | .enhanceStart ticket source => ({ c.1 with cast := c.1.cast.updTicket ticket (fun t => t.enhanceStart source) }, c.2)

/-! ### The command -/

/-- An operation that can complete ends: entry and marker, its role or its fault, and the stream is brought up to date. -/
def operationComplete (n tag : Nat) (e : OpEnd) (stalls withheld corrected : Nat) (r : OpRole) (c : Chip × Mem) : Chip × Mem :=
  match (c.1.needle n).op? tag with
  | none => c
  | some o =>
    if c.1.canComplete n o then
      let st := o.endStatus e
      let t := c.1.ctxTicket o.context
      let p := t.bind (fun t => t.stageOf o.context)
      let f := match t, p with | some t, some p => c.1.workOf t p o | _, _ => none
      let d := completeOp n o e stalls withheld corrected c
      let x :=
        if st = 6 ∨ st = 7 then
          ((match p with | some q => d.1.workFault d.2 (c.1.ctxTicketId o.context) q f | none => d.1).faultIncident n o.context st, d.2)
        else if st = 0 then roleDone r d else d
      let y := match t with | some t => progress t.id x | none => (x.1.pumpAll x.2, x.2)
      if st = 6 then columnLimit n y else y
    else c
/-- OPERATION_COMPLETE (R98). -/
def execOperationComplete (n tag : Nat) (e : OpReport) (stalls withheld : Nat) (r : OpRole) (s : State) : Host.Outcome State Fault Refusal :=
  .next { s with
    chip := (operationComplete n tag e.how stalls withheld e.corrected r (s.chip, s.mem)).1
    mem := (operationComplete n tag e.how stalls withheld e.corrected r (s.chip, s.mem)).2 }

end Sys2Proof.Machine
end

