-- ==== Sys2Proof/Machine/Submit.lean ====
section
/-!
DEFINITION. Queue pairs and submission entries (R276 to R281, R215, R237, R239, R243): what each entry at the head of a submission queue
does.
-/
namespace Sys2Proof.Machine

/-! ### The head entry -/

/-- A link in L1 is back in L0 for a request of the host (R290). -/
def Chip.tlp (c : Chip) : Chip := { c with pcie := { c.pcie with power := .l0 } }
/-- Whether the head entry of queue `g` has been handed over and may be judged but for Bus Master Enable. -/
def Chip.handed (c : Chip) (g need : Nat) : Bool :=
  (c.queue g).state == .running && (c.queue g).sqHead != (c.queue g).sqTail && !(c.pcie.fn (queueFn g)).fenced && !(c.pcie.fn (queueFn g)).d3hot &&
  need ≤ (c.queue g).room
/-- Records that an entry reserves: 1, FG_K + 2 more for a FRAME that ends a unit, 3 more for a SAMPLE (R278); 1 where it can only be
refused. -/
def Chip.needOf (c : Chip) (fn : Nat) (e : List Byte) : Nat :=
  if c.ticketStatus fn (eTicket e) ≠ stOk then 1
  else if eOp e = 1 ∧ bit (eFlags e) 1 = true then
    1 + (match (c.fnTicket fn (eTicket e)).bind (fun t => c.stream? t.pipeline) with | some sd => sd.fgK | none => 0) + 2
  else if eOp e = 2 then 4 else 1
/-- An entry answered as it is accepted, its further records returned. -/
def Chip.refuseEntry (c : Chip) (g need : Nat) (e : List Byte) (status : Nat) : Chip :=
  ((c.accept g need).answer g (eTag e) status (eTicket e) 0).unreserve g (need - 1)
/-- An entry at the head of its queue (R277 to R279): nothing while it cannot be taken; FENCED first; then its fields and its ticket
(`check`), then what `f` does. `op` is the row's opcode. -/
def submit (fn q op : Nat) (e : List Byte) (check : Nat) (f : Nat → Chip × Mem → Chip × Mem) (c : Chip × Mem) : Chip × Mem :=
  let g := globalQueue fn q
  let need := c.1.needOf fn e
  if q < queuesOf fn ∧ c.1.takes g need = true ∧ eOp e = op then
    (if c.1.closed then (c.1.refuseEntry g need e stFenced, c.2)
     else if check ≠ stOk then (c.1.refuseEntry g need e check, c.2)
     else f g c)
  else c
/-- BAD_DESCRIPTOR where the fields break a rule, else the state of the ticket named. -/
def Chip.checkTicket (c : Chip) (fn : Nat) (e : List Byte) (ok : Bool) : Nat := if tagOk e && ok then c.ticketStatus fn (eTicket e) else stBad
/-- BAD_DESCRIPTOR where the fields of an entry without a ticket break a rule. -/
def checkFields (e : List Byte) (ok : Bool) : Nat := if tagOk e && ok then stOk else stBad
/-- What a failed read of an entry's data or list answers (Table 13.11). -/
def readStatus : HostRead → Nat
  | .data _ => stOk
  | _ => stDma
/-- The endpoint after an entry's read. -/
def Chip.resolve (c : Chip) (g : Nat) (e : List Byte) (d : HostRead) : Chip :=
  { c with pcie := c.pcie.resolve c.now (queueFn g) (.entry g (eTag e)) d }
end Sys2Proof.Machine
namespace Sys2Proof
/-- Bytes of a read. -/
def HostRead.bytes : HostRead → List Byte
  | .data b => b
  | _ => []
end Sys2Proof
namespace Sys2Proof.Machine

/-! ### NOP -/

/-- A NOP accepted and answered; an entry whose OP Table 13.7 does not name is answered BAD_DESCRIPTOR (log 103). -/
def nop (fn q : Nat) (e : List Byte) (c : Chip × Mem) : Chip × Mem :=
  if 8 ≤ eOp e then submit fn q (eOp e) e stBad (fun _ d => d) c
  else submit fn q 0 e (checkFields e (unusedZero e [])) (fun g c => ((c.1.accept g 1).answer g (eTag e) stOk 0 0, c.2)) c
/-- NOP (R279). -/
def execNop (fn q : Nat) (entry : List Byte) (s : State) : Host.Outcome State Fault Refusal :=
  .next { s with chip := (nop fn q entry (s.chip, s.mem)).1, mem := (nop fn q entry (s.chip, s.mem)).2 }

/-! ### FRAME (R280) -/

/-- Hanks freed. -/
def Chip.hankReleaseAll (c : Chip) (hs : List Nat) : Chip := { c with hank := c.hank.releaseAll hs }
/-- The parts handed over on a queue discarded, their hanks freed at once (R280). -/
def Chip.dropUnit (c : Chip) (g : Nat) : Chip :=
  match (c.queue g).unit with
  | none => c
  | some (_, ps) => (c.updQueue g (fun q => { q with unit := none })).hankReleaseAll (partHanks ps)
/-- Parts of the unit that a queue is being handed for a ticket. -/
def Chip.unitOf (c : Chip) (g ticket : Nat) : List UnitPart := match (c.queue g).unit with | some (t, ps) => if t = ticket then ps else [] | none => []
/-- Whether a FRAME of another ticket falls between the parts of a unit. -/
def Chip.intrudes (c : Chip) (g ticket : Nat) : Bool := match (c.queue g).unit with | some (t, _) => t != ticket | none => false
/-- Hanks that a list of handles names on a function, if each names one. -/
def Chip.handleHanks (c : Chip) (fn n : Nat) (b : List Byte) : List (Option Nat) := (List.range n).map (fun i => c.hank.ofHandle fn (le b (4 * i) 4))
/-- Whether every handle of a list names a hank that the host tag holds. -/
def Chip.allHeld (c : Chip) (fn : Nat) (l : List (Option Nat)) : Bool :=
  l.all (fun h => match h with | some h => (c.hank.entry h).state == .held && (c.hank.entry h).owner == hostTag fn | none => false)
/-- A part taken: the ticket's unit grows, or ends and arrives at the filter (R280). -/
def takePart (g need : Nat) (e : List Byte) (t : Ticket) (hs : List Nat) (pic : PicInfo) (c : Chip × Mem) : Chip × Mem :=
  let ps := c.1.unitOf g t.id ++ [{ hanks := hs, bytes := eLen e }]
  let d := (c.1.accept g need).answer g (eTag e) stOk t.id (eLen e)
  if bit (eFlags e) 1 then
    let d := d.updQueue g (fun q => { q with unit := none })
    progress t.id (d.arriveUnit t ps (ePts e) (bit (eFlags e) 0) pic, c.2)
  else (d.updQueue g (fun q => { q with unit := some (t.id, ps) }), c.2)
/-- A part whose data comes by DMA: it waits for hanks at the head of its queue (log 35). -/
def dataPart (g need : Nat) (e : List Byte) (t : Ticket) (d : HostRead) (pic : PicInfo) (c : Chip × Mem) : Chip × Mem :=
  let n := ceilDiv (eLen e) 0x4000
  if 4096 < (partHanks (c.1.unitOf g t.id)).length + n then ((c.1.refuseEntry g need e stBad).dropUnit g, c.2)
  else if c.1.grantable t n then
    match d with
    | .data b =>
      let hs := c.1.hank.next n
      let x := { c.1.resolve g e d with hank := c.1.hank.alloc t.id (ctxTag (t.kindContext .decode)) n }
      takePart g need e t hs pic (x.wrote (hs.map (fun h => (hankAddr h, 0x4000))), hankWrite c.2 hs 0 (b.take (eLen e)))
    | _ => (((c.1.resolve g e d).refuseEntry g need e stDma).dropUnit g, c.2)
  else ({ c.1 with hank := { c.1.hank with waitCtr := c.1.hank.waitCtr.inc } }, c.2)
/-- A part given as handles of hanks charged to the ticket, PASSed to the decode context; a PASS that cannot be is refused and counted
(R237), and then the part hands nothing over (log 72). -/
def handlePart (g need : Nat) (e : List Byte) (t : Ticket) (d : HostRead) (pic : PicInfo) (c : Chip × Mem) : Chip × Mem :=
  let x := c.1.resolve g e d
  if readStatus d ≠ stOk then ((x.refuseEntry g need e stDma).dropUnit g, c.2)
  else
    let l := x.handleHanks (queueFn g) (eCount e) d.bytes
    let hs := l.filterMap id
    if !x.allHeld (queueFn g) l || decide (4096 < (partHanks (x.unitOf g t.id)).length + l.length) || decide (0x4000 * l.length < eLen e) || decide (hs.eraseDups.length < hs.length) ||
        hs.any (fun h => (x.hank.entry h).ticket != t.id) then
      let bad := hs.filter (fun h => !x.handsOver h (hostTag (queueFn g)) (ctxTag (t.kindContext .decode)))
      (((bad.foldl (fun y h => y.hankRefuse .badState h (hostTag (queueFn g))) x).refuseEntry g need e stBad).dropUnit g, c.2)
    else
      takePart g need e t hs pic (hs.foldl (fun y h => y.hankPass h (hostTag (queueFn g)) (ctxTag (t.kindContext .decode))) x, c.2)
/-- A FRAME whose ticket is live: on its own queue, fed over PCI Express, not between another unit's parts, at most 4,096 parts. -/
def frameEntry (fn : Nat) (e : List Byte) (d : HostRead) (pic : PicInfo) (g : Nat) (c : Chip × Mem) : Chip × Mem :=
  match c.1.fnTicket fn (eTicket e) with
  | none => c
  | some t =>
    let need := c.1.needOf fn e
    if t.queue ≠ g ∨ t.srcRound = true then (c.1.refuseEntry g need e stBad, c.2)
    else if c.1.intrudes g t.id ∨ 4096 ≤ (c.1.unitOf g t.id).length then ((c.1.refuseEntry g need e stBad).dropUnit g, c.2)
    else if bit (eFlags e) 2 then dataPart g need e t d pic c else handlePart g need e t d pic c
/-- Fields of a FRAME. -/
def frameFields (e : List Byte) : Bool := unusedZero e [(1, 1), (4, 4), (8, 8), (16, 4), (20, 2), (32, 8)] && decide (eFlags e < 8)
/-- A DMA ended by a Bus Master Enable clear (R287): the entry is answered HOST_ACCESS_OFF, its unit's parts are discarded (log 34). -/
def accessOff (fn q op : Nat) (e : List Byte) (reads : Bool) (c : Chip × Mem) : Chip × Mem :=
  let g := globalQueue fn q
  if reads && decide (q < queuesOf fn) && eOp e == op && !(c.1.pcie.fn fn).bme && c.1.handed g (c.1.needOf fn e) && !c.1.closed then
    (let d := c.1.refuseEntry g (c.1.needOf fn e) e stAccessOff
     if op = 1 then d.dropUnit g else d, c.2)
  else c
/-- FRAME as a submission. -/
def frame (fn q : Nat) (e : List Byte) (d : HostRead) (pic : PicInfo) (c : Chip × Mem) : Chip × Mem :=
  submit fn q 1 e (c.1.checkTicket fn e (frameFields e)) (frameEntry fn e d pic) (accessOff fn q 1 e true c)
/-- FRAME (R280). -/
def execFrame (fn q : Nat) (entry : List Byte) (d : HostRead) (pic : PicInfo) (s : State) : Host.Outcome State Fault Refusal :=
  .next { s with chip := (frame fn q entry d pic (s.chip, s.mem)).1, mem := (frame fn q entry d pic (s.chip, s.mem)).2 }

/-! ### SAMPLE (R215) -/

/-- A sample's fields. -/
def newSample (d : List Byte) (pic : PicInfo) (now : Nat) (st : SampleState) : Sample :=
  { id := dSample d, epoch := dEpoch d, cost := dCost d, accepted := now, state := st, desc := d, pic := pic }
/-- Whether a coded picture lies in hanks charged to the ticket (R226). -/
def Chip.bitsOk (c : Chip) (t : Ticket) (d : List Byte) : Bool :=
  (c.bitsHanks t d).all (fun x => match x with | some h => (c.hank.entry h).charged && (c.hank.entry h).ticket == t.id | none => false)
/-- Why a sample is dropped at its acceptance, if it is (Tables 10.7 and 10.8). -/
def Chip.sampleRefused (c : Chip) (t : Ticket) (d : List Byte) (pic : PicInfo) : Option DropReason :=
  if !descOk d t.id then some .badDescriptor
  else match t.adapt.cached (dSample d) with
    | some (p, _) => if cropOk d p then none else some .badDescriptor
    | none =>
      if dInCache d then some .notCached
      else if !c.bitsOk t d then some .badDescriptor
      else if (t.filter c.now (dBitsLen d) true pic).isSome then some .filtered
      else if cropOk d pic then none else some .badDescriptor
/-- A sample accepted (R215): dropped, ready from the cache, or put to decode; what its entry reserved and it cannot use returns. -/
def Chip.takeSample (c : Chip) (m : Mem) (t : Ticket) (d : List Byte) (pic : PicInfo) (reserved : Nat) : Chip :=
  let why := c.sampleRefused t d pic
  let hit := (t.adapt.cached (dSample d)).isSome
  let s := newSample d (match t.adapt.cached (dSample d) with | some (p, _) => p | none => pic) c.now (if hit then .ready c.now else .decoding)
  let u := match why with
    | some w => t.reportDrop c.now s w
    | none => { t with adapt := { t.adapt with samples := t.adapt.samples ++ [s] } }
  let e := Chip.giveBack { c with cast := c.cast.updTicket t.id (fun _ => u) } t (reserved - (u.reserved - t.reserved))
  match why with
  | some _ => e
  | none => if hit then e.startSample m t.id else e.decodeSample u s
/-- A SAMPLE whose ticket is live: on its own queue, of a stream that adapts. -/
def sampleEntry (fn : Nat) (e : List Byte) (d : HostRead) (pic : PicInfo) (g : Nat) (c : Chip × Mem) : Chip × Mem :=
  match c.1.fnTicket fn (eTicket e) with
  | none => c
  | some t =>
    if t.queue ≠ g ∨ (t.kindStage .adapt).isNone = true ∨ t.srcRound = true then (c.1.refuseEntry g 4 e stBad, c.2)
    else
      let x := c.1.resolve g e d
      if readStatus d ≠ stOk then (x.refuseEntry g 4 e stDma, c.2)
      else
        let y := (x.accept g 4).answer g (eTag e) stOk t.id 0
        progress t.id (y.takeSample c.2 t d.bytes pic 3, c.2)
/-- SAMPLE as a submission. -/
def sample (fn q : Nat) (e : List Byte) (d : HostRead) (pic : PicInfo) (c : Chip × Mem) : Chip × Mem :=
  submit fn q 2 e (c.1.checkTicket fn e (unusedZero e [(4, 4), (8, 8)])) (sampleEntry fn e d pic) (accessOff fn q 2 e true c)
/-- SAMPLE (R215). -/
def execSample (fn q : Nat) (entry : List Byte) (d : HostRead) (pic : PicInfo) (s : State) : Host.Outcome State Fault Refusal :=
  .next { s with chip := (sample fn q entry d pic (s.chip, s.mem)).1, mem := (sample fn q entry d pic (s.chip, s.mem)).2 }

/-! ### ALLOC, FREE, COPY_OUT -/

/-- An ALLOC met at once: the handles are written to ADDR; otherwise NO_HANKS (R239). -/
def allocEntry (fn : Nat) (e : List Byte) (g : Nat) (c : Chip × Mem) : Chip × Mem :=
  match c.1.fnTicket fn (eTicket e) with
  | none => c
  | some t =>
    if c.1.grantable t (eCount e) then
      let hs := c.1.hank.next (eCount e)
      let d := { c.1 with hank := c.1.hank.alloc t.id (hostTag fn) (eCount e) }
      let d := d.hostWrite (eAddr e) (hs.flatMap (fun h => leBytes 4 (d.hank.handle fn h)))
      ((d.accept g 1).answer g (eTag e) stOk t.id (eCount e), c.2)
    else (c.1.refuseEntry g 1 e stNoHanks, c.2)
/-- ALLOC as a submission. -/
def alloc (fn q : Nat) (e : List Byte) (c : Chip × Mem) : Chip × Mem :=
  submit fn q 3 e (c.1.checkTicket fn e (unusedZero e [(4, 4), (8, 8), (20, 2)] && within 1 64 (eCount e))) (allocEntry fn e) c
/-- ALLOC (R239). -/
def execAlloc (fn q : Nat) (entry : List Byte) (s : State) : Host.Outcome State Fault Refusal :=
  .next { s with chip := (alloc fn q entry (s.chip, s.mem)).1, mem := (alloc fn q entry (s.chip, s.mem)).2 }
/-- One handle freed, with the frees refused so far (R237). -/
def freeHandle (fn : Nat) (acc : Chip × Nat) (x : Nat) : Chip × Nat :=
  match acc.1.hank.ofHandle fn x with
  | none => (acc.1.freeNoHank fn x, acc.2 + 1)
  | some h => (acc.1.hankFree h (hostTag fn), if acc.1.hank.frees h (hostTag fn) then acc.2 else acc.2 + 1)
/-- A list of handles freed. -/
def Chip.freeHandles (c : Chip) (fn n : Nat) (b : List Byte) : Chip × Nat :=
  ((List.range n).map (fun i => le b (4 * i) 4)).foldl (freeHandle fn) (c, 0)
/-- A FREE: the answer counts the frees refused. -/
def freeEntry (fn : Nat) (e : List Byte) (d : HostRead) (g : Nat) (c : Chip × Mem) : Chip × Mem :=
  let x := c.1.resolve g e d
  if readStatus d ≠ stOk then (x.refuseEntry g 1 e stDma, c.2)
  else
    let y := x.freeHandles fn (eCount e) d.bytes
    ((y.1.accept g 1).answer g (eTag e) stOk 0 y.2, c.2)
/-- FREE as a submission. -/
def free (fn q : Nat) (e : List Byte) (d : HostRead) (c : Chip × Mem) : Chip × Mem :=
  submit fn q 4 e (checkFields e (unusedZero e [(8, 8), (20, 2)] && within 1 4096 (eCount e))) (freeEntry fn e d) (accessOff fn q 4 e true c)
/-- FREE (R237). -/
def execFree (fn q : Nat) (entry : List Byte) (d : HostRead) (s : State) : Host.Outcome State Fault Refusal :=
  .next { s with chip := (free fn q entry d (s.chip, s.mem)).1, mem := (free fn q entry d (s.chip, s.mem)).2 }
/-- A COPY_OUT: LEN bytes of the listed hanks, all held by the host tag, are written to ADDR. -/
def copyEntry (fn : Nat) (e : List Byte) (d : HostRead) (g : Nat) (c : Chip × Mem) : Chip × Mem :=
  let x := c.1.resolve g e d
  if readStatus d ≠ stOk then (x.refuseEntry g 1 e stDma, c.2)
  else
    let l := x.handleHanks fn (eCount e) d.bytes
    let hs := l.filterMap id
    if !x.allHeld fn l || decide (0x4000 * l.length < eLen e) then (x.refuseEntry g 1 e stBad, c.2)
    else
      let y := hs.foldl (fun z h => z.hbmFetch (hankAddr h, 0x4000)) x
      ((y.hostWrite (eAddr e) (hankRead c.2 hs 0 (eLen e))).accept g 1 |>.answer g (eTag e) stOk 0 (eLen e), c.2)
/-- COPY_OUT as a submission. -/
def copyOut (fn q : Nat) (e : List Byte) (d : HostRead) (c : Chip × Mem) : Chip × Mem :=
  submit fn q 5 e (checkFields e (unusedZero e [(8, 8), (16, 4), (20, 2), (40, 8)])) (copyEntry fn e d) (accessOff fn q 5 e true c)
/-- COPY_OUT (R279). -/
def execCopyOut (fn q : Nat) (entry : List Byte) (d : HostRead) (s : State) : Host.Outcome State Fault Refusal :=
  .next { s with chip := (copyOut fn q entry d (s.chip, s.mem)).1, mem := (copyOut fn q entry d (s.chip, s.mem)).2 }

/-! ### SIGNAL and WAIT (R242 to R244) -/

/-- Marker that an entry names in its ticket's map. -/
def Ticket.entryMarker (t : Ticket) (e : List Byte) : Option Nat := t.markers[eMarker e]?
/-- A host SIGNAL; the marker's last signalling context stays. -/
def signalEntry (fn : Nat) (e : List Byte) (g : Nat) (c : Chip × Mem) : Chip × Mem :=
  match c.1.fnTicket fn (eTicket e) with
  | none => c
  | some t =>
    match t.entryMarker e with
    | none => (c.1.refuseEntry g 1 e stBad, c.2)
    | some m =>
      let d := c.1.accept g 1
      let d := d.signalMap t (eMarker e) (eValue e) (d.marker m).context
      progress t.id (d.answer g (eTag e) stOk t.id 0, c.2)
/-- SIGNAL as a submission. -/
def signal (fn q : Nat) (e : List Byte) (c : Chip × Mem) : Chip × Mem :=
  submit fn q 6 e (c.1.checkTicket fn e (unusedZero e [(4, 4), (22, 2), (24, 4)] && within 1 65535 (eValue e))) (signalEntry fn e) c
/-- SIGNAL (R243). -/
def execSignal (fn q : Nat) (entry : List Byte) (s : State) : Host.Outcome State Fault Refusal :=
  .next { s with chip := (signal fn q entry (s.chip, s.mem)).1, mem := (signal fn q entry (s.chip, s.mem)).2 }
/-- A host WAIT: answered at once if the count is there, else pending. -/
def waitEntry (fn : Nat) (e : List Byte) (g : Nat) (c : Chip × Mem) : Chip × Mem :=
  match c.1.fnTicket fn (eTicket e) with
  | none => c
  | some t =>
    match t.entryMarker e with
    | none => (c.1.refuseEntry g 1 e stBad, c.2)
    | some m =>
      let d := c.1.accept g 1
      if eValue e ≤ (d.marker m).count then (d.answer g (eTag e) stOk t.id (d.marker m).count, c.2)
      else ({ d with waits := d.waits ++ [{ q := g, tag := eTag e, ticket := t.id, marker := m, value := eValue e, deadline := d.now + usTicks (eTimeout e) }] }, c.2)
/-- WAIT as a submission. -/
def wait (fn q : Nat) (e : List Byte) (c : Chip × Mem) : Chip × Mem :=
  submit fn q 7 e (c.1.checkTicket fn e (unusedZero e [(4, 4), (22, 2), (24, 4), (28, 4)] && within 10 10000000 (eTimeout e))) (waitEntry fn e) c
/-- WAIT (R279). -/
def execWait (fn q : Nat) (entry : List Byte) (s : State) : Host.Outcome State Fault Refusal :=
  .next { s with chip := (wait fn q entry (s.chip, s.mem)).1, mem := (wait fn q entry (s.chip, s.mem)).2 }
/-- A host WAIT's time is over: it is answered TIMEOUT with the count. -/
def Chip.waitExpire (c : Chip) (q tag : Nat) : Chip :=
  match c.waits.find? (fun w => w.q == q && w.tag == tag) with
  | none => c
  | some w =>
    let d := c.advance w.deadline
    { d with waits := d.waits.erase w }.answer w.q w.tag stTimeout w.ticket (c.marker w.marker).count
/-- HOST_WAIT_TIMEOUT (R279). -/
def execHostWaitTimeout (q tag : Nat) (s : State) : Host.Outcome State Fault Refusal := .next { s with chip := s.chip.waitExpire q tag }

/-! ### Queue registers (R276, R277, R281) -/

/-- Address of a queue's register, as REG_ACCESS logs it (Table 19.1). -/
def queueReg (g off : Nat) : Nat := 0x40000 + 0x400 * g + off
/-- Whether the size fields of a Q_CTRL value lie in their ranges. -/
def ctrlOk (v : Nat) : Bool := within 4 12 (bitf v 16 4) && within 4 15 (bitf v 20 4)
/-- The vector of a Q_CTRL value: 64 vectors on a VF. -/
def ctrlVector (fn v : Nat) : Nat := if fn = 0 then bitf v 0 11 else bitf v 0 6
/-- Target of a QUEUE source. -/
def Chip.withTarget (c : Chip) (g v : Nat) : Chip :=
  { c with evc := { c.evc with srcs := Tbl.upd {} c.evc.srcs g (fun x => { x with target := 1, func := queueFn g, vector := v }) } }
/-- The vector of a queue set, as its source's target (R283). -/
def Chip.setVector (c : Chip) (g v : Nat) : Chip :=
  (c.updQueue g (fun q => { q with vector := v })).withTarget g v
/-- A QUEUE or CAST source with nothing pending. -/
def Evc.calm (e : Evc) (s : Nat) : Evc := { e with srcs := Tbl.upd {} e.srcs s Src.clear }
/-- A queue started: pointers and reservations restart, the next record carries PHASE 1 (R276). -/
def Queue.start (q : Queue) : Queue :=
  { q with
    enable := true, state := .running, sqHead := 0, sqTail := 0, cqHead := 0, cqTail := 0, cqCount := 0, reserved := 0, phase := true, unit := none }
/-- Entries fetched from where the queue stands: a read tag is taken if there are any (R277, R284). -/
def Chip.fetchSq (c : Chip) (g : Nat) : Chip :=
  if (c.queue g).state == .running && (c.queue g).sqHead != (c.queue g).sqTail && (c.pcie.fn (queueFn g)).bme &&
      !(c.pcie.tags.any (fun e => e.2.purpose == .sqEntries g && e.2.state == .outstanding)) then
    { c with pcie := c.pcie.take c.now (queueFn g) (.sqEntries g) .outstanding }
  else c
/-- RESUME set: after an error fetching goes on at Q_SQ_HEAD (R285). The bit clears when entries are read again (R7; log 107). -/
def Chip.queueResume (c : Chip) (g : Nat) : Chip :=
  if (c.queue g).state = .error then (c.updQueue g (fun q => { q with state := .running, resume := true })).fetchSq g
  else c.updQueue g (fun q => { q with resume := true })
/-- A write of Q_CTRL with ENABLE = 1: ignored and logged if a size is out of range; a queue that runs keeps its sizes (R276). -/
def Chip.queueEnable (c : Chip) (g v : Nat) : Chip :=
  if ctrlOk v then
    let d := c.setVector g (ctrlVector (queueFn g) v)
    let d := if (d.queue g).enable then d
      else { d.updQueue g (fun q => { q with sqLog2 := bitf v 16 4, cqLog2 := bitf v 20 4 }.start) with evc := d.evc.calm g }
    if bit v 30 then d.queueResume g else d
  else c.regIncident .queueIgnored (queueReg g 0x10)
/-- Whether a live ticket names a queue. -/
def Chip.queueNamed (c : Chip) (g : Nat) : Bool := c.claims.any (fun t => t.queue == g && c.ownTicket (queueFn g) t && !t.placed.isEmpty)
/-- A queue stopped: its pending waits, its held records and the parts handed over on it go. -/
def Chip.queueStop (c : Chip) (g : Nat) : Chip :=
  let d := c.dropUnit g
  let d := d.updQueue g (fun q => { q with enable := false, state := .disabled, reserved := 0 })
  { d with
    waits := d.waits.filter (fun w => w.q != g)
    pcie := d.pcie.updFn (queueFn g) (fun f => { f with held := f.held.filter (fun e => e.1 != g) }) }
/-- A write of Q_CTRL with ENABLE = 0: ignored and logged if a size is out of range or a live ticket names the queue (R276). -/
def Chip.queueDisable (c : Chip) (g v : Nat) : Chip :=
  if !ctrlOk v || ((c.queue g).enable && c.queueNamed g) then c.regIncident .queueIgnored (queueReg g 0x10)
  else
    let d := if (c.queue g).enable then c.queueStop g else c.updQueue g (fun q => { q with sqLog2 := bitf v 16 4, cqLog2 := bitf v 20 4 })
    let d := d.setVector g (ctrlVector (queueFn g) v)
    if bit v 30 then d.queueResume g else d
/-- Whether a function's registers answer it: it exists, is not fenced, and is in D0 (R288, R291). -/
def Chip.reachableFn (c : Chip) (fn : Nat) : Bool := (c.pcie.fn fn).enabled && !(c.pcie.fn fn).fenced && !(c.pcie.fn fn).d3hot && c.pcie.up
/-- Whether only the blocks of R387 answer: maintenance start, or a power cycle requested. -/
def Chip.onlyBasic (c : Chip) : Bool := c.maint || c.rst.trayReq
/-- A write of a function's Q register, if the function and the queue are there; discarded and logged where the block does not answer (R387). -/
def Chip.qWrite (c : Chip) (fn q off : Nat) (f : Chip → Nat → Chip) : Chip :=
  if c.reachableFn fn && decide (q < queuesOf fn) then
    (if c.onlyBasic then c.tlp.regIncident .regDiscard (queueReg (globalQueue fn q) off) else f c.tlp (globalQueue fn q))
  else c
/-- QUEUE_ENABLE (R276). -/
def execQueueEnable (fn q : Nat) (value : Word) (s : State) : Host.Outcome State Fault Refusal :=
  .next { s with chip := s.chip.qWrite fn q 0x10 (fun c g => c.queueEnable g value.toNat) }
/-- QUEUE_DISABLE (R276). -/
def execQueueDisable (fn q : Nat) (value : Word) (s : State) : Host.Outcome State Fault Refusal :=
  .next { s with chip := s.chip.qWrite fn q 0x10 (fun c g => c.queueDisable g value.toNat) }
/-- RESUME (R285). -/
def execResume (fn q : Nat) (s : State) : Host.Outcome State Fault Refusal := .next { s with chip := s.chip.qWrite fn q 0x10 Chip.queueResume }
/-- A tail written: entries handed over, or BAD_DOORBELL (R277). -/
def Chip.sqTail (c : Chip) (g v : Nat) : Chip :=
  if v < (c.queue g).sqSize then (c.updQueue g (fun q => { q with sqTail := v })).fetchSq g
  else c.updQueue g (fun q => { q with badBell := true })
/-- SQ_TAIL_WRITE (R277). -/
def execSqTailWrite (fn q : Nat) (value : Word) (s : State) : Host.Outcome State Fault Refusal :=
  .next { s with chip := s.chip.qWrite fn q 0x14 (fun c g => c.sqTail g (value.toNat % 4096)) }
/-- Records that a new CQ head consumes. -/
def Queue.consumes (q : Queue) (v : Nat) : Nat := (v + q.cqSize - q.cqHead) % q.cqSize
/-- The QUEUE source after records were consumed (R314, R318): cleared with the idle hint set, or recounted and delivered again. -/
def Chip.queueSeen (c : Chip) (g : Nat) : Chip :=
  let left := (c.queue g).cqCount
  if left = 0 then
    { c with evc := (c.evc.calm g).updVec (queueFn g) (c.queue g).vector (fun x => { x with idle := true }) }
  else
    { c with evc := Evc.deliver { c.evc with srcs := Tbl.upd {} c.evc.srcs g (fun x => { x with count := min 255 (left - 1), sat := x.sat && decide (256 < left) }) }
                      c.pcie c.now g }
/-- A CQ head written: records consumed, or BAD_DOORBELL and a log entry (R281). -/
def Chip.cqHead (c : Chip) (g v : Nat) : Chip :=
  let q := c.queue g
  if v < q.cqSize ∧ q.consumes v ≤ q.cqCount then
    (c.updQueue g (fun q => { q with cqHead := v, cqCount := q.cqCount - q.consumes v })).queueSeen g
  else (c.updQueue g (fun q => { q with badBell := true })).regIncident .cqHeadIgnored (queueReg g 0x1C)
/-- A CQ head written; outputs that waited for room commit (R278). -/
def cqHead (fn q v : Nat) (c : Chip × Mem) : Chip × Mem :=
  let d := c.1.qWrite fn q 0x1C (fun c g => c.cqHead g v)
  progressAll ((d.cast.tickets.filter (fun t => t.queue == globalQueue fn q && t.srcRound)).map (fun t => t.id)) (d, c.2)
/-- CQ_HEAD_WRITE (R281). -/
def execCqHeadWrite (fn q : Nat) (value : Word) (s : State) : Host.Outcome State Fault Refusal :=
  .next { s with chip := (cqHead fn q (value.toNat % 32768) (s.chip, s.mem)).1, mem := (cqHead fn q (value.toNat % 32768) (s.chip, s.mem)).2 }

end Sys2Proof.Machine
end

