-- ==== Sys2Proof/Machine/HostLink.lean ====
section
/-!
DEFINITION. Completions and timeouts of host reads, Bus Master Enable, function resets, virtual functions, link and device power, and
BAR2 (R273, R275, R285 to R291).
-/
namespace Sys2Proof.Machine

/-! ### Completions (R285, R286) -/

/-- A function's request dropped: BUSY clears (Table 13.11). -/
def Chip.dropAsk (c : Chip) (fn : Nat) : Chip := { c with cast := c.cast.updFn fn (fun x => { x with busy := false }) }
/-- What a failed read does (Table 13.11); an entry's data or list and an image's bytes are answered by their own commands. -/
def Chip.readFailed (c : Chip) : ReadFor → Chip
  | .sqEntries g => c.updQueue g (fun q => if q.enable then { q with state := .error } else q)
  | .castDescriptor fn => (c.dropAsk fn).nextAsk
  | .entry _ _ => c
  | .image => c
/-- A read tag freed. -/
def Chip.freeTag (c : Chip) (tag : Nat) : Chip := { c with pcie := { c.pcie with tags := Tbl.del c.pcie.tags tag } }
/-- A completion that matches no read (Table 13.12): advisory, counted; a tag that a reset quarantined is freed. -/
def Chip.unexpected (c : Chip) : Chip := { c with pcie := { c.pcie with unexp := c.pcie.unexp.inc, aerUnexpected := c.pcie.aerUnexpected + 1 } }
/-- Bytes of a completion for SQ entries counted; those of other reads are counted by their own commands. -/
def Pcie.arrived (p : Pcie) : ReadFor → List Byte → Pcie
  | .sqEntries _, b => p.countRead b.length
  | _, _ => p
/-- What a completion with data does to the queue whose entries it brings: fetching has restarted, and RESUME clears (Table 13.19). -/
def Chip.fetched (c : Chip) : ReadFor → Chip
  | .sqEntries g => c.updQueue g (fun q => { q with resume := false })
  | _ => c
/-- A completion matched to its tag (Tables 13.11 and 13.12). -/
def Chip.completion (c : Chip) (tag : Nat) (st : CplStatus) : Chip :=
  match c.pcie.tags.find? (fun e => e.1 == tag) with
  | none => c.unexpected
  | some (_, t) =>
    match t.state, st with
    | .quarantinedFlr, _ => c.unexpected.freeTag tag
    | .quarantinedTimeout, _ => Chip.freeTag { c with pcie := { c.pcie with late := c.pcie.late.inc } } tag
    | .discard, _ => c.freeTag tag
    | .outstanding, .success b => (Chip.freeTag { c with pcie := c.pcie.arrived t.purpose b } tag).fetched t.purpose
    | .outstanding, .failed => (c.freeTag tag).readFailed t.purpose
/-- COMPLETION_TLP (R286). -/
def execCompletionTlp (tag : Nat) (st : CplStatus) (s : State) : Host.Outcome State Fault Refusal := .next { s with chip := s.chip.completion tag st }
/-- A read that no completion answers by its timeout (R285, step 2). -/
def Chip.readTimeout (c : Chip) (tag : Nat) : Chip :=
  match c.pcie.tags.find? (fun e => e.1 == tag) with
  | none => c
  | some (_, t) =>
    if t.state.quarantined then c
    else
      let d := c.advance (t.sent + t.timeout)
      let d := { d with pcie := { d.pcie with
        tags := Tbl.set d.pcie.tags tag { t with state := .quarantinedTimeout }, cplTo := d.pcie.cplTo.inc, aerTimeouts := d.pcie.aerTimeouts + 1 } }
      if t.state = .outstanding then d.readFailed t.purpose else d
/-- COMPLETION_TIMEOUT (R285). -/
def execCompletionTimeout (tag : Nat) (s : State) : Host.Outcome State Fault Refusal := .next { s with chip := s.chip.readTimeout tag }
/-- A quarantined tag freed at twice its timeout (R285, step 3b). -/
def Chip.tagRelease (c : Chip) (tag : Nat) : Chip :=
  match c.pcie.tags.find? (fun e => e.1 == tag) with
  | none => c
  | some (_, t) => if t.state.quarantined then (c.advance (t.sent + 2 * t.timeout)).freeTag tag else c
/-- TAG_RELEASE (R285). -/
def execTagRelease (tag : Nat) (s : State) : Host.Outcome State Fault Refusal := .next { s with chip := s.chip.tagRelease tag }

/-! ### Bus Master Enable (R287) -/

/-- Bus Master Enable cleared: reads outstanding are accepted and discarded; a cast-on descriptor's read ends (log 33). -/
def Chip.busMasterOff (c : Chip) (fn : Nat) : Chip :=
  if (c.pcie.fn fn).bme then
    let mine := fun (t : Tag) => t.fn == fn && t.state == .outstanding
    let reading := c.pcie.tags.any (fun e => mine e.2 && e.2.purpose == .castDescriptor fn)
    let p := c.pcie.updFn fn (fun f => { f with bme := false })
    let d := { c with pcie := { p with tags := p.tags.mapV (fun t => if mine t then { t with state := .discard } else t) } }
    (if reading then d.dropAsk fn else d).nextAsk
  else c
/-- BUS_MASTER_DISABLE (R287). -/
def execBusMasterDisable (fn : Nat) (s : State) : Host.Outcome State Fault Refusal := .next { s with chip := s.chip.busMasterOff fn }
/-- Global queues a function has registers set for. -/
def Chip.fnQueues (c : Chip) (fn : Nat) : List Nat := (c.queues.map (fun e => e.1)).filter (fun g => queueFn g == fn)
/-- A held record written, from its reservation. -/
def Chip.writeHeld (c : Chip) (e : Nat × CqRec) : Chip := (c.updQueue e.1 (fun q => { q with reserved := q.reserved - 1 })).cqPut e.1 e.2
/-- Bus Master Enable set: held records written in order, then pending messages, then the fetches and outputs that waited. -/
def Chip.busMasterOn (c : Chip) (fn : Nat) : Chip :=
  let held := (c.pcie.fn fn).held
  let resp := (c.pcie.fn fn).heldResp
  let d := { c with pcie := c.pcie.updFn fn (fun f => { f with bme := true, held := [], heldResp := [] }) }
  let d := resp.foldl (fun (d : Chip) w => (d.hostWrite w.write.addr w.write.bytes).answered fn w.reason) (held.foldl Chip.writeHeld d)
  let d := if d.unread fn then { d with pcie := d.pcie.take d.now fn (.castDescriptor fn) .outstanding } else d
  let d := { d with evc := d.evc.flush d.pcie d.now (fun f => f == fn) }
  (d.fnQueues fn).foldl Chip.fetchSq d
/-- Bus Master Enable set on a function that exists. -/
def busMasterOn (fn : Nat) (c : Chip × Mem) : Chip × Mem :=
  if (c.1.pcie.fn fn).enabled && !(c.1.pcie.fn fn).bme then
    progressAll ((c.1.cast.tickets.filter (fun t => t.fn == fn)).map (fun t => t.id)) (c.1.busMasterOn fn, c.2)
  else c
/-- BUS_MASTER_ENABLE (R287). -/
def execBusMasterEnable (fn : Nat) (s : State) : Host.Outcome State Fault Refusal :=
  .next { s with chip := (busMasterOn fn (s.chip, s.mem)).1, mem := (busMasterOn fn (s.chip, s.mem)).2 }

/-! ### Function resets (R288, R289) -/

/-- An undecided garment that a function leads dropped: its modules are told, no response is written. -/
def Chip.forgetLead (c : Chip) (l : GarmentLead) : Chip := ((c.dropLead l).releaseMarkers l.ticket.markers).tellAll l.asked 0x0004 0 l.garment []
/-- A ticket of a function ended; a garment that it leads is aborted with it (R363, cause 5). -/
def endFnTicket (c : Chip × Mem) (t : Ticket) : Chip × Mem :=
  match c.1.ticket? t.id with
  | none => c
  | some u => match u.garment with | some g => abortGarment g 5 [] c | none => closeTicket 14 u c
/-- Steps 2 to 4 of R288 for a function: its garments and tickets end, held records go, its reads are abandoned. -/
def endFunction (c : Chip × Mem) (fn : Nat) : Chip × Mem :=
  let d := (c.1.cast.leads.filter (fun l => l.fn == fn)).foldl Chip.forgetLead c.1
  let e := (d.cast.tickets.filter (d.ownTicket fn)).foldl endFnTicket (d, c.2)
  let p := e.1.pcie.updFn fn (fun f => { f with held := [], heldResp := [] })
  ({ e.1 with
     pcie := { p with tags := p.tags.mapV (fun t => if t.fn == fn && !t.state.quarantined then { t with state := .quarantinedFlr } else t) }
     waits := e.1.waits.filter (fun w => queueFn w.q != fn) }, e.2)
/-- Hanks that a function's host tag holds, its orphans among them. -/
def Chip.hostHanks (c : Chip) (fn : Nat) : List Nat :=
  (c.hank.recs.filter (fun e => e.2.charged && e.2.owner == hostTag fn)).map (fun e => e.1)
/-- A vector after its function's reset: MSI-X entry, REQ, hint and timer cleared, MOD_US kept (R314). -/
def Vec.fnReset (x : Vec) : Vec := { modUs := x.modUs }
/-- Sources still pending whose target is a vector of a function deliver again. -/
def Evc.redeliver (e : Evc) (p : Pcie) (now fn : Nat) : Evc :=
  (e.srcs.filter (fun x => x.2.pending)).foldl (fun e x => if (e.route x.1).1 = 1 ∧ (e.route x.1).2.1 = fn then e.deliver p now x.1 else e) e
/-- Event sources and vectors after a function's reset (R314). -/
def Evc.fnReset (e : Evc) (fn : Nat) : Evc :=
  { e with
    disable := e.disable && fn != 0
    srcs := (e.srcs.filter (fun x => !(x.1 < 256 && queueFn x.1 == fn))).map (fun x => if x.1 = castSource fn then (x.1, x.2.clear) else x)
    vecs := e.vecs.map (fun x => if x.1 / 2048 = fn then (x.1, x.2.fnReset) else x) }
/-- Step 5 of R288: hanks freed, queues, CAST and MSI-X registers and configuration space reset. -/
def Chip.resetFn (c : Chip) (fn : Nat) : Chip :=
  let p := c.pcie.updFn fn (fun f => { enabled := f.enabled })
  let d := { c with
    hank := c.hank.releaseAll (c.hostHanks fn)
    queues := c.queues.filter (fun e => queueFn e.1 != fn)
    cast := { c.cast with fns := Tbl.del c.cast.fns fn }
    pcie := if fn = 0 then { p with numVfs := 0, vfEnable := false } else p
    evc := c.evc.fnReset fn }
  Chip.nextAsk { d with evc := d.evc.redeliver d.pcie d.now fn }
/-- A VF that no longer exists. -/
def Chip.removeFn (c : Chip) (fn : Nat) : Chip := { c with pcie := c.pcie.updFn fn (fun f => { f with enabled := f.enabled && fn == 0 }) }
/-- Functions of the VFs. -/
def vfList : List Nat := (List.range 16).map (fun k => k + 1)
/-- A reset of some functions: all end, then all reset; the VFs of `gone` cease to exist, and `f` is what else the reset does. -/
def resetFns (fns gone : List Nat) (f : Chip → Chip) (c : Chip × Mem) : Chip × Mem :=
  let d := fns.foldl endFunction c
  progressEach (f (gone.foldl Chip.removeFn (fns.foldl Chip.resetFn d.1)), d.2)
/-- Functions of a list that exist. -/
def Chip.existing (c : Chip) (fns : List Nat) : List Nat := fns.filter (fun f => (c.pcie.fn f).enabled)
/-- A Function Level Reset; of the PF, it acts on every VF and clears VF Enable. -/
def functionReset (fn : Nat) (c : Chip × Mem) : Chip × Mem :=
  if fn = 0 then resetFns (c.1.existing (0 :: vfList)) vfList id c else resetFns (c.1.existing [fn]) [] id c
/-- FUNCTION_LEVEL_RESET (R288). -/
def execFunctionLevelReset (fn : Nat) (s : State) : Host.Outcome State Fault Refusal :=
  .next { s with chip := (functionReset fn (s.chip, s.mem)).1, mem := (functionReset fn (s.chip, s.mem)).2 }
/-- The link down (Table 13.15). -/
def Pcie.linkDown (p : Pcie) : Pcie := { p with up := false, speed := 0, width := 0, power := .l0 }
/-- A Hot Reset or the loss of the data link: every function is reset. -/
def hotReset (c : Chip × Mem) : Chip × Mem :=
  resetFns (c.1.existing (0 :: vfList)) vfList (fun d => { d with pcie := d.pcie.linkDown }) c
/-- HOT_RESET (R289). -/
def execHotReset (s : State) : Host.Outcome State Fault Refusal :=
  .next { s with chip := (hotReset (s.chip, s.mem)).1, mem := (hotReset (s.chip, s.mem)).2 }
/-- VF Enable cleared: every VF is reset and gone. -/
def vfClear (c : Chip × Mem) : Chip × Mem :=
  resetFns (c.1.existing vfList) vfList (fun d => { d with pcie := { d.pcie with vfEnable := false } }) c
/-- VF_ENABLE_CLEAR (R289). -/
def execVfEnableClear (s : State) : Host.Outcome State Fault Refusal :=
  .next { s with chip := (vfClear (s.chip, s.mem)).1, mem := (vfClear (s.chip, s.mem)).2 }
/-- NumVFs lowered to `n`: the VFs removed are reset and gone. -/
def vfLower (n : Nat) (c : Chip × Mem) : Chip × Mem :=
  let gone := vfList.filter (fun f => decide (n < f))
  resetFns (c.1.existing gone) gone (fun d => { d with pcie := { d.pcie with numVfs := min n d.pcie.numVfs } }) c
/-- NUMVFS_LOWER (R289). -/
def execNumvfsLower (n : Nat) (s : State) : Host.Outcome State Fault Refusal :=
  .next { s with chip := (vfLower n (s.chip, s.mem)).1, mem := (vfLower n (s.chip, s.mem)).2 }
/-- VF Enable set, or NumVFs raised: VFs 0 to n − 1 exist (R273). -/
def Chip.vfSet (c : Chip) (n : Nat) : Chip :=
  let p := (vfList.filter (fun f => decide (f ≤ n))).foldl (fun (p : Pcie) f => p.updFn f (fun x => { x with enabled := true })) c.pcie
  { c with pcie := { p with vfEnable := true, numVfs := max p.numVfs (min n 16) } }
/-- VF_ENABLE_SET (R273). -/
def execVfEnableSet (n : Nat) (s : State) : Host.Outcome State Fault Refusal := .next { s with chip := s.chip.vfSet n }

/-! ### Link and device power (R290, R291, R339) -/

/-- L1 requested on an idle link: no read outstanding, no record held; the L1 substates are not enabled, since their control register
resets to 0 and no command writes it (log 58). -/
def Chip.l1Entry (c : Chip) : Chip :=
  if c.pcie.up && c.pcie.power == .l0 && c.pcie.tags.all (fun e => e.2.state.quarantined) && c.pcie.fns.all (fun e => e.2.held.isEmpty && e.2.heldResp.isEmpty) then
    { c with pcie := { c.pcie with power := .l1, ltrUs := if c.guaranteedLive then 20 else 1000 } }
  else c
/-- L1_ENTRY (R290). -/
def execL1Entry (s : State) : Host.Outcome State Fault Refusal := .next { s with chip := s.chip.l1Entry }
/-- Whether the functions' states ask for Doze (Table 16.3). -/
def Chip.dozeByD3 (c : Chip) : Bool :=
  (c.pcie.fn 0).d3hot && vfList.all (fun f => (c.pcie.fn f).d3hot || !(c.pcie.fn f).enabled) && (c.rung.rung == .run || c.rung.rung == .hush)
/-- A function in D3hot: its tickets and DMA ended; the module dozes once no function is in D0. -/
def d3hot (fn : Nat) (c : Chip × Mem) : Chip × Mem :=
  if (c.1.pcie.fn fn).enabled && !(c.1.pcie.fn fn).d3hot then
    let d := endFunction c fn
    let e := Chip.nextAsk { d.1 with pcie := d.1.pcie.updFn fn (fun f => { f with d3hot := true }) }
    (if e.dozeByD3 then e.enterRung .doze else e, d.2)
  else c
/-- D3HOT_ENTRY (R291). -/
def execD3hotEntry (fn : Nat) (s : State) : Host.Outcome State Fault Refusal :=
  .next { s with chip := (d3hot fn (s.chip, s.mem)).1, mem := (d3hot fn (s.chip, s.mem)).2 }
/-- Back in D0: the function is reset (No_Soft_Reset = 0), the module wakes for the host. -/
def d0Return (fn : Nat) (c : Chip × Mem) : Chip × Mem :=
  if (c.1.pcie.fn fn).d3hot then progressEach ((c.1.resetFn fn).wake 0, c.2) else c
/-- D0_RETURN (R291). -/
def execD0Return (fn : Nat) (s : State) : Host.Outcome State Fault Refusal :=
  .next { s with chip := (d0Return fn (s.chip, s.mem)).1, mem := (d0Return fn (s.chip, s.mem)).2 }
/-- The link trained to L0 (R269); it cannot while PERST# is asserted. -/
def Chip.linkUp (c : Chip) (speed width : Nat) : Chip :=
  if c.pins.perstN then { c with pcie := { c.pcie with up := true, speed := speed % 16, width := width % 32, power := .l0 } } else c
/-- PCIE_LINK_UP (R269). -/
def execPcieLinkUp (speed width : Nat) (s : State) : Host.Outcome State Fault Refusal := .next { s with chip := s.chip.linkUp speed width }

/-! ### BAR2 (R226, R275) -/

/-- The hank that a BAR2 access may touch: the handle names one that the function's host tag holds. -/
def Chip.barHank (c : Chip) (fn handle : Nat) : Option Nat :=
  match c.hank.ofHandle fn handle with
  | none => none
  | some h => if (c.hank.entry h).charged && (c.hank.entry h).owner == hostTag fn then some h else none
/-- A BAR2 access dropped: counted and logged, a read returns zeros. -/
def Chip.barDropped (c : Chip) (fn handle : Nat) (op : Bar2Op) : Chip :=
  Chip.incident { c with pcie := { c.pcie with
      barDrop := c.pcie.barDrop.inc, bar2Data := match op with | .read n => zeros n | .write _ => c.pcie.bar2Data } }
    .bar2Drop srcHank none 0 (hostTag fn) handle
/-- A BAR2 access to a hank that the host tag holds, within the hank. -/
def barAccess (a room : Nat) (op : Bar2Op) (c : Chip × Mem) : Chip × Mem :=
  match op with
  | .write b => (c.1.hbmWrote (a, (b.take room).length), c.2.writes a (b.take room))
  | .read n =>
    let r := (a, min n room)
    let e := c.1.hbmFetch r
    ({ e with pcie := { e.pcie with bar2Data := c.2.reads r.1 r.2 } }, c.2)
/-- BAR2 access. A function that is not there or not in D0 answers Unsupported Request. -/
def bar2 (fn handle offset : Nat) (op : Bar2Op) (c : Chip × Mem) : Chip × Mem :=
  if c.1.reachableFn fn then
    let d := c.1.tlp
    match d.barHank fn handle with
    | some h => barAccess (hankAddr h + offset % 0x4000) (0x4000 - offset % 0x4000) op (d, c.2)
    | none => (d.barDropped fn handle op, c.2)
  else c
/-- BAR2_ACCESS (R275). -/
def execBar2Access (fn handle offset : Nat) (op : Bar2Op) (s : State) : Host.Outcome State Fault Refusal :=
  .next { s with chip := (bar2 fn handle offset op (s.chip, s.mem)).1, mem := (bar2 fn handle offset op (s.chip, s.mem)).2 }

end Sys2Proof.Machine
end

