-- ==== Sys2Proof/Machine/Round.lean ====
section
/-!
DEFINITION. Traffic of the Round addressed to this module (R245, R257 to R261, R267, R325): transfers, Control messages in order,
discovery, and their timeouts.
-/
namespace Sys2Proof.Machine

/-! ### Transfers received (R257) -/

/-- XFER_ACK or MSG_ACK for a frame. -/
def Chip.ackFrame (c : Chip) (f : RFrame) (code v : Nat) : Chip := { c with rnd := c.rnd.sendAck f.src code f.ticket f.garment v }
/-- The transfer a frame belongs to, if one of its frames has arrived. -/
def Rnd.incoming (r : Rnd) (f : RFrame) : Option XferIn := r.xin.find? (fun x => x.src == f.src && x.xfer == f.xfer)
/-- A transfer's record replaced, or added. -/
def Rnd.putIn (r : Rnd) (x : XferIn) : Rnd := { r with xin := r.xin.filter (fun y => !(y.src == x.src && y.xfer == x.xfer)) ++ [x] }
/-- A transfer of which nothing has arrived. -/
def emptyXfer (f : RFrame) (ticket : Nat) : XferIn := { src := f.src, xfer := f.xfer, ticket := ticket, hanks := [], got := 0, resent := f.resent, done := false }
/-- The ticket that a frame names: its garment's part where the number is the lead's, else the module's own (R53, R59). -/
def Chip.frameTicket (c : Chip) (f : RFrame) : Option Ticket :=
  match c.garmentTicket f.garment with
  | some t => if low32 t.id = f.ticket then some t else c.ticket? f.ticket
  | none => c.ticket? f.ticket
/-- Where a frame finds its transfer: a resend drops the partial copy of the first sending. -/
def Chip.openXfer (c : Chip) (f : RFrame) (ticket : Nat) : Chip × XferIn :=
  match c.rnd.incoming f with
  | none => (c, emptyXfer f ticket)
  | some x => if f.resent && !x.resent && !x.done then ({ c with hank := c.hank.releaseAll x.hanks }, emptyXfer f ticket) else (c, x)
/-- Bytes of a transfer that stand in hanks. -/
def Mem.ofXfer (m : Mem) (x : XferIn) : List Byte := hankRead m x.hanks 0 x.got
/-- Whether a transfer to a ticket is an augmentation descriptor: 64 bytes in Best-effort class for a ticket that adapts; the spec names no
mark on the frames (R20, R215; log 132). -/
def isDescriptor (t : Ticket) (cls : RClass) (bytes : Nat) : Bool := cls == .bestEffort && bytes == 64 && (t.kindStage .adapt).isSome
/-- CQ records that a sample which a Round peer sends to a ticket fed over PCI Express reserves (R278; log 132). -/
def Chip.reserveSample (c : Chip) (t : Ticket) : Chip := if t.srcRound then c else c.updQueue t.queue (fun q => { q with reserved := q.reserved + 3 })
/-- A transfer complete for a stream: a sample's descriptor, or an access unit that arrives (R10, R215; which it is: log 132). -/
def xferArrived (t : Ticket) (f : RFrame) (x : XferIn) (c : Chip × Mem) : Chip × Mem :=
  let b := c.2.ofXfer x
  if isDescriptor t f.cls x.got then
    let d := (c.1.freeHanks t x.hanks).reserveSample t
    (d.takeSample c.2 t b (Config.headers t.codec (d.bitsBytes c.2 t b)) (if t.srcRound then 0 else 3), c.2)
  else if t.srcRound && f.cls == t.class then
    (c.1.arriveUnit t [{ hanks := x.hanks, bytes := x.got }] (Config.recordPts x.xfer) false (Config.headers t.codec b), c.2)
  else (c.1.freeHanks t x.hanks, c.2)
/-- The flat ranges of `len` bytes at an offset of a list of hanks. -/
def hankParts (hs : List Nat) (off len : Nat) : List Range :=
  ((List.range hs.length).zip hs).filterMap (fun e =>
    let lo := max off (0x4000 * e.1)
    let hi := min (off + len) (0x4000 * (e.1 + 1))
    if lo < hi then some (hankAddr e.2 + (lo - 0x4000 * e.1), hi - lo) else none)
/-- Whether a ticket takes a DATA frame: its stream's frames and tokens in the class of its grade, where it is fed over the Round, and
augmentation descriptors in Best-effort class where it adapts; a part that its lead has bound off still takes what is on its way (R20, R57,
R215). -/
def Ticket.takesData (t : Ticket) (f : RFrame) : Bool :=
  (!t.closing || t.partDrain) &&
  ((t.srcRound && f.cls == t.class) || (f.cls == .bestEffort && (t.kindStage .adapt).isSome))
/-- A DATA frame for a stream: hanks as far as its bytes reach, its payload at OFFSET, and with LAST the arrival and
XFER_ACK. A frame that no hanks can be granted for is lost. -/
def streamData (t : Ticket) (f : RFrame) (c : Chip × Mem) : Chip × Mem :=
  let o := c.1.openXfer f t.id
  if o.2.done then (if f.last then o.1.ackFrame f 0x0008 f.xfer else o.1, c.2)
  else
    let n := ceilDiv (f.offset + f.payload.length) 0x4000 - o.2.hanks.length
    if 4096 < o.2.hanks.length + n ∨ o.1.grantable t n = false ∨ (f.last = true ∧ t.srcRound = false ∧ (c.1.queue t.queue).room < 3) then (o.1, c.2)
    else
      let new := o.1.hank.next n
      let d := { o.1 with hank := o.1.hank.alloc t.id (ctxTag (t.kindContext .decode)) n }
      let hs := o.2.hanks ++ new
      let m := hankWrite c.2 hs f.offset f.payload
      let got := if f.offset = o.2.got then o.2.got + f.payload.length else o.2.got
      let fin := f.last && got == f.offset + f.payload.length
      let x := { o.2 with hanks := hs, got := got, done := fin }
      let d := d.wrote (hankParts hs f.offset f.payload.length)
      let d := { d with rnd := d.rnd.putIn (if fin then { x with hanks := [] } else x) }
      if fin then progress t.id (xferArrived t f x (d.ackFrame f 0x0008 f.xfer, m)) else (d, m)
/-- The ROUND region that ARG names, by its number among the ROUND regions (log 59). -/
def Chip.roundRegion (c : Chip) (f : RFrame) : Option Region :=
  match c.pat.pattern with
  | none => none
  | some p => (p.regions.filter (fun r => r.kind == .round))[f.arg]?
/-- Whether the pattern lets a module write a ROUND region: discovery shows it in the region's source role (R267). -/
def Chip.mayWrite (c : Chip) (src : Nat) (r : Region) : Bool :=
  match c.rnd.peers.find? (fun e => e.1 == src) with
  | none => false
  | some e => decide (1 ≤ r.role) && bit e.2.roles (r.role - 1)
/-- A DATA frame for a ROUND region: written, or discarded and logged. -/
def regionData (f : RFrame) (c : Chip × Mem) : Chip × Mem :=
  let refused := (c.1.incident .roundWriteRefused srcRound none f.ticket f.src f.arg, c.2)
  match c.1.roundRegion f with
  | none => refused
  | some r =>
    if c.1.mayWrite f.src r && decide (f.offset + f.payload.length ≤ r.size) then
      let o := c.1.openXfer f f.ticket
      if o.2.done then (if f.last then o.1.ackFrame f 0x0008 f.xfer else o.1, c.2)
      else
        let got := if f.offset = o.2.got then o.2.got + f.payload.length else o.2.got
        let fin := f.last && got == f.offset + f.payload.length
        let d := o.1.hbmWrote (r.base + f.offset, f.payload.length)
        let d := { d with rnd := d.rnd.putIn { o.2 with got := got, done := fin } }
        (if fin then d.ackFrame f 0x0008 f.xfer else d, c.2.writes (r.base + f.offset) f.payload)
    else refused
/-- The fill in flight that a Bulk frame answers (R149, R267). -/
def Chip.fillOf (c : Chip) (f : RFrame) : Option Fill := c.pnl.fills.find? (fun x => !x.failed && x.remote == some f.src && c.windowBlock x.block == f.arg)
/-- A frame of a store's answer: an empty one is a failed fill; the bytes of the others reach the cache at the end of the fill. -/
def Chip.fillData (c : Chip) (x : Fill) (f : RFrame) : Chip :=
  let d := if f.last then c.ackFrame f 0x0008 f.xfer else c
  if f.length = 0 then
    Chip.note { d with pnl := d.pnl.failFill x }
      .chartFillFail srcRound none 0 0 (x.block * blockBytes)
  else d
/-- A DATA frame taken in: of a store's answer, of a stream fed over the Round, or for a ROUND region. A fenced chip discards it. -/
def dataIn (f : RFrame) (c : Chip × Mem) : Chip × Mem :=
  if c.1.rst.fenced then c
  else
    match (if f.cls = .bulk then c.1.fillOf f else none), c.1.frameTicket f with
    | some x, _ => (c.1.fillData x f, c.2)
    | none, some t => if t.takesData f then streamData t f c else regionData f c
    | none, none => regionData f c
/-- A credited frame at a port: what the link makes of it, then `f` if it is for this module. -/
def received (p : Port) (f : RFrame) (g : Chip × Mem → Chip × Mem) (c : Chip × Mem) : Chip × Mem :=
  let r := c.1.rnd.receive p f
  let d := { c.1 with rnd := r.1 }
  if r.2 then g (d, c.2) else (d, c.2)
/-- A frame of a TYPE at a port; nothing where the frame has another. -/
def typed (type : Nat) (p : Port) (f : RFrame) (g : Chip × Mem → Chip × Mem) (c : Chip × Mem) : Chip × Mem :=
  if f.type = type then received p f g c else c
/-- DATA (R257). -/
def execData (p : Port) (f : RFrame) (s : State) : Host.Outcome State Fault Refusal :=
  .next { s with chip := (typed 1 p f (dataIn f) (s.chip, s.mem)).1, mem := (typed 1 p f (dataIn f) (s.chip, s.mem)).2 }

/-! ### FETCH (R267) -/

/-- Whether this module holds the store role. -/
def Chip.isStore (c : Chip) : Bool := bit c.rnd.roles 2
/-- Address of the block that a FETCH names: in the first SEGMENT region long enough (log 59). -/
def Chip.storeBlock (c : Chip) (b : Nat) : Option Nat :=
  match c.pat.pattern with
  | none => none
  | some p => (p.regions.find? (fun r => r.kind == .segment && decide ((b + 1) * blockBytes ≤ r.size))).map (fun r => r.base + b * blockBytes)
/-- A FETCH answered with 64 KiB of Bulk that keeps RESV, or with an empty DATA frame. -/
def fetchIn (f : RFrame) (c : Chip × Mem) : Chip × Mem :=
  if c.1.rst.fenced ∨ 4096 ≤ c.1.rnd.openXfers then c
  else
    match (if c.1.isStore then c.1.storeBlock f.arg else none) with
    | some a =>
      let d := c.1.hbmFetch (a, blockBytes)
      ({ d with rnd := d.rnd.startXfer .bulk f.src f.ticket f.garment f.arg f.resvBulk [] 0 (c.2.reads a blockBytes) none }, c.2)
    | none => ({ c.1 with rnd := c.1.rnd.startXfer .bulk f.src f.ticket f.garment f.arg f.resvBulk [] 0 [] none }, c.2)
/-- FETCH (R267). -/
def execFetch (p : Port) (f : RFrame) (s : State) : Host.Outcome State Fault Refusal :=
  .next { s with chip := (typed 3 p f (fetchIn f) (s.chip, s.mem)).1, mem := (typed 3 p f (fetchIn f) (s.chip, s.mem)).2 }

/-! ### Discovery (R259, R260) -/

/-- The rung as DISCOVER and the DVSEC name it (Table 13.4). -/
def Rung.code : Rung → Nat
  | .run => 0 | .hush => 1 | .doze => 2 | .nap => 3 | .dormant => 4
/-- Payload of DISCOVER: ID, serial number, roles, rung, hop count (log 60). -/
def discoverPayload (id serial roles rung hop : Nat) : List Byte :=
  leBytes 2 id ++ leBytes 8 serial ++ leBytes 1 roles ++ leBytes 1 rung ++ leBytes 2 hop
/-- This module's DISCOVER. -/
def Chip.discoverFrame (c : Chip) : RFrame :=
  newFrame c.rnd.id 6 .control c.rnd.id 0 0 0 0 0 false false (discoverPayload c.rnd.id c.pins.serial c.rnd.roles c.rung.rung.code 1)
/-- Modules not heard in the last two runs are unreachable. -/
def Rnd.forgetSilent (r : Rnd) : Rnd :=
  { r with routes := r.routes.map (fun e =>
      match r.peers.find? (fun x => x.1 == e.1) with
      | none => e
      | some x => if x.2.lastRun + 2 < r.runs then (e.1, (e.2.setHops .east noPath).setHops .west noPath) else e) }
/-- A discovery run: DISCOVER on both ports. -/
def Chip.runDiscovery (c : Chip) : Chip :=
  if c.rnd.slipped then c
  else
    let r := { c.rnd with runs := c.rnd.runs + 1 }.forgetSilent
    { c with rnd := (r.enqueue .east none c.discoverFrame).enqueue .west none c.discoverFrame }
/-- Reservations follow the routes, and garments whose path is gone are aborted (R266, R363). -/
def settleRoutes (c : Chip × Mem) : Chip × Mem := abortBroken (c.1.rebook, c.2)
/-- DISCOVERY_RUN (R260). -/
def execDiscoveryRun (s : State) : Host.Outcome State Fault Refusal :=
  .next { s with chip := (settleRoutes (s.chip.runDiscovery, s.mem)).1, mem := (settleRoutes (s.chip.runDiscovery, s.mem)).2 }
/-- This module's own DISCOVER back: the ring size; on a wrapped ring, where it does not come round, the modules with a path. -/
def Rnd.ownDiscover (r : Rnd) (f : RFrame) (hop : Nat) (applied : Bool) : Rnd :=
  { r with
    ringSize := if f.turned then (r.routes.filter (fun e => e.1 != r.id && r.reachable e.1)).length + 1 else hop
    ready := r.ready || (applied && r.portsOk) }
/-- Another module with this module's ID: the one with the higher serial yields (R259). -/
def Chip.sameId (c : Chip) (serial : Nat) : Chip :=
  if serial < c.pins.serial then
    Chip.alarm { c with rnd := { c.rnd.slip with dupId := true } } true .duplicateId 2 srcRound none 0 0 c.rnd.id
  else c
/-- A module heard: its hops by the port, unless the frame was turned, its serial, roles and rung; an older entry of its serial goes. -/
def Rnd.heard (r : Rnd) (p : Port) (k serial roles rung hop : Nat) (turned : Bool) : Rnd :=
  let old := (r.peers.filter (fun e => e.2.serial == serial && e.1 != k)).map (fun e => e.1)
  let x := r.route k
  let y := if x.valid then x else { x with valid := true }
  { r with
    routes := Tbl.set (r.routes.filter (fun e => !old.contains e.1)) k (if turned then y else y.setHops p hop)
    peers := Tbl.set (r.peers.filter (fun e => !old.contains e.1)) k { serial := serial, roles := roles, rung := rung, lastRun := r.runs } }
/-- A DISCOVER of another module sent on with one hop more. -/
def Rnd.passDiscover (r : Rnd) (p : Port) (f : RFrame) (hop : Nat) : Rnd :=
  if f.ttl ≤ 1 then { r with ttlDrop := r.ttlDrop.inc }
  else
    let b := f.payload.take 12 ++ leBytes 2 (hop + 1)
    r.enqueue p.other none { f with ttl := f.ttl - 1, payload := b, length := b.length, pcrc := payloadCrc b }
/-- A DISCOVER taken in (R260). -/
def Chip.discovered (c : Chip) (p : Port) (f : RFrame) : Chip :=
  let k := le f.payload 0 2
  let serial := le f.payload 2 8
  let hop := le f.payload 12 2
  if k = c.rnd.id then
    (if serial = c.pins.serial then { c with rnd := c.rnd.ownDiscover f hop c.pat.applied } else c.sameId serial)
  else
    Chip.rebook { c with rnd := (c.rnd.heard p k serial (le f.payload 10 1) (le f.payload 11 1) hop f.turned).passDiscover p f hop }
/-- DISCOVER (R260). -/
def execDiscover (p : Port) (f : RFrame) (s : State) : Host.Outcome State Fault Refusal :=
  .next { s with
    chip := (typed 6 p f (fun c => (c.1.discovered p f, c.2)) (s.chip, s.mem)).1
    mem := (typed 6 p f (fun c => (c.1.discovered p f, c.2)) (s.chip, s.mem)).2 }

/-! ### What each Control message does (Table 12.6) -/

/-- MARKER_SIGNAL: the amount added to the local copy of a garment's marker, whose last signalling context stays (R245). -/
def markerIn (f : RFrame) (c : Chip × Mem) : Chip × Mem :=
  match c.1.frameTicket f with
  | none => c
  | some t =>
    match t.markers[le f.payload 2 2]? with
    | none => c
    | some m => if t.garment = some f.garment then progress t.id (c.1.signal m (le f.payload 4 2) (c.1.marker m).context t.id, c.2) else c
/-- A log record from its bytes (Table 15.2). -/
def LogRec.ofBytes (b : List Byte) : LogRec :=
  { time := le b 0 8, seq := 0, source := le b 12 2, severity := le b 14 1 % 4, summary := bit (le b 14 1) 2, remote := bit (le b 14 1) 3
    alarm := le b 15 1, code := le b 16 2, context := if bit (le b 18 2) 14 then some (le b 18 2 % 16384) else none
    origin := le b 20 2, argHi := le b 22 2, ticket := le b 24 4, arg := le b 28 4 }
/-- Whether this module is a collector. -/
def Chip.collects (c : Chip) : Bool := c.collectors.contains c.rnd.id
/-- ALARM at a collector: a REMOTE record of the sender under source ROUND (R325). -/
def Chip.alarmIn (c : Chip) (f : RFrame) : Chip :=
  if c.collects then
    Chip.edge { c with log := c.log.addRemote { LogRec.ofBytes (f.payload.drop 2) with source := srcRound, remote := true, origin := f.src } } srcRound
  else c
/-- Per-class counts of ALARM_SUMMARY. -/
def summaryCounts (b : List Byte) : List Nat := (List.range 64).map (fun k => le b (2 * k) 2)
/-- ALARM_SUMMARY at a collector: a SUMMARY record, which takes no budget (R325). -/
def Chip.summaryIn (c : Chip) (f : RFrame) : Chip :=
  if c.collects then
    let n := summaryCounts (f.payload.drop 2)
    let r := c.logRec srcRound Incident.summary.severity Incident.summary.code 0xFF none (n.filter (fun x => x != 0)).length 0 (n.foldl (· + ·) 0)
    Chip.edge (Chip.edge { c with log := c.log.put { r with summary := true, remote := true, origin := f.src } } srcLog) srcRound
  else c
/-- Modules that a RING_CHANGE names. -/
def changeMods (b : List Byte) : List Nat := (List.range ((b.length - 1) / 2)).map (fun i => le b (1 + 2 * i) 2)
/-- Routes after a RING_CHANGE of a kind. -/
def Rnd.changed (r : Rnd) (kind : Nat) (ms : List Nat) : Rnd :=
  if kind = 2 then ms.foldl Rnd.routeSlip r
  else if kind = 3 then r.routeGap (ms.getD 0 0) (ms.getD 1 0)
  else r
/-- RING_CHANGE: routes updated, a discovery run, the ROUND source's edge (R260, R261). -/
def ringIn (f : RFrame) (c : Chip × Mem) : Chip × Mem :=
  let b := f.payload.drop 2
  let d := { c.1 with rnd := c.1.rnd.changed (le b 0 1) (changeMods b) }
  settleRoutes ((d.incident .ringChange srcRound none 0 f.src (le b 0 1)).runDiscovery, c.2)
/-- Code of a Control message. -/
def ctlCode (f : RFrame) : Nat := le f.payload 0 2
/-- A numbered Control message applied. -/
def applyControl (f : RFrame) (c : Chip × Mem) : Chip × Mem :=
  match ctlCode f with
  | 0x0001 => markerIn f c
  | 0x0002 => (c.1.reserveAsk f, c.2)
  | 0x0003 => (c.1.gCommit f, c.2)
  | 0x0004 => gRelease f c
  | 0x0005 => gAnswer f c
  | 0x0006 => gBindOff f c
  | 0x0007 => gAbort f c
  | 0x000A => (c.1.alarmIn f, c.2)
  | 0x000B => (c.1.summaryIn f, c.2)
  | 0x000C => ringIn f c
  | _ => c

/-! ### Order of Control messages (R258) -/

/-- Order state with a peer changed. -/
def Chip.updEseq (c : Chip) (k : Nat) (g : Eseq → Eseq) : Chip := { c with rnd := { c.rnd with eseq := Tbl.upd {} c.rnd.eseq k g } }
/-- Whether an ESEQ is ahead of the one expected, modulo 2^32. -/
def Eseq.ahead (q : Eseq) (n : Nat) : Bool := decide (0 < (n + 4294967296 - q.nextIn) % 4294967296 ∧ (n + 4294967296 - q.nextIn) % 4294967296 < 2147483648)
/-- The next message expected moves on. -/
def Eseq.step (q : Eseq) : Eseq := { q with nextIn := (q.nextIn + 1) % 4294967296, held := q.held.filter (fun g => g.offset != q.nextIn) }
/-- Held messages applied as far as they follow on. -/
def drainHeld (src : Nat) : Nat → Chip × Mem → Chip × Mem
  | 0, c => c
  | n + 1, c =>
    match (c.1.rnd.eseqOf src).held.find? (fun g => g.offset == (c.1.rnd.eseqOf src).nextIn) with
    | none => c
    | some g => drainHeld src n (applyControl g (c.1.updEseq src Eseq.step, c.2))
/-- The gap's clock: none open, one that goes on, or one that opens now. -/
def Eseq.watch (q : Eseq) (now : Nat) (moved : Bool) : Eseq :=
  { q with gapAt := if q.held.isEmpty then none else if moved || q.gapAt.isNone then some now else q.gapAt }
/-- A numbered Control message in its order: acknowledged; applied with those it lets go, held, or discarded as a duplicate. -/
def controlIn (f : RFrame) (c : Chip × Mem) : Chip × Mem :=
  if c.1.rst.fenced then c
  else
    let d := c.1.ackFrame f 0x0009 f.offset
    let q := d.rnd.eseqOf f.src
    if f.offset = q.nextIn then
      let e := drainHeld f.src q.held.length (applyControl f (d.updEseq f.src Eseq.step, c.2))
      (e.1.updEseq f.src (fun q => q.watch e.1.now true), e.2)
    else if q.ahead f.offset && !q.held.any (fun g => g.offset == f.offset) then
      (d.updEseq f.src (fun q => { q with held := q.held ++ [f] }.watch d.now false), c.2)
    else (d, c.2)
/-- A Control frame with a code at a port; nothing where the frame carries another message. -/
def control (code : Nat) (p : Port) (f : RFrame) (g : Chip × Mem → Chip × Mem) (c : Chip × Mem) : Chip × Mem :=
  if ctlCode f = code then typed 2 p f g c else c
/-- RESERVE (R59). -/
def execReserve (p : Port) (f : RFrame) (s : State) : Host.Outcome State Fault Refusal :=
  .next { s with chip := (control 0x0002 p f (controlIn f) (s.chip, s.mem)).1, mem := (control 0x0002 p f (controlIn f) (s.chip, s.mem)).2 }
/-- ANSWER (R59). -/
def execAnswer (p : Port) (f : RFrame) (s : State) : Host.Outcome State Fault Refusal :=
  .next { s with chip := (control 0x0005 p f (controlIn f) (s.chip, s.mem)).1, mem := (control 0x0005 p f (controlIn f) (s.chip, s.mem)).2 }
/-- COMMIT (R59). -/
def execCommit (p : Port) (f : RFrame) (s : State) : Host.Outcome State Fault Refusal :=
  .next { s with chip := (control 0x0003 p f (controlIn f) (s.chip, s.mem)).1, mem := (control 0x0003 p f (controlIn f) (s.chip, s.mem)).2 }
/-- RELEASE (R59). -/
def execRelease (p : Port) (f : RFrame) (s : State) : Host.Outcome State Fault Refusal :=
  .next { s with chip := (control 0x0004 p f (controlIn f) (s.chip, s.mem)).1, mem := (control 0x0004 p f (controlIn f) (s.chip, s.mem)).2 }
/-- GARMENT_BIND_OFF (R59). -/
def execGarmentBindOff (p : Port) (f : RFrame) (s : State) : Host.Outcome State Fault Refusal :=
  .next { s with chip := (control 0x0006 p f (controlIn f) (s.chip, s.mem)).1, mem := (control 0x0006 p f (controlIn f) (s.chip, s.mem)).2 }
/-- MARKER_SIGNAL (R245). -/
def execMarkerSignal (p : Port) (f : RFrame) (s : State) : Host.Outcome State Fault Refusal :=
  .next { s with chip := (control 0x0001 p f (controlIn f) (s.chip, s.mem)).1, mem := (control 0x0001 p f (controlIn f) (s.chip, s.mem)).2 }
/-- GARMENT_ABORT (R363). -/
def execGarmentAbort (p : Port) (f : RFrame) (s : State) : Host.Outcome State Fault Refusal :=
  .next { s with chip := (control 0x0007 p f (controlIn f) (s.chip, s.mem)).1, mem := (control 0x0007 p f (controlIn f) (s.chip, s.mem)).2 }
/-- ALARM (R325). -/
def execAlarm (p : Port) (f : RFrame) (s : State) : Host.Outcome State Fault Refusal :=
  .next { s with chip := (control 0x000A p f (controlIn f) (s.chip, s.mem)).1, mem := (control 0x000A p f (controlIn f) (s.chip, s.mem)).2 }
/-- ALARM_SUMMARY (R325). -/
def execAlarmSummary (p : Port) (f : RFrame) (s : State) : Host.Outcome State Fault Refusal :=
  .next { s with chip := (control 0x000B p f (controlIn f) (s.chip, s.mem)).1, mem := (control 0x000B p f (controlIn f) (s.chip, s.mem)).2 }
/-- RING_CHANGE (R261). -/
def execRingChange (p : Port) (f : RFrame) (s : State) : Host.Outcome State Fault Refusal :=
  .next { s with chip := (control 0x000C p f (controlIn f) (s.chip, s.mem)).1, mem := (control 0x000C p f (controlIn f) (s.chip, s.mem)).2 }

/-! ### Acknowledgements and their timeouts (R257, R258) -/

/-- Hanks that a transfer kept, freed if its ticket still has them. -/
def Chip.freeXfer (c : Chip) (x : XferOut) : Chip :=
  { c with hank := c.hank.releaseAll (x.hanks.filter (fun h => (c.hank.entry h).ticket == x.ticket)) }
/-- A transfer taken off the list, its hanks free; an output that waited for a place may go. -/
def endXfer (x : XferOut) (c : Chip × Mem) : Chip × Mem :=
  let d := c.1.freeXfer x
  progress x.ticket ({ d with rnd := { d.rnd with xout := d.rnd.xout.erase x } }, c.2)
/-- XFER_ACK: the transfer it names ends. -/
def xferAckIn (f : RFrame) (c : Chip × Mem) : Chip × Mem :=
  match c.1.rnd.xout.find? (fun x => x.xfer == le f.payload 2 4 && x.dest == f.src) with
  | none => c
  | some x => endXfer x c
/-- XFER_ACK (R257). -/
def execXferAck (p : Port) (f : RFrame) (s : State) : Host.Outcome State Fault Refusal :=
  .next { s with chip := (control 0x0008 p f (xferAckIn f) (s.chip, s.mem)).1, mem := (control 0x0008 p f (xferAckIn f) (s.chip, s.mem)).2 }
/-- MSG_ACK: the message it names is not sent again. -/
def Chip.msgAckIn (c : Chip) (f : RFrame) : Chip :=
  c.updEseq f.src (fun q => { q with unacked := q.unacked.filter (fun u => u.1 != le f.payload 2 4) })
/-- MSG_ACK (R258). -/
def execMsgAck (p : Port) (f : RFrame) (s : State) : Host.Outcome State Fault Refusal :=
  .next { s with
    chip := (control 0x0009 p f (fun c => (c.1.msgAckIn f, c.2)) (s.chip, s.mem)).1
    mem := (control 0x0009 p f (fun c => (c.1.msgAckIn f, c.2)) (s.chip, s.mem)).2 }
/-- A frame sent again with RESENT, by the other direction if the routing entry has one. -/
def Rnd.relaunch (r : Rnd) (west : Bool) (f : RFrame) : Rnd :=
  let g := { f with resent := true }
  let other := if west then Port.east else Port.west
  if (r.route f.dest).hops other = noPath then r.launch g else r.enqueue other none g
/-- A garment aborted, if the transfer or message was one of a garment. -/
def failFor (g cause : Nat) (c : Chip × Mem) : Chip × Mem := if g = 0 then c else abortGarment g cause [] c
/-- A transfer sent whole again. -/
def Chip.resendXfer (c : Chip) (x : XferOut) : Chip :=
  let r := x.frames.foldl (fun r f => r.relaunch x.west f) c.rnd
  { c with rnd := { r with
    resend := r.resend.inc
    xout := r.xout.map (fun y => if y = x then { x with resent := true, unsent := x.frames.length, leftAt := none, west := !x.west } else y) } }
/-- 100 µs after a transfer's last frame left: sent again, or failed. -/
def xferTimeout (xfer : Nat) (c : Chip × Mem) : Chip × Mem :=
  match c.1.rnd.xout.find? (fun x => x.xfer == xfer && x.leftAt.isSome) with
  | none => c
  | some x =>
    let d := c.1.advance (x.leftAt.getD 0 + usTicks 100)
    if x.resent then failFor x.garment 3 (endXfer x (d, c.2)) else (d.resendXfer x, c.2)
/-- XFER_ACK_TIMEOUT (R257). -/
def execXferAckTimeout (xfer : Nat) (s : State) : Host.Outcome State Fault Refusal :=
  .next { s with chip := (xferTimeout xfer (s.chip, s.mem)).1, mem := (xferTimeout xfer (s.chip, s.mem)).2 }
/-- 100 µs after a Control message was sent: sent again; after the resend, its garment's member is unreachable (R245; log 61). -/
def msgTimeout (dest eseq : Nat) (c : Chip × Mem) : Chip × Mem :=
  match (c.1.rnd.eseqOf dest).unacked.find? (fun u => u.1 == eseq) with
  | none => c
  | some (n, f, at_) =>
    let d := c.1.advance (at_ + usTicks 100)
    if f.resent then
      failFor f.garment 2 (d.updEseq dest (fun q => { q with unacked := q.unacked.filter (fun u => u.1 != n) }), c.2)
    else
      let g := { f with resent := true }
      let r := d.rnd.relaunch (d.rnd.exit dest == some .west) f
      (({ d with rnd := { r with resend := r.resend.inc } } : Chip).updEseq dest
        (fun q => { q with unacked := q.unacked.map (fun u => if u.1 = n then (n, g, d.now) else u) }), c.2)
/-- MSG_ACK_TIMEOUT (R258). -/
def execMsgAckTimeout (dest eseq : Nat) (s : State) : Host.Outcome State Fault Refusal :=
  .next { s with chip := (msgTimeout dest eseq (s.chip, s.mem)).1, mem := (msgTimeout dest eseq (s.chip, s.mem)).2 }
/-- The held message nearest after the gap. -/
def Eseq.nearest (q : Eseq) : Option RFrame :=
  q.held.foldl (fun (a : Option RFrame) g =>
    match a with
    | none => some g
    | some x => if (g.offset + 4294967296 - q.nextIn) % 4294967296 < (x.offset + 4294967296 - q.nextIn) % 4294967296 then some g else a) none
/-- A gap open for 300 µs: the garment of the message behind it is aborted, and the order goes on with that message (log 61). -/
def controlGap (src : Nat) (c : Chip × Mem) : Chip × Mem :=
  match (c.1.rnd.eseqOf src).gapAt, (c.1.rnd.eseqOf src).nearest with
  | some t, some f =>
    let d := failFor f.garment 4 (c.1.advance (t + usTicks 300), c.2)
    let e := drainHeld src (c.1.rnd.eseqOf src).held.length (d.1.updEseq src (fun q => { q with nextIn := f.offset }), d.2)
    (e.1.updEseq src (fun q => q.watch e.1.now true), e.2)
  | _, _ => c
/-- CONTROL_GAP (R258). -/
def execControlGap (src : Nat) (s : State) : Host.Outcome State Fault Refusal :=
  .next { s with chip := (controlGap src (s.chip, s.mem)).1, mem := (controlGap src (s.chip, s.mem)).2 }

end Sys2Proof.Machine
end

