-- ==== Sys2Proof/Machine/Start.lean ====
section
/-!
DEFINITION. Supplies, resets from the pins, Nap and Dormant, and writing a slot (R303 to R309, R339 to R341, R358, R372 to R378).
-/
namespace Sys2Proof.Machine

/-! ### The keep, Nap and Dormant (R340, R341) -/

/-- The keep as the chip stands: VCORE, column maps, run-time flags, video cores, digest and slot; `cycled` where the next start must be a
full one (R306, R378). -/
def Chip.keepNow (c : Chip) : Keep :=
  { c.keepTests with
    vcore2 := c.gauge.vcore2, runtime := (List.range 64).filter (fun n => (c.needle n).runtime), digest := c.pat.digest, slotB := c.pat.slotB
    cycled := c.keep.cycled || c.rst.trayReq || c.pat.mode != .applied }
/-- The chip with its main rails off: what the keep and the always-on domain hold, on a rung. -/
def Chip.powerOff (c : Chip) (k : Keep) (x : Rung) : Chip :=
  let d := Chip.fresh { c with keep := k }
  { d with rung := { d.rung with rung := x, since := d.now } }
/-- Dormant: from Nap with the keep that Nap wrote, from any other rung at once (R340). -/
def dormant (c : Chip × Mem) : Chip × Mem :=
  let k := if c.1.rung.rung = .nap ∨ c.1.rung.rung = .dormant then c.1.keep else c.1.keepNow
  let d := c.1.powerOff k .dormant
  ({ d with pins := { d.pins with pg := false, perstN := false } }, [])
/-- The slot in force read again and checked against the kept digest (R341, step 4): it is applied, or a power cycle is requested. -/
def keptApply (e : StartEnv) (c : Chip) : Chip × Mem :=
  let s := if c.keep.slotB then c.pat.flashB else c.pat.flashA
  let other := if c.keep.slotB then c.pat.flashA else c.pat.flashB
  match s.image with
  | none => powerCycle 9 0xFF (c, [])
  | some i =>
    if s.committed && i.digest == c.keep.digest then
      applied c.keep.slotB (other.committed && decide (s.seq < other.seq)) i s.seq e
        { c with pat := { c.pat with
            resA := if c.keep.slotB then 0xF else 0, resB := if c.keep.slotB then 0 else 0xF, seqA := c.pat.flashA.seq, seqB := c.pat.flashB.seq } }
    else powerCycle 9 0xFF (c, [])
/-- A start from Nap or Dormant (R341), with its exit recorded and an edge on source 326. -/
def keptStart (e : StartEnv) (c : Chip) : Chip × Mem :=
  let was := c.rung.rung.code
  let d := keptApply e (c.bringUp e false)
  (Chip.edge { d.1 with
     rung := { d.1.rung with
       wokeFrom := was - 2, exitFrom := was, exitCause := 4, exitNs := min 0xFFFFF (Config.duration d.1.freeCtr), exits := d.1.rung.exits.inc }
     freeCtr := d.1.freeCtr + 1 } 326, d.2)
/-- Whether a start is one of R341. -/
def Chip.startsKept (c : Chip) : Bool := (c.rung.rung == .nap || c.rung.rung == .dormant) && !c.keep.cycled
/-- A start under Table 14.9 or R341. -/
def start (e : StartEnv) (c : Chip) : Chip × Mem := if c.startsKept then keptStart e c else fullStart e c

/-! ### PERST# (R303, R358) -/

/-- PERST_N high. -/
def Chip.perstHigh (c : Chip) : Chip := { c with pins := { c.pins with perstN := true } }
/-- The link and configuration space after a release that ends a warm chip reset. -/
def Chip.relink (c : Chip) (e : StartEnv) : Chip := { c with pcie := { c.pcie with up := true, speed := e.speed % 16, width := e.width % 32, power := .l0 } }
/-- PERST# released: before PG it counts as still asserted (R374); it starts the module, or ends a warm chip reset. -/
def perstRelease (e : StartEnv) (c : Chip × Mem) : Chip × Mem :=
  if c.1.pins.perstN || !c.1.pins.aux || !c.1.pins.pg then c
  else if !c.1.pins.modRstN then (c.1.perstHigh, c.2)
  else if c.1.rst.trayReq then (c.1.perstHigh.relink e, c.2)
  else if c.1.rst.warmPending then warmUp (c.1.perstHigh.relink e, c.2)
  else start e c.1.perstHigh
/-- PERST_RELEASE (R303). -/
def execPerstRelease (e : StartEnv) (s : State) : Host.Outcome State Fault Refusal :=
  .next { s with chip := (perstRelease e (s.chip, s.mem)).1, mem := (perstRelease e (s.chip, s.mem)).2 }
/-- Every function reset and the link down, as PERST# and MOD_RST_N leave them. -/
def unlink (c : Chip × Mem) : Chip × Mem :=
  let d := hotReset c
  ({ d.1 with pcie := { d.1.pcie with pmeAck := false } }, d.2)
/-- A module held in reset whose next start is a full one. -/
def Chip.heldStart (c : Chip) : Chip :=
  { c with
    pat := { c.pat with mode := .starting, applied := false, wrBusy := false, wrStep := 0, wrImage := none }
    rst := { c.rst with warmPending := false }
    cast := { c.cast with closed := true }
    log := { c.log with persDefer := false }
    gauge := { c.gauge with running := false }
    rung := { c.rung with rung := .run } }
/-- PERST# asserted: Nap after PME_TO_Ack, else a chip reset; in maintenance start the release makes a full start (R306, R339, R358). -/
def perstAssert (c : Chip × Mem) : Chip × Mem :=
  if !c.1.pins.perstN then c
  else
    let d := ({ c.1 with pins := { c.1.pins with perstN := false } }, c.2)
    if c.1.maint then ((unlink d).1.heldStart, (unlink d).2)
    else if c.1.pat.mode = .starting ∨ c.1.rst.trayReq then unlink d
    else if c.1.pcie.pmeAck then
      let e := d.1.powerOff c.1.keepNow .nap
      (e, [])
    else if 2 ≤ c.1.recentWarm.length then unlink (powerCycle 10 0xFF d)
    else
      let e := unlink (warmDown 13 0xFF d)
      ({ e.1 with rst := { e.1.rst with warmPending := true } }, e.2)
/-- PERST_ASSERT (R358). -/
def execPerstAssert (s : State) : Host.Outcome State Fault Refusal :=
  .next { s with chip := (perstAssert (s.chip, s.mem)).1, mem := (perstAssert (s.chip, s.mem)).2 }

/-! ### PME_Turn_Off (R306, R340) -/

/-- Every garment this module has a part in aborted (cause 1; log 62), then every ticket ended as a bind-off without DRAIN. -/
def endTickets (c : Chip × Mem) : Chip × Mem :=
  let d := c.1.cast.leads.foldl (fun d l => d.refuseGarment l 0x0002 0 d.rnd.id) c.1
  let e := d.garments.foldl (fun x g => abortGarment g 1 [] x) (d, c.2)
  e.1.cast.tickets.foldl (fun x t => match x.1.ticket? t.id with | none => x | some u => closeTicket 14 u x) e
/-- PME_Turn_Off: answered with PME_TO_Ack; out of maintenance start the tickets end, admission closes, the log and the keep are written
and a slip is planned. -/
def pmeTurnOff (c : Chip × Mem) : Chip × Mem :=
  let ack := fun (x : Chip) => { x with pcie := { x.pcie with pmeAck := true } }
  if !c.1.pcie.up then c
  else if c.1.maint || c.1.rst.trayReq || c.1.pat.mode == .starting then (ack c.1, c.2)
  else
    let d := endTickets ({ c.1 with cast := { c.1.cast with closed := true } }, c.2)
    (ack { d.1 with log := d.1.log.persist, keep := d.1.keepNow, rnd := d.1.rnd.announceSlip d.1.now }, d.2)
/-- PME_TURN_OFF (R340). -/
def execPmeTurnOff (s : State) : Host.Outcome State Fault Refusal :=
  .next { s with chip := (pmeTurnOff (s.chip, s.mem)).1, mem := (pmeTurnOff (s.chip, s.mem)).2 }

/-! ### MOD_RST_N (R376) -/

/-- MOD_RST_N low while the module is powered: steps 1 to 4 of Table 17.4, the slip closed, link down, every function reset; TRAY_REQ_N
stays as it is. -/
def modRstAssert (c : Chip × Mem) : Chip × Mem :=
  if !c.1.pins.modRstN then c
  else
    let d := ({ c.1 with pins := { c.1.pins with modRstN := false } }, c.2)
    if !c.1.pins.pg then d
    else
      let e := if c.1.pat.mode = .starting ∨ c.1.rst.trayReq then d else warmDown (Config.recoveryCause 18 % 16) 0xFF d
      let f := unlink e
      ({ f.1.heldStart with
         rnd := f.1.rnd.slip
         rst := { f.1.heldStart.rst with fenced := f.1.rst.trayReq } }, f.2)
/-- MOD_RST_ASSERT (R376). -/
def execModRstAssert (s : State) : Host.Outcome State Fault Refusal :=
  .next { s with chip := (modRstAssert (s.chip, s.mem)).1, mem := (modRstAssert (s.chip, s.mem)).2 }
/-- MOD_RST_N released: a full start, unless PERST# is still asserted, the module is not powered, or it waits for the tray. -/
def modRstRelease (e : StartEnv) (c : Chip × Mem) : Chip × Mem :=
  if c.1.pins.modRstN then c
  else
    let d := { c.1 with pins := { c.1.pins with modRstN := true } }
    if d.pins.perstN && d.pins.pg && !d.rst.trayReq then fullStart e d else (d, c.2)
/-- MOD_RST_RELEASE (R376). -/
def execModRstRelease (e : StartEnv) (s : State) : Host.Outcome State Fault Refusal :=
  .next { s with chip := (modRstRelease e (s.chip, s.mem)).1, mem := (modRstRelease e (s.chip, s.mem)).2 }

/-! ### Supplies (R374, R375) -/

/-- Whether PWR_EN has been low for 100 ms. -/
def Chip.lowLong (c : Chip) : Bool := match c.pins.pwrLowAt with | none => false | some t => decide (t + 2500000 ≤ c.now)
/-- PWR_EN rises: the rails come up and PG is raised, unless an undervoltage still locks the module off. -/
def Chip.powerRise (c : Chip) : Chip :=
  if c.pins.pwrEn || !c.pins.aux then c
  else
    let locked := c.pins.lockout && !c.lowLong
    { c with pins := { c.pins with pwrEn := true, lockout := locked, pwrLowAt := none, pg := c.pins.p48v && !locked, perstN := false } }
/-- POWER_ENABLE_RISE (R374). -/
def execPowerEnableRise (s : State) : Host.Outcome State Fault Refusal := .next { s with chip := s.chip.powerRise }
/-- PWR_EN falls: Dormant, and TRAY_REQ_N is released. -/
def powerFall (c : Chip × Mem) : Chip × Mem :=
  if c.1.pins.pwrEn && c.1.pins.aux then
    let d := if c.1.pins.pg then dormant c else c
    ({ d.1 with pins := { d.1.pins with pwrEn := false, pwrLowAt := some d.1.now } }, d.2)
  else c
/-- POWER_ENABLE_FALL (R375). -/
def execPowerEnableFall (s : State) : Host.Outcome State Fault Refusal :=
  .next { s with chip := (powerFall (s.chip, s.mem)).1, mem := (powerFall (s.chip, s.mem)).2 }
/-- P48V below 38 V: while PWR_EN is high the same as its fall, and the module is locked off. -/
def undervoltage (c : Chip × Mem) : Chip × Mem :=
  let d := if c.1.pins.pwrEn && c.1.pins.pg then dormant c else c
  ({ d.1 with pins := { d.1.pins with p48v := false, lockout := d.1.pins.lockout || c.1.pins.pwrEn } }, d.2)
/-- INPUT_UNDERVOLTAGE (R375). -/
def execInputUndervoltage (s : State) : Host.Outcome State Fault Refusal :=
  .next { s with chip := (undervoltage (s.chip, s.mem)).1, mem := (undervoltage (s.chip, s.mem)).2 }
/-- INPUT_VOLTAGE_RESTORED (R375): the supply is back; PWR_EN must still have been low and rise again. -/
def execInputVoltageRestored (s : State) : Host.Outcome State Fault Refusal :=
  .next { s with chip := { s.chip with pins := { s.chip.pins with p48v := true } } }
/-- AUX_UP (R374): the keep, the time base and the SMBus endpoint are powered. -/
def execAuxUp (s : State) : Host.Outcome State Fault Refusal :=
  .next { s with chip := { s.chip with pins := { s.chip.pins with aux := true } } }
/-- A chip without its auxiliary supply: the flash, the persistent log and the identity region remain, and the levels that others drive. -/
def Chip.auxOff (c : Chip) : Chip :=
  { log := { pers := c.log.pers, headPers := c.log.headPers }
    evc := { msgs := c.evc.msgs, holder := c.evc.holder }
    pcie := { doe := c.pcie.doe, smbSpdm := c.pcie.smbSpdm }
    rnd := { east := { sent := c.rnd.east.sent }, west := { sent := c.rnd.west.sent } }
    pat := { flashA := c.pat.flashA, flashB := c.pat.flashB, recovery := c.pat.recovery, romRev := c.pat.romRev, cal := c.pat.cal }
    pins := { aux := false, p48v := c.pins.p48v, pwrEn := c.pins.pwrEn, pg := false, modRstN := c.pins.modRstN, perstN := false,
              boardRev := c.pins.boardRev, serial := c.pins.serial, subsystem := c.pins.subsystem }
    smbus := c.smbus, hostTx := c.hostTx, freeCtr := c.freeCtr }
/-- AUX_LOSS (R375): everything off, the keep and the time base with it. -/
def execAuxLoss (s : State) : Host.Outcome State Fault Refusal := .next { s with chip := s.chip.auxOff, mem := [] }
/-- STRAPS_UNSTABLE: flagged and logged; without an ID from the pattern the slip stays closed (R373). -/
def Chip.strapsBad (c : Chip) : Chip :=
  Chip.incident { c with
    pins := { c.pins with strapsUnstable := true }
    rnd := if c.rnd.fromPattern then c.rnd else { c.rnd.slip with settledId := false } } .strapsUnstable srcRound none 0 0 0
/-- STRAPS_UNSTABLE (R373). -/
def execStrapsUnstable (s : State) : Host.Outcome State Fault Refusal := .next { s with chip := s.chip.strapsBad }

/-! ### Writing a slot (R307 to R309) -/

/-- Highest valid SEQ of the two slots. -/
def Pat.topSeq (p : Pat) : Nat := max p.flashA.seq p.flashB.seq
/-- Whether slot B is the target: it does not hold the highest valid SEQ, and some slot does. -/
def Pat.targetB (p : Pat) : Bool := decide (p.flashB.seq ≤ p.flashA.seq) && p.flashA.committed
/-- Slot B or A replaced. -/
def Pat.setSlot (p : Pat) (b : Bool) (s : Slot) : Pat := if b then { p with flashB := s } else { p with flashA := s }
/-- The slot that a committed write leaves. -/
def writtenSlot (i : Image) (seq len : Nat) : Slot :=
  { image := some i, commit := some { magic := 0x54494D43, seq := seq, imageLen := len, digest := i.digest, crcOk := true } }
/-- Result of a write before the flash is touched (steps 1 to 3 of Table 14.11), 0 if it goes on. -/
def Chip.writeResult (c : Chip) (fn : Nat) (img : Option Image) : Nat :=
  if 4294967295 ≤ c.pat.topSeq then 9
  else
    match img with
    | none => 7
    | some i =>
      if !(c.pcie.fn fn).bme then 7
      else ((writtenSlot i (c.pat.topSeq + 1) c.pat.wrLen.toNat).full c.pat.romRev).1
/-- GO: ignored and logged while a write runs or out of maintenance start (R309); refused, or the target erased. -/
def Chip.slotWrite (c : Chip) (fn : Nat) (img : Option Image) : Chip :=
  if fn ≠ 0 ∨ c.reachableFn 0 = false then c
  else if c.pat.wrBusy || !c.maint then c.tlp.regIncident .patIgnored 0x402C
  else
    let d := { c.tlp with pcie := match img with | some i => c.tlp.pcie.countRead i.imageLen | none => c.tlp.pcie }
    let r := d.writeResult fn img
    let b := d.pat.targetB
    if r ≠ 0 then Chip.edge { d with pat := { d.pat with wrResult := r, wrTargetB := b, wrFn := fn } } srcPatWrite
    else
      { d with
        pat := { d.pat.setSlot b { image := none, commit := none } with wrBusy := true, wrTargetB := b, wrStep := 4, wrPercent := 0, wrImage := img, wrFn := fn }
        log := { d.log with persDefer := true } }
/-- SLOT_WRITE (R307). -/
def execSlotWrite (fn : Nat) (img : Option Image) (s : State) : Host.Outcome State Fault Refusal := .next { s with chip := s.chip.slotWrite fn img }
/-- A write ends: committed if the read-back matches the staged digest; PAT_WRITE takes an edge and the log may program again. -/
def Chip.slotWriteEnd (c : Chip) (readBack : Nat) : Chip :=
  match c.pat.wrBusy, c.pat.wrImage with
  | true, some i =>
    let ok := readBack == i.digest
    let p := if ok then c.pat.setSlot c.pat.wrTargetB (writtenSlot i (c.pat.topSeq + 1) c.pat.wrLen.toNat) else c.pat
    Chip.edge { c with
      pat := { p with wrBusy := false, wrStep := 0, wrPercent := 0, wrImage := none, wrResult := if ok then 0 else 8 }
      log := { c.log with persDefer := false } } srcPatWrite
  | _, _ => c
/-- SLOT_WRITE_END (R307). -/
def execSlotWriteEnd (readBack : Nat) (s : State) : Host.Outcome State Fault Refusal := .next { s with chip := s.chip.slotWriteEnd readBack }

end Sys2Proof.Machine
end

