-- ==== Sys2Proof/Machine/Regs.lean ====
section
/-!
DEFINITION. The registers of BAR0 (Table 19.1): what each reads, by the summary and field tables of its block, and what a write does
(R4 to R7, R274, R383 to R389). A block's registers are a list of (offset, value), with offsets from the start of the block's range.
-/
namespace Sys2Proof.Machine

/-! ### Reading -/

/-- Value of the register at an offset. -/
def regIn (off : Nat) (l : List (Nat × Nat)) : Option Nat := (l.find? (fun e => e.1 == off)).map (fun e => e.2)
/-- A register array: `n` registers from `base` at a stride. -/
def regArray (off base stride n : Nat) (f : Nat → Nat) : Option Nat :=
  if base ≤ off ∧ off < base + stride * n ∧ (off - base) % stride = 0 then some (f ((off - base) / stride)) else none
/-- A live counter and its snapshot at consecutive offsets (R8). -/
def ctrRegs (off : Nat) (c : Ctr) : List (Nat × Nat) := [(off, c.live), (off + 4, c.snap)]
/-- The first that answers. -/
def firstReg : List (Option Nat) → Option Nat
  | [] => none
  | some x :: _ => some x
  | none :: l => firstReg l

/-- ID (Tables 18.11, 18.12). -/
def Chip.idRegs (c : Chip) : List (Nat × Nat) :=
  [(0x00, 0x1FA79640), (0x04, 0x10 + 256 * (c.pins.boardRev % 256)), (0x08, low32 c.pins.serial), (0x0C, low32 (c.pins.serial / 4294967296)),
   (0x10, flag c.rst.trayReq 31 + flag c.pins.alert 30 + flag c.pins.wake 29 + flag c.rnd.slipped 28 + flag c.pins.strapsUnstable 27 +
     (0x40 + c.pins.slotId % 32) * 131072 + c.pins.slotId % 1024)]

/-- MODE code of PAT_STATUS (Table 14.13). -/
def PatMode.code : PatMode → Nat
  | .starting => 0 | .applied => 1 | .maintRecovery => 2 | .maintRom => 3
/-- PAT_STATUS (Table 14.13). -/
def Chip.patStatus (c : Chip) : Nat :=
  c.pat.mode.code * 2 ^ 30 + flag c.pat.applied 29 + flag c.pat.slotB 28 + flag c.pat.fallback 27 + c.pat.maintCause * 2 ^ 24
/-- PAT (Tables 14.12 to 14.16). -/
def Chip.patReg (c : Chip) (off : Nat) : Option Nat :=
  firstReg
    [regIn off
      [(0x00, c.patStatus), (0x04, c.pat.version), (0x08, c.pat.seq),
       (0x0C, c.pat.resA * 2 ^ 28 + c.pat.checkA * 2 ^ 20), (0x10, c.pat.resB * 2 ^ 28 + c.pat.checkB * 2 ^ 20),
       (0x14, c.pat.seqA), (0x18, c.pat.seqB), (0x1C, c.pat.startMs),
       (0x20, low32 c.pat.wrAddr), (0x24, low32 (c.pat.wrAddr / 4294967296)), (0x28, c.pat.wrLen.toNat), (0x2C, 0),
       (0x30, flag c.pat.wrBusy 31 + flag c.pat.wrTargetB 30 + c.pat.wrStep * 2 ^ 26 + c.pat.wrPercent * 2 ^ 19 + c.pat.wrResult)],
     regArray off 0x40 4 12 (fun k => low32 (c.pat.digest / 2 ^ (32 * k)))]

/-- POWER code of PCIE_LINK (Table 13.15). -/
def LinkPower.code : LinkPower → Nat
  | .l0 => 0 | .l1 => 1 | .l11 => 2 | .l12 => 3
/-- A capability in configuration space: offset, ID, version, next (Table 13.2). -/
def capChain : List (Nat × Nat × Nat × Nat) :=
  [(0x100, 0x0001, 2, 0x148), (0x148, 0x0003, 1, 0x158), (0x158, 0x0010, 1, 0x198), (0x198, 0x000E, 1, 0x1A0), (0x1A0, 0x0018, 1, 0x1A8),
   (0x1A8, 0x001E, 1, 0x1B8), (0x1B8, 0x002E, 1, 0x1D0), (0x1D0, 0x0023, 1, 0x1F0), (0x1F0, 0x0019, 1, 0x220), (0x220, 0x0025, 1, 0x230),
   (0x230, 0x0026, 1, 0x260), (0x260, 0x0027, 1, 0x2B0), (0x2B0, 0x002A, 1, 0x000)]
/-- The Aflyn DVSEC (R272, Table 13.4): DVSEC headers 1 and 2 with the module ID in force, status, pattern version, rung. -/
def Chip.dvsec (c : Chip) : List (Nat × Nat) :=
  [(0x1D4, 0x02001FA7), (0x1D8, 0x0001 + c.rnd.id % 1024 * 65536),
   (0x1DC, flag c.pat.applied 0 + flag c.pnl.warm 1 + flag c.rnd.ready 2 + flag c.pat.slotB 3), (0x1E0, c.pat.version), (0x1E4, c.rung.rung.code % 4)]
/-- The PCI Express capability of every function (Table 13.3): Endpoint, device and link capabilities, completion timeout in force, link speed and
width. -/
def Chip.expressCap (c : Chip) (fn : Nat) : List (Nat × Nat) :=
  [(0x70, 0x20010), (0x74, 0x10008022), (0x7C, 0x20905), (0x80, (c.pcie.speed + c.pcie.width * 16) * 65536), (0x94, 0x30803), (0x98, (c.pcie.fn fn).cplTimeout % 16)]
/-- The SR-IOV capability (Table 13.3) with VF Enable and NumVFs. -/
def Chip.sriov (c : Chip) : List (Nat × Nat) :=
  [(0x160, flag c.pcie.vfEnable 0), (0x164, 0x00100010), (0x168, c.pcie.numVfs), (0x16C, 0x00010001), (0x170, 0x96410000), (0x174, 1), (0x17C, 0x4), (0x184, 0xC)]
/-- A double word of the PF's configuration space: header, capabilities, DVSEC (R270 to R272); 0 where the spec gives no value, and a BAR shows
its type alone, since no row gives its address (log 58). -/
def Chip.pfConfig (c : Chip) (off : Nat) : Nat :=
  (regIn off
    ([(0x00, 0x96401FA7), (0x04, 0x00100400 + flag (c.pcie.fn 0).bme 2), (0x08, 0x12000010), (0x10, 0x4), (0x18, 0xC),
      (0x2C, c.pins.subsystem % 65536 * 65536 + 0x1FA7), (0x34, 0x40), (0x40, 0xC8035001), (0x44, if (c.pcie.fn 0).d3hot then 3 else 0),
      (0x50, 0x07FF7011), (0x54, 0x30000), (0x58, 0x38000), (0x14C, low32 c.pins.serial), (0x150, low32 (c.pins.serial / 4294967296)),
      (0x1AC, 0x390A1F), (0x1BC, 1)] ++ c.expressCap 0 ++ c.sriov ++
     capChain.map (fun e => (e.1, e.2.1 + e.2.2.1 * 65536 + e.2.2.2 * 1048576)) ++ c.dvsec)).getD 0
/-- A double word of a VF's configuration space (R273): MSI-X with 64 vectors, PCI Express, AER and ARI; 0 where the spec gives no value. -/
def Chip.vfConfig (c : Chip) (fn off : Nat) : Nat :=
  (regIn off
    ([(0x00, 0x1FA7), (0x04, 0x00100000 + flag (c.pcie.fn fn).bme 2), (0x08, 0x12000010), (0x2C, c.pins.subsystem % 65536 * 65536 + 0x1FA7), (0x34, 0x50),
      (0x50, 0x003F7011), (0x54, 0xC000), (0x58, 0xD000), (0x100, 0x14820001), (0x148, 0x0001000E)] ++ c.expressCap fn)).getD 0
/-- PCIE_FN_STATUS_f (Table 13.17). -/
def Chip.fnStatus (c : Chip) (f : Nat) : Nat :=
  let x := c.pcie.fn f
  flag x.enabled 31 + flag x.bme 30 + flag x.flrBusy 29 + flag (!(x.held.isEmpty && x.heldResp.isEmpty)) 28 + (if x.d3hot then 3 * 2 ^ 26 else 0) + c.pcie.tagsOf f
/-- PCIE (Tables 13.14 to 13.17). -/
def Chip.pcieReg (c : Chip) (off : Nat) : Option Nat :=
  let p := c.pcie
  firstReg
    [regIn off
      ([(0x00, p.speed * 2 ^ 24 + p.width * 2 ^ 16 + p.power.code * 64 + flag p.up 0),
        (0x04, p.quarantined * 2 ^ 16 + (p.tags.length - p.quarantined)), (0x38, p.snapRow)] ++
       ctrRegs 0x08 p.late ++ ctrRegs 0x10 p.unexp ++ ctrRegs 0x18 p.cplTo ++ ctrRegs 0x20 p.barDrop ++ ctrRegs 0x28 p.rdKib ++ ctrRegs 0x30 p.wrKib),
     regArray off 0x100 4 17 c.fnStatus]

/-- GAUGE_STATUS (Table 2.4). -/
def Chip.gaugeStatus (c : Chip) : Nat :=
  min 65535 c.gauge.implausible * 65536 + flag c.tens.isOver 6 + flag c.gauge.holdCrystal 5 + flag c.gauge.holdVoltage 4 +
  flag (decide (1800 ≤ c.gauge.vcore2)) 3 + flag c.gauge.crystalFail 2 + flag c.gauge.fastHold.isSome 1 + flag c.gar 0
/-- GAUGE_LOOP_k (Table 2.8). -/
def Gauge.loopReg (g : Gauge) (k : Nat) : Nat := flag (g.loop k).retired 31 + loopRegion k * 65536 + (g.loop k).reading
/-- GAUGE (Tables 2.3 to 2.8). -/
def Chip.gaugeReg (c : Chip) (off : Nat) : Option Nat :=
  let g := c.gauge
  firstReg
    [regIn off
      ([(0x00, c.gaugeStatus), (0x04, g.vmin * 65536 + g.floor), (0x08, g.vcore2 / 2), (0x0C, g.minLoop * 65536 + g.minPace),
        (0x10, g.minLoopSnap * 65536 + g.minPaceSnap), (0x14, g.meanSnap), (0x18, g.snapRow), (0x30, low32 g.time), (0x34, g.timeHi), (0x40, g.rowLen)] ++
       ctrRegs 0x1C g.fast ++ ctrRegs 0x24 g.below),
     regArray off 0x400 4 256 g.loopReg]

/-- THERMAL code of TENS_STATUS (Table 16.6). -/
def Thermal.code : Thermal → Nat
  | .normal => 0 | .warm => 1 | .hot => 2 | .critical => 3
/-- TENS_STATUS (Table 16.6). -/
def Tens.status (t : Tens) : Nat :=
  flag t.isOver 31 + flag t.shedding 30 + flag t.calFrozen 29 + flag t.vinRange 28 + t.thermal.code * 2 ^ 26 + t.degrade
/-- TENS_TSENSE_k (Table 16.9). -/
def Tens.sensorReg (t : Tens) (k : Nat) : Nat := flag (t.sensor k).retired 31 + unsigned 12 (t.sensor k).temp
/-- TENS (Tables 16.5 to 16.9). -/
def Chip.tensReg (c : Chip) (off : Nat) : Option Nat :=
  let t := c.tens
  firstReg
    [regIn off
      ([(0x00, t.status), (0x04, t.base * 65536 + t.cap), (0x08, t.capEff), (0x0C, t.gFloor * 65536 + t.rateG * 256 + t.rateB),
        (0x10, t.gain.toNat), (0x14, t.offset.toNat), (0x18, t.meas), (0x1C, t.measSnap), (0x20, t.est), (0x24, t.estSnap),
        (0x28, unsigned 12 (t.tj.getD 0)), (0x2C, unsigned 12 t.tjSnap), (0x40, (c.cast.tickets.filter (fun x => x.degraded)).length),
        (0x44, t.snapRow), (0x48, t.vin)] ++
       ctrRegs 0x30 t.fastCut ++ ctrRegs 0x38 t.shed),
     regArray off 0x100 4 32 t.sensorReg]

/-- EVC_SRC_s (Table 15.10), with the route that R310 and R311 give it. -/
def Evc.srcReg (e : Evc) (s : Nat) : Nat :=
  flag (e.src s).pending 31 + flag (e.src s).sat 30 + (e.route s).1 * 2 ^ 28 + (e.route s).2.1 * 2 ^ 23 + (e.route s).2.2 * 4096 + (e.src s).count
/-- EVC_VEC_v (Table 15.12). -/
def Evc.vecReg (e : Evc) (now v : Nat) : Nat :=
  flag (e.vec 0 v).req 31 + flag (e.vec 0 v).idle 30 + flag ((e.vec 0 v).timing now) 29 + (e.vec 0 v).modUs
/-- EVC (Tables 15.6 to 15.12). -/
def Chip.evcReg (c : Chip) (off : Nat) : Option Nat :=
  let e := c.evc
  firstReg
    [regIn off
      ([(0x00, flag e.disable 0),
        (0x04, flag (e.disable && e.vecs.any (fun x => x.2.req)) 31 + (e.srcs.filter (fun x => x.2.pending)).length),
        (0x08, 0), (0x0C, e.vfMod), (0x18, e.snapRow)] ++ ctrRegs 0x10 e.sent),
     regArray off 0x80 4 32 (fun i => maskOf ((List.range 32).filter (fun b => (e.src (32 * i + b)).pending))),
     regArray off 0x1000 4 1024 e.srcReg, regArray off 0x2000 4 1024 (fun _ => 0), regArray off 0x4000 4 2048 (e.vecReg c.now)]

/-- Whether a vector's PBA bit is set (R316). -/
def Chip.pbaBit (c : Chip) (fn v : Nat) : Bool :=
  (c.evc.vec fn v).req && ((c.evc.vec fn v).masked || (c.pcie.fn fn).funcMask || !(c.pcie.fn fn).msixEnable)
/-- A word of a function's MSI-X table (R283, R385). -/
def Chip.msixWord (c : Chip) (fn off : Nat) : Nat :=
  let x := c.evc.vec fn (off / 16)
  if off % 16 < 4 then x.addrLo.toNat else if off % 16 < 8 then x.addrHi.toNat else if off % 16 < 12 then x.data.toNat else flag x.masked 0
/-- A word of a function's PBA. -/
def Chip.pbaWord (c : Chip) (fn off : Nat) : Nat := maskOf ((List.range 32).filter (fun b => c.pbaBit fn (8 * (off - off % 4) + b)))

/-- STATE code of Q_STATUS (Table 13.20): held is a running queue whose function may not read, or whose records wait (R287, R288). -/
def Chip.qState (c : Chip) (g : Nat) : Nat :=
  match (c.queue g).state with
  | .disabled => 0 | .error => 3 | .held => 2
  | .running => if (c.pcie.fn (queueFn g)).bme && !(c.pcie.fn (queueFn g)).fenced then 1 else 2
/-- A queue pair's registers (Tables 13.18 to 13.20). -/
def Chip.qRegs (c : Chip) (g : Nat) : List (Nat × Nat) :=
  let q := c.queue g
  [(0x00, low32 q.sqBase), (0x04, low32 (q.sqBase / 4294967296)), (0x08, low32 q.cqBase), (0x0C, low32 (q.cqBase / 4294967296)),
   (0x10, flag q.enable 31 + flag q.resume 30 + q.cqLog2 * 2 ^ 20 + q.sqLog2 * 65536 + q.vector), (0x14, q.sqTail), (0x18, q.sqHead), (0x1C, q.cqHead),
   (0x20, flag q.phase 31 + q.cqTail),
   (0x24, c.qState g * 2 ^ 30 + flag q.badBell 29 + (c.cast.tickets.filter (fun t => t.queue == g && c.ownTicket (queueFn g) t)).length), (0x28, q.reserved), (0x3C, q.snapRow)] ++
  ctrRegs 0x2C q.accepted ++ ctrRegs 0x34 q.cqWait

/-- Tickets that a copy of the CAST registers counts: all for the PF, a VF's own (R41). -/
def Chip.castTickets (c : Chip) (fn : Nat) : List Ticket := c.cast.tickets.filter (fun t => fn == 0 || c.ownTicket fn t)
/-- CAST_RESV_POWER in 0.1 W, rounded down (R41, R52; log 112): the module's reserved power, or what a VF's tickets add to it. -/
def Chip.castPower (c : Chip) (fn : Nat) : Nat :=
  (if fn = 0 then c.reservedPower else (c.castTickets fn).foldl (fun a t => a + t.power) 0) / 100000
/-- CAST registers of a function (Tables 3.5 to 3.8, R41). -/
def Chip.castFnRegs (c : Chip) (fn : Nat) : List (Nat × Nat) :=
  let x := c.cast.fn fn
  let ts := c.castTickets fn
  [(0x00, flag (!(c.cast.holds.isEmpty && c.cast.leads.isEmpty)) 3 + flag x.dropped 2 + flag c.closed 1 + flag x.busy 0), (0x04, x.reqLo.toNat), (0x08, x.reqHi.toNat), (0x0C, 0),
   (0x10, x.last), (0x14, (ts.filter (fun t => !t.guaranteed)).length * 65536 + (ts.filter (fun t => t.guaranteed)).length),
   (0x18, min 65535 (c.castPower fn)), (0x1C, ts.foldl (fun a t => a + t.quota) 0)]
/-- LOAD_PPM of a panel's resource (Table 3.9). -/
def Chip.castLoad (c : Chip) (p r : Nat) : Nat := min 0xFFFFF (loadPpm (demand (c.stagesOn p r)) (c.units p r) c.gauge.floor)
/-- CAST (Table 3.5). -/
def Chip.castReg (c : Chip) (off : Nat) : Option Nat :=
  let k := c.cast
  firstReg
    [regIn off
      (c.castFnRegs 0 ++ ctrRegs 0x40 k.arrived ++ ctrRegs 0x48 k.committed ++ ctrRegs 0x50 k.late ++ ctrRegs 0x58 k.skipped ++
       ctrRegs 0x60 k.refused ++ [(0x68, k.snapRow)]),
     regArray off 0x100 16 16 (fun p => c.castLoad p 0), regArray off 0x104 16 16 (fun p => c.castLoad p 1),
     regArray off 0x108 16 16 (fun p => c.castLoad p 2)]

/-- Whether a needle's sequencer waits on a marker for a context: the context's first descriptor WAITs for a count not reached (R246). -/
def Chip.ctxWaits (c : Chip) (x : Needle) (ctx m : Nat) : Bool :=
  (x.headOf ctx).any (fun w => !c.waitMet (todOf w.tod) && c.ctxMarker ctx (todOf w.tod).waitMrk == some m)
/-- Whether a ticket's encoder, or without video its commit, waits on a marker: it is that of the stage whose picture the first waiting output
needs (R18, R246). -/
def Ticket.outWaits (t : Ticket) (m : Nat) : Bool :=
  t.outWait.any (fun w => (t.outs.find? (fun o => o.source == w.1 && o.sub == w.2.1)).any (fun o =>
    (t.feed (if o.rep || o.degraded then 0 else o.sub)).any (fun q => t.markers[q.stage]? == some m)))
/-- Agents that wait on a marker (Table 11.14): host WAITs, needle sequencers by context, and encoders or the holder by ticket (R246). -/
def Chip.waitersOn (c : Chip) (m : Nat) : Nat :=
  min 4095 ((c.waits.filter (fun w => w.marker == m)).length + (c.ndl.tab.flatMap (fun e => e.2.contexts.filter (fun x => c.ctxWaits e.2 x m))).length +
    (c.cast.tickets.filter (fun t => t.outWaits m)).length)
/-- MRK (Tables 11.13, 11.14), 65,536 markers. -/
def Chip.mrkReg (c : Chip) (off : Nat) : Option Nat :=
  let x := c.marker (off / 16)
  regIn (off % 16)
    [(0x0, x.count), (0x4, x.scope * 2 ^ 30 + flag x.overflow 29 + c.waitersOn (off / 16) * 65536 + x.context), (0x8, low32 x.ticket), (0xC, low32 x.time)]
/-- HANK (Tables 11.10 to 11.12). -/
def Chip.hankRegs (c : Chip) : List (Nat × Nat) :=
  let k := c.hank
  [(0x00, flag (decide (c.remainder ≤ c.hankOver + c.hankOrphan)) 1 + flag k.ready 0), (0x04, k.freeCount),
   (0x08, (k.recs.filter (fun e => e.2.state == .scrub)).length), (0x0C, c.hankOver), (0x10, c.hankOrphan), (0x14, k.sharedMin),
   (0x30, k.snapRow), (0x34, k.lastIdx), (0x38, flag k.lastValid 31 + k.lastReason * 2 ^ 24 + k.lastTag)] ++
  ctrRegs 0x18 k.allocCtr ++ ctrRegs 0x20 k.waitCtr ++ ctrRegs 0x28 k.refused

/-- STATE code of NDL_STATUS (Table 5.9). -/
def Needle.stateCode (x : Needle) : Nat := if x.testing then 3 else if x.retired then 2 else if x.ops.isEmpty then 0 else 1
/-- The failing column number `i` that NDL_BIST shows (Table 5.10). -/
def Needle.failCol (x : Needle) (i : Nat) : Nat := (x.failCols[i]?).getD 0x7F
/-- A needle's registers (Tables 5.8 to 5.13). -/
def Chip.ndlRegs (c : Chip) (n : Nat) : List (Nat × Nat) :=
  let x := c.needle n
  [(0x00, x.stateCode * 2 ^ 30 + flag x.panel.isSome 24 + x.panel.getD 0 * 2 ^ 20 +
      (if x.testing || x.retired then 0 else x.columns) * 256 + x.ops.length),
   (0x04, flag x.runtime 31 + x.failed * 2 ^ 28 + x.failCol 0 * 2 ^ 21 + x.failCol 1 * 2 ^ 14 + x.failCol 2 * 128 + x.failCol 3),
   (0x08, flag x.spillTag.isSome 12 + x.spillTag.getD 0 * 256 + x.freeTiles), (0x0C, maskOf (x.ops.map (fun o => o.tag))),
   (0x50, x.snapRow), (0x54, c.issueRate n), (0x58, flag x.faultValid 31 + x.faultCol * 2 ^ 24 + x.faultTag * 2 ^ 20 + x.faultCtx), (0x5C, x.sramCe)] ++
  ctrRegs 0x10 x.busy ++ ctrRegs 0x18 x.opsCtr ++ ctrRegs 0x20 x.spillCtr ++ ctrRegs 0x28 x.throttled ++ ctrRegs 0x30 x.satCtr ++
  ctrRegs 0x38 x.nonfinCtr ++ ctrRegs 0x40 x.dmaRd ++ ctrRegs 0x48 x.dmaWr
/-- NDL: needle n at 0x1000 + 0x4000 × n of the range. -/
def Chip.ndlReg (c : Chip) (off : Nat) : Option Nat :=
  if off / 0x4000 < 64 ∧ 0x1000 ≤ off % 0x4000 then regIn (off % 0x4000 - 0x1000) (c.ndlRegs (off / 0x4000)) else none

/-- A panel's registers (Tables 7.5 to 7.8). -/
def Chip.panelRegs (c : Chip) (p : Nat) : List (Nat × Nat) :=
  let x := c.panel p
  [(0x00, low32 (maskOf x.presented)), (0x04, maskOf x.presented / 4294967296),
   (0x08, flag x.valid 31 + flag (x.valid && c.panelOffline p) 30 + flag x.sharedOn 29 + x.declared.length * 65536 + x.presented.length * 256 + x.min),
   (0x0C, maskOf x.enc * 65536 + maskOf x.dec), (0x10, x.yokeBase * 65536 + x.yokeSize),
   (0x14, x.gRate.getD 0 0), (0x18, x.bRate.getD 0 0), (0x1C, x.gRate.getD 1 0), (0x20, x.bRate.getD 1 0),
   (0x24, x.gRate.getD 2 0), (0x28, x.bRate.getD 2 0)] ++
  ctrRegs 0x2C x.gStall ++ ctrRegs 0x34 x.bStall ++ ctrRegs 0x3C x.swap ++ ctrRegs 0x44 x.shcHit
/-- Panels that satisfy a test, as a mask. -/
def Chip.panelMask (c : Chip) (f : Nat → Bool) : Nat := maskOf ((List.range 16).filter (fun p => (c.panel p).valid && f p))
/-- PNL (Tables 7.1 to 7.8); the yoke ceiling is 0.9 × 4,096 B × floor pace (R154). -/
def Chip.pnlReg (c : Chip) (off : Nat) : Option Nat :=
  let p := c.pnl
  if off < 0x400 then
    regIn off
      ([(0x00, c.panelMask c.panelOffline * 65536 + c.panelMask (fun _ => true)), (0x04, p.sharedMib * 256 + p.chartMib), (0x08, p.ceilHbm),
        (0x0C, 9 * 4096 * c.gauge.floor / 10), (0x10, flag p.warm 31 + p.pinned.length * 65536 + p.cached.length), (0x34, p.snapRow), (0x38, p.fail)] ++
       ctrRegs 0x14 p.hit ++ ctrRegs 0x1C p.miss ++ ctrRegs 0x24 p.remote ++ ctrRegs 0x2C p.evict)
  else if (off - 0x400) / 0x80 < 16 then regIn ((off - 0x400) % 0x80) (c.panelRegs ((off - 0x400) / 0x80)) else none

/-- State register of a video core (Tables 8.13, 9.7). -/
def coreReg (cores : Tbl VCore) (k : Nat) : Nat :=
  let x : VCore := Tbl.get {} cores k
  if x.testing then 3 * 2 ^ 30 else if x.offline then 2 * 2 ^ 30
  else match x.job with
    | none => 0
    | some j => 2 ^ 30 + j.cls * 2 ^ 28 + j.context * 16384 + picWidth cores j
/-- A video core's three registers at a stride of 0x100 from `base`, `n` cores. -/
def coreRegs (cores : Tbl VCore) (off base n : Nat) : Option Nat :=
  firstReg
    [regArray off base 0x100 n (coreReg cores),
     regArray off (base + 4) 0x100 n (fun k => (Tbl.get {} cores k).busy.live),
     regArray off (base + 8) 0x100 n (fun k => (Tbl.get {} cores k).busy.snap)]
/-- OFFLINE and BUSY masks of `n` video cores. -/
def coreMasks (cores : Tbl VCore) (n : Nat) : Nat :=
  maskOf ((List.range n).filter (fun k => (Tbl.get {} cores k).offline)) * 65536 + maskOf ((List.range n).filter (fun k => (Tbl.get {} cores k).job.isSome))
/-- VDEC (Tables 8.10 to 8.13). -/
def Chip.vdecReg (c : Chip) (off : Nat) : Option Nat :=
  let v := c.vdec
  firstReg
    [regIn off
      ([(0x00, coreMasks v.cores 12), (0x04, flag v.lastValid 31 + v.lastCtx * 65536 + v.lastReason), (0x30, v.snapRow)] ++
       ctrRegs 0x08 v.pics ++ ctrRegs 0x10 v.samples ++ ctrRegs 0x18 v.refused ++ ctrRegs 0x20 v.concealed ++ ctrRegs 0x28 v.preempt),
     coreRegs v.cores off 0x1000 12]
/-- VENC (Tables 9.5 to 9.7). -/
def Chip.vencReg (c : Chip) (off : Nat) : Option Nat :=
  let v := c.venc
  firstReg
    [regIn off
      ([(0x00, coreMasks v.cores 8), (0x3C, v.snapRow)] ++
       ctrRegs 0x04 v.pics ++ ctrRegs 0x0C v.samples ++ ctrRegs 0x14 v.kib ++ ctrRegs 0x1C v.skipped ++ ctrRegs 0x24 v.preempt ++
       ctrRegs 0x2C v.clamp ++ ctrRegs 0x34 v.filler),
     coreRegs v.cores off 0x1000 8]

/-- HBM (Tables 11.7 to 11.9). -/
def Chip.hbmReg (c : Chip) (off : Nat) : Option Nat :=
  let h := c.hbm
  firstReg
    [regIn off
      ([(0x00, flag h.trained 31 + flag h.selfRefresh 30 + flag (!h.hotStacks.isEmpty) 29 + h.failedPcs.length), (0x04, h.ce), (0x08, h.ue),
        (0x0C, match h.lastErr with | some e => bitf e.1 5 32 | none => 0), (0x10, match h.lastErr with | some e => 2 ^ 31 + e.2 | none => 0),
        (0x34, h.snapRow)] ++
       ctrRegs 0x14 h.rdKib ++ ctrRegs 0x1C h.wrKib ++ ctrRegs 0x24 h.pageHit ++ ctrRegs 0x2C h.parity),
     regArray off 0x40 4 4 (fun i => maskOf ((List.range 32).filter (fun b => h.failedPcs.contains (32 * i + b))))]

/-- STATE code of a port (Table 12.11). -/
def PortState.code : PortState → Nat
  | .down => 0 | .training => 1 | .up => 2 | .wrapped => 3
/-- RND_PORT_E or RND_PORT_W (Table 12.11). -/
def RPort.reg (x : RPort) : Nat :=
  x.state.code * 2 ^ 30 + x.bypassed * 2 ^ 24 + x.locked * 65536 + flag x.nbValid 15 + (if x.nbValid then x.neighbour else 0)
/-- RND_ROUTE_k (Table 12.12). -/
def Rnd.routeReg (r : Rnd) (k : Nat) : Nat :=
  flag (r.route k).valid 31 + flag (r.route k).west 30 + (r.route k).hopsE * 2048 + (r.route k).hopsW
/-- RND_RESV of a port in units of 2 MB/s, rounded up (Table 12.8). -/
def Chip.resvReg (c : Chip) (p : Port) : Nat :=
  let x := c.rnd.portLoad p c.roundClaims
  ceilDiv x.2 2 * 65536 + ceilDiv x.1 2
/-- RND (Tables 12.8 to 12.13). -/
def Chip.rndReg (c : Chip) (off : Nat) : Option Nat :=
  let r := c.rnd
  firstReg
    [regIn off
      ([(0x00, flag r.overbooked 4 + flag r.dupId 3 + flag r.slipped 2 + flag (r.east.state == .wrapped || r.west.state == .wrapped) 1 + flag r.ready 0),
        (0x04, flag r.fromPattern 31 + c.pins.slotId * 65536 + r.id), (0x08, r.roles), (0x0C, r.ringSize), (0x10, r.east.reg), (0x14, r.west.reg),
        (0x18, r.ceilG), (0x1C, r.ceilBulk), (0x20, c.resvReg .east), (0x24, c.resvReg .west), (0x28, r.wrrBulk * 256 + r.wrrBe),
        (0x2C, r.repKind * 2 ^ 28 + r.repPort * 2 ^ 27 + min 65535 r.repDur), (0x80, r.snapRow)] ++
       ctrRegs 0x40 r.tx ++ ctrRegs 0x48 r.rx ++ ctrRegs 0x50 r.fecUncorr ++ ctrRegs 0x58 r.replays ++ ctrRegs 0x60 r.resend ++ ctrRegs 0x68 r.ttlDrop ++
       ctrRegs 0x70 r.alarmSupp ++ ctrRegs 0x78 r.badFrame),
     regArray off 0x1000 4 1024 r.routeReg]

/-- RST_STATUS (Table 17.8). -/
def Rst.status (r : Rst) : Nat := flag r.trayReq 31 + flag r.fenced 30 + flag r.tink.isSome 29 + maskOf r.panels
/-- RST_TINK (Table 17.12). -/
def Rst.tinkReg (r : Rst) : Nat :=
  match r.tink with
  | none => 0
  | some k => k.engine * 2 ^ 24 + k.resets * 2 ^ 22 + min 63 k.left.length * 65536 + k.left.headD 0
/-- RST (Tables 17.7 to 17.13). -/
def Chip.rstReg (c : Chip) (off : Nat) : Option Nat :=
  let r := c.rst
  regIn off
    ([(0x00, r.status), (0x04, 0), (0x08, flag r.reqBusy 31 + r.reqResult),
      (0x0C, flag r.lastValid 31 + r.lastLevel * 2 ^ 28 + r.lastCause * 2 ^ 24 + r.lastEngine * 65536 + r.lastCtx), (0x10, r.lastTime), (0x14, r.tinkReg),
      (0x18, min 15 c.recentWarm.length * 65536 + r.warmCount), (0x50, r.snapRow)] ++
     ctrRegs 0x20 r.trips ++ ctrRegs 0x28 r.frogs ++ ctrRegs 0x30 r.engResets ++ ctrRegs 0x38 r.pnlResets ++ ctrRegs 0x40 r.voided ++ ctrRegs 0x48 r.aborts)

/-- RUNG (Tables 16.10 to 16.14); the time in the present rung is counted up to now. -/
def Chip.rungReg (c : Chip) (off : Nat) : Option Nat :=
  let r := c.rung.settle c.now
  regIn off
    ([(0x00, r.rung.code % 4 * 2 ^ 28 + flag c.guaranteedLive 27 + r.wokeFrom), (0x04, r.limit), (0x08, r.dozeQms * 65536 + r.hushUs),
      (0x0C, r.exitFrom * 2 ^ 28 + r.exitCause * 2 ^ 24 + r.exitNs), (0x28, r.snapRow)] ++
     ctrRegs 0x10 r.hushTime ++ ctrRegs 0x18 r.dozeTime ++ ctrRegs 0x20 r.exits)

/-- A little-endian word of a byte list. -/
def wordOf (b : List Byte) (off : Nat) : Nat := le b off 4
/-- Bytes of an alarm slot (Table 15.5). -/
def AlarmSlot.bytes (x : AlarmSlot) : List Byte :=
  (match x.first with | some r => r.bytes | none => zeros 32) ++ leBytes 8 x.lastTime ++ leBytes 1 x.rep ++
  leBytes 1 (flag x.first.isSome 0 + flag x.sat 1) ++ zeros 22
/-- LOG_STATUS (Table 15.14). -/
def Log.status (l : Log) : Nat := flag l.hbmReady 31 + flag l.persReady 30 + flag l.persDefer 29 + flag l.full 28
/-- Slots of a half that are occupied. -/
def Log.occupied (l : Log) (base : Nat) : Nat := maskOf ((List.range 32).filter (fun k => (l.slot (base + k)).first.isSome))
/-- LOG registers and alarm slots (Tables 15.5, 15.13 to 15.16). -/
def Chip.logReg (c : Chip) (off : Nat) : Option Nat :=
  let l := c.log
  firstReg
    [regIn off
      ([(0x00, l.status), (0x04, l.seq), (0x08, l.lost), (0x0C, l.headChip), (0x10, l.headHbm), (0x14, l.headPers), (0x18, l.aperture.toNat),
        (0x1C, l.occupied 0), (0x20, l.occupied 32), (0x34, l.snapRow)] ++ ctrRegs 0x24 l.keptCtr ++ ctrRegs 0x2C l.suppCtr),
     if 0x1000 ≤ off ∧ off < 0x2000 then some (wordOf (l.slot ((off - 0x1000) / 64)).bytes (off % 64)) else none,
     regArray off 0x2000 4 64 (fun _ => 0),
     regArray off 0x4000 4 1024 (fun s => (l.src s).suppressed * 65536 + (l.src s).budget)]
/-- A word of a tier of the log: `newest` lists its records newest first, `head` is the next index of a ring of `size` records. -/
def tierWord (newest : List LogRec) (head size off : Nat) : Nat :=
  match newest[(head + size - 1 - off / 32 % size) % size]? with
  | some r => wordOf r.bytes (off % 32)
  | none => 0
/-- A word of the telemetry window: the half that LOG_APERTURE selects of the HBM tier or of the persistent copy (Table 15.15). -/
def Log.window (l : Log) (off : Nat) : Nat :=
  let x := (if bit l.aperture.toNat 8 then 0x800000 else 0) + off
  if bit l.aperture.toNat 0 then tierWord l.persCopy (l.persCopy.length % 524288) 524288 x else tierWord l.hbm l.headHbm 524288 x

/-- Whether an address belongs to a block that answers under R387 too: ID, PAT, PCIE, EVC, LOG, RST, the log windows. -/
def basicBlock (a : Nat) : Bool :=
  decide (a < 0x10000) || decide (0x20000 ≤ a ∧ a < 0x40000) || decide (0x700000 ≤ a ∧ a < 0x710000) || decide (0x1000000 ≤ a)
/-- The register at an aligned address of the PF's BAR0, if the spec puts one there (Table 19.1). -/
def Chip.regAt (c : Chip) (a : Nat) : Option Nat :=
  if a < 0x4000 then regIn a c.idRegs
  else if a < 0x5000 then c.patReg (a - 0x4000)
  else if a < 0x8000 then none
  else if a < 0x9000 then c.pcieReg (a - 0x8000)
  else if a < 0x10000 then none
  else if a < 0x18000 then c.gaugeReg (a - 0x10000)
  else if a < 0x20000 then c.tensReg (a - 0x18000)
  else if a < 0x30000 then c.evcReg (a - 0x20000)
  else if a < 0x40000 then none
  else if a < 0x80000 then regIn (a % 0x400) (c.qRegs ((a - 0x40000) / 0x400))
  else if a < 0x90000 then c.castReg (a - 0x80000)
  else if a < 0x100000 then none
  else if a < 0x200000 then c.mrkReg (a - 0x100000)
  else if a < 0x210000 then regIn (a - 0x200000) c.hankRegs
  else if a < 0x300000 then none
  else if a < 0x3F0000 then c.ndlReg (a - 0x300000)
  else if a < 0x3F1000 then c.pnlReg (a - 0x3F0000)
  else if a < 0x400000 then c.ndlReg (a - 0x300000)
  else if a < 0x408000 then c.vdecReg (a - 0x400000)
  else if a < 0x410000 then c.vencReg (a - 0x408000)
  else if a < 0x500000 then none
  else if a < 0x510000 then c.hbmReg (a - 0x500000)
  else if a < 0x600000 then none
  else if a < 0x610000 then c.rndReg (a - 0x600000)
  else if a < 0x700000 then none
  else if a < 0x710000 then c.rstReg (a - 0x700000)
  else if a < 0x800000 then none
  else if a < 0x810000 then c.rungReg (a - 0x800000)
  else if a < 0x1000000 then none
  else if a < 0x1005000 then c.logReg (a - 0x1000000)
  else none
/-- Whether an address lies in the on-chip tier or the telemetry window (R384). -/
def logWindow (a : Nat) : Bool := decide (0x1040000 ≤ a ∧ a < 0x1080000) || decide (0x1800000 ≤ a ∧ a < 0x2000000)
/-- A word of BAR0 as the PF reads it: 0 where no register is or the block does not answer (R4, R387). -/
def Chip.bar0Word (c : Chip) (a : Nat) : Nat :=
  if c.onlyBasic && !basicBlock a then 0
  else if 0x30000 ≤ a ∧ a < 0x38000 then c.msixWord 0 (a - 0x30000)
  else if 0x38000 ≤ a ∧ a < 0x38100 then c.pbaWord 0 (a - 0x38000)
  else if 0x1040000 ≤ a ∧ a < 0x1080000 then tierWord c.log.chip c.log.headChip 8192 (a - 0x1040000)
  else if 0x1800000 ≤ a ∧ a < 0x2000000 then c.log.window (a - 0x1800000)
  else (c.regAt a).getD 0
/-- The register at an aligned offset of a VF's slice (Table 13.5, R388). -/
def Chip.sliceReg (c : Chip) (fn off : Nat) : Option Nat :=
  if off = 0 then some (c.fnStatus fn)
  else if 0x1000 ≤ off ∧ off < 0x1020 then regIn (off - 0x1000) (c.castFnRegs fn)
  else if 0x2000 ≤ off ∧ off < 0x4000 then regIn (off % 0x400) (c.qRegs (globalQueue fn ((off - 0x2000) / 0x400)))
  else none
/-- A word of a VF's slice as it reads it; in the states of R387 only its function status and MSI-X answer. -/
def Chip.sliceWord (c : Chip) (fn off : Nat) : Nat :=
  if 0xC000 ≤ off ∧ off < 0xC400 then c.msixWord fn (off - 0xC000)
  else if 0xD000 ≤ off ∧ off < 0xD008 then c.pbaWord fn (off - 0xD000)
  else if c.onlyBasic && off != 0 then 0
  else (c.sliceReg fn off).getD 0
/-- What a BAR0 read of `size` bytes returns: the addressed bytes of the word; nothing for one that breaks R274 (R4). -/
def Chip.bar0Read (c : Chip) (fn addr size : Nat) : Option Nat :=
  if size = 0 ∨ 4 < addr % 4 + size then none
  else some (bitf (if fn = 0 then c.bar0Word (addr - addr % 4) else c.sliceWord fn (addr - addr % 4)) (8 * (addr % 4)) (8 * size))

/-! ### Writing -/

/-- A 32-bit half of a 64-bit value replaced. -/
def setHalf (x : Nat) (high : Bool) (v : Nat) : Nat :=
  if high then low32 x + 4294967296 * low32 v else x - low32 x + low32 v
/-- A base or size register of a queue written while it does not run (R276). -/
def Chip.qBase (c : Chip) (g off v : Nat) : Chip :=
  c.updQueue g (fun q =>
    if q.enable then q
    else if off < 8 then { q with sqBase := setHalf q.sqBase (off == 4) (if off = 0 then v - v % 4096 else v) }
    else { q with cqBase := setHalf q.cqBase (off == 0xC) (if off = 8 then v - v % 4096 else v) })
/-- A write of a queue register by its function (R276, R277, R281; Tables 13.18 to 13.20). -/
def qRegWrite (fn q off v : Nat) (c : Chip × Mem) : Chip × Mem :=
  let g := globalQueue fn q
  if off < 0x10 then (c.1.qBase g off v, c.2)
  else if off = 0x10 then (if bit v 31 then c.1.queueEnable g v else c.1.queueDisable g v, c.2)
  else if off = 0x14 then (c.1.sqTail g (v % 4096), c.2)
  else if off = 0x1C then cqHead fn q (v % 32768) c
  else if off = 0x24 then (c.1.updQueue g (fun x => { x with badBell := x.badBell && !bit v 29 }), c.2)
  else c
/-- GO written, and its turn taken (R45): dropped while a request runs, else the descriptor is fetched (R41); the CAST source is acknowledged (R314). -/
def Chip.castGo (c : Chip) (fn : Nat) : Chip :=
  let d := { c with evc := c.evc.calm (castSource fn) }
  if (d.cast.fn fn).busy then { d with cast := d.cast.updFn fn (fun x => { x with dropped := true }) }
  else
    { d with
      cast := { d.cast.updFn fn (fun x => { x with busy := true }) with order := d.cast.order.erase (.bell fn) ++ [.bell fn] }
      pcie := if (d.pcie.fn fn).bme then d.pcie.take d.now fn (.castDescriptor fn) .outstanding else d.pcie }
/-- A write of a function's CAST register (Tables 3.5 to 3.7). -/
def Chip.castWrite (c : Chip) (fn off v : Nat) : Chip :=
  if off = 0 then { c with cast := c.cast.updFn fn (fun x => { x with dropped := x.dropped && !bit v 2 }) }
  else if off = 4 then { c with cast := c.cast.updFn fn (fun x => { x with reqLo := BitVec.ofNat 32 (v - v % 64) }) }
  else if off = 8 then { c with cast := c.cast.updFn fn (fun x => { x with reqHi := BitVec.ofNat 32 v }) }
  else if off = 0xC ∧ bit v 0 = true then c.castGo fn
  else c
/-- A write of PAT_WR_ADDR or PAT_WR_LEN: ignored and logged out of maintenance start or while a write runs (R309). -/
def Chip.patWrite (c : Chip) (off v : Nat) : Chip :=
  if c.pat.wrBusy || !c.maint then c.regIncident .patIgnored (0x4000 + off)
  else if off = 0x28 then { c with pat := { c.pat with wrLen := BitVec.ofNat 32 v } }
  else { c with pat := { c.pat with wrAddr := setHalf c.pat.wrAddr (off == 0x24) (if off = 0x20 then v - v % 4096 else v) } }
/-- RST_REQ written (Table 17.9): in maintenance start LEVEL 3 to 5 only, others ignored and logged (R387). -/
def resetRequest (v : Nat) (c : Chip × Mem) : Chip × Mem :=
  let level := bitf v 28 3
  if level = 0 then c
  else if c.1.maint ∧ (level < 3 ∨ 5 < level) then (c.1.regIncident .requestIgnored 0x700004, c.2)
  else if level = 1 then frogRequest (bitf v 0 14) c
  else if level = 2 then panelRequest (bitf v 24 4) c
  else if level = 3 then warmRequest c
  else if level = 4 then maintRequest c
  else if level = 5 then cycleRequest c
  else c
/-- RUNG_REQ written (Table 16.12). -/
def Chip.rungRequest (c : Chip) (v : Nat) : Chip :=
  { c with rung := { c.rung with limit := if v % 4 = 3 then c.rung.limit else v % 4 } }
/-- A write of a register of the PF's BAR0 under its access code (Table 19.2); HW, RO and PAT registers ignore it. -/
def pfRegWrite (a v : Nat) (c : Chip × Mem) : Chip × Mem :=
  if 0x4020 ≤ a ∧ a < 0x402C then (c.1.patWrite (a - 0x4000) v, c.2)
  else if a = 0x402C then (if bit v 0 then c.1.slotWrite 0 none else c.1, c.2)
  else if a = 0x20000 then (c.1.evcDisable (bit v 0), c.2)
  else if a = 0x20008 then (c.1.idleHint (v % 2048), c.2)
  else if 0x22000 ≤ a ∧ a < 0x23000 then (c.1.eventAck ((a - 0x22000) / 4) (v % 256), c.2)
  else if 0x40000 ≤ a ∧ a < 0x60000 then qRegWrite 0 ((a - 0x40000) / 0x400) (a % 0x400) v c
  else if 0x80000 ≤ a ∧ a < 0x80020 then (c.1.castWrite 0 (a - 0x80000) v, c.2)
  else if a = 0x700004 then resetRequest v c
  else if a = 0x800004 then (c.1.rungRequest v, c.2)
  else if a = 0x1000018 then ({ c.1 with log := { c.1.log with aperture := BitVec.ofNat 32 (v % 2 + bitf v 8 1 * 256) } }, c.2)
  else if 0x1002000 ≤ a ∧ a < 0x1002100 then (c.1.alarmAck ((a - 0x1002000) / 4) (v % 256), c.2)
  else c
/-- A word of an MSI-X table entry. -/
def Vec.setWord (x : Vec) (off v : Nat) : Vec :=
  if off < 4 then { x with addrLo := BitVec.ofNat 32 v } else if off < 8 then { x with addrHi := BitVec.ofNat 32 v }
  else if off < 12 then { x with data := BitVec.ofNat 32 v } else { x with masked := bit v 0 }
/-- A write into a function's MSI-X table, 32 or 64 bits (R385); a vector that it unmasks sends what it holds (R316). -/
def Chip.msixWrite (c : Chip) (fn off size v : Nat) : Chip :=
  if (size ≠ 4 ∧ size ≠ 8) ∨ off % size ≠ 0 then c
  else
    let e := c.evc.updVec fn (off / 16) (fun x => if size = 8 then (x.setWord (off % 16) (low32 v)).setWord (off % 16 + 4) (low32 (v / 4294967296))
      else x.setWord (off % 16) (low32 v))
    { c with evc := e.trySend c.pcie c.now fn (off / 16) }
/-- A write of the PF: R274's limits, MSI-X, narrower writes and addresses without a register discarded and logged (R4, R384, R387). -/
def pfWrite (addr size v : Nat) (c : Chip × Mem) : Chip × Mem :=
  if 0x30000 ≤ addr ∧ addr < 0x38000 then (c.1.msixWrite 0 (addr - 0x30000) size v, c.2)
  else if 0x38000 ≤ addr ∧ addr < 0x38100 then c
  else if size = 0 ∨ 4 < addr % 4 + size ∨ 0x2000000 ≤ addr then c
  else if size ≠ 4 ∨ logWindow addr = true ∨ (c.1.onlyBasic = true ∧ basicBlock addr = false) ∨ c.1.regAt addr = none then
    (c.1.regIncident .regDiscard addr, c.2)
  else pfRegWrite addr (low32 v) c
/-- A write of a VF through its slice (R388); ARG of what is logged is the slice offset. -/
def vfWrite (fn addr size v : Nat) (c : Chip × Mem) : Chip × Mem :=
  if 0xC000 ≤ addr ∧ addr < 0xC400 then (c.1.msixWrite fn (addr - 0xC000) size v, c.2)
  else if 0xD000 ≤ addr ∧ addr < 0xD008 then c
  else if size = 0 ∨ 4 < addr % 4 + size ∨ 0x10000 ≤ addr then c
  else if size ≠ 4 ∨ (c.1.onlyBasic = true ∧ addr ≠ 0) ∨ c.1.sliceReg fn addr = none then (c.1.regIncident .regDiscard addr, c.2)
  else if 0x1000 ≤ addr ∧ addr < 0x1020 then (c.1.castWrite fn (addr - 0x1000) (low32 v), c.2)
  else if 0x2000 ≤ addr ∧ addr < 0x4000 then qRegWrite fn ((addr - 0x2000) / 0x400) (addr % 0x400) (low32 v) c
  else c
/-- A BAR0 write of `size` bytes. A function that is not there or not in D0 answers Unsupported Request. -/
def registerWrite (fn addr size v : Nat) (c : Chip × Mem) : Chip × Mem :=
  if c.1.reachableFn fn then
    (if fn = 0 then pfWrite addr size v (c.1.tlp, c.2) else vfWrite fn addr size v (c.1.tlp, c.2))
  else c
/-- REGISTER_WRITE (R4). -/
def execRegisterWrite (fn addr size value : Nat) (s : State) : Host.Outcome State Fault Refusal :=
  .next { s with chip := (registerWrite fn addr size value (s.chip, s.mem)).1, mem := (registerWrite fn addr size value (s.chip, s.mem)).2 }

end Sys2Proof.Machine
end

