-- ==== Sys2Proof/Machine/Smbus.lean ====
section
/-!
DEFINITION. The management interface: SMBus, MCTP and the vendor commands (R377, R379, R380, R389), and the SPDM responder with its DOE
mailbox (R292).
-/
namespace Sys2Proof.Machine

/-! ### SPDM (R292) -/

/-- Whether the module answers more than MCTP Control and GET_STATUS (R380). -/
def Chip.managed (c : Chip) : Bool :=
  c.pins.aux && c.pat.mode != .starting && (c.rung.rung == .run || c.rung.rung == .hush || c.rung.rung == .doze)
/-- Digest of a measured part (Table 13.13). -/
def Chip.measured (c : Chip) (i : Nat) : Nat :=
  if i = 1 then Config.spdmDigest 1 else if i = 2 then Config.spdmDigest 2 else if i = 3 then c.pat.digest
  else if i = 4 then (match c.pat.recovery.image with | some x => x.digest | none => 0) else Config.spdmDigest 3
/-- A request answered over the DOE mailbox, with an edge on source DOE, or over SMBus. -/
def Chip.spdmAnswer (c : Chip) (overSmbus : Bool) (a : SpdmAnswer) : Chip :=
  if overSmbus then
    (if c.managed then { c with pcie := { c.pcie with smbSpdm := a :: c.pcie.smbSpdm } } else c)
  else if c.pcie.up && c.pins.perstN then Chip.edge { c with pcie := { c.pcie with doe := a :: c.pcie.doe } } srcDoe
  else c
/-- DOE Discovery's answer: vendor 0x0001 types 0 and 1; no protocol beyond (log 21). -/
def doeProtocols (index : Nat) : SpdmAnswer :=
  if index = 0 then .doeProtocol 1 0 1 else if index = 1 then .doeProtocol 1 1 0 else .doeProtocol 0xFFFF 0 0
/-- DOE_DISCOVERY (R292). -/
def execDoeDiscovery (index : Nat) (s : State) : Host.Outcome State Fault Refusal :=
  .next { s with chip := s.chip.spdmAnswer false (doeProtocols index) }
/-- GET_VERSION (R292): SPDM 1.2. -/
def execGetVersion (overSmbus : Bool) (_arg : Nat) (s : State) : Host.Outcome State Fault Refusal :=
  .next { s with chip := s.chip.spdmAnswer overSmbus (.version 0x12) }
/-- GET_CAPABILITIES (R292). -/
def execGetCapabilities (overSmbus : Bool) (_arg : Nat) (s : State) : Host.Outcome State Fault Refusal :=
  .next { s with chip := s.chip.spdmAnswer overSmbus .capabilities }
/-- NEGOTIATE_ALGORITHMS (R292): ECDSA with P-384 and SHA-384, by the SPDM codes 0x80 and 0x02 (log 21). -/
def execNegotiateAlgorithms (overSmbus : Bool) (_arg : Nat) (s : State) : Host.Outcome State Fault Refusal :=
  .next { s with chip := s.chip.spdmAnswer overSmbus (.algorithms 0x80 0x02) }
/-- GET_DIGESTS (R292): certificate slot 0. -/
def execGetDigests (overSmbus : Bool) (_arg : Nat) (s : State) : Host.Outcome State Fault Refusal :=
  .next { s with chip := s.chip.spdmAnswer overSmbus (.digests 1) }
/-- GET_CERTIFICATE (R292): `arg` holds the slot in [7:0] and the offset in [31:16]; slot 0 alone holds a chain. -/
def execGetCertificate (overSmbus : Bool) (arg : Nat) (s : State) : Host.Outcome State Fault Refusal :=
  .next { s with chip := s.chip.spdmAnswer overSmbus (if bitf arg 0 8 = 0 then .certificate 0 (bitf arg 16 16) else .error) }
/-- CHALLENGE (R292): `arg` holds the slot in [7:0]. -/
def execChallenge (overSmbus : Bool) (arg : Nat) (s : State) : Host.Outcome State Fault Refusal :=
  .next { s with chip := s.chip.spdmAnswer overSmbus (if bitf arg 0 8 = 0 then .challengeAuth 0 else .error) }
/-- Measurements asked for: the number of indices, one of Table 13.13, or all. -/
def Chip.measurements (c : Chip) (index : Nat) (sign : Bool) : SpdmAnswer :=
  if index = 0 then .measurements [] [5] sign
  else if index = 0xFF then .measurements [1, 2, 3, 4, 5] ([1, 2, 3, 4, 5].map c.measured) sign
  else if index ≤ 5 then .measurements [index] [c.measured index] sign
  else .error
/-- GET_MEASUREMENTS (R292): `arg` holds the index in [7:0] and, in [8], whether a signature is asked for. -/
def execGetMeasurements (overSmbus : Bool) (arg : Nat) (s : State) : Host.Outcome State Fault Refusal :=
  .next { s with chip := s.chip.spdmAnswer overSmbus (s.chip.measurements (bitf arg 0 8) (bit arg 8)) }

/-! ### SMBus and MCTP Control (R377, R379) -/

/-- An answer on the SMBus, if the endpoint is powered (R374). -/
def Chip.smbAnswer (c : Chip) (a : SmbAnswer) : Chip := if c.pins.aux then { c with smbus := a :: c.smbus } else c
/-- SMBus address (R379). -/
def Chip.smbAddr (c : Chip) : Nat := 0x40 + c.pins.slotId % 32
/-- The Alert Response Address read while ALERT_N is asserted: the module answers with its address, and releases ALERT_N if it wins, unless
the thermal condition still holds (R377). -/
def Chip.alertResponse (c : Chip) (won : Bool) : Chip :=
  if c.pins.alert && c.pins.aux then
    (if won then { c with smbus := .alertAddress c.smbAddr :: c.smbus, pins := { c.pins with alert := c.pins.alertHot } } else c)
  else c
/-- ALERT_RESPONSE (R377). -/
def execAlertResponse (won : Bool) (s : State) : Host.Outcome State Fault Refusal := .next { s with chip := s.chip.alertResponse won }
/-- An endpoint ID set; the null and the broadcast ID are not taken (log 63). -/
def Chip.setEid (c : Chip) (eid : Nat) : Chip :=
  if c.pins.aux && eid != 0 && decide (eid < 255) then { c with pins := { c.pins with eid := eid } } else c
/-- SET_ENDPOINT_ID (R379). -/
def execSetEndpointId (eid : Nat) (s : State) : Host.Outcome State Fault Refusal :=
  .next { s with chip := (s.chip.setEid eid).smbAnswer (.endpointId (s.chip.setEid eid).pins.eid) }
/-- GET_ENDPOINT_ID (R379). -/
def execGetEndpointId (s : State) : Host.Outcome State Fault Refusal := .next { s with chip := s.chip.smbAnswer (.endpointId s.chip.pins.eid) }
/-- GET_MCTP_VERSION_SUPPORT (R379). -/
def execGetMctpVersionSupport (s : State) : Host.Outcome State Fault Refusal := .next { s with chip := s.chip.smbAnswer .mctpVersion }
/-- GET_MESSAGE_TYPE_SUPPORT (R379): MCTP Control, SPDM, Vendor Defined – PCI. -/
def execGetMessageTypeSupport (s : State) : Host.Outcome State Fault Refusal := .next { s with chip := s.chip.smbAnswer (.messageTypes [0x00, 0x05, 0x7E]) }
/-- GET_VENDOR_DEFINED_MESSAGE_SUPPORT (R379): selector 0 is vendor 0x1FA7, none beyond. -/
def execGetVendorDefinedMessageSupport (selector : Nat) (s : State) : Host.Outcome State Fault Refusal :=
  .next { s with chip := s.chip.smbAnswer (if selector = 0 then .vendorMessage 0x1FA7 else .noMore) }

/-! ### Vendor commands (Table 18.9) -/

/-- Completion bytes of a vendor response: OK, NOT_READY, BAD_COMMAND, BUSY. -/
def vcOk : Nat := 0
/-- NOT_READY. -/
def vcNotReady : Nat := 1
/-- BAD_COMMAND. -/
def vcBad : Nat := 2
/-- BUSY. -/
def vcBusy : Nat := 3
/-- GET_STATUS's payload: the rung, then the status registers, 0 in Nap and Dormant. -/
def Chip.statusPayload (c : Chip) : List Byte :=
  leBytes 1 c.rung.rung.code ++
  (if c.rung.rung = .nap ∨ c.rung.rung = .dormant then zeros 28
   else leBytes 4 c.tens.status ++ leBytes 4 (unsigned 12 c.tens.tjSnap) ++ leBytes 4 c.tens.measSnap ++ leBytes 4 c.rst.status ++
     leBytes 4 c.patStatus ++ leBytes 4 (c.log.occupied 0) ++ leBytes 4 (c.log.occupied 32))
/-- GET_STATUS (R380). -/
def execGetStatus (s : State) : Host.Outcome State Fault Refusal := .next { s with chip := s.chip.smbAnswer (.vendor 1 vcOk s.chip.statusPayload) }
/-- Whether an offset lies in a block that READ_REG reaches (Table 18.9). -/
def readable (off : Nat) : Bool :=
  off % 4 == 0 &&
  (decide (off < 0x4000) || decide (0x10000 ≤ off ∧ off < 0x20000) || decide (0x700000 ≤ off ∧ off < 0x710000) ||
   decide (0x800000 ≤ off ∧ off < 0x810000) || decide (0x1000000 ≤ off ∧ off < 0x1005000))
/-- READ_REG: the value BAR0 reads (R389); a read of GAUGE_TIME_LO latches GAUGE_TIME_HI (R37). -/
def Chip.readReg (c : Chip) (off : Nat) : Chip :=
  if !c.managed then c.smbAnswer (.vendor 2 vcNotReady [])
  else if readable off then
    Chip.smbAnswer { c with gauge := if off = 0x10030 then c.gauge.latchTime else c.gauge } (.vendor 2 vcOk (leBytes 4 (c.bar0Word off)))
  else c.smbAnswer (.vendor 2 vcBad [])
/-- READ_REG (R389). -/
def execReadReg (off : Nat) (s : State) : Host.Outcome State Fault Refusal := .next { s with chip := s.chip.readReg off }
/-- Records of the HBM tier with a run of sequence numbers. -/
def Log.bySeq (l : Log) (seq count : Nat) : List LogRec :=
  (List.range count).filterMap (fun k => l.hbm.find? (fun r => r.seq == (seq + k) % 4294967296))
/-- READ_LOG: one or two records of the HBM tier, those that it still holds (log 63). -/
def Chip.readLog (c : Chip) (seq count : Nat) : Chip :=
  c.smbAnswer (.vendor 3 (if !c.managed then vcNotReady else if count = 1 ∨ count = 2 then vcOk else vcBad)
    (if c.managed && (count == 1 || count == 2) then (c.log.bySeq seq count).flatMap LogRec.bytes else []))
/-- READ_LOG (R380). -/
def execReadLog (seq count : Nat) (s : State) : Host.Outcome State Fault Refusal := .next { s with chip := s.chip.readLog seq count }
/-- ACK_ALARM: as a write of LOG_ALARM_ACK_k (R324). -/
def Chip.smbAck (c : Chip) (k rep : Nat) : Chip :=
  if !c.managed then c.smbAnswer (.vendor 4 vcNotReady [])
  else if 64 ≤ k ∨ 256 ≤ rep then c.smbAnswer (.vendor 4 vcBad [])
  else (c.alarmAck k rep).smbAnswer (.vendor 4 vcOk [])
/-- ACK_ALARM (R380). -/
def execAckAlarm (k rep : Nat) (s : State) : Host.Outcome State Fault Refusal := .next { s with chip := s.chip.smbAck k rep }
/-- REQUEST_RESET: LEVEL 3 or 4 as a write of RST_REQ, under the same BUSY (R365, R389). -/
def smbReset (level : Nat) (c : Chip × Mem) : Chip × Mem :=
  if !c.1.managed then (c.1.smbAnswer (.vendor 5 vcNotReady []), c.2)
  else if level ≠ 3 ∧ level ≠ 4 then (c.1.smbAnswer (.vendor 5 vcBad []), c.2)
  else if c.1.rst.reqBusy then (c.1.smbAnswer (.vendor 5 vcBusy []), c.2)
  else if level = 3 then warmRequest (c.1.smbAnswer (.vendor 5 vcOk []), c.2)
  else maintRequest (c.1.smbAnswer (.vendor 5 vcOk []), c.2)
/-- REQUEST_RESET (R389). -/
def execRequestReset (level : Nat) (s : State) : Host.Outcome State Fault Refusal :=
  .next { s with chip := (smbReset level (s.chip, s.mem)).1, mem := (smbReset level (s.chip, s.mem)).2 }

end Sys2Proof.Machine
end

