-- ==== Sys2Proof/Machine/Dispatch.lean ====
section
/-!
DEFINITION. One arm per command: a direct call of its meaning, or a rejection by name.
-/
namespace Sys2Proof.Machine

def exec (i : Instr) (s : State) : Host.Outcome State Fault Refusal :=
  match i with
  | .registerWrite fn addr size value => Sys2Proof.Machine.execRegisterWrite fn addr size value s
  | .rowBoundary e => Sys2Proof.Machine.execRowBoundary e s
  | .gaugeWindowEnd counts => Sys2Proof.Machine.execGaugeWindowEnd counts s
  | .fastHoldExpire => Sys2Proof.Machine.execFastHoldExpire s
  | .vcoreSettled => Sys2Proof.Machine.execVcoreSettled s
  | .provisionalRowBoundary => Sys2Proof.Machine.execProvisionalRowBoundary s
  | .marginTimeout => Sys2Proof.Machine.execMarginTimeout s
  | .gaugeTimeLoRead => Sys2Proof.Machine.execGaugeTimeLoRead s
  | .crystalFail => Sys2Proof.Machine.execCrystalFail s
  | .castOn fn d => Sys2Proof.Machine.execCastOn fn d s
  | .bindOff fn d => Sys2Proof.Machine.execBindOff fn d s
  | .bindOffDrainEnd ticket => Sys2Proof.Machine.execBindOffDrainEnd ticket s
  | .garmentCastOn fn d => Sys2Proof.Machine.execGarmentCastOn fn d s
  | .reserve p f => Sys2Proof.Machine.execReserve p f s
  | .answer p f => Sys2Proof.Machine.execAnswer p f s
  | .commit p f => Sys2Proof.Machine.execCommit p f s
  | .release p f => Sys2Proof.Machine.execRelease p f s
  | .garmentAnswerTimeout garment => Sys2Proof.Machine.execGarmentAnswerTimeout garment s
  | .garmentHoldExpire garment => Sys2Proof.Machine.execGarmentHoldExpire garment s
  | .garmentBindOff p f => Sys2Proof.Machine.execGarmentBindOff p f s
  | .matmul n seq tod => Sys2Proof.Machine.execMatmul n seq tod s
  | .conv n seq tod => Sys2Proof.Machine.execConv n seq tod s
  | .dwconv n seq tod => Sys2Proof.Machine.execDwconv n seq tod s
  | .pool n seq tod => Sys2Proof.Machine.execPool n seq tod s
  | .eltwise n seq tod => Sys2Proof.Machine.execEltwise n seq tod s
  | .norm n seq tod => Sys2Proof.Machine.execNorm n seq tod s
  | .softmax n seq tod => Sys2Proof.Machine.execSoftmax n seq tod s
  | .gather n seq tod => Sys2Proof.Machine.execGather n seq tod s
  | .scatter n seq tod => Sys2Proof.Machine.execScatter n seq tod s
  | .argmax n seq tod => Sys2Proof.Machine.execArgmax n seq tod s
  | .s2d n seq tod => Sys2Proof.Machine.execS2d n seq tod s
  | .marub n seq tod => Sys2Proof.Machine.execMarub n seq tod s
  | .sync n seq tod => Sys2Proof.Machine.execSync n seq tod s
  | .operationComplete n tag e stalls withheld r => Sys2Proof.Machine.execOperationComplete n tag e stalls withheld r s
  | .weightSwapComplete n => Sys2Proof.Machine.execWeightSwapComplete n s
  | .dmaTransferComplete n id => Sys2Proof.Machine.execDmaTransferComplete n id s
  | .chunkAdmit panel res guaranteed => Sys2Proof.Machine.execChunkAdmit panel res guaranteed s
  | .chartFillComplete block d => Sys2Proof.Machine.execChartFillComplete block d s
  | .chartFillTimeout block => Sys2Proof.Machine.execChartFillTimeout block s
  | .residentSegmentLoaded seg => Sys2Proof.Machine.execResidentSegmentLoaded seg s
  | .decodeSegmentEnd core => Sys2Proof.Machine.execDecodeSegmentEnd core s
  | .decodeComplete core r => Sys2Proof.Machine.execDecodeComplete core r s
  | .fieldReleaseTimeout ticket source => Sys2Proof.Machine.execFieldReleaseTimeout ticket source s
  | .skipRecordCommit ticket => Sys2Proof.Machine.execSkipRecordCommit ticket s
  | .laneStart core => Sys2Proof.Machine.execLaneStart core s
  | .encodeSegmentEnd core => Sys2Proof.Machine.execEncodeSegmentEnd core s
  | .encodeComplete core r => Sys2Proof.Machine.execEncodeComplete core r s
  | .waitTimeout ticket source stage => Sys2Proof.Machine.execWaitTimeout ticket source stage s
  | .sampleDropped ticket sample => Sys2Proof.Machine.execSampleDropped ticket sample s
  | .hankAlloc ticket tag n => Sys2Proof.Machine.execHankAlloc ticket tag n s
  | .hankAllocGrant => Sys2Proof.Machine.execHankAllocGrant s
  | .hankShare h caller releaser readers => Sys2Proof.Machine.execHankShare h caller releaser readers s
  | .hankPass h caller tag => Sys2Proof.Machine.execHankPass h caller tag s
  | .hankFree h caller => Sys2Proof.Machine.execHankFree h caller s
  | .hankScrubDone h => Sys2Proof.Machine.execHankScrubDone h s
  | .hbmParityError pc => Sys2Proof.Machine.execHbmParityError pc s
  | .rowIdleClose pc bank => Sys2Proof.Machine.execRowIdleClose pc bank s
  | .patrolScrub fixed bad => Sys2Proof.Machine.execPatrolScrub fixed bad s
  | .data p f => Sys2Proof.Machine.execData p f s
  | .fetch p f => Sys2Proof.Machine.execFetch p f s
  | .idle p f => Sys2Proof.Machine.execIdle p f s
  | .nak p f => Sys2Proof.Machine.execNak p f s
  | .hello p h => Sys2Proof.Machine.execHello p h s
  | .discover p f => Sys2Proof.Machine.execDiscover p f s
  | .markerSignal p f => Sys2Proof.Machine.execMarkerSignal p f s
  | .garmentAbort p f => Sys2Proof.Machine.execGarmentAbort p f s
  | .xferAck p f => Sys2Proof.Machine.execXferAck p f s
  | .msgAck p f => Sys2Proof.Machine.execMsgAck p f s
  | .alarm p f => Sys2Proof.Machine.execAlarm p f s
  | .alarmSummary p f => Sys2Proof.Machine.execAlarmSummary p f s
  | .ringChange p f => Sys2Proof.Machine.execRingChange p f s
  | .idleSend p => Sys2Proof.Machine.execIdleSend p s
  | .frameBoundary p => Sys2Proof.Machine.execFrameBoundary p s
  | .linkFault p => Sys2Proof.Machine.execLinkFault p s
  | .xferAckTimeout xfer => Sys2Proof.Machine.execXferAckTimeout xfer s
  | .msgAckTimeout dest eseq => Sys2Proof.Machine.execMsgAckTimeout dest eseq s
  | .controlGap src => Sys2Proof.Machine.execControlGap src s
  | .discoveryRun => Sys2Proof.Machine.execDiscoveryRun s
  | .lossOfLock p => Sys2Proof.Machine.execLossOfLock p s
  | .wrap p => Sys2Proof.Machine.execWrap p s
  | .plannedSlip => Sys2Proof.Machine.execPlannedSlip s
  | .perstRelease e => Sys2Proof.Machine.execPerstRelease e s
  | .perstAssert => Sys2Proof.Machine.execPerstAssert s
  | .bar2Access fn handle offset op => Sys2Proof.Machine.execBar2Access fn handle offset op s
  | .queueEnable fn q value => Sys2Proof.Machine.execQueueEnable fn q value s
  | .queueDisable fn q value => Sys2Proof.Machine.execQueueDisable fn q value s
  | .resume fn q => Sys2Proof.Machine.execResume fn q s
  | .sqTailWrite fn q value => Sys2Proof.Machine.execSqTailWrite fn q value s
  | .cqHeadWrite fn q value => Sys2Proof.Machine.execCqHeadWrite fn q value s
  | .nop fn q entry => Sys2Proof.Machine.execNop fn q entry s
  | .frame fn q entry d pic => Sys2Proof.Machine.execFrame fn q entry d pic s
  | .sample fn q entry d pic => Sys2Proof.Machine.execSample fn q entry d pic s
  | .alloc fn q entry => Sys2Proof.Machine.execAlloc fn q entry s
  | .free fn q entry d => Sys2Proof.Machine.execFree fn q entry d s
  | .copyOut fn q entry d => Sys2Proof.Machine.execCopyOut fn q entry d s
  | .signal fn q entry => Sys2Proof.Machine.execSignal fn q entry s
  | .wait fn q entry => Sys2Proof.Machine.execWait fn q entry s
  | .hostWaitTimeout q tag => Sys2Proof.Machine.execHostWaitTimeout q tag s
  | .completionTlp tag st => Sys2Proof.Machine.execCompletionTlp tag st s
  | .completionTimeout tag => Sys2Proof.Machine.execCompletionTimeout tag s
  | .tagRelease tag => Sys2Proof.Machine.execTagRelease tag s
  | .busMasterDisable fn => Sys2Proof.Machine.execBusMasterDisable fn s
  | .busMasterEnable fn => Sys2Proof.Machine.execBusMasterEnable fn s
  | .functionLevelReset fn => Sys2Proof.Machine.execFunctionLevelReset fn s
  | .hotReset => Sys2Proof.Machine.execHotReset s
  | .vfEnableClear => Sys2Proof.Machine.execVfEnableClear s
  | .numvfsLower n => Sys2Proof.Machine.execNumvfsLower n s
  | .l1Entry => Sys2Proof.Machine.execL1Entry s
  | .d3hotEntry fn => Sys2Proof.Machine.execD3hotEntry fn s
  | .d0Return fn => Sys2Proof.Machine.execD0Return fn s
  | .pmeTurnOff => Sys2Proof.Machine.execPmeTurnOff s
  | .doeDiscovery index => Sys2Proof.Machine.execDoeDiscovery index s
  | .getVersion overSmbus arg => Sys2Proof.Machine.execGetVersion overSmbus arg s
  | .getCapabilities overSmbus arg => Sys2Proof.Machine.execGetCapabilities overSmbus arg s
  | .negotiateAlgorithms overSmbus arg => Sys2Proof.Machine.execNegotiateAlgorithms overSmbus arg s
  | .getDigests overSmbus arg => Sys2Proof.Machine.execGetDigests overSmbus arg s
  | .getCertificate overSmbus arg => Sys2Proof.Machine.execGetCertificate overSmbus arg s
  | .challenge overSmbus arg => Sys2Proof.Machine.execChallenge overSmbus arg s
  | .getMeasurements overSmbus arg => Sys2Proof.Machine.execGetMeasurements overSmbus arg s
  | .slotWrite fn img => Sys2Proof.Machine.execSlotWrite fn img s
  | .eventAck src seen => Sys2Proof.Machine.execEventAck src seen s
  | .idleHint v => Sys2Proof.Machine.execIdleHint v s
  | .evcDisable on => Sys2Proof.Machine.execEvcDisable on s
  | .moderationTimerExpire fn v => Sys2Proof.Machine.execModerationTimerExpire fn v s
  | .vectorUnmask fn v => Sys2Proof.Machine.execVectorUnmask fn v s
  | .alarmAck k rep => Sys2Proof.Machine.execAlarmAck k rep s
  | .logCopy => Sys2Proof.Machine.execLogCopy s
  | .logPersist => Sys2Proof.Machine.execLogPersist s
  | .powerSample mw mv => Sys2Proof.Machine.execPowerSample mw mv s
  | .thermalReading temps => Sys2Proof.Machine.execThermalReading temps s
  | .hushEntry => Sys2Proof.Machine.execHushEntry s
  | .dozeEntry => Sys2Proof.Machine.execDozeEntry s
  | .wake c => Sys2Proof.Machine.execWake c s
  | .trip engine context => Sys2Proof.Machine.execTrip engine context s
  | .tinkReplayEnd tripped => Sys2Proof.Machine.execTinkReplayEnd tripped s
  | .recoveryOverrun l => Sys2Proof.Machine.execRecoveryOverrun l s
  | .heartbeatTimeout all => Sys2Proof.Machine.execHeartbeatTimeout all s
  | .frog context => Sys2Proof.Machine.execFrog context s
  | .panelReset p => Sys2Proof.Machine.execPanelReset p s
  | .warmChipReset => Sys2Proof.Machine.execWarmChipReset s
  | .maintenanceStart => Sys2Proof.Machine.execMaintenanceStart s
  | .powerCycle => Sys2Proof.Machine.execPowerCycle s
  | .modRstAssert => Sys2Proof.Machine.execModRstAssert s
  | .modRstRelease e => Sys2Proof.Machine.execModRstRelease e s
  | .powerEnableRise => Sys2Proof.Machine.execPowerEnableRise s
  | .powerEnableFall => Sys2Proof.Machine.execPowerEnableFall s
  | .inputUndervoltage => Sys2Proof.Machine.execInputUndervoltage s
  | .auxUp => Sys2Proof.Machine.execAuxUp s
  | .auxLoss => Sys2Proof.Machine.execAuxLoss s
  | .strapsUnstable => Sys2Proof.Machine.execStrapsUnstable s
  | .alertResponse won => Sys2Proof.Machine.execAlertResponse won s
  | .setEndpointId eid => Sys2Proof.Machine.execSetEndpointId eid s
  | .getEndpointId => Sys2Proof.Machine.execGetEndpointId s
  | .getMctpVersionSupport => Sys2Proof.Machine.execGetMctpVersionSupport s
  | .getMessageTypeSupport => Sys2Proof.Machine.execGetMessageTypeSupport s
  | .getVendorDefinedMessageSupport selector => Sys2Proof.Machine.execGetVendorDefinedMessageSupport selector s
  | .getStatus => Sys2Proof.Machine.execGetStatus s
  | .readReg off => Sys2Proof.Machine.execReadReg off s
  | .readLog seq count => Sys2Proof.Machine.execReadLog seq count s
  | .ackAlarm k rep => Sys2Proof.Machine.execAckAlarm k rep s
  | .requestReset level => Sys2Proof.Machine.execRequestReset level s
  | .laneLocked p lanes => Sys2Proof.Machine.execLaneLocked p lanes s
  | .pcieLinkUp speed width => Sys2Proof.Machine.execPcieLinkUp speed width s
  | .vfEnableSet n => Sys2Proof.Machine.execVfEnableSet n s
  | .inputVoltageRestored => Sys2Proof.Machine.execInputVoltageRestored s
  | .hbmStackTemperature stack hot => Sys2Proof.Machine.execHbmStackTemperature stack hot s
  | .slotWriteEnd readBack => Sys2Proof.Machine.execSlotWriteEnd readBack s

end Sys2Proof.Machine
end

