-- ==== Sys2Proof/Machine/Idle.lean ====
section
/-!
DEFINITION. The tick that passes when no command waits: the time base counts while the auxiliary supply is up (R36; log 1).
-/
namespace Sys2Proof.Machine

/-- One tick of the 25 MHz time base. -/
def Chip.tick (c : Chip) : Chip :=
  { c with gauge := { c.gauge with time := if c.pins.aux then (c.gauge.time + 1) % 18446744073709551616 else c.gauge.time } }

end Sys2Proof.Machine
end

