-- ==== Sys2Proof/Safety.lean ====
section
/-!
DEFINITION. What counts as a safe run, in the terms the statements use: the invariant of the addressed memories, the property that a
step never stops, and the vocabulary of the statements about submissions and streams.
-/
namespace Sys2Proof.Safety
open Sys2Proof.Machine

/-- The addressed memories are in canonical form, so that equal memories are equal data. -/
def Inv (s : State) : Prop := Mem.wf s.mem = true

/-- A command completes on a state: its meaning answers a next state. -/
def Completes (c : Instr) (s : State) : Prop := ∃ t, exec c s = .next t

/-- A command that leaves the addressed memories as they are. -/
def KeepsMem (c : Instr) : Prop := ∀ s t, exec c s = .next t → t.mem = s.mem

/-- A state with a stream brought up to date: the last part of every command that moves a stream's work on (Machine/Vdec.lean). -/
def upToDate (ticket : Nat) (s : State) : State :=
  { s with chip := (progress ticket (s.chip, s.mem)).1, mem := (progress ticket (s.chip, s.mem)).2 }
/-- A state with several streams brought up to date, in order. -/
def allUpToDate (tickets : List Nat) (s : State) : State :=
  { s with chip := (progressAll tickets (s.chip, s.mem)).1, mem := (progressAll tickets (s.chip, s.mem)).2 }
/-- The parts of the block that the work of streams, queues and the Round does not touch: gauges and time base, rung ladder, pattern block,
management answers, tension control but for its count of shed frames, recovery but for its counters and RST_LAST, the pins but for
ALERT_N, and the keep. -/
abbrev quiet (c : Chip) : (Gauge × RungB × Pat × List SmbAnswer × Tens) × (Rst × Pins × Keep) :=
  ((c.gauge, c.rung, c.pat, c.smbus, { c.tens with shed := {} }),
   ({ c.rst with lastValid := false, lastLevel := 0, lastCause := 0, lastEngine := 0, lastCtx := 0, lastTime := 0
                 trips := {}, frogs := {}, engResets := {}, voided := {}, aborts := {} },
    { c.pins with alert := false }, c.keep))
/-- The 32-byte write that answers the entry at the head of queue `g` (Table 13.8): its place is the tail of the CQ, its SQ_HEAD the head
after the entry. -/
def answerWrite (c : Chip) (g tag status ticket bytes : Nat) : HostWrite :=
  { addr := (c.queue g).cqBase + 32 * (c.queue g).cqTail
    bytes := (answerRec tag status ticket bytes).bytes32 (((c.queue g).sqHead + 1) % (c.queue g).sqSize) (c.queue g).phase }
/-- The entry at the head of queue `g` accepted and answered: the head has moved past it, its record is at the CQ's tail, which has moved
on, no reservation is left over, and every other queue is as it was. -/
def Answered (c d : Chip) (g : Nat) : Prop :=
  (d.queue g).sqHead = ((c.queue g).sqHead + 1) % (c.queue g).sqSize ∧ (d.queue g).accepted = (c.queue g).accepted.inc ∧
  (d.queue g).cqTail = ((c.queue g).cqTail + 1) % (c.queue g).cqSize ∧ (d.queue g).cqCount = (c.queue g).cqCount + 1 ∧
  (d.queue g).reserved = (c.queue g).reserved ∧ (d.queue g).state = .running ∧ ∀ k, k ≠ g → d.queue k = c.queue k
/-- An entry that is next: its queue is one of the function's, it can be taken, its opcode is `op`, and admission is open. -/
def Next (c : Chip) (fn q op : Nat) (e : List Byte) : Prop :=
  q < queuesOf fn ∧ c.takes (globalQueue fn q) (c.needOf fn e) = true ∧ eOp e = op ∧ c.closed = false
/-- A FRAME entry that is next, of sound fields, for a live stream of the function fed over PCI Express, on the stream's own queue and
not between another stream's parts. -/
def NextFrame (c : Chip) (fn q : Nat) (e : List Byte) (k : Ticket) : Prop :=
  Next c fn q 1 e ∧ eTag e ≠ 0xFFFF ∧ frameFields e = true ∧ c.fnTicket fn (eTicket e) = some k ∧ k.closing = false ∧
  k.queue = globalQueue fn q ∧ k.srcRound = false ∧ c.intrudes (globalQueue fn q) k.id = false ∧
  (c.unitOf (globalQueue fn q) k.id).length < 4096
/-- A request of function `fn` answered with a verdict (R42, R44): BUSY gone, CAST_LAST the reason, the cast-on event pending, and the
record written where RESP_ADDR is aligned; `c` is the chip before the answer, `d` after it. -/
def CastAnswered (c d : Chip) (fn : Nat) (r : Req) (v : Verdict) : Prop :=
  (d.cast.fn fn).busy = false ∧ (d.cast.fn fn).last = v.reason ∧ (d.evc.src (castSource fn)).pending = true ∧
  d.hostTx = c.hostTx ++ (if r.resp % 32 = 0 then [{ addr := r.resp, bytes := v.bytes r.tag c.nowLo c.rnd.id }] else [])
/-- What a request's answer leaves, its record `b` of reason `reason` for address `addr` (R42, R287): the record held and the request still busy
while Bus Master Enable is 0, else BUSY gone, CAST_LAST the reason, the cast-on event pending, and the record the last write to the host,
unless its address is not aligned. -/
def Responded (d : Chip) (fn addr reason : Nat) (b : List Byte) : Prop :=
  if addr % 32 = 0 ∧ (d.pcie.fn fn).bme = false then (d.pcie.fn fn).heldResp.getLast? = some { write := { addr := addr, bytes := b }, reason := reason }
  else (d.cast.fn fn).busy = false ∧ (d.cast.fn fn).last = reason ∧ (fn ≤ 16 → (d.evc.src (castSource fn)).pending = true) ∧
    (addr % 32 = 0 → d.hostTx.getLast? = some { addr := addr, bytes := b })
/-- A state in which a request was decided: the requests behind it are taken in their turn (R45). -/
def decided (s : State) : State := { s with chip := s.chip.nextAsk }
/-- A numbered Control message to module `k` that waits for its MSG_ACK on chip `d` (R258): its number is the one that was next on `c`. -/
def Sent (c d : Chip) (k code ticket garment : Nat) (b : List Byte) : Prop :=
  ((c.rnd.eseqOf k).nextOut, newFrame d.rnd.id 2 .control k ticket 0 (c.rnd.eseqOf k).nextOut 0 garment false false (ctlPayload code b), d.now) ∈
    (d.rnd.eseqOf k).unacked
/-- A state in which the read that ended was the next request's: the requests behind it are taken in their turn (R45). -/
def asked (p : ReadFor) (s : State) : State :=
  match p with | .castDescriptor _ => { s with chip := s.chip.nextAsk } | _ => s
/-- A Control frame of a code taken in at a port as the next message of its sender, with no later one held (R258). -/
def Arrives (c : Chip) (p : Port) (f : RFrame) (code : Nat) : Prop :=
  f.type = 2 ∧ ctlCode f = code ∧ (c.rnd.receive p f).2 = true ∧ c.rst.fenced = false ∧ f.offset = (c.rnd.eseqOf f.src).nextIn ∧
  (c.rnd.eseqOf f.src).held = []
/-- The chip on which such a message acts: the frame taken in, acknowledged, its number used. -/
def takenIn (c : Chip) (p : Port) (f : RFrame) : Chip :=
  (Chip.ackFrame { c with rnd := (c.rnd.receive p f).1 } f 0x0009 f.offset).updEseq f.src Eseq.step
/-- The end of every numbered message: the gap's clock set (R258). -/
def controlEnd (src : Nat) (s : State) : State := { s with chip := s.chip.updEseq src (fun q => q.watch s.chip.now true) }
/-- A state whose reservations follow the routes and whose broken garments are aborted (R266, R363). -/
def settled (s : State) : State := { s with chip := (settleRoutes (s.chip, s.mem)).1, mem := (settleRoutes (s.chip, s.mem)).2 }
/-- A garment aborted for a cause, where the transfer or message that failed was one of a garment (R257, R258, R363). -/
def failed (garment cause : Nat) (s : State) : State :=
  { s with chip := (failFor garment cause (s.chip, s.mem)).1, mem := (failFor garment cause (s.chip, s.mem)).2 }
/-- The order of a peer's messages taken up again at number `n`, with the held ones that then follow on (R258; log 61). -/
def resumed (src n count : Nat) (s : State) : State :=
  let x := (s.chip.updEseq src (fun q => { q with nextIn := n }), s.mem)
  { s with chip := (drainHeld src count x).1, mem := (drainHeld src count x).2 }
/-- A state after the count of a needle's column faults has been looked at: the 16th in a row resets the chip (R346). -/
def columnLimited (n : Nat) (s : State) : State :=
  { s with chip := (columnLimit n (s.chip, s.mem)).1, mem := (columnLimit n (s.chip, s.mem)).2 }
/-- A state brought up to date for the ticket of a context, or for the needles alone where the context has none. -/
def contextUpToDate (k : Option Ticket) (s : State) : State :=
  match k with | some t => upToDate t.id s | none => { s with chip := s.chip.pumpAll s.mem }
/-- What a full start leaves (R300, R302, R305; steps 6 to 9 of Table 14.9): with a slot that passes, its image is applied, its policy is
in force, its local segments stand at their homes and admission is open; with none, the module is in maintenance start with admission
closed and the slip closed. `c` is the chip before. -/
def Started (c : Chip) (t : State) : Prop :=
  let j := judgeSlots c.pat.romRev c.pat.flashA c.pat.flashB
  t.chip.pat.resA = j.resA ∧ t.chip.pat.resB = j.resB ∧ t.chip.pat.checkA = j.checkA ∧ t.chip.pat.checkB = j.checkB ∧
  t.chip.pat.flashA = c.pat.flashA ∧ t.chip.pat.flashB = c.pat.flashB ∧ t.chip.pat.recovery = c.pat.recovery ∧
  t.chip.cast.tickets = [] ∧ t.chip.gauge.running = true ∧
  (j.slotB = none → t.mem = [] ∧ t.chip.cast.closed = true ∧ t.chip.rnd.slipped = true ∧ t.chip.pat.maintCause = 1 ∧
    t.chip.pat.mode = (if (c.pat.recovery.full c.pat.romRev).1 = 0 then .maintRecovery else .maintRom)) ∧
  (∀ b i, j.slotB = some b → (if b then c.pat.flashB else c.pat.flashA).image = some i →
    t.mem = loadSegments i.pattern [] ∧ t.chip.cast.closed = false ∧ t.chip.pat.mode = .applied ∧ t.chip.pat.slotB = b ∧
    t.chip.pat.fallback = j.fallback ∧ t.chip.pat.version = i.version ∧ t.chip.pat.digest = i.digest ∧ t.chip.pat.pattern = some i.pattern ∧
    t.chip.gauge.floor = i.pattern.policy.floor ∧ t.chip.gauge.vmin = i.pattern.policy.vmin ∧ t.chip.gauge.rowLen = i.pattern.policy.rowTicks ∧
    t.chip.gauge.firstRow = true ∧ t.chip.hank.ready = true ∧ t.chip.hank.sharedMin = i.pattern.policy.sharedMin ∧ t.chip.tens.cap = i.pattern.policy.cap)
/-- A chip that a warm reset brings back with the image staged (R304, R357): applied, not waiting for the tray, fewer than two warm resets
within 60 s, the staged image as it was applied. -/
def WarmReady (c : Chip) (i : Image) : Prop :=
  c.rst.trayReq = false ∧ c.pat.mode = .applied ∧ c.recentWarm.length < 2 ∧ c.pat.staged = some i ∧ i.digest = c.pat.stagedDigest
/-- What a warm chip reset leaves (Table 17.4): fence gone, admission open, the staged pattern's policy in force, its alarm raised, and the
time base, the flash and the pins but ALERT_N as they were. -/
def WarmDone (c d : Chip) (i : Image) : Prop :=
  d.rst.fenced = false ∧ d.rst.trayReq = false ∧ d.cast.closed = false ∧ (d.log.slot 34).first.isSome = true ∧
  d.gauge.floor = i.pattern.policy.floor ∧ d.gauge.time = c.gauge.time ∧ d.pat.flashA = c.pat.flashA ∧ d.pat.flashB = c.pat.flashB ∧
  d.pat.mode = .applied ∧ d.rst.warmCount = min 65535 (c.rst.warmCount + 1)
/-- A chip that has requested a power cycle (Table 17.5): fenced, TRAY_REQ_N asserted, alarm 35 raised, gauges and pattern as they were. -/
def TrayAsked (c d : Chip) : Prop :=
  d.rst.trayReq = true ∧ d.rst.fenced = true ∧ (d.log.slot 35).first.isSome = true ∧ d.gauge = c.gauge ∧ d.pat = c.pat
/-- A panel just reset, before its streams are brought up to date (R356): recorded, its alarm raised, no tink in progress, its buckets full
and nothing waiting at its regulators. -/
def PanelWasReset (c d : Chip) (p cause engine : Nat) : Prop :=
  d.rst.lastValid = true ∧ d.rst.lastLevel = 3 ∧ d.rst.lastCause = cause ∧ d.rst.lastEngine = engine ∧ d.rst.tink = none ∧
  (d.log.slot 33).first.isSome = true ∧ (d.panel p).waiting = [] ∧
  (d.panel p).gBucket = (d.panel p).gRate.map (fun r => ((refillBytes r d.gauge.rowLen : Nat) : Int)) ∧ d.gauge = c.gauge ∧ d.pat = c.pat

end Sys2Proof.Safety
end

