-- ==== Sys2Proof/Certificates/Slice0/Obligations.lean ====
section
/-!
DEFINITION. The statements about the block. Each docstring names the rules of the spec it rests on; where a clause is the model's own
choice it names the log entry.
-/
open Sys2Proof Sys2Proof.Machine

/-! ### The queue, reset and registers -/

/-- The command at the front of the queue is the one a step runs, on the state with the queue's rest; with no command waiting
one tick passes while the auxiliary supply is up (log 1: the model's own queue and tick). -/
def Obligations.StepRunsFrontCommand : Prop :=
  (∀ (s : State) (c : Instr) (rest : List Instr), s.pending = c :: rest → step s = exec c { s with pending := rest }) ∧
  (∀ s : State, s.pending = [] → step s = .next { s with chip := { s.chip with gauge := { s.chip.gauge with
    time := if s.chip.pins.aux then (s.chip.gauge.time + 1) % 2 ^ 64 else s.chip.gauge.time } } })

/-- Every command ends in a next state and leaves the commands behind it as they wait (log 1). -/
def Obligations.CommandsKeepTheQueue : Prop :=
  ∀ (c : Instr) (s : State), ∃ t, exec c s = .next t ∧ t.pending = s.pending

/-- The reset state: memory in form with nothing listed, no command waiting, no ticket live, no hank out of the pool, every queue
disabled, every source quiet, the ring open. -/
def Obligations.ResetStateIsClean : Prop :=
  Safety.Inv State.reset ∧ State.reset.mem = [] ∧ State.reset.pending = [] ∧ State.reset.chip.cast.tickets = [] ∧
  State.reset.chip.hank.recs = [] ∧ (∀ q, (State.reset.chip.queue q).state = .disabled) ∧
  (∀ k, (State.reset.chip.evc.src k).pending = false) ∧ (∀ k, State.reset.chip.rnd.reachable k = false) ∧
  State.reset.chip.gar = false

/-- "At reset" values that the register tables state, as the PF would read them: GAUGE_FLOOR, GAUGE_VCORE, GAUGE_MIN, GAUGE_MIN_SNAP,
GAUGE_ROW_LEN, TENS_CAP, TENS_RATE, Q_CTRL of queue 0, CAST_STATUS, NDL_STATUS, NDL_ACC and NDL_ISSUE_RATE of needle 0, RND_STATUS,
RUNG_REQ, RUNG_IDLE, PAT_WR_STATUS and LOG_SRC of source 0. -/
def Obligations.ResetRegisterValues : Prop :=
  let c := State.reset.chip
  c.regAt 0x10004 = some (600 * 65536 + 1800) ∧ c.regAt 0x10008 = some 800 ∧ c.regAt 0x1000C = some 0xFFF ∧
  c.regAt 0x10010 = some 0xFFF ∧ c.regAt 0x10040 = some 25000 ∧ c.regAt 0x18004 = some 3000 ∧
  c.regAt 0x1800C = some (64 * 65536 + 64 * 256 + 64) ∧ c.regAt 0x40010 = some (4 * 2 ^ 20 + 4 * 2 ^ 16) ∧ c.regAt 0x80000 = some 2 ∧
  c.regAt 0x301000 = some (3 * 2 ^ 30) ∧ c.regAt 0x301008 = some 8 ∧ c.regAt 0x301054 = some 64 ∧ c.regAt 0x600000 = some 4 ∧
  c.regAt 0x800004 = some 2 ∧ c.regAt 0x800008 = some (4 * 65536 + 5) ∧ c.regAt 0x4030 = some 15 ∧ c.regAt 0x1004000 = some 32

/-- R4: a read of an address without a register returns 0, through the PF's BAR0 and through a VF's slice; a narrower write, and a write where no
register is, change nothing but the incident log, its event and the link's power state; a narrower read returns the addressed bytes of
the word. The MSI-X table and PBA follow R385 and the log's windows R384 instead. -/
def Obligations.AccessesWithoutARegister : Prop :=
  (∀ (c : Chip) (a : Nat), a % 4 = 0 → ¬ (0x30000 ≤ a ∧ a < 0x38100) → logWindow a = false → c.regAt a = none → c.bar0Read 0 a 4 = some 0) ∧
  (∀ (c : Chip) (fn a : Nat), fn ≠ 0 → a % 4 = 0 → ¬ (0xC000 ≤ a ∧ a < 0xC400) → ¬ (0xD000 ≤ a ∧ a < 0xD008) → c.sliceReg fn a = none →
    c.bar0Read fn a 4 = some 0) ∧
  (∀ (c : Chip) (fn a off n v : Nat), a % 4 = 0 → n ≠ 0 → off + n ≤ 4 → c.bar0Read fn a 4 = some v →
    c.bar0Read fn (a + off) n = some (v / 2 ^ (8 * off) % 2 ^ (8 * n))) ∧
  (∀ (s : State) (a size value : Nat), s.chip.reachableFn 0 = true → size ≠ 0 → a % 4 + size ≤ 4 → a < 0x2000000 →
    ¬ (0x30000 ≤ a ∧ a < 0x38100) → (size ≠ 4 ∨ logWindow a = true ∨ s.chip.regAt a = none) →
    exec (.registerWrite 0 a size value) s = .next { s with chip := s.chip.tlp.incident .regDiscard 278 none 0 0 a }) ∧
  (∀ (s : State) (fn a size value : Nat), fn ≠ 0 → s.chip.reachableFn fn = true → size ≠ 0 → a % 4 + size ≤ 4 → a < 0x10000 →
    ¬ (0xC000 ≤ a ∧ a < 0xC400) → ¬ (0xD000 ≤ a ∧ a < 0xD008) → (size ≠ 4 ∨ s.chip.sliceReg fn a = none) →
    exec (.registerWrite fn a size value) s = .next { s with chip := s.chip.tlp.incident .regDiscard 278 none 0 0 a })

/-- RW registers through REGISTER_WRITE: a queue's base registers take a value while the queue is disabled and keep it while it is
enabled (R276), CAST_REQ_LO and CAST_REQ_HI take the descriptor's address, RUNG_REQ the limit but for the reserved code,
LOG_APERTURE its bits; nothing else changes but the link's power state. -/
def Obligations.RegisterWritesStoreTheirFields : Prop :=
  ∀ (s : State) (v : Nat), s.chip.reachableFn 0 = true → s.chip.onlyBasic = false → v < 2 ^ 32 →
    exec (.registerWrite 0 0x80004 4 v) s = .next { s with chip := { s.chip.tlp with
      cast := s.chip.cast.updFn 0 (fun x => { x with reqLo := BitVec.ofNat 32 (v - v % 64) }) } } ∧
    exec (.registerWrite 0 0x80008 4 v) s = .next { s with chip := { s.chip.tlp with
      cast := s.chip.cast.updFn 0 (fun x => { x with reqHi := BitVec.ofNat 32 v }) } } ∧
    exec (.registerWrite 0 0x800004 4 v) s = .next { s with chip := { s.chip.tlp with
      rung := { s.chip.rung with limit := if v % 4 = 3 then s.chip.rung.limit else v % 4 } } } ∧
    exec (.registerWrite 0 0x1000018 4 v) s = .next { s with chip := { s.chip.tlp with
      log := { s.chip.log with aperture := BitVec.ofNat 32 (v % 2 + v / 256 % 2 * 256) } } } ∧
    (∀ q, q < 128 → ∃ t, exec (.registerWrite 0 (0x40000 + 0x400 * q + 8) 4 v) s = .next t ∧
      t = { s with chip := { s.chip.tlp with queues := t.chip.queues } } ∧ (∀ k, k ≠ q → t.chip.queue k = s.chip.queue k) ∧
      (let x := s.chip.queue q
       t.chip.queue q = if x.enable then x else { x with cqBase := v - v % 4096 + 2 ^ 32 * (x.cqBase / 2 ^ 32) }))

/-! ### Gauge, voltage loop, time base -/

/-- R25, R27, R28: at a window's end every live loop's count is scaled to its reading, unless the reading is implausible: it is then
rejected, the sixteenth time in a row retires the loop, which reads 0; a retired loop keeps its record, and in Doze the loops outside
the regions that stay on do. The row minimum never lies above a reading taken. Only the gauge, the log and the event of an ERROR record
change.
R31: outside Doze, a window in which a live loop reads a plausible value below floor × 1.04 raises VCORE by 20 mV, at most to
900 mV, unless a fast step was made within the last 50 µs; the step is counted and holds further ones off for 50 µs. -/
def Obligations.WindowEndReadsAndSteps : Prop :=
  (
    ∀ (s : State) (counts : List Nat), s.chip.gauge.running = true →
      ∃ t, exec (.gaugeWindowEnd counts) s = .next t ∧
        t = { s with chip := { s.chip with gauge := t.chip.gauge, log := t.chip.log, evc := t.chip.evc } } ∧
        t.chip.gauge.windowStart = s.chip.gauge.windowStart + 250 ∧
        (∀ k, counts.length ≤ k → t.chip.gauge.loop k = s.chip.gauge.loop k) ∧
        (∀ k, (hk : k < counts.length) →
          let x := s.chip.gauge.loop k
          let r := counts[k] * x.calNum / x.calDen
          if x.retired = true ∨ (s.chip.rung.rung = .doze ∧ loopRegion k < 3) then t.chip.gauge.loop k = x
          else if r < 500 ∨ 3000 < r then
            t.chip.gauge.loop k = { x with rejected := x.rejected + 1, retired := decide (16 ≤ x.rejected + 1),
                                           reading := if 16 ≤ x.rejected + 1 then 0 else x.reading }
          else t.chip.gauge.loop k = { x with reading := r, rejected := 0 } ∧ t.chip.gauge.minPace ≤ r) ∧
        t.chip.gauge.minPace ≤ s.chip.gauge.minPace) ∧
  (
    ∀ (s : State) (counts : List Nat) (k : Nat) (hk : k < counts.length), s.chip.gauge.running = true → s.chip.rung.rung ≠ .doze →
      (s.chip.gauge.loop k).retired = false → s.chip.gauge.fastHold = none →
      (let r := counts[k] * (s.chip.gauge.loop k).calNum / (s.chip.gauge.loop k).calDen
       500 ≤ r ∧ r ≤ 3000 ∧ r * 100 < s.chip.gauge.floor * 104) →
      ∃ t, exec (.gaugeWindowEnd counts) s = .next t ∧ t.chip.gauge.vcore2 = min (s.chip.gauge.vcore2 + 40) 1800 ∧
        t.chip.gauge.fastHold = some (t.chip.gauge.time + 1250) ∧ t.chip.gauge.fast = s.chip.gauge.fast.inc)

/-- R37: GAUGE_TIME_LO reads the lower half of the time base, and reading it latches the upper half, which GAUGE_TIME_HI shows until the next
such read, so that LO and then HI give one value. The two timers of R31: the fast-step hold ends at its time; the regulator has settled on
the setpoint at its time. Nothing else changes. -/
def Obligations.GaugeTimersAndLatch : Prop :=
  (∀ c : Chip, c.regAt 0x10030 = some (c.gauge.time % 2 ^ 32) ∧ c.regAt 0x10034 = some c.gauge.timeHi) ∧
  (∀ s : State, exec .gaugeTimeLoRead s = .next { s with chip := { s.chip with gauge := { s.chip.gauge with
    timeHi := s.chip.gauge.time / 2 ^ 32 } } }) ∧
  (∀ (s : State) (d : Nat), s.chip.gauge.fastHold = some d → s.chip.gauge.time ≤ d → d < 2 ^ 64 →
    exec .fastHoldExpire s = .next { s with chip := { s.chip with gauge := { s.chip.gauge with time := d, fastHold := none } } }) ∧
  (∀ (s : State) (d : Nat), s.chip.gauge.settleAt = some d → s.chip.gauge.time ≤ d → d < 2 ^ 64 →
    exec .vcoreSettled s = .next { s with chip := { s.chip with gauge := { s.chip.gauge with
      time := d, settled2 := s.chip.gauge.vcore2, settleAt := none } } })

/-- R30 and R35: a provisional row boundary moves VCORE by the rule of R30 on the live row minimum (VCORE in half millivolts), restarts
GAUGE_MIN, and advances no row number and latches no snapshot; only the gauge changes. -/
def Obligations.ProvisionalRowSteps : Prop :=
  ∀ s : State, s.chip.gauge.running = true → s.chip.gauge.provisional = true →
    ∃ t, exec .provisionalRowBoundary s = .next t ∧ t = { s with chip := { s.chip with gauge := t.chip.gauge } } ∧
      t.chip.gauge.rowStart = s.chip.gauge.rowStart + 25000 ∧ t.chip.gauge.rowNum = s.chip.gauge.rowNum ∧
      t.chip.gauge.minPaceSnap = s.chip.gauge.minPaceSnap ∧ t.chip.gauge.minPace = 0xFFF ∧ t.chip.gauge.minLoop = 0 ∧
      (let g := s.chip.gauge
       if g.minPace * 100 < g.floor * 108 then t.chip.gauge.vcore2 = min (g.vcore2 + 10) 1800 ∧ t.chip.gauge.calmRows = 0
       else if g.floor * 112 ≤ g.minPace * 100 then
         (if 8 ≤ g.calmRows + 1 then t.chip.gauge.vcore2 = max (g.vcore2 - 5) (2 * g.vmin) ∧ t.chip.gauge.calmRows = 0
          else t.chip.gauge.vcore2 = g.vcore2 ∧ t.chip.gauge.calmRows = g.calmRows + 1)
       else t.chip.gauge.vcore2 = g.vcore2 ∧ t.chip.gauge.calmRows = 0)

/-- R32, R35, R38: without the margin within 64 rows the voltage hold is set; a crystal failure sets CRYSTAL_FAIL and the crystal hold;
guarantee at risk stands then, and only the gauge, the alarm's records and messages, and ALERT_N change. -/
def Obligations.GuaranteeHoldsAreSet : Prop :=
  (∀ s : State, s.chip.gauge.marginMet = false → 64 ≤ s.chip.gauge.startRows →
    ∃ t, exec .marginTimeout s = .next t ∧ t.chip.gauge = { s.chip.gauge with holdVoltage := true, goodRows := 0 } ∧
      t.chip.gar = true ∧ t = { s with chip := { s.chip with gauge := t.chip.gauge, log := t.chip.log, evc := t.chip.evc,
                                                             rnd := t.chip.rnd, pins := t.chip.pins } }) ∧
  (∀ s : State, ∃ t, exec .crystalFail s = .next t ∧
      t.chip.gauge = { s.chip.gauge with crystalFail := true, holdCrystal := true } ∧ t.chip.gar = true ∧
      (s.chip.gauge.crystalFail = false → (t.chip.log.slot 0).first.isSome = true ∧ t.chip.pins.alert = true) ∧
      t = { s with chip := { s.chip with gauge := t.chip.gauge, log := t.chip.log, evc := t.chip.evc,
                                         rnd := t.chip.rnd, pins := t.chip.pins } })

/-- R8, R30, R36: a row boundary latches the row's minimum and mean, counts the row, restarts GAUGE_MIN and moves VCORE by R30 on the
minimum just latched, but not in Doze; it happens a row after the one before, the first at step 8. -/
def Obligations.RowBoundaryLatchesAndSteps : Prop :=
  ∀ (s : State) (e : RowEnv), s.chip.gauge.running = true → s.chip.gauge.provisional = false → s.chip.rung.rung ≠ .doze →
    ∃ t, exec (.rowBoundary e) s = .next t ∧ t.chip.gauge.minPaceSnap = s.chip.gauge.minPace ∧
      t.chip.gauge.minLoopSnap = s.chip.gauge.minLoop ∧ t.chip.gauge.minPace = 0xFFF ∧ t.chip.gauge.snapRow = s.chip.gauge.rowNum ∧
      t.chip.gauge.fast = s.chip.gauge.fast.latch ∧ t.chip.gauge.below = s.chip.gauge.below.latch ∧
      t.chip.gauge.rowNum = (s.chip.gauge.rowNum + 1) % 2 ^ 32 ∧
      (s.chip.gauge.firstRow = false → t.chip.gauge.rowStart = s.chip.gauge.rowStart + s.chip.gauge.rowLen) ∧
      (let g := s.chip.gauge
       if g.minPace * 100 < g.floor * 108 then t.chip.gauge.vcore2 = min (g.vcore2 + 10) 1800
       else if g.floor * 112 ≤ g.minPace * 100 ∧ 8 ≤ g.calmRows + 1 then t.chip.gauge.vcore2 = max (g.vcore2 - 5) (2 * g.vmin)
       else t.chip.gauge.vcore2 = g.vcore2)
/-! ### Events and the log -/

/-- R310, R312: an edge on a reserved source changes nothing; on a source that is pending it only counts, up to 255 and then SAT; on
another it sets PENDING with COUNT 0; no other source's record changes. So after n edges on a clear source PENDING stands, COUNT + 1 is n up to
256 edges, and SAT tells of more. -/
def Obligations.EdgesCount : Prop :=
  ∀ (e : Evc) (p : Pcie) (now k : Nat),
    (reservedSource k = true → Evc.edge p now k e = e) ∧
    (reservedSource k = false → (e.src k).pending = true →
      ((Evc.edge p now k e).src k) = { e.src k with count := min 255 ((e.src k).count + 1), sat := (e.src k).sat || (e.src k).count == 255 } ∧
      (Evc.edge p now k e).msgs = e.msgs ∧ (Evc.edge p now k e).holder = e.holder) ∧
    (reservedSource k = false → (e.src k).pending = false →
      ((Evc.edge p now k e).src k).pending = true ∧ ((Evc.edge p now k e).src k).count = 0) ∧
    (∀ j, j ≠ k → (Evc.edge p now k e).src j = e.src j) ∧
    (∀ n, 1 ≤ n → reservedSource k = false → (e.src k).pending = false → (e.src k).sat = false →
      let x := ((List.replicate n k).foldl (fun d j => Evc.edge p now j d) e).src k
      x.pending = true ∧ x.count = min 255 (n - 1) ∧ x.sat = decide (256 < n))

/-- R313, R314, R315: the five cases of a write of EVC_ACK: a QUEUE or CAST source and one that is not pending ignore it, a SEEN above
COUNT is only logged, SEEN = COUNT clears the source and restores its log budget, a smaller SEEN counts down and requests delivery
again, from a host vector or a holder core. An edge applied after the acknowledgement is not lost. -/
def Obligations.EventAckCases : Prop :=
  ∀ (s : State) (k seen : Nat), k < 1024 → seen < 256 →
    let x := s.chip.evc.src k
    (k < 273 ∨ x.pending = false → exec (.eventAck k seen) s = .next s) ∧
    (273 ≤ k → x.pending = true → x.count < seen →
      exec (.eventAck k seen) s = .next { s with chip := s.chip.incident .ackIgnored 278 none 0 0 (0x22000 + 4 * k) }) ∧
    (273 ≤ k → x.pending = true → seen = x.count → ∃ t, exec (.eventAck k seen) s = .next t ∧
      t = { s with chip := { s.chip with evc := t.chip.evc, log := t.chip.log } } ∧
      t.chip.evc.src k = { x with pending := false, count := 0, sat := false } ∧ (∀ j, j ≠ k → t.chip.evc.src j = s.chip.evc.src j) ∧
      t.chip.evc.vecs = s.chip.evc.vecs ∧ t.chip.evc.msgs = s.chip.evc.msgs ∧ (t.chip.log.src k).budget = 32 ∧
      (reservedSource k = false → let y := (Evc.edge t.chip.pcie t.chip.now k t.chip.evc).src k
                                  y.pending = true ∧ y.count = 0)) ∧
    (273 ≤ k → x.pending = true → seen < x.count → ∃ t, exec (.eventAck k seen) s = .next t ∧
      t = { s with chip := { s.chip with evc := t.chip.evc } } ∧
      t.chip.evc.src k = { x with count := x.count - seen - 1 } ∧ (∀ j, j ≠ k → t.chip.evc.src j = s.chip.evc.src j) ∧
      (∀ fn v, s.chip.evc.route k = (1, fn, v) → (t.chip.evc.vec fn v).req = true ∨ t.chip.evc.msgs = (fn, v) :: s.chip.evc.msgs) ∧
      (∀ fn v, s.chip.evc.route k = (2, fn, v) → t.chip.evc.holder = (v % 4, k) :: s.chip.evc.holder) ∧
      (reservedSource k = false → let y := (Evc.edge t.chip.pcie t.chip.now k t.chip.evc).src k
                                  y.pending = true ∧ y.count = min 255 (x.count - seen)))

/-- R316 to R318: a vector's hint, timer and mask. EVC_IDLE sets the hint, and a request that may leave leaves at once; a timer that runs
out lets a held request leave; an unmasked vector of an enabled function (log 57) lets go what it held. A message clears REQ and the
hint and is recorded; nothing else changes but the time of the timer's end and the function's MSI-X bits.
R319: while EVC_CTRL.DISABLE stands no message leaves; when it returns to 0 each vector with REQ that R316 lets go sends its message,
and every other vector stays as it is. -/
def Obligations.VectorsSendOrHoldMessages : Prop :=
  (
    (∀ (s : State) (v : Nat), v < 2048 → ∃ t, exec (.idleHint v) s = .next t ∧ t = { s with chip := { s.chip with evc := t.chip.evc } } ∧
      t.chip.evc.srcs = s.chip.evc.srcs ∧
      (let x := s.chip.evc.vec 0 v
       let f := s.chip.pcie.fn 0
       if x.req = true ∧ s.chip.evc.disable = false ∧ f.msixEnable = true ∧ f.funcMask = false ∧ x.masked = false ∧ f.bme = true then
         (t.chip.evc.vec 0 v).req = false ∧ (t.chip.evc.vec 0 v).idle = false ∧ t.chip.evc.msgs = (0, v) :: s.chip.evc.msgs
       else t.chip.evc.vec 0 v = { x with idle := true } ∧ t.chip.evc.msgs = s.chip.evc.msgs)) ∧
    (∀ (s : State) (fn v d : Nat), (s.chip.evc.vec fn v).timer = some d → s.chip.gauge.time ≤ d → d < 2 ^ 64 →
      ∃ t, exec (.moderationTimerExpire fn v) s = .next t ∧
        t = { s with chip := { s.chip with evc := t.chip.evc, gauge := { s.chip.gauge with time := d } } } ∧
        t.chip.evc.srcs = s.chip.evc.srcs ∧
        (let x := s.chip.evc.vec fn v
         let f := s.chip.pcie.fn fn
         if x.req = true ∧ s.chip.evc.disable = false ∧ f.msixEnable = true ∧ f.funcMask = false ∧ x.masked = false ∧ f.bme = true then
           (t.chip.evc.vec fn v).req = false ∧ t.chip.evc.msgs = (fn, v) :: s.chip.evc.msgs ∧
           (t.chip.evc.vec fn v).timer = (let us := if fn = 0 then x.modUs else s.chip.evc.vfMod
                                          if us = 0 then none else some (d + 25 * us))
         else t.chip.evc.vec fn v = { x with timer := none } ∧ t.chip.evc.msgs = s.chip.evc.msgs)) ∧
    (∀ (s : State) (fn v : Nat), v < 2048 → ∃ t, exec (.vectorUnmask fn v) s = .next t ∧
        t = { s with chip := { s.chip with evc := t.chip.evc, pcie := t.chip.pcie } } ∧ t.chip.evc.srcs = s.chip.evc.srcs ∧
        (t.chip.pcie.fn fn).msixEnable = true ∧ (t.chip.pcie.fn fn).funcMask = false ∧ (t.chip.evc.vec fn v).masked = false ∧
        (let x := s.chip.evc.vec fn v
         x.req = true → s.chip.evc.disable = false → (s.chip.pcie.fn fn).bme = true → x.timing s.chip.gauge.time = false ∨ x.idle = true →
         (t.chip.evc.vec fn v).req = false ∧ (fn, v) ∈ t.chip.evc.msgs))) ∧
  (
    (∀ s : State, exec (.evcDisable true) s = .next { s with chip := { s.chip with evc := { s.chip.evc with disable := true } } }) ∧
    (∀ s : State, ∃ t, exec (.evcDisable false) s = .next t ∧ t = { s with chip := { s.chip with evc := t.chip.evc } } ∧
      t.chip.evc.disable = false ∧ t.chip.evc.srcs = s.chip.evc.srcs ∧
      ∀ fn v, v < 2048 →
        let x := s.chip.evc.vec fn v
        let f := s.chip.pcie.fn fn
        if x.req = true ∧ (x.timing s.chip.gauge.time = false ∨ x.idle = true) ∧ f.msixEnable = true ∧ f.funcMask = false ∧
           x.masked = false ∧ f.bme = true then (t.chip.evc.vec fn v).req = false ∧ (fn, v) ∈ t.chip.evc.msgs
        else t.chip.evc.vec fn v = x))

/-- R324 with the rules of R313: LOG_ALARM_ACK of a free slot is ignored, a REPEAT above the slot's is only logged under REG_ACCESS, an
equal one frees the slot, a smaller one counts down; no other slot changes. -/
def Obligations.AlarmAckCases : Prop :=
  ∀ (s : State) (k rep : Nat), k < 64 → rep < 256 →
    let x := s.chip.log.slot k
    (x.first.isSome = true → x.rep < rep →
      exec (.alarmAck k rep) s = .next { s with chip := s.chip.incident .ackIgnored 278 none 0 0 (0x1002000 + 4 * k) }) ∧
    (¬ (x.first.isSome = true ∧ x.rep < rep) → ∃ t, exec (.alarmAck k rep) s = .next t ∧
      t = { s with chip := { s.chip with log := { s.chip.log with alarms := t.chip.log.alarms } } } ∧
      (∀ j, j ≠ k → t.chip.log.slot j = s.chip.log.slot j) ∧
      (x.first.isSome = false → t.chip.log.slot k = x) ∧
      (x.first.isSome = true → rep = x.rep → t.chip.log.slot k = {}) ∧
      (x.first.isSome = true → rep < x.rep → t.chip.log.slot k = { x with rep := x.rep - rep - 1 }))

/-- R321, R322, R324: an alarm enters the log and its slot: an empty slot takes its record, an occupied one counts the repeat; a record of
a source with budget left is kept while the on-chip tier has room and takes one of the budget, else it is counted as suppressed; ALERT_N
is asserted. -/
def Obligations.AlarmsAndBudgets : Prop :=
  (∀ (c : Chip) (e : Bool) (i : Incident) (k src : Nat) (ctx : Option Nat) (ticket hi arg : Nat),
    (c.alarm e i k src ctx ticket hi arg).pins.alert = true ∧
    (∀ j, j ≠ k → (c.alarm e i k src ctx ticket hi arg).log.slot j = c.log.slot j) ∧
    ((c.log.slot k).first = none → ∃ r, (c.alarm e i k src ctx ticket hi arg).log.slot k = { first := some r, lastTime := c.gauge.time, rep := 0, sat := false } ∧
      r.alarm = k ∧ r.severity = 3 ∧ r.source = src ∧ r.time = c.gauge.time ∧
      (c.log.keeps src = true → r.seq = (c.alarm e i k src ctx ticket hi arg).log.seq)) ∧
    ((c.log.slot k).first.isSome = true → (c.alarm e i k src ctx ticket hi arg).log.slot k =
      { c.log.slot k with lastTime := c.gauge.time, rep := min 255 ((c.log.slot k).rep + 1), sat := (c.log.slot k).sat || (c.log.slot k).rep == 255 })) ∧
  (∀ (l : Log) (r : LogRec),
    ((l.src r.source).budget = 0 → (l.add r).chip = l.chip ∧ (l.add r).lost = min 4294967295 (l.lost + 1) ∧
      ((l.add r).src r.source).suppressed = min 65535 ((l.src r.source).suppressed + 1)) ∧
    (0 < (l.src r.source).budget → 8192 ≤ l.toCopy.length → (l.add r).chip = l.chip ∧ (l.add r).lost = min 4294967295 (l.lost + 1) ∧
      (l.add r).src r.source = l.src r.source) ∧
    (0 < (l.src r.source).budget → l.toCopy.length < 8192 → l.chip.length < 8192 →
      (∃ q, (l.add r).chip = q :: l.chip ∧ q = { r with seq := q.seq } ∧ (l.add r).toCopy = l.toCopy ++ [q]) ∧
      ((l.add r).src r.source).budget = (l.src r.source).budget - 1))

/-- R321: the on-chip backlog goes to the HBM tier, newest record first, once HBM is ready; a page of at most 8 waiting records is
programmed into the persistent tier unless a slot write defers it. Nothing else changes. -/
def Obligations.LogTiersFill : Prop :=
  (∀ s : State, s.chip.log.hbmReady = true → s.chip.log.toCopy.length + s.chip.log.hbm.length ≤ 524288 →
    exec .logCopy s = .next { s with chip := { s.chip with log := { s.chip.log with
      hbm := s.chip.log.toCopy.reverse ++ s.chip.log.hbm, headHbm := (s.chip.log.headHbm + s.chip.log.toCopy.length) % 524288, toCopy := [] } } }) ∧
  (∀ s : State, s.chip.log.hbmReady = false → exec .logCopy s = .next s) ∧
  (∀ s : State, s.chip.log.persDefer = true → exec .logPersist s = .next s) ∧
  (∀ s : State, s.chip.log.persDefer = false → s.chip.log.pers.length + 8 ≤ 524288 → ∃ t, exec .logPersist s = .next t ∧
    t = { s with chip := { s.chip with log := { s.chip.log with
      pers := t.chip.log.pers, headPers := t.chip.log.headPers, toPersist := s.chip.log.toPersist.drop 8 } } } ∧
    t.chip.log.pers = (s.chip.log.toPersist.take 8).reverse ++ s.chip.log.pers)

/-! ### Tension, temperature, rungs -/

/-- R326, R327, R332: a sample outside 0 to 450 W or 30 to 70 V is only counted; another enters the row's mean and sets VIN and VIN_RANGE;
one above 1.1 × cap_eff sets RATE_B to 1, starts shedding and is counted; operations in flight meet the new rate (R85). -/
def Obligations.PowerSamplesAreTaken : Prop :=
  (∀ (s : State) (mw mv : Nat), 450000 < mw ∨ mv < 30000 ∨ 70000 < mv →
    exec (.powerSample mw mv) s = .next { s with chip := { s.chip with tens := { s.chip.tens with sampleBad := s.chip.tens.sampleBad + 1 } } }) ∧
  (∀ (s : State) (mw mv : Nat), mw ≤ 450000 → 40000 ≤ mv → mv ≤ 60000 → mw ≤ s.chip.tens.capEff * 110 →
    exec (.powerSample mw mv) s = .next { s with chip := { s.chip with tens := { s.chip.tens with
      sampleSum := s.chip.tens.sampleSum + mw, sampleOk := s.chip.tens.sampleOk + 1,
      meas := (s.chip.tens.sampleSum + mw) / (s.chip.tens.sampleOk + 1) / 100, vin := mv, vinRange := false } } }) ∧
  (∀ (s : State) (mw mv : Nat), mw ≤ 450000 → (30000 ≤ mv ∧ mv < 40000 ∨ 60000 < mv ∧ mv ≤ 70000) → mw ≤ s.chip.tens.capEff * 110 →
    s.chip.tens.vinRange = false → ∃ t, exec (.powerSample mw mv) s = .next t ∧ t.chip.tens.vinRange = true ∧ t.chip.tens.vin = mv ∧
      (t.chip.log.slot 21).first.isSome = true ∧ t.chip.pins.alert = true ∧ t.mem = s.mem) ∧
  (∀ (s : State) (mw mv : Nat), mw ≤ 450000 → 40000 ≤ mv → mv ≤ 60000 → s.chip.tens.capEff * 110 < mw → s.chip.tens.shedding = true →
    ∃ t, exec (.powerSample mw mv) s = .next t ∧
      t = { s with chip := { s.chip with tens := t.chip.tens
                                         ndl := if s.chip.tens.rateB = 1 then s.chip.ndl else (Chip.meetRates { s.chip with tens := t.chip.tens }).ndl } } ∧
      t.chip.tens.rateB = 1 ∧ t.chip.tens.shedding = true ∧ t.chip.tens.rateG = s.chip.tens.rateG ∧
      t.chip.tens.fastCut = s.chip.tens.fastCut.inc) ∧
  (∀ (s : State) (mw mv : Nat), mw ≤ 450000 → 40000 ≤ mv → mv ≤ 60000 → s.chip.tens.capEff * 110 < mw →
    ∃ t, exec (.powerSample mw mv) s = .next t ∧ t.chip.tens.rateB = 1 ∧ t.chip.tens.shedding = true ∧
      t.chip.tens.fastCut = s.chip.tens.fastCut.inc ∧ t.chip.gauge = s.chip.gauge ∧ t.chip.rung = s.chip.rung ∧ t.chip.pat = s.chip.pat)

/-- R328: without a Trip reading the sensors take their readings, and only sensors, Tj and, where some retire, alarm 23's records change:
a valid reading is taken, one outside −40 to 150 °C is ignored, the sixteenth in a row retires the sensor, a retired one keeps its
record.
R329 and Table 17.3: a Trip reading, a valid one of 110 °C or more, ends in a power-cycle request: TRAY_REQ stands and alarm 35's slot
is taken. -/
def Obligations.ThermalReadingsActOnTheChip : Prop :=
  (
    ∀ (s : State) (temps : List Int), temps.length ≤ 32 → s.chip.tens.trips temps = false →
      ∃ t, exec (.thermalReading temps) s = .next t ∧
        t = { s with chip := { s.chip with tens := { s.chip.tens with sensors := t.chip.tens.sensors, tj := t.chip.tens.tj },
                                           log := t.chip.log, evc := t.chip.evc, rnd := t.chip.rnd, pins := t.chip.pins } } ∧
        (∀ k, temps.length ≤ k → t.chip.tens.sensor k = s.chip.tens.sensor k) ∧
        (∀ k, (hk : k < temps.length) →
          let x := s.chip.tens.sensor k
          if x.retired = true then t.chip.tens.sensor k = x
          else if temps[k] < -160 ∨ 600 < temps[k] then
            t.chip.tens.sensor k = { x with ignored := x.ignored + 1, retired := decide (16 ≤ x.ignored + 1) }
          else t.chip.tens.sensor k = { x with temp := temps[k], ignored := 0 } ∧ ∃ j, t.chip.tens.tj = some j ∧ temps[k] ≤ j)) ∧
  (
    ∀ (s : State) (temps : List Int), temps.length ≤ 32 → s.chip.tens.trips temps = true → s.chip.rst.trayReq = false →
      ∃ t, exec (.thermalReading temps) s = .next t ∧ t.chip.rst.trayReq = true ∧ (t.chip.log.slot 35).first.isSome = true)

/-- R337, R338: Hush is entered from Run, and Doze from Hush where no guaranteed ticket is live, when no work stands and LIMIT allows it;
otherwise nothing changes. An entry is an edge on source 326, starts the rung's time, and keeps the VCORE setpoint; Doze puts HBM into
self-refresh.
R337, R338: any wake event returns the module to Run, recorded with the rung left, the event's cause and an exit time within the rung's
bound (a free value, log 19), and counted; from Doze VCORE returns to the setpoint held at entry. In Run it changes nothing. -/
def Obligations.RungsAreEnteredAndLeft : Prop :=
  (
    (∀ s : State, s.chip.rung.rung = .run → 1 ≤ s.chip.rung.limit → s.chip.idle = true →
      ∃ t, exec .hushEntry s = .next t ∧ t = { s with chip := { s.chip with rung := t.chip.rung, evc := t.chip.evc } } ∧
        t.chip.rung.rung = .hush ∧ t.chip.rung.since = s.chip.gauge.time ∧ t.chip.rung.limit = s.chip.rung.limit ∧
        t.chip.rung.exits = s.chip.rung.exits ∧ (t.chip.evc.src 326).pending = true) ∧
    (∀ s : State, ¬ (s.chip.rung.rung = .run ∧ 1 ≤ s.chip.rung.limit ∧ s.chip.idle = true) → exec .hushEntry s = .next s) ∧
    (∀ s : State, s.chip.rung.rung = .hush → 2 ≤ s.chip.rung.limit → s.chip.idle = true → s.chip.guaranteedLive = false →
      ∃ t, exec .dozeEntry s = .next t ∧ t = { s with chip := { s.chip with
          rung := t.chip.rung, hbm := { s.chip.hbm with selfRefresh := true }, evc := t.chip.evc } } ∧
        t.chip.rung.rung = .doze ∧ t.chip.rung.since = s.chip.gauge.time ∧ t.chip.rung.vcoreKept = s.chip.gauge.vcore2 ∧
        t.chip.rung.hushTime = s.chip.rung.hushTime.add ((s.chip.gauge.time - s.chip.rung.since) / 25) ∧ (t.chip.evc.src 326).pending = true) ∧
    (∀ s : State, ¬ (s.chip.rung.rung = .hush ∧ 2 ≤ s.chip.rung.limit ∧ s.chip.idle = true ∧ s.chip.guaranteedLive = false) →
      exec .dozeEntry s = .next s)) ∧
  (
    (∀ (s : State) (w : WakeCause), s.chip.rung.rung = .hush ∨ s.chip.rung.rung = .doze →
      ∃ t, exec (.wake w) s = .next t ∧ t.chip.rung.rung = .run ∧ t.chip.rung.exits = s.chip.rung.exits.inc ∧
        t.chip.rung.exitFrom = (if s.chip.rung.rung = .hush then 1 else 2) ∧
        t.chip.rung.exitCause = (match w with | .host => 0 | .round => 1 | .marker => 2 | .holder => 3) ∧
        t.chip.rung.exitNs ≤ (if s.chip.rung.rung = .hush then 1000 else 10000) ∧
        t.chip.gauge.vcore2 = (if s.chip.rung.rung = .doze then s.chip.rung.vcoreKept else s.chip.gauge.vcore2) ∧
        t.chip.hbm.selfRefresh = false ∧ (t.chip.evc.src 326).pending = true ∧
        t = { s with chip := { s.chip with
          rung := t.chip.rung, gauge := { s.chip.gauge with vcore2 := t.chip.gauge.vcore2 },
          hbm := { s.chip.hbm with selfRefresh := false }, evc := t.chip.evc, freeCtr := t.chip.freeCtr } }) ∧
    (∀ (s : State) (w : WakeCause), s.chip.rung.rung = .run → exec (.wake w) s = .next s))

/-! ### Hanks -/

/-- R237, R239: an allocation that can be met and that nobody waits before makes the next `n` hanks of the free ring HELD by the tag and
charged to the ticket, first in, first out; another waits at the end of its line; only the pool changes.
R239: of the waiting allocations the oldest within quota, or with none such the oldest over quota, is granted when it can be met: its
hanks become HELD by its tag and it leaves the line. While that one cannot be met, nobody is served. -/
def Obligations.HankAllocationsAreServedInOrder : Prop :=
  (
    (∀ (s : State) (ticket tag n : Nat) (k : Ticket), s.chip.ticket? ticket = some k → s.chip.grantable k n = true →
      ∃ t, exec (.hankAlloc ticket tag n) s = .next t ∧ t = { s with chip := { s.chip with hank := t.chip.hank } } ∧
        (∀ h, h ∈ s.chip.hank.next n → t.chip.hank.entry h = { state := .held, owner := tag, ticket := ticket, readers := [] }) ∧
        (∀ h, h ∉ s.chip.hank.next n → t.chip.hank.entry h = s.chip.hank.entry h) ∧
        t.chip.hank.allocCtr = s.chip.hank.allocCtr.add n ∧ t.chip.hank.waiters = s.chip.hank.waiters) ∧
    (∀ (s : State) (ticket tag n : Nat) (k : Ticket), s.chip.ticket? ticket = some k → s.chip.grantable k n = false →
      exec (.hankAlloc ticket tag n) s = .next { s with chip := { s.chip with hank := { s.chip.hank with
        waiters := s.chip.hank.waiters ++ [{ ticket := ticket, tag := tag, n := n, isOver := decide (k.quota < s.chip.hank.used ticket + n) }],
        waitCtr := s.chip.hank.waitCtr.inc } } }) ∧
    (∀ (s : State) (ticket tag n : Nat), s.chip.ticket? ticket = none → exec (.hankAlloc ticket tag n) s = .next s)) ∧
  (
    (∀ (s : State) (w : AllocWait) (k : Ticket),
      s.chip.hank.waiters.find? (fun x => !x.isOver) = some w ∨
        (s.chip.hank.waiters.find? (fun x => !x.isOver) = none ∧ s.chip.hank.waiters.head? = some w) →
      s.chip.ticket? w.ticket = some k →
      (s.chip.canMeet k w.n = true → ∃ t, exec .hankAllocGrant s = .next t ∧ t = { s with chip := { s.chip with hank := t.chip.hank } } ∧
        (∀ h, h ∈ s.chip.hank.next w.n → t.chip.hank.entry h = { state := .held, owner := w.tag, ticket := w.ticket, readers := [] }) ∧
        (∀ h, h ∉ s.chip.hank.next w.n → t.chip.hank.entry h = s.chip.hank.entry h) ∧
        t.chip.hank.waiters = s.chip.hank.waiters.erase w) ∧
      (s.chip.canMeet k w.n = false → exec .hankAllocGrant s = .next s)) ∧
    (∀ s : State, s.chip.hank.waiters = [] → exec .hankAllocGrant s = .next s))

/-- R237 and Table 11.6: SHARE and PASS by the OWNER of a HELD hank to a tag of its ticket hand it over; by anyone else, or to another tag,
they are refused with BAD_STATE, counted and recorded, and the hank stays as it is. No other hank changes. -/
def Obligations.ShareAndPassHandOver : Prop :=
  ∀ (s : State) (h caller tag : Nat) (readers : List Nat),
    let x := s.chip.hank.entry h
    let ok := x.state = .held ∧ x.owner = caller ∧ s.chip.tagOfTicket x.ticket tag = true
    (ok → ∃ t, exec (.hankShare h caller tag readers) s = .next t ∧ t = { s with chip := { s.chip with hank := t.chip.hank } } ∧
      t.chip.hank.entry h = { x with state := .shared, owner := tag, readers := readers } ∧
      (∀ k, k ≠ h → t.chip.hank.entry k = s.chip.hank.entry k)) ∧
    (ok → ∃ t, exec (.hankPass h caller tag) s = .next t ∧ t = { s with chip := { s.chip with hank := t.chip.hank } } ∧
      t.chip.hank.entry h = { x with owner := tag } ∧ (∀ k, k ≠ h → t.chip.hank.entry k = s.chip.hank.entry k)) ∧
    (¬ ok → ∀ c ∈ [Instr.hankShare h caller tag readers, Instr.hankPass h caller tag], ∃ t, exec c s = .next t ∧
      t = { s with chip := { s.chip with hank := t.chip.hank, log := t.chip.log, evc := t.chip.evc } } ∧
      t.chip.hank.recs = s.chip.hank.recs ∧ t.chip.hank.refused = s.chip.hank.refused.inc ∧ t.chip.hank.lastValid = true ∧
      t.chip.hank.lastReason = 3 ∧ t.chip.hank.lastTag = caller ∧ t.chip.hank.lastIdx = h)

/-- R237 and Table 11.6: FREE by the OWNER of a HELD or SHARED hank puts it into SCRUB at the end of the scrub order, charged to nobody;
another FREE of a charged hank is refused with BAD_RELEASER, one of a FREE or SCRUB hank with DOUBLE_FREE, and leaves the hank as it
is. -/
def Obligations.FreeScrubsOrIsRefused : Prop :=
  ∀ (s : State) (h caller : Nat),
    let x := s.chip.hank.entry h
    let charged := x.state = .held ∨ x.state = .shared
    (charged ∧ x.owner = caller → ∃ t, exec (.hankFree h caller) s = .next t ∧
      t = { s with chip := { s.chip with hank := t.chip.hank, cast := t.chip.cast, queues := t.chip.queues } } ∧
      (t.chip.hank.entry h).state = .scrub ∧ t.chip.hank.scrub = s.chip.hank.scrub ++ [h] ∧
      (∀ k, k ≠ h → t.chip.hank.entry k = s.chip.hank.entry k) ∧ t.chip.hank.refused = s.chip.hank.refused) ∧
    (¬ (charged ∧ x.owner = caller) → ∃ t, exec (.hankFree h caller) s = .next t ∧
      t = { s with chip := { s.chip with hank := t.chip.hank, log := t.chip.log, evc := t.chip.evc } } ∧
      t.chip.hank.recs = s.chip.hank.recs ∧ t.chip.hank.refused = s.chip.hank.refused.inc ∧ t.chip.hank.lastIdx = h ∧
      t.chip.hank.lastTag = caller ∧ t.chip.hank.lastReason = (if x.state = .held ∨ x.state = .shared then 2 else 1))

/-- R240: a scrubbed hank whose turn has come reads as zeros and is the last of the free ring; no byte outside it changes. No shared-cache line
of it stands any more (R145). A hank whose turn has not come is left alone. -/
def Obligations.ScrubbedHankIsZeroAndFree : Prop :=
  ∀ (s : State) (h : Nat), Safety.Inv s →
    (s.chip.scrubNext = some h → ∃ t, exec (.hankScrubDone h) s = .next t ∧
      t = { s with chip := { s.chip with hank := t.chip.hank, hbm := (s.chip.hbmWrote (h * 0x4000, 0x4000)).hbm
                                         pnl := { s.chip.pnl with shc := t.chip.pnl.shc } }, mem := t.mem } ∧
      (∀ x, x ∈ t.chip.pnl.shc ↔ x ∈ s.chip.pnl.shc ∧ ¬ (h * 0x4000 < 0x100_0000_0000 ∧ x.1 ∈ linesOf (h * 0x4000, 0x4000))) ∧
      (∀ a, Mem.read t.mem a = if h * 0x4000 ≤ a ∧ a < h * 0x4000 + 0x4000 then 0 else Mem.read s.mem a) ∧
      t.chip.hank.ring = s.chip.hank.ring ++ [h] ∧ t.chip.hank.scrub = s.chip.hank.scrub.erase h ∧
      (t.chip.hank.entry h).state = .free) ∧
    (s.chip.scrubNext ≠ some h → exec (.hankScrubDone h) s = .next s)

/-! ### HBM -/

/-- R230 to R233: a replay is counted per row and pseudo-channel and the fourth fails the pseudo-channel; a row left open closes 2 µs after
its last access; refresh doubles while any stack is hot; a patrol scrub counts what it corrects. -/
def Obligations.HbmKeepsItself : Prop :=
  (∀ (s : State) (pc : Nat), pc < 128 → s.chip.hbm.replays pc + 1 ≠ 4 →
    exec (.hbmParityError pc) s = .next { s with chip := { s.chip with hbm := { s.chip.hbm with
      parity := s.chip.hbm.parity.inc, rowReplays := Tbl.set s.chip.hbm.rowReplays pc (s.chip.hbm.replays pc + 1) } } }) ∧
  (∀ (h : Hbm) (pc : Nat), h.replays pc + 1 = 4 → pc ∈ (h.parityError pc).failedPcs ∧ (h.parityError pc).parity = h.parity.inc) ∧
  (∀ (s : State) (pc bank : Nat), (let b : Bank := Tbl.get {} s.chip.hbm.banks (pc * 64 + bank)
    s.chip.gauge.time ≤ b.access + 50 ∧ b.access + 50 < 2 ^ 64) →
    ∃ t, exec (.rowIdleClose pc bank) s = .next t ∧
      (let b : Bank := Tbl.get {} s.chip.hbm.banks (pc * 64 + bank)
       (Tbl.get {} t.chip.hbm.banks (pc * 64 + bank) : Bank) = { b with row := none } ∧
       t = { s with chip := { s.chip with gauge := { s.chip.gauge with time := b.access + 50 },
                                          hbm := { s.chip.hbm with banks := t.chip.hbm.banks } } })) ∧
  (∀ (s : State) (k : Nat) (hot : Bool), ∃ t, exec (.hbmStackTemperature k hot) s = .next t ∧
    t = { s with chip := { s.chip with hbm := { s.chip.hbm with hotStacks := t.chip.hbm.hotStacks } } } ∧
    (k ∈ t.chip.hbm.hotStacks ↔ hot = true) ∧ (∀ j, j ≠ k → (j ∈ t.chip.hbm.hotStacks ↔ j ∈ s.chip.hbm.hotStacks))) ∧
  (∀ (s : State) (fixed : List Nat), exec (.patrolScrub fixed []) s = .next { s with chip := { s.chip with hbm := { s.chip.hbm with
    ce := min 4294967295 (s.chip.hbm.ce + fixed.length) } } })

/-- R232 and Table 17.3: a word that a patrol scrub finds uncorrectable is poisoned, counted, recorded as the last error and raises alarm 4;
a pseudo-channel that fails raises a power-cycle request. -/
def Obligations.HbmErrorsAreReported : Prop :=
  (∀ (s : State) (fixed : List Nat) (a : Nat), ∃ t, exec (.patrolScrub fixed [a]) s = .next t ∧
    t = { s with chip := { s.chip with hbm := t.chip.hbm, log := t.chip.log, evc := t.chip.evc, rnd := t.chip.rnd, pins := t.chip.pins } } ∧
    (a - a % 8) ∈ t.chip.hbm.poisoned ∧ t.chip.hbm.ue = min 4294967295 (s.chip.hbm.ue + 1) ∧
    t.chip.hbm.lastErr = some (a - a % 8, pseudoChannel (a - a % 8)) ∧ (t.chip.log.slot 4).first.isSome = true ∧ t.chip.pins.alert = true) ∧
  (∀ (s : State) (pc : Nat), pc < 128 → s.chip.hbm.replays pc + 1 = 4 → s.chip.rst.trayReq = false →
    ∃ t, exec (.hbmParityError pc) s = .next t ∧ t.chip.rst.trayReq = true ∧ (t.chip.log.slot 35).first.isSome = true ∧
      t.chip.gauge = s.chip.gauge ∧ t.chip.rung = s.chip.rung ∧ t.chip.pat = s.chip.pat)
/-! ### Queue pairs, submissions and the host link -/

/-- R276 and R285: a Q_CTRL write with a size out of range is ignored and logged; one that enables a disabled queue starts it with its
pointers and reservations at 0, PHASE 1 and the sizes and vector written; one that disables a queue is ignored and logged while a live
ticket names the queue, and else disables it and ends its waits; RESUME is set, and restarts a queue in error. No other queue
changes. -/
def Obligations.QueuesStartStopAndResume : Prop :=
  ∀ (s : State) (fn q : Nat) (v : Word), s.chip.reachableFn fn = true → q < queuesOf fn → s.chip.onlyBasic = false →
    let g := globalQueue fn q
    let x := s.chip.queue g
    (ctrlOk v.toNat = false → ∀ c ∈ [Instr.queueEnable fn q v, Instr.queueDisable fn q v],
      exec c s = .next { s with chip := s.chip.tlp.regIncident .queueIgnored (queueReg g 0x10) }) ∧
    (ctrlOk v.toNat = true → x.enable = false → ∃ t, exec (.queueEnable fn q v) s = .next t ∧
      t = { s with chip := { s.chip.tlp with queues := t.chip.queues, evc := t.chip.evc } } ∧
      (∀ k, k ≠ g → t.chip.queue k = s.chip.queue k) ∧
      t.chip.queue g = { x with
        enable := true, state := .running, sqHead := 0, sqTail := 0, cqHead := 0, cqTail := 0, cqCount := 0, reserved := 0, phase := true
        unit := none, sqLog2 := v.toNat / 2 ^ 16 % 16, cqLog2 := v.toNat / 2 ^ 20 % 16, vector := ctrlVector fn v.toNat
        resume := x.resume || v.toNat.testBit 30 }) ∧
    (ctrlOk v.toNat = true → x.enable = true → s.chip.queueNamed g = true →
      exec (.queueDisable fn q v) s = .next { s with chip := s.chip.tlp.regIncident .queueIgnored (queueReg g 0x10) }) ∧
    (ctrlOk v.toNat = true → x.enable = true → s.chip.queueNamed g = false → ∃ t, exec (.queueDisable fn q v) s = .next t ∧
      t = { s with chip := { s.chip with queues := t.chip.queues, evc := t.chip.evc, pcie := t.chip.pcie, waits := t.chip.waits, hank := t.chip.hank } } ∧
      (∀ k, k ≠ g → t.chip.queue k = s.chip.queue k) ∧ (t.chip.queue g).enable = false ∧ (t.chip.queue g).state = .disabled ∧
      (∀ w, w ∈ t.chip.waits ↔ w ∈ s.chip.waits ∧ w.q ≠ g)) ∧
    (x.state = .error → ∃ t, exec (.resume fn q) s = .next t ∧
      t = { s with chip := { s.chip.tlp with queues := t.chip.queues, pcie := t.chip.pcie } } ∧
      (∀ k, k ≠ g → t.chip.queue k = s.chip.queue k) ∧ t.chip.queue g = { x with state := .running, resume := true }) ∧
    (x.state ≠ .error → exec (.resume fn q) s = .next { s with chip := s.chip.tlp.updQueue g (fun y => { y with resume := true }) })

/-- R277 and R281: a tail inside the SQ hands over the entries up to it; a head inside the CQ that passes no record still to be written
consumes the records up to it; another value only sets BAD_DOORBELL (and, for the CQ, is logged). Then the streams fed over the Round
whose records go to the queue are brought up to date. -/
def Obligations.DoorbellsMoveThePointers : Prop :=
  ∀ (s : State) (fn q : Nat) (v : Word), s.chip.reachableFn fn = true → q < queuesOf fn → s.chip.onlyBasic = false →
    let g := globalQueue fn q
    let x := s.chip.queue g
    (∃ t, exec (.sqTailWrite fn q v) s = .next t ∧ t = { s with chip := { s.chip.tlp with queues := t.chip.queues, pcie := t.chip.pcie } } ∧
      (∀ k, k ≠ g → t.chip.queue k = s.chip.queue k) ∧
      t.chip.queue g = (if v.toNat % 4096 < x.sqSize then { x with sqTail := v.toNat % 4096 } else { x with badBell := true })) ∧
    (let h := v.toNat % 32768
     let n := (h + x.cqSize - x.cqHead) % x.cqSize
     ∃ u, u = { s with chip := { s.chip.tlp with queues := u.chip.queues, evc := u.chip.evc, log := u.chip.log } } ∧
      (∀ k, k ≠ g → u.chip.queue k = s.chip.queue k) ∧
      u.chip.queue g = (if h < x.cqSize ∧ n ≤ x.cqCount then { x with cqHead := h, cqCount := x.cqCount - n } else { x with badBell := true }) ∧
      exec (.cqHeadWrite fn q v) s =
        .next (Safety.allUpToDate ((s.chip.cast.tickets.filter (fun t => t.queue == g && t.srcRound)).map (fun t => t.id)) u))

/-- R277 to R279: an entry that cannot be taken waits; one that can be is answered FENCED, before anything else is checked, while admission
is closed or the chip fenced, and BAD_DESCRIPTOR where its TAG is 0xFFFF. Answering moves the two rings and writes the record, nothing
else. -/
def Obligations.EntriesWaitOrAreFenced : Prop :=
  ∀ (s : State) (fn q : Nat) (e : List Byte) (d : HostRead) (pic : PicInfo), (s.chip.pcie.fn fn).bme = true →
    ∀ p ∈ [(0, Instr.nop fn q e), (1, .frame fn q e d pic), (2, .sample fn q e d pic), (3, .alloc fn q e), (4, .free fn q e d),
            (5, .copyOut fn q e d), (6, .signal fn q e), (7, .wait fn q e)],
      let g := globalQueue fn q
      (s.chip.takes g (s.chip.needOf fn e) = false → exec p.2 s = .next s) ∧
      (q < queuesOf fn → s.chip.takes g (s.chip.needOf fn e) = true → eOp e = p.1 → s.chip.closed = true ∨ eTag e = 0xFFFF →
        ∃ t, exec p.2 s = .next t ∧
          t = { s with chip := { s.chip with queues := t.chip.queues, hostTx := t.chip.hostTx, pcie := t.chip.pcie, evc := t.chip.evc } } ∧
          Safety.Answered s.chip t.chip g ∧
          t.chip.hostTx = s.chip.hostTx ++ [Safety.answerWrite s.chip g (eTag e) (if s.chip.closed then 8 else 2) (eTicket e) 0])

/-- R239 and R279: a NOP is answered OK; an ALLOC that can be met at once makes the next COUNT hanks HELD by the function's host tag, writes
their handles to ADDR and is answered with their number; one that cannot be met is answered NO_HANKS and takes none. -/
def Obligations.NopAndAllocAreAnswered : Prop :=
  (∀ (s : State) (fn q : Nat) (e : List Byte), Safety.Next s.chip fn q 0 e → eTag e ≠ 0xFFFF → unusedZero e [] = true →
    ∃ t, exec (.nop fn q e) s = .next t ∧
      t = { s with chip := { s.chip with queues := t.chip.queues, hostTx := t.chip.hostTx, pcie := t.chip.pcie, evc := t.chip.evc } } ∧
      Safety.Answered s.chip t.chip (globalQueue fn q) ∧
      t.chip.hostTx = s.chip.hostTx ++ [Safety.answerWrite s.chip (globalQueue fn q) (eTag e) 0 0 0]) ∧
  (∀ (s : State) (fn q : Nat) (e : List Byte) (k : Ticket), Safety.Next s.chip fn q 3 e → eTag e ≠ 0xFFFF →
    unusedZero e [(4, 4), (8, 8), (20, 2)] = true → 1 ≤ eCount e ∧ eCount e ≤ 64 → s.chip.fnTicket fn (eTicket e) = some k → k.closing = false →
    let g := globalQueue fn q
    ∃ t, exec (.alloc fn q e) s = .next t ∧ Safety.Answered s.chip t.chip g ∧
      t = { s with chip := { s.chip with hank := t.chip.hank, queues := t.chip.queues, hostTx := t.chip.hostTx, pcie := t.chip.pcie, evc := t.chip.evc } } ∧
      (s.chip.grantable k (eCount e) = true →
        (∀ h, h ∈ s.chip.hank.next (eCount e) → t.chip.hank.entry h = { state := .held, owner := hostTag fn, ticket := k.id, readers := [] }) ∧
        (∀ h, h ∉ s.chip.hank.next (eCount e) → t.chip.hank.entry h = s.chip.hank.entry h) ∧
        t.chip.hostTx = s.chip.hostTx ++
          [{ addr := eAddr e, bytes := (s.chip.hank.next (eCount e)).flatMap (fun h => leBytes 4 (t.chip.hank.handle fn h)) },
           Safety.answerWrite s.chip g (eTag e) 0 k.id (eCount e)]) ∧
      (s.chip.grantable k (eCount e) = false → t.chip.hank = s.chip.hank ∧
        t.chip.hostTx = s.chip.hostTx ++ [Safety.answerWrite s.chip g (eTag e) 4 (eTicket e) 0]))

/-- R237 and R279: FREE of a listed handle whose hank the host tag holds scrubs the hank; the answer counts the frees refused, those of
handles that name no hank among them, and no listed hank stays held by the host tag. COPY_OUT of hanks that the host tag holds writes
their first LEN bytes to ADDR and takes no hank; a list that could not be read is answered DMA_ERROR. -/
def Obligations.FreeAndCopyOutAreAnswered : Prop :=
  (∀ (s : State) (fn q : Nat) (e b : List Byte), Safety.Next s.chip fn q 4 e → eTag e ≠ 0xFFFF → unusedZero e [(8, 8), (20, 2)] = true →
    1 ≤ eCount e ∧ eCount e ≤ 4096 →
    let g := globalQueue fn q
    ∃ (t : State) (n : Nat), exec (.free fn q e (.data b)) s = .next t ∧ t.mem = s.mem ∧ n ≤ eCount e ∧
      t.chip.hostTx = s.chip.hostTx ++ [Safety.answerWrite s.chip g (eTag e) 0 0 n] ∧
      (t.chip.queue g).sqHead = ((s.chip.queue g).sqHead + 1) % (s.chip.queue g).sqSize ∧
      (∀ i, i < eCount e → ∀ h, s.chip.hank.ofHandle 0 (le b (4 * i) 4) = some h → fn = 0 →
        ¬ ((t.chip.hank.entry h).charged = true ∧ (t.chip.hank.entry h).owner = hostTag 0)) ∧
      (eCount e = 1 → n = (match s.chip.hank.ofHandle fn (le b 0 4) with | some h => if s.chip.hank.frees h (hostTag fn) then 0 else 1 | none => 1)) ∧
      (eCount e = 1 → ∀ h, s.chip.hank.ofHandle fn (le b 0 4) = some h → s.chip.hank.frees h (hostTag fn) = true →
        (t.chip.hank.entry h).state = .scrub ∧ ∀ k, k ≠ h → t.chip.hank.entry k = s.chip.hank.entry k)) ∧
  (∀ (s : State) (fn q : Nat) (e b : List Byte), Safety.Next s.chip fn q 5 e → eTag e ≠ 0xFFFF →
    unusedZero e [(8, 8), (16, 4), (20, 2), (40, 8)] = true → s.chip.allHeld fn (s.chip.handleHanks fn (eCount e) b) = true → eLen e ≤ 0x4000 * eCount e →
    let g := globalQueue fn q
    ∃ t, exec (.copyOut fn q e (.data b)) s = .next t ∧ t.mem = s.mem ∧ t.chip.hank = s.chip.hank ∧ t.chip.cast = s.chip.cast ∧
      Safety.Answered s.chip t.chip g ∧
      t.chip.hostTx = s.chip.hostTx ++
        [{ addr := eAddr e, bytes := hankRead s.mem ((s.chip.handleHanks fn (eCount e) b).filterMap id) 0 (eLen e) },
         Safety.answerWrite s.chip g (eTag e) 0 0 (eLen e)]) ∧
  (∀ (s : State) (fn q : Nat) (e : List Byte), Safety.Next s.chip fn q 5 e → eTag e ≠ 0xFFFF →
    unusedZero e [(8, 8), (16, 4), (20, 2), (40, 8)] = true →
    ∃ t, exec (.copyOut fn q e .failed) s = .next t ∧ Safety.Answered s.chip t.chip (globalQueue fn q) ∧
      t.chip.hostTx = s.chip.hostTx ++ [Safety.answerWrite s.chip (globalQueue fn q) (eTag e) 6 (eTicket e) 0])
/-- R277 and R280: a FRAME part with data takes the hanks that its bytes need, HELD by the decode context and charged to the ticket, and
writes its bytes there; a part of handles PASSes the listed hanks. A part that does not end its unit is kept on the queue. The part
that ends it hands the joined unit to the input filter: a frame in flight, or a skip. While the hanks are not to be had, the entry
stays at the head of its queue (log 35). -/
def Obligations.FramesHandUnitsOver : Prop :=
  (∀ (s : State) (fn q : Nat) (e b : List Byte) (pic : PicInfo) (k : Ticket), Safety.NextFrame s.chip fn q e k → bit (eFlags e) 2 = true →
    let g := globalQueue fn q
    let n := ceilDiv (eLen e) 0x4000
    let hs := s.chip.hank.next n
    let ps := s.chip.unitOf g k.id ++ [{ hanks := hs, bytes := eLen e }]
    (partHanks (s.chip.unitOf g k.id)).length + n ≤ 4096 →
    (s.chip.grantable k n = false → exec (.frame fn q e (.data b) pic) s =
      .next { s with chip := { s.chip with hank := { s.chip.hank with waitCtr := s.chip.hank.waitCtr.inc } } }) ∧
    (s.chip.grantable k n = true → ∃ u, u.mem = hankWrite s.mem hs 0 (b.take (eLen e)) ∧
      (∀ h, h ∈ hs → u.chip.hank.entry h = { state := .held, owner := ctxTag (k.kindContext .decode), ticket := k.id, readers := [] }) ∧
      (∀ h, h ∉ hs → u.chip.hank.entry h = s.chip.hank.entry h) ∧ (∀ j, j ≠ g → u.chip.queue j = s.chip.queue j) ∧
      (u.chip.queue g).sqHead = ((s.chip.queue g).sqHead + 1) % (s.chip.queue g).sqSize ∧
      u.chip.hostTx = s.chip.hostTx ++ [Safety.answerWrite s.chip g (eTag e) 0 k.id (eLen e)] ∧
      (bit (eFlags e) 1 = false → exec (.frame fn q e (.data b) pic) s = .next u ∧ (u.chip.queue g).unit = some (k.id, ps) ∧
        u.chip.cast = s.chip.cast) ∧
      (bit (eFlags e) 1 = true → exec (.frame fn q e (.data b) pic) s = .next (Safety.upToDate k.id u) ∧ (u.chip.queue g).unit = none ∧
        (∀ sd, s.chip.stream? k.pipeline = some sd → u.chip.cast.arrived = s.chip.cast.arrived.inc ∧
          u.chip.ticket? k.id = some (match (if (k.kindStage .decode).isSome then k.filter s.chip.now (partBytes ps) false pic else none) with
            | some w => k.refuse sd.fgK s.chip.now (ePts e) (partHanks ps) pic w
            | none => k.accept sd s.chip.now (ePts e) (bit (eFlags e) 0) ps pic))))) ∧
  (∀ (s : State) (fn q : Nat) (e b : List Byte) (pic : PicInfo) (k : Ticket) (hs : List Nat), Safety.NextFrame s.chip fn q e k →
    bit (eFlags e) 2 = false → bit (eFlags e) 1 = false → s.chip.handleHanks fn (eCount e) b = hs.map some → hs.Nodup →
    (∀ h ∈ hs, (s.chip.hank.entry h).state = .held ∧ (s.chip.hank.entry h).owner = hostTag fn ∧ (s.chip.hank.entry h).ticket = k.id) →
    k.contexts.contains (k.kindContext .decode) = true → k.kindContext .decode < 0x4000 →
    let g := globalQueue fn q
    (partHanks (s.chip.unitOf g k.id)).length + hs.length ≤ 4096 → eLen e ≤ 0x4000 * hs.length →
    ∃ t, exec (.frame fn q e (.data b) pic) s = .next t ∧ t.mem = s.mem ∧ Safety.Answered s.chip t.chip g ∧
      (t.chip.queue g).unit = some (k.id, s.chip.unitOf g k.id ++ [{ hanks := hs, bytes := eLen e }]) ∧
      (∀ h, h ∈ hs → (t.chip.hank.entry h).owner = ctxTag (k.kindContext .decode) ∧ (t.chip.hank.entry h).ticket = k.id ∧
        (t.chip.hank.entry h).state = .held) ∧
      (∀ h, h ∉ hs → t.chip.hank.entry h = s.chip.hank.entry h) ∧
      t.chip.hostTx = s.chip.hostTx ++ [Safety.answerWrite s.chip g (eTag e) 0 k.id (eLen e)])

/-- R215: a SAMPLE on its stream's own queue is answered OK; a sample refused (Tables 10.7 and 10.8) is reported dropped and joins no step,
and every other joins the samples of the step, last. Then the stream is brought up to date. -/
def Obligations.SamplesJoinTheStep : Prop :=
  ∀ (s : State) (fn q : Nat) (e b : List Byte) (pic : PicInfo) (k : Ticket), Safety.Next s.chip fn q 2 e → eTag e ≠ 0xFFFF →
    unusedZero e [(4, 4), (8, 8)] = true → s.chip.fnTicket fn (eTicket e) = some k → k.closing = false → k.queue = globalQueue fn q →
    k.srcRound = false → (k.kindStage .adapt).isSome = true →
    let g := globalQueue fn q
    ∃ (u : State) (k' : Ticket), exec (.sample fn q e (.data b) pic) s = .next (Safety.upToDate k.id u) ∧ u.mem = s.mem ∧
      u.chip.hostTx = s.chip.hostTx ++ [Safety.answerWrite s.chip g (eTag e) 0 k.id 0] ∧
      (u.chip.queue g).sqHead = ((s.chip.queue g).sqHead + 1) % (s.chip.queue g).sqSize ∧ u.chip.hank = s.chip.hank ∧
      u.chip.ticket? k.id = some k' ∧
      k'.adapt.samples.map (fun x => x.id) =
        k.adapt.samples.map (fun x => x.id) ++ (if (s.chip.sampleRefused k b pic).isSome then [] else [dSample b])

/-- R243, R244 and Table 13.7: a host SIGNAL adds VALUE to its marker, saturating, and ends every host WAIT whose value is reached; a host
WAIT whose value is reached is answered with the count, another waits with its record reserved, and is answered TIMEOUT with the count
when its time is over. No other marker changes. -/
def Obligations.HostSignalsAndWaits : Prop :=
  (∀ (s : State) (fn q : Nat) (e : List Byte) (k : Ticket) (m : Nat), Safety.Next s.chip fn q 6 e → eTag e ≠ 0xFFFF →
    unusedZero e [(4, 4), (22, 2), (24, 4)] = true → 1 ≤ eValue e ∧ eValue e ≤ 65535 → s.chip.fnTicket fn (eTicket e) = some k →
    k.closing = false → k.markers[eMarker e]? = some m → (s.chip.marker m).takesSignal k.id = true →
    let g := globalQueue fn q
    let n := min 4294967295 ((s.chip.marker m).count + eValue e)
    ∃ u, exec (.signal fn q e) s = .next (Safety.upToDate k.id u) ∧ u.mem = s.mem ∧ (u.chip.marker m).count = n ∧
      (u.chip.marker m).context = (s.chip.marker m).context ∧ (∀ j, j ≠ m → u.chip.marker j = s.chip.marker j) ∧
      (∀ w, w ∈ u.chip.waits ↔ w ∈ s.chip.waits ∧ ¬ (w.marker = m ∧ w.value ≤ n)) ∧
      (u.chip.queue g).sqHead = ((s.chip.queue g).sqHead + 1) % (s.chip.queue g).sqSize ∧ (u.chip.queue g).accepted = (s.chip.queue g).accepted.inc ∧
      ((∀ w ∈ s.chip.waits, w.marker ≠ m) →
        u.chip.hostTx = s.chip.hostTx ++ [Safety.answerWrite s.chip g (eTag e) 0 k.id 0] ∧ Safety.Answered s.chip u.chip g)) ∧
  (∀ (s : State) (fn q : Nat) (e : List Byte) (k : Ticket) (m : Nat), Safety.Next s.chip fn q 7 e → eTag e ≠ 0xFFFF →
    unusedZero e [(4, 4), (22, 2), (24, 4), (28, 4)] = true → 10 ≤ eTimeout e ∧ eTimeout e ≤ 10000000 →
    s.chip.fnTicket fn (eTicket e) = some k → k.closing = false → k.markers[eMarker e]? = some m →
    let g := globalQueue fn q
    ∃ t, exec (.wait fn q e) s = .next t ∧
      t = { s with chip := { s.chip with queues := t.chip.queues, pcie := t.chip.pcie, waits := t.chip.waits, hostTx := t.chip.hostTx, evc := t.chip.evc } } ∧
      (t.chip.queue g).sqHead = ((s.chip.queue g).sqHead + 1) % (s.chip.queue g).sqSize ∧
      (if eValue e ≤ (s.chip.marker m).count then t.chip.waits = s.chip.waits ∧
         t.chip.hostTx = s.chip.hostTx ++ [Safety.answerWrite s.chip g (eTag e) 0 k.id (s.chip.marker m).count] ∧ Safety.Answered s.chip t.chip g
       else t.chip.hostTx = s.chip.hostTx ∧ t.chip.evc = s.chip.evc ∧ (t.chip.queue g).reserved = (s.chip.queue g).reserved + 1 ∧
         t.chip.waits = s.chip.waits ++ [{ q := g, tag := eTag e, ticket := k.id, marker := m, value := eValue e
                                           deadline := s.chip.now + 25 * eTimeout e }])) ∧
  (∀ (s : State) (w : HostWait), s.chip.waits.find? (fun x => x.q == w.q && x.tag == w.tag) = some w →
    (s.chip.pcie.fn (queueFn w.q)).bme = true → s.chip.gauge.time ≤ w.deadline → w.deadline < 2 ^ 64 →
    let x := s.chip.queue w.q
    ∃ t, exec (.hostWaitTimeout w.q w.tag) s = .next t ∧
      t = { s with chip := { s.chip with gauge := { s.chip.gauge with time := w.deadline }, waits := s.chip.waits.erase w
                                         queues := t.chip.queues, hostTx := t.chip.hostTx, pcie := t.chip.pcie, evc := t.chip.evc } } ∧
      t.chip.hostTx = s.chip.hostTx ++ [{ addr := x.cqBase + 32 * x.cqTail
                                          bytes := (answerRec w.tag 7 w.ticket (s.chip.marker w.marker).count).bytes32 x.sqHead x.phase }] ∧
      (t.chip.queue w.q).reserved = x.reserved - 1 ∧ (t.chip.queue w.q).cqTail = (x.cqTail + 1) % x.cqSize)
/-- R285 to R287: a completion frees its tag, and for one that no read awaits only the counters of unexpected or late completions move; a read of
entries that succeeds clears its queue's RESUME, one that fails stops the queue, one of a cast-on descriptor drops the request. A read unanswered at its timeout is quarantined
and counted, and its tag is freed at twice the timeout. Clearing Bus Master Enable turns the function's outstanding reads into reads
to discard; setting it writes the held records, then the held cast-on responses, each of which ends its request. The requests behind one that
ended are then taken in their turn (R45). -/
def Obligations.HostReadsComplete : Prop :=
  (∀ (s : State) (tag : Nat) (st : CplStatus), s.chip.pcie.tags.find? (fun e => e.1 == tag) = none →
    exec (.completionTlp tag st) s = .next { s with chip := { s.chip with pcie := { s.chip.pcie with
      unexp := s.chip.pcie.unexp.inc, aerUnexpected := s.chip.pcie.aerUnexpected + 1 } } } ∧
    exec (.completionTimeout tag) s = .next s ∧ exec (.tagRelease tag) s = .next s) ∧
  (∀ (s : State) (tag : Nat) (t : Tag), s.chip.pcie.tags.find? (fun e => e.1 == tag) = some (tag, t) →
    (∀ st : CplStatus, ∃ u, exec (.completionTlp tag st) s = .next (if t.state = .outstanding ∧ st = .failed then Safety.asked t.purpose u else u) ∧
      u = { s with chip := { s.chip with pcie := u.chip.pcie, queues := u.chip.queues, cast := u.chip.cast } } ∧
      u.chip.pcie.tags = s.chip.pcie.tags.filter (fun e => e.1 != tag) ∧
      u.chip.pcie.unexp = (if t.state = .quarantinedFlr then s.chip.pcie.unexp.inc else s.chip.pcie.unexp) ∧
      u.chip.pcie.late = (if t.state = .quarantinedTimeout then s.chip.pcie.late.inc else s.chip.pcie.late) ∧
      (t.state ≠ .outstanding → u.chip.queues = s.chip.queues ∧ u.chip.cast = s.chip.cast) ∧
      (t.state = .outstanding → st ≠ .failed → u.chip.cast = s.chip.cast ∧
        ∀ k, u.chip.queue k = if t.purpose = .sqEntries k then { s.chip.queue k with resume := false } else s.chip.queue k) ∧
      (t.state = .outstanding → st = .failed → ∀ g, t.purpose = .sqEntries g → (s.chip.queue g).enable = true →
        u.chip.queue g = { s.chip.queue g with state := .error } ∧ ∀ k, k ≠ g → u.chip.queue k = s.chip.queue k) ∧
      (t.state = .outstanding → st = .failed → ∀ fn, t.purpose = .castDescriptor fn → (u.chip.cast.fn fn).busy = false)) ∧
    (t.state = .outstanding ∨ t.state = .discard → s.chip.gauge.time ≤ t.sent + t.timeout → t.sent + t.timeout < 2 ^ 64 →
      ∃ u, exec (.completionTimeout tag) s = .next (if t.state = .outstanding then Safety.asked t.purpose u else u) ∧
      u = { s with chip := { s.chip with gauge := { s.chip.gauge with time := t.sent + t.timeout }
                                         pcie := { s.chip.pcie with tags := u.chip.pcie.tags, cplTo := s.chip.pcie.cplTo.inc
                                                                    aerTimeouts := s.chip.pcie.aerTimeouts + 1 }
                                         queues := u.chip.queues, cast := u.chip.cast } } ∧
      Tbl.get t u.chip.pcie.tags tag = { t with state := .quarantinedTimeout }) ∧
    (t.state = .quarantinedTimeout ∨ t.state = .quarantinedFlr → s.chip.gauge.time ≤ t.sent + 2 * t.timeout → t.sent + 2 * t.timeout < 2 ^ 64 →
      exec (.tagRelease tag) s = .next { s with chip := { s.chip with
        gauge := { s.chip.gauge with time := t.sent + 2 * t.timeout }
        pcie := { s.chip.pcie with tags := s.chip.pcie.tags.filter (fun e => e.1 != tag) } } })) ∧
  (∀ (s : State) (fn : Nat), (s.chip.pcie.fn fn).bme = true → ∃ t : State, exec (.busMasterDisable fn) s = .next { t with chip := t.chip.nextAsk } ∧
    t = { s with chip := { s.chip with pcie := t.chip.pcie, cast := t.chip.cast } } ∧
    t.chip.pcie.fn fn = { s.chip.pcie.fn fn with bme := false } ∧ (∀ k, k ≠ fn → t.chip.pcie.fn k = s.chip.pcie.fn k) ∧
    t.chip.pcie.tags = s.chip.pcie.tags.map (fun e =>
      (e.1, if e.2.fn = fn ∧ e.2.state = .outstanding then { e.2 with state := .discard } else e.2)) ∧
    t.chip.cast.tickets = s.chip.cast.tickets) ∧
  (∀ (s : State) (fn : Nat), (s.chip.pcie.fn fn).enabled = true → (s.chip.pcie.fn fn).bme = false →
    ∃ (u : State) (l : List HostWrite),
      exec (.busMasterEnable fn) s = .next (Safety.allUpToDate ((s.chip.cast.tickets.filter (fun t => t.fn == fn)).map (fun t => t.id)) u) ∧
      u = { s with chip := { s.chip with
        pcie := u.chip.pcie, queues := u.chip.queues, hostTx := u.chip.hostTx, evc := u.chip.evc, cast := { s.chip.cast with fns := u.chip.cast.fns } } } ∧
      (u.chip.pcie.fn fn).bme = true ∧ (u.chip.pcie.fn fn).held = [] ∧ (u.chip.pcie.fn fn).heldResp = [] ∧
      u.chip.hostTx = s.chip.hostTx ++ l ++ (s.chip.pcie.fn fn).heldResp.map (fun r => r.write) ∧ l.length = (s.chip.pcie.fn fn).held.length ∧
      (∀ k, k ≠ fn → u.chip.cast.fn k = s.chip.cast.fn k) ∧
      u.chip.cast.fn fn = (match (s.chip.pcie.fn fn).heldResp.getLast? with
        | none => s.chip.cast.fn fn
        | some r => ({ s.chip.cast.fn fn with busy := false, last := r.reason } : CastFn)) ∧
      (fn ≤ 16 → (s.chip.pcie.fn fn).heldResp ≠ [] → (u.chip.evc.src (castSource fn)).pending = true))

/-- R273, R288, R289 and R291: a reset of a function leaves its queues and CAST registers at their reset values, its configuration too,
none of its reads outstanding, no wait of its hosts, and no hank with its host tag, and touches neither gauges nor pattern. VFs come and go with VF Enable and NumVFs. D3hot ends
a function's reads and records; the return to D0 resets it. -/
def Obligations.FunctionsAreReset : Prop :=
  (∀ (s : State) (fn : Nat), fn ≠ 0 → (s.chip.pcie.fn fn).enabled = true →
    ∃ u, exec (.functionLevelReset fn) s = .next (Safety.allUpToDate (u.chip.cast.tickets.map (fun t => t.id)) u) ∧ Safety.quiet u.chip = Safety.quiet s.chip ∧
      (∀ g, queueFn g = fn → u.chip.queue g = {}) ∧ u.chip.cast.fn fn = {} ∧
      u.chip.pcie.fn fn = { enabled := (u.chip.pcie.fn fn).enabled } ∧ (∀ w ∈ u.chip.waits, queueFn w.q ≠ fn) ∧ (∀ e ∈ u.chip.pcie.tags, e.2.fn = fn → e.2.state.quarantined = true) ∧
      (∀ h, ¬ ((u.chip.hank.entry h).charged = true ∧ (u.chip.hank.entry h).owner = hostTag fn))) ∧
  (∀ (s : State) (fn : Nat), fn ≠ 0 → (s.chip.pcie.fn fn).enabled = false →
    exec (.functionLevelReset fn) s = .next (Safety.allUpToDate (s.chip.cast.tickets.map (fun t => t.id)) s)) ∧
  (∀ s : State, ∃ u, exec .hotReset s = .next (Safety.allUpToDate (u.chip.cast.tickets.map (fun t => t.id)) u) ∧ Safety.quiet u.chip = Safety.quiet s.chip ∧
    u.chip.pcie.up = false ∧ ((s.chip.pcie.fn 0).enabled = true → u.chip.pcie.numVfs = 0 ∧ u.chip.pcie.vfEnable = false) ∧
    (∀ k ∈ vfList, (u.chip.pcie.fn k).enabled = false) ∧
    (∀ k, (s.chip.pcie.fn k).enabled = true → k ≤ 16 → ∀ g, queueFn g = k → u.chip.queue g = {})) ∧
  (∀ s : State, ∃ u, exec .vfEnableClear s = .next (Safety.allUpToDate (u.chip.cast.tickets.map (fun t => t.id)) u) ∧ Safety.quiet u.chip = Safety.quiet s.chip ∧
    u.chip.pcie.vfEnable = false ∧ (∀ k ∈ vfList, (u.chip.pcie.fn k).enabled = false)) ∧
  (∀ (s : State) (n : Nat), ∃ u, exec (.numvfsLower n) s = .next (Safety.allUpToDate (u.chip.cast.tickets.map (fun t => t.id)) u) ∧ Safety.quiet u.chip = Safety.quiet s.chip ∧
    u.chip.pcie.numVfs ≤ n ∧ (∀ k ∈ vfList, n < k → (u.chip.pcie.fn k).enabled = false ∧
      ((s.chip.pcie.fn k).enabled = true → ∀ g, queueFn g = k → u.chip.queue g = {}))) ∧
  (∀ (s : State) (n : Nat), ∃ t, exec (.vfEnableSet n) s = .next t ∧ t = { s with chip := { s.chip with pcie := t.chip.pcie } } ∧
    t.chip.pcie.vfEnable = true ∧ t.chip.pcie.numVfs = max s.chip.pcie.numVfs (min n 16) ∧
    (∀ k ∈ vfList, t.chip.pcie.fn k = { s.chip.pcie.fn k with enabled := decide (k ≤ n) || (s.chip.pcie.fn k).enabled }) ∧
    t.chip.pcie.fn 0 = s.chip.pcie.fn 0) ∧
  (∀ (s : State) (fn : Nat), (s.chip.pcie.fn fn).enabled = true → (s.chip.pcie.fn fn).d3hot = false →
    ∃ t, exec (.d3hotEntry fn) s = .next t ∧ (t.chip.pcie.fn fn).d3hot = true ∧ (t.chip.pcie.fn fn).held = [] ∧
      (∀ w ∈ t.chip.waits, queueFn w.q ≠ fn) ∧ (∀ e ∈ t.chip.pcie.tags, e.2.fn = fn → e.2.state.quarantined = true) ∧
      t.chip.gauge = s.chip.gauge ∧ t.chip.pat = s.chip.pat) ∧
  (∀ (s : State) (fn : Nat), (s.chip.pcie.fn fn).d3hot = true →
    ∃ u, exec (.d0Return fn) s = .next (Safety.allUpToDate (u.chip.cast.tickets.map (fun t => t.id)) u) ∧
      u.chip.pcie.fn fn = { enabled := (s.chip.pcie.fn fn).enabled } ∧ (∀ g, queueFn g = fn → u.chip.queue g = {}) ∧
      u.chip.cast.fn fn = {} ∧ u.chip.rung.rung ≠ .hush ∧ u.chip.rung.rung ≠ .doze)

/-- R269, R275, R290 and R340: L1 only on an idle link; a link that trains reports its speed and width; a BAR2 write reaches the bytes of a
hank that the host tag holds and nothing else, a BAR2 read returns the hank's bytes, another access is dropped, counted and logged;
PME_Turn_Off is acknowledged, and outside maintenance start writes the keep and announces the module's slip. -/
def Obligations.LinkAndBar2Accesses : Prop :=
  (∀ s : State, s.chip.pcie.up = true → s.chip.pcie.power = .l0 → s.chip.pcie.tags = [] → (∀ e ∈ s.chip.pcie.fns, e.2.held = [] ∧ e.2.heldResp = []) →
    exec .l1Entry s = .next { s with chip := { s.chip with pcie := { s.chip.pcie with
      power := .l1, ltrUs := if s.chip.guaranteedLive then 20 else 1000 } } }) ∧
  (∀ s : State, (s.chip.pcie.up = false ∨ s.chip.pcie.power ≠ .l0 ∨ ∃ e ∈ s.chip.pcie.tags, e.2.state = .outstanding) →
    exec .l1Entry s = .next s) ∧
  (∀ (s : State) (speed width : Nat), speed < 16 → width < 32 → exec (.pcieLinkUp speed width) s = .next (if s.chip.pins.perstN then { s with
    chip := { s.chip with pcie := { s.chip.pcie with up := true, speed := speed, width := width, power := .l0 } } } else s)) ∧
  (∀ (s : State) (fn handle h off : Nat) (b : List Byte), Safety.Inv s → s.chip.reachableFn fn = true → s.chip.hank.ofHandle fn handle = some h →
    (s.chip.hank.entry h).charged = true → (s.chip.hank.entry h).owner = hostTag fn → off + b.length ≤ 0x4000 → 0 < b.length →
    ∃ t, exec (.bar2Access fn handle off (.write b)) s = .next t ∧
      t = { s with chip := { s.chip.tlp with hbm := t.chip.hbm, pnl := t.chip.pnl }, mem := t.mem } ∧
      ∀ a, Mem.read t.mem a = if a - (h * 0x4000 + off) < b.length ∧ h * 0x4000 + off ≤ a then b.getD (a - (h * 0x4000 + off)) 0 else Mem.read s.mem a) ∧
  (∀ (s : State) (fn handle h off n : Nat), s.chip.reachableFn fn = true → s.chip.hank.ofHandle fn handle = some h →
    (s.chip.hank.entry h).charged = true → (s.chip.hank.entry h).owner = hostTag fn → off + n ≤ 0x4000 → 0 < n →
    ∃ t, exec (.bar2Access fn handle off (.read n)) s = .next t ∧ t.mem = s.mem ∧
      t.chip.pcie.bar2Data = (List.range n).map (fun i => Mem.read s.mem (h * 0x4000 + off + i)) ∧
      t.chip.queues = s.chip.queues ∧ t.chip.hank = s.chip.hank ∧ t.chip.cast = s.chip.cast ∧ t.chip.gauge = s.chip.gauge) ∧
  (∀ (s : State) (fn handle off n : Nat), s.chip.reachableFn fn = true →
    (∀ h, s.chip.hank.ofHandle fn handle = some h → ¬ ((s.chip.hank.entry h).charged = true ∧ (s.chip.hank.entry h).owner = hostTag fn)) →
    ∃ t, exec (.bar2Access fn handle off (.read n)) s = .next t ∧
      t = { s with chip := { s.chip with pcie := t.chip.pcie, log := t.chip.log, evc := t.chip.evc } } ∧
      t.chip.pcie.barDrop = s.chip.pcie.barDrop.inc ∧ t.chip.pcie.bar2Data = List.replicate n 0) ∧
  (∀ s : State, s.chip.pcie.up = true → ∃ t, exec .pmeTurnOff s = .next t ∧ t.chip.pcie.pmeAck = true ∧
    (s.chip.maint = false → s.chip.rst.trayReq = false → s.chip.pat.mode ≠ .starting →
      t.chip.keep.vcore2 = s.chip.gauge.vcore2 ∧ t.chip.keep.digest = s.chip.pat.digest ∧ (t.chip.rnd.slipped = false → t.chip.rnd.slipPending = true) ∧
      t.chip.gauge = s.chip.gauge ∧ t.chip.pat = s.chip.pat))
/-! ### Management -/

/-- R292: the SPDM responder answers each request over the DOE mailbox, with an edge on source DOE, while the link is up, and over SMBus
while the module is managed: version 1.2, its capabilities, ECDSA P-384 with SHA-384, certificate slot 0 alone, and the measurements of
Table 13.13. The two algorithm codes and the layout of the argument are the model's (log 21). -/
def Obligations.SpdmAnswersRequests : Prop :=
  ∀ (s : State) (arg off i : Nat) (sign : Bool), off < 65536 → 1 ≤ i → i ≤ 5 →
    let sel := i + (if sign then 256 else 0)
    let measured := SpdmAnswer.measurements [i] [s.chip.measured i] sign
    (s.chip.pcie.up = true → s.chip.pins.perstN = true →
      ∀ p ∈ [(Instr.doeDiscovery 0, SpdmAnswer.doeProtocol 1 0 1), (.doeDiscovery 1, .doeProtocol 1 1 0), (.getVersion false arg, .version 0x12),
             (.getCapabilities false arg, .capabilities), (.negotiateAlgorithms false arg, .algorithms 0x80 0x02), (.getDigests false arg, .digests 1),
             (.getCertificate false (65536 * off), .certificate 0 off), (.getCertificate false 1, .error), (.challenge false 0, .challengeAuth 0),
             (.challenge false 1, .error), (.getMeasurements false sel, measured)],
        exec p.1 s = .next { s with chip := Chip.edge { s.chip with pcie := { s.chip.pcie with doe := p.2 :: s.chip.pcie.doe } } 273 }) ∧
    (s.chip.managed = true →
      ∀ p ∈ [(Instr.getVersion true arg, SpdmAnswer.version 0x12), (.getCapabilities true arg, .capabilities), (.negotiateAlgorithms true arg, .algorithms 0x80 0x02),
             (.getDigests true arg, .digests 1), (.getCertificate true (65536 * off), .certificate 0 off), (.challenge true 0, .challengeAuth 0),
             (.getMeasurements true sel, measured)],
        exec p.1 s = .next { s with chip := { s.chip with pcie := { s.chip.pcie with smbSpdm := p.2 :: s.chip.pcie.smbSpdm } } }) ∧
    (s.chip.pcie.up = false → ∀ c ∈ [Instr.doeDiscovery i, .getVersion false arg, .getMeasurements false arg], exec c s = .next s)

/-- R377, R379, R380 and R389: the SMBus endpoint answers while it is powered; the Alert Response Address gives the module's address and, where
it wins, releases ALERT_N unless the module is still hot; an endpoint ID is taken and shown; READ_REG returns what BAR0 reads, READ_LOG the
records asked for, ACK_ALARM acknowledges as LOG_ALARM_ACK does; all but GET_STATUS answer NOT_READY while the module is not managed.
The null and the broadcast ID are not taken (log 63). -/
def Obligations.SmbusAnswersCommands : Prop :=
  ∀ s : State, s.chip.pins.aux = true →
    let say := fun (c : Chip) (a : SmbAnswer) => (.next { s with chip := { c with smbus := a :: c.smbus } } : Host.Outcome State Fault Refusal)
    (s.chip.pins.alert = true → exec (.alertResponse true) s = .next { s with chip := { s.chip with
       smbus := .alertAddress (0x40 + s.chip.pins.slotId % 32) :: s.chip.smbus, pins := { s.chip.pins with alert := s.chip.pins.alertHot } } }) ∧
    exec (.alertResponse false) s = .next s ∧
    (∀ eid, 0 < eid → eid < 255 → exec (.setEndpointId eid) s = say { s.chip with pins := { s.chip.pins with eid := eid } } (.endpointId eid)) ∧
    (∀ eid, eid = 0 ∨ 255 ≤ eid → exec (.setEndpointId eid) s = say s.chip (.endpointId s.chip.pins.eid)) ∧
    exec .getEndpointId s = say s.chip (.endpointId s.chip.pins.eid) ∧ exec .getMctpVersionSupport s = say s.chip .mctpVersion ∧
    exec .getMessageTypeSupport s = say s.chip (.messageTypes [0x00, 0x05, 0x7E]) ∧
    exec (.getVendorDefinedMessageSupport 0) s = say s.chip (.vendorMessage 0x1FA7) ∧
    (∀ k, k ≠ 0 → exec (.getVendorDefinedMessageSupport k) s = say s.chip .noMore) ∧
    exec .getStatus s = say s.chip (.vendor 1 0 s.chip.statusPayload) ∧ s.chip.statusPayload.length = 29 ∧
    (s.chip.managed = true → ∀ off, readable off = true → ∃ v, s.chip.bar0Read 0 off 4 = some v ∧
      exec (.readReg off) s = say { s.chip with gauge := if off = 0x10030 then s.chip.gauge.latchTime else s.chip.gauge } (.vendor 2 0 (leBytes 4 v))) ∧
    (s.chip.managed = true → ∀ off, readable off = false → exec (.readReg off) s = say s.chip (.vendor 2 2 [])) ∧
    (s.chip.managed = true → ∀ seq, ∀ r ∈ s.chip.log.hbm, r.seq = seq % 4294967296 → (∀ x ∈ s.chip.log.hbm, x.seq = r.seq → x = r) →
      exec (.readLog seq 1) s = say s.chip (.vendor 3 0 r.bytes)) ∧
    (s.chip.managed = true → ∀ k rep, k < 64 → rep < 256 →
      exec (.ackAlarm k rep) s = say (s.chip.alarmAck k rep) (.vendor 4 0 [])) ∧
    (s.chip.managed = false → ∀ off seq n k rep,
      exec (.readReg off) s = say s.chip (.vendor 2 1 []) ∧ exec (.readLog seq n) s = say s.chip (.vendor 3 1 []) ∧
      exec (.ackAlarm k rep) s = say s.chip (.vendor 4 1 []) ∧ ∀ l, exec (.requestReset l) s = say s.chip (.vendor 5 1 []))
/-! ### Supplies, resets from the pins, slots -/

/-- R303, R306 and R358: PERST# released starts the module in full unless it woke from Nap or Dormant, ends a warm chip reset, or leaves
a module that waits for the tray waiting; PERST# asserted after PME_TO_Ack is Nap with everything but the keep, the flash and the time
base lost; asserted otherwise in an applied module it leaves a warm chip reset to end. -/
def Obligations.PerstStartsAndStops : Prop :=
  (∀ (s : State) (e : StartEnv), s.chip.pins.perstN = false → s.chip.pins.aux = true → s.chip.pins.pg = true → s.chip.pins.modRstN = true →
    s.chip.rst.trayReq = false → s.chip.rst.warmPending = false → s.chip.startsKept = false →
    ∃ t, exec (.perstRelease e) s = .next t ∧ Safety.Started s.chip t) ∧
  (∀ (s : State) (e : StartEnv) (i : Image), s.chip.pins.perstN = false → s.chip.pins.aux = true → s.chip.pins.pg = true → s.chip.pins.modRstN = true →
    s.chip.rst.trayReq = false → s.chip.rst.warmPending = true → s.chip.pat.staged = some i → i.digest = s.chip.pat.stagedDigest →
    ∃ t, exec (.perstRelease e) s = .next t ∧ t.mem = s.mem ∧ t.chip.rst.fenced = false ∧ t.chip.rst.warmPending = false ∧ t.chip.cast.closed = false ∧
      t.chip.pins.perstN = true ∧ (t.chip.log.slot 34).first.isSome = true ∧ t.chip.rst.warmCount = min 65535 (s.chip.rst.warmCount + 1) ∧
      t.chip.gauge.floor = i.pattern.policy.floor ∧ t.chip.gauge.time = s.chip.gauge.time) ∧
  (∀ (s : State) (e : StartEnv), s.chip.pins.perstN = true ∨ s.chip.pins.aux = false ∨ s.chip.pins.pg = false →
    exec (.perstRelease e) s = .next s) ∧
  (∀ s : State, s.chip.pins.perstN = true → s.chip.pat.mode = .applied → s.chip.rst.trayReq = false → s.chip.pcie.pmeAck = true →
    ∃ t, exec .perstAssert s = .next t ∧ t.mem = [] ∧ t.chip.rung.rung = .nap ∧ t.chip.pins.perstN = false ∧ t.chip.cast.tickets = [] ∧
      t.chip.hank.recs = [] ∧ t.chip.keep.vcore2 = s.chip.gauge.vcore2 ∧ t.chip.keep.digest = s.chip.pat.digest ∧
      t.chip.gauge.time = s.chip.gauge.time ∧ t.chip.pat.flashA = s.chip.pat.flashA ∧ t.chip.pat.flashB = s.chip.pat.flashB ∧
      t.chip.log.pers = s.chip.log.pers) ∧
  (∀ s : State, s.chip.pins.perstN = true → s.chip.pat.mode = .applied → s.chip.rst.trayReq = false → s.chip.pcie.pmeAck = false →
    s.chip.recentWarm.length < 2 → ∃ t, exec .perstAssert s = .next t ∧ t.chip.rst.warmPending = true ∧ t.chip.rst.fenced = true ∧
      t.chip.pins.perstN = false ∧ t.chip.gauge = s.chip.gauge ∧ t.chip.pat = s.chip.pat ∧ t.chip.keep = s.chip.keep) ∧
  (∀ s : State, s.chip.pins.perstN = false → exec .perstAssert s = .next s)

/-- R374 to R376 and R373: the power pins. PWR_EN rising raises PG unless an undervoltage still locks the module off; PWR_EN falling, or
an undervoltage, leaves a powered module Dormant with its memories lost; without the auxiliary supply only the flash and the persistent
log remain. MOD_RST_N holds the module for a full start at its release. Unstable straps are flagged and, without an ID from the
pattern, close the slip. -/
def Obligations.SuppliesAndResetPins : Prop :=
  (∀ s : State, s.chip.pins.pwrEn = false → s.chip.pins.aux = true → ∃ t, exec .powerEnableRise s = .next t ∧
    t = { s with chip := { s.chip with pins := t.chip.pins } } ∧ t.chip.pins.pwrEn = true ∧
    t.chip.pins.pg = (s.chip.pins.p48v && (!s.chip.pins.lockout || s.chip.lowLong))) ∧
  (∀ s : State, s.chip.pins.pwrEn = true → s.chip.pins.aux = true → s.chip.pins.pg = true → ∃ t, exec .powerEnableFall s = .next t ∧
    t.mem = [] ∧ t.chip.rung.rung = .dormant ∧ t.chip.pins.pwrEn = false ∧ t.chip.pins.pg = false ∧ t.chip.pins.pwrLowAt = some s.chip.gauge.time ∧
    t.chip.rst.trayReq = false ∧ t.chip.cast.tickets = [] ∧ t.chip.gauge.time = s.chip.gauge.time ∧ t.chip.pat.flashA = s.chip.pat.flashA) ∧
  (∀ s : State, s.chip.pins.pwrEn = true → s.chip.pins.pg = true → ∃ t, exec .inputUndervoltage s = .next t ∧
    t.mem = [] ∧ t.chip.rung.rung = .dormant ∧ t.chip.pins.p48v = false ∧ t.chip.pins.lockout = true ∧ t.chip.pins.pg = false ∧
    t.chip.gauge.time = s.chip.gauge.time) ∧
  (∀ s : State, exec .inputVoltageRestored s = .next { s with chip := { s.chip with pins := { s.chip.pins with p48v := true } } } ∧
    exec .auxUp s = .next { s with chip := { s.chip with pins := { s.chip.pins with aux := true } } } ∧
    ∃ t, exec .auxLoss s = .next t ∧ t.mem = [] ∧ t.chip.pins.aux = false ∧ t.chip.pins.pg = false ∧ t.chip.gauge.time = 0 ∧
      t.chip.keep = {} ∧ t.chip.log.pers = s.chip.log.pers ∧ t.chip.log.hbm = [] ∧ t.chip.pat.flashA = s.chip.pat.flashA ∧
      t.chip.pat.flashB = s.chip.pat.flashB ∧ t.chip.pat.recovery = s.chip.pat.recovery) ∧
  (∀ s : State, ∃ t, exec .strapsUnstable s = .next t ∧ t.chip.pins.strapsUnstable = true ∧
    t = { s with chip := { s.chip with pins := t.chip.pins, rnd := t.chip.rnd, log := t.chip.log, evc := t.chip.evc } } ∧
    (s.chip.rnd.fromPattern = false → t.chip.rnd.slipped = true ∧ t.chip.rnd.settledId = false) ∧
    (s.chip.rnd.fromPattern = true → t.chip.rnd = s.chip.rnd)) ∧
  (∀ s : State, s.chip.pins.modRstN = true → s.chip.pins.pg = true → ∃ t, exec .modRstAssert s = .next t ∧ t.chip.pat.mode = .starting ∧
    t.chip.cast.closed = true ∧ t.chip.gauge.running = false ∧ t.chip.rnd.slipped = true ∧ t.chip.rst.trayReq = s.chip.rst.trayReq ∧
    t.chip.rst.warmPending = false ∧ t.chip.pat.flashA = s.chip.pat.flashA ∧ t.chip.gauge.time = s.chip.gauge.time ∧ t.chip.pins.modRstN = false) ∧
  (∀ s : State, s.chip.pins.modRstN = true → s.chip.pins.pg = false →
    exec .modRstAssert s = .next { s with chip := { s.chip with pins := { s.chip.pins with modRstN := false } } }) ∧
  (∀ (s : State) (e : StartEnv), s.chip.pins.modRstN = false → s.chip.pins.perstN = true → s.chip.pins.pg = true → s.chip.rst.trayReq = false →
    ∃ t, exec (.modRstRelease e) s = .next t ∧ Safety.Started s.chip t) ∧
  (∀ (s : State) (e : StartEnv), s.chip.pins.modRstN = false → s.chip.pins.perstN = false →
    exec (.modRstRelease e) s = .next { s with chip := { s.chip with pins := { s.chip.pins with modRstN := true } } })

/-- R307 to R309: in maintenance start a write that passes the checks of Table 14.11 erases the slot that does not hold the highest valid
SEQ; its end commits the image with the next SEQ if the read-back matches and reports the result, else reports a failure and leaves the
slots as they are. A GO out of maintenance start, or while a write runs, is ignored and logged. The other slot never changes. -/
def Obligations.SlotsAreWrittenInMaintenance : Prop :=
  (∀ (s : State) (img : Option Image), s.chip.reachableFn 0 = true → s.chip.maint = false ∨ s.chip.pat.wrBusy = true →
    exec (.slotWrite 0 img) s = .next { s with chip := s.chip.tlp.regIncident .patIgnored 0x402C }) ∧
  (∀ (s : State) (i : Image), s.chip.reachableFn 0 = true → s.chip.maint = true → s.chip.pat.wrBusy = false → s.chip.writeResult 0 (some i) = 0 →
    ∃ t, exec (.slotWrite 0 (some i)) s = .next t ∧ t.mem = s.mem ∧ t.chip.pat.wrBusy = true ∧ t.chip.pat.wrImage = some i ∧ t.chip.log.persDefer = true ∧
      t.chip.pat.wrTargetB = s.chip.pat.targetB ∧ (if s.chip.pat.targetB then t.chip.pat.flashB else t.chip.pat.flashA) = { image := none, commit := none } ∧
      (if s.chip.pat.targetB then t.chip.pat.flashA = s.chip.pat.flashA else t.chip.pat.flashB = s.chip.pat.flashB) ∧
      t.chip.pat.recovery = s.chip.pat.recovery) ∧
  (∀ (s : State) (img : Option Image), s.chip.reachableFn 0 = true → s.chip.maint = true → s.chip.pat.wrBusy = false →
    s.chip.writeResult 0 img ≠ 0 → ∃ t, exec (.slotWrite 0 img) s = .next t ∧ t.chip.pat.wrResult = s.chip.writeResult 0 img ∧
      t.chip.pat.wrBusy = false ∧ t.chip.pat.flashA = s.chip.pat.flashA ∧ t.chip.pat.flashB = s.chip.pat.flashB) ∧
  (∀ (s : State) (i : Image) (d : Nat), s.chip.pat.wrBusy = true → s.chip.pat.wrImage = some i →
    ∃ t, exec (.slotWriteEnd d) s = .next t ∧ t.chip.pat.wrBusy = false ∧ t.chip.log.persDefer = false ∧
      t.chip.pat.wrResult = (if d = i.digest then 0 else 8) ∧
      (if s.chip.pat.wrTargetB then t.chip.pat.flashB else t.chip.pat.flashA) =
        (if d = i.digest then { image := some i, commit := some { magic := 0x54494D43, seq := max s.chip.pat.flashA.seq s.chip.pat.flashB.seq + 1
                                                                  imageLen := s.chip.pat.wrLen.toNat, digest := i.digest, crcOk := true } }
         else if s.chip.pat.wrTargetB then s.chip.pat.flashB else s.chip.pat.flashA) ∧
      (if s.chip.pat.wrTargetB then t.chip.pat.flashA = s.chip.pat.flashA else t.chip.pat.flashB = s.chip.pat.flashB) ∧
      t = { s with chip := { s.chip with pat := t.chip.pat, log := { s.chip.log with persDefer := false }, evc := t.chip.evc } })
/-! ### Recovery -/

/-- R343, R351, R354 and R355: a trip comes when a unit of the context has run for its limit; one of an engine below the holder resets it, records that and raises alarm 32, and, but for an HBM channel,
starts a tink of the contexts found on it, in their order; a replay that completes leaves the tink to the next suspect, one that trips
makes its context a culprit and counts a reset; the last replay ends the tink. A trip of no engine, on a fenced chip, or of a unit that waits
on an engine that has tripped (R344), does nothing. -/
def Obligations.TripsAreTinked : Prop :=
  (∀ (s : State) (e ctx : Nat), e < 149 → s.chip.rst.fenced = false → s.chip.waitsForTrip e (ctx % 16384) = false → s.chip.rst.tink = none → s.chip.onEngine e ≠ [] →
    ∃ t, exec (.trip e ctx) s = .next t ∧
      t.chip.rst.tink = some { engine := e, resets := 1, left := s.chip.orderSuspects (s.chip.onEngine e), culprits := [] } ∧
      t.chip.rst.lastLevel = 2 ∧ t.chip.rst.lastCause = 1 ∧ t.chip.rst.lastEngine = e ∧ t.chip.rst.lastCtx = ctx % 16384 ∧
      (t.chip.log.slot 32).first.isSome = true ∧ t.chip.gauge = (s.chip.toTrip e (ctx % 16384)).gauge ∧ t.chip.pat = s.chip.pat ∧ t.chip.keep = s.chip.keep) ∧
  (∀ (s : State) (e ctx : Nat), 192 ≤ e → e < 256 → s.chip.rst.fenced = false →
    ∃ t, exec (.trip e ctx) s = .next t ∧ Safety.quiet t.chip = Safety.quiet (s.chip.toTrip e (ctx % 16384))) ∧
  (∀ (s : State) (n ctx : Nat) (o : OpRt), n < 64 → (s.chip.needle n).ops = [o] → o.context = ctx → ctx < 16384 →
    (s.chip.toTrip n ctx).now = max s.chip.now (o.issued + opLimit s.chip.gauge.floor o.cost (o.maxWithheld (s.chip.issueRate n))) % 2 ^ 64) ∧
  (∀ (s : State) (k : Nat) (j : Job), k < 12 → (s.chip.vdec.core k).job = some j →
    (s.chip.toTrip (decEngine k) j.context).now = max s.chip.now (j.start + coreLimit s.chip.gauge.floor j.samples) % 2 ^ 64) ∧
  (∀ (s : State) (e ctx : Nat), realEngine e = false ∨ s.chip.rst.fenced = true ∨ s.chip.waitsForTrip e (ctx % 16384) = true →
    exec (.trip e ctx) s = .next s) ∧
  (∀ (s : State) (b : Bool), s.chip.rst.tink = none → exec (.tinkReplayEnd b) s = .next s) ∧
  (∀ (s : State) (k : Tink) (x y : Nat) (l : List Nat), s.chip.rst.tink = some k → k.left = x :: y :: l →
    (∃ t, exec (.tinkReplayEnd false) s = .next t ∧ t.chip.rst = { s.chip.rst with tink := some { k with left := y :: l } } ∧
      t = { s with chip := { s.chip with rst := t.chip.rst, vdec := t.chip.vdec, venc := t.chip.venc } }) ∧
    (k.resets + 1 ≠ 4 → ∃ t, exec (.tinkReplayEnd true) s = .next t ∧
      t.chip.rst.tink = some { k with resets := k.resets + 1, left := y :: l, culprits := k.culprits ++ [x] } ∧
      t.chip.gauge = (s.chip.toTrip k.engine x).gauge ∧ t.chip.pat = s.chip.pat)) ∧
  (∀ (s : State) (k : Tink) (x : Nat), s.chip.rst.tink = some k → k.left = [x] → k.culprits ≠ [] →
    ∃ t, exec (.tinkReplayEnd false) s = .next t ∧ t.chip.rst.tink = s.chip.rst.waitTinks.head? ∧
      t.chip.rst.waitTinks = s.chip.rst.waitTinks.drop 1 ∧ t.chip.gauge = s.chip.gauge ∧ t.chip.pat = s.chip.pat)

/-- R352, R356 to R361, R365, R389 and Table 17.10: recoveries that the module or the host requests. A silent holder core, a holder trip and
an overrun panel reset are warm chip resets; an overrun engine reset is a panel reset and an overrun warm reset a power-cycle request,
as is a warm reset whose staged pattern no longer matches and the third within 60 s. A host request is refused, absorbed, or done with
its result reported and an edge on source 392; while one is in progress another is ignored and logged. REQUEST_RESET over SMBus asks for
the same resets under the same BUSY. -/
def Obligations.RecoveriesRun : Prop :=
  (∀ (s : State) (i : Image) (b : Bool) (p e ctx : Nat), Safety.WarmReady s.chip i → 149 ≤ e → e < 153 → s.chip.rst.fenced = false →
    ∀ c ∈ [Instr.heartbeatTimeout b, .recoveryOverrun (.panelReset p), .trip e ctx], ∃ t, exec c s = .next t ∧ Safety.WarmDone s.chip t.chip i) ∧
  (∀ (s : State) (i : Image), Safety.WarmReady s.chip i → s.chip.rst.reqBusy = false → s.chip.rst.fenced = false →
    ∃ t, exec .warmChipReset s = .next t ∧ Safety.WarmDone s.chip t.chip i ∧ t.chip.rst.reqResult = 1 ∧ (t.chip.evc.src 392).pending = true) ∧
  (∀ (s : State), s.chip.rst.trayReq = false → s.chip.pat.mode = .applied → 2 ≤ s.chip.recentWarm.length →
    (∃ t, exec (.heartbeatTimeout true) s = .next t ∧ Safety.TrayAsked s.chip t.chip) ∧
    (s.chip.rst.reqBusy = false → s.chip.rst.fenced = false → ∃ t, exec .warmChipReset s = .next t ∧ t.chip.rst.trayReq = true ∧ t.chip.rst.reqResult = 3)) ∧
  (∀ s : State, s.chip.rst.trayReq = false → ∃ t, exec (.recoveryOverrun .warmReset) s = .next t ∧ Safety.TrayAsked s.chip t.chip) ∧
  (∀ s : State, exec (.recoveryOverrun .powerCycle) s = .next s) ∧
  (∀ (s : State) (p : Nat), s.chip.enginePanel s.chip.rst.lastEngine = some p →
    ∃ u, exec (.recoveryOverrun .engineReset) s = .next (Safety.allUpToDate (u.chip.cast.tickets.map (fun t => t.id)) u) ∧
      Safety.PanelWasReset s.chip u.chip p 5 s.chip.rst.lastEngine) ∧
  (∀ s : State, s.chip.rst.reqBusy = false → s.chip.rst.fenced = false → s.chip.rst.trayReq = false → s.chip.pat.mode ≠ .starting →
    let done := fun (x : State) => ({ x with chip := x.chip.requestDone 1 } : State)
    (∀ p, (s.chip.panel p).valid = true → ∃ u, Safety.PanelWasReset s.chip u.chip p 2 0xFF ∧
      exec (.panelReset p) s = .next (done (Safety.allUpToDate (u.chip.cast.tickets.map (fun t => t.id)) u))) ∧
    (∀ p, (s.chip.panel p).valid = false → exec (.panelReset p) s = .next { s with chip := s.chip.requestDone 2 }) ∧
    (∀ (ctx : Nat) (k : Ticket) (q : Placed), s.chip.ctxTicket ctx = some k → k.fn = 0 → k.garment = none → k.stageOf ctx = some q →
      ∃ u, exec (.frog ctx) s = .next (done (Safety.upToDate k.id u)) ∧ u.chip.rst.lastValid = true ∧ u.chip.rst.lastLevel = 1 ∧ u.chip.rst.lastCause = 2 ∧
        u.chip.rst.lastCtx = ctx ∧ u.chip.rst.tink = none ∧ u.chip.gauge = s.chip.gauge ∧ u.chip.pat = s.chip.pat) ∧
    (∀ ctx, s.chip.frogAllowed ctx = false → exec (.frog ctx) s = .next { s with chip := s.chip.requestDone 2 }) ∧
    (∃ t, exec .maintenanceStart s = .next t ∧ t.chip.pat.maintCause = 2 ∧ t.chip.cast.closed = true ∧ t.chip.rnd.slipped = true ∧ t.chip.rst.fenced = false ∧
      t.chip.pat.mode = (if (s.chip.pat.recovery.full s.chip.pat.romRev).1 = 0 then .maintRecovery else .maintRom) ∧ t.chip.rst.reqResult = 1) ∧
    (∃ t, exec .powerCycle s = .next t ∧ Safety.TrayAsked s.chip t.chip ∧ t.chip.rst.reqResult = 1 ∧ t.chip.rst.reqBusy = false)) ∧
  (∀ (s : State) (p ctx : Nat), s.chip.rst.reqBusy = true → ∀ c ∈ [Instr.frog ctx, .panelReset p, .warmChipReset, .maintenanceStart, .powerCycle],
    exec c s = .next { s with chip := s.chip.regIncident .requestIgnored 0x700004 }) ∧
  (∀ (s : State) (p ctx : Nat), s.chip.rst.reqBusy = false → s.chip.rst.fenced = true →
    ∀ c ∈ [Instr.frog ctx, .panelReset p, .warmChipReset, .maintenanceStart, .powerCycle], exec c s = .next { s with chip := s.chip.requestDone 3 }) ∧
  (∀ s : State, s.chip.managed = true →
    let say := fun (k : Nat) => ({ s with chip := { s.chip with smbus := .vendor 5 k [] :: s.chip.smbus } } : State)
    (s.chip.rst.reqBusy = false → exec (.requestReset 3) s = exec .warmChipReset (say 0) ∧ exec (.requestReset 4) s = exec .maintenanceStart (say 0)) ∧
    (s.chip.rst.reqBusy = true → exec (.requestReset 3) s = .next (say 3) ∧ exec (.requestReset 4) s = .next (say 3)) ∧
    exec (.requestReset 2) s = .next (say 2))
/-! ### Admission, bind-off, garments -/

/-- R41 to R43, R46, R51, R53: a cast-on without a request in flight does nothing, one whose descriptor cannot be read is dropped, and no
request changes more than the parts named; then the requests behind it are taken in their turn (R45). A bad field (BAD_DESCRIPTOR, with its offset), closed admission (FENCED) and each later check
refuse it and reserve nothing; an accepted one is a live ticket with the next number, contexts of its own and its markers at count 0. -/
def Obligations.CastOnIsDecided : Prop :=
  (∀ (s : State) (fn : Nat) (d : HostRead), s.chip.requested fn = false →
    ∀ c ∈ [Instr.castOn fn d, .garmentCastOn fn d, .bindOff fn d], exec c s = .next s) ∧
  (∀ (s : State) (fn : Nat) (d : HostRead), s.chip.requested fn = true → d = .failed ∨ d = .timedOut →
    ∀ c ∈ [Instr.castOn fn d, .garmentCastOn fn d, .bindOff fn d], ∃ t, exec c s = .next (Safety.decided t) ∧
      t = { s with chip := { s.chip with pcie := t.chip.pcie, cast := t.chip.cast } } ∧ (t.chip.cast.fn fn).busy = false ∧
      t.chip.cast.tickets = s.chip.cast.tickets ∧ (t.chip.cast.fn fn).last = (s.chip.cast.fn fn).last) ∧
  (∀ (s : State) (fn : Nat) (b : List Byte), s.chip.requested fn = true → fn ≤ 16 →
    let r := Req.of b
    let c := s.chip.castRead fn (.data b)
    ∃ t, exec (.castOn fn (.data b)) s = .next (Safety.decided t) ∧
      t = { s with chip := { s.chip with pcie := t.chip.pcie, cast := t.chip.cast, markers := t.chip.markers, pnl := t.chip.pnl,
                                         hostTx := t.chip.hostTx, evc := t.chip.evc } } ∧
      (∀ off, r.firstBad fn 1 = some off →
        Safety.CastAnswered s.chip t.chip fn r { reason := 1, detail := off, price := if r.op = 2 then 0 else r.price } ∧ t.chip.cast.tickets = s.chip.cast.tickets) ∧
      (r.firstBad fn 1 = none → s.chip.closed = true →
        Safety.CastAnswered s.chip t.chip fn r { reason := 2, price := r.price } ∧ t.chip.cast.tickets = s.chip.cast.tickets) ∧
      (r.firstBad fn 1 = none → s.chip.closed = false → ∀ v, c.judge r r.pipeline [] = .inl v →
        Safety.CastAnswered s.chip t.chip fn r { v with price := r.price } ∧ t.chip.cast.tickets = s.chip.cast.tickets ∧
        t.chip.markers = s.chip.markers ∧ t.chip.pnl = s.chip.pnl ∧ t.chip.cast.refused = s.chip.cast.refused.inc ∧
        t.chip.cast.lastTicket = s.chip.cast.lastTicket) ∧
      (r.firstBad fn 1 = none → s.chip.closed = false → ∀ ps, c.judge r r.pipeline [] = .inr ps →
        ∃ (k : Ticket) (v : Verdict), t.chip.cast.tickets = s.chip.cast.tickets ++ [k] ∧ k.id = nextTicket s.chip.cast.lastTicket ∧
          t.chip.cast.lastTicket = k.id ∧ k.fn = fn ∧ k.guaranteed = r.guaranteed ∧ k.pipeline = r.pipeline ∧ k.codec = r.codec ∧
          k.deadlineUs = r.deadline ∧ k.queue = globalQueue fn r.queue ∧ k.quota = quotaFor r ps ∧ k.garment = none ∧ k.closing = false ∧
          (∀ x ∈ k.contexts, x ∉ s.chip.usedContexts) ∧ k.contexts.length = ctxNeed ps ∧ k.markers.length = mrkNeed ps ∧
          (∀ m ∈ k.markers, (t.chip.marker m).scope = 1 ∧ (t.chip.marker m).ticket = k.id ∧ (t.chip.marker m).count = 0) ∧
          v.reason = 0 ∧ v.ticket = k.id ∧ v.price = r.price ∧ Safety.CastAnswered s.chip t.chip fn r v))

/-- R41, R42, R46, R57 and R59: a bind-off that names no live ticket of the function, one that ends already, or a garment's that another
module leads, is answered UNKNOWN_TICKET and changes no ticket; with DRAIN the ticket takes no more submissions and its stream goes on;
without it the ticket is gone when the response is written. The last drained output ends a draining ticket: it is gone, its markers are
free, no hank is charged to it but those that a host tag holds, and the response of its bind-off is written, decided as the drain began; a
drained part of another module's garment is gone without one (log 109). -/
def Obligations.BindOffEndsTickets : Prop :=
  (∀ (s : State) (fn : Nat) (b : List Byte), s.chip.requested fn = true → fn ≤ 16 → (Req.of b).firstBad fn 2 = none → s.chip.closed = false →
    let r := Req.of b
    (s.chip.bindable fn r = none → ∃ t, exec (.bindOff fn (.data b)) s = .next (Safety.decided t) ∧
      t = { s with chip := { s.chip with pcie := t.chip.pcie, cast := t.chip.cast, hostTx := t.chip.hostTx, evc := t.chip.evc } } ∧
      t.chip.cast.tickets = s.chip.cast.tickets ∧ Safety.CastAnswered s.chip t.chip fn r { reason := 3 }) ∧
    (∀ k, s.chip.bindable fn r = some k → r.drain = true → ∃ u,
      exec (.bindOff fn (.data b)) s = .next (Safety.decided (Safety.upToDate k.id u)) ∧
      u = { s with chip := { s.chip with pcie := u.chip.pcie, cast := u.chip.cast } } ∧ (u.chip.cast.fn fn).busy = (s.chip.cast.fn fn).busy ∧
      ∃ n, u.chip.ticket? k.id = some (k.drain n s.chip.now (some (r.tag, r.resp)))) ∧
    (∀ k, s.chip.bindable fn r = some k → r.drain = false → ∃ t, exec (.bindOff fn (.data b)) s = .next (Safety.decided t) ∧
      Safety.quiet t.chip = Safety.quiet s.chip ∧ t.chip.ticket? k.id = none ∧
      Safety.Responded t.chip fn r.resp 0 (Verdict.bytes { reason := 0, ticket := k.id } r.tag t.chip.nowLo t.chip.rnd.id))) ∧
  (∀ (s : State) (id tag resp : Nat) (k : Ticket), s.chip.ticket? id = some k → k.drainTag = some (tag, resp) →
    (k.drained = false → exec (.bindOffDrainEnd id) s = .next s) ∧
    (k.drained = true → ∃ t, exec (.bindOffDrainEnd id) s = .next t ∧ Safety.quiet t.chip = Safety.quiet s.chip ∧
      t.chip.ticket? id = none ∧ (id, k.fn) ∈ t.chip.cast.closedIds ∧ (∀ m ∈ k.markers, t.chip.marker m = {}) ∧
      (∀ h, (t.chip.hank.entry h).charged = true → (t.chip.hank.entry h).ticket = id → (tagFn (t.chip.hank.entry h).owner).isSome = true) ∧
      Safety.Responded t.chip k.fn resp 0 (Verdict.bytes { reason := 0, ticket := id } tag (k.drainAt % 2 ^ 32) t.chip.rnd.id))) ∧
  (∀ (s : State) (id : Nat) (k : Ticket), s.chip.ticket? id = some k → k.drainTag = none →
    (k.partDrain = false ∨ k.drained = false → exec (.bindOffDrainEnd id) s = .next s) ∧
    (k.partDrain = true → k.drained = true → ∃ t, exec (.bindOffDrainEnd id) s = .next t ∧ Safety.quiet t.chip = Safety.quiet s.chip ∧
      t.chip.ticket? id = none ∧ t.chip.cast.fns = s.chip.cast.fns))

/-- R43, R46 and R59: a garment cast-on is checked like a cast-on and its lead's own part judged first. A refusal reserves nothing; otherwise
RESERVE goes to every member and every module between, the answers are awaited and no response is written yet, and where nobody is to be
asked the ticket is issued at once. 5 ms after RESERVE a missing answer refuses it with GARMENT_TIMEOUT and the silent module's ID, with
RELEASE to all; 10 ms after its answer a member that has heard nothing drops its hold (log 53). -/
def Obligations.GarmentsAreDecidedInTwoPhases : Prop :=
  (∀ (s : State) (fn : Nat) (b : List Byte), s.chip.requested fn = true → fn ≤ 16 →
    let r := Req.of b
    let c := s.chip.castRead fn (.data b)
    let ms := ((c.stream? r.pipeline).map (fun sd => sd.members)).getD []
    let loads := c.hopLoads r ms
    let mine := (ms.find? (fun m => m.module == c.rnd.id)).getD { module := c.rnd.id, deadline := r.deadline, pipeline := r.pipeline }
    let ids := (c.rnd.id :: ms.map (fun m => m.module)).eraseDups
    let asked := ids.filter (fun k => k != c.rnd.id) ++ ((loads.map (fun e => e.1)).filter (fun k => !ids.contains k)).eraseDups
    ∃ t, exec (.garmentCastOn fn (.data b)) s = .next (Safety.decided t) ∧
      t = { s with chip := { s.chip with pcie := t.chip.pcie, cast := t.chip.cast, markers := t.chip.markers, pnl := t.chip.pnl,
                                         rnd := t.chip.rnd, hostTx := t.chip.hostTx, evc := t.chip.evc } } ∧
      (∀ v, c.firstChecks fn 3 r = some v →
        Safety.CastAnswered s.chip t.chip fn r { v with price := if r.op = 2 then 0 else r.price } ∧
        t.chip.cast.tickets = s.chip.cast.tickets ∧ t.chip.cast.leads = s.chip.cast.leads ∧ t.chip.rnd = s.chip.rnd) ∧
      (c.firstChecks fn 3 r = none → ∀ v, c.judgePart r mine c.rnd.id ids (loadsOf loads c.rnd.id) = .inl v →
        Safety.CastAnswered s.chip t.chip fn r { v with price := r.price } ∧ t.chip.cast.tickets = s.chip.cast.tickets ∧
        t.chip.cast.leads = s.chip.cast.leads ∧ t.chip.rnd = s.chip.rnd ∧ t.chip.markers = s.chip.markers) ∧
      (c.firstChecks fn 3 r = none → ∀ k, c.judgePart r mine c.rnd.id ids (loadsOf loads c.rnd.id) = .inr k →
        (asked ≠ [] → (∃ l : GarmentLead, t.chip.cast.leads = s.chip.cast.leads ++ [l] ∧ l.garment = r.garment ∧ l.fn = fn ∧ l.due = asked ∧
            l.asked = asked ∧ l.sentAt = s.chip.now ∧ l.ticket.placed = k.placed) ∧
          t.chip.cast.tickets = s.chip.cast.tickets ∧ (t.chip.cast.fn fn).busy = true ∧ t.chip.hostTx = s.chip.hostTx ∧ t.chip.evc = s.chip.evc ∧
          ∀ m ∈ asked, ∃ body, Safety.Sent s.chip t.chip m 0x0002 0 r.garment ((b ++ zeros 64).take 64 ++ body)) ∧
        (asked = [] → ∃ (x : Ticket) (v : Verdict), t.chip.cast.tickets = s.chip.cast.tickets ++ [x] ∧ x.id = nextTicket s.chip.cast.lastTicket ∧
          x.garment = some r.garment ∧ x.lead = s.chip.rnd.id ∧ t.chip.cast.leads = s.chip.cast.leads ∧ v.reason = 0 ∧ v.ticket = x.id ∧
          Safety.CastAnswered s.chip t.chip fn r v))) ∧
  (∀ (s : State) (g : Nat) (l : GarmentLead), s.chip.cast.lead? g = some l → l.sentAt + 125000 < 2 ^ 64 → s.chip.now ≤ l.sentAt + 125000 →
    ∃ t, exec (.garmentAnswerTimeout g) s = .next t ∧ t.chip.gauge = { s.chip.gauge with time := l.sentAt + 125000 } ∧
      t.chip.cast.leads = s.chip.cast.leads.erase l ∧ t.chip.cast.tickets = s.chip.cast.tickets ∧ t.chip.cast.refused = s.chip.cast.refused.inc ∧
      (∀ m ∈ l.ticket.markers, t.chip.marker m = {}) ∧ (∀ m ∈ l.asked, m ≠ s.chip.rnd.id → Safety.Sent s.chip t.chip m 0x0004 0 l.garment []) ∧
      Safety.Responded t.chip l.fn l.respAddr 0x0011
        (Verdict.bytes { reason := 0x0011, detail := l.due.headD 0, price := l.price } l.reqTag t.chip.nowLo (l.due.headD 0)) ∧ t.mem = s.mem) ∧
  (∀ (s : State) (g : Nat) (h : GarmentHold), s.chip.cast.hold? g = some h → h.expires < 2 ^ 64 → s.chip.now ≤ h.expires →
    ∃ t, exec (.garmentHoldExpire g) s = .next t ∧ t.chip.gauge = { s.chip.gauge with time := h.expires } ∧
      t.chip.cast = { s.chip.cast with holds := s.chip.cast.holds.erase h } ∧ (∀ m ∈ h.ticket.markers, t.chip.marker m = {}) ∧
      (∀ m, m ∉ h.ticket.markers → t.chip.marker m = s.chip.marker m) ∧
      t = { s with chip := { s.chip with gauge := t.chip.gauge, cast := t.chip.cast, markers := t.chip.markers, waits := t.chip.waits,
                                         queues := t.chip.queues, hostTx := t.chip.hostTx, pcie := t.chip.pcie, evc := t.chip.evc } })

/-- R45, R59, R60, R363 and R364, in messages that arrive in order: RESERVE waits behind a doorbell whose request can be read, and else is
judged, held for 10 ms and answered; COMMIT turns the hold into the
ticket, or into the bandwidth of a module between, and without a hold is refused; RELEASE ends the part, be it a hold or a live
ticket, and so does BIND_OFF, a live ticket once its frames have committed (log 109); the last ANSWER of the lead's commits, an earlier one is awaited on, a refusal refuses with RELEASE to all; GARMENT_ABORT ends the
part, is recorded and raises alarm 37, and for a garment without a part here has no effect (layout of RESERVE: log 53). -/
def Obligations.GarmentMessagesAct : Prop :=
  ∀ (s : State) (p : Port) (f : RFrame),
    let c := Safety.takenIn s.chip p f
    (∀ k l, Safety.Arrives s.chip p f 0x0002 → s.chip.cast.order = .bell k :: l → s.chip.bellReads k = true →
      exec (.reserve p f) s = .next (Safety.controlEnd f.src
        { s with chip := { c with cast := { s.chip.cast with order := s.chip.cast.order ++ [.peer f] } } })) ∧
    (Safety.Arrives s.chip p f 0x0002 → s.chip.cast.order = [] → ∃ u, exec (.reserve p f) s = .next (Safety.controlEnd f.src u) ∧
      u = { s with chip := { s.chip with rnd := u.chip.rnd, cast := u.chip.cast, markers := u.chip.markers } } ∧
      u.chip.cast.tickets = s.chip.cast.tickets ∧
      (let body := f.payload.drop 2
       let path := reservePath body
       (c.closed = true → u.chip.cast = s.chip.cast ∧ Safety.Sent s.chip u.chip f.src 0x0005 0 f.garment (leBytes 2 2)) ∧
       (c.closed = false → le body 64 1 = 0 → c.roundCheck .east path = none → c.roundCheck .west path = none →
         (c.garmentBusy f.garment = true → u.chip.cast = s.chip.cast ∧ Safety.Sent s.chip u.chip f.src 0x0005 0 f.garment (leBytes 2 0x0012)) ∧
         (c.garmentBusy f.garment = false → Safety.Sent s.chip u.chip f.src 0x0005 0 f.garment (leBytes 2 0) ∧
           u.chip.cast.holds = s.chip.cast.holds ++ [{ garment := f.garment, expires := s.chip.now + 250000, hop := true, ticket := hopTicket f.garment f.src path }])) ∧
       (c.closed = false → le body 64 1 ≠ 0 →
         (∀ v, c.judgePart { Req.of body with garment := f.garment } { module := c.rnd.id, deadline := le body 67 4, pipeline := le body 65 2 } f.src (reserveMembers body) path = .inl v →
           u.chip.cast = s.chip.cast ∧ Safety.Sent s.chip u.chip f.src 0x0005 0 f.garment (leBytes 2 v.reason)) ∧
         (∀ k, c.judgePart { Req.of body with garment := f.garment } { module := c.rnd.id, deadline := le body 67 4, pipeline := le body 65 2 } f.src (reserveMembers body) path = .inr k →
           Safety.Sent s.chip u.chip f.src 0x0005 0 f.garment (leBytes 2 0) ∧
           u.chip.cast.holds = s.chip.cast.holds ++ [{ garment := f.garment, expires := s.chip.now + 250000, hop := false, ticket := { k with srcRound := true } }])))) ∧
    (Safety.Arrives s.chip p f 0x0003 → ∃ u, exec (.commit p f) s = .next (Safety.controlEnd f.src u) ∧
      u = { s with chip := { s.chip with rnd := u.chip.rnd, cast := u.chip.cast, markers := u.chip.markers, pnl := u.chip.pnl
                                         pcie := { s.chip.pcie with ltrUs := u.chip.pcie.ltrUs } } } ∧
      (s.chip.cast.hold? f.garment = none → u.chip.cast = s.chip.cast ∧ Safety.Sent s.chip u.chip f.src 0x0005 0 f.garment (leBytes 2 0x0011)) ∧
      (∀ h, s.chip.cast.hold? f.garment = some h → u.chip.cast.holds = s.chip.cast.holds.erase h ∧
        (h.hop = true → u.chip.cast.tickets = s.chip.cast.tickets ∧
          u.chip.cast.hops = s.chip.cast.hops ++ [{ garment := h.garment, lead := f.src, ticket := f.ticket, path := h.ticket.roundPath }]) ∧
        (h.hop = false → u.chip.cast.hops = s.chip.cast.hops ∧ u.chip.pcie.ltrUs = (if u.chip.guaranteedLive then 20 else 1000) ∧ ∃ k : Ticket, u.chip.cast.tickets = s.chip.cast.tickets ++ [k] ∧ k.id = partKey f.src f.ticket ∧
          k = { h.ticket with id := k.id, enc := k.enc, encDone := k.encDone } ∧ (∀ m ∈ k.markers, (u.chip.marker m).ticket = k.id ∧ (u.chip.marker m).count = 0)))) ∧
    (∀ e ∈ [(0x0004, Instr.release p f), (0x0006, .garmentBindOff p f), (0x0007, .garmentAbort p f)], Safety.Arrives s.chip p f e.1 →
      ∃ u, exec e.2 s = .next (Safety.controlEnd f.src u) ∧ Safety.quiet u.chip = Safety.quiet s.chip ∧
      (s.chip.inGarment f.garment = false → u = { s with chip := c }) ∧
      (∀ h, s.chip.cast.hold? f.garment = some h → s.chip.garmentTicket f.garment = none → u.mem = s.mem ∧
        u.chip.cast.holds = s.chip.cast.holds.erase h ∧ u.chip.cast.tickets = s.chip.cast.tickets ∧ ∀ m ∈ h.ticket.markers, u.chip.marker m = {}) ∧
      (let drain := e.1 = 0x0006
       ∀ k, s.chip.garmentTicket f.garment = some k →
        (¬ drain → u.chip.ticket? k.id = none) ∧ (drain → k.closing = true → u = { s with chip := c }) ∧
        (drain → k.closing = false → ∃ n, u = Safety.upToDate k.id
          { s with chip := { c with cast := s.chip.cast.updTicket k.id (fun x => x.drain n s.chip.now none) } })) ∧
      (e.1 = 0x0007 → s.chip.inGarment f.garment = true → u.chip.rst.lastLevel = 6 ∧
        (u.chip.log.slot 37).first.isSome = true ∧ (u.chip.evc.src 390).pending = true)) ∧
    (Safety.Arrives s.chip p f 0x0005 → ∃ u, exec (.answer p f) s = .next (Safety.controlEnd f.src u) ∧ Safety.quiet u.chip = Safety.quiet s.chip ∧
      (let reason := le (f.payload.drop 2) 0 2
       (∀ l, s.chip.cast.lead? f.garment = some l →
        (l.due.contains f.src = false → u = { s with chip := c }) ∧
        (l.due.contains f.src = true → reason = 0 → l.due.erase f.src ≠ [] → u = { s with chip := { c with cast := u.chip.cast } } ∧
          u.chip.cast = { s.chip.cast with leads := s.chip.cast.leads.map (fun x => if x = l then { x with due := x.due.erase f.src } else x) }) ∧
        (l.due.contains f.src = true → reason = 0 → l.due.erase f.src = [] → u.mem = s.mem ∧ u.chip.cast.leads = s.chip.cast.leads.erase l ∧
          (∃ v : Verdict, v.reason = 0 ∧ v.ticket = nextTicket s.chip.cast.lastTicket ∧
            Safety.Responded u.chip l.fn l.respAddr 0 (v.bytes l.reqTag s.chip.nowLo s.chip.rnd.id)) ∧
          (∀ m ∈ l.asked, m ≠ s.chip.rnd.id → Safety.Sent s.chip u.chip m 0x0003 (nextTicket s.chip.cast.lastTicket) l.garment []) ∧
          ∃ k : Ticket, u.chip.cast.tickets = s.chip.cast.tickets ++ [k] ∧ k.id = nextTicket s.chip.cast.lastTicket ∧
            k = { l.ticket with id := k.id, enc := k.enc, encDone := k.encDone }) ∧
        (l.due.contains f.src = true → reason ≠ 0 → u.mem = s.mem ∧ u.chip.cast.leads = s.chip.cast.leads.erase l ∧
          u.chip.cast.tickets = s.chip.cast.tickets ∧
          (let w := if reason = 0x0012 then 0x0012 else 0x0010
           Safety.Responded u.chip l.fn l.respAddr w
             (Verdict.bytes { reason := w, detail := if reason = 0x0012 then f.src else reason, price := l.price } l.reqTag s.chip.nowLo f.src)) ∧
          (∀ m ∈ l.asked, m ≠ s.chip.rnd.id → Safety.Sent s.chip u.chip m 0x0004 0 l.garment []))) ∧
       (s.chip.cast.lead? f.garment = none → s.chip.garmentTicket f.garment = none → u = { s with chip := c }) ∧
       (s.chip.cast.lead? f.garment = none → ∀ k, s.chip.garmentTicket f.garment = some k →
         (reason = 0 ∨ k.lead ≠ s.chip.rnd.id → u = { s with chip := c }) ∧
         (reason ≠ 0 → k.lead = s.chip.rnd.id → u.chip.ticket? k.id = none))))

/-! ### Needles, panels, charts -/

/-- R14, R97, R100, R107, R112, R113, R132, R138 to R140: a descriptor for a retired needle or one without a panel is not taken; one that reaches
a needle during a weight swap, or whose WAIT is not met, waits, and one of a frame that its stage passes over is not run. An idle needle issues it with tag 0: a descriptor of wrong fields, or of another
opcode than its command's, ends with BAD_DESCRIPTOR and reads and writes nothing; a stage whose weights are not there has them swapped in
first, counted for its panel. Of ready bands a guaranteed one goes first, the earliest sub-deadline before the rest. -/
def Obligations.DescriptorsWaitAndIssue : Prop :=
  (∀ (s : State) (n seq : Nat) (tod : List Byte), ∀ e ∈ [(1, Instr.matmul n seq tod), (2, .conv n seq tod), (3, .dwconv n seq tod),
      (4, .pool n seq tod), (5, .eltwise n seq tod), (6, .norm n seq tod), (7, .softmax n seq tod), (8, .gather n seq tod),
      (9, .scatter n seq tod), (10, .argmax n seq tod), (11, .s2d n seq tod), (12, .marub n seq tod), (13, .sync n seq tod)],
    let x := s.chip.needle n
    let w : TodWait := { seq := seq % 4294967296, tod := if le tod 0 1 = e.1 then tod else 0 :: tod.drop 1 }
    let d := todOf w.tod
    let gone := s.chip.passed d.ctx (s.chip.todFrame n d)
    let there := s.chip.ctxWeights n d.ctx = none ∨ (∃ k, s.chip.ctxWeights n d.ctx = some k ∧ x.weights = some k.key)
    (x.panel = none ∨ x.retired = true → exec e.2 s = .next s) ∧
    (x.panel ≠ none → x.retired = false →
      (x.swap ≠ none ∧ ∀ v ∈ x.waiting ++ [w], s.chip.passed (todOf v.tod).ctx (s.chip.todFrame n (todOf v.tod)) = false) ∨
        (x.waiting = [] ∧ gone = false ∧ s.chip.waitMet d = false) →
      ∃ t, exec e.2 s = .next t ∧ t = { s with chip := { s.chip with ndl := { s.chip.ndl with tab := t.chip.ndl.tab } } } ∧
        t.chip.needle n = { x with waiting := x.waiting ++ [w], since := (t.chip.needle n).since } ∧ (∀ j, j ≠ n → t.chip.needle j = s.chip.needle j) ∧
        (x.waiting = [] → (t.chip.needle n).since = (if s.chip.waitMet d then [] else [(d.ctx, (x.since.lookup d.ctx).getD s.chip.now)]))) ∧
    (x.panel ≠ none → x.retired = false → x.waiting = [] → gone = true →
      ∃ t, exec e.2 s = .next t ∧ t = { s with chip := { s.chip with ndl := { s.chip.ndl with tab := t.chip.ndl.tab } } } ∧
        t.chip.needle n = { x.passOver w (s.chip.todFrame n d) with since := [] } ∧ (t.chip.needle n).waiting = [] ∧ (t.chip.needle n).ops = x.ops ∧
        (∀ j, j ≠ n → t.chip.needle j = s.chip.needle j)) ∧
    (∀ p, x.panel = some p → x.retired = false → x.swap = none → x.waiting = [] → x.band = none → s.chip.fencedCtx n d.ctx = false → gone = false →
      s.chip.waitMet d = true → ∀ k, s.chip.ctxWeights n d.ctx = some k → x.weights ≠ some k.key → ∃ t, exec e.2 s = .next t ∧
        t = { s with chip := { s.chip with ndl := t.chip.ndl, pnl := t.chip.pnl, hbm := t.chip.hbm, rnd := t.chip.rnd } } ∧
        t.chip.needle n = { x with waiting := [w], swap := some k, weights := none, since := [] } ∧ (∀ j, j ≠ n → t.chip.needle j = s.chip.needle j) ∧
        (t.chip.panel p).swap = (s.chip.panel p).swap.add (((s.chip.panel p).swapRest + k.bytes) / 1024)) ∧
    (x.panel ≠ none → x.retired = false → x.swap = none → x.waiting = [] → x.ops = [] → x.freeTiles ≠ 0 → x.spillTag = none →
      s.chip.fencedCtx n d.ctx = false → (d.opcode = 12 → s.chip.engineHeld 148 d.ctx = false) → gone = false → s.chip.waitMet d = true → x.band = some d.ctx ∨ (x.band = none ∧ there) →
      (∀ y ∈ s.chip.ndl.tab, y.1 ≠ n → ∀ o ∈ y.2.ops, o.records = []) →
      ∃ (t : State) (o : OpRt), exec e.2 s = .next t ∧
        t = { s with chip := { s.chip with ndl := t.chip.ndl, pnl := t.chip.pnl, hbm := t.chip.hbm, rnd := t.chip.rnd } } ∧
        (t.chip.needle n).ops = [o] ∧ (t.chip.needle n).waiting = [] ∧ (t.chip.needle n).band = some d.ctx ∧
        (t.chip.needle n).freeTiles = x.freeTiles - o.tiles ∧ (∀ j, j ≠ n → t.chip.needle j = s.chip.needle j) ∧
        o.tag = 0 ∧ o.seq = w.seq ∧ o.opcode = d.opcode ∧ o.context = d.ctx ∧ o.issued = s.chip.now ∧ o.status ≤ 3 ∧ o.frame = s.chip.todFrame n d ∧
        o.signal = (if d.signal then some (d.sigMrk, d.sigAdd) else none) ∧ o.bandEnd = (d.fence && d.signal) ∧
        (d.badFields = true → o.status = 3) ∧ (le tod 0 1 ≠ e.1 → o.status = 3) ∧
        (o.status ≠ 0 → o.reads = [] ∧ o.writes = [] ∧ o.records = [] ∧ (t.chip.needle n).dma = x.dma) ∧
        (d.opcode = 13 → o.reads = [] ∧ o.writes = []))) ∧
  (∀ (c : Chip) (n : Nat), (c.readyBands n).filter c.ctxGuaranteed ≠ [] → ∃ a, c.nextBand n = some a ∧ a ∈ c.readyBands n ∧
    c.ctxGuaranteed a = true ∧ ∀ b ∈ c.readyBands n, c.ctxGuaranteed b = true →
      c.bandDeadline n a < c.bandDeadline n b ∨ (c.bandDeadline n a = c.bandDeadline n b ∧ (c.ctxTicketId a < c.ctxTicketId b ∨
        (c.ctxTicketId a = c.ctxTicketId b ∧ a ≤ b))))

/-- R58, R96, R98, R102, R112, R140, R141: an operation whose transfers are not done, or another than the Marub engine's first, cannot complete. One
that ends well writes its outputs and then its entry to the ring; one refused at issue its entry alone; one with a column fault or a memory
error leaves undefined outputs, its entry and its record. Each gives back tag and tiles and then signals its marker, but for a frame that its stage
passes gone (R348), and its stream goes on
(log 23). A transfer into a slot carries the bytes of its runs there and to its operation, is counted, and its needle may issue. A weight swap
whose chunks and fills have come leaves the weights in the weight area, and its needle may issue; before that it does not end. -/
def Obligations.NeedleWorkCompletes : Prop :=
  (∀ (s : State) (n tag stalls withheld corrected : Nat) (e : OpEnd) (r : OpRole),
    let x := s.chip.needle n
    (x.op? tag = none → exec (.operationComplete n tag { how := e, corrected := corrected } stalls withheld r) s = .next s) ∧
    (∀ o, x.op? tag = some o →
      let st := o.endStatus e
      let out := s.chip.opOut s.mem n o
      let held := o.withheld withheld (s.chip.issueRate n)
      let entry := opEntry o st (o.flags + flag out.i32 0 + flag (held != 0) 2) (o.stitches + stalls)
      (s.chip.canComplete n o = false → exec (.operationComplete n tag { how := e, corrected := corrected } stalls withheld r) s = .next s) ∧
      (s.chip.canComplete n o = true → ∃ w u : State,
        exec (.operationComplete n tag { how := e, corrected := corrected } stalls withheld r) s =
          .next (if st = 6 then Safety.columnLimited n (Safety.contextUpToDate (s.chip.ctxTicket o.context) u)
                 else Safety.contextUpToDate (s.chip.ctxTicket o.context) u) ∧
        w = { s with chip := { s.chip with ndl := w.chip.ndl, hbm := w.chip.hbm, pnl := w.chip.pnl, markers := w.chip.markers, waits := w.chip.waits,
                                           queues := w.chip.queues, hostTx := w.chip.hostTx, pcie := w.chip.pcie, evc := w.chip.evc,
                                           log := w.chip.log, rnd := w.chip.rnd, freeCtr := w.chip.freeCtr
                                           cast := (s.chip.throttled o held).cast }, mem := w.mem } ∧
        (st = 0 → u = { w with chip := (roleDone r (w.chip, w.mem)).1, mem := (roleDone r (w.chip, w.mem)).2 }) ∧
        (st ≠ 0 → st ≠ 6 → st ≠ 7 → u = w) ∧
        (st = 6 ∨ st = 7 → u.mem = w.mem ∧ u.chip.ndl = w.chip.ndl ∧ u.chip.markers = w.chip.markers ∧
          (n < 64 → (u.chip.evc.src (512 + n)).pending = true)) ∧
        (let b := s.mem.scatter (spillBytes n s.chip.freeCtr o.spilled)
         let m := if st = 0 then (b.scatter out.writes).scatter out.recs
                  else if st = 4 ∨ st = 6 ∨ st = 7 then b.scatter (undefinedBytes (s.chip.freeCtr + 16384 * o.spilled) out.writes) else b
         w.mem = m.writes (sramBase n + x.ringBase + 16 * x.ringIdx) entry) ∧
        (let y := w.chip.needle n
         y.ops = x.ops.erase o ∧ y.freeTiles = min 8 (x.freeTiles + o.tiles) ∧ y.ringIdx = (x.ringIdx + 1) % 256 ∧ y.opsCtr = x.opsCtr.inc ∧
         y.waiting = x.waiting ∧ y.dma = x.dma.filter (fun d => d.opTag != o.tag) ∧ y.band = (if o.bandEnd then none else x.band) ∧
         y.throttled = x.throttled.add held ∧ y.sramCe = min 4294967295 (x.sramCe + corrected) ∧
         (st ≠ 6 → y.runtime = x.runtime ∧ y.rowFaults = x.rowFaults) ∧
         (∀ col, e = .columnFault col → st = 6 → y.faultValid = true ∧ y.faultCol = col ∧ y.faultTag = o.tag ∧ y.faultCtx = o.context ∧
           y.runtime = true ∧ y.rowFaults = x.rowFaults + 1)) ∧
        (∀ j, j ≠ n → w.chip.needle j = s.chip.needle j) ∧
        (o.signal = none ∨ s.chip.passed o.context o.frame = true → w.chip.markers = s.chip.markers) ∧
        (∀ i k t m, o.signal = some (i, k) → s.chip.passed o.context o.frame = false → s.chip.ctxTicket o.context = some t → t.markers[i]? = some m →
          (s.chip.marker m).takesSignal t.id = true →
          (w.chip.marker m).count = min 4294967295 ((s.chip.marker m).count + k) ∧ (w.chip.marker m).context = o.context)))) ∧
  (∀ (s : State) (n : Nat), (s.chip.needle n).rowFaults ≠ 16 → Safety.columnLimited n s = s) ∧
  (∀ (s : State) (n id : Nat),
    let x := s.chip.needle n
    (x.dma? id = none → exec (.dmaTransferComplete n id) s = .next s) ∧
    (∀ d, x.dma? id = some d → s.chip.dmaReady n d = false → exec (.dmaTransferComplete n id) s = .next s) ∧
    (∀ d, x.dma? id = some d → s.chip.dmaReady n d = true → ∃ u : State, exec (.dmaTransferComplete n id) s = .next { u with chip := u.chip.pump s.mem n } ∧
      u.mem = (if d.inward then s.mem.writes d.dst (d.runs.flatMap (fun r => s.mem.reads r.1 r.2)) else s.mem) ∧ u.pending = s.pending ∧
      (let y := u.chip.needle n
       y.dma = x.dma.erase d ++ (match d.next with | none => [] | some q => [{ q with id := x.dmaNext, since := s.chip.now }]) ∧
       y.dmaNext = x.dmaNext + 1 ∧ y.waiting = x.waiting ∧
       y.ops = x.ops.map (fun o => if o.tag = d.opTag then
         { o with bad := o.bad || s.chip.dmaPoison d, loaded := o.loaded ++ (if d.inward then d.runs.map (fun r => (r.1, s.mem.reads r.1 r.2)) else []) } else o) ∧
       (d.inward = true → y.dmaRd = x.dmaRd.add ((x.rdRest + d.bytes) / 1024) ∧ y.dmaWr = x.dmaWr) ∧
       (d.inward = false → y.dmaWr = x.dmaWr.add ((x.wrRest + d.bytes) / 1024) ∧ y.dmaRd = x.dmaRd)) ∧
      (∀ j, j ≠ n → u.chip.needle j = s.chip.needle j) ∧ u.chip.cast = s.chip.cast ∧ u.chip.markers = s.chip.markers ∧ u.chip.hank = s.chip.hank)) ∧
  (∀ (s : State) (n : Nat),
    let x := s.chip.needle n
    (x.swap = none ∨ (∃ k, x.swap = some k ∧ s.chip.swapReady n k = false) → exec (.weightSwapComplete n) s = .next s) ∧
    (∀ k, x.swap = some k → s.chip.swapReady n k = true →
      let m := s.mem.writes k.dst (s.mem.reads k.src k.bytes)
      ∃ u : State, exec (.weightSwapComplete n) s = .next { u with chip := u.chip.pump m n } ∧
        u = { s with chip := { s.chip with ndl := u.chip.ndl }, mem := m } ∧ (∀ j, j ≠ n → u.chip.needle j = s.chip.needle j) ∧
        u.chip.needle n = { x with weights := some k.key, swap := none }))

/-- R147 to R152: a waiting chunk of a guaranteed context draws from a positive G, and then from a positive B; one of a best-effort context only
from B; nothing draws from B while a chunk that can draw from G waits for the resource in any panel; a bucket that is not positive admits
nothing. A fill whose chunks are admitted is cached as it arrives unless it is only served, a remote one counted and in place; one
unanswered for 1 ms is asked for once more, the other way round, and then failed, a RESIDENT segment's given up until the next row and
another left standing, so that what waits for it goes on waiting;
a resident segment is pinned when it has been loaded, and the charts are warm when all are. -/
def Obligations.PanelsAndChartsServe : Prop :=
  (∀ (s : State) (p res : Nat) (guar : Bool), ∃ t, exec (.chunkAdmit p res guar) s = .next t ∧
    t = { s with chip := { s.chip with pnl := t.chip.pnl, ndl := { s.chip.ndl with tab := t.chip.ndl.tab } } } ∧ (∀ j, j ≠ p → t.chip.panel j = s.chip.panel j) ∧
    (∀ n, ∃ l, t.chip.needle n = { s.chip.needle n with dma := l } ∧ l.map (Dma.begun 0) = (s.chip.needle n).dma.map (Dma.begun 0)) ∧
    (let x := s.chip.panel p
     (x.waiting.find? (fun w => w.res == res && w.guar == guar) = none → t.chip.panel p = x) ∧
     (∀ w, x.waiting.find? (fun w => w.res == res && w.guar == guar) = some w →
       (guar = true → 0 < x.gBucket.getD res 0 →
         t.chip.panel p = { x with gBucket := x.gBucket.set res (x.gBucket.getD res 0 - w.bytes), waiting := x.waiting.erase w }) ∧
       (guar = true → x.gBucket.getD res 0 ≤ 0 → 0 < x.bBucket.getD res 0 → s.chip.pnl.waitsG res = false →
         t.chip.panel p = { x with bBucket := x.bBucket.set res (x.bBucket.getD res 0 - w.bytes), waiting := x.waiting.erase w }) ∧
       (guar = false → 0 < x.bBucket.getD res 0 → s.chip.pnl.waitsG res = false →
         t.chip.panel p = { x with bBucket := x.bBucket.set res (x.bBucket.getD res 0 - w.bytes), waiting := x.waiting.erase w }) ∧
       (guar = false ∨ x.gBucket.getD res 0 ≤ 0 → s.chip.pnl.waitsG res = true → t.chip.panel p = x) ∧
       (x.bBucket.getD res 0 ≤ 0 → guar = false ∨ x.gBucket.getD res 0 ≤ 0 → t.chip.panel p = x)))) ∧
  (∀ (s : State) (b : Nat) (d : List Byte),
    (s.chip.pnl.fill? b = none → ∀ c ∈ [Instr.chartFillComplete b d, .chartFillTimeout b], exec c s = .next s) ∧
    (∀ f, s.chip.pnl.fill? b = some f →
      (f.failed = true ∨ s.chip.pnl.chunkWaits (128, b) = true → exec (.chartFillComplete b d) s = .next s) ∧
      (f.failed = false → s.chip.pnl.chunkWaits (128, b) = false → ∃ t, exec (.chartFillComplete b d) s = .next t ∧ t = { s with chip := { s.chip with pnl := t.chip.pnl }, mem := t.mem } ∧
        t.mem = (if f.remote.isSome then s.mem.writes (b * 65536) (d.take 65536) else s.mem) ∧
        t.chip.pnl = { s.chip.pnl with
          fills := s.chip.pnl.fills.erase f, cached := if f.keep then b :: s.chip.pnl.cached else s.chip.pnl.cached
          remote := if f.remote.isSome then s.chip.pnl.remote.add 64 else s.chip.pnl.remote }) ∧
      (f.remote = none ∨ f.failed = true → exec (.chartFillTimeout b) s = .next s) ∧
      (f.remote.isSome = true → f.failed = false → s.chip.now ≤ f.since + 25000 → f.since + 25000 < 2 ^ 64 → ∃ t, exec (.chartFillTimeout b) s = .next t ∧
        t = { s with chip := { s.chip with gauge := { s.chip.gauge with time := f.since + 25000 }, pnl := t.chip.pnl, rnd := t.chip.rnd,
                                           log := t.chip.log, evc := t.chip.evc } } ∧
        (f.retried = false → t.chip.log = s.chip.log ∧ t.chip.evc = s.chip.evc ∧ t.chip.pnl = { s.chip.pnl with
          fills := s.chip.pnl.fills.map (fun g => if g = f then { g with retried := true, since := f.since + 25000 } else g) }) ∧
        (f.retried = true → t.chip.rnd = s.chip.rnd ∧ t.chip.pnl.fills =
            (if f.seg.isSome then s.chip.pnl.fills.erase f else s.chip.pnl.fills.map (fun g => if g = f then { g with failed := true } else g)) ∧
          t.chip.pnl.fail = min 4294967295 (s.chip.pnl.fail + 1) ∧ ∀ i, f.seg = some i → i ∈ t.chip.pnl.failedSegs)))) ∧
  (∀ (s : State) (i : Nat),
    (s.chip.residentSegs.contains i = false ∨ s.chip.segments[i]? = none → exec (.residentSegmentLoaded i) s = .next s) ∧
    (∀ g, s.chip.segments[i]? = some g → s.chip.residentSegs.contains i = true → ∃ t, exec (.residentSegmentLoaded i) s = .next t ∧
      t = { s with chip := { s.chip with pnl := t.chip.pnl } } ∧
      (∀ b ∈ segBlocks g, b ∈ t.chip.pnl.pinned ∧ b ∉ t.chip.pnl.cached) ∧ (∀ b ∈ s.chip.pnl.pinned, b ∈ t.chip.pnl.pinned) ∧
      i ∈ t.chip.pnl.loaded ∧ i ∉ t.chip.pnl.failedSegs ∧ (∀ f ∈ t.chip.pnl.fills, f.seg ≠ some i) ∧
      (t.chip.pnl.warm = true ↔ ∀ k ∈ s.chip.residentSegs, k ∈ t.chip.pnl.loaded)))

/-! ### Video cores, outputs and samples -/

/-- R155, R158, R159, R178, R180 and R181: at a segment's end an abandoned picture leaves its core and a more urgent one takes it, the other going
to the context store and the switch counted; else nothing happens. A free core takes the first of its choices, and of any choice the class
goes first and, among guaranteed pictures, the sub-deadline; a best-effort class notes whom it served (R158). A picture's regions are those of
the analysis result committed last as its first lane starts (R17). A lane that ends frees its core and is counted, but for one whose rows an
unstarted lane of a wavefront holds back (R178); the last one of a coded picture waits for its chunks (R151; log 128), then its unit and its
reconstruction stand (R183, R186), poisoned data a skip record with FAULT (R346). -/
def Obligations.VideoCoresSwitchAndFinish : Prop :=
  (∀ (last : Nat → Nat) (l : List Job), l ≠ [] →
    ∃ j, firstJob last l = some j ∧ j ∈ l ∧ ∀ k ∈ l, j.cls ≤ k.cls ∧ (j.cls = 0 → k.cls = 0 → j.due ≤ k.due)) ∧
  (∀ (s : State) (core : Nat),
    let x := s.chip.vdec.core core
    let next := firstJob s.chip.vdec.last (s.chip.decChoices core)
    (x.job = none → exec (.decodeSegmentEnd core) s = .next s) ∧
    (∀ cur, x.job = some cur → cur.abandon = false →
      (∀ j, next = some j → preempts j cur = true → ∃ t, exec (.decodeSegmentEnd core) s = .next t ∧
        t = { s with chip := { s.chip with vdec := t.chip.vdec } } ∧ t.chip.vdec.preempt = s.chip.vdec.preempt.inc ∧
        (t.chip.vdec.core core).job = some { j with start := if x.saved.contains j then s.chip.now - j.start else s.chip.now } ∧
        { cur with start := s.chip.now - cur.start } ∈ (t.chip.vdec.core core).saved ∧ t.chip.vdec.ready = s.chip.vdec.ready.erase j ∧
        (∀ cls, cls = 1 ∨ cls = 2 → t.chip.vdec.last cls = if j.cls = cls then j.ticket else s.chip.vdec.last cls) ∧
        (∀ k, k ≠ core → t.chip.vdec.core k = s.chip.vdec.core k)) ∧
      (next = none ∨ (∃ j, next = some j ∧ preempts j cur = false) → exec (.decodeSegmentEnd core) s = .next s)) ∧
    (∀ cur, x.job = some cur → cur.abandon = true → x.offline = false → x.testing = false → ∃ t, exec (.decodeSegmentEnd core) s = .next t ∧
      t = { s with chip := { s.chip with vdec := t.chip.vdec } } ∧ (∀ k, k ≠ core → t.chip.vdec.core k = s.chip.vdec.core k) ∧
      (next = none → (t.chip.vdec.core core).job = none ∧ t.chip.vdec.ready = s.chip.vdec.ready) ∧
      (∀ j, next = some j → (t.chip.vdec.core core).job = some { j with start := if x.saved.contains j then s.chip.now - j.start else s.chip.now } ∧
        t.chip.vdec.ready = s.chip.vdec.ready.erase j))) ∧
  (∀ (s : State) (core : Nat),
    let x := s.chip.venc.core core
    let next := firstJob s.chip.venc.last (s.chip.encChoices core)
    (x.free = false ∨ next = none → exec (.laneStart core) s = .next s) ∧
    (x.free = true → ∀ j, next = some j → ∃ t, exec (.laneStart core) s = .next t ∧
      t = { s with chip := { s.chip with cast := t.chip.cast, venc := t.chip.venc } } ∧
      (t.chip.venc.core core).job = some { j with start := if x.saved.contains j then s.chip.now - j.start else s.chip.now } ∧
      t.chip.venc.waiting = s.chip.venc.waiting.erase j ∧ (∀ k, k ≠ core → t.chip.venc.core k = s.chip.venc.core k) ∧
      (∀ k sd v, s.chip.ticket? j.ticket = some k → s.chip.stream? k.pipeline = some sd → t.chip.ticket? j.ticket = some v →
        v.outs.length = k.outs.length ∧ (∀ o ∈ v.outs, o.source = j.source → o.sub = j.sub → o.started = true) ∧
        ∀ o ∈ k.outs, o.source = j.source → o.sub = j.sub → o.started = false →
          { o with started := true, roi := (k.roiFor sd o).map DetResult.source, roiCount := ((k.roiFor sd o).map (fun r => r.regions.length)).getD 0
                   regions := ((k.roiFor sd o).map (fun r => r.regions)).getD [] } ∈ v.outs)) ∧
    (x.job = none → exec (.encodeSegmentEnd core) s = .next s) ∧
    (∀ cur, x.job = some cur → ∃ t, exec (.encodeSegmentEnd core) s = .next t ∧
      t = { s with chip := { s.chip with cast := t.chip.cast, venc := t.chip.venc } } ∧
      (∀ k, k ≠ core → t.chip.venc.core k = s.chip.venc.core k) ∧
      (cur.abandon = true → t.chip.venc.core core = { x with job := none } ∧ t.chip.cast = s.chip.cast) ∧
      (cur.abandon = false → next = none ∨ (∃ j, next = some j ∧ preempts j cur = false) → t = s) ∧
      (cur.abandon = false → ∀ j, next = some j → preempts j cur = true → t.chip.venc.preempt = s.chip.venc.preempt.inc ∧
        (t.chip.venc.core core).job = some { j with start := if x.saved.contains j then s.chip.now - j.start else s.chip.now } ∧
        { cur with start := s.chip.now - cur.start } ∈ (t.chip.venc.core core).saved))) ∧
  (∀ (s : State) (core : Nat) (poisoned : Bool),
    (s.chip.venc.core core).job = none → exec (.encodeComplete core poisoned) s = .next (Safety.upToDate 0 s)) ∧
  (∀ (s : State) (core : Nat) (poisoned : Bool) (j : Job), (s.chip.venc.core core).job = some j →
    let freed := { s.chip.venc.core core with
      job := none, busy := if j.abandon then (s.chip.venc.core core).busy else (s.chip.venc.core core).busy.add (2 * j.samples) }
    ∃ u, exec (.encodeComplete core poisoned) s = .next (Safety.upToDate j.ticket u) ∧ u.pending = s.pending ∧
      (j.abandon = true ∨ s.chip.ticket? j.ticket = none → u = { s with chip := { s.chip with venc := u.chip.venc } } ∧
        u.chip.venc.core core = freed ∧ (∀ k, k ≠ core → u.chip.venc.core k = s.chip.venc.core k) ∧
        u.chip.venc.samples = (if j.abandon then s.chip.venc.samples else s.chip.venc.samples.add j.samples)) ∧
      (∀ k sd, j.abandon = false → s.chip.ticket? j.ticket = some k → s.chip.stream? k.pipeline = some sd →
        (poisoned = true → u.mem = s.mem ∧ u.chip.rst.voided = s.chip.rst.voided.inc ∧ u.chip.venc.skipped = s.chip.venc.skipped.inc ∧
          u.chip.venc.samples = s.chip.venc.samples.add j.samples ∧ (u.chip.venc.core core).job = none ∧
          (core < 8 → (u.chip.evc.src (588 + core)).pending = true) ∧ (∀ w ∈ u.chip.venc.waiting, samePicture j w = false) ∧
          ∀ v, u.chip.ticket? j.ticket = some v → v.outs.length = k.outs.length ∧
            ∀ o ∈ v.outs, o.source = j.source → o.sub = j.sub → o.state = .skipped 0x41 false ∧ o.unit = []) ∧
        (poisoned = false → s.chip.heldBack sd j = true → u = s) ∧
        (poisoned = false → s.chip.heldBack sd j = false →
          let left := (coreJobs (Tbl.upd {} s.chip.venc.cores core (fun _ => freed)) ++ s.chip.venc.waiting).any (samePicture j)
          let d := s.chip.encTraffic core k sd j
          (left = true → u = { s with chip := { s.chip with venc := u.chip.venc } } ∧ u.chip.venc.core core = freed ∧
            (∀ k, k ≠ core → u.chip.venc.core k = s.chip.venc.core k) ∧ u.chip.venc.samples = s.chip.venc.samples.add j.samples) ∧
          (d = { s.chip with venc := d.venc, pnl := d.pnl } ∧ (j.charged = true → d = s.chip) ∧
            (j.charged = false → (d.venc.core core).job = some { j with charged := true })) ∧
          (left = false → d.pnl.chunkWaits (224 + core, 0) = true → u = { s with chip := d }) ∧
          (left = false → d.pnl.chunkWaits (224 + core, 0) = false → ∀ o, k.outs.find? (fun o => o.source == j.source && o.sub == j.sub) = some o →
            let r := k.codeOut sd o s.chip.tracks.live s.mem
            u.chip.venc.pics = s.chip.venc.pics.inc ∧ u.chip.venc.samples = s.chip.venc.samples.add j.samples ∧ (u.chip.venc.core core).job = none ∧
            u.chip.venc.clamp = (if r.clamped then s.chip.venc.clamp.inc else s.chip.venc.clamp) ∧
            u.mem = hankWrite s.mem ((k.enc.current.map (fun b => b.hanks)).getD []) 0 r.recon.bytes ∧
            ∀ v, u.chip.ticket? j.ticket = some v → v.outs.length = k.outs.length ∧
              v.enc = k.enc.done sd (k.outRate sd) o.key (8 * r.unit.length) o.qp r.vecs ∧
              ∀ q ∈ v.outs, q.source = j.source → q.sub = j.sub → q.state = .ready ∧ q.unit = r.unit))))

/-- R14, R18, R168, R171, R175, R215, R218, R346, R348: the last lane of a decoded picture waits for its chunks (R151; log 128), and while no hanks
or field buffers are to be had; then the picture that its unit's bytes make (R39; log 119) stands in hanks of the ticket and its frame is
decoded, and with poisoned data the frame is voided with FAULT. A field buffer not released within 8 x e + 100 us of the core's wait, and a
stage that does not signal in time, void what depends on them with WAIT_TIMEOUT, a unit past its limit being a trip; an output already on its
way over the Round stays. A skip record commits when it has its hanks, or leaves over the Round; a sample whose forward pass has not started in
time is dropped (log 51). -/
def Obligations.PicturesWaitsAndSamplesEnd : Prop :=
  (∀ (s : State) (core : Nat) (poisoned : Bool),
    ((s.chip.vdec.core core).job = none → exec (.decodeComplete core poisoned) s = .next s) ∧
    (∀ j, (s.chip.vdec.core core).job = some j → j.abandon = true ∨ (s.chip.vdec.lanesLeft core j = true ∧ poisoned = false) →
      ∃ t, exec (.decodeComplete core poisoned) s = .next t ∧ t = { s with chip := { s.chip with vdec := t.chip.vdec } } ∧
        (∀ k, k ≠ core → t.chip.vdec.core k = s.chip.vdec.core k) ∧
        t.chip.vdec.samples = (if j.abandon then s.chip.vdec.samples else s.chip.vdec.samples.add j.samples) ∧
        (firstJob s.chip.vdec.last (s.chip.decChoices core) = none → (t.chip.vdec.core core).job = none)) ∧
    (∀ j, (s.chip.vdec.core core).job = some j → j.abandon = false → s.chip.vdec.lanesLeft core j = false → poisoned = false →
      let d := s.chip.decTraffic core j
      (d = { s.chip with vdec := d.vdec, pnl := d.pnl } ∧ (j.charged = true → d = s.chip)) ∧
      (d.pnl.chunkWaits (192 + core, 0) = true → exec (.decodeComplete core poisoned) s = .next { s with chip := d })) ∧
    (∀ j k sd p f, (s.chip.vdec.core core).job = some j → j.abandon = false → j.sub ≠ 1 → s.chip.ticket? j.ticket = some k →
      s.chip.stream? k.pipeline = some sd → k.kindStage .decode = some p → k.frame? j.source = some f →
      let d := s.chip.decTraffic core j
      let r := k.dec.decode f.pic sd.mfGrid f.order (unitBytes s.mem f.parts)
      let g := k.genCount sd f (sceneCut sd f.pic r.motion)
      let n := hankCount (pictureBytes f.pic)
      let all := n + k.upCount sd f + g.1 * g.2 + anCount sd f
      (poisoned = false → s.chip.vdec.lanesLeft core j = false → d.pnl.chunkWaits (192 + core, 0) = false →
        (s.chip.grantable k all = false ∨ s.chip.fieldWaits k sd f = true → ∃ t, exec (.decodeComplete core poisoned) s = .next t ∧
          t = { s with chip := { d with cast := t.chip.cast } } ∧ (s.chip.fieldWaits k sd f = false → t.chip.cast = s.chip.cast) ∧
          (s.chip.fieldWaits k sd f = true →
            ((t.chip.ticket? j.ticket).bind (fun x => x.frame? j.source)).map (fun x => x.fieldWait) = some (some (f.fieldWait.getD s.chip.now)))) ∧
        (s.chip.grantable k all = true → s.chip.fieldWaits k sd f = false →
          ∃ (u : State) (x : FrameRt), exec (.decodeComplete core poisoned) s = .next (Safety.upToDate j.ticket u) ∧
            u.chip.vdec.pics = s.chip.vdec.pics.inc ∧
            u.chip.vdec.concealed = (if r.concealed = 0 then s.chip.vdec.concealed else s.chip.vdec.concealed.inc) ∧
            u.chip.vdec.samples = s.chip.vdec.samples.add j.samples ∧
            (u.chip.ticket? j.ticket).bind (fun x => x.frame? j.source) = some x ∧ x.decoded = true ∧ x.decoding = false ∧
            x.picHanks = s.chip.hank.next n ∧
            (sd.mfBufs = [] → u.mem = hankWrite (hankWrite s.mem x.picHanks 0 r.pic.bytes) x.anHanks 0
              (if x.anHanks.isEmpty then [] else (r.pic.scale sd.anW sd.anH).bytes)))) ∧
      (poisoned = true → ∃ u, exec (.decodeComplete core poisoned) s = .next (Safety.upToDate j.ticket u) ∧ u.mem = s.mem ∧
        u.chip.vdec.pics = s.chip.vdec.pics ∧ u.chip.rst.voided = s.chip.rst.voided.inc ∧
        (core < 12 → (u.chip.evc.src (576 + core)).pending = true) ∧
        ((u.chip.ticket? j.ticket).bind (fun x => x.frame? j.source)).map (fun x => (x.lost.contains p.stage, x.decoding)) = some (true, false))) ∧
    (∀ j k sd x, (s.chip.vdec.core core).job = some j → j.abandon = false → j.sub = 1 → s.chip.ticket? j.ticket = some k →
      s.chip.stream? k.pipeline = some sd → k.adapt.samples.find? (fun s => s.id == j.source && s.state == .decoding) = some x →
      s.chip.vdec.lanesLeft core j = false → poisoned = false → (s.chip.decTraffic core j).pnl.chunkWaits (192 + core, 0) = false →
      let n := hankCount (pictureBytes x.pic)
      let fits := s.chip.grantable k n && k.adapt.fits sd.cacheHanks n
      let r := ({} : DecState).decode x.pic 0 0 (s.chip.bitsBytes s.mem k x.desc)
      (fits = false → exec (.decodeComplete core poisoned) s = .next { s with chip := s.chip.decTraffic core j }) ∧
      (fits = true → ∃ u, exec (.decodeComplete core poisoned) s = .next (Safety.upToDate j.ticket u) ∧
        u.mem = hankWrite s.mem (s.chip.hank.next n) 0 r.pic.bytes ∧ u.chip.vdec.pics = s.chip.vdec.pics.inc ∧
        u.chip.vdec.concealed = (if r.concealed = 0 then s.chip.vdec.concealed else s.chip.vdec.concealed.inc)))) ∧
  (∀ (s : State) (ticket source : Nat),
    (s.chip.ticket? ticket = none → exec (.fieldReleaseTimeout ticket source) s = .next (Safety.upToDate ticket s)) ∧
    (∀ k sd p f, s.chip.ticket? ticket = some k → s.chip.stream? k.pipeline = some sd → k.kindStage .decode = some p → k.frame? source = some f →
      (f.decoding = false ∨ f.fieldWait = none ∨ s.chip.fieldWaits k sd f = false →
        exec (.fieldReleaseTimeout ticket source) s = .next (Safety.upToDate ticket s)) ∧
      (∀ since, f.fieldWait = some since → f.decoding = true → s.chip.fieldWaits k sd f = true →
        ∃ u, exec (.fieldReleaseTimeout ticket source) s = .next (Safety.upToDate ticket u) ∧
        u = { s with chip := { s.chip with gauge := s.chip.gauge.advance (since + nsTicks (8 * p.eNs) + usTicks 100), cast := u.chip.cast,
                                           venc := u.chip.venc, rst := u.chip.rst, queues := u.chip.queues } } ∧
        u.chip.rst = { s.chip.rst with voided := s.chip.rst.voided.inc } ∧
        ((u.chip.ticket? ticket).bind (fun x => x.frame? source)).map (fun x => (x.fieldLost, x.decoding, x.lost.contains p.stage)) = some (true, true, false) ∧
        ∀ v, u.chip.ticket? ticket = some v → ∀ o ∈ v.outs, o.order = f.order → v.needs o p.stage = true → v.onWire o = false →
          ∃ why shed, o.state = .skipped why shed))) ∧
  (∀ (s : State) (ticket source stage : Nat),
    (s.chip.ticket? ticket = none → exec (.waitTimeout ticket source stage) s = .next s) ∧
    (∀ k p f, s.chip.ticket? ticket = some k → k.placed.find? (fun p => p.stage == stage) = some p → k.frame? source = some f →
      (s.chip.waitDue k p f = none ∨ s.chip.stageDone k p f = true ∨ f.lost.contains stage = true → exec (.waitTimeout ticket source stage) s = .next s) ∧
      (∀ due, s.chip.waitDue k p f = some due → s.chip.stageDone k p f = false → f.lost.contains stage = false →
        ∃ (u : State) (at_ : Option (Nat × Bool)), exec (.waitTimeout ticket source stage) s = .next (Safety.upToDate ticket
          (match at_ with
           | some (e, true) => { u with chip := (engineTrip e (p.contexts.headD 0) (u.chip, u.mem)).1, mem := (engineTrip e (p.contexts.headD 0) (u.chip, u.mem)).2 }
           | _ => u)) ∧
        u = { s with chip := { s.chip with gauge := s.chip.gauge.advance due, cast := u.chip.cast, venc := u.chip.venc, rst := u.chip.rst
                                           queues := u.chip.queues, log := u.chip.log, evc := u.chip.evc } } ∧
        (k.guaranteed = true → ∀ a, s.chip.inputAt k p f = some a → due = a + nsTicks (max (8 * p.eNs) p.dNs) + usTicks 100) ∧
        at_ = Chip.stageEngine { s.chip with gauge := u.chip.gauge } k p source ∧
        u.chip.rst = { s.chip.rst with voided := s.chip.rst.voided.inc } ∧
        ((u.chip.ticket? ticket).bind (fun x => x.frame? source)).map (fun x => x.lost.contains stage) = some false ∧
        ∀ v, u.chip.ticket? ticket = some v → ∀ o ∈ v.outs, o.order = f.order → v.needs o stage = true → v.onWire o = false →
          ∃ why shed, o.state = .skipped why shed))) ∧
  (∀ (s : State) (ticket : Nat),
    (s.chip.ticket? ticket = none → exec (.skipRecordCommit ticket) s = .next s) ∧
    (∀ k, s.chip.ticket? ticket = some k → (k.skips.drop k.sentSkips = [] → exec (.skipRecordCommit ticket) s = .next s) ∧
      (∀ x l dest arg, k.skips.drop k.sentSkips = x :: l → s.chip.sendsTo k = some (dest, arg) →
        let b := skipRec k x s.chip.now (s.chip.lateNow (k.dueAt x.arrival))
        let may := s.chip.grantable k (max 1 (ceilDiv b.length 0x4000)) && decide (s.chip.rnd.openXfers < 4096)
        (may = false → exec (.skipRecordCommit ticket) s = .next s) ∧
        (may = true → ∃ t, exec (.skipRecordCommit ticket) s = .next t ∧
          t = { s with chip := { s.chip with hank := t.chip.hank, cast := t.chip.cast, rnd := t.chip.rnd, hbm := t.chip.hbm, pnl := t.chip.pnl }, mem := t.mem } ∧
          (t.chip.ticket? ticket).map (fun v => (v.skips.length, v.sentSkips)) = some (k.skips.length, k.sentSkips + 1) ∧
          t.chip.rnd.xout.length = s.chip.rnd.xout.length + 1 ∧ t.chip.cast.committed = s.chip.cast.committed)) ∧
      (∀ x l, k.skips = x :: l → k.sentSkips = 0 → s.chip.sendsTo k = none →
        let b := skipRec k x s.chip.now (s.chip.lateNow (k.dueAt x.arrival))
        let n := max 1 (ceilDiv b.length 0x4000)
        (s.chip.canCommit k (n + 1) = false → exec (.skipRecordCommit ticket) s = .next s) ∧
        (s.chip.canCommit k (n + 1) = true → ∃ t, exec (.skipRecordCommit ticket) s = .next t ∧
          t = { s with chip := { s.chip with hank := t.chip.hank, cast := t.chip.cast, queues := t.chip.queues, hostTx := t.chip.hostTx,
                                             pcie := t.chip.pcie, evc := t.chip.evc, hbm := t.chip.hbm, pnl := t.chip.pnl }, mem := t.mem } ∧
          (t.chip.ticket? ticket).map (fun v => v.skips.length) = some l.length ∧ t.chip.cast.skipped = s.chip.cast.skipped.inc ∧
          t.chip.cast.committed = s.chip.cast.committed.inc ∧
          (k.srcRound = true ∨ queueFn k.queue = k.fn → ∃ w : HostWrite, t.chip.hostTx = s.chip.hostTx ++ [w] ∧
            w.addr = (s.chip.queue k.queue).cqBase + 32 * (s.chip.queue k.queue).cqTail ∧ w.bytes.length = 32))))) ∧
  (∀ (s : State) (ticket sample : Nat),
    (s.chip.ticket? ticket = none → exec (.sampleDropped ticket sample) s = .next s) ∧
    (∀ k x, s.chip.ticket? ticket = some k → k.adapt.samples.find? (fun q => q.id == sample && q.open) = some x → ∃ u : State,
      exec (.sampleDropped ticket sample) s = .next { u with chip := u.chip.startSample s.mem ticket } ∧
      u = { s with chip := { s.chip with gauge := s.chip.gauge.advance (x.accepted + dropLimit s.chip.gauge.floor x.cost), cast := u.chip.cast,
                                         queues := u.chip.queues, vdec := u.chip.vdec } } ∧
      (∀ v, u.chip.ticket? ticket = some v → v.adapt.samples = k.adapt.samples.erase x ∧ v.adapt.cache = k.adapt.cache) ∧
      (∀ j ∈ u.chip.vdec.ready, ¬ (j.ticket = ticket ∧ j.sub = 1 ∧ j.source = sample)) ∧
      (∀ c j, (u.chip.vdec.core c).job = some j → j.ticket = ticket → j.sub = 1 → j.source = sample → j.abandon = true)))

/-! ### The Round -/

/-- R245, R257, R258, R260, R261, R325: a numbered Control message acts once and in its order: one that is not its command's, not taken in
by the port, or met by a fenced chip does nothing more; one ahead of its turn is held, a repeated one only acknowledged. MARKER_SIGNAL
raises the local copy and keeps its last context (log 20); ALARM and ALARM_SUMMARY are logged by a collector; RING_CHANGE is an edge on
ROUND and starts a discovery run, and a module that slipped has no path (kinds: log 27); XFER_ACK frees the transfer's hanks and MSG_ACK
ends the message's wait, both without a number (log 26). -/
def Obligations.ControlMessagesKeepTheirOrder : Prop :=
  (∀ (s : State) (p : Port) (f : RFrame), ∀ e ∈ [(0x0001, Instr.markerSignal p f), (0x0002, .reserve p f), (0x0003, .commit p f),
      (0x0004, .release p f), (0x0005, .answer p f), (0x0006, .garmentBindOff p f), (0x0007, .garmentAbort p f), (0x000A, .alarm p f),
      (0x000B, .alarmSummary p f), (0x000C, .ringChange p f)],
    let q := s.chip.rnd.eseqOf f.src
    let late := q.ahead f.offset && !q.held.any (fun g => g.offset == f.offset)
    let d := Chip.ackFrame { s.chip with rnd := (s.chip.rnd.receive p f).1 } f 0x0009 f.offset
    (f.type ≠ 2 ∨ ctlCode f ≠ e.1 → exec e.2 s = .next s) ∧
    (f.type = 2 → ctlCode f = e.1 →
      ((s.chip.rnd.receive p f).2 = false ∨ s.chip.rst.fenced = true →
        exec e.2 s = .next { s with chip := { s.chip with rnd := (s.chip.rnd.receive p f).1 } }) ∧
      ((s.chip.rnd.receive p f).2 = true → s.chip.rst.fenced = false → f.offset ≠ q.nextIn →
        (late = false → exec e.2 s = .next { s with chip := d }) ∧
        (late = true → ∃ t, exec e.2 s = .next t ∧ t = { s with chip := { d with rnd := t.chip.rnd } } ∧
          t.chip.rnd.eseqOf f.src = { q with held := q.held ++ [f], gapAt := if q.gapAt.isNone then some s.chip.now else q.gapAt })))) ∧
  (∀ (c : Chip) (f : RFrame) (code v : Nat) (q : Port), c.rnd.exit f.src = some q → (c.rnd.port q).state ≠ .wrapped →
    ((c.ackFrame f code v).rnd.port q).egress =
      (c.rnd.port q).egress ++ [newFrame c.rnd.id 2 .control f.src f.ticket 0 0 0 f.garment false false (ctlPayload code (leBytes 4 v))]) ∧
  (∀ (s : State) (p : Port) (f : RFrame), Safety.Arrives s.chip p f 0x0001 →
    (s.chip.frameTicket f = none → exec (.markerSignal p f) s = .next (Safety.controlEnd f.src { s with chip := Safety.takenIn s.chip p f })) ∧
    (∀ k m, s.chip.frameTicket f = some k → k.markers[le f.payload 2 2]? = some m → k.garment = some f.garment →
      (s.chip.marker m).takesSignal k.id = true →
      ∃ u, exec (.markerSignal p f) s = .next (Safety.controlEnd f.src (Safety.upToDate k.id u)) ∧
        u = { s with chip := { s.chip with rnd := u.chip.rnd, markers := u.chip.markers, waits := u.chip.waits, queues := u.chip.queues,
                                           hostTx := u.chip.hostTx, pcie := u.chip.pcie, evc := u.chip.evc, log := u.chip.log } } ∧
        (u.chip.marker m).count = min 4294967295 ((s.chip.marker m).count + le f.payload 4 2) ∧
        (u.chip.marker m).context = (s.chip.marker m).context ∧ (u.chip.marker m).ticket = k.id ∧
        ∀ j, j ≠ m → u.chip.marker j = s.chip.marker j)) ∧
  (∀ (s : State) (p : Port) (f : RFrame),
    (Safety.Arrives s.chip p f 0x000A → ∃ u, exec (.alarm p f) s = .next (Safety.controlEnd f.src u) ∧
      u = { s with chip := { Safety.takenIn s.chip p f with log := u.chip.log, evc := u.chip.evc } } ∧
      (if s.chip.collects then
        u.chip.log = s.chip.log.addRemote { LogRec.ofBytes (f.payload.drop 2) with source := 279, remote := true, origin := f.src } ∧
        (u.chip.evc.src 279).pending = true
       else u.chip.log = s.chip.log ∧ u.chip.evc = s.chip.evc)) ∧
    (Safety.Arrives s.chip p f 0x000B → ∃ u, exec (.alarmSummary p f) s = .next (Safety.controlEnd f.src u) ∧
      u = { s with chip := { Safety.takenIn s.chip p f with log := u.chip.log, evc := u.chip.evc } } ∧
      (if s.chip.collects then
        (∃ r : LogRec, u.chip.log = s.chip.log.put r ∧ r.summary = true ∧ r.remote = true ∧ r.origin = f.src ∧ r.source = 279 ∧ r.time = s.chip.now) ∧
        (u.chip.evc.src 279).pending = true
       else u.chip.log = s.chip.log ∧ u.chip.evc = s.chip.evc)) ∧
    (Safety.Arrives s.chip p f 0x000C → ∃ u, exec (.ringChange p f) s = .next (Safety.controlEnd f.src (Safety.settled u)) ∧
      u = { s with chip := { s.chip with rnd := u.chip.rnd, log := u.chip.log, evc := u.chip.evc } } ∧ (u.chip.evc.src 279).pending = true ∧
      u.chip.rnd.runs = (if s.chip.rnd.slipped then s.chip.rnd.runs else s.chip.rnd.runs + 1) ∧
      (le (f.payload.drop 2) 0 1 = 2 → ∀ m ∈ changeMods (f.payload.drop 2), u.chip.rnd.reachable m = false))) ∧
  (∀ (s : State) (p : Port) (f : RFrame), f.type = 2 → (s.chip.rnd.receive p f).2 = true →
    (ctlCode f = 0x0008 →
      (s.chip.rnd.xout.find? (fun x => x.xfer == le f.payload 2 4 && x.dest == f.src) = none →
        exec (.xferAck p f) s = .next { s with chip := { s.chip with rnd := (s.chip.rnd.receive p f).1 } }) ∧
      (∀ x, s.chip.rnd.xout.find? (fun x => x.xfer == le f.payload 2 4 && x.dest == f.src) = some x →
        ∃ u, exec (.xferAck p f) s = .next (Safety.upToDate x.ticket u) ∧
          u = { s with chip := { s.chip with rnd := u.chip.rnd, hank := u.chip.hank } } ∧ u.chip.rnd.xout = s.chip.rnd.xout.erase x ∧
          (∀ h ∈ x.hanks, (s.chip.hank.entry h).charged = true → (s.chip.hank.entry h).ticket = x.ticket → (u.chip.hank.entry h).state = .scrub) ∧
          ∀ h, h ∉ x.hanks ∨ (s.chip.hank.entry h).ticket ≠ x.ticket → u.chip.hank.entry h = s.chip.hank.entry h)) ∧
    (ctlCode f = 0x0009 → ∃ t, exec (.msgAck p f) s = .next t ∧ t = { s with chip := { s.chip with rnd := t.chip.rnd } } ∧
      (let q := s.chip.rnd.eseqOf f.src
       t.chip.rnd.eseqOf f.src = { q with unacked := q.unacked.filter (fun u => u.1 != le f.payload 2 4) }) ∧
      ∀ k, k ≠ f.src → t.chip.rnd.eseqOf k = s.chip.rnd.eseqOf k))

/-- R249 to R254 and R263: a port that is not up takes no frame; a stomped one only gives its credits back; one with a bad header or out of
sequence is rejected, asked for again by one NAK and leaves the expected number as it is; a good one moves it on, and is counted if it is
malformed, sent on with one hop less if it is for another module, dropped at its last hop. IDLE and NAK carry ACK and credits, and a NAK
sends the frames after ACK again; a HELLO brings the port up, or wraps it where three modules were skipped. -/
def Obligations.PortsTakeFrames : Prop :=
  (∀ (s : State) (p : Port) (f : RFrame), ∀ e ∈ [(1, Instr.data p f), (3, .fetch p f), (6, .discover p f)],
    let x := s.chip.rnd.port p
    (f.type ≠ e.1 ∨ x.state ≠ .up → exec e.2 s = .next s) ∧
    (f.type = e.1 → x.state = .up → ∃ t, exec e.2 s = .next t ∧
      (f.stomp = true → t = { s with chip := { s.chip with rnd := t.chip.rnd } } ∧ t.chip.rnd.port p.other = s.chip.rnd.port p.other ∧
        t.chip.rnd.port p = { x with freed := addBeats x.freed f.cls.code f.beats }) ∧
      (f.stomp = false → f.hcrcOk = false ∨ f.lseq ≠ x.rxSeq →
        t = { s with chip := { s.chip with rnd := t.chip.rnd } } ∧ t.chip.rnd.port p.other = s.chip.rnd.port p.other ∧
        (t.chip.rnd.port p).rxSeq = x.rxSeq ∧ (t.chip.rnd.port p).dropping = true ∧
        (t.chip.rnd.port p).freed = addBeats x.freed f.cls.code f.beats ∧
        (x.dropping = true → (t.chip.rnd.port p).sent = x.sent) ∧
        (x.dropping = false → ∃ g, (t.chip.rnd.port p).sent = x.sent ++ [g] ∧ g.type = 4 ∧ g.nak = true ∧ g.ack = (x.rxSeq + 65535) % 65536)) ∧
      (f.stomp = false → f.hcrcOk = true → f.lseq = x.rxSeq → f.pcrcOk = true → f.bad = true →
        t = { s with chip := { s.chip with rnd := t.chip.rnd } } ∧ (t.chip.rnd.port p).rxSeq = (x.rxSeq + 1) % 65536 ∧
        t.chip.rnd.badFrame = s.chip.rnd.badFrame.inc) ∧
      (f.stomp = false → f.hcrcOk = true → f.lseq = x.rxSeq → f.pcrcOk = true → f.bad = false → f.type ≠ 6 → f.dest ≠ s.chip.rnd.id →
        t = { s with chip := { s.chip with rnd := t.chip.rnd } } ∧ (t.chip.rnd.port p).rxSeq = (x.rxSeq + 1) % 65536 ∧
        (f.ttl ≤ 1 → t.chip.rnd.ttlDrop = s.chip.rnd.ttlDrop.inc ∧ t.chip.rnd.port p.other = s.chip.rnd.port p.other) ∧
        (1 < f.ttl → (s.chip.rnd.port p.other).state ≠ .wrapped →
          (t.chip.rnd.port p.other).transit = (s.chip.rnd.port p.other).transit ++ [(p, { f with ttl := f.ttl - 1 })])))) ∧
  (∀ (s : State) (p : Port) (f : RFrame),
    let x := s.chip.rnd.port p
    ((x.state ≠ .up ∨ f.hcrcOk = false → ∀ c ∈ [Instr.idle p f, .nak p f], exec c s = .next s) ∧
     (x.state = .up → f.hcrcOk = true → f.bad = false → ∃ t, exec (.idle p f) s = .next t ∧
       t = { s with chip := { s.chip with rnd := t.chip.rnd } } ∧ t.chip.rnd.port p.other = s.chip.rnd.port p.other ∧
       (t.chip.rnd.port p).granted = (List.range 4).map (fun i => (bufferBeats i + f.credits.getD i 0) % 65536) ∧
       (t.chip.rnd.port p).replay =
         (if x.replay.any (fun g => g.lseq == f.ack) then (x.replay.dropWhile (fun g => g.lseq != f.ack)).drop 1 else x.replay)) ∧
     (x.state = .up → f.hcrcOk = true → f.bad = false → f.nak = true → ∃ t, exec (.nak p f) s = .next t ∧
       t = { s with chip := { s.chip with rnd := t.chip.rnd } } ∧ t.chip.rnd.port p.other = s.chip.rnd.port p.other ∧
       (let rest := if x.replay.any (fun g => g.lseq == f.ack) then (x.replay.dropWhile (fun g => g.lseq != f.ack)).drop 1 else x.replay
        (t.chip.rnd.port p).sent = x.sent ++ rest ∧ (t.chip.rnd.port p).replay = rest ∧
        t.chip.rnd.replays = (if rest = [] then s.chip.rnd.replays else s.chip.rnd.replays.inc))))) ∧
  (∀ (s : State) (p : Port) (h : HelloInfo),
    (s.chip.rnd.slipped = true → exec (.hello p h) s = .next s) ∧
    (s.chip.rnd.slipped = false → ∃ t, exec (.hello p h) s = .next t ∧
      t = { s with chip := { s.chip with rnd := t.chip.rnd, keep := t.chip.keep, freeCtr := t.chip.freeCtr, log := t.chip.log,
                                         evc := t.chip.evc, pins := t.chip.pins } } ∧
      (h.bypassed ≤ 2 → (t.chip.rnd.port p).state = .up ∧ (t.chip.rnd.port p).nbValid = true ∧ (t.chip.rnd.port p).neighbour = h.neighbour ∧
        (t.chip.rnd.port p).bypassed = h.bypassed ∧ t.chip.keep = { s.chip.keep with presets := true } ∧ t.chip.freeCtr = s.chip.freeCtr + 1) ∧
      (2 < h.bypassed → (t.chip.rnd.port p).state = .wrapped ∧ t.chip.keep = s.chip.keep)))

/-- R10, R255 to R257, R260, R267: a DATA frame of a stream fed over the Round takes the hanks its bytes reach and fills them, and the last
one is acknowledged and arrives, 64 Best-effort bytes for a ticket that adapts as an augmentation descriptor (log 132); one for a ROUND region is written if discovery shows its sender in the region's source role, and else
discarded and logged; an empty one from a store fails the fill (R149). A FETCH is answered by a store with the block as one Bulk transfer of
the same RESV, and otherwise by an empty frame (log 59). A DISCOVER enters its sender into the routes and goes on with one hop more; the
module's own gives the ring size (log 60); two modules of one ID leave one, that of the lower serial. -/
def Obligations.RoundTrafficActs : Prop :=
  (∀ (s : State) (p : Port) (f : RFrame) (k : Ticket), f.type = 1 → (s.chip.rnd.receive p f).2 = true → s.chip.rst.fenced = false →
    f.cls ≠ .bulk → s.chip.frameTicket f = some k → k.takesData f = true → s.chip.rnd.incoming f = none → f.offset = 0 →
    let n := ceilDiv f.payload.length 0x4000
    let hs := s.chip.hank.next n
    n ≤ 4096 →
    let full := decide (f.last = true ∧ k.srcRound = false ∧ (s.chip.queue k.queue).room < 3)
    (s.chip.grantable k n = false ∨ full = true → exec (.data p f) s = .next { s with chip := { s.chip with rnd := (s.chip.rnd.receive p f).1 } }) ∧
    (s.chip.grantable k n = true → f.last = false → ∃ t, exec (.data p f) s = .next t ∧ t.mem = hankWrite s.mem hs 0 f.payload ∧
      t = { s with chip := { s.chip with rnd := t.chip.rnd, hank := t.chip.hank, hbm := t.chip.hbm, pnl := t.chip.pnl }, mem := t.mem } ∧
      (∀ h ∈ hs, t.chip.hank.entry h = { state := .held, owner := ctxTag (k.kindContext .decode), ticket := k.id, readers := [] }) ∧
      (∀ h, h ∉ hs → t.chip.hank.entry h = s.chip.hank.entry h) ∧
      ({ src := f.src, xfer := f.xfer, ticket := k.id, hanks := hs, got := f.payload.length, resent := f.resent, done := false } : XferIn) ∈ t.chip.rnd.xin) ∧
    (s.chip.grantable k n = true → full = false → f.last = true → ∃ u, exec (.data p f) s = .next (Safety.upToDate k.id u) ∧
      u.mem = hankWrite s.mem hs 0 f.payload ∧
      (k.kindStage .adapt ≠ none → f.cls = .bestEffort → f.payload.length = 64 → u.chip.cast.arrived = s.chip.cast.arrived) ∧
      (k.kindStage .adapt = none → ({ src := f.src, xfer := f.xfer, ticket := k.id, hanks := [], got := f.payload.length, resent := f.resent, done := true } : XferIn) ∈ u.chip.rnd.xin) ∧
      (k.kindStage .adapt = none → s.chip.stream? k.pipeline ≠ none →
        u.chip.cast.arrived = s.chip.cast.arrived.inc ∧ (u.chip.ticket? k.id).map (fun x => x.nextSource) = some (k.nextSource + 1)))) ∧
  (∀ (s : State) (p : Port) (f : RFrame), f.type = 1 → (s.chip.rnd.receive p f).2 = true → s.chip.rst.fenced = false → f.cls ≠ .bulk →
    (∀ k, s.chip.frameTicket f = some k → k.takesData f = false) →
    let ok := fun (r : Region) => s.chip.mayWrite f.src r && decide (f.offset + f.payload.length ≤ r.size)
    (∀ r, s.chip.roundRegion f = some r → ok r = true → s.chip.rnd.incoming f = none → ∃ t, exec (.data p f) s = .next t ∧
      t.mem = s.mem.writes (r.base + f.offset) f.payload ∧
      t = { s with chip := { s.chip with rnd := t.chip.rnd, hbm := t.chip.hbm, pnl := t.chip.pnl }, mem := t.mem }) ∧
    (s.chip.roundRegion f = none ∨ (∃ r, s.chip.roundRegion f = some r ∧ ok r = false) → ∃ t, exec (.data p f) s = .next t ∧
      t = { s with chip := { s.chip with rnd := t.chip.rnd, log := t.chip.log, evc := t.chip.evc } } ∧ (t.chip.evc.src 279).pending = true)) ∧
  (∀ (s : State) (p : Port) (f : RFrame) (x : Fill), f.type = 1 → (s.chip.rnd.receive p f).2 = true → s.chip.rst.fenced = false →
    f.cls = .bulk → s.chip.fillOf f = some x → ∃ t, exec (.data p f) s = .next t ∧
      t = { s with chip := { s.chip with rnd := t.chip.rnd, pnl := t.chip.pnl, log := t.chip.log, evc := t.chip.evc } } ∧
      (f.length ≠ 0 → t.chip.pnl = s.chip.pnl) ∧
      (f.length = 0 → t.chip.pnl.fail = min 4294967295 (s.chip.pnl.fail + 1) ∧ t.chip.pnl.fills =
        (if x.seg.isSome then s.chip.pnl.fills.erase x else s.chip.pnl.fills.map (fun g => if g = x then { g with failed := true } else g)))) ∧
  (∀ (s : State) (p : Port) (f : RFrame), f.type = 3 → (s.chip.rnd.receive p f).2 = true →
    (s.chip.rst.fenced = true ∨ 4096 ≤ s.chip.rnd.openXfers → exec (.fetch p f) s = .next { s with chip := { s.chip with rnd := (s.chip.rnd.receive p f).1 } }) ∧
    (s.chip.rst.fenced = false → s.chip.rnd.openXfers < 4096 → ∃ (t : State) (x : XferOut), exec (.fetch p f) s = .next t ∧
      t = { s with chip := { s.chip with rnd := t.chip.rnd, hbm := t.chip.hbm, log := t.chip.log, evc := t.chip.evc, pins := t.chip.pins } } ∧
      t.chip.rnd.xout = s.chip.rnd.xout ++ [x] ∧ x.dest = f.src ∧ x.cls = .bulk ∧ x.resv = f.resvBulk ∧ x.hanks = [] ∧
      t.chip.rnd.nextXfer = (s.chip.rnd.nextXfer + 1) % 4294967296 ∧
      (∀ a, s.chip.isStore = true → s.chip.storeBlock f.arg = some a →
        x.frames.flatMap (fun g => g.payload) = s.mem.reads a 65536 ∧ x.frames.length = 16) ∧
      (s.chip.isStore = false ∨ s.chip.storeBlock f.arg = none → x.frames.map (fun g => (g.length, g.last)) = [(0, true)]))) ∧
  (∀ (s : State) (p : Port) (f : RFrame), f.type = 6 → (s.chip.rnd.receive p f).2 = true →
    let k := le f.payload 0 2
    let serial := le f.payload 2 8
    let hop := le f.payload 12 2
    ∃ t, exec (.discover p f) s = .next t ∧
      t = { s with chip := { s.chip with rnd := t.chip.rnd, log := t.chip.log, evc := t.chip.evc, pins := t.chip.pins } } ∧
      (k = s.chip.rnd.id → serial = s.chip.pins.serial → f.turned = false → t.chip.rnd.ringSize = hop ∧ t.chip.rnd.routes = s.chip.rnd.routes) ∧
      (k = s.chip.rnd.id → serial < s.chip.pins.serial → t.chip.rnd.dupId = true ∧ t.chip.rnd.slipped = true ∧
        (t.chip.log.slot 2).first.isSome = true) ∧
      (k = s.chip.rnd.id → s.chip.pins.serial < serial → t.chip.rnd.slipped = s.chip.rnd.slipped ∧ t.chip.rnd.routes = s.chip.rnd.routes) ∧
      (k ≠ s.chip.rnd.id → (t.chip.rnd.route k).valid = true ∧ (f.turned = false → (t.chip.rnd.route k).hops p = hop) ∧
        Tbl.get ⟨0, 0, 0, 0⟩ t.chip.rnd.peers k = { serial := serial, roles := le f.payload 10 1, rung := le f.payload 11 1, lastRun := s.chip.rnd.runs } ∧
        (1 < f.ttl → (s.chip.rnd.port p.other).state ≠ .wrapped → ∃ g ∈ (t.chip.rnd.port p.other).egress,
          g.payload = f.payload.take 12 ++ leBytes 2 (hop + 1) ∧ g.ttl = f.ttl - 1)))

/-- R252, R254, R255, R257, R258, R260, R262 to R264: what a port does of itself. It sends IDLE when it has no traffic; of the frames that
wait Control goes first while its share lasts, then Guaranteed, each numbered and kept for replay, and the last frame of a transfer commits
its output (R11); a link in fault, a lost lock and a wrap take the port out of use, a wrapped one hands its frames to the other; a planned
slip cuts both. 100 µs without XFER_ACK or MSG_ACK a transfer or message is sent again once, and the second time fails with its garment; a
gap in a peer's messages does so after 300 µs; discovery runs forget the modules silent for two of them (log 61). -/
def Obligations.PortsAndTimersOfTheRound : Prop :=
  (∀ (s : State) (p : Port),
    let x := s.chip.rnd.port p
    (x.state = .up ∧ x.transit = [] ∧ x.egress = [] → ∃ (t : State) (g : RFrame), exec (.idleSend p) s = .next t ∧
      t = { s with chip := { s.chip with rnd := t.chip.rnd } } ∧ t.chip.rnd.port p.other = s.chip.rnd.port p.other ∧
      t.chip.rnd.port p = { x with sent := x.sent ++ [g] } ∧ g.type = 4 ∧ g.nak = false ∧ g.ack = (x.rxSeq + 65535) % 65536 ∧ g.credits = x.freed) ∧
    (¬ (x.state = .up ∧ x.transit = [] ∧ x.egress = []) → exec (.idleSend p) s = .next s) ∧
    (x.state ≠ .up ∨ x.choose s.chip.rnd.wrrBe s.chip.rnd.wrrBulk = none → exec (.frameBoundary p) s = .next s) ∧
    (∀ w turns, x.state = .up → x.choose s.chip.rnd.wrrBe s.chip.rnd.wrrBulk = some (w, turns) →
      let sent := if w.1.isNone then s.chip.rnd.commits w.2 else none
      ∃ (t : State) (g : RFrame), exec (.frameBoundary p) s = .next (sent.elim t (fun o => Safety.upToDate o.ticket t)) ∧
        t = { s with chip := { s.chip with rnd := t.chip.rnd, cast := t.chip.cast, queues := t.chip.queues, tracks := t.chip.tracks, hank := t.chip.hank } } ∧
        g = { w.2 with lseq := g.lseq, ack := g.ack, credits := g.credits, hcrc := g.hcrc, payload := g.payload, pcrc := g.pcrc } ∧
        (w.2.credited = true → g.lseq = x.txSeq) ∧ (t.chip.rnd.port p).sent = x.sent ++ [g] ∧ (t.chip.rnd.port p).replay = x.replay ++ [g] ∧
        (t.chip.rnd.port p).txSeq = (x.txSeq + 1) % 65536 ∧ (t.chip.rnd.port p).used = addBeats x.used g.cls.code g.beats ∧
        (w.1 = none → (t.chip.rnd.port p).egress = x.egress.erase w.2) ∧
        (sent = none → t = { s with chip := { s.chip with rnd := t.chip.rnd } } ∧ g.payload = w.2.payload ∧ g.pcrc = w.2.pcrc) ∧
        (∀ o, sent = some o → t.chip.cast.committed = s.chip.cast.committed.inc ∧
          t.chip.cast.late = (if s.chip.lateNow o.due then s.chip.cast.late.inc else s.chip.cast.late) ∧
          ∀ at_ due, o.stamps = [(at_, due)] → at_ + 0x40 ≤ w.2.payload.length → s.chip.now < 2 ^ 64 → le g.payload (at_ + 0x18) 8 = s.chip.now ∧
            bit (le g.payload (at_ + 0x20) 1) 0 = s.chip.lateNow due ∧ g.payload.length = w.2.payload.length)) ∧
    (∀ w, x.ready (fun f => f.cls == .control) = some w → x.ctlShare w = true →
      x.choose s.chip.rnd.wrrBe s.chip.rnd.wrrBulk = some (w, x.wrrBe, x.wrrBulk)) ∧
    (∀ w, x.ready (fun f => f.cls == .control) = none → x.ready (fun f => f.cls == .guaranteed) = some w →
      x.ready (fun f => f.cls == .bulk && f.resvBulk) = none → x.choose s.chip.rnd.wrrBe s.chip.rnd.wrrBulk = some (w, x.wrrBe, x.wrrBulk))) ∧
  (∀ (s : State) (p : Port),
    let x := s.chip.rnd.port p
    (∃ t, exec (.linkFault p) s = .next t ∧ t = { s with chip := { s.chip with rnd := t.chip.rnd, gauge := t.chip.gauge } } ∧
      (t.chip.rnd.port p).state = .down ∧ (t.chip.rnd.port p).locked = 0 ∧ (t.chip.rnd.port p).nbValid = false ∧ (t.chip.rnd.port p).replay = x.replay ∧
      t.chip.rnd.port p.other = s.chip.rnd.port p.other ∧ (x.replayAt = none → t.chip.gauge = s.chip.gauge) ∧
      (∀ d, x.replayAt = some d → s.chip.now ≤ d + 500 → d + 500 < 2 ^ 64 → t.chip.gauge = { s.chip.gauge with time := d + 500 })) ∧
    (∀ lanes, s.chip.rnd.slipped = true → ∀ c ∈ [Instr.lossOfLock p, .laneLocked p lanes, .wrap p], exec c s = .next s) ∧
    (s.chip.rnd.slipped = false → ∃ t, exec (.lossOfLock p) s = .next t ∧ t = { s with chip := { s.chip with rnd := t.chip.rnd } } ∧
      t.chip.rnd.port p = { x with state := .training, locked := 0, nbValid := false } ∧ t.chip.rnd.port p.other = s.chip.rnd.port p.other) ∧
    (∀ lanes, s.chip.rnd.slipped = false → ∃ t, exec (.laneLocked p lanes) s = .next t ∧ t = { s with chip := { s.chip with rnd := t.chip.rnd } } ∧
      t.chip.rnd.port p = { x with locked := lanes % 256, state := if x.state = .up then .up else .training } ∧
      t.chip.rnd.port p.other = s.chip.rnd.port p.other) ∧
    (x.state = .up ∨ x.state = .wrapped → exec (.wrap p) s = .next s) ∧
    (s.chip.rnd.slipped = false → x.state ≠ .up → x.state ≠ .wrapped → ∃ t, exec (.wrap p) s = .next t ∧
      t = { s with chip := { s.chip with rnd := t.chip.rnd, freeCtr := t.chip.freeCtr, log := t.chip.log, evc := t.chip.evc, pins := t.chip.pins } } ∧
      (t.chip.rnd.port p).state = .wrapped ∧ ((s.chip.rnd.port p.other).state ≠ .wrapped → (t.chip.rnd.port p).egress = []) ∧ (t.chip.rnd.port p).transit = [] ∧ t.chip.rnd.repKind = 2 ∧
      (∀ f ∈ x.egress, { f with turned := true } ∈ (t.chip.rnd.port p.other).egress) ∧
      (∀ e ∈ x.transit, (e.1, { e.2 with turned := true }) ∈ (t.chip.rnd.port p.other).transit))) ∧
  (∀ s : State,
    (s.chip.rnd.slipPending = false → exec .plannedSlip s = .next s) ∧
    (s.chip.rnd.slipPending = true → ∃ t, exec .plannedSlip s = .next t ∧ t = { s with chip := { s.chip with rnd := t.chip.rnd, gauge := t.chip.gauge } } ∧
      t.chip.rnd.slipped = true ∧ t.chip.rnd.slipPending = false ∧ (∀ p, (t.chip.rnd.port p).state = .down ∧ (t.chip.rnd.port p).replay = [] ∧
        (t.chip.rnd.port p).egress = [] ∧ (t.chip.rnd.port p).transit = []) ∧
      (s.chip.rnd.east.replay = [] → s.chip.rnd.west.replay = [] → t.chip.gauge = s.chip.gauge)) ∧
    (∃ u, exec .discoveryRun s = .next (Safety.settled u) ∧ u = { s with chip := { s.chip with rnd := u.chip.rnd } } ∧
      (s.chip.rnd.slipped = true → u.chip.rnd = s.chip.rnd) ∧
      (s.chip.rnd.slipped = false → u.chip.rnd.runs = s.chip.rnd.runs + 1 ∧
        (∀ k x, s.chip.rnd.peers.find? (fun e => e.1 == k) = some (k, x) → x.lastRun + 2 < s.chip.rnd.runs + 1 → u.chip.rnd.reachable k = false) ∧
        (∀ p : Port, (s.chip.rnd.port .east).state ≠ .wrapped → (s.chip.rnd.port .west).state ≠ .wrapped →
          (u.chip.rnd.port p).egress = (s.chip.rnd.port p).egress ++ [s.chip.discoverFrame])))) ∧
  (∀ (s : State) (k : Nat),
    (s.chip.rnd.xout.find? (fun x => x.xfer == k && x.leftAt.isSome) = none → exec (.xferAckTimeout k) s = .next s) ∧
    (∀ x d, s.chip.rnd.xout.find? (fun x => x.xfer == k && x.leftAt.isSome) = some x → x.leftAt = some d → s.chip.now ≤ d + 2500 → d + 2500 < 2 ^ 64 →
      (x.resent = false → ∃ t, exec (.xferAckTimeout k) s = .next t ∧
        t = { s with chip := { s.chip with gauge := { s.chip.gauge with time := d + 2500 }, rnd := t.chip.rnd } } ∧
        t.chip.rnd.resend = s.chip.rnd.resend.inc ∧
        t.chip.rnd.xout = s.chip.rnd.xout.map (fun y => if y = x then { x with resent := true, unsent := x.frames.length, leftAt := none, west := !x.west } else y)) ∧
      (x.resent = true → ∃ u, exec (.xferAckTimeout k) s = .next (Safety.failed x.garment 3 (Safety.upToDate x.ticket u)) ∧
        u = { s with chip := { s.chip with gauge := { s.chip.gauge with time := d + 2500 }, rnd := u.chip.rnd, hank := u.chip.hank } } ∧
        u.chip.rnd.xout = s.chip.rnd.xout.erase x))) ∧
  (∀ (s : State) (dest eseq : Nat),
    let q := s.chip.rnd.eseqOf dest
    (q.unacked.find? (fun u => u.1 == eseq) = none → exec (.msgAckTimeout dest eseq) s = .next s) ∧
    (∀ n f d, q.unacked.find? (fun u => u.1 == eseq) = some (n, f, d) → s.chip.now ≤ d + 2500 → d + 2500 < 2 ^ 64 →
      (f.resent = false → ∃ t, exec (.msgAckTimeout dest eseq) s = .next t ∧
        t = { s with chip := { s.chip with gauge := { s.chip.gauge with time := d + 2500 }, rnd := t.chip.rnd } } ∧
        t.chip.rnd.resend = s.chip.rnd.resend.inc ∧ t.chip.rnd.eseqOf dest =
          { q with unacked := q.unacked.map (fun u => if u.1 = n then (n, { f with resent := true }, d + 2500) else u) }) ∧
      (f.resent = true → ∃ u, exec (.msgAckTimeout dest eseq) s = .next (Safety.failed f.garment 2 u) ∧
        u = { s with chip := { s.chip with gauge := { s.chip.gauge with time := d + 2500 }, rnd := u.chip.rnd } } ∧
        u.chip.rnd.eseqOf dest = { q with unacked := q.unacked.filter (fun u => u.1 != n) })) ∧
    (q.gapAt = none ∨ q.held = [] → exec (.controlGap dest) s = .next s) ∧
    (∀ d f, q.gapAt = some d → q.nearest = some f → s.chip.now ≤ d + 7500 → d + 7500 < 2 ^ 64 →
      ∃ u, exec (.controlGap dest) s = .next (Safety.controlEnd dest (Safety.resumed dest f.offset q.held.length (Safety.failed f.garment 4 u))) ∧
        u = { s with chip := { s.chip with gauge := { s.chip.gauge with time := d + 7500 } } }))

/-! ### What every step keeps -/

/-- Every step, a command's or a tick's, keeps the addressed memories in canonical form, so that equal memories stay equal data
(the form is the model's, log 6). -/
def Obligations.StepKeepsMemoryForm : Prop :=
  ∀ s t : State, Safety.Inv s → step s = .next t → Safety.Inv t

/-- R305: the recovery image is never written in the field, whatever command runs: not by slot writes, starts, resets or the loss of a
supply. -/
def Obligations.RecoveryImageNeverChanges : Prop :=
  ∀ s t : State, step s = .next t → t.chip.pat.recovery = s.chip.pat.recovery

/-- R310: a reserved source never becomes pending: where none is, none is after a step, whatever command runs. -/
def Obligations.ReservedSourcesStayQuiet : Prop :=
  ∀ s t : State, (∀ k, reservedSource k = true → (s.chip.evc.src k).pending = false) → step s = .next t →
    ∀ k, reservedSource k = true → (t.chip.evc.src k).pending = false
end

