-- ==== Sys2Proof/Laws/Exec.lean ====
section
/-!
SUPPORT. One law per arm of exec: the meaning each command runs, so that no proof unfolds the dispatch.
-/
namespace Sys2Proof.Machine

theorem exec_registerWrite {s : State} {fn addr size value} : exec (.registerWrite fn addr size value) s = execRegisterWrite fn addr size value s := rfl
theorem exec_rowBoundary {s : State} {e} : exec (.rowBoundary e) s = execRowBoundary e s := rfl
theorem exec_gaugeWindowEnd {s : State} {counts} : exec (.gaugeWindowEnd counts) s = execGaugeWindowEnd counts s := rfl
theorem exec_fastHoldExpire {s : State} : exec (.fastHoldExpire) s = execFastHoldExpire s := rfl
theorem exec_vcoreSettled {s : State} : exec (.vcoreSettled) s = execVcoreSettled s := rfl
theorem exec_provisionalRowBoundary {s : State} : exec (.provisionalRowBoundary) s = execProvisionalRowBoundary s := rfl
theorem exec_marginTimeout {s : State} : exec (.marginTimeout) s = execMarginTimeout s := rfl
theorem exec_gaugeTimeLoRead {s : State} : exec (.gaugeTimeLoRead) s = execGaugeTimeLoRead s := rfl
theorem exec_crystalFail {s : State} : exec (.crystalFail) s = execCrystalFail s := rfl
theorem exec_castOn {s : State} {fn d} : exec (.castOn fn d) s = execCastOn fn d s := rfl
theorem exec_bindOff {s : State} {fn d} : exec (.bindOff fn d) s = execBindOff fn d s := rfl
theorem exec_bindOffDrainEnd {s : State} {ticket} : exec (.bindOffDrainEnd ticket) s = execBindOffDrainEnd ticket s := rfl
theorem exec_garmentCastOn {s : State} {fn d} : exec (.garmentCastOn fn d) s = execGarmentCastOn fn d s := rfl
theorem exec_reserve {s : State} {p f} : exec (.reserve p f) s = execReserve p f s := rfl
theorem exec_answer {s : State} {p f} : exec (.answer p f) s = execAnswer p f s := rfl
theorem exec_commit {s : State} {p f} : exec (.commit p f) s = execCommit p f s := rfl
theorem exec_release {s : State} {p f} : exec (.release p f) s = execRelease p f s := rfl
theorem exec_garmentAnswerTimeout {s : State} {garment} : exec (.garmentAnswerTimeout garment) s = execGarmentAnswerTimeout garment s := rfl
theorem exec_garmentHoldExpire {s : State} {garment} : exec (.garmentHoldExpire garment) s = execGarmentHoldExpire garment s := rfl
theorem exec_garmentBindOff {s : State} {p f} : exec (.garmentBindOff p f) s = execGarmentBindOff p f s := rfl
theorem exec_matmul {s : State} {n seq tod} : exec (.matmul n seq tod) s = execMatmul n seq tod s := rfl
theorem exec_conv {s : State} {n seq tod} : exec (.conv n seq tod) s = execConv n seq tod s := rfl
theorem exec_dwconv {s : State} {n seq tod} : exec (.dwconv n seq tod) s = execDwconv n seq tod s := rfl
theorem exec_pool {s : State} {n seq tod} : exec (.pool n seq tod) s = execPool n seq tod s := rfl
theorem exec_eltwise {s : State} {n seq tod} : exec (.eltwise n seq tod) s = execEltwise n seq tod s := rfl
theorem exec_norm {s : State} {n seq tod} : exec (.norm n seq tod) s = execNorm n seq tod s := rfl
theorem exec_softmax {s : State} {n seq tod} : exec (.softmax n seq tod) s = execSoftmax n seq tod s := rfl
theorem exec_gather {s : State} {n seq tod} : exec (.gather n seq tod) s = execGather n seq tod s := rfl
theorem exec_scatter {s : State} {n seq tod} : exec (.scatter n seq tod) s = execScatter n seq tod s := rfl
theorem exec_argmax {s : State} {n seq tod} : exec (.argmax n seq tod) s = execArgmax n seq tod s := rfl
theorem exec_s2d {s : State} {n seq tod} : exec (.s2d n seq tod) s = execS2d n seq tod s := rfl
theorem exec_marub {s : State} {n seq tod} : exec (.marub n seq tod) s = execMarub n seq tod s := rfl
theorem exec_sync {s : State} {n seq tod} : exec (.sync n seq tod) s = execSync n seq tod s := rfl
theorem exec_operationComplete {s : State} {n tag e stalls withheld r} :
    exec (.operationComplete n tag e stalls withheld r) s = execOperationComplete n tag e stalls withheld r s := rfl
theorem exec_weightSwapComplete {s : State} {n} : exec (.weightSwapComplete n) s = execWeightSwapComplete n s := rfl
theorem exec_dmaTransferComplete {s : State} {n id} : exec (.dmaTransferComplete n id) s = execDmaTransferComplete n id s := rfl
theorem exec_chunkAdmit {s : State} {panel res guaranteed} : exec (.chunkAdmit panel res guaranteed) s = execChunkAdmit panel res guaranteed s := rfl
theorem exec_chartFillComplete {s : State} {block d} : exec (.chartFillComplete block d) s = execChartFillComplete block d s := rfl
theorem exec_chartFillTimeout {s : State} {block} : exec (.chartFillTimeout block) s = execChartFillTimeout block s := rfl
theorem exec_residentSegmentLoaded {s : State} {seg} : exec (.residentSegmentLoaded seg) s = execResidentSegmentLoaded seg s := rfl
theorem exec_decodeSegmentEnd {s : State} {core} : exec (.decodeSegmentEnd core) s = execDecodeSegmentEnd core s := rfl
theorem exec_decodeComplete {s : State} {core r} : exec (.decodeComplete core r) s = execDecodeComplete core r s := rfl
theorem exec_fieldReleaseTimeout {s : State} {ticket source} : exec (.fieldReleaseTimeout ticket source) s = execFieldReleaseTimeout ticket source s := rfl
theorem exec_skipRecordCommit {s : State} {ticket} : exec (.skipRecordCommit ticket) s = execSkipRecordCommit ticket s := rfl
theorem exec_laneStart {s : State} {core} : exec (.laneStart core) s = execLaneStart core s := rfl
theorem exec_encodeSegmentEnd {s : State} {core} : exec (.encodeSegmentEnd core) s = execEncodeSegmentEnd core s := rfl
theorem exec_encodeComplete {s : State} {core r} : exec (.encodeComplete core r) s = execEncodeComplete core r s := rfl
theorem exec_waitTimeout {s : State} {ticket source stage} : exec (.waitTimeout ticket source stage) s = execWaitTimeout ticket source stage s := rfl
theorem exec_sampleDropped {s : State} {ticket sample} : exec (.sampleDropped ticket sample) s = execSampleDropped ticket sample s := rfl
theorem exec_hankAlloc {s : State} {ticket tag n} : exec (.hankAlloc ticket tag n) s = execHankAlloc ticket tag n s := rfl
theorem exec_hankAllocGrant {s : State} : exec (.hankAllocGrant) s = execHankAllocGrant s := rfl
theorem exec_hankShare {s : State} {h caller releaser readers} : exec (.hankShare h caller releaser readers) s = execHankShare h caller releaser readers s := rfl
theorem exec_hankPass {s : State} {h caller tag} : exec (.hankPass h caller tag) s = execHankPass h caller tag s := rfl
theorem exec_hankFree {s : State} {h caller} : exec (.hankFree h caller) s = execHankFree h caller s := rfl
theorem exec_hankScrubDone {s : State} {h} : exec (.hankScrubDone h) s = execHankScrubDone h s := rfl
theorem exec_hbmParityError {s : State} {pc} : exec (.hbmParityError pc) s = execHbmParityError pc s := rfl
theorem exec_rowIdleClose {s : State} {pc bank} : exec (.rowIdleClose pc bank) s = execRowIdleClose pc bank s := rfl
theorem exec_patrolScrub {s : State} {fixed bad} : exec (.patrolScrub fixed bad) s = execPatrolScrub fixed bad s := rfl
theorem exec_data {s : State} {p f} : exec (.data p f) s = execData p f s := rfl
theorem exec_fetch {s : State} {p f} : exec (.fetch p f) s = execFetch p f s := rfl
theorem exec_idle {s : State} {p f} : exec (.idle p f) s = execIdle p f s := rfl
theorem exec_nak {s : State} {p f} : exec (.nak p f) s = execNak p f s := rfl
theorem exec_hello {s : State} {p h} : exec (.hello p h) s = execHello p h s := rfl
theorem exec_discover {s : State} {p f} : exec (.discover p f) s = execDiscover p f s := rfl
theorem exec_markerSignal {s : State} {p f} : exec (.markerSignal p f) s = execMarkerSignal p f s := rfl
theorem exec_garmentAbort {s : State} {p f} : exec (.garmentAbort p f) s = execGarmentAbort p f s := rfl
theorem exec_xferAck {s : State} {p f} : exec (.xferAck p f) s = execXferAck p f s := rfl
theorem exec_msgAck {s : State} {p f} : exec (.msgAck p f) s = execMsgAck p f s := rfl
theorem exec_alarm {s : State} {p f} : exec (.alarm p f) s = execAlarm p f s := rfl
theorem exec_alarmSummary {s : State} {p f} : exec (.alarmSummary p f) s = execAlarmSummary p f s := rfl
theorem exec_ringChange {s : State} {p f} : exec (.ringChange p f) s = execRingChange p f s := rfl
theorem exec_idleSend {s : State} {p} : exec (.idleSend p) s = execIdleSend p s := rfl
theorem exec_frameBoundary {s : State} {p} : exec (.frameBoundary p) s = execFrameBoundary p s := rfl
theorem exec_linkFault {s : State} {p} : exec (.linkFault p) s = execLinkFault p s := rfl
theorem exec_xferAckTimeout {s : State} {xfer} : exec (.xferAckTimeout xfer) s = execXferAckTimeout xfer s := rfl
theorem exec_msgAckTimeout {s : State} {dest eseq} : exec (.msgAckTimeout dest eseq) s = execMsgAckTimeout dest eseq s := rfl
theorem exec_controlGap {s : State} {src} : exec (.controlGap src) s = execControlGap src s := rfl
theorem exec_discoveryRun {s : State} : exec (.discoveryRun) s = execDiscoveryRun s := rfl
theorem exec_lossOfLock {s : State} {p} : exec (.lossOfLock p) s = execLossOfLock p s := rfl
theorem exec_wrap {s : State} {p} : exec (.wrap p) s = execWrap p s := rfl
theorem exec_plannedSlip {s : State} : exec (.plannedSlip) s = execPlannedSlip s := rfl
theorem exec_perstRelease {s : State} {e} : exec (.perstRelease e) s = execPerstRelease e s := rfl
theorem exec_perstAssert {s : State} : exec (.perstAssert) s = execPerstAssert s := rfl
theorem exec_bar2Access {s : State} {fn handle offset op} : exec (.bar2Access fn handle offset op) s = execBar2Access fn handle offset op s := rfl
theorem exec_queueEnable {s : State} {fn q value} : exec (.queueEnable fn q value) s = execQueueEnable fn q value s := rfl
theorem exec_queueDisable {s : State} {fn q value} : exec (.queueDisable fn q value) s = execQueueDisable fn q value s := rfl
theorem exec_resume {s : State} {fn q} : exec (.resume fn q) s = execResume fn q s := rfl
theorem exec_sqTailWrite {s : State} {fn q value} : exec (.sqTailWrite fn q value) s = execSqTailWrite fn q value s := rfl
theorem exec_cqHeadWrite {s : State} {fn q value} : exec (.cqHeadWrite fn q value) s = execCqHeadWrite fn q value s := rfl
theorem exec_nop {s : State} {fn q entry} : exec (.nop fn q entry) s = execNop fn q entry s := rfl
theorem exec_frame {s : State} {fn q entry d pic} : exec (.frame fn q entry d pic) s = execFrame fn q entry d pic s := rfl
theorem exec_sample {s : State} {fn q entry d pic} : exec (.sample fn q entry d pic) s = execSample fn q entry d pic s := rfl
theorem exec_alloc {s : State} {fn q entry} : exec (.alloc fn q entry) s = execAlloc fn q entry s := rfl
theorem exec_free {s : State} {fn q entry d} : exec (.free fn q entry d) s = execFree fn q entry d s := rfl
theorem exec_copyOut {s : State} {fn q entry d} : exec (.copyOut fn q entry d) s = execCopyOut fn q entry d s := rfl
theorem exec_signal {s : State} {fn q entry} : exec (.signal fn q entry) s = execSignal fn q entry s := rfl
theorem exec_wait {s : State} {fn q entry} : exec (.wait fn q entry) s = execWait fn q entry s := rfl
theorem exec_hostWaitTimeout {s : State} {q tag} : exec (.hostWaitTimeout q tag) s = execHostWaitTimeout q tag s := rfl
theorem exec_completionTlp {s : State} {tag st} : exec (.completionTlp tag st) s = execCompletionTlp tag st s := rfl
theorem exec_completionTimeout {s : State} {tag} : exec (.completionTimeout tag) s = execCompletionTimeout tag s := rfl
theorem exec_tagRelease {s : State} {tag} : exec (.tagRelease tag) s = execTagRelease tag s := rfl
theorem exec_busMasterDisable {s : State} {fn} : exec (.busMasterDisable fn) s = execBusMasterDisable fn s := rfl
theorem exec_busMasterEnable {s : State} {fn} : exec (.busMasterEnable fn) s = execBusMasterEnable fn s := rfl
theorem exec_functionLevelReset {s : State} {fn} : exec (.functionLevelReset fn) s = execFunctionLevelReset fn s := rfl
theorem exec_hotReset {s : State} : exec (.hotReset) s = execHotReset s := rfl
theorem exec_vfEnableClear {s : State} : exec (.vfEnableClear) s = execVfEnableClear s := rfl
theorem exec_numvfsLower {s : State} {n} : exec (.numvfsLower n) s = execNumvfsLower n s := rfl
theorem exec_l1Entry {s : State} : exec (.l1Entry) s = execL1Entry s := rfl
theorem exec_d3hotEntry {s : State} {fn} : exec (.d3hotEntry fn) s = execD3hotEntry fn s := rfl
theorem exec_d0Return {s : State} {fn} : exec (.d0Return fn) s = execD0Return fn s := rfl
theorem exec_pmeTurnOff {s : State} : exec (.pmeTurnOff) s = execPmeTurnOff s := rfl
theorem exec_doeDiscovery {s : State} {index} : exec (.doeDiscovery index) s = execDoeDiscovery index s := rfl
theorem exec_getVersion {s : State} {overSmbus arg} : exec (.getVersion overSmbus arg) s = execGetVersion overSmbus arg s := rfl
theorem exec_getCapabilities {s : State} {overSmbus arg} : exec (.getCapabilities overSmbus arg) s = execGetCapabilities overSmbus arg s := rfl
theorem exec_negotiateAlgorithms {s : State} {overSmbus arg} : exec (.negotiateAlgorithms overSmbus arg) s = execNegotiateAlgorithms overSmbus arg s := rfl
theorem exec_getDigests {s : State} {overSmbus arg} : exec (.getDigests overSmbus arg) s = execGetDigests overSmbus arg s := rfl
theorem exec_getCertificate {s : State} {overSmbus arg} : exec (.getCertificate overSmbus arg) s = execGetCertificate overSmbus arg s := rfl
theorem exec_challenge {s : State} {overSmbus arg} : exec (.challenge overSmbus arg) s = execChallenge overSmbus arg s := rfl
theorem exec_getMeasurements {s : State} {overSmbus arg} : exec (.getMeasurements overSmbus arg) s = execGetMeasurements overSmbus arg s := rfl
theorem exec_slotWrite {s : State} {fn img} : exec (.slotWrite fn img) s = execSlotWrite fn img s := rfl
theorem exec_eventAck {s : State} {src seen} : exec (.eventAck src seen) s = execEventAck src seen s := rfl
theorem exec_idleHint {s : State} {v} : exec (.idleHint v) s = execIdleHint v s := rfl
theorem exec_evcDisable {s : State} {on} : exec (.evcDisable on) s = execEvcDisable on s := rfl
theorem exec_moderationTimerExpire {s : State} {fn v} : exec (.moderationTimerExpire fn v) s = execModerationTimerExpire fn v s := rfl
theorem exec_vectorUnmask {s : State} {fn v} : exec (.vectorUnmask fn v) s = execVectorUnmask fn v s := rfl
theorem exec_alarmAck {s : State} {k rep} : exec (.alarmAck k rep) s = execAlarmAck k rep s := rfl
theorem exec_logCopy {s : State} : exec (.logCopy) s = execLogCopy s := rfl
theorem exec_logPersist {s : State} : exec (.logPersist) s = execLogPersist s := rfl
theorem exec_powerSample {s : State} {mw mv} : exec (.powerSample mw mv) s = execPowerSample mw mv s := rfl
theorem exec_thermalReading {s : State} {temps} : exec (.thermalReading temps) s = execThermalReading temps s := rfl
theorem exec_hushEntry {s : State} : exec (.hushEntry) s = execHushEntry s := rfl
theorem exec_dozeEntry {s : State} : exec (.dozeEntry) s = execDozeEntry s := rfl
theorem exec_wake {s : State} {c} : exec (.wake c) s = execWake c s := rfl
theorem exec_trip {s : State} {engine context} : exec (.trip engine context) s = execTrip engine context s := rfl
theorem exec_tinkReplayEnd {s : State} {tripped} : exec (.tinkReplayEnd tripped) s = execTinkReplayEnd tripped s := rfl
theorem exec_recoveryOverrun {s : State} {l} : exec (.recoveryOverrun l) s = execRecoveryOverrun l s := rfl
theorem exec_heartbeatTimeout {s : State} {all} : exec (.heartbeatTimeout all) s = execHeartbeatTimeout all s := rfl
theorem exec_frog {s : State} {context} : exec (.frog context) s = execFrog context s := rfl
theorem exec_panelReset {s : State} {p} : exec (.panelReset p) s = execPanelReset p s := rfl
theorem exec_warmChipReset {s : State} : exec (.warmChipReset) s = execWarmChipReset s := rfl
theorem exec_maintenanceStart {s : State} : exec (.maintenanceStart) s = execMaintenanceStart s := rfl
theorem exec_powerCycle {s : State} : exec (.powerCycle) s = execPowerCycle s := rfl
theorem exec_modRstAssert {s : State} : exec (.modRstAssert) s = execModRstAssert s := rfl
theorem exec_modRstRelease {s : State} {e} : exec (.modRstRelease e) s = execModRstRelease e s := rfl
theorem exec_powerEnableRise {s : State} : exec (.powerEnableRise) s = execPowerEnableRise s := rfl
theorem exec_powerEnableFall {s : State} : exec (.powerEnableFall) s = execPowerEnableFall s := rfl
theorem exec_inputUndervoltage {s : State} : exec (.inputUndervoltage) s = execInputUndervoltage s := rfl
theorem exec_auxUp {s : State} : exec (.auxUp) s = execAuxUp s := rfl
theorem exec_auxLoss {s : State} : exec (.auxLoss) s = execAuxLoss s := rfl
theorem exec_strapsUnstable {s : State} : exec (.strapsUnstable) s = execStrapsUnstable s := rfl
theorem exec_alertResponse {s : State} {won} : exec (.alertResponse won) s = execAlertResponse won s := rfl
theorem exec_setEndpointId {s : State} {eid} : exec (.setEndpointId eid) s = execSetEndpointId eid s := rfl
theorem exec_getEndpointId {s : State} : exec (.getEndpointId) s = execGetEndpointId s := rfl
theorem exec_getMctpVersionSupport {s : State} : exec (.getMctpVersionSupport) s = execGetMctpVersionSupport s := rfl
theorem exec_getMessageTypeSupport {s : State} : exec (.getMessageTypeSupport) s = execGetMessageTypeSupport s := rfl
theorem exec_getVendorDefinedMessageSupport {s : State} {selector} : exec (.getVendorDefinedMessageSupport selector) s = execGetVendorDefinedMessageSupport selector s := rfl
theorem exec_getStatus {s : State} : exec (.getStatus) s = execGetStatus s := rfl
theorem exec_readReg {s : State} {off} : exec (.readReg off) s = execReadReg off s := rfl
theorem exec_readLog {s : State} {seq count} : exec (.readLog seq count) s = execReadLog seq count s := rfl
theorem exec_ackAlarm {s : State} {k rep} : exec (.ackAlarm k rep) s = execAckAlarm k rep s := rfl
theorem exec_requestReset {s : State} {level} : exec (.requestReset level) s = execRequestReset level s := rfl
theorem exec_laneLocked {s : State} {p lanes} : exec (.laneLocked p lanes) s = execLaneLocked p lanes s := rfl
theorem exec_pcieLinkUp {s : State} {speed width} : exec (.pcieLinkUp speed width) s = execPcieLinkUp speed width s := rfl
theorem exec_vfEnableSet {s : State} {n} : exec (.vfEnableSet n) s = execVfEnableSet n s := rfl
theorem exec_inputVoltageRestored {s : State} : exec (.inputVoltageRestored) s = execInputVoltageRestored s := rfl
theorem exec_hbmStackTemperature {s : State} {stack hot} : exec (.hbmStackTemperature stack hot) s = execHbmStackTemperature stack hot s := rfl
theorem exec_slotWriteEnd {s : State} {readBack} : exec (.slotWriteEnd readBack) s = execSlotWriteEnd readBack s := rfl

end Sys2Proof.Machine
end

