-- ==== Sys2Proof/Laws/Kept.lean ====
section
/-!
SUPPORT. Frame lemmas: the operations of a row, of a rung and of an engine keep the tickets, markers, hanks, the endpoint, the queues
and the event sources.
-/
namespace Sys2Proof.Machine

variable {q0 : (Cast × Tbl Marker × Hank) × (Pcie × List HostWrite × Tbl Queue × Evc)}

theorem foldlM_pump {α : Type} {f : Chip × Mem → α → Chip × Mem} (hf : ∀ d a, ((d.1.cast, d.1.markers, d.1.hank), (d.1.pcie, d.1.hostTx, d.1.queues, d.1.evc)) = q0 → (((f d a).1.cast, (f d a).1.markers, (f d a).1.hank), ((f d a).1.pcie, (f d a).1.hostTx, (f d a).1.queues, (f d a).1.evc)) = q0)
    {l : List α} {c : Chip × Mem} (h : ((c.1.cast, c.1.markers, c.1.hank), (c.1.pcie, c.1.hostTx, c.1.queues, c.1.evc)) = q0) : (((l.foldl f c).1.cast, (l.foldl f c).1.markers, (l.foldl f c).1.hank), ((l.foldl f c).1.pcie, (l.foldl f c).1.hostTx, (l.foldl f c).1.queues, (l.foldl f c).1.evc)) = q0 := by
  induction l generalizing c with
  | nil => exact h
  | cons x l ih => exact ih (hf _ _ h)

theorem foldl_pump {α : Type} {f : Chip → α → Chip} (hf : ∀ d a, ((d.cast, d.markers, d.hank), (d.pcie, d.hostTx, d.queues, d.evc)) = q0 → (((f d a).cast, (f d a).markers, (f d a).hank), ((f d a).pcie, (f d a).hostTx, (f d a).queues, (f d a).evc)) = q0)
    {l : List α} {c : Chip} (h : ((c.cast, c.markers, c.hank), (c.pcie, c.hostTx, c.queues, c.evc)) = q0) : (((l.foldl f c).cast, (l.foldl f c).markers, (l.foldl f c).hank), ((l.foldl f c).pcie, (l.foldl f c).hostTx, (l.foldl f c).queues, (l.foldl f c).evc)) = q0 := by
  induction l generalizing c with
  | nil => exact h
  | cons x l ih => exact ih (hf _ _ h)

/-! Ops -/

theorem Chip.advance_pump (c : Chip) (t : Nat) (hgq : ((c.cast, c.markers, c.hank), (c.pcie, c.hostTx, c.queues, c.evc)) = q0) :
    (((Chip.advance c t).cast, (Chip.advance c t).markers, (Chip.advance c t).hank), ((Chip.advance c t).pcie, (Chip.advance c t).hostTx, (Chip.advance c t).queues, (Chip.advance c t).evc)) = q0 := by
  unfold Chip.advance
  try dsimp only
  repeat' first
    | with_reducible assumption
    | with_reducible apply foldl_pump
    | with_reducible apply foldlM_pump
    | intro _
    | split
    | (dsimp only [Safety.quiet, Rst.record, id])
    | exact hgq

theorem Chip.updNeedle_pump (c : Chip) (n : Nat) (f : Needle → Needle) (hgq : ((c.cast, c.markers, c.hank), (c.pcie, c.hostTx, c.queues, c.evc)) = q0) :
    (((Chip.updNeedle c n f).cast, (Chip.updNeedle c n f).markers, (Chip.updNeedle c n f).hank), ((Chip.updNeedle c n f).pcie, (Chip.updNeedle c n f).hostTx, (Chip.updNeedle c n f).queues, (Chip.updNeedle c n f).evc)) = q0 := by
  unfold Chip.updNeedle
  try dsimp only
  repeat' first
    | with_reducible assumption
    | with_reducible apply foldl_pump
    | with_reducible apply foldlM_pump
    | intro _
    | split
    | (dsimp only [Safety.quiet, Rst.record, id])
    | exact hgq

theorem Chip.updPanel_pump (c : Chip) (p : Nat) (f : Panel → Panel) (hgq : ((c.cast, c.markers, c.hank), (c.pcie, c.hostTx, c.queues, c.evc)) = q0) :
    (((Chip.updPanel c p f).cast, (Chip.updPanel c p f).markers, (Chip.updPanel c p f).hank), ((Chip.updPanel c p f).pcie, (Chip.updPanel c p f).hostTx, (Chip.updPanel c p f).queues, (Chip.updPanel c p f).evc)) = q0 := by
  unfold Chip.updPanel
  try dsimp only
  repeat' first
    | with_reducible assumption
    | with_reducible apply foldl_pump
    | with_reducible apply foldlM_pump
    | intro _
    | split
    | (dsimp only [Safety.quiet, Rst.record, id])
    | exact hgq

/-! Panels -/

theorem Chip.charge_pump (c : Chip) (panel res bytes : Nat) (guar : Bool) (own : Option (Nat × Nat)) (hgq : ((c.cast, c.markers, c.hank), (c.pcie, c.hostTx, c.queues, c.evc)) = q0) :
    (((Chip.charge c panel res bytes guar own).cast, (Chip.charge c panel res bytes guar own).markers, (Chip.charge c panel res bytes guar own).hank), ((Chip.charge c panel res bytes guar own).pcie, (Chip.charge c panel res bytes guar own).hostTx, (Chip.charge c panel res bytes guar own).queues, (Chip.charge c panel res bytes guar own).evc)) = q0 := by
  unfold Chip.charge
  try dsimp only
  repeat' first
    | with_reducible assumption
    | with_reducible apply foldl_pump
    | with_reducible apply foldlM_pump
    | intro _
    | with_reducible apply Chip.updPanel_pump
    | split
    | (dsimp only [Safety.quiet, Rst.record, id])
    | exact hgq

theorem Chip.dmaBegins_pump (c : Chip) (own : Nat × Nat) (hgq : ((c.cast, c.markers, c.hank), (c.pcie, c.hostTx, c.queues, c.evc)) = q0) :
    (((Chip.dmaBegins c own).cast, (Chip.dmaBegins c own).markers, (Chip.dmaBegins c own).hank), ((Chip.dmaBegins c own).pcie, (Chip.dmaBegins c own).hostTx, (Chip.dmaBegins c own).queues, (Chip.dmaBegins c own).evc)) = q0 := by
  unfold Chip.dmaBegins
  try dsimp only
  repeat' first
    | with_reducible assumption
    | with_reducible apply foldl_pump
    | with_reducible apply foldlM_pump
    | intro _
    | with_reducible apply Chip.updNeedle_pump
    | split
    | (dsimp only [Safety.quiet, Rst.record, id])
    | exact hgq

theorem Chip.admitChunk_pump (c : Chip) (panel res : Nat) (guar : Bool) (hgq : ((c.cast, c.markers, c.hank), (c.pcie, c.hostTx, c.queues, c.evc)) = q0) :
    (((Chip.admitChunk c panel res guar).cast, (Chip.admitChunk c panel res guar).markers, (Chip.admitChunk c panel res guar).hank), ((Chip.admitChunk c panel res guar).pcie, (Chip.admitChunk c panel res guar).hostTx, (Chip.admitChunk c panel res guar).queues, (Chip.admitChunk c panel res guar).evc)) = q0 := by
  unfold Chip.admitChunk
  try dsimp only
  repeat' first
    | with_reducible assumption
    | with_reducible apply foldl_pump
    | with_reducible apply foldlM_pump
    | intro _
    | with_reducible apply Chip.updPanel_pump
    | with_reducible apply Chip.dmaBegins_pump
    | split
    | (dsimp only [Safety.quiet, Rst.record, id])
    | exact hgq

theorem Chip.hbmWrote_pump (c : Chip) (r : Range) (hgq : ((c.cast, c.markers, c.hank), (c.pcie, c.hostTx, c.queues, c.evc)) = q0) :
    (((Chip.hbmWrote c r).cast, (Chip.hbmWrote c r).markers, (Chip.hbmWrote c r).hank), ((Chip.hbmWrote c r).pcie, (Chip.hbmWrote c r).hostTx, (Chip.hbmWrote c r).queues, (Chip.hbmWrote c r).evc)) = q0 := by
  unfold Chip.hbmWrote
  try dsimp only
  repeat' first
    | with_reducible assumption
    | with_reducible apply foldl_pump
    | with_reducible apply foldlM_pump
    | intro _
    | split
    | (dsimp only [Safety.quiet, Rst.record, id])
    | exact hgq

theorem Chip.wrote_pump (c : Chip) (rs : List Range) (hgq : ((c.cast, c.markers, c.hank), (c.pcie, c.hostTx, c.queues, c.evc)) = q0) :
    (((Chip.wrote c rs).cast, (Chip.wrote c rs).markers, (Chip.wrote c rs).hank), ((Chip.wrote c rs).pcie, (Chip.wrote c rs).hostTx, (Chip.wrote c rs).queues, (Chip.wrote c rs).evc)) = q0 := by
  unfold Chip.wrote
  try dsimp only
  repeat' first
    | with_reducible assumption
    | with_reducible apply foldl_pump
    | with_reducible apply foldlM_pump
    | intro _
    | with_reducible apply Chip.hbmWrote_pump
    | split
    | (dsimp only [Safety.quiet, Rst.record, id])
    | exact hgq

theorem Chip.hbmRead_pump (c : Chip) (r : Range) (hgq : ((c.cast, c.markers, c.hank), (c.pcie, c.hostTx, c.queues, c.evc)) = q0) :
    (((Chip.hbmRead c r).cast, (Chip.hbmRead c r).markers, (Chip.hbmRead c r).hank), ((Chip.hbmRead c r).pcie, (Chip.hbmRead c r).hostTx, (Chip.hbmRead c r).queues, (Chip.hbmRead c r).evc)) = q0 := by
  unfold Chip.hbmRead
  try dsimp only
  repeat' first
    | with_reducible assumption
    | with_reducible apply foldl_pump
    | with_reducible apply foldlM_pump
    | intro _
    | split
    | (dsimp only [Safety.quiet, Rst.record, id])
    | exact hgq

theorem Chip.sharedLine_pump (c : Chip) (p x : Nat) (hgq : ((c.cast, c.markers, c.hank), (c.pcie, c.hostTx, c.queues, c.evc)) = q0) :
    (((Chip.sharedLine c p x).cast, (Chip.sharedLine c p x).markers, (Chip.sharedLine c p x).hank), ((Chip.sharedLine c p x).pcie, (Chip.sharedLine c p x).hostTx, (Chip.sharedLine c p x).queues, (Chip.sharedLine c p x).evc)) = q0 := by
  unfold Chip.sharedLine
  try dsimp only
  repeat' first
    | with_reducible assumption
    | with_reducible apply foldl_pump
    | with_reducible apply foldlM_pump
    | intro _
    | split
    | (dsimp only [Safety.quiet, Rst.record, id])
    | exact hgq

theorem Chip.startFill_pump (c : Chip) (f : Fill) (hgq : ((c.cast, c.markers, c.hank), (c.pcie, c.hostTx, c.queues, c.evc)) = q0) :
    (((Chip.startFill c f).cast, (Chip.startFill c f).markers, (Chip.startFill c f).hank), ((Chip.startFill c f).pcie, (Chip.startFill c f).hostTx, (Chip.startFill c f).queues, (Chip.startFill c f).evc)) = q0 := by
  unfold Chip.startFill
  try dsimp only
  repeat' first
    | with_reducible assumption
    | with_reducible apply foldl_pump
    | with_reducible apply foldlM_pump
    | intro _
    | with_reducible apply Chip.charge_pump
    | split
    | (dsimp only [Safety.quiet, Rst.record, id])
    | exact hgq

theorem Chip.miss_pump (c : Chip) (panel b : Nat) (r : Range) (guar : Bool) (remote : Option Nat) (own : Option (Nat × Nat)) (hgq : ((c.cast, c.markers, c.hank), (c.pcie, c.hostTx, c.queues, c.evc)) = q0) :
    (((Chip.miss c panel b r guar remote own).cast, (Chip.miss c panel b r guar remote own).markers, (Chip.miss c panel b r guar remote own).hank), ((Chip.miss c panel b r guar remote own).pcie, (Chip.miss c panel b r guar remote own).hostTx, (Chip.miss c panel b r guar remote own).queues, (Chip.miss c panel b r guar remote own).evc)) = q0 := by
  unfold Chip.miss
  try dsimp only
  repeat' first
    | with_reducible assumption
    | with_reducible apply foldl_pump
    | with_reducible apply foldlM_pump
    | intro _
    | with_reducible apply Chip.charge_pump
    | with_reducible apply Chip.hbmRead_pump
    | with_reducible apply Chip.startFill_pump
    | split
    | (dsimp only [Safety.quiet, Rst.record, id])
    | exact hgq

theorem Chip.readBlock_pump (c : Chip) (panel : Nat) (r : Range) (guar : Bool) (remote : Option Nat) (own : Option (Nat × Nat)) (hgq : ((c.cast, c.markers, c.hank), (c.pcie, c.hostTx, c.queues, c.evc)) = q0) :
    (((Chip.readBlock c panel r guar remote own).cast, (Chip.readBlock c panel r guar remote own).markers, (Chip.readBlock c panel r guar remote own).hank), ((Chip.readBlock c panel r guar remote own).pcie, (Chip.readBlock c panel r guar remote own).hostTx, (Chip.readBlock c panel r guar remote own).queues, (Chip.readBlock c panel r guar remote own).evc)) = q0 := by
  unfold Chip.readBlock
  try dsimp only
  repeat' first
    | with_reducible assumption
    | with_reducible apply foldl_pump
    | with_reducible apply foldlM_pump
    | intro _
    | with_reducible apply Chip.charge_pump
    | with_reducible apply Chip.miss_pump
    | split
    | (dsimp only [Safety.quiet, Rst.record, id])
    | exact hgq

theorem Chip.hbmBlockRead_pump (c : Chip) (panel : Nat) (r : Range) (guar : Bool) (own : Option (Nat × Nat)) (hgq : ((c.cast, c.markers, c.hank), (c.pcie, c.hostTx, c.queues, c.evc)) = q0) :
    (((Chip.hbmBlockRead c panel r guar own).cast, (Chip.hbmBlockRead c panel r guar own).markers, (Chip.hbmBlockRead c panel r guar own).hank), ((Chip.hbmBlockRead c panel r guar own).pcie, (Chip.hbmBlockRead c panel r guar own).hostTx, (Chip.hbmBlockRead c panel r guar own).queues, (Chip.hbmBlockRead c panel r guar own).evc)) = q0 := by
  unfold Chip.hbmBlockRead
  try dsimp only
  repeat' first
    | with_reducible assumption
    | with_reducible apply foldl_pump
    | with_reducible apply foldlM_pump
    | intro _
    | with_reducible apply Chip.charge_pump
    | with_reducible apply Chip.hbmRead_pump
    | with_reducible apply Chip.sharedLine_pump
    | with_reducible apply Chip.readBlock_pump
    | split
    | (dsimp only [Safety.quiet, Rst.record, id])
    | exact hgq

theorem Chip.needleRead_pump (c : Chip) (panel : Nat) (r : Range) (guar : Bool) (own : Option (Nat × Nat)) (hgq : ((c.cast, c.markers, c.hank), (c.pcie, c.hostTx, c.queues, c.evc)) = q0) :
    (((Chip.needleRead c panel r guar own).cast, (Chip.needleRead c panel r guar own).markers, (Chip.needleRead c panel r guar own).hank), ((Chip.needleRead c panel r guar own).pcie, (Chip.needleRead c panel r guar own).hostTx, (Chip.needleRead c panel r guar own).queues, (Chip.needleRead c panel r guar own).evc)) = q0 := by
  unfold Chip.needleRead
  try dsimp only
  repeat' first
    | with_reducible assumption
    | with_reducible apply foldl_pump
    | with_reducible apply foldlM_pump
    | intro _
    | with_reducible apply Chip.charge_pump
    | with_reducible apply Chip.hbmBlockRead_pump
    | split
    | (dsimp only [Safety.quiet, Rst.record, id])
    | exact hgq

theorem Chip.panelWrite_pump (c : Chip) (panel : Nat) (r : Range) (guar : Bool) (own : Option (Nat × Nat)) (hgq : ((c.cast, c.markers, c.hank), (c.pcie, c.hostTx, c.queues, c.evc)) = q0) :
    (((Chip.panelWrite c panel r guar own).cast, (Chip.panelWrite c panel r guar own).markers, (Chip.panelWrite c panel r guar own).hank), ((Chip.panelWrite c panel r guar own).pcie, (Chip.panelWrite c panel r guar own).hostTx, (Chip.panelWrite c panel r guar own).queues, (Chip.panelWrite c panel r guar own).evc)) = q0 := by
  unfold Chip.panelWrite
  try dsimp only
  repeat' first
    | with_reducible assumption
    | with_reducible apply foldl_pump
    | with_reducible apply foldlM_pump
    | intro _
    | with_reducible apply Chip.charge_pump
    | with_reducible apply Chip.hbmWrote_pump
    | split
    | (dsimp only [Safety.quiet, Rst.record, id])
    | exact hgq

theorem Chip.loadRemote_pump (c : Chip) (i : Nat) (hgq : ((c.cast, c.markers, c.hank), (c.pcie, c.hostTx, c.queues, c.evc)) = q0) :
    (((Chip.loadRemote c i).cast, (Chip.loadRemote c i).markers, (Chip.loadRemote c i).hank), ((Chip.loadRemote c i).pcie, (Chip.loadRemote c i).hostTx, (Chip.loadRemote c i).queues, (Chip.loadRemote c i).evc)) = q0 := by
  unfold Chip.loadRemote
  try dsimp only
  repeat' first
    | with_reducible assumption
    | with_reducible apply foldl_pump
    | with_reducible apply foldlM_pump
    | intro _
    | with_reducible apply Chip.startFill_pump
    | split
    | (dsimp only [Safety.quiet, Rst.record, id])
    | exact hgq

theorem Chip.loadResident_pump (c : Chip) (hgq : ((c.cast, c.markers, c.hank), (c.pcie, c.hostTx, c.queues, c.evc)) = q0) :
    (((Chip.loadResident c).cast, (Chip.loadResident c).markers, (Chip.loadResident c).hank), ((Chip.loadResident c).pcie, (Chip.loadResident c).hostTx, (Chip.loadResident c).queues, (Chip.loadResident c).evc)) = q0 := by
  unfold Chip.loadResident
  try dsimp only
  repeat' first
    | with_reducible assumption
    | with_reducible apply foldl_pump
    | with_reducible apply foldlM_pump
    | intro _
    | with_reducible apply Chip.loadRemote_pump
    | split
    | (dsimp only [Safety.quiet, Rst.record, id])
    | exact hgq

theorem Chip.retryResident_pump (c : Chip) (hgq : ((c.cast, c.markers, c.hank), (c.pcie, c.hostTx, c.queues, c.evc)) = q0) :
    (((Chip.retryResident c).cast, (Chip.retryResident c).markers, (Chip.retryResident c).hank), ((Chip.retryResident c).pcie, (Chip.retryResident c).hostTx, (Chip.retryResident c).queues, (Chip.retryResident c).evc)) = q0 := by
  unfold Chip.retryResident
  try dsimp only
  repeat' first
    | with_reducible assumption
    | with_reducible apply foldl_pump
    | with_reducible apply foldlM_pump
    | intro _
    | with_reducible apply Chip.loadRemote_pump
    | split
    | (dsimp only [Safety.quiet, Rst.record, id])
    | exact hgq

/-! Needle -/

theorem Chip.dmaTraffic_pump (c : Chip) (n : Nat) (guar : Bool) (ds : List Dma) (hgq : ((c.cast, c.markers, c.hank), (c.pcie, c.hostTx, c.queues, c.evc)) = q0) :
    (((Chip.dmaTraffic c n guar ds).cast, (Chip.dmaTraffic c n guar ds).markers, (Chip.dmaTraffic c n guar ds).hank), ((Chip.dmaTraffic c n guar ds).pcie, (Chip.dmaTraffic c n guar ds).hostTx, (Chip.dmaTraffic c n guar ds).queues, (Chip.dmaTraffic c n guar ds).evc)) = q0 := by
  unfold Chip.dmaTraffic
  try dsimp only
  repeat' first
    | with_reducible assumption
    | with_reducible apply foldl_pump
    | with_reducible apply foldlM_pump
    | intro _
    | with_reducible apply Chip.charge_pump
    | with_reducible apply Chip.needleRead_pump
    | split
    | (dsimp only [Safety.quiet, Rst.record, id])
    | exact hgq

theorem Chip.issueHead_pump (c : Chip) (m : Mem) (n : Nat) (w : TodWait) (hgq : ((c.cast, c.markers, c.hank), (c.pcie, c.hostTx, c.queues, c.evc)) = q0) :
    ∀ d, Chip.issueHead c m n w = some d → ((d.cast, d.markers, d.hank), (d.pcie, d.hostTx, d.queues, d.evc)) = q0 := by
  intro d hd
  unfold Chip.issueHead at hd
  try dsimp only at hd
  repeat' first
    | with_reducible assumption
    | (split at hd)
    | (simp only [Option.some.injEq, reduceCtorEq] at hd; subst hd; try dsimp only)
    | with_reducible apply foldl_pump
    | with_reducible apply foldlM_pump
    | intro _
    | with_reducible apply Chip.updNeedle_pump
    | with_reducible apply Chip.dmaTraffic_pump
    | split
    | (dsimp only [Safety.quiet, Rst.record, id])
    | (exact absurd hd (by simp))
    | exact hgq

theorem Chip.passHead_pump (c : Chip) (n : Nat) (hgq : ((c.cast, c.markers, c.hank), (c.pcie, c.hostTx, c.queues, c.evc)) = q0) :
    ∀ d, c.passHead n = some d → ((d.cast, d.markers, d.hank), (d.pcie, d.hostTx, d.queues, d.evc)) = q0 := by
  intro d hd
  obtain ⟨w, -, rfl⟩ := Option.map_eq_some_iff.1 hd
  exact Chip.updNeedle_pump _ _ _ hgq

theorem Chip.startSwap_pump (c : Chip) (n ctx : Nat) (k : Swap) (hgq : ((c.cast, c.markers, c.hank), (c.pcie, c.hostTx, c.queues, c.evc)) = q0) :
    (((Chip.startSwap c n ctx k).cast, (Chip.startSwap c n ctx k).markers, (Chip.startSwap c n ctx k).hank), ((Chip.startSwap c n ctx k).pcie, (Chip.startSwap c n ctx k).hostTx, (Chip.startSwap c n ctx k).queues, (Chip.startSwap c n ctx k).evc)) = q0 := by
  unfold Chip.startSwap
  try dsimp only
  repeat' first
    | with_reducible assumption
    | with_reducible apply foldl_pump
    | with_reducible apply foldlM_pump
    | intro _
    | with_reducible apply Chip.updNeedle_pump
    | with_reducible apply Chip.updPanel_pump
    | with_reducible apply Chip.readBlock_pump
    | split
    | (dsimp only [Safety.quiet, Rst.record, id])
    | exact hgq

theorem Chip.dispatch_pump (c : Chip) (m : Mem) (n : Nat) (hgq : ((c.cast, c.markers, c.hank), (c.pcie, c.hostTx, c.queues, c.evc)) = q0) :
    ∀ d, c.dispatch m n = some d → ((d.cast, d.markers, d.hank), (d.pcie, d.hostTx, d.queues, d.evc)) = q0 := by
  intro d hd
  unfold Chip.dispatch at hd
  dsimp only at hd
  repeat' first
    | (cases hd; done)
    | (obtain ⟨w, -, hw⟩ := Option.bind_eq_some_iff.1 hd; exact Chip.issueHead_pump _ _ _ _ hgq _ hw)
    | (injection hd with hd; subst hd; first | exact Chip.updNeedle_pump _ _ _ hgq | exact Chip.startSwap_pump _ _ _ _ hgq)
    | split at hd

theorem Chip.pumpOne_pump (c : Chip) (m : Mem) (n : Nat) (hgq : ((c.cast, c.markers, c.hank), (c.pcie, c.hostTx, c.queues, c.evc)) = q0) :
    ∀ d, c.pumpOne m n = some d → ((d.cast, d.markers, d.hank), (d.pcie, d.hostTx, d.queues, d.evc)) = q0 := by
  intro d hd
  unfold Chip.pumpOne at hd
  split at hd
  · injection hd with hd
    subst hd
    exact Chip.passHead_pump _ _ hgq _ (by assumption)
  · exact Chip.dispatch_pump _ _ _ hgq _ hd

theorem Chip.pumpN_pump (m : Mem) (n k : Nat) (c : Chip) (hgq : ((c.cast, c.markers, c.hank), (c.pcie, c.hostTx, c.queues, c.evc)) = q0) :
    (((Chip.pumpN m n k c).cast, (Chip.pumpN m n k c).markers, (Chip.pumpN m n k c).hank), ((Chip.pumpN m n k c).pcie, (Chip.pumpN m n k c).hostTx, (Chip.pumpN m n k c).queues, (Chip.pumpN m n k c).evc)) = q0 := by
  induction k generalizing c with
  | zero => exact hgq
  | succ k ih =>
    unfold Chip.pumpN
    split
    · exact hgq
    · exact ih _ (Chip.pumpOne_pump _ _ _ hgq _ (by assumption))

theorem Chip.noteWaits_pump (c : Chip) (n : Nat) (hgq : ((c.cast, c.markers, c.hank), (c.pcie, c.hostTx, c.queues, c.evc)) = q0) :
    (((Chip.noteWaits c n).cast, (Chip.noteWaits c n).markers, (Chip.noteWaits c n).hank), ((Chip.noteWaits c n).pcie, (Chip.noteWaits c n).hostTx, (Chip.noteWaits c n).queues, (Chip.noteWaits c n).evc)) = q0 := by
  unfold Chip.noteWaits
  try dsimp only
  repeat' first
    | with_reducible assumption
    | with_reducible apply foldl_pump
    | with_reducible apply foldlM_pump
    | intro _
    | with_reducible apply Chip.updNeedle_pump
    | split
    | (dsimp only [Safety.quiet, Rst.record, id])
    | exact hgq

theorem Chip.pump_pump (c : Chip) (m : Mem) (n : Nat) (hgq : ((c.cast, c.markers, c.hank), (c.pcie, c.hostTx, c.queues, c.evc)) = q0) :
    (((Chip.pump c m n).cast, (Chip.pump c m n).markers, (Chip.pump c m n).hank), ((Chip.pump c m n).pcie, (Chip.pump c m n).hostTx, (Chip.pump c m n).queues, (Chip.pump c m n).evc)) = q0 := by
  unfold Chip.pump
  try dsimp only
  repeat' first
    | with_reducible assumption
    | with_reducible apply foldl_pump
    | with_reducible apply foldlM_pump
    | intro _
    | with_reducible apply Chip.pumpN_pump
    | with_reducible apply Chip.noteWaits_pump
    | split
    | (dsimp only [Safety.quiet, Rst.record, id])
    | exact hgq

theorem Chip.pumpAll_pump (c : Chip) (m : Mem) (hgq : ((c.cast, c.markers, c.hank), (c.pcie, c.hostTx, c.queues, c.evc)) = q0) :
    (((Chip.pumpAll c m).cast, (Chip.pumpAll c m).markers, (Chip.pumpAll c m).hank), ((Chip.pumpAll c m).pcie, (Chip.pumpAll c m).hostTx, (Chip.pumpAll c m).queues, (Chip.pumpAll c m).evc)) = q0 := by
  unfold Chip.pumpAll
  try dsimp only
  repeat' first
    | with_reducible assumption
    | with_reducible apply foldl_pump
    | with_reducible apply foldlM_pump
    | intro _
    | with_reducible apply Chip.pump_pump
    | split
    | (dsimp only [Safety.quiet, Rst.record, id])
    | exact hgq

theorem Chip.takeTod_pump (c : Chip) (m : Mem) (op n seq : Nat) (tod : List Byte) (hgq : ((c.cast, c.markers, c.hank), (c.pcie, c.hostTx, c.queues, c.evc)) = q0) :
    (((Chip.takeTod c m op n seq tod).cast, (Chip.takeTod c m op n seq tod).markers, (Chip.takeTod c m op n seq tod).hank), ((Chip.takeTod c m op n seq tod).pcie, (Chip.takeTod c m op n seq tod).hostTx, (Chip.takeTod c m op n seq tod).queues, (Chip.takeTod c m op n seq tod).evc)) = q0 := by
  unfold Chip.takeTod
  try dsimp only
  repeat' first
    | with_reducible assumption
    | with_reducible apply foldl_pump
    | with_reducible apply foldlM_pump
    | intro _
    | with_reducible apply Chip.updNeedle_pump
    | with_reducible apply Chip.pump_pump
    | split
    | (dsimp only [Safety.quiet, Rst.record, id])
    | exact hgq

theorem abortOps_pump (n : Nat) (keep : OpRt → Bool) (c : Chip × Mem) (hgq : ((c.1.cast, c.1.markers, c.1.hank), (c.1.pcie, c.1.hostTx, c.1.queues, c.1.evc)) = q0) :
    (((abortOps n keep c).1.cast, (abortOps n keep c).1.markers, (abortOps n keep c).1.hank), ((abortOps n keep c).1.pcie, (abortOps n keep c).1.hostTx, (abortOps n keep c).1.queues, (abortOps n keep c).1.evc)) = q0 := by
  unfold abortOps
  try dsimp only
  repeat' first
    | with_reducible assumption
    | with_reducible apply foldl_pump
    | with_reducible apply foldlM_pump
    | intro _
    | with_reducible apply Chip.updNeedle_pump
    | with_reducible apply Chip.wrote_pump
    | split
    | (dsimp only [Safety.quiet, Rst.record, id])
    | exact hgq

theorem frogEntries_pump (n : Nat) (ctxs : List Nat) (c : Chip × Mem) (hgq : ((c.1.cast, c.1.markers, c.1.hank), (c.1.pcie, c.1.hostTx, c.1.queues, c.1.evc)) = q0) :
    (((frogEntries n ctxs c).1.cast, (frogEntries n ctxs c).1.markers, (frogEntries n ctxs c).1.hank), ((frogEntries n ctxs c).1.pcie, (frogEntries n ctxs c).1.hostTx, (frogEntries n ctxs c).1.queues, (frogEntries n ctxs c).1.evc)) = q0 := by
  unfold frogEntries
  try dsimp only
  repeat' first
    | with_reducible assumption
    | with_reducible apply foldl_pump
    | with_reducible apply foldlM_pump
    | intro _
    | with_reducible apply Chip.updNeedle_pump
    | split
    | (dsimp only [Safety.quiet, Rst.record, id])
    | exact hgq

theorem Chip.dropChunks_pump (c : Chip) (n : Nat) (gone : Nat → Bool) (hgq : ((c.cast, c.markers, c.hank), (c.pcie, c.hostTx, c.queues, c.evc)) = q0) :
    (((Chip.dropChunks c n gone).cast, (Chip.dropChunks c n gone).markers, (Chip.dropChunks c n gone).hank), ((Chip.dropChunks c n gone).pcie, (Chip.dropChunks c n gone).hostTx, (Chip.dropChunks c n gone).queues, (Chip.dropChunks c n gone).evc)) = q0 := by
  unfold Chip.dropChunks
  try dsimp only
  repeat' first
    | with_reducible assumption
    | with_reducible apply foldl_pump
    | with_reducible apply foldlM_pump
    | intro _
    | split
    | (dsimp only [Safety.quiet, Rst.record, id])
    | exact hgq

theorem frogNeedle_pump (n : Nat) (ctxs : List Nat) (c : Chip × Mem) (hgq : ((c.1.cast, c.1.markers, c.1.hank), (c.1.pcie, c.1.hostTx, c.1.queues, c.1.evc)) = q0) :
    (((frogNeedle n ctxs c).1.cast, (frogNeedle n ctxs c).1.markers, (frogNeedle n ctxs c).1.hank), ((frogNeedle n ctxs c).1.pcie, (frogNeedle n ctxs c).1.hostTx, (frogNeedle n ctxs c).1.queues, (frogNeedle n ctxs c).1.evc)) = q0 := by
  unfold frogNeedle
  try dsimp only
  repeat' first
    | with_reducible assumption
    | with_reducible apply foldl_pump
    | with_reducible apply foldlM_pump
    | intro _
    | with_reducible apply Chip.updNeedle_pump
    | with_reducible apply abortOps_pump
    | with_reducible apply frogEntries_pump
    | with_reducible apply Chip.dropChunks_pump
    | split
    | (dsimp only [Safety.quiet, Rst.record, id])
    | exact hgq

theorem frogNeedles_pump (ctxs : List Nat) (c : Chip × Mem) (hgq : ((c.1.cast, c.1.markers, c.1.hank), (c.1.pcie, c.1.hostTx, c.1.queues, c.1.evc)) = q0) :
    (((frogNeedles ctxs c).1.cast, (frogNeedles ctxs c).1.markers, (frogNeedles ctxs c).1.hank), ((frogNeedles ctxs c).1.pcie, (frogNeedles ctxs c).1.hostTx, (frogNeedles ctxs c).1.queues, (frogNeedles ctxs c).1.evc)) = q0 := by
  unfold frogNeedles
  try dsimp only
  repeat' first
    | with_reducible assumption
    | with_reducible apply foldl_pump
    | with_reducible apply foldlM_pump
    | intro _
    | with_reducible apply frogNeedle_pump
    | split
    | (dsimp only [Safety.quiet, Rst.record, id])
    | exact hgq

theorem Chip.meetRates_pump (c : Chip) (hgq : ((c.cast, c.markers, c.hank), (c.pcie, c.hostTx, c.queues, c.evc)) = q0) :
    (((Chip.meetRates c).cast, (Chip.meetRates c).markers, (Chip.meetRates c).hank), ((Chip.meetRates c).pcie, (Chip.meetRates c).hostTx, (Chip.meetRates c).queues, (Chip.meetRates c).evc)) = q0 := by
  unfold Chip.meetRates
  try dsimp only
  repeat' first
    | with_reducible assumption
    | with_reducible apply foldl_pump
    | with_reducible apply foldlM_pump
    | intro _
    | split
    | (dsimp only [Safety.quiet, Rst.record, id])
    | exact hgq

/-! Cast -/

theorem Chip.addAllowance_pump (c : Chip) (p : Placed) (hgq : ((c.cast, c.markers, c.hank), (c.pcie, c.hostTx, c.queues, c.evc)) = q0) :
    (((Chip.addAllowance c p).cast, (Chip.addAllowance c p).markers, (Chip.addAllowance c p).hank), ((Chip.addAllowance c p).pcie, (Chip.addAllowance c p).hostTx, (Chip.addAllowance c p).queues, (Chip.addAllowance c p).evc)) = q0 := by
  unfold Chip.addAllowance
  try dsimp only
  repeat' first
    | with_reducible assumption
    | with_reducible apply foldl_pump
    | with_reducible apply foldlM_pump
    | intro _
    | with_reducible apply Chip.updPanel_pump
    | split
    | (dsimp only [Safety.quiet, Rst.record, id])
    | exact hgq

theorem Chip.dropAllowance_pump (c : Chip) (p : Placed) (hgq : ((c.cast, c.markers, c.hank), (c.pcie, c.hostTx, c.queues, c.evc)) = q0) :
    (((Chip.dropAllowance c p).cast, (Chip.dropAllowance c p).markers, (Chip.dropAllowance c p).hank), ((Chip.dropAllowance c p).pcie, (Chip.dropAllowance c p).hostTx, (Chip.dropAllowance c p).queues, (Chip.dropAllowance c p).evc)) = q0 := by
  unfold Chip.dropAllowance
  try dsimp only
  repeat' first
    | with_reducible assumption
    | with_reducible apply foldl_pump
    | with_reducible apply foldlM_pump
    | intro _
    | with_reducible apply Chip.updPanel_pump
    | split
    | (dsimp only [Safety.quiet, Rst.record, id])
    | exact hgq

/-! Reserve -/

theorem Chip.sendAnswer_pump (c : Chip) (lead g reason : Nat) (hgq : ((c.cast, c.markers, c.hank), (c.pcie, c.hostTx, c.queues, c.evc)) = q0) :
    (((Chip.sendAnswer c lead g reason).cast, (Chip.sendAnswer c lead g reason).markers, (Chip.sendAnswer c lead g reason).hank), ((Chip.sendAnswer c lead g reason).pcie, (Chip.sendAnswer c lead g reason).hostTx, (Chip.sendAnswer c lead g reason).queues, (Chip.sendAnswer c lead g reason).evc)) = q0 := by
  unfold Chip.sendAnswer
  try dsimp only
  repeat' first
    | with_reducible assumption
    | with_reducible apply foldl_pump
    | with_reducible apply foldlM_pump
    | intro _
    | split
    | (dsimp only [Safety.quiet, Rst.record, id])
    | exact hgq

/-! Stream -/

theorem Chip.uncode_pump (c : Chip) (t : Ticket) (hgq : ((c.cast, c.markers, c.hank), (c.pcie, c.hostTx, c.queues, c.evc)) = q0) :
    (((Chip.uncode c t).cast, (Chip.uncode c t).markers, (Chip.uncode c t).hank), ((Chip.uncode c t).pcie, (Chip.uncode c t).hostTx, (Chip.uncode c t).queues, (Chip.uncode c t).evc)) = q0 := by
  unfold Chip.uncode
  try dsimp only
  repeat' first
    | with_reducible assumption
    | with_reducible apply foldl_pump
    | with_reducible apply foldlM_pump
    | intro _
    | split
    | (dsimp only [Safety.quiet, Rst.record, id])
    | exact hgq

/-! Venc -/

theorem Chip.dropLanes_pump (c : Chip) (j : Job) (hgq : ((c.cast, c.markers, c.hank), (c.pcie, c.hostTx, c.queues, c.evc)) = q0) :
    (((Chip.dropLanes c j).cast, (Chip.dropLanes c j).markers, (Chip.dropLanes c j).hank), ((Chip.dropLanes c j).pcie, (Chip.dropLanes c j).hostTx, (Chip.dropLanes c j).queues, (Chip.dropLanes c j).evc)) = q0 := by
  unfold Chip.dropLanes
  try dsimp only
  repeat' first
    | with_reducible assumption
    | with_reducible apply foldl_pump
    | with_reducible apply foldlM_pump
    | intro _
    | split
    | (dsimp only [Safety.quiet, Rst.record, id])
    | exact hgq

theorem Chip.encTraffic_pump (c : Chip) (core : Nat) (t : Ticket) (sd : StreamDef) (j : Job) (hgq : ((c.cast, c.markers, c.hank), (c.pcie, c.hostTx, c.queues, c.evc)) = q0) :
    (((Chip.encTraffic c core t sd j).cast, (Chip.encTraffic c core t sd j).markers, (Chip.encTraffic c core t sd j).hank), ((Chip.encTraffic c core t sd j).pcie, (Chip.encTraffic c core t sd j).hostTx, (Chip.encTraffic c core t sd j).queues, (Chip.encTraffic c core t sd j).evc)) = q0 := by
  unfold Chip.encTraffic
  try dsimp only
  repeat' first
    | with_reducible assumption
    | with_reducible apply foldl_pump
    | with_reducible apply foldlM_pump
    | intro _
    | with_reducible apply Chip.charge_pump
    | split
    | (dsimp only [Safety.quiet, Rst.record, id])
    | exact hgq

theorem Chip.encodeFree_pump (c : Chip) (core : Nat) (j : Job) (hgq : ((c.cast, c.markers, c.hank), (c.pcie, c.hostTx, c.queues, c.evc)) = q0) :
    (((Chip.encodeFree c core j).cast, (Chip.encodeFree c core j).markers, (Chip.encodeFree c core j).hank), ((Chip.encodeFree c core j).pcie, (Chip.encodeFree c core j).hostTx, (Chip.encodeFree c core j).queues, (Chip.encodeFree c core j).evc)) = q0 := by
  unfold Chip.encodeFree
  try dsimp only
  repeat' first
    | with_reducible assumption
    | with_reducible apply foldl_pump
    | with_reducible apply foldlM_pump
    | intro _
    | split
    | (dsimp only [Safety.quiet, Rst.record, id])
    | exact hgq

/-! Vdec -/

theorem Chip.startDec_pump (c : Chip) (core : Nat) (j : Job) (hgq : ((c.cast, c.markers, c.hank), (c.pcie, c.hostTx, c.queues, c.evc)) = q0) :
    (((Chip.startDec c core j).cast, (Chip.startDec c core j).markers, (Chip.startDec c core j).hank), ((Chip.startDec c core j).pcie, (Chip.startDec c core j).hostTx, (Chip.startDec c core j).queues, (Chip.startDec c core j).evc)) = q0 := by
  unfold Chip.startDec
  try dsimp only
  repeat' first
    | with_reducible assumption
    | with_reducible apply foldl_pump
    | with_reducible apply foldlM_pump
    | intro _
    | split
    | (dsimp only [Safety.quiet, Rst.record, id])
    | exact hgq

theorem Chip.fillDec_pump (c : Chip) (core : Nat) (hgq : ((c.cast, c.markers, c.hank), (c.pcie, c.hostTx, c.queues, c.evc)) = q0) :
    (((Chip.fillDec c core).cast, (Chip.fillDec c core).markers, (Chip.fillDec c core).hank), ((Chip.fillDec c core).pcie, (Chip.fillDec c core).hostTx, (Chip.fillDec c core).queues, (Chip.fillDec c core).evc)) = q0 := by
  unfold Chip.fillDec
  try dsimp only
  repeat' first
    | with_reducible assumption
    | with_reducible apply foldl_pump
    | with_reducible apply foldlM_pump
    | intro _
    | with_reducible apply Chip.startDec_pump
    | split
    | (dsimp only [Safety.quiet, Rst.record, id])
    | exact hgq

theorem Chip.fillPanel_pump (c : Chip) (p : Nat) (hgq : ((c.cast, c.markers, c.hank), (c.pcie, c.hostTx, c.queues, c.evc)) = q0) :
    (((Chip.fillPanel c p).cast, (Chip.fillPanel c p).markers, (Chip.fillPanel c p).hank), ((Chip.fillPanel c p).pcie, (Chip.fillPanel c p).hostTx, (Chip.fillPanel c p).queues, (Chip.fillPanel c p).evc)) = q0 := by
  unfold Chip.fillPanel
  try dsimp only
  repeat' first
    | with_reducible assumption
    | with_reducible apply foldl_pump
    | with_reducible apply foldlM_pump
    | intro _
    | with_reducible apply Chip.fillDec_pump
    | split
    | (dsimp only [Safety.quiet, Rst.record, id])
    | exact hgq

theorem Chip.decSegment_pump (c : Chip) (core : Nat) (hgq : ((c.cast, c.markers, c.hank), (c.pcie, c.hostTx, c.queues, c.evc)) = q0) :
    (((Chip.decSegment c core).cast, (Chip.decSegment c core).markers, (Chip.decSegment c core).hank), ((Chip.decSegment c core).pcie, (Chip.decSegment c core).hostTx, (Chip.decSegment c core).queues, (Chip.decSegment c core).evc)) = q0 := by
  unfold Chip.decSegment
  try dsimp only
  repeat' first
    | with_reducible assumption
    | with_reducible apply foldl_pump
    | with_reducible apply foldlM_pump
    | intro _
    | with_reducible apply Chip.startDec_pump
    | with_reducible apply Chip.fillDec_pump
    | split
    | (dsimp only [Safety.quiet, Rst.record, id])
    | exact hgq

theorem Chip.decodeSample_pump (c : Chip) (t : Ticket) (s : Sample) (hgq : ((c.cast, c.markers, c.hank), (c.pcie, c.hostTx, c.queues, c.evc)) = q0) :
    (((Chip.decodeSample c t s).cast, (Chip.decodeSample c t s).markers, (Chip.decodeSample c t s).hank), ((Chip.decodeSample c t s).pcie, (Chip.decodeSample c t s).hostTx, (Chip.decodeSample c t s).queues, (Chip.decodeSample c t s).evc)) = q0 := by
  unfold Chip.decodeSample
  try dsimp only
  repeat' first
    | with_reducible assumption
    | with_reducible apply foldl_pump
    | with_reducible apply foldlM_pump
    | intro _
    | with_reducible apply Chip.fillPanel_pump
    | split
    | (dsimp only [Safety.quiet, Rst.record, id])
    | exact hgq

theorem writeFields_pump (t : Ticket) (sd : StreamDef) (p : Placed) (f : FrameRt) (r : Decoded) (c : Chip × Mem) (hgq : ((c.1.cast, c.1.markers, c.1.hank), (c.1.pcie, c.1.hostTx, c.1.queues, c.1.evc)) = q0) :
    (((writeFields t sd p f r c).1.cast, (writeFields t sd p f r c).1.markers, (writeFields t sd p f r c).1.hank), ((writeFields t sd p f r c).1.pcie, (writeFields t sd p f r c).1.hostTx, (writeFields t sd p f r c).1.queues, (writeFields t sd p f r c).1.evc)) = q0 := by
  unfold writeFields
  try dsimp only
  repeat' first
    | with_reducible assumption
    | with_reducible apply foldl_pump
    | with_reducible apply foldlM_pump
    | intro _
    | with_reducible apply Chip.panelWrite_pump
    | split
    | (dsimp only [Safety.quiet, Rst.record, id])
    | exact hgq

theorem Chip.decodeFree_pump (c : Chip) (core : Nat) (j : Job) (hgq : ((c.cast, c.markers, c.hank), (c.pcie, c.hostTx, c.queues, c.evc)) = q0) :
    (((Chip.decodeFree c core j).cast, (Chip.decodeFree c core j).markers, (Chip.decodeFree c core j).hank), ((Chip.decodeFree c core j).pcie, (Chip.decodeFree c core j).hostTx, (Chip.decodeFree c core j).queues, (Chip.decodeFree c core j).evc)) = q0 := by
  unfold Chip.decodeFree
  try dsimp only
  repeat' first
    | with_reducible assumption
    | with_reducible apply foldl_pump
    | with_reducible apply foldlM_pump
    | intro _
    | with_reducible apply Chip.fillDec_pump
    | split
    | (dsimp only [Safety.quiet, Rst.record, id])
    | exact hgq

theorem Chip.decTraffic_pump (c : Chip) (core : Nat) (j : Job) (hgq : ((c.cast, c.markers, c.hank), (c.pcie, c.hostTx, c.queues, c.evc)) = q0) :
    (((Chip.decTraffic c core j).cast, (Chip.decTraffic c core j).markers, (Chip.decTraffic c core j).hank), ((Chip.decTraffic c core j).pcie, (Chip.decTraffic c core j).hostTx, (Chip.decTraffic c core j).queues, (Chip.decTraffic c core j).evc)) = q0 := by
  unfold Chip.decTraffic
  try dsimp only
  repeat' first
    | with_reducible assumption
    | with_reducible apply foldl_pump
    | with_reducible apply foldlM_pump
    | intro _
    | with_reducible apply Chip.charge_pump
    | split
    | (dsimp only [Safety.quiet, Rst.record, id])
    | exact hgq

/-! Frog -/

theorem Chip.dropJobs_pump (c : Chip) (ticket : Nat) (hgq : ((c.cast, c.markers, c.hank), (c.pcie, c.hostTx, c.queues, c.evc)) = q0) :
    (((Chip.dropJobs c ticket).cast, (Chip.dropJobs c ticket).markers, (Chip.dropJobs c ticket).hank), ((Chip.dropJobs c ticket).pcie, (Chip.dropJobs c ticket).hostTx, (Chip.dropJobs c ticket).queues, (Chip.dropJobs c ticket).evc)) = q0 := by
  unfold Chip.dropJobs
  try dsimp only
  repeat' first
    | with_reducible assumption
    | with_reducible apply foldl_pump
    | with_reducible apply foldlM_pump
    | intro _
    | split
    | (dsimp only [Safety.quiet, Rst.record, id])
    | exact hgq

theorem Chip.forgetContexts_pump (c : Chip) (ctxs : List Nat) (hgq : ((c.cast, c.markers, c.hank), (c.pcie, c.hostTx, c.queues, c.evc)) = q0) :
    (((Chip.forgetContexts c ctxs).cast, (Chip.forgetContexts c ctxs).markers, (Chip.forgetContexts c ctxs).hank), ((Chip.forgetContexts c ctxs).pcie, (Chip.forgetContexts c ctxs).hostTx, (Chip.forgetContexts c ctxs).queues, (Chip.forgetContexts c ctxs).evc)) = q0 := by
  unfold Chip.forgetContexts
  try dsimp only
  repeat' first
    | with_reducible assumption
    | with_reducible apply foldl_pump
    | with_reducible apply foldlM_pump
    | intro _
    | split
    | (dsimp only [Safety.quiet, Rst.record, id])
    | exact hgq

theorem Chip.tellAll_pump (c : Chip) (ms : List Nat) (code ticket garment : Nat) (b : List Byte) (hgq : ((c.cast, c.markers, c.hank), (c.pcie, c.hostTx, c.queues, c.evc)) = q0) :
    (((Chip.tellAll c ms code ticket garment b).cast, (Chip.tellAll c ms code ticket garment b).markers, (Chip.tellAll c ms code ticket garment b).hank), ((Chip.tellAll c ms code ticket garment b).pcie, (Chip.tellAll c ms code ticket garment b).hostTx, (Chip.tellAll c ms code ticket garment b).queues, (Chip.tellAll c ms code ticket garment b).evc)) = q0 := by
  unfold Chip.tellAll
  try dsimp only
  repeat' first
    | with_reducible assumption
    | with_reducible apply foldl_pump
    | with_reducible apply foldlM_pump
    | intro _
    | split
    | (dsimp only [Safety.quiet, Rst.record, id])
    | exact hgq

theorem Chip.tellBindOff_pump (c : Chip) (t : Ticket) (drain : Bool) (hgq : ((c.cast, c.markers, c.hank), (c.pcie, c.hostTx, c.queues, c.evc)) = q0) :
    (((Chip.tellBindOff c t drain).cast, (Chip.tellBindOff c t drain).markers, (Chip.tellBindOff c t drain).hank), ((Chip.tellBindOff c t drain).pcie, (Chip.tellBindOff c t drain).hostTx, (Chip.tellBindOff c t drain).queues, (Chip.tellBindOff c t drain).evc)) = q0 := by
  unfold Chip.tellBindOff
  try dsimp only
  repeat' first
    | with_reducible assumption
    | with_reducible apply foldl_pump
    | with_reducible apply foldlM_pump
    | intro _
    | with_reducible apply Chip.tellAll_pump
    | split
    | (dsimp only [Safety.quiet, Rst.record, id])
    | exact hgq

/-! Rolivo -/

theorem Chip.sendFrame_pump (c : Chip) (p : Port) (w : Waiting) (f : RFrame) (turns : Nat × Nat) (hgq : ((c.cast, c.markers, c.hank), (c.pcie, c.hostTx, c.queues, c.evc)) = q0) :
    (((Chip.sendFrame c p w f turns).cast, (Chip.sendFrame c p w f turns).markers, (Chip.sendFrame c p w f turns).hank), ((Chip.sendFrame c p w f turns).pcie, (Chip.sendFrame c p w f turns).hostTx, (Chip.sendFrame c p w f turns).queues, (Chip.sendFrame c p w f turns).evc)) = q0 := by
  unfold Chip.sendFrame
  try dsimp only
  repeat' first
    | with_reducible assumption
    | with_reducible apply foldl_pump
    | with_reducible apply foldlM_pump
    | intro _
    | split
    | (dsimp only [Safety.quiet, Rst.record, id])
    | exact hgq

theorem Chip.repaired_pump (c : Chip) (kind : Nat) (p : Port) (hgq : ((c.cast, c.markers, c.hank), (c.pcie, c.hostTx, c.queues, c.evc)) = q0) :
    (((Chip.repaired c kind p).cast, (Chip.repaired c kind p).markers, (Chip.repaired c kind p).hank), ((Chip.repaired c kind p).pcie, (Chip.repaired c kind p).hostTx, (Chip.repaired c kind p).queues, (Chip.repaired c kind p).evc)) = q0 := by
  unfold Chip.repaired
  try dsimp only
  repeat' first
    | with_reducible assumption
    | with_reducible apply foldl_pump
    | with_reducible apply foldlM_pump
    | intro _
    | split
    | (dsimp only [Safety.quiet, Rst.record, id])
    | exact hgq

theorem Chip.linkFault_pump (c : Chip) (p : Port) (hgq : ((c.cast, c.markers, c.hank), (c.pcie, c.hostTx, c.queues, c.evc)) = q0) :
    (((Chip.linkFault c p).cast, (Chip.linkFault c p).markers, (Chip.linkFault c p).hank), ((Chip.linkFault c p).pcie, (Chip.linkFault c p).hostTx, (Chip.linkFault c p).queues, (Chip.linkFault c p).evc)) = q0 := by
  unfold Chip.linkFault
  try dsimp only
  repeat' first
    | with_reducible assumption
    | with_reducible apply foldl_pump
    | with_reducible apply foldlM_pump
    | intro _
    | with_reducible apply Chip.advance_pump
    | split
    | (dsimp only [Safety.quiet, Rst.record, id])
    | exact hgq

/-! Pattern -/

theorem Chip.loadCharts_pump (c : Chip) (hgq : ((c.cast, c.markers, c.hank), (c.pcie, c.hostTx, c.queues, c.evc)) = q0) :
    (((Chip.loadCharts c).cast, (Chip.loadCharts c).markers, (Chip.loadCharts c).hank), ((Chip.loadCharts c).pcie, (Chip.loadCharts c).hostTx, (Chip.loadCharts c).queues, (Chip.loadCharts c).evc)) = q0 := by
  unfold Chip.loadCharts
  try dsimp only
  repeat' first
    | with_reducible assumption
    | with_reducible apply foldl_pump
    | with_reducible apply foldlM_pump
    | intro _
    | with_reducible apply Chip.loadRemote_pump
    | split
    | (dsimp only [Safety.quiet, Rst.record, id])
    | exact hgq

/-! Recovery -/

theorem resetNeedle_pump (n : Nat) (c : Chip × Mem) (hgq : ((c.1.cast, c.1.markers, c.1.hank), (c.1.pcie, c.1.hostTx, c.1.queues, c.1.evc)) = q0) :
    (((resetNeedle n c).1.cast, (resetNeedle n c).1.markers, (resetNeedle n c).1.hank), ((resetNeedle n c).1.pcie, (resetNeedle n c).1.hostTx, (resetNeedle n c).1.queues, (resetNeedle n c).1.evc)) = q0 := by
  unfold resetNeedle
  try dsimp only
  repeat' first
    | with_reducible assumption
    | with_reducible apply foldl_pump
    | with_reducible apply foldlM_pump
    | intro _
    | with_reducible apply Chip.updNeedle_pump
    | with_reducible apply abortOps_pump
    | with_reducible apply Chip.dropChunks_pump
    | split
    | (dsimp only [Safety.quiet, Rst.record, id])
    | exact hgq

theorem resetDma_pump (n : Nat) (c : Chip × Mem) (hgq : ((c.1.cast, c.1.markers, c.1.hank), (c.1.pcie, c.1.hostTx, c.1.queues, c.1.evc)) = q0) :
    (((resetDma n c).1.cast, (resetDma n c).1.markers, (resetDma n c).1.hank), ((resetDma n c).1.pcie, (resetDma n c).1.hostTx, (resetDma n c).1.queues, (resetDma n c).1.evc)) = q0 := by
  unfold resetDma
  try dsimp only
  repeat' first
    | with_reducible assumption
    | with_reducible apply foldl_pump
    | with_reducible apply foldlM_pump
    | intro _
    | with_reducible apply Chip.updNeedle_pump
    | with_reducible apply abortOps_pump
    | with_reducible apply Chip.dropChunks_pump
    | split
    | (dsimp only [Safety.quiet, Rst.record, id])
    | exact hgq

theorem Chip.resetDec_pump (c : Chip) (k : Nat) (hgq : ((c.cast, c.markers, c.hank), (c.pcie, c.hostTx, c.queues, c.evc)) = q0) :
    (((Chip.resetDec c k).cast, (Chip.resetDec c k).markers, (Chip.resetDec c k).hank), ((Chip.resetDec c k).pcie, (Chip.resetDec c k).hostTx, (Chip.resetDec c k).queues, (Chip.resetDec c k).evc)) = q0 := by
  unfold Chip.resetDec
  try dsimp only
  repeat' first
    | with_reducible assumption
    | with_reducible apply foldl_pump
    | with_reducible apply foldlM_pump
    | intro _
    | with_reducible apply Chip.dropLanes_pump
    | split
    | (dsimp only [Safety.quiet, Rst.record, id])
    | exact hgq

theorem Chip.resetEnc_pump (c : Chip) (k : Nat) (hgq : ((c.cast, c.markers, c.hank), (c.pcie, c.hostTx, c.queues, c.evc)) = q0) :
    (((Chip.resetEnc c k).cast, (Chip.resetEnc c k).markers, (Chip.resetEnc c k).hank), ((Chip.resetEnc c k).pcie, (Chip.resetEnc c k).hostTx, (Chip.resetEnc c k).queues, (Chip.resetEnc c k).evc)) = q0 := by
  unfold Chip.resetEnc
  try dsimp only
  repeat' first
    | with_reducible assumption
    | with_reducible apply foldl_pump
    | with_reducible apply foldlM_pump
    | intro _
    | with_reducible apply Chip.dropLanes_pump
    | split
    | (dsimp only [Safety.quiet, Rst.record, id])
    | exact hgq

theorem resetMarub_pump (c : Chip × Mem) (hgq : ((c.1.cast, c.1.markers, c.1.hank), (c.1.pcie, c.1.hostTx, c.1.queues, c.1.evc)) = q0) :
    (((resetMarub c).1.cast, (resetMarub c).1.markers, (resetMarub c).1.hank), ((resetMarub c).1.pcie, (resetMarub c).1.hostTx, (resetMarub c).1.queues, (resetMarub c).1.evc)) = q0 := by
  unfold resetMarub
  try dsimp only
  repeat' first
    | with_reducible assumption
    | with_reducible apply foldl_pump
    | with_reducible apply foldlM_pump
    | intro _
    | with_reducible apply abortOps_pump
    | split
    | (dsimp only [Safety.quiet, Rst.record, id])
    | exact hgq

theorem Chip.restartTimers_pump (c : Chip) (e : Nat) (hgq : ((c.cast, c.markers, c.hank), (c.pcie, c.hostTx, c.queues, c.evc)) = q0) :
    (((Chip.restartTimers c e).cast, (Chip.restartTimers c e).markers, (Chip.restartTimers c e).hank), ((Chip.restartTimers c e).pcie, (Chip.restartTimers c e).hostTx, (Chip.restartTimers c e).queues, (Chip.restartTimers c e).evc)) = q0 := by
  unfold Chip.restartTimers
  try dsimp only
  repeat' first
    | with_reducible assumption
    | with_reducible apply foldl_pump
    | with_reducible apply foldlM_pump
    | intro _
    | split
    | (dsimp only [Safety.quiet, Rst.record, id])
    | exact hgq

theorem Chip.restock_pump (c : Chip) (e : Nat) (js : List Job) (hgq : ((c.cast, c.markers, c.hank), (c.pcie, c.hostTx, c.queues, c.evc)) = q0) :
    (((Chip.restock c e js).cast, (Chip.restock c e js).markers, (Chip.restock c e js).hank), ((Chip.restock c e js).pcie, (Chip.restock c e js).hostTx, (Chip.restock c e js).queues, (Chip.restock c e js).evc)) = q0 := by
  unfold Chip.restock
  try dsimp only
  repeat' first
    | with_reducible assumption
    | with_reducible apply foldl_pump
    | with_reducible apply foldlM_pump
    | intro _
    | split
    | (dsimp only [Safety.quiet, Rst.record, id])
    | exact hgq

theorem Chip.toTrip_pump (c : Chip) (e ctx : Nat) (hgq : ((c.cast, c.markers, c.hank), (c.pcie, c.hostTx, c.queues, c.evc)) = q0) :
    (((Chip.toTrip c e ctx).cast, (Chip.toTrip c e ctx).markers, (Chip.toTrip c e ctx).hank), ((Chip.toTrip c e ctx).pcie, (Chip.toTrip c e ctx).hostTx, (Chip.toTrip c e ctx).queues, (Chip.toTrip c e ctx).evc)) = q0 := by
  unfold Chip.toTrip
  try dsimp only
  repeat' first
    | with_reducible assumption
    | with_reducible apply foldl_pump
    | with_reducible apply foldlM_pump
    | intro _
    | with_reducible apply Chip.advance_pump
    | split
    | (dsimp only [Safety.quiet, Rst.record, id])
    | exact hgq

/-! Rows -/

theorem Chip.alarmSummary_pump (c : Chip) (supp : Tbl Nat) (hgq : ((c.cast, c.markers, c.hank), (c.pcie, c.hostTx, c.queues, c.evc)) = q0) :
    (((Chip.alarmSummary c supp).cast, (Chip.alarmSummary c supp).markers, (Chip.alarmSummary c supp).hank), ((Chip.alarmSummary c supp).pcie, (Chip.alarmSummary c supp).hostTx, (Chip.alarmSummary c supp).queues, (Chip.alarmSummary c supp).evc)) = q0 := by
  unfold Chip.alarmSummary
  try dsimp only
  repeat' first
    | with_reducible assumption
    | with_reducible apply foldl_pump
    | with_reducible apply foldlM_pump
    | intro _
    | with_reducible apply Chip.tellAll_pump
    | split
    | (dsimp only [Safety.quiet, Rst.record, id])
    | exact hgq

/-! Round -/

theorem Chip.ackFrame_pump (c : Chip) (f : RFrame) (code v : Nat) (hgq : ((c.cast, c.markers, c.hank), (c.pcie, c.hostTx, c.queues, c.evc)) = q0) :
    (((Chip.ackFrame c f code v).cast, (Chip.ackFrame c f code v).markers, (Chip.ackFrame c f code v).hank), ((Chip.ackFrame c f code v).pcie, (Chip.ackFrame c f code v).hostTx, (Chip.ackFrame c f code v).queues, (Chip.ackFrame c f code v).evc)) = q0 := by
  unfold Chip.ackFrame
  try dsimp only
  repeat' first
    | with_reducible assumption
    | with_reducible apply foldl_pump
    | with_reducible apply foldlM_pump
    | intro _
    | split
    | (dsimp only [Safety.quiet, Rst.record, id])
    | exact hgq

theorem received_pump (p : Port) (f : RFrame) (g : Chip × Mem → Chip × Mem) (c : Chip × Mem) (hg : ∀ d, ((d.1.cast, d.1.markers, d.1.hank), (d.1.pcie, d.1.hostTx, d.1.queues, d.1.evc)) = q0 → (((g d).1.cast, (g d).1.markers, (g d).1.hank), ((g d).1.pcie, (g d).1.hostTx, (g d).1.queues, (g d).1.evc)) = q0) (hgq : ((c.1.cast, c.1.markers, c.1.hank), (c.1.pcie, c.1.hostTx, c.1.queues, c.1.evc)) = q0) :
    (((received p f g c).1.cast, (received p f g c).1.markers, (received p f g c).1.hank), ((received p f g c).1.pcie, (received p f g c).1.hostTx, (received p f g c).1.queues, (received p f g c).1.evc)) = q0 := by
  unfold received
  try dsimp only
  repeat' first
    | with_reducible assumption
    | with_reducible apply foldl_pump
    | with_reducible apply foldlM_pump
    | intro _
    | with_reducible apply hg
    | split
    | (dsimp only [Safety.quiet, Rst.record, id])
    | exact hgq

theorem typed_pump (type : Nat) (p : Port) (f : RFrame) (g : Chip × Mem → Chip × Mem) (c : Chip × Mem) (hg : ∀ d, ((d.1.cast, d.1.markers, d.1.hank), (d.1.pcie, d.1.hostTx, d.1.queues, d.1.evc)) = q0 → (((g d).1.cast, (g d).1.markers, (g d).1.hank), ((g d).1.pcie, (g d).1.hostTx, (g d).1.queues, (g d).1.evc)) = q0) (hgq : ((c.1.cast, c.1.markers, c.1.hank), (c.1.pcie, c.1.hostTx, c.1.queues, c.1.evc)) = q0) :
    (((typed type p f g c).1.cast, (typed type p f g c).1.markers, (typed type p f g c).1.hank), ((typed type p f g c).1.pcie, (typed type p f g c).1.hostTx, (typed type p f g c).1.queues, (typed type p f g c).1.evc)) = q0 := by
  unfold typed
  try dsimp only
  repeat' first
    | with_reducible assumption
    | with_reducible apply foldl_pump
    | with_reducible apply foldlM_pump
    | intro _
    | with_reducible apply received_pump
    | with_reducible apply hg
    | split
    | (dsimp only [Safety.quiet, Rst.record, id])
    | exact hgq

theorem Chip.runDiscovery_pump (c : Chip) (hgq : ((c.cast, c.markers, c.hank), (c.pcie, c.hostTx, c.queues, c.evc)) = q0) :
    (((Chip.runDiscovery c).cast, (Chip.runDiscovery c).markers, (Chip.runDiscovery c).hank), ((Chip.runDiscovery c).pcie, (Chip.runDiscovery c).hostTx, (Chip.runDiscovery c).queues, (Chip.runDiscovery c).evc)) = q0 := by
  unfold Chip.runDiscovery
  try dsimp only
  repeat' first
    | with_reducible assumption
    | with_reducible apply foldl_pump
    | with_reducible apply foldlM_pump
    | intro _
    | split
    | (dsimp only [Safety.quiet, Rst.record, id])
    | exact hgq

theorem Chip.updEseq_pump (c : Chip) (k : Nat) (g : Eseq → Eseq) (hgq : ((c.cast, c.markers, c.hank), (c.pcie, c.hostTx, c.queues, c.evc)) = q0) :
    (((Chip.updEseq c k g).cast, (Chip.updEseq c k g).markers, (Chip.updEseq c k g).hank), ((Chip.updEseq c k g).pcie, (Chip.updEseq c k g).hostTx, (Chip.updEseq c k g).queues, (Chip.updEseq c k g).evc)) = q0 := by
  unfold Chip.updEseq
  try dsimp only
  repeat' first
    | with_reducible assumption
    | with_reducible apply foldl_pump
    | with_reducible apply foldlM_pump
    | intro _
    | split
    | (dsimp only [Safety.quiet, Rst.record, id])
    | exact hgq

theorem control_pump (code : Nat) (p : Port) (f : RFrame) (g : Chip × Mem → Chip × Mem) (c : Chip × Mem) (hg : ∀ d, ((d.1.cast, d.1.markers, d.1.hank), (d.1.pcie, d.1.hostTx, d.1.queues, d.1.evc)) = q0 → (((g d).1.cast, (g d).1.markers, (g d).1.hank), ((g d).1.pcie, (g d).1.hostTx, (g d).1.queues, (g d).1.evc)) = q0) (hgq : ((c.1.cast, c.1.markers, c.1.hank), (c.1.pcie, c.1.hostTx, c.1.queues, c.1.evc)) = q0) :
    (((control code p f g c).1.cast, (control code p f g c).1.markers, (control code p f g c).1.hank), ((control code p f g c).1.pcie, (control code p f g c).1.hostTx, (control code p f g c).1.queues, (control code p f g c).1.evc)) = q0 := by
  unfold control
  try dsimp only
  repeat' first
    | with_reducible assumption
    | with_reducible apply foldl_pump
    | with_reducible apply foldlM_pump
    | intro _
    | with_reducible apply typed_pump
    | with_reducible apply hg
    | split
    | (dsimp only [Safety.quiet, Rst.record, id])
    | exact hgq

theorem Chip.msgAckIn_pump (c : Chip) (f : RFrame) (hgq : ((c.cast, c.markers, c.hank), (c.pcie, c.hostTx, c.queues, c.evc)) = q0) :
    (((Chip.msgAckIn c f).cast, (Chip.msgAckIn c f).markers, (Chip.msgAckIn c f).hank), ((Chip.msgAckIn c f).pcie, (Chip.msgAckIn c f).hostTx, (Chip.msgAckIn c f).queues, (Chip.msgAckIn c f).evc)) = q0 := by
  unfold Chip.msgAckIn
  try dsimp only
  repeat' first
    | with_reducible assumption
    | with_reducible apply foldl_pump
    | with_reducible apply foldlM_pump
    | intro _
    | with_reducible apply Chip.updEseq_pump
    | split
    | (dsimp only [Safety.quiet, Rst.record, id])
    | exact hgq

theorem Chip.resendXfer_pump (c : Chip) (x : XferOut) (hgq : ((c.cast, c.markers, c.hank), (c.pcie, c.hostTx, c.queues, c.evc)) = q0) :
    (((Chip.resendXfer c x).cast, (Chip.resendXfer c x).markers, (Chip.resendXfer c x).hank), ((Chip.resendXfer c x).pcie, (Chip.resendXfer c x).hostTx, (Chip.resendXfer c x).queues, (Chip.resendXfer c x).evc)) = q0 := by
  unfold Chip.resendXfer
  try dsimp only
  repeat' first
    | with_reducible assumption
    | with_reducible apply foldl_pump
    | with_reducible apply foldlM_pump
    | intro _
    | split
    | (dsimp only [Safety.quiet, Rst.record, id])
    | exact hgq

/-! Start -/

theorem Chip.perstHigh_pump (c : Chip) (hgq : ((c.cast, c.markers, c.hank), (c.pcie, c.hostTx, c.queues, c.evc)) = q0) :
    (((Chip.perstHigh c).cast, (Chip.perstHigh c).markers, (Chip.perstHigh c).hank), ((Chip.perstHigh c).pcie, (Chip.perstHigh c).hostTx, (Chip.perstHigh c).queues, (Chip.perstHigh c).evc)) = q0 := by
  unfold Chip.perstHigh
  try dsimp only
  repeat' first
    | with_reducible assumption
    | with_reducible apply foldl_pump
    | with_reducible apply foldlM_pump
    | intro _
    | split
    | (dsimp only [Safety.quiet, Rst.record, id])
    | exact hgq

theorem Chip.powerRise_pump (c : Chip) (hgq : ((c.cast, c.markers, c.hank), (c.pcie, c.hostTx, c.queues, c.evc)) = q0) :
    (((Chip.powerRise c).cast, (Chip.powerRise c).markers, (Chip.powerRise c).hank), ((Chip.powerRise c).pcie, (Chip.powerRise c).hostTx, (Chip.powerRise c).queues, (Chip.powerRise c).evc)) = q0 := by
  unfold Chip.powerRise
  try dsimp only
  repeat' first
    | with_reducible assumption
    | with_reducible apply foldl_pump
    | with_reducible apply foldlM_pump
    | intro _
    | split
    | (dsimp only [Safety.quiet, Rst.record, id])
    | exact hgq

/-! Regs -/

theorem Chip.rungRequest_pump (c : Chip) (v : Nat) (hgq : ((c.cast, c.markers, c.hank), (c.pcie, c.hostTx, c.queues, c.evc)) = q0) :
    (((Chip.rungRequest c v).cast, (Chip.rungRequest c v).markers, (Chip.rungRequest c v).hank), ((Chip.rungRequest c v).pcie, (Chip.rungRequest c v).hostTx, (Chip.rungRequest c v).queues, (Chip.rungRequest c v).evc)) = q0 := by
  unfold Chip.rungRequest
  try dsimp only
  repeat' first
    | with_reducible assumption
    | with_reducible apply foldl_pump
    | with_reducible apply foldlM_pump
    | intro _
    | split
    | (dsimp only [Safety.quiet, Rst.record, id])
    | exact hgq

/-! Smbus -/

theorem Chip.smbAnswer_pump (c : Chip) (a : SmbAnswer) (hgq : ((c.cast, c.markers, c.hank), (c.pcie, c.hostTx, c.queues, c.evc)) = q0) :
    (((Chip.smbAnswer c a).cast, (Chip.smbAnswer c a).markers, (Chip.smbAnswer c a).hank), ((Chip.smbAnswer c a).pcie, (Chip.smbAnswer c a).hostTx, (Chip.smbAnswer c a).queues, (Chip.smbAnswer c a).evc)) = q0 := by
  unfold Chip.smbAnswer
  try dsimp only
  repeat' first
    | with_reducible assumption
    | with_reducible apply foldl_pump
    | with_reducible apply foldlM_pump
    | intro _
    | split
    | (dsimp only [Safety.quiet, Rst.record, id])
    | exact hgq

theorem Chip.alertResponse_pump (c : Chip) (won : Bool) (hgq : ((c.cast, c.markers, c.hank), (c.pcie, c.hostTx, c.queues, c.evc)) = q0) :
    (((Chip.alertResponse c won).cast, (Chip.alertResponse c won).markers, (Chip.alertResponse c won).hank), ((Chip.alertResponse c won).pcie, (Chip.alertResponse c won).hostTx, (Chip.alertResponse c won).queues, (Chip.alertResponse c won).evc)) = q0 := by
  unfold Chip.alertResponse
  try dsimp only
  repeat' first
    | with_reducible assumption
    | with_reducible apply foldl_pump
    | with_reducible apply foldlM_pump
    | intro _
    | split
    | (dsimp only [Safety.quiet, Rst.record, id])
    | exact hgq

theorem Chip.setEid_pump (c : Chip) (eid : Nat) (hgq : ((c.cast, c.markers, c.hank), (c.pcie, c.hostTx, c.queues, c.evc)) = q0) :
    (((Chip.setEid c eid).cast, (Chip.setEid c eid).markers, (Chip.setEid c eid).hank), ((Chip.setEid c eid).pcie, (Chip.setEid c eid).hostTx, (Chip.setEid c eid).queues, (Chip.setEid c eid).evc)) = q0 := by
  unfold Chip.setEid
  try dsimp only
  repeat' first
    | with_reducible assumption
    | with_reducible apply foldl_pump
    | with_reducible apply foldlM_pump
    | intro _
    | split
    | (dsimp only [Safety.quiet, Rst.record, id])
    | exact hgq

theorem Chip.readReg_pump (c : Chip) (off : Nat) (hgq : ((c.cast, c.markers, c.hank), (c.pcie, c.hostTx, c.queues, c.evc)) = q0) :
    (((Chip.readReg c off).cast, (Chip.readReg c off).markers, (Chip.readReg c off).hank), ((Chip.readReg c off).pcie, (Chip.readReg c off).hostTx, (Chip.readReg c off).queues, (Chip.readReg c off).evc)) = q0 := by
  unfold Chip.readReg
  try dsimp only
  repeat' first
    | with_reducible assumption
    | with_reducible apply foldl_pump
    | with_reducible apply foldlM_pump
    | intro _
    | with_reducible apply Chip.smbAnswer_pump
    | split
    | (dsimp only [Safety.quiet, Rst.record, id])
    | exact hgq

theorem Chip.readLog_pump (c : Chip) (seq count : Nat) (hgq : ((c.cast, c.markers, c.hank), (c.pcie, c.hostTx, c.queues, c.evc)) = q0) :
    (((Chip.readLog c seq count).cast, (Chip.readLog c seq count).markers, (Chip.readLog c seq count).hank), ((Chip.readLog c seq count).pcie, (Chip.readLog c seq count).hostTx, (Chip.readLog c seq count).queues, (Chip.readLog c seq count).evc)) = q0 := by
  unfold Chip.readLog
  try dsimp only
  repeat' first
    | with_reducible assumption
    | with_reducible apply foldl_pump
    | with_reducible apply foldlM_pump
    | intro _
    | with_reducible apply Chip.smbAnswer_pump
    | split
    | (dsimp only [Safety.quiet, Rst.record, id])
    | exact hgq

end Sys2Proof.Machine
end

