-- ==== Sys2Proof/Laws/Tables.lean ====
section
/-!
SUPPORT. Laws of the sparse tables: an entry reads as it was set, setting one leaves the others alone, and so for queues, needles,
panels and functions, which stand in tables.
-/
namespace Sys2Proof.Machine

/-- An entry reads as it was set. -/
@[simp] theorem Tbl.get_set_same {α : Type} (d : α) (t : Tbl α) (k : Nat) (v : α) : Tbl.get d (Tbl.set t k v) k = v := by
  induction t with
  | nil => simp [Tbl.set, Tbl.get]
  | cons e t ih =>
    obtain ⟨i, w⟩ := e
    unfold Tbl.set
    split
    · simp [Tbl.get]
    · split
      · simp [Tbl.get]
      · rename_i h1 h2
        simp only [Tbl.get, if_neg h1, if_neg h2]
        exact ih

/-- Setting an entry leaves every other one as it was. -/
theorem Tbl.get_set_other {α : Type} (d : α) (t : Tbl α) {k j : Nat} (v : α) (h : j ≠ k) : Tbl.get d (Tbl.set t k v) j = Tbl.get d t j := by
  induction t with
  | nil => simp [Tbl.set, Tbl.get, Ne.symm h]
  | cons e t ih =>
    obtain ⟨i, w⟩ := e
    unfold Tbl.set
    split
    · rename_i h1
      subst h1
      simp [Tbl.get, Ne.symm h]
    · split
      · rename_i h1 h2
        conv => lhs; unfold Tbl.get
        rw [if_neg (Ne.symm h)]
        split
        · have hji : j < i := by omega
          simp [Tbl.get, if_neg (show ¬ i = j by omega), if_pos hji]
        · rfl
      · rename_i h1 h2
        simp only [Tbl.get]
        rw [ih]

/-- An entry changed reads changed. -/
@[simp] theorem Tbl.get_upd_same {α : Type} (d : α) (t : Tbl α) (k : Nat) (f : α → α) : Tbl.get d (Tbl.upd d t k f) k = f (Tbl.get d t k) :=
  Tbl.get_set_same d t k _

/-- Changing an entry leaves every other one as it was. -/
theorem Tbl.get_upd_other {α : Type} (d : α) (t : Tbl α) {k j : Nat} (f : α → α) (h : j ≠ k) : Tbl.get d (Tbl.upd d t k f) j = Tbl.get d t j :=
  Tbl.get_set_other d t _ h

/-- A queue changed. -/
@[simp] theorem Chip.queue_updQueue_same (c : Chip) (g : Nat) (f : Queue → Queue) : (c.updQueue g f).queue g = f (c.queue g) := Tbl.get_upd_same _ _ _ _
/-- Another queue. -/
theorem Chip.queue_updQueue_other (c : Chip) {g j : Nat} (f : Queue → Queue) (h : j ≠ g) : (c.updQueue g f).queue j = c.queue j := Tbl.get_upd_other _ _ _ h
/-- A needle changed. -/
@[simp] theorem Chip.needle_updNeedle_same (c : Chip) (n : Nat) (f : Needle → Needle) : (c.updNeedle n f).needle n = f (c.needle n) := Tbl.get_upd_same _ _ _ _
/-- Another needle. -/
theorem Chip.needle_updNeedle_other (c : Chip) {n j : Nat} (f : Needle → Needle) (h : j ≠ n) : (c.updNeedle n f).needle j = c.needle j := Tbl.get_upd_other _ _ _ h
/-- A panel changed. -/
@[simp] theorem Chip.panel_updPanel_same (c : Chip) (p : Nat) (f : Panel → Panel) : (c.updPanel p f).panel p = f (c.panel p) := Tbl.get_upd_same _ _ _ _
/-- Another panel. -/
theorem Chip.panel_updPanel_other (c : Chip) {p j : Nat} (f : Panel → Panel) (h : j ≠ p) : (c.updPanel p f).panel j = c.panel j := Tbl.get_upd_other _ _ _ h
/-- A function changed. -/
@[simp] theorem Pcie.fn_updFn_same (p : Pcie) (fn : Nat) (f : Fun → Fun) : (p.updFn fn f).fn fn = f (p.fn fn) := by
  unfold Pcie.updFn Pcie.fn
  exact Tbl.get_set_same _ _ _ _
/-- Another function. -/
theorem Pcie.fn_updFn_other (p : Pcie) {fn j : Nat} (f : Fun → Fun) (h : j ≠ fn) : (p.updFn fn f).fn j = p.fn j := by
  unfold Pcie.updFn Pcie.fn
  exact Tbl.get_set_other _ _ _ h

end Sys2Proof.Machine
end

