-- ==== Sys2Proof/Laws/Lasting.lean ====
section
/-!
SUPPORT. Every operation keeps the recovery image (R305) and leaves the reserved event sources unpending (R310).
-/
namespace Sys2Proof.Machine
/-- The recovery image is a given one, and no reserved source is pending (R305, R310). -/
def Lasting (q0 r : Slot) (e : Evc) : Prop := r = q0 ∧ ∀ k, reservedSource k = true → (e.src k).pending = false

theorem Lasting.of_srcs {q0 r : Slot} {e f : Evc} (h : Lasting q0 r e) (hs : f.srcs = e.srcs) : Lasting q0 r f :=
  ⟨h.1, fun k hk => by unfold Evc.src; rw [hs]; exact h.2 k hk⟩

theorem Lasting.none {q0 r : Slot} {e f : Evc} (h : Lasting q0 r e) (hs : f.srcs = []) : Lasting q0 r f :=
  ⟨h.1, fun k _ => by unfold Evc.src; rw [hs]; rfl⟩

theorem Lasting.upd {q0 r : Slot} {e f : Evc} (k : Nat) (g : Src → Src) (h : Lasting q0 r e)
    (hk : reservedSource k = false ∨ ∀ x, x.pending = false → (g x).pending = false) (hs : f.srcs = Tbl.upd {} e.srcs k g) : Lasting q0 r f := by
  refine ⟨h.1, fun j hj => ?_⟩
  unfold Evc.src
  rw [hs]
  by_cases hjk : j = k
  · subst hjk
    rw [Tbl.get_upd_same]
    exact hk.elim (fun h' => by rw [hj] at h'; cases h') (fun h' => h' _ (h.2 _ hj))
  · rw [Tbl.get_upd_other _ _ _ hjk]
    exact h.2 _ hj

theorem Evc.trySend_srcs (e : Evc) (p : Pcie) (now fn v : Nat) : (e.trySend p now fn v).srcs = e.srcs := by
  unfold Evc.trySend
  split <;> rfl

theorem Evc.deliver_srcs (e : Evc) (p : Pcie) (now s : Nat) : (e.deliver p now s).srcs = e.srcs := by
  unfold Evc.deliver Evc.request
  split
  · exact Evc.trySend_srcs _ _ _ _ _
  · rfl
  · rfl

theorem Lasting.trySend {q0 r : Slot} {e : Evc} {p : Pcie} {now fn v : Nat} (h : Lasting q0 r e) : Lasting q0 r (e.trySend p now fn v) :=
  h.of_srcs (Evc.trySend_srcs _ _ _ _ _)
theorem Lasting.updVec {q0 r : Slot} {e : Evc} {fn v : Nat} {f : Vec → Vec} (h : Lasting q0 r e) : Lasting q0 r (e.updVec fn v f) := h.of_srcs rfl
theorem Lasting.deliver {q0 r : Slot} {e : Evc} {p : Pcie} {now s : Nat} (h : Lasting q0 r e) : Lasting q0 r (e.deliver p now s) :=
  h.of_srcs (Evc.deliver_srcs _ _ _ _)
theorem Lasting.edge {q0 r : Slot} {e : Evc} {p : Pcie} {now s : Nat} (h : Lasting q0 r e) : Lasting q0 r (e.edge p now s) := by
  unfold Evc.edge
  split
  · exact h
  · rename_i hs
    split
    · exact h.upd s _ (.inl (by simpa using hs)) rfl
    · exact h.upd s Src.edge (.inl (by simpa using hs)) (Evc.deliver_srcs _ _ _ _)
theorem Lasting.calm {q0 r : Slot} {e : Evc} {s : Nat} (h : Lasting q0 r e) : Lasting q0 r (e.calm s) := h.upd s _ (.inr (fun _ _ => rfl)) rfl
theorem Lasting.ack {q0 r : Slot} {e : Evc} {p : Pcie} {now s n : Nat} (h : Lasting q0 r e) : Lasting q0 r (e.ack p now s n) := by
  unfold Evc.ack
  split
  · exact h.upd s _ (.inr (fun _ _ => rfl)) rfl
  · exact h.upd s (fun x => { x with count := x.count - n - 1 }) (.inr (fun _ hx => hx)) (Evc.deliver_srcs _ _ _ _)
  · exact h
theorem Lasting.flush {q0 r : Slot} {e : Evc} {p : Pcie} {now : Nat} {w : Nat → Bool} (h : Lasting q0 r e) : Lasting q0 r (e.flush p now w) := by
  unfold Evc.flush
  generalize List.map _ _ = l
  induction l generalizing e with
  | nil => exact h
  | cons x l ih =>
    rw [List.foldl_cons]
    apply ih
    split
    · exact h.trySend
    · exact h
theorem Lasting.latch {q0 r : Slot} {e : Evc} {row : Nat} (h : Lasting q0 r e) : Lasting q0 r (e.latch row) := h.of_srcs rfl
theorem Lasting.applyEvents {q0 r : Slot} {e : Evc} {d : EventsDef} (h : Lasting q0 r e) : Lasting q0 r (e.applyEvents d) := by
  suffices hl : ∀ (l : List (Nat × Nat × Nat)) (t : Tbl Src), (∀ k, reservedSource k = true → (Tbl.get {} t k : Src).pending = false) →
      ∀ k, reservedSource k = true →
        (Tbl.get {} (l.foldl (fun t x => Tbl.upd {} t x.1 (fun (y : Src) => { y with target := x.2.1, func := 0, vector := x.2.2 })) t) k : Src).pending = false from
    ⟨h.1, hl d.routes e.srcs h.2⟩
  intro l
  induction l with
  | nil => exact fun _ ht => ht
  | cons x l ih =>
    intro t ht
    apply ih
    intro k hk
    by_cases hkx : k = x.1
    · subst hkx
      rw [Tbl.get_upd_same]
      exact ht _ hk
    · rw [Tbl.get_upd_other _ _ _ hkx]
      exact ht _ hk
theorem Lasting.redeliver {q0 r : Slot} {e : Evc} {p : Pcie} {now fn : Nat} (h : Lasting q0 r e) : Lasting q0 r (e.redeliver p now fn) := by
  unfold Evc.redeliver
  generalize List.filter _ _ = l
  induction l generalizing e with
  | nil => exact h
  | cons x l ih =>
    rw [List.foldl_cons]
    apply ih
    split
    · exact h.deliver
    · exact h
theorem Lasting.fnReset {q0 r : Slot} {e : Evc} {fn : Nat} (h : Lasting q0 r e) : Lasting q0 r (e.fnReset fn) := by
  refine ⟨h.1, fun k hk => ?_⟩
  have h256 : 256 ≤ k := by
    simp only [reservedSource, Bool.or_eq_true, Bool.and_eq_true, decide_eq_true_eq] at hk
    omega
  have := h.2 k hk
  unfold Evc.fnReset Evc.src at *
  dsimp only
  generalize e.srcs = l at *
  induction l with
  | nil => rfl
  | cons x l ih =>
    obtain ⟨i, y⟩ := x
    rw [List.filter_cons]
    split
    · rw [List.map_cons]
      simp only [Tbl.get] at this ⊢
      split at this <;> split <;> simp_all [Src.clear]
      all_goals first | (split <;> simp_all) | skip
    · rename_i hi
      have : i < 256 := by simp_all
      simp only [Tbl.get] at *
      rw [if_neg (by omega), if_neg (by omega)] at *
      apply ih
      assumption

variable {q0 : Slot}

theorem foldlM_last {α : Type} {f : Chip × Mem → α → Chip × Mem} (hf : ∀ d a, Lasting q0 d.1.pat.recovery d.1.evc → Lasting q0 (f d a).1.pat.recovery (f d a).1.evc)
    {l : List α} {c : Chip × Mem} (h : Lasting q0 c.1.pat.recovery c.1.evc) : Lasting q0 (l.foldl f c).1.pat.recovery (l.foldl f c).1.evc := by
  induction l generalizing c with
  | nil => exact h
  | cons x l ih => exact ih (hf _ _ h)

theorem foldl_last {α : Type} {f : Chip → α → Chip} (hf : ∀ d a, Lasting q0 d.pat.recovery d.evc → Lasting q0 (f d a).pat.recovery (f d a).evc)
    {l : List α} {c : Chip} (h : Lasting q0 c.pat.recovery c.evc) : Lasting q0 (l.foldl f c).pat.recovery (l.foldl f c).evc := by
  induction l generalizing c with
  | nil => exact h
  | cons x l ih => exact ih (hf _ _ h)

/-! Ops -/

theorem Chip.advance_last (c : Chip) (t : Nat) (hgq : Lasting q0 c.pat.recovery c.evc) :
    Lasting q0 (Chip.advance c t).pat.recovery (Chip.advance c t).evc := by
  unfold Chip.advance
  try dsimp only
  repeat' first
    | with_reducible assumption
    | with_reducible apply foldl_last
    | with_reducible apply foldlM_last
    | intro _
    | split
    | (dsimp only [Safety.quiet, Rst.record, id])
    | exact hgq

theorem Chip.updQueue_last (c : Chip) (g : Nat) (f : Queue → Queue) (hgq : Lasting q0 c.pat.recovery c.evc) :
    Lasting q0 (Chip.updQueue c g f).pat.recovery (Chip.updQueue c g f).evc := by
  unfold Chip.updQueue
  try dsimp only
  repeat' first
    | with_reducible assumption
    | with_reducible apply foldl_last
    | with_reducible apply foldlM_last
    | intro _
    | split
    | (dsimp only [Safety.quiet, Rst.record, id])
    | exact hgq

theorem Chip.updNeedle_last (c : Chip) (n : Nat) (f : Needle → Needle) (hgq : Lasting q0 c.pat.recovery c.evc) :
    Lasting q0 (Chip.updNeedle c n f).pat.recovery (Chip.updNeedle c n f).evc := by
  unfold Chip.updNeedle
  try dsimp only
  repeat' first
    | with_reducible assumption
    | with_reducible apply foldl_last
    | with_reducible apply foldlM_last
    | intro _
    | split
    | (dsimp only [Safety.quiet, Rst.record, id])
    | exact hgq

theorem Chip.updPanel_last (c : Chip) (p : Nat) (f : Panel → Panel) (hgq : Lasting q0 c.pat.recovery c.evc) :
    Lasting q0 (Chip.updPanel c p f).pat.recovery (Chip.updPanel c p f).evc := by
  unfold Chip.updPanel
  try dsimp only
  repeat' first
    | with_reducible assumption
    | with_reducible apply foldl_last
    | with_reducible apply foldlM_last
    | intro _
    | split
    | (dsimp only [Safety.quiet, Rst.record, id])
    | exact hgq

theorem Chip.updTicket_last (c : Chip) (t : Nat) (f : Ticket → Ticket) (hgq : Lasting q0 c.pat.recovery c.evc) :
    Lasting q0 (Chip.updTicket c t f).pat.recovery (Chip.updTicket c t f).evc := by
  unfold Chip.updTicket
  try dsimp only
  repeat' first
    | with_reducible assumption
    | with_reducible apply foldl_last
    | with_reducible apply foldlM_last
    | intro _
    | split
    | (dsimp only [Safety.quiet, Rst.record, id])
    | exact hgq

theorem Chip.reportLtr_last (c : Chip) (hgq : Lasting q0 c.pat.recovery c.evc) :
    Lasting q0 (Chip.reportLtr c).pat.recovery (Chip.reportLtr c).evc := by
  unfold Chip.reportLtr
  try dsimp only
  repeat' first
    | with_reducible assumption
    | with_reducible apply foldl_last
    | with_reducible apply foldlM_last
    | intro _
    | split
    | (dsimp only [Safety.quiet, Rst.record, id])
    | exact hgq

/-! Flags -/

theorem Chip.edge_last (c : Chip) (s : Nat) (hgq : Lasting q0 c.pat.recovery c.evc) :
    Lasting q0 (Chip.edge c s).pat.recovery (Chip.edge c s).evc := by
  unfold Chip.edge
  try dsimp only
  repeat' first
    | with_reducible assumption
    | with_reducible apply foldl_last
    | with_reducible apply foldlM_last
    | intro _
    | with_reducible apply Lasting.edge
    | exact Lasting.none hgq rfl
    | exact Lasting.of_srcs hgq rfl
    | split
    | (dsimp only [Safety.quiet, Rst.record, id])
    | exact hgq

theorem Chip.incident_last (c : Chip) (i : Incident) (src : Nat) (ctx : Option Nat) (ticket argHi arg : Nat) (hgq : Lasting q0 c.pat.recovery c.evc) :
    Lasting q0 (Chip.incident c i src ctx ticket argHi arg).pat.recovery (Chip.incident c i src ctx ticket argHi arg).evc := by
  unfold Chip.incident
  try dsimp only
  repeat' first
    | with_reducible assumption
    | with_reducible apply foldl_last
    | with_reducible apply foldlM_last
    | intro _
    | with_reducible apply Chip.edge_last
    | with_reducible apply Lasting.edge
    | exact Lasting.none hgq rfl
    | exact Lasting.of_srcs hgq rfl
    | split
    | (dsimp only [Safety.quiet, Rst.record, id])
    | exact hgq

theorem Chip.note_last (c : Chip) (i : Incident) (src : Nat) (ctx : Option Nat) (ticket argHi arg : Nat) (hgq : Lasting q0 c.pat.recovery c.evc) :
    Lasting q0 (Chip.note c i src ctx ticket argHi arg).pat.recovery (Chip.note c i src ctx ticket argHi arg).evc := by
  unfold Chip.note
  try dsimp only
  repeat' first
    | with_reducible assumption
    | with_reducible apply foldl_last
    | with_reducible apply foldlM_last
    | intro _
    | with_reducible apply Chip.edge_last
    | with_reducible apply Lasting.edge
    | exact Lasting.none hgq rfl
    | exact Lasting.of_srcs hgq rfl
    | split
    | (dsimp only [Safety.quiet, Rst.record, id])
    | exact hgq

theorem Chip.regIncident_last (c : Chip) (i : Incident) (addr : Nat) (hgq : Lasting q0 c.pat.recovery c.evc) :
    Lasting q0 (Chip.regIncident c i addr).pat.recovery (Chip.regIncident c i addr).evc := by
  unfold Chip.regIncident
  try dsimp only
  repeat' first
    | with_reducible assumption
    | with_reducible apply foldl_last
    | with_reducible apply foldlM_last
    | intro _
    | with_reducible apply Chip.incident_last
    | split
    | (dsimp only [Safety.quiet, Rst.record, id])
    | exact hgq

theorem Chip.alarm_last (c : Chip) (e : Bool) (i : Incident) (k src : Nat) (ctx : Option Nat) (ticket argHi arg : Nat) (hgq : Lasting q0 c.pat.recovery c.evc) :
    Lasting q0 (Chip.alarm c e i k src ctx ticket argHi arg).pat.recovery (Chip.alarm c e i k src ctx ticket argHi arg).evc := by
  unfold Chip.alarm
  try dsimp only
  repeat' first
    | with_reducible assumption
    | with_reducible apply foldl_last
    | with_reducible apply foldlM_last
    | intro _
    | with_reducible apply Chip.edge_last
    | with_reducible apply Lasting.edge
    | exact Lasting.none hgq rfl
    | exact Lasting.of_srcs hgq rfl
    | split
    | (dsimp only [Safety.quiet, Rst.record, id])
    | exact hgq

theorem Chip.alarmIf_last (c : Chip) (b e : Bool) (i : Incident) (k src : Nat) (ctx : Option Nat) (ticket argHi arg : Nat) (hgq : Lasting q0 c.pat.recovery c.evc) :
    Lasting q0 (c.alarmIf b e i k src ctx ticket argHi arg).pat.recovery (c.alarmIf b e i k src ctx ticket argHi arg).evc := by
  unfold Chip.alarmIf
  dsimp only
  split
  · have h := Chip.alarm_last c e i k src ctx ticket argHi arg hgq
    exact ⟨hgq.1, h.2⟩
  · exact hgq

theorem Chip.incidentIf_last (c : Chip) (b : Bool) (i : Incident) (src : Nat) (ctx : Option Nat) (ticket argHi arg : Nat) (hgq : Lasting q0 c.pat.recovery c.evc) :
    Lasting q0 (c.incidentIf b i src ctx ticket argHi arg).pat.recovery (c.incidentIf b i src ctx ticket argHi arg).evc := by
  unfold Chip.incidentIf
  dsimp only
  split
  · have h := Chip.incident_last c i src ctx ticket argHi arg hgq
    exact ⟨hgq.1, h.2⟩
  · exact hgq

theorem Chip.edgeIf_last (c : Chip) (b : Bool) (s : Nat) (hgq : Lasting q0 c.pat.recovery c.evc) :
    Lasting q0 (Chip.edgeIf c b s).pat.recovery (Chip.edgeIf c b s).evc := by
  unfold Chip.edgeIf
  try dsimp only
  repeat' first
    | with_reducible assumption
    | with_reducible apply foldl_last
    | with_reducible apply foldlM_last
    | intro _
    | with_reducible apply Chip.edge_last
    | with_reducible apply Lasting.edge
    | exact Lasting.none hgq rfl
    | exact Lasting.of_srcs hgq rfl
    | split
    | (dsimp only [Safety.quiet, Rst.record, id])
    | exact hgq

theorem Chip.summaryRecord_last (c : Chip) (suppressed : Nat) (hgq : Lasting q0 c.pat.recovery c.evc) :
    Lasting q0 (Chip.summaryRecord c suppressed).pat.recovery (Chip.summaryRecord c suppressed).evc := by
  unfold Chip.summaryRecord
  try dsimp only
  repeat' first
    | with_reducible assumption
    | with_reducible apply foldl_last
    | with_reducible apply foldlM_last
    | intro _
    | with_reducible apply Chip.edge_last
    | with_reducible apply Lasting.edge
    | exact Lasting.none hgq rfl
    | exact Lasting.of_srcs hgq rfl
    | split
    | (dsimp only [Safety.quiet, Rst.record, id])
    | exact hgq

theorem Chip.eventAck_last (c : Chip) (s seen : Nat) (hgq : Lasting q0 c.pat.recovery c.evc) :
    Lasting q0 (Chip.eventAck c s seen).pat.recovery (Chip.eventAck c s seen).evc := by
  unfold Chip.eventAck
  try dsimp only
  repeat' first
    | with_reducible assumption
    | with_reducible apply foldl_last
    | with_reducible apply foldlM_last
    | intro _
    | with_reducible apply Chip.regIncident_last
    | with_reducible apply Lasting.ack
    | exact Lasting.none hgq rfl
    | exact Lasting.of_srcs hgq rfl
    | split
    | (dsimp only [Safety.quiet, Rst.record, id])
    | exact hgq

theorem Chip.idleHint_last (c : Chip) (v : Nat) (hgq : Lasting q0 c.pat.recovery c.evc) :
    Lasting q0 (Chip.idleHint c v).pat.recovery (Chip.idleHint c v).evc := by
  unfold Chip.idleHint
  try dsimp only
  repeat' first
    | with_reducible assumption
    | with_reducible apply foldl_last
    | with_reducible apply foldlM_last
    | intro _
    | with_reducible apply Lasting.trySend
    | with_reducible apply Lasting.updVec
    | exact Lasting.none hgq rfl
    | exact Lasting.of_srcs hgq rfl
    | split
    | (dsimp only [Safety.quiet, Rst.record, id])
    | exact hgq

theorem Chip.evcDisable_last (c : Chip) (on : Bool) (hgq : Lasting q0 c.pat.recovery c.evc) :
    Lasting q0 (Chip.evcDisable c on).pat.recovery (Chip.evcDisable c on).evc := by
  unfold Chip.evcDisable
  try dsimp only
  repeat' first
    | with_reducible assumption
    | with_reducible apply foldl_last
    | with_reducible apply foldlM_last
    | intro _
    | with_reducible apply Lasting.flush
    | exact Lasting.none hgq rfl
    | exact Lasting.of_srcs hgq rfl
    | split
    | (dsimp only [Safety.quiet, Rst.record, id])
    | exact hgq

theorem Chip.alarmAck_last (c : Chip) (k seen : Nat) (hgq : Lasting q0 c.pat.recovery c.evc) :
    Lasting q0 (Chip.alarmAck c k seen).pat.recovery (Chip.alarmAck c k seen).evc := by
  unfold Chip.alarmAck
  try dsimp only
  repeat' first
    | with_reducible assumption
    | with_reducible apply foldl_last
    | with_reducible apply foldlM_last
    | intro _
    | with_reducible apply Chip.regIncident_last
    | with_reducible apply Lasting.ack
    | split
    | (dsimp only [Safety.quiet, Rst.record, id])
    | exact hgq

/-! Gauge -/

theorem Chip.garRise_last (c : Chip) (before : Bool) (hgq : Lasting q0 c.pat.recovery c.evc) :
    Lasting q0 (Chip.garRise c before).pat.recovery (Chip.garRise c before).evc := by
  unfold Chip.garRise
  try dsimp only
  repeat' first
    | with_reducible assumption
    | with_reducible apply foldl_last
    | with_reducible apply foldlM_last
    | intro _
    | with_reducible apply Chip.alarmIf_last
    | split
    | (dsimp only [Safety.quiet, Rst.record, id])
    | exact hgq

theorem Chip.gaugeWindowEnd_last (c : Chip) (counts : List Nat) (hgq : Lasting q0 c.pat.recovery c.evc) :
    Lasting q0 (Chip.gaugeWindowEnd c counts).pat.recovery (Chip.gaugeWindowEnd c counts).evc := by
  unfold Chip.gaugeWindowEnd
  try dsimp only
  repeat' first
    | with_reducible assumption
    | with_reducible apply foldl_last
    | with_reducible apply foldlM_last
    | intro _
    | with_reducible apply Chip.note_last
    | split
    | (dsimp only [Safety.quiet, Rst.record, id])
    | exact hgq

theorem Chip.startWindow_last (c : Chip) (counts : List Nat) (hgq : Lasting q0 c.pat.recovery c.evc) :
    Lasting q0 (Chip.startWindow c counts).pat.recovery (Chip.startWindow c counts).evc := by
  unfold Chip.startWindow
  try dsimp only
  repeat' first
    | with_reducible assumption
    | with_reducible apply foldl_last
    | with_reducible apply foldlM_last
    | intro _
    | with_reducible apply Chip.gaugeWindowEnd_last
    | split
    | (dsimp only [Safety.quiet, Rst.record, id])
    | exact hgq

theorem Chip.startRow_last (c : Chip) (windows : List (List Nat)) (hgq : Lasting q0 c.pat.recovery c.evc) :
    Lasting q0 (Chip.startRow c windows).pat.recovery (Chip.startRow c windows).evc := by
  unfold Chip.startRow
  try dsimp only
  repeat' first
    | with_reducible assumption
    | with_reducible apply foldl_last
    | with_reducible apply foldlM_last
    | intro _
    | with_reducible apply Chip.startWindow_last
    | split
    | (dsimp only [Safety.quiet, Rst.record, id])
    | exact hgq

theorem Chip.marginTimeout_last (c : Chip) (hgq : Lasting q0 c.pat.recovery c.evc) :
    Lasting q0 (Chip.marginTimeout c).pat.recovery (Chip.marginTimeout c).evc := by
  unfold Chip.marginTimeout
  try dsimp only
  repeat' first
    | with_reducible assumption
    | with_reducible apply foldl_last
    | with_reducible apply foldlM_last
    | intro _
    | with_reducible apply Chip.garRise_last
    | split
    | (dsimp only [Safety.quiet, Rst.record, id])
    | exact hgq

theorem Chip.crystalFail_last (c : Chip) (hgq : Lasting q0 c.pat.recovery c.evc) :
    Lasting q0 (Chip.crystalFail c).pat.recovery (Chip.crystalFail c).evc := by
  unfold Chip.crystalFail
  try dsimp only
  repeat' first
    | with_reducible assumption
    | with_reducible apply foldl_last
    | with_reducible apply foldlM_last
    | intro _
    | with_reducible apply Chip.alarmIf_last
    | with_reducible apply Chip.garRise_last
    | split
    | (dsimp only [Safety.quiet, Rst.record, id])
    | exact hgq

/-! Tension -/

theorem Chip.degradeOne_last (c : Chip) (hgq : Lasting q0 c.pat.recovery c.evc) :
    Lasting q0 (Chip.degradeOne c).pat.recovery (Chip.degradeOne c).evc := by
  unfold Chip.degradeOne
  try dsimp only
  repeat' first
    | with_reducible assumption
    | with_reducible apply foldl_last
    | with_reducible apply foldlM_last
    | intro _
    | with_reducible apply Chip.updTicket_last
    | with_reducible apply Chip.alarm_last
    | split
    | (dsimp only [Safety.quiet, Rst.record, id])
    | exact hgq

theorem Chip.restoreOne_last (c : Chip) (hgq : Lasting q0 c.pat.recovery c.evc) :
    Lasting q0 (Chip.restoreOne c).pat.recovery (Chip.restoreOne c).evc := by
  unfold Chip.restoreOne
  try dsimp only
  repeat' first
    | with_reducible assumption
    | with_reducible apply foldl_last
    | with_reducible apply foldlM_last
    | intro _
    | with_reducible apply Chip.updTicket_last
    | with_reducible apply Chip.incident_last
    | split
    | (dsimp only [Safety.quiet, Rst.record, id])
    | exact hgq

theorem Chip.thermalRow_last (c : Chip) (hgq : Lasting q0 c.pat.recovery c.evc) :
    Lasting q0 (Chip.thermalRow c).pat.recovery (Chip.thermalRow c).evc := by
  unfold Chip.thermalRow
  try dsimp only
  repeat' first
    | with_reducible assumption
    | with_reducible apply foldl_last
    | with_reducible apply foldlM_last
    | intro _
    | with_reducible apply Chip.alarmIf_last
    | split
    | (dsimp only [Safety.quiet, Rst.record, id])
    | exact hgq

theorem Chip.tensionRow_last (c : Chip) (e : RowEnv) (hgq : Lasting q0 c.pat.recovery c.evc) :
    Lasting q0 (Chip.tensionRow c e).pat.recovery (Chip.tensionRow c e).evc := by
  unfold Chip.tensionRow
  try dsimp only
  repeat' first
    | with_reducible assumption
    | with_reducible apply foldl_last
    | with_reducible apply foldlM_last
    | intro _
    | with_reducible apply Chip.alarmIf_last
    | with_reducible apply Chip.degradeOne_last
    | with_reducible apply Chip.restoreOne_last
    | split
    | (dsimp only [Safety.quiet, Rst.record, id])
    | exact hgq

theorem Chip.enterRung_last (c : Chip) (x : Rung) (hgq : Lasting q0 c.pat.recovery c.evc) :
    Lasting q0 (Chip.enterRung c x).pat.recovery (Chip.enterRung c x).evc := by
  unfold Chip.enterRung
  try dsimp only
  repeat' first
    | with_reducible assumption
    | with_reducible apply foldl_last
    | with_reducible apply foldlM_last
    | intro _
    | with_reducible apply Chip.edge_last
    | with_reducible apply Lasting.edge
    | exact Lasting.none hgq rfl
    | exact Lasting.of_srcs hgq rfl
    | split
    | (dsimp only [Safety.quiet, Rst.record, id])
    | exact hgq

theorem Chip.wake_last (c : Chip) (cause : Nat) (hgq : Lasting q0 c.pat.recovery c.evc) :
    Lasting q0 (Chip.wake c cause).pat.recovery (Chip.wake c cause).evc := by
  unfold Chip.wake
  try dsimp only
  repeat' first
    | with_reducible assumption
    | with_reducible apply foldl_last
    | with_reducible apply foldlM_last
    | intro _
    | with_reducible apply Chip.edge_last
    | with_reducible apply Lasting.edge
    | exact Lasting.none hgq rfl
    | exact Lasting.of_srcs hgq rfl
    | split
    | (dsimp only [Safety.quiet, Rst.record, id])
    | exact hgq

/-! HostQueue -/

theorem Chip.hostWrite_last (c : Chip) (addr : Nat) (b : List Byte) (hgq : Lasting q0 c.pat.recovery c.evc) :
    Lasting q0 (Chip.hostWrite c addr b).pat.recovery (Chip.hostWrite c addr b).evc := by
  unfold Chip.hostWrite
  try dsimp only
  repeat' first
    | with_reducible assumption
    | with_reducible apply foldl_last
    | with_reducible apply foldlM_last
    | intro _
    | split
    | (dsimp only [Safety.quiet, Rst.record, id])
    | exact hgq

theorem Chip.cqPut_last (c : Chip) (g : Nat) (r : CqRec) (hgq : Lasting q0 c.pat.recovery c.evc) :
    Lasting q0 (Chip.cqPut c g r).pat.recovery (Chip.cqPut c g r).evc := by
  unfold Chip.cqPut
  try dsimp only
  repeat' first
    | with_reducible assumption
    | with_reducible apply foldl_last
    | with_reducible apply foldlM_last
    | intro _
    | with_reducible apply Chip.edge_last
    | with_reducible apply Lasting.edge
    | exact Lasting.none hgq rfl
    | exact Lasting.of_srcs hgq rfl
    | split
    | (dsimp only [Safety.quiet, Rst.record, id])
    | exact hgq

theorem Chip.cqHold_last (c : Chip) (g : Nat) (r : CqRec) (hgq : Lasting q0 c.pat.recovery c.evc) :
    Lasting q0 (Chip.cqHold c g r).pat.recovery (Chip.cqHold c g r).evc := by
  unfold Chip.cqHold
  try dsimp only
  repeat' first
    | with_reducible assumption
    | with_reducible apply foldl_last
    | with_reducible apply foldlM_last
    | intro _
    | split
    | (dsimp only [Safety.quiet, Rst.record, id])
    | exact hgq

theorem Chip.cqWrite_last (c : Chip) (g : Nat) (r : CqRec) (hgq : Lasting q0 c.pat.recovery c.evc) :
    Lasting q0 (Chip.cqWrite c g r).pat.recovery (Chip.cqWrite c g r).evc := by
  unfold Chip.cqWrite
  try dsimp only
  repeat' first
    | with_reducible assumption
    | with_reducible apply foldl_last
    | with_reducible apply foldlM_last
    | intro _
    | with_reducible apply Chip.updQueue_last
    | with_reducible apply Chip.cqPut_last
    | with_reducible apply Chip.cqHold_last
    | split
    | (dsimp only [Safety.quiet, Rst.record, id])
    | exact hgq

theorem Chip.answer_last (c : Chip) (g tag status ticket bytes : Nat) (hgq : Lasting q0 c.pat.recovery c.evc) :
    Lasting q0 (Chip.answer c g tag status ticket bytes).pat.recovery (Chip.answer c g tag status ticket bytes).evc := by
  unfold Chip.answer
  try dsimp only
  repeat' first
    | with_reducible assumption
    | with_reducible apply foldl_last
    | with_reducible apply foldlM_last
    | intro _
    | with_reducible apply Chip.cqWrite_last
    | split
    | (dsimp only [Safety.quiet, Rst.record, id])
    | exact hgq

theorem Chip.accept_last (c : Chip) (g need : Nat) (hgq : Lasting q0 c.pat.recovery c.evc) :
    Lasting q0 (Chip.accept c g need).pat.recovery (Chip.accept c g need).evc := by
  unfold Chip.accept
  try dsimp only
  repeat' first
    | with_reducible assumption
    | with_reducible apply foldl_last
    | with_reducible apply foldlM_last
    | intro _
    | split
    | (dsimp only [Safety.quiet, Rst.record, id])
    | exact hgq

theorem Chip.unreserve_last (c : Chip) (g n : Nat) (hgq : Lasting q0 c.pat.recovery c.evc) :
    Lasting q0 (Chip.unreserve c g n).pat.recovery (Chip.unreserve c g n).evc := by
  unfold Chip.unreserve
  try dsimp only
  repeat' first
    | with_reducible assumption
    | with_reducible apply foldl_last
    | with_reducible apply foldlM_last
    | intro _
    | with_reducible apply Chip.updQueue_last
    | split
    | (dsimp only [Safety.quiet, Rst.record, id])
    | exact hgq

/-! Pool -/

theorem Chip.hankAlloc_last (c : Chip) (ticket tag n : Nat) (hgq : Lasting q0 c.pat.recovery c.evc) :
    Lasting q0 (Chip.hankAlloc c ticket tag n).pat.recovery (Chip.hankAlloc c ticket tag n).evc := by
  unfold Chip.hankAlloc
  try dsimp only
  repeat' first
    | with_reducible assumption
    | with_reducible apply foldl_last
    | with_reducible apply foldlM_last
    | intro _
    | split
    | (dsimp only [Safety.quiet, Rst.record, id])
    | exact hgq

theorem Chip.hankGrant_last (c : Chip) (hgq : Lasting q0 c.pat.recovery c.evc) :
    Lasting q0 (Chip.hankGrant c).pat.recovery (Chip.hankGrant c).evc := by
  unfold Chip.hankGrant
  try dsimp only
  repeat' first
    | with_reducible assumption
    | with_reducible apply foldl_last
    | with_reducible apply foldlM_last
    | intro _
    | split
    | (dsimp only [Safety.quiet, Rst.record, id])
    | exact hgq

theorem Chip.hankRefuse_last (c : Chip) (why : HankRefusal) (h caller : Nat) (hgq : Lasting q0 c.pat.recovery c.evc) :
    Lasting q0 (Chip.hankRefuse c why h caller).pat.recovery (Chip.hankRefuse c why h caller).evc := by
  unfold Chip.hankRefuse
  try dsimp only
  repeat' first
    | with_reducible assumption
    | with_reducible apply foldl_last
    | with_reducible apply foldlM_last
    | intro _
    | with_reducible apply Chip.incident_last
    | split
    | (dsimp only [Safety.quiet, Rst.record, id])
    | exact hgq

theorem Chip.hankShare_last (c : Chip) (h caller releaser : Nat) (readers : List Nat) (hgq : Lasting q0 c.pat.recovery c.evc) :
    Lasting q0 (Chip.hankShare c h caller releaser readers).pat.recovery (Chip.hankShare c h caller releaser readers).evc := by
  unfold Chip.hankShare
  try dsimp only
  repeat' first
    | with_reducible assumption
    | with_reducible apply foldl_last
    | with_reducible apply foldlM_last
    | intro _
    | with_reducible apply Chip.hankRefuse_last
    | split
    | (dsimp only [Safety.quiet, Rst.record, id])
    | exact hgq

theorem Chip.hankPass_last (c : Chip) (h caller tag : Nat) (hgq : Lasting q0 c.pat.recovery c.evc) :
    Lasting q0 (Chip.hankPass c h caller tag).pat.recovery (Chip.hankPass c h caller tag).evc := by
  unfold Chip.hankPass
  try dsimp only
  repeat' first
    | with_reducible assumption
    | with_reducible apply foldl_last
    | with_reducible apply foldlM_last
    | intro _
    | with_reducible apply Chip.hankRefuse_last
    | split
    | (dsimp only [Safety.quiet, Rst.record, id])
    | exact hgq

theorem Chip.hankFree_last (c : Chip) (h caller : Nat) (hgq : Lasting q0 c.pat.recovery c.evc) :
    Lasting q0 (Chip.hankFree c h caller).pat.recovery (Chip.hankFree c h caller).evc := by
  unfold Chip.hankFree
  try dsimp only
  repeat' first
    | with_reducible assumption
    | with_reducible apply foldl_last
    | with_reducible apply foldlM_last
    | intro _
    | with_reducible apply Chip.hankRefuse_last
    | split
    | (dsimp only [Safety.quiet, Rst.record, id])
    | exact hgq

theorem Chip.freeNoHank_last (c : Chip) (fn handle : Nat) (hgq : Lasting q0 c.pat.recovery c.evc) :
    Lasting q0 (Chip.freeNoHank c fn handle).pat.recovery (Chip.freeNoHank c fn handle).evc := by
  unfold Chip.freeNoHank
  try dsimp only
  repeat' first
    | with_reducible assumption
    | with_reducible apply foldl_last
    | with_reducible apply foldlM_last
    | intro _
    | with_reducible apply Chip.incident_last
    | split
    | (dsimp only [Safety.quiet, Rst.record, id])
    | exact hgq

theorem Chip.scrubDone_last (c : Chip) (h : Nat) (hgq : Lasting q0 c.pat.recovery c.evc) :
    Lasting q0 (Chip.scrubDone c h).pat.recovery (Chip.scrubDone c h).evc := by
  unfold Chip.scrubDone
  try dsimp only
  repeat' first
    | with_reducible assumption
    | with_reducible apply foldl_last
    | with_reducible apply foldlM_last
    | intro _
    | split
    | (dsimp only [Safety.quiet, Rst.record, id])
    | exact hgq

theorem Chip.wakeWaits_last (c : Chip) (m : Nat) (hgq : Lasting q0 c.pat.recovery c.evc) :
    Lasting q0 (Chip.wakeWaits c m).pat.recovery (Chip.wakeWaits c m).evc := by
  unfold Chip.wakeWaits
  try dsimp only
  repeat' first
    | with_reducible assumption
    | with_reducible apply foldl_last
    | with_reducible apply foldlM_last
    | intro _
    | with_reducible apply Chip.answer_last
    | split
    | (dsimp only [Safety.quiet, Rst.record, id])
    | exact hgq

theorem Chip.signal_last (c : Chip) (m n ctx ticket : Nat) (hgq : Lasting q0 c.pat.recovery c.evc) :
    Lasting q0 (c.signal m n ctx ticket).pat.recovery (c.signal m n ctx ticket).evc := by
  unfold Chip.signal
  split
  · split
    · exact Chip.note_last _ _ _ _ _ _ _ (Chip.wakeWaits_last _ _ hgq)
    · exact Chip.wakeWaits_last _ _ hgq
  · exact Chip.note_last _ _ _ _ _ _ _ hgq

theorem Chip.signalMap_last (c : Chip) (t : Ticket) (i n ctx : Nat) (hgq : Lasting q0 c.pat.recovery c.evc) :
    Lasting q0 (Chip.signalMap c t i n ctx).pat.recovery (Chip.signalMap c t i n ctx).evc := by
  unfold Chip.signalMap
  try dsimp only
  repeat' first
    | with_reducible assumption
    | with_reducible apply foldl_last
    | with_reducible apply foldlM_last
    | intro _
    | with_reducible apply Chip.signal_last
    | split
    | (dsimp only [Safety.quiet, Rst.record, id])
    | exact hgq

theorem Chip.releaseMarkers_last (c : Chip) (ms : List Nat) (hgq : Lasting q0 c.pat.recovery c.evc) :
    Lasting q0 (Chip.releaseMarkers c ms).pat.recovery (Chip.releaseMarkers c ms).evc := by
  unfold Chip.releaseMarkers
  try dsimp only
  repeat' first
    | with_reducible assumption
    | with_reducible apply foldl_last
    | with_reducible apply foldlM_last
    | intro _
    | with_reducible apply Chip.answer_last
    | split
    | (dsimp only [Safety.quiet, Rst.record, id])
    | exact hgq

theorem Chip.hbmUe_last (c : Chip) (a : Nat) (hgq : Lasting q0 c.pat.recovery c.evc) :
    Lasting q0 (Chip.hbmUe c a).pat.recovery (Chip.hbmUe c a).evc := by
  unfold Chip.hbmUe
  try dsimp only
  repeat' first
    | with_reducible assumption
    | with_reducible apply foldl_last
    | with_reducible apply foldlM_last
    | intro _
    | with_reducible apply Chip.alarm_last
    | split
    | (dsimp only [Safety.quiet, Rst.record, id])
    | exact hgq

/-! Panels -/

theorem Chip.charge_last (c : Chip) (panel res bytes : Nat) (guar : Bool) (own : Option (Nat × Nat)) (hgq : Lasting q0 c.pat.recovery c.evc) :
    Lasting q0 (Chip.charge c panel res bytes guar own).pat.recovery (Chip.charge c panel res bytes guar own).evc := by
  unfold Chip.charge
  try dsimp only
  repeat' first
    | with_reducible assumption
    | with_reducible apply foldl_last
    | with_reducible apply foldlM_last
    | intro _
    | with_reducible apply Chip.updPanel_last
    | split
    | (dsimp only [Safety.quiet, Rst.record, id])
    | exact hgq

theorem Chip.dmaBegins_last (c : Chip) (own : Nat × Nat) (hgq : Lasting q0 c.pat.recovery c.evc) :
    Lasting q0 (Chip.dmaBegins c own).pat.recovery (Chip.dmaBegins c own).evc := by
  unfold Chip.dmaBegins
  try dsimp only
  repeat' first
    | with_reducible assumption
    | with_reducible apply foldl_last
    | with_reducible apply foldlM_last
    | intro _
    | with_reducible apply Chip.updNeedle_last
    | split
    | (dsimp only [Safety.quiet, Rst.record, id])
    | exact hgq

theorem Chip.admitChunk_last (c : Chip) (panel res : Nat) (guar : Bool) (hgq : Lasting q0 c.pat.recovery c.evc) :
    Lasting q0 (Chip.admitChunk c panel res guar).pat.recovery (Chip.admitChunk c panel res guar).evc := by
  unfold Chip.admitChunk
  try dsimp only
  repeat' first
    | with_reducible assumption
    | with_reducible apply foldl_last
    | with_reducible apply foldlM_last
    | intro _
    | with_reducible apply Chip.updPanel_last
    | with_reducible apply Chip.dmaBegins_last
    | split
    | (dsimp only [Safety.quiet, Rst.record, id])
    | exact hgq

theorem Chip.hbmWrote_last (c : Chip) (r : Range) (hgq : Lasting q0 c.pat.recovery c.evc) :
    Lasting q0 (Chip.hbmWrote c r).pat.recovery (Chip.hbmWrote c r).evc := by
  unfold Chip.hbmWrote
  try dsimp only
  repeat' first
    | with_reducible assumption
    | with_reducible apply foldl_last
    | with_reducible apply foldlM_last
    | intro _
    | split
    | (dsimp only [Safety.quiet, Rst.record, id])
    | exact hgq

theorem Chip.wrote_last (c : Chip) (rs : List Range) (hgq : Lasting q0 c.pat.recovery c.evc) :
    Lasting q0 (Chip.wrote c rs).pat.recovery (Chip.wrote c rs).evc := by
  unfold Chip.wrote
  try dsimp only
  repeat' first
    | with_reducible assumption
    | with_reducible apply foldl_last
    | with_reducible apply foldlM_last
    | intro _
    | with_reducible apply Chip.hbmWrote_last
    | split
    | (dsimp only [Safety.quiet, Rst.record, id])
    | exact hgq

theorem Chip.hbmRead_last (c : Chip) (r : Range) (hgq : Lasting q0 c.pat.recovery c.evc) :
    Lasting q0 (Chip.hbmRead c r).pat.recovery (Chip.hbmRead c r).evc := by
  unfold Chip.hbmRead
  try dsimp only
  repeat' first
    | with_reducible assumption
    | with_reducible apply foldl_last
    | with_reducible apply foldlM_last
    | intro _
    | split
    | (dsimp only [Safety.quiet, Rst.record, id])
    | exact hgq

theorem Chip.hbmFetch_last (c : Chip) (r : Range) (hgq : Lasting q0 c.pat.recovery c.evc) :
    Lasting q0 (Chip.hbmFetch c r).pat.recovery (Chip.hbmFetch c r).evc := by
  unfold Chip.hbmFetch
  try dsimp only
  repeat' first
    | with_reducible assumption
    | with_reducible apply foldl_last
    | with_reducible apply foldlM_last
    | intro _
    | with_reducible apply Chip.hbmUe_last
    | with_reducible apply Chip.hbmRead_last
    | split
    | (dsimp only [Safety.quiet, Rst.record, id])
    | exact hgq

theorem Chip.sharedLine_last (c : Chip) (p x : Nat) (hgq : Lasting q0 c.pat.recovery c.evc) :
    Lasting q0 (Chip.sharedLine c p x).pat.recovery (Chip.sharedLine c p x).evc := by
  unfold Chip.sharedLine
  try dsimp only
  repeat' first
    | with_reducible assumption
    | with_reducible apply foldl_last
    | with_reducible apply foldlM_last
    | intro _
    | split
    | (dsimp only [Safety.quiet, Rst.record, id])
    | exact hgq

theorem Chip.startFill_last (c : Chip) (f : Fill) (hgq : Lasting q0 c.pat.recovery c.evc) :
    Lasting q0 (Chip.startFill c f).pat.recovery (Chip.startFill c f).evc := by
  unfold Chip.startFill
  try dsimp only
  repeat' first
    | with_reducible assumption
    | with_reducible apply foldl_last
    | with_reducible apply foldlM_last
    | intro _
    | with_reducible apply Chip.charge_last
    | split
    | (dsimp only [Safety.quiet, Rst.record, id])
    | exact hgq

theorem Chip.miss_last (c : Chip) (panel b : Nat) (r : Range) (guar : Bool) (remote : Option Nat) (own : Option (Nat × Nat)) (hgq : Lasting q0 c.pat.recovery c.evc) :
    Lasting q0 (Chip.miss c panel b r guar remote own).pat.recovery (Chip.miss c panel b r guar remote own).evc := by
  unfold Chip.miss
  try dsimp only
  repeat' first
    | with_reducible assumption
    | with_reducible apply foldl_last
    | with_reducible apply foldlM_last
    | intro _
    | with_reducible apply Chip.charge_last
    | with_reducible apply Chip.hbmRead_last
    | with_reducible apply Chip.startFill_last
    | split
    | (dsimp only [Safety.quiet, Rst.record, id])
    | exact hgq

theorem Chip.readBlock_last (c : Chip) (panel : Nat) (r : Range) (guar : Bool) (remote : Option Nat) (own : Option (Nat × Nat)) (hgq : Lasting q0 c.pat.recovery c.evc) :
    Lasting q0 (Chip.readBlock c panel r guar remote own).pat.recovery (Chip.readBlock c panel r guar remote own).evc := by
  unfold Chip.readBlock
  try dsimp only
  repeat' first
    | with_reducible assumption
    | with_reducible apply foldl_last
    | with_reducible apply foldlM_last
    | intro _
    | with_reducible apply Chip.charge_last
    | with_reducible apply Chip.miss_last
    | split
    | (dsimp only [Safety.quiet, Rst.record, id])
    | exact hgq

theorem Chip.hbmBlockRead_last (c : Chip) (panel : Nat) (r : Range) (guar : Bool) (own : Option (Nat × Nat)) (hgq : Lasting q0 c.pat.recovery c.evc) :
    Lasting q0 (Chip.hbmBlockRead c panel r guar own).pat.recovery (Chip.hbmBlockRead c panel r guar own).evc := by
  unfold Chip.hbmBlockRead
  try dsimp only
  repeat' first
    | with_reducible assumption
    | with_reducible apply foldl_last
    | with_reducible apply foldlM_last
    | intro _
    | with_reducible apply Chip.charge_last
    | with_reducible apply Chip.hbmRead_last
    | with_reducible apply Chip.sharedLine_last
    | with_reducible apply Chip.readBlock_last
    | split
    | (dsimp only [Safety.quiet, Rst.record, id])
    | exact hgq

theorem Chip.needleRead_last (c : Chip) (panel : Nat) (r : Range) (guar : Bool) (own : Option (Nat × Nat)) (hgq : Lasting q0 c.pat.recovery c.evc) :
    Lasting q0 (Chip.needleRead c panel r guar own).pat.recovery (Chip.needleRead c panel r guar own).evc := by
  unfold Chip.needleRead
  try dsimp only
  repeat' first
    | with_reducible assumption
    | with_reducible apply foldl_last
    | with_reducible apply foldlM_last
    | intro _
    | with_reducible apply Chip.charge_last
    | with_reducible apply Chip.hbmBlockRead_last
    | split
    | (dsimp only [Safety.quiet, Rst.record, id])
    | exact hgq

theorem Chip.panelWrite_last (c : Chip) (panel : Nat) (r : Range) (guar : Bool) (own : Option (Nat × Nat)) (hgq : Lasting q0 c.pat.recovery c.evc) :
    Lasting q0 (Chip.panelWrite c panel r guar own).pat.recovery (Chip.panelWrite c panel r guar own).evc := by
  unfold Chip.panelWrite
  try dsimp only
  repeat' first
    | with_reducible assumption
    | with_reducible apply foldl_last
    | with_reducible apply foldlM_last
    | intro _
    | with_reducible apply Chip.charge_last
    | with_reducible apply Chip.hbmWrote_last
    | split
    | (dsimp only [Safety.quiet, Rst.record, id])
    | exact hgq

theorem Chip.fillTimeout_last (c : Chip) (b : Nat) (hgq : Lasting q0 c.pat.recovery c.evc) :
    Lasting q0 (Chip.fillTimeout c b).pat.recovery (Chip.fillTimeout c b).evc := by
  unfold Chip.fillTimeout
  try dsimp only
  repeat' first
    | with_reducible assumption
    | with_reducible apply foldl_last
    | with_reducible apply foldlM_last
    | intro _
    | with_reducible apply Chip.advance_last
    | with_reducible apply Chip.note_last
    | split
    | (dsimp only [Safety.quiet, Rst.record, id])
    | exact hgq

theorem Chip.loadRemote_last (c : Chip) (i : Nat) (hgq : Lasting q0 c.pat.recovery c.evc) :
    Lasting q0 (Chip.loadRemote c i).pat.recovery (Chip.loadRemote c i).evc := by
  unfold Chip.loadRemote
  try dsimp only
  repeat' first
    | with_reducible assumption
    | with_reducible apply foldl_last
    | with_reducible apply foldlM_last
    | intro _
    | with_reducible apply Chip.startFill_last
    | split
    | (dsimp only [Safety.quiet, Rst.record, id])
    | exact hgq

theorem Chip.loadResident_last (c : Chip) (hgq : Lasting q0 c.pat.recovery c.evc) :
    Lasting q0 (Chip.loadResident c).pat.recovery (Chip.loadResident c).evc := by
  unfold Chip.loadResident
  try dsimp only
  repeat' first
    | with_reducible assumption
    | with_reducible apply foldl_last
    | with_reducible apply foldlM_last
    | intro _
    | with_reducible apply Chip.loadRemote_last
    | split
    | (dsimp only [Safety.quiet, Rst.record, id])
    | exact hgq

theorem Chip.retryResident_last (c : Chip) (hgq : Lasting q0 c.pat.recovery c.evc) :
    Lasting q0 (Chip.retryResident c).pat.recovery (Chip.retryResident c).evc := by
  unfold Chip.retryResident
  try dsimp only
  repeat' first
    | with_reducible assumption
    | with_reducible apply foldl_last
    | with_reducible apply foldlM_last
    | intro _
    | with_reducible apply Chip.loadRemote_last
    | split
    | (dsimp only [Safety.quiet, Rst.record, id])
    | exact hgq

/-! Needle -/

theorem Chip.dmaTraffic_last (c : Chip) (n : Nat) (guar : Bool) (ds : List Dma) (hgq : Lasting q0 c.pat.recovery c.evc) :
    Lasting q0 (Chip.dmaTraffic c n guar ds).pat.recovery (Chip.dmaTraffic c n guar ds).evc := by
  unfold Chip.dmaTraffic
  try dsimp only
  repeat' first
    | with_reducible assumption
    | with_reducible apply foldl_last
    | with_reducible apply foldlM_last
    | intro _
    | with_reducible apply Chip.charge_last
    | with_reducible apply Chip.needleRead_last
    | split
    | (dsimp only [Safety.quiet, Rst.record, id])
    | exact hgq

theorem Chip.issueHead_last (c : Chip) (m : Mem) (n : Nat) (w : TodWait) (hgq : Lasting q0 c.pat.recovery c.evc) :
    ∀ d, Chip.issueHead c m n w = some d → Lasting q0 d.pat.recovery d.evc := by
  intro d hd
  unfold Chip.issueHead at hd
  try dsimp only at hd
  repeat' first
    | with_reducible assumption
    | (split at hd)
    | (simp only [Option.some.injEq, reduceCtorEq] at hd; subst hd; try dsimp only)
    | with_reducible apply foldl_last
    | with_reducible apply foldlM_last
    | intro _
    | with_reducible apply Chip.updNeedle_last
    | with_reducible apply Chip.dmaTraffic_last
    | split
    | (dsimp only [Safety.quiet, Rst.record, id])
    | (exact absurd hd (by simp))
    | exact hgq

theorem Chip.passHead_last (c : Chip) (n : Nat) (hgq : Lasting q0 c.pat.recovery c.evc) :
    ∀ d, c.passHead n = some d → Lasting q0 d.pat.recovery d.evc := by
  intro d hd
  obtain ⟨w, -, rfl⟩ := Option.map_eq_some_iff.1 hd
  exact Chip.updNeedle_last _ _ _ hgq

theorem Chip.startSwap_last (c : Chip) (n ctx : Nat) (k : Swap) (hgq : Lasting q0 c.pat.recovery c.evc) :
    Lasting q0 (Chip.startSwap c n ctx k).pat.recovery (Chip.startSwap c n ctx k).evc := by
  unfold Chip.startSwap
  try dsimp only
  repeat' first
    | with_reducible assumption
    | with_reducible apply foldl_last
    | with_reducible apply foldlM_last
    | intro _
    | with_reducible apply Chip.updNeedle_last
    | with_reducible apply Chip.updPanel_last
    | with_reducible apply Chip.readBlock_last
    | split
    | (dsimp only [Safety.quiet, Rst.record, id])
    | exact hgq

theorem Chip.dispatch_last (c : Chip) (m : Mem) (n : Nat) (hgq : Lasting q0 c.pat.recovery c.evc) :
    ∀ d, c.dispatch m n = some d → Lasting q0 d.pat.recovery d.evc := by
  intro d hd
  unfold Chip.dispatch at hd
  dsimp only at hd
  repeat' first
    | (cases hd; done)
    | (obtain ⟨w, -, hw⟩ := Option.bind_eq_some_iff.1 hd; exact Chip.issueHead_last _ _ _ _ hgq _ hw)
    | (injection hd with hd; subst hd; first | exact Chip.updNeedle_last _ _ _ hgq | exact Chip.startSwap_last _ _ _ _ hgq)
    | split at hd

theorem Chip.pumpOne_last (c : Chip) (m : Mem) (n : Nat) (hgq : Lasting q0 c.pat.recovery c.evc) :
    ∀ d, c.pumpOne m n = some d → Lasting q0 d.pat.recovery d.evc := by
  intro d hd
  unfold Chip.pumpOne at hd
  split at hd
  · injection hd with hd
    subst hd
    exact Chip.passHead_last _ _ hgq _ (by assumption)
  · exact Chip.dispatch_last _ _ _ hgq _ hd

theorem Chip.pumpN_last (m : Mem) (n k : Nat) (c : Chip) (hgq : Lasting q0 c.pat.recovery c.evc) :
    Lasting q0 (Chip.pumpN m n k c).pat.recovery (Chip.pumpN m n k c).evc := by
  induction k generalizing c with
  | zero => exact hgq
  | succ k ih =>
    unfold Chip.pumpN
    split
    · exact hgq
    · exact ih _ (Chip.pumpOne_last _ _ _ hgq _ (by assumption))

theorem Chip.noteWaits_last (c : Chip) (n : Nat) (hgq : Lasting q0 c.pat.recovery c.evc) :
    Lasting q0 (Chip.noteWaits c n).pat.recovery (Chip.noteWaits c n).evc := by
  unfold Chip.noteWaits
  try dsimp only
  repeat' first
    | with_reducible assumption
    | with_reducible apply foldl_last
    | with_reducible apply foldlM_last
    | intro _
    | with_reducible apply Chip.updNeedle_last
    | split
    | (dsimp only [Safety.quiet, Rst.record, id])
    | exact hgq

theorem Chip.pump_last (c : Chip) (m : Mem) (n : Nat) (hgq : Lasting q0 c.pat.recovery c.evc) :
    Lasting q0 (Chip.pump c m n).pat.recovery (Chip.pump c m n).evc := by
  unfold Chip.pump
  try dsimp only
  repeat' first
    | with_reducible assumption
    | with_reducible apply foldl_last
    | with_reducible apply foldlM_last
    | intro _
    | with_reducible apply Chip.pumpN_last
    | with_reducible apply Chip.noteWaits_last
    | split
    | (dsimp only [Safety.quiet, Rst.record, id])
    | exact hgq

theorem Chip.pumpAll_last (c : Chip) (m : Mem) (hgq : Lasting q0 c.pat.recovery c.evc) :
    Lasting q0 (Chip.pumpAll c m).pat.recovery (Chip.pumpAll c m).evc := by
  unfold Chip.pumpAll
  try dsimp only
  repeat' first
    | with_reducible assumption
    | with_reducible apply foldl_last
    | with_reducible apply foldlM_last
    | intro _
    | with_reducible apply Chip.pump_last
    | split
    | (dsimp only [Safety.quiet, Rst.record, id])
    | exact hgq

theorem Chip.takeTod_last (c : Chip) (m : Mem) (op n seq : Nat) (tod : List Byte) (hgq : Lasting q0 c.pat.recovery c.evc) :
    Lasting q0 (Chip.takeTod c m op n seq tod).pat.recovery (Chip.takeTod c m op n seq tod).evc := by
  unfold Chip.takeTod
  try dsimp only
  repeat' first
    | with_reducible assumption
    | with_reducible apply foldl_last
    | with_reducible apply foldlM_last
    | intro _
    | with_reducible apply Chip.updNeedle_last
    | with_reducible apply Chip.pump_last
    | split
    | (dsimp only [Safety.quiet, Rst.record, id])
    | exact hgq

theorem abortOps_last (n : Nat) (keep : OpRt → Bool) (c : Chip × Mem) (hgq : Lasting q0 c.1.pat.recovery c.1.evc) :
    Lasting q0 (abortOps n keep c).1.pat.recovery (abortOps n keep c).1.evc := by
  unfold abortOps
  try dsimp only
  repeat' first
    | with_reducible assumption
    | with_reducible apply foldl_last
    | with_reducible apply foldlM_last
    | intro _
    | with_reducible apply Chip.updNeedle_last
    | with_reducible apply Chip.wrote_last
    | split
    | (dsimp only [Safety.quiet, Rst.record, id])
    | exact hgq

theorem frogEntries_last (n : Nat) (ctxs : List Nat) (c : Chip × Mem) (hgq : Lasting q0 c.1.pat.recovery c.1.evc) :
    Lasting q0 (frogEntries n ctxs c).1.pat.recovery (frogEntries n ctxs c).1.evc := by
  unfold frogEntries
  try dsimp only
  repeat' first
    | with_reducible assumption
    | with_reducible apply foldl_last
    | with_reducible apply foldlM_last
    | intro _
    | with_reducible apply Chip.updNeedle_last
    | split
    | (dsimp only [Safety.quiet, Rst.record, id])
    | exact hgq

theorem Chip.dropChunks_last (c : Chip) (n : Nat) (gone : Nat → Bool) (hgq : Lasting q0 c.pat.recovery c.evc) :
    Lasting q0 (Chip.dropChunks c n gone).pat.recovery (Chip.dropChunks c n gone).evc := by
  unfold Chip.dropChunks
  try dsimp only
  repeat' first
    | with_reducible assumption
    | with_reducible apply foldl_last
    | with_reducible apply foldlM_last
    | intro _
    | split
    | (dsimp only [Safety.quiet, Rst.record, id])
    | exact hgq

theorem frogNeedle_last (n : Nat) (ctxs : List Nat) (c : Chip × Mem) (hgq : Lasting q0 c.1.pat.recovery c.1.evc) :
    Lasting q0 (frogNeedle n ctxs c).1.pat.recovery (frogNeedle n ctxs c).1.evc := by
  unfold frogNeedle
  try dsimp only
  repeat' first
    | with_reducible assumption
    | with_reducible apply foldl_last
    | with_reducible apply foldlM_last
    | intro _
    | with_reducible apply Chip.updNeedle_last
    | with_reducible apply abortOps_last
    | with_reducible apply frogEntries_last
    | with_reducible apply Chip.dropChunks_last
    | split
    | (dsimp only [Safety.quiet, Rst.record, id])
    | exact hgq

theorem frogNeedles_last (ctxs : List Nat) (c : Chip × Mem) (hgq : Lasting q0 c.1.pat.recovery c.1.evc) :
    Lasting q0 (frogNeedles ctxs c).1.pat.recovery (frogNeedles ctxs c).1.evc := by
  unfold frogNeedles
  try dsimp only
  repeat' first
    | with_reducible assumption
    | with_reducible apply foldl_last
    | with_reducible apply foldlM_last
    | intro _
    | with_reducible apply frogNeedle_last
    | split
    | (dsimp only [Safety.quiet, Rst.record, id])
    | exact hgq

theorem Chip.throttled_last (c : Chip) (o : OpRt) (w : Nat) (hgq : Lasting q0 c.pat.recovery c.evc) :
    Lasting q0 (Chip.throttled c o w).pat.recovery (Chip.throttled c o w).evc := by
  unfold Chip.throttled
  try dsimp only
  repeat' first
    | with_reducible assumption
    | with_reducible apply foldl_last
    | with_reducible apply foldlM_last
    | intro _
    | with_reducible apply Chip.updTicket_last
    | split
    | (dsimp only [Safety.quiet, Rst.record, id])
    | exact hgq

theorem completeOp_last (n : Nat) (o : OpRt) (e : OpEnd) (stalls withheld corrected : Nat) (c : Chip × Mem) (hgq : Lasting q0 c.1.pat.recovery c.1.evc) :
    Lasting q0 (completeOp n o e stalls withheld corrected c).1.pat.recovery (completeOp n o e stalls withheld corrected c).1.evc := by
  unfold completeOp
  try dsimp only
  repeat' first
    | with_reducible assumption
    | with_reducible apply foldl_last
    | with_reducible apply foldlM_last
    | intro _
    | with_reducible apply Chip.updNeedle_last
    | with_reducible apply Chip.signal_last
    | with_reducible apply Chip.signalMap_last
    | with_reducible apply Chip.wrote_last
    | with_reducible apply Chip.throttled_last
    | split
    | (dsimp only [Safety.quiet, Rst.record, id])
    | exact hgq

theorem Chip.runRead_last (c : Chip) (r : Range) (hgq : Lasting q0 c.pat.recovery c.evc) :
    Lasting q0 (Chip.runRead c r).pat.recovery (Chip.runRead c r).evc := by
  unfold Chip.runRead
  try dsimp only
  repeat' first
    | with_reducible assumption
    | with_reducible apply foldl_last
    | with_reducible apply foldlM_last
    | intro _
    | with_reducible apply Chip.hbmUe_last
    | split
    | (dsimp only [Safety.quiet, Rst.record, id])
    | exact hgq

theorem Chip.dmaComplete_last (c : Chip) (m : Mem) (n id : Nat) (hgq : Lasting q0 c.pat.recovery c.evc) :
    Lasting q0 (Chip.dmaComplete c m n id).pat.recovery (Chip.dmaComplete c m n id).evc := by
  unfold Chip.dmaComplete
  try dsimp only
  repeat' first
    | with_reducible assumption
    | with_reducible apply foldl_last
    | with_reducible apply foldlM_last
    | intro _
    | with_reducible apply Chip.updNeedle_last
    | with_reducible apply Chip.dmaTraffic_last
    | with_reducible apply Chip.pump_last
    | with_reducible apply Chip.runRead_last
    | split
    | (dsimp only [Safety.quiet, Rst.record, id])
    | exact hgq

theorem Chip.meetRates_last (c : Chip) (hgq : Lasting q0 c.pat.recovery c.evc) :
    Lasting q0 (Chip.meetRates c).pat.recovery (Chip.meetRates c).evc := by
  unfold Chip.meetRates
  try dsimp only
  repeat' first
    | with_reducible assumption
    | with_reducible apply foldl_last
    | with_reducible apply foldlM_last
    | intro _
    | split
    | (dsimp only [Safety.quiet, Rst.record, id])
    | exact hgq

/-! Cast -/

theorem Chip.holdMarkers_last (c : Chip) (t : Ticket) (id : Nat) (hgq : Lasting q0 c.pat.recovery c.evc) :
    Lasting q0 (Chip.holdMarkers c t id).pat.recovery (Chip.holdMarkers c t id).evc := by
  unfold Chip.holdMarkers
  try dsimp only
  repeat' first
    | with_reducible assumption
    | with_reducible apply foldl_last
    | with_reducible apply foldlM_last
    | intro _
    | split
    | (dsimp only [Safety.quiet, Rst.record, id])
    | exact hgq

theorem Chip.addAllowance_last (c : Chip) (p : Placed) (hgq : Lasting q0 c.pat.recovery c.evc) :
    Lasting q0 (Chip.addAllowance c p).pat.recovery (Chip.addAllowance c p).evc := by
  unfold Chip.addAllowance
  try dsimp only
  repeat' first
    | with_reducible assumption
    | with_reducible apply foldl_last
    | with_reducible apply foldlM_last
    | intro _
    | with_reducible apply Chip.updPanel_last
    | split
    | (dsimp only [Safety.quiet, Rst.record, id])
    | exact hgq

theorem Chip.dropAllowance_last (c : Chip) (p : Placed) (hgq : Lasting q0 c.pat.recovery c.evc) :
    Lasting q0 (Chip.dropAllowance c p).pat.recovery (Chip.dropAllowance c p).evc := by
  unfold Chip.dropAllowance
  try dsimp only
  repeat' first
    | with_reducible assumption
    | with_reducible apply foldl_last
    | with_reducible apply foldlM_last
    | intro _
    | with_reducible apply Chip.updPanel_last
    | split
    | (dsimp only [Safety.quiet, Rst.record, id])
    | exact hgq

theorem Chip.openTicket_last (c : Chip) (t : Ticket) (id : Nat) (hgq : Lasting q0 c.pat.recovery c.evc) :
    Lasting q0 (Chip.openTicket c t id).pat.recovery (Chip.openTicket c t id).evc := by
  unfold Chip.openTicket
  try dsimp only
  repeat' first
    | with_reducible assumption
    | with_reducible apply foldl_last
    | with_reducible apply foldlM_last
    | intro _
    | with_reducible apply Chip.reportLtr_last
    | with_reducible apply Chip.holdMarkers_last
    | with_reducible apply Chip.addAllowance_last
    | split
    | (dsimp only [Safety.quiet, Rst.record, id])
    | exact hgq

theorem Chip.answered_last (c : Chip) (fn reason : Nat) (hgq : Lasting q0 c.pat.recovery c.evc) :
    Lasting q0 (Chip.answered c fn reason).pat.recovery (Chip.answered c fn reason).evc := by
  unfold Chip.answered
  try dsimp only
  repeat' first
    | with_reducible assumption
    | with_reducible apply foldl_last
    | with_reducible apply foldlM_last
    | intro _
    | with_reducible apply Chip.edge_last
    | with_reducible apply Lasting.edge
    | split
    | (dsimp only [Safety.quiet, Rst.record, id])
    | exact hgq

theorem Chip.respWrite_last (c : Chip) (fn addr reason : Nat) (b : List Byte) (hgq : Lasting q0 c.pat.recovery c.evc) :
    Lasting q0 (Chip.respWrite c fn addr reason b).pat.recovery (Chip.respWrite c fn addr reason b).evc := by
  unfold Chip.respWrite
  try dsimp only
  repeat' first
    | with_reducible assumption
    | with_reducible apply foldl_last
    | with_reducible apply foldlM_last
    | intro _
    | with_reducible apply Chip.hostWrite_last
    | with_reducible apply Chip.answered_last
    | split
    | (dsimp only [Safety.quiet, Rst.record, id])
    | exact hgq

theorem Chip.respondAt_last (c : Chip) (fn resp tag module decided : Nat) (v : Verdict) (hgq : Lasting q0 c.pat.recovery c.evc) :
    Lasting q0 (Chip.respondAt c fn resp tag module decided v).pat.recovery (Chip.respondAt c fn resp tag module decided v).evc := by
  unfold Chip.respondAt
  try dsimp only
  repeat' first
    | with_reducible assumption
    | with_reducible apply foldl_last
    | with_reducible apply foldlM_last
    | intro _
    | with_reducible apply Chip.answered_last
    | with_reducible apply Chip.respWrite_last
    | split
    | (dsimp only [Safety.quiet, Rst.record, id])
    | exact hgq

theorem Chip.respond_last (c : Chip) (fn resp tag module : Nat) (v : Verdict) (hgq : Lasting q0 c.pat.recovery c.evc) :
    Lasting q0 (Chip.respond c fn resp tag module v).pat.recovery (Chip.respond c fn resp tag module v).evc := by
  unfold Chip.respond
  try dsimp only
  repeat' first
    | with_reducible assumption
    | with_reducible apply foldl_last
    | with_reducible apply foldlM_last
    | intro _
    | with_reducible apply Chip.respondAt_last
    | split
    | (dsimp only [Safety.quiet, Rst.record, id])
    | exact hgq

theorem Chip.respondRefused_last (c : Chip) (fn : Nat) (r : Req) (v : Verdict) (hgq : Lasting q0 c.pat.recovery c.evc) :
    Lasting q0 (Chip.respondRefused c fn r v).pat.recovery (Chip.respondRefused c fn r v).evc := by
  unfold Chip.respondRefused
  try dsimp only
  repeat' first
    | with_reducible assumption
    | with_reducible apply foldl_last
    | with_reducible apply foldlM_last
    | intro _
    | with_reducible apply Chip.respond_last
    | split
    | (dsimp only [Safety.quiet, Rst.record, id])
    | exact hgq

theorem Chip.castOn_last (c : Chip) (fn : Nat) (r : Req) (hgq : Lasting q0 c.pat.recovery c.evc) :
    Lasting q0 (Chip.castOn c fn r).pat.recovery (Chip.castOn c fn r).evc := by
  unfold Chip.castOn
  try dsimp only
  repeat' first
    | with_reducible assumption
    | with_reducible apply foldl_last
    | with_reducible apply foldlM_last
    | intro _
    | with_reducible apply Chip.openTicket_last
    | with_reducible apply Chip.respond_last
    | with_reducible apply Chip.respondRefused_last
    | split
    | (dsimp only [Safety.quiet, Rst.record, id])
    | exact hgq

theorem Chip.castRead_last (c : Chip) (fn : Nat) (d : HostRead) (hgq : Lasting q0 c.pat.recovery c.evc) :
    Lasting q0 (Chip.castRead c fn d).pat.recovery (Chip.castRead c fn d).evc := by
  unfold Chip.castRead
  try dsimp only
  repeat' first
    | with_reducible assumption
    | with_reducible apply foldl_last
    | with_reducible apply foldlM_last
    | intro _
    | split
    | (dsimp only [Safety.quiet, Rst.record, id])
    | exact hgq

/-! Reserve -/

theorem Chip.sendAnswer_last (c : Chip) (lead g reason : Nat) (hgq : Lasting q0 c.pat.recovery c.evc) :
    Lasting q0 (Chip.sendAnswer c lead g reason).pat.recovery (Chip.sendAnswer c lead g reason).evc := by
  unfold Chip.sendAnswer
  try dsimp only
  repeat' first
    | with_reducible assumption
    | with_reducible apply foldl_last
    | with_reducible apply foldlM_last
    | intro _
    | split
    | (dsimp only [Safety.quiet, Rst.record, id])
    | exact hgq

theorem Chip.holdPart_last (c : Chip) (g : Nat) (hop : Bool) (t : Ticket) (hgq : Lasting q0 c.pat.recovery c.evc) :
    Lasting q0 (Chip.holdPart c g hop t).pat.recovery (Chip.holdPart c g hop t).evc := by
  unfold Chip.holdPart
  try dsimp only
  repeat' first
    | with_reducible assumption
    | with_reducible apply foldl_last
    | with_reducible apply foldlM_last
    | intro _
    | with_reducible apply Chip.holdMarkers_last
    | split
    | (dsimp only [Safety.quiet, Rst.record, id])
    | exact hgq

theorem Chip.gReserve_last (c : Chip) (f : RFrame) (hgq : Lasting q0 c.pat.recovery c.evc) :
    Lasting q0 (Chip.gReserve c f).pat.recovery (Chip.gReserve c f).evc := by
  unfold Chip.gReserve
  try dsimp only
  repeat' first
    | with_reducible assumption
    | with_reducible apply foldl_last
    | with_reducible apply foldlM_last
    | intro _
    | with_reducible apply Chip.sendAnswer_last
    | with_reducible apply Chip.holdPart_last
    | split
    | (dsimp only [Safety.quiet, Rst.record, id])
    | exact hgq

theorem Chip.serve_last (l kept : List Ask) (c : Chip) (hgq : Lasting q0 c.pat.recovery c.evc) :
    Lasting q0 (Chip.serve l kept c).pat.recovery (Chip.serve l kept c).evc := by
  induction l generalizing kept c with
  | nil => exact hgq
  | cons a l ih =>
    cases a with
    | bell k =>
      unfold Chip.serve
      split
      · exact hgq
      · exact ih _ _ hgq
    | peer f => exact ih _ _ (Chip.gReserve_last _ _ hgq)

theorem Chip.nextAsk_last (c : Chip) (hgq : Lasting q0 c.pat.recovery c.evc) :
    Lasting q0 (Chip.nextAsk c).pat.recovery (Chip.nextAsk c).evc := by
  unfold Chip.nextAsk
  try dsimp only
  repeat' first
    | with_reducible assumption
    | with_reducible apply foldl_last
    | with_reducible apply foldlM_last
    | intro _
    | with_reducible apply Chip.serve_last
    | split
    | (dsimp only [Safety.quiet, Rst.record, id])
    | exact hgq

theorem Chip.reserveAsk_last (c : Chip) (f : RFrame) (hgq : Lasting q0 c.pat.recovery c.evc) :
    Lasting q0 (Chip.reserveAsk c f).pat.recovery (Chip.reserveAsk c f).evc := by
  unfold Chip.reserveAsk
  try dsimp only
  repeat' first
    | with_reducible assumption
    | with_reducible apply foldl_last
    | with_reducible apply foldlM_last
    | intro _
    | with_reducible apply Chip.nextAsk_last
    | split
    | (dsimp only [Safety.quiet, Rst.record, id])
    | exact hgq

theorem Chip.request_last (c : Chip) (fn : Nat) (d : HostRead) (f : Chip → Req → Chip) (hf : ∀ d k, Lasting q0 d.pat.recovery d.evc → Lasting q0 (f d k).pat.recovery (f d k).evc) (hgq : Lasting q0 c.pat.recovery c.evc) :
    Lasting q0 (Chip.request c fn d f).pat.recovery (Chip.request c fn d f).evc := by
  unfold Chip.request
  try dsimp only
  repeat' first
    | with_reducible assumption
    | with_reducible apply foldl_last
    | with_reducible apply foldlM_last
    | intro _
    | with_reducible apply Chip.castRead_last
    | with_reducible apply Chip.nextAsk_last
    | with_reducible apply hf
    | split
    | (dsimp only [Safety.quiet, Rst.record, id])
    | exact hgq

theorem requestM_last (fn : Nat) (d : HostRead) (f : Req → Chip × Mem → Chip × Mem) (c : Chip × Mem) (hf : ∀ k d, Lasting q0 d.1.pat.recovery d.1.evc → Lasting q0 (f k d).1.pat.recovery (f k d).1.evc) (hgq : Lasting q0 c.1.pat.recovery c.1.evc) :
    Lasting q0 (requestM fn d f c).1.pat.recovery (requestM fn d f c).1.evc := by
  unfold requestM
  try dsimp only
  repeat' first
    | with_reducible assumption
    | with_reducible apply foldl_last
    | with_reducible apply foldlM_last
    | intro _
    | with_reducible apply Chip.castRead_last
    | with_reducible apply Chip.nextAsk_last
    | with_reducible apply hf
    | split
    | (dsimp only [Safety.quiet, Rst.record, id])
    | exact hgq

/-! Stream -/

theorem Chip.giveBack_last (c : Chip) (t : Ticket) (n : Nat) (hgq : Lasting q0 c.pat.recovery c.evc) :
    Lasting q0 (Chip.giveBack c t n).pat.recovery (Chip.giveBack c t n).evc := by
  unfold Chip.giveBack
  try dsimp only
  repeat' first
    | with_reducible assumption
    | with_reducible apply foldl_last
    | with_reducible apply foldlM_last
    | intro _
    | split
    | (dsimp only [Safety.quiet, Rst.record, id])
    | exact hgq

theorem Chip.reTicket_last (c : Chip) (t u : Ticket) (hgq : Lasting q0 c.pat.recovery c.evc) :
    Lasting q0 (Chip.reTicket c t u).pat.recovery (Chip.reTicket c t u).evc := by
  unfold Chip.reTicket
  try dsimp only
  repeat' first
    | with_reducible assumption
    | with_reducible apply foldl_last
    | with_reducible apply foldlM_last
    | intro _
    | with_reducible apply Chip.updTicket_last
    | with_reducible apply Chip.giveBack_last
    | split
    | (dsimp only [Safety.quiet, Rst.record, id])
    | exact hgq

theorem Chip.arriveUnit_last (c : Chip) (t : Ticket) (ps : List UnitPart) (pts : Nat) (key : Bool) (p : PicInfo) (hgq : Lasting q0 c.pat.recovery c.evc) :
    Lasting q0 (Chip.arriveUnit c t ps pts key p).pat.recovery (Chip.arriveUnit c t ps pts key p).evc := by
  unfold Chip.arriveUnit
  try dsimp only
  repeat' first
    | with_reducible assumption
    | with_reducible apply foldl_last
    | with_reducible apply foldlM_last
    | intro _
    | with_reducible apply Chip.updTicket_last
    | with_reducible apply Chip.accept_last
    | with_reducible apply Chip.giveBack_last
    | split
    | (dsimp only [Safety.quiet, Rst.record, id])
    | exact hgq

theorem Chip.freeHanks_last (c : Chip) (t : Ticket) (hs : List Nat) (hgq : Lasting q0 c.pat.recovery c.evc) :
    Lasting q0 (Chip.freeHanks c t hs).pat.recovery (Chip.freeHanks c t hs).evc := by
  unfold Chip.freeHanks
  try dsimp only
  repeat' first
    | with_reducible assumption
    | with_reducible apply foldl_last
    | with_reducible apply foldlM_last
    | intro _
    | split
    | (dsimp only [Safety.quiet, Rst.record, id])
    | exact hgq

theorem Chip.uncode_last (c : Chip) (t : Ticket) (hgq : Lasting q0 c.pat.recovery c.evc) :
    Lasting q0 (Chip.uncode c t).pat.recovery (Chip.uncode c t).evc := by
  unfold Chip.uncode
  try dsimp only
  repeat' first
    | with_reducible assumption
    | with_reducible apply foldl_last
    | with_reducible apply foldlM_last
    | intro _
    | split
    | (dsimp only [Safety.quiet, Rst.record, id])
    | exact hgq

theorem Chip.voidFrame_last (c : Chip) (t : Ticket) (f : FrameRt) (stage reason : Nat) (shed : Bool) (hgq : Lasting q0 c.pat.recovery c.evc) :
    Lasting q0 (Chip.voidFrame c t f stage reason shed).pat.recovery (Chip.voidFrame c t f stage reason shed).evc := by
  unfold Chip.voidFrame
  try dsimp only
  repeat' first
    | with_reducible assumption
    | with_reducible apply foldl_last
    | with_reducible apply foldlM_last
    | intro _
    | with_reducible apply Chip.updTicket_last
    | with_reducible apply Chip.giveBack_last
    | with_reducible apply Chip.uncode_last
    | split
    | (dsimp only [Safety.quiet, Rst.record, id])
    | exact hgq

theorem Chip.passOne_last (c : Chip) (t : Ticket) (hgq : Lasting q0 c.pat.recovery c.evc) :
    ∀ d, c.passOne t = some d → Lasting q0 d.pat.recovery d.evc := by
  intro d hd
  obtain ⟨p, -, hp⟩ := List.exists_of_findSome?_eq_some hd
  split at hp
  · split at hp
    · injection hp with hp
      subst hp
      exact Chip.signalMap_last _ _ _ _ _ hgq
    · cases hp
  · cases hp

/-! Output -/

theorem Chip.countCqWait_last (c : Chip) (t : Ticket) (hgq : Lasting q0 c.pat.recovery c.evc) :
    Lasting q0 (Chip.countCqWait c t).pat.recovery (Chip.countCqWait c t).evc := by
  unfold Chip.countCqWait
  try dsimp only
  repeat' first
    | with_reducible assumption
    | with_reducible apply foldl_last
    | with_reducible apply foldlM_last
    | intro _
    | with_reducible apply Chip.updTicket_last
    | split
    | (dsimp only [Safety.quiet, Rst.record, id])
    | exact hgq

theorem Chip.cqCommit_last (c : Chip) (t : Ticket) (r : CqRec) (hgq : Lasting q0 c.pat.recovery c.evc) :
    Lasting q0 (Chip.cqCommit c t r).pat.recovery (Chip.cqCommit c t r).evc := by
  unfold Chip.cqCommit
  try dsimp only
  repeat' first
    | with_reducible assumption
    | with_reducible apply foldl_last
    | with_reducible apply foldlM_last
    | intro _
    | with_reducible apply Chip.cqPut_last
    | with_reducible apply Chip.cqWrite_last
    | split
    | (dsimp only [Safety.quiet, Rst.record, id])
    | exact hgq

theorem commitHost_last (t : Ticket) (kind : Nat) (payload : List Byte) (bytes source pts : Nat) (due : Option Nat) (c : Chip × Mem) (hgq : Lasting q0 c.1.pat.recovery c.1.evc) :
    Lasting q0 (commitHost t kind payload bytes source pts due c).1.pat.recovery (commitHost t kind payload bytes source pts due c).1.evc := by
  unfold commitHost
  try dsimp only
  repeat' first
    | with_reducible assumption
    | with_reducible apply foldl_last
    | with_reducible apply foldlM_last
    | intro _
    | with_reducible apply Chip.wrote_last
    | with_reducible apply Chip.cqCommit_last
    | split
    | (dsimp only [Safety.quiet, Rst.record, id])
    | exact hgq

theorem commitRound_last (t : Ticket) (dest arg : Nat) (video recs : List Byte) (out : Sent) (c : Chip × Mem) (hgq : Lasting q0 c.1.pat.recovery c.1.evc) :
    Lasting q0 (commitRound t dest arg video recs out c).1.pat.recovery (commitRound t dest arg video recs out c).1.evc := by
  unfold commitRound
  try dsimp only
  repeat' first
    | with_reducible assumption
    | with_reducible apply foldl_last
    | with_reducible apply foldlM_last
    | intro _
    | with_reducible apply Chip.wrote_last
    | split
    | (dsimp only [Safety.quiet, Rst.record, id])
    | exact hgq

theorem commitUnit_last (t : Ticket) (kind : Nat) (payload : List Byte) (bytes source pts : Nat) (due : Option Nat) (c : Chip × Mem) (hgq : Lasting q0 c.1.pat.recovery c.1.evc) :
    ∀ d, commitUnit t kind payload bytes source pts due c = some d → Lasting q0 d.1.pat.recovery d.1.evc := by
  intro d hd
  unfold commitUnit at hd
  try dsimp only at hd
  repeat' first
    | with_reducible assumption
    | (split at hd)
    | (simp only [Option.some.injEq, reduceCtorEq] at hd; subst hd; try dsimp only)
    | with_reducible apply foldl_last
    | with_reducible apply foldlM_last
    | intro _
    | with_reducible apply commitHost_last
    | split
    | (dsimp only [Safety.quiet, Rst.record, id])
    | (exact absurd hd (by simp))
    | exact hgq

theorem sendUnit_last (t : Ticket) (dest arg : Nat) (video recs : List Byte) (out : Sent) (c : Chip × Mem) (hgq : Lasting q0 c.1.pat.recovery c.1.evc) :
    ∀ d, sendUnit t dest arg video recs out c = some d → Lasting q0 d.1.pat.recovery d.1.evc := by
  intro d hd
  unfold sendUnit at hd
  try dsimp only at hd
  repeat' first
    | with_reducible assumption
    | (split at hd)
    | (simp only [Option.some.injEq, reduceCtorEq] at hd; subst hd; try dsimp only)
    | with_reducible apply foldl_last
    | with_reducible apply foldlM_last
    | intro _
    | with_reducible apply commitRound_last
    | split
    | (dsimp only [Safety.quiet, Rst.record, id])
    | (exact absurd hd (by simp))
    | exact hgq

theorem Chip.headDone_last (c : Chip) (t : Ticket) (n : Nat) (skip : Bool) (hgq : Lasting q0 c.pat.recovery c.evc) :
    Lasting q0 (Chip.headDone c t n skip).pat.recovery (Chip.headDone c t n skip).evc := by
  unfold Chip.headDone
  try dsimp only
  repeat' first
    | with_reducible assumption
    | with_reducible apply foldl_last
    | with_reducible apply foldlM_last
    | intro _
    | with_reducible apply Chip.updTicket_last
    | with_reducible apply Chip.giveBack_last
    | split
    | (dsimp only [Safety.quiet, Rst.record, id])
    | exact hgq

theorem Chip.recsDone_last (c : Chip) (t : Ticket) (hgq : Lasting q0 c.pat.recovery c.evc) :
    Lasting q0 (Chip.recsDone c t).pat.recovery (Chip.recsDone c t).evc := by
  unfold Chip.recsDone
  try dsimp only
  repeat' first
    | with_reducible assumption
    | with_reducible apply foldl_last
    | with_reducible apply foldlM_last
    | intro _
    | with_reducible apply Chip.updTicket_last
    | split
    | (dsimp only [Safety.quiet, Rst.record, id])
    | exact hgq

theorem Chip.skipDone_last (c : Chip) (t : Ticket) (hgq : Lasting q0 c.pat.recovery c.evc) :
    Lasting q0 (Chip.skipDone c t).pat.recovery (Chip.skipDone c t).evc := by
  unfold Chip.skipDone
  try dsimp only
  repeat' first
    | with_reducible assumption
    | with_reducible apply foldl_last
    | with_reducible apply foldlM_last
    | intro _
    | with_reducible apply Chip.updTicket_last
    | with_reducible apply Chip.freeHanks_last
    | split
    | (dsimp only [Safety.quiet, Rst.record, id])
    | exact hgq

theorem Chip.sentDone_last (c : Chip) (s : Sent) (hgq : Lasting q0 c.pat.recovery c.evc) :
    Lasting q0 (Chip.sentDone c s).pat.recovery (Chip.sentDone c s).evc := by
  unfold Chip.sentDone
  try dsimp only
  repeat' first
    | with_reducible assumption
    | with_reducible apply foldl_last
    | with_reducible apply foldlM_last
    | intro _
    | with_reducible apply Chip.updTicket_last
    | with_reducible apply Chip.headDone_last
    | with_reducible apply Chip.recsDone_last
    | with_reducible apply Chip.skipDone_last
    | split
    | (dsimp only [Safety.quiet, Rst.record, id])
    | exact hgq

theorem commitHead_last (t : Ticket) (c : Chip × Mem) (hgq : Lasting q0 c.1.pat.recovery c.1.evc) :
    ∀ d, commitHead t c = some d → Lasting q0 d.1.pat.recovery d.1.evc := by
  intro d hd
  unfold commitHead at hd
  dsimp only at hd
  repeat' first
    | (cases hd; done)
    | (obtain ⟨e, he, rfl⟩ := Option.map_eq_some_iff.1 hd
       first
        | exact sendUnit_last _ _ _ _ _ _ _ hgq e he
        | exact Chip.headDone_last _ _ _ _ (commitUnit_last _ _ _ _ _ _ _ _ hgq e he))
    | split at hd

theorem commitRecs_last (t : Ticket) (c : Chip × Mem) (hgq : Lasting q0 c.1.pat.recovery c.1.evc) :
    ∀ d, commitRecs t c = some d → Lasting q0 d.1.pat.recovery d.1.evc := by
  intro d hd
  unfold commitRecs at hd
  dsimp only at hd
  repeat' first
    | (cases hd; done)
    | (obtain ⟨e, he, rfl⟩ := Option.map_eq_some_iff.1 hd
       first
        | exact sendUnit_last _ _ _ _ _ _ _ hgq e he
        | exact Chip.recsDone_last _ _ (commitUnit_last _ _ _ _ _ _ _ _ hgq e he))
    | split at hd

theorem commitSkip_last (t : Ticket) (c : Chip × Mem) (hgq : Lasting q0 c.1.pat.recovery c.1.evc) :
    ∀ d, commitSkip t c = some d → Lasting q0 d.1.pat.recovery d.1.evc := by
  intro d hd
  unfold commitSkip at hd
  dsimp only at hd
  repeat' first
    | (cases hd; done)
    | (obtain ⟨e, he, rfl⟩ := Option.map_eq_some_iff.1 hd
       first
        | exact sendUnit_last _ _ _ _ _ _ _ hgq e he
        | exact Chip.skipDone_last _ _ (commitUnit_last _ _ _ _ _ _ _ _ hgq e he))
    | split at hd

theorem flush_last (ticket k : Nat) (c : Chip × Mem) (hgq : Lasting q0 c.1.pat.recovery c.1.evc) :
    Lasting q0 (flush ticket k c).1.pat.recovery (flush ticket k c).1.evc := by
  induction k generalizing c with
  | zero => exact hgq
  | succ k ih =>
    unfold flush
    split
    · exact hgq
    · split
      · exact ih _ (commitRecs_last _ _ hgq _ (by assumption))
      · split
        · exact ih _ (commitHead_last _ _ hgq _ (by assumption))
        · split
          · exact hgq
          · exact Chip.countCqWait_last _ _ hgq

theorem Chip.clearParts_last (c : Chip) (t : Ticket) (hgq : Lasting q0 c.pat.recovery c.evc) :
    Lasting q0 (Chip.clearParts c t).pat.recovery (Chip.clearParts c t).evc := by
  unfold Chip.clearParts
  try dsimp only
  repeat' first
    | with_reducible assumption
    | with_reducible apply foldl_last
    | with_reducible apply foldlM_last
    | intro _
    | split
    | (dsimp only [Safety.quiet, Rst.record, id])
    | exact hgq

theorem Chip.reap_last (c : Chip) (ticket : Nat) (hgq : Lasting q0 c.pat.recovery c.evc) :
    Lasting q0 (Chip.reap c ticket).pat.recovery (Chip.reap c ticket).evc := by
  unfold Chip.reap
  try dsimp only
  repeat' first
    | with_reducible assumption
    | with_reducible apply foldl_last
    | with_reducible apply foldlM_last
    | intro _
    | with_reducible apply Chip.updTicket_last
    | with_reducible apply Chip.freeHanks_last
    | with_reducible apply Chip.clearParts_last
    | split
    | (dsimp only [Safety.quiet, Rst.record, id])
    | exact hgq

/-! Adapt -/

theorem Chip.startSample_last (c : Chip) (m : Mem) (ticket : Nat) (hgq : Lasting q0 c.pat.recovery c.evc) :
    Lasting q0 (Chip.startSample c m ticket).pat.recovery (Chip.startSample c m ticket).evc := by
  unfold Chip.startSample
  try dsimp only
  repeat' first
    | with_reducible assumption
    | with_reducible apply foldl_last
    | with_reducible apply foldlM_last
    | intro _
    | with_reducible apply Chip.updTicket_last
    | split
    | (dsimp only [Safety.quiet, Rst.record, id])
    | exact hgq

theorem Chip.cacheSample_last (c : Chip) (t : Ticket) (cap : Nat) (s : Sample) (hs : List Nat) (hgq : Lasting q0 c.pat.recovery c.evc) :
    Lasting q0 (Chip.cacheSample c t cap s hs).pat.recovery (Chip.cacheSample c t cap s hs).evc := by
  unfold Chip.cacheSample
  try dsimp only
  repeat' first
    | with_reducible assumption
    | with_reducible apply foldl_last
    | with_reducible apply foldlM_last
    | intro _
    | with_reducible apply Chip.updTicket_last
    | with_reducible apply Chip.freeHanks_last
    | split
    | (dsimp only [Safety.quiet, Rst.record, id])
    | exact hgq

theorem Chip.sampleDropped_last (c : Chip) (ticket sample : Nat) (hgq : Lasting q0 c.pat.recovery c.evc) :
    Lasting q0 (Chip.sampleDropped c ticket sample).pat.recovery (Chip.sampleDropped c ticket sample).evc := by
  unfold Chip.sampleDropped
  try dsimp only
  repeat' first
    | with_reducible assumption
    | with_reducible apply foldl_last
    | with_reducible apply foldlM_last
    | intro _
    | with_reducible apply Chip.advance_last
    | with_reducible apply Chip.reTicket_last
    | split
    | (dsimp only [Safety.quiet, Rst.record, id])
    | exact hgq

theorem Chip.copyHanks_last (c : Chip) (t : Ticket) (hgq : Lasting q0 c.pat.recovery c.evc) :
    Lasting q0 (Chip.copyHanks c t).pat.recovery (Chip.copyHanks c t).evc := by
  unfold Chip.copyHanks
  try dsimp only
  repeat' first
    | with_reducible assumption
    | with_reducible apply foldl_last
    | with_reducible apply foldlM_last
    | intro _
    | with_reducible apply Chip.updTicket_last
    | split
    | (dsimp only [Safety.quiet, Rst.record, id])
    | exact hgq

theorem writeCopies_last (ticket : Nat) (c : Chip × Mem) (hgq : Lasting q0 c.1.pat.recovery c.1.evc) :
    Lasting q0 (writeCopies ticket c).1.pat.recovery (writeCopies ticket c).1.evc := by
  unfold writeCopies
  try dsimp only
  repeat' first
    | with_reducible assumption
    | with_reducible apply foldl_last
    | with_reducible apply foldlM_last
    | intro _
    | with_reducible apply Chip.wrote_last
    | with_reducible apply Chip.copyHanks_last
    | split
    | (dsimp only [Safety.quiet, Rst.record, id])
    | exact hgq

theorem optimiser_last (ticket loss : Nat) (finite : Bool) (master : List (List Word)) (c : Chip × Mem) (hgq : Lasting q0 c.1.pat.recovery c.1.evc) :
    Lasting q0 (optimiser ticket loss finite master c).1.pat.recovery (optimiser ticket loss finite master c).1.evc := by
  unfold optimiser
  try dsimp only
  repeat' first
    | with_reducible assumption
    | with_reducible apply foldl_last
    | with_reducible apply foldlM_last
    | intro _
    | with_reducible apply Chip.reTicket_last
    | with_reducible apply writeCopies_last
    | split
    | (dsimp only [Safety.quiet, Rst.record, id])
    | exact hgq

/-! Track -/

theorem Chip.associated_last (c : Chip) (ticket source : Nat) (cands : List Candidate) (hgq : Lasting q0 c.pat.recovery c.evc) :
    Lasting q0 (Chip.associated c ticket source cands).pat.recovery (Chip.associated c ticket source cands).evc := by
  unfold Chip.associated
  try dsimp only
  repeat' first
    | with_reducible assumption
    | with_reducible apply foldl_last
    | with_reducible apply foldlM_last
    | intro _
    | with_reducible apply Chip.reTicket_last
    | split
    | (dsimp only [Safety.quiet, Rst.record, id])
    | exact hgq

/-! Venc -/

theorem Chip.startLane_last (c : Chip) (core : Nat) (j : Job) (hgq : Lasting q0 c.pat.recovery c.evc) :
    Lasting q0 (Chip.startLane c core j).pat.recovery (Chip.startLane c core j).evc := by
  unfold Chip.startLane
  try dsimp only
  repeat' first
    | with_reducible assumption
    | with_reducible apply foldl_last
    | with_reducible apply foldlM_last
    | intro _
    | split
    | (dsimp only [Safety.quiet, Rst.record, id])
    | exact hgq

theorem Chip.placeLanes_last (c : Chip) (p : Nat) (js : List Job) (hgq : Lasting q0 c.pat.recovery c.evc) :
    Lasting q0 (Chip.placeLanes c p js).pat.recovery (Chip.placeLanes c p js).evc := by
  unfold Chip.placeLanes
  try dsimp only
  repeat' first
    | with_reducible assumption
    | with_reducible apply foldl_last
    | with_reducible apply foldlM_last
    | intro _
    | with_reducible apply Chip.startLane_last
    | split
    | (dsimp only [Safety.quiet, Rst.record, id])
    | exact hgq

theorem Chip.laneStart_last (c : Chip) (core : Nat) (hgq : Lasting q0 c.pat.recovery c.evc) :
    Lasting q0 (Chip.laneStart c core).pat.recovery (Chip.laneStart c core).evc := by
  unfold Chip.laneStart
  try dsimp only
  repeat' first
    | with_reducible assumption
    | with_reducible apply foldl_last
    | with_reducible apply foldlM_last
    | intro _
    | with_reducible apply Chip.startLane_last
    | split
    | (dsimp only [Safety.quiet, Rst.record, id])
    | exact hgq

theorem Chip.encSegment_last (c : Chip) (core : Nat) (hgq : Lasting q0 c.pat.recovery c.evc) :
    Lasting q0 (Chip.encSegment c core).pat.recovery (Chip.encSegment c core).evc := by
  unfold Chip.encSegment
  try dsimp only
  repeat' first
    | with_reducible assumption
    | with_reducible apply foldl_last
    | with_reducible apply foldlM_last
    | intro _
    | with_reducible apply Chip.startLane_last
    | split
    | (dsimp only [Safety.quiet, Rst.record, id])
    | exact hgq

theorem Chip.encodeOut_last (c : Chip) (t : Ticket) (sd : StreamDef) (p : Placed) (o : Out) (hgq : Lasting q0 c.pat.recovery c.evc) :
    Lasting q0 (Chip.encodeOut c t sd p o).pat.recovery (Chip.encodeOut c t sd p o).evc := by
  unfold Chip.encodeOut
  try dsimp only
  repeat' first
    | with_reducible assumption
    | with_reducible apply foldl_last
    | with_reducible apply foldlM_last
    | intro _
    | with_reducible apply Chip.updTicket_last
    | with_reducible apply Chip.placeLanes_last
    | split
    | (dsimp only [Safety.quiet, Rst.record, id])
    | exact hgq

theorem Chip.encodeNext_last (c : Chip) (ticket : Nat) (hgq : Lasting q0 c.pat.recovery c.evc) :
    Lasting q0 (Chip.encodeNext c ticket).pat.recovery (Chip.encodeNext c ticket).evc := by
  unfold Chip.encodeNext
  try dsimp only
  repeat' first
    | with_reducible assumption
    | with_reducible apply foldl_last
    | with_reducible apply foldlM_last
    | intro _
    | with_reducible apply Chip.updTicket_last
    | with_reducible apply Chip.encodeOut_last
    | split
    | (dsimp only [Safety.quiet, Rst.record, id])
    | exact hgq

theorem Chip.encodeFault_last (c : Chip) (core : Nat) (t : Ticket) (j : Job) (hgq : Lasting q0 c.pat.recovery c.evc) :
    Lasting q0 (Chip.encodeFault c core t j).pat.recovery (Chip.encodeFault c core t j).evc := by
  unfold Chip.encodeFault
  try dsimp only
  repeat' first
    | with_reducible assumption
    | with_reducible apply foldl_last
    | with_reducible apply foldlM_last
    | intro _
    | with_reducible apply Chip.updTicket_last
    | with_reducible apply Chip.incident_last
    | with_reducible apply Chip.hbmUe_last
    | split
    | (dsimp only [Safety.quiet, Rst.record, id])
    | exact hgq

theorem encoded_last (t : Ticket) (sd : StreamDef) (o : Out) (c : Chip × Mem) (hgq : Lasting q0 c.1.pat.recovery c.1.evc) :
    Lasting q0 (encoded t sd o c).1.pat.recovery (encoded t sd o c).1.evc := by
  unfold encoded
  try dsimp only
  repeat' first
    | with_reducible assumption
    | with_reducible apply foldl_last
    | with_reducible apply foldlM_last
    | intro _
    | with_reducible apply Chip.updTicket_last
    | with_reducible apply Chip.wrote_last
    | split
    | (dsimp only [Safety.quiet, Rst.record, id])
    | exact hgq

theorem Chip.dropLanes_last (c : Chip) (j : Job) (hgq : Lasting q0 c.pat.recovery c.evc) :
    Lasting q0 (Chip.dropLanes c j).pat.recovery (Chip.dropLanes c j).evc := by
  unfold Chip.dropLanes
  try dsimp only
  repeat' first
    | with_reducible assumption
    | with_reducible apply foldl_last
    | with_reducible apply foldlM_last
    | intro _
    | split
    | (dsimp only [Safety.quiet, Rst.record, id])
    | exact hgq

theorem Chip.encTraffic_last (c : Chip) (core : Nat) (t : Ticket) (sd : StreamDef) (j : Job) (hgq : Lasting q0 c.pat.recovery c.evc) :
    Lasting q0 (Chip.encTraffic c core t sd j).pat.recovery (Chip.encTraffic c core t sd j).evc := by
  unfold Chip.encTraffic
  try dsimp only
  repeat' first
    | with_reducible assumption
    | with_reducible apply foldl_last
    | with_reducible apply foldlM_last
    | intro _
    | with_reducible apply Chip.charge_last
    | split
    | (dsimp only [Safety.quiet, Rst.record, id])
    | exact hgq

theorem Chip.encodeFree_last (c : Chip) (core : Nat) (j : Job) (hgq : Lasting q0 c.pat.recovery c.evc) :
    Lasting q0 (Chip.encodeFree c core j).pat.recovery (Chip.encodeFree c core j).evc := by
  unfold Chip.encodeFree
  try dsimp only
  repeat' first
    | with_reducible assumption
    | with_reducible apply foldl_last
    | with_reducible apply foldlM_last
    | intro _
    | split
    | (dsimp only [Safety.quiet, Rst.record, id])
    | exact hgq

theorem codedEnd_last (core : Nat) (t : Ticket) (sd : StreamDef) (j : Job) (poisoned : Bool) (c : Chip × Mem) (hgq : Lasting q0 c.1.pat.recovery c.1.evc) :
    Lasting q0 (codedEnd core t sd j poisoned c).1.pat.recovery (codedEnd core t sd j poisoned c).1.evc := by
  unfold codedEnd
  try dsimp only
  repeat' first
    | with_reducible assumption
    | with_reducible apply foldl_last
    | with_reducible apply foldlM_last
    | intro _
    | with_reducible apply Chip.encodeFault_last
    | with_reducible apply encoded_last
    | with_reducible apply Chip.dropLanes_last
    | split
    | (dsimp only [Safety.quiet, Rst.record, id])
    | exact hgq

theorem encodeComplete_last (core : Nat) (poisoned : Bool) (c : Chip × Mem) (hgq : Lasting q0 c.1.pat.recovery c.1.evc) :
    Lasting q0 (encodeComplete core poisoned c).1.pat.recovery (encodeComplete core poisoned c).1.evc := by
  unfold encodeComplete
  try dsimp only
  repeat' first
    | with_reducible assumption
    | with_reducible apply foldl_last
    | with_reducible apply foldlM_last
    | intro _
    | with_reducible apply Chip.encTraffic_last
    | with_reducible apply Chip.encodeFree_last
    | with_reducible apply codedEnd_last
    | split
    | (dsimp only [Safety.quiet, Rst.record, id])
    | exact hgq

/-! Vdec -/

theorem Chip.startDec_last (c : Chip) (core : Nat) (j : Job) (hgq : Lasting q0 c.pat.recovery c.evc) :
    Lasting q0 (Chip.startDec c core j).pat.recovery (Chip.startDec c core j).evc := by
  unfold Chip.startDec
  try dsimp only
  repeat' first
    | with_reducible assumption
    | with_reducible apply foldl_last
    | with_reducible apply foldlM_last
    | intro _
    | split
    | (dsimp only [Safety.quiet, Rst.record, id])
    | exact hgq

theorem Chip.fillDec_last (c : Chip) (core : Nat) (hgq : Lasting q0 c.pat.recovery c.evc) :
    Lasting q0 (Chip.fillDec c core).pat.recovery (Chip.fillDec c core).evc := by
  unfold Chip.fillDec
  try dsimp only
  repeat' first
    | with_reducible assumption
    | with_reducible apply foldl_last
    | with_reducible apply foldlM_last
    | intro _
    | with_reducible apply Chip.startDec_last
    | split
    | (dsimp only [Safety.quiet, Rst.record, id])
    | exact hgq

theorem Chip.fillPanel_last (c : Chip) (p : Nat) (hgq : Lasting q0 c.pat.recovery c.evc) :
    Lasting q0 (Chip.fillPanel c p).pat.recovery (Chip.fillPanel c p).evc := by
  unfold Chip.fillPanel
  try dsimp only
  repeat' first
    | with_reducible assumption
    | with_reducible apply foldl_last
    | with_reducible apply foldlM_last
    | intro _
    | with_reducible apply Chip.fillDec_last
    | split
    | (dsimp only [Safety.quiet, Rst.record, id])
    | exact hgq

theorem Chip.decSegment_last (c : Chip) (core : Nat) (hgq : Lasting q0 c.pat.recovery c.evc) :
    Lasting q0 (Chip.decSegment c core).pat.recovery (Chip.decSegment c core).evc := by
  unfold Chip.decSegment
  try dsimp only
  repeat' first
    | with_reducible assumption
    | with_reducible apply foldl_last
    | with_reducible apply foldlM_last
    | intro _
    | with_reducible apply Chip.startDec_last
    | with_reducible apply Chip.fillDec_last
    | split
    | (dsimp only [Safety.quiet, Rst.record, id])
    | exact hgq

theorem Chip.handOn_last (c : Chip) (t : Ticket) (hgq : Lasting q0 c.pat.recovery c.evc) :
    Lasting q0 (Chip.handOn c t).pat.recovery (Chip.handOn c t).evc := by
  unfold Chip.handOn
  try dsimp only
  repeat' first
    | with_reducible assumption
    | with_reducible apply foldl_last
    | with_reducible apply foldlM_last
    | intro _
    | with_reducible apply Chip.updTicket_last
    | with_reducible apply Chip.signalMap_last
    | split
    | (dsimp only [Safety.quiet, Rst.record, id])
    | exact hgq

theorem Chip.decodeNext_last (c : Chip) (ticket : Nat) (hgq : Lasting q0 c.pat.recovery c.evc) :
    Lasting q0 (Chip.decodeNext c ticket).pat.recovery (Chip.decodeNext c ticket).evc := by
  unfold Chip.decodeNext
  try dsimp only
  repeat' first
    | with_reducible assumption
    | with_reducible apply foldl_last
    | with_reducible apply foldlM_last
    | intro _
    | with_reducible apply Chip.updTicket_last
    | with_reducible apply Chip.fillPanel_last
    | with_reducible apply Chip.handOn_last
    | split
    | (dsimp only [Safety.quiet, Rst.record, id])
    | exact hgq

theorem Chip.decodeSample_last (c : Chip) (t : Ticket) (s : Sample) (hgq : Lasting q0 c.pat.recovery c.evc) :
    Lasting q0 (Chip.decodeSample c t s).pat.recovery (Chip.decodeSample c t s).evc := by
  unfold Chip.decodeSample
  try dsimp only
  repeat' first
    | with_reducible assumption
    | with_reducible apply foldl_last
    | with_reducible apply foldlM_last
    | intro _
    | with_reducible apply Chip.fillPanel_last
    | split
    | (dsimp only [Safety.quiet, Rst.record, id])
    | exact hgq

theorem writeFields_last (t : Ticket) (sd : StreamDef) (p : Placed) (f : FrameRt) (r : Decoded) (c : Chip × Mem) (hgq : Lasting q0 c.1.pat.recovery c.1.evc) :
    Lasting q0 (writeFields t sd p f r c).1.pat.recovery (writeFields t sd p f r c).1.evc := by
  unfold writeFields
  try dsimp only
  repeat' first
    | with_reducible assumption
    | with_reducible apply foldl_last
    | with_reducible apply foldlM_last
    | intro _
    | with_reducible apply Chip.panelWrite_last
    | split
    | (dsimp only [Safety.quiet, Rst.record, id])
    | exact hgq

theorem Chip.hold_last (c : Chip) (t : Ticket) (ctx n : Nat) (hgq : Lasting q0 c.pat.recovery c.evc) :
    Lasting q0 (c.hold t ctx n).1.pat.recovery (c.hold t ctx n).1.evc := by
  unfold Chip.hold
  split <;> exact hgq

theorem finishPicture_last (t : Ticket) (sd : StreamDef) (p : Placed) (f : FrameRt) (c : Chip × Mem) (hgq : Lasting q0 c.1.pat.recovery c.1.evc) :
    ∀ d, finishPicture t sd p f c = some d → Lasting q0 d.1.pat.recovery d.1.evc := by
  intro d hd
  unfold finishPicture at hd
  try dsimp only at hd
  repeat' first
    | with_reducible assumption
    | (split at hd)
    | (simp only [Option.some.injEq, reduceCtorEq] at hd; subst hd; try dsimp only)
    | with_reducible apply foldl_last
    | with_reducible apply foldlM_last
    | intro _
    | with_reducible apply Chip.updTicket_last
    | with_reducible apply Chip.signalMap_last
    | with_reducible apply Chip.wrote_last
    | with_reducible apply Chip.hbmRead_last
    | with_reducible apply Chip.freeHanks_last
    | with_reducible apply writeFields_last
    | with_reducible apply Chip.hold_last
    | split
    | (dsimp only [Safety.quiet, Rst.record, id])
    | (exact absurd hd (by simp))
    | exact hgq

theorem Chip.pictureFault_last (c : Chip) (core : Nat) (t : Ticket) (p : Placed) (f : FrameRt) (hgq : Lasting q0 c.pat.recovery c.evc) :
    Lasting q0 (Chip.pictureFault c core t p f).pat.recovery (Chip.pictureFault c core t p f).evc := by
  unfold Chip.pictureFault
  try dsimp only
  repeat' first
    | with_reducible assumption
    | with_reducible apply foldl_last
    | with_reducible apply foldlM_last
    | intro _
    | with_reducible apply Chip.updTicket_last
    | with_reducible apply Chip.incident_last
    | with_reducible apply Chip.hbmUe_last
    | with_reducible apply Chip.freeHanks_last
    | with_reducible apply Chip.voidFrame_last
    | split
    | (dsimp only [Safety.quiet, Rst.record, id])
    | exact hgq

theorem finishSample_last (t : Ticket) (sd : StreamDef) (s : Sample) (c : Chip × Mem) (hgq : Lasting q0 c.1.pat.recovery c.1.evc) :
    ∀ d, finishSample t sd s c = some d → Lasting q0 d.1.pat.recovery d.1.evc := by
  intro d hd
  unfold finishSample at hd
  try dsimp only at hd
  repeat' first
    | with_reducible assumption
    | (split at hd)
    | (simp only [Option.some.injEq, reduceCtorEq] at hd; subst hd; try dsimp only)
    | with_reducible apply foldl_last
    | with_reducible apply foldlM_last
    | intro _
    | with_reducible apply Chip.wrote_last
    | with_reducible apply Chip.startSample_last
    | with_reducible apply Chip.cacheSample_last
    | split
    | (dsimp only [Safety.quiet, Rst.record, id])
    | (exact absurd hd (by simp))
    | exact hgq

theorem Chip.decodeFree_last (c : Chip) (core : Nat) (j : Job) (hgq : Lasting q0 c.pat.recovery c.evc) :
    Lasting q0 (Chip.decodeFree c core j).pat.recovery (Chip.decodeFree c core j).evc := by
  unfold Chip.decodeFree
  try dsimp only
  repeat' first
    | with_reducible assumption
    | with_reducible apply foldl_last
    | with_reducible apply foldlM_last
    | intro _
    | with_reducible apply Chip.fillDec_last
    | split
    | (dsimp only [Safety.quiet, Rst.record, id])
    | exact hgq

theorem Chip.decTraffic_last (c : Chip) (core : Nat) (j : Job) (hgq : Lasting q0 c.pat.recovery c.evc) :
    Lasting q0 (Chip.decTraffic c core j).pat.recovery (Chip.decTraffic c core j).evc := by
  unfold Chip.decTraffic
  try dsimp only
  repeat' first
    | with_reducible assumption
    | with_reducible apply foldl_last
    | with_reducible apply foldlM_last
    | intro _
    | with_reducible apply Chip.charge_last
    | split
    | (dsimp only [Safety.quiet, Rst.record, id])
    | exact hgq

theorem pictureEnd_last (core : Nat) (j : Job) (poisoned : Bool) (c : Chip × Mem) (hgq : Lasting q0 c.1.pat.recovery c.1.evc) :
    ∀ d, pictureEnd core j poisoned c = some d → Lasting q0 d.1.pat.recovery d.1.evc := by
  intro d hd
  unfold pictureEnd at hd
  try dsimp only at hd
  repeat' first
    | with_reducible assumption
    | (split at hd)
    | (simp only [Option.some.injEq, reduceCtorEq] at hd; subst hd; try dsimp only)
    | with_reducible apply foldl_last
    | with_reducible apply foldlM_last
    | intro _
    | with_reducible apply Chip.reTicket_last
    | with_reducible apply Chip.dropLanes_last
    | (with_reducible refine finishPicture_last _ _ _ _ _ ?_ _ (by assumption))
    | with_reducible apply Chip.pictureFault_last
    | (with_reducible refine finishSample_last _ _ _ _ ?_ _ (by assumption))
    | split
    | (dsimp only [Safety.quiet, Rst.record, id])
    | (exact absurd hd (by simp))
    | exact hgq

theorem Chip.noteFieldWait_last (c : Chip) (j : Job) (hgq : Lasting q0 c.pat.recovery c.evc) :
    Lasting q0 (Chip.noteFieldWait c j).pat.recovery (Chip.noteFieldWait c j).evc := by
  unfold Chip.noteFieldWait
  try dsimp only
  repeat' first
    | with_reducible assumption
    | with_reducible apply foldl_last
    | with_reducible apply foldlM_last
    | intro _
    | with_reducible apply Chip.updTicket_last
    | split
    | (dsimp only [Safety.quiet, Rst.record, id])
    | exact hgq

theorem Chip.shedFrame_last (c : Chip) (t : Ticket) (f : FrameRt) (hgq : Lasting q0 c.pat.recovery c.evc) :
    Lasting q0 (Chip.shedFrame c t f).pat.recovery (Chip.shedFrame c t f).evc := by
  unfold Chip.shedFrame
  try dsimp only
  repeat' first
    | with_reducible assumption
    | with_reducible apply foldl_last
    | with_reducible apply foldlM_last
    | intro _
    | with_reducible apply Chip.updTicket_last
    | with_reducible apply Chip.voidFrame_last
    | split
    | (dsimp only [Safety.quiet, Rst.record, id])
    | exact hgq

theorem Chip.shedding_last (c : Chip) (ticket : Nat) (hgq : Lasting q0 c.pat.recovery c.evc) :
    Lasting q0 (Chip.shedding c ticket).pat.recovery (Chip.shedding c ticket).evc := by
  unfold Chip.shedding
  try dsimp only
  repeat' first
    | with_reducible assumption
    | with_reducible apply foldl_last
    | with_reducible apply foldlM_last
    | intro _
    | with_reducible apply Chip.shedFrame_last
    | split
    | (dsimp only [Safety.quiet, Rst.record, id])
    | exact hgq

theorem passThrough_last (t : Ticket) (p : Placed) (f : FrameRt) (n : Nat) (c : Chip × Mem) (hgq : Lasting q0 c.1.pat.recovery c.1.evc) :
    Lasting q0 (passThrough t p f n c).1.pat.recovery (passThrough t p f n c).1.evc := by
  unfold passThrough
  try dsimp only
  repeat' first
    | with_reducible assumption
    | with_reducible apply foldl_last
    | with_reducible apply foldlM_last
    | intro _
    | with_reducible apply Chip.updTicket_last
    | with_reducible apply Chip.signalMap_last
    | with_reducible apply Chip.wrote_last
    | split
    | (dsimp only [Safety.quiet, Rst.record, id])
    | exact hgq

theorem settle_last (ticket k : Nat) (c : Chip × Mem) (hgq : Lasting q0 c.1.pat.recovery c.1.evc) :
    Lasting q0 (settle ticket k c).1.pat.recovery (settle ticket k c).1.evc := by
  induction k generalizing c with
  | zero => exact hgq
  | succ k ih =>
    unfold settle
    split
    · exact hgq
    · split
      · exact ih _ (Chip.passOne_last _ _ hgq _ (by assumption))
      · split
        · exact hgq
        · exact ih _ (passThrough_last _ _ _ _ _ hgq)

theorem Chip.shareMade_last (c : Chip) (ticket : Nat) (hgq : Lasting q0 c.pat.recovery c.evc) :
    Lasting q0 (Chip.shareMade c ticket).pat.recovery (Chip.shareMade c ticket).evc := by
  unfold Chip.shareMade
  try dsimp only
  repeat' first
    | with_reducible assumption
    | with_reducible apply foldl_last
    | with_reducible apply foldlM_last
    | intro _
    | split
    | (dsimp only [Safety.quiet, Rst.record, id])
    | exact hgq

theorem Chip.noteOut_last (c : Chip) (ticket : Nat) (hgq : Lasting q0 c.pat.recovery c.evc) :
    Lasting q0 (Chip.noteOut c ticket).pat.recovery (Chip.noteOut c ticket).evc := by
  unfold Chip.noteOut
  try dsimp only
  repeat' first
    | with_reducible assumption
    | with_reducible apply foldl_last
    | with_reducible apply foldlM_last
    | intro _
    | with_reducible apply Chip.updTicket_last
    | split
    | (dsimp only [Safety.quiet, Rst.record, id])
    | exact hgq

theorem progress_last (ticket : Nat) (c : Chip × Mem) (hgq : Lasting q0 c.1.pat.recovery c.1.evc) :
    Lasting q0 (progress ticket c).1.pat.recovery (progress ticket c).1.evc := by
  unfold progress
  try dsimp only
  repeat' first
    | with_reducible assumption
    | with_reducible apply foldl_last
    | with_reducible apply foldlM_last
    | intro _
    | with_reducible apply Chip.pumpAll_last
    | with_reducible apply flush_last
    | with_reducible apply Chip.reap_last
    | with_reducible apply Chip.encodeNext_last
    | with_reducible apply Chip.decodeNext_last
    | with_reducible apply Chip.shedding_last
    | with_reducible apply settle_last
    | with_reducible apply Chip.shareMade_last
    | with_reducible apply Chip.noteOut_last
    | with_reducible apply Lasting.flush
    | split
    | (dsimp only [Safety.quiet, Rst.record, id])
    | exact hgq

theorem progressAll_last (tickets : List Nat) (c : Chip × Mem) (hgq : Lasting q0 c.1.pat.recovery c.1.evc) :
    Lasting q0 (progressAll tickets c).1.pat.recovery (progressAll tickets c).1.evc := by
  unfold progressAll
  try dsimp only
  repeat' first
    | with_reducible assumption
    | with_reducible apply foldl_last
    | with_reducible apply foldlM_last
    | intro _
    | with_reducible apply progress_last
    | split
    | (dsimp only [Safety.quiet, Rst.record, id])
    | exact hgq

theorem decodeComplete_last (core : Nat) (poisoned : Bool) (c : Chip × Mem) (hgq : Lasting q0 c.1.pat.recovery c.1.evc) :
    Lasting q0 (decodeComplete core poisoned c).1.pat.recovery (decodeComplete core poisoned c).1.evc := by
  unfold decodeComplete
  try dsimp only
  repeat' first
    | with_reducible assumption
    | with_reducible apply foldl_last
    | with_reducible apply foldlM_last
    | intro _
    | with_reducible apply Chip.decodeFree_last
    | with_reducible apply Chip.decTraffic_last
    | (with_reducible refine pictureEnd_last _ _ _ _ ?_ _ (by assumption))
    | with_reducible apply Chip.noteFieldWait_last
    | with_reducible apply progress_last
    | split
    | (dsimp only [Safety.quiet, Rst.record, id])
    | exact hgq

theorem Chip.fieldTimeout_last (c : Chip) (ticket source : Nat) (hgq : Lasting q0 c.pat.recovery c.evc) :
    Lasting q0 (Chip.fieldTimeout c ticket source).pat.recovery (Chip.fieldTimeout c ticket source).evc := by
  unfold Chip.fieldTimeout
  try dsimp only
  repeat' first
    | with_reducible assumption
    | with_reducible apply foldl_last
    | with_reducible apply foldlM_last
    | intro _
    | with_reducible apply Chip.advance_last
    | with_reducible apply Chip.updTicket_last
    | with_reducible apply Chip.voidFrame_last
    | split
    | (dsimp only [Safety.quiet, Rst.record, id])
    | exact hgq

theorem encodeEnd_last (core : Nat) (poisoned : Bool) (c : Chip × Mem) (hgq : Lasting q0 c.1.pat.recovery c.1.evc) :
    Lasting q0 (encodeEnd core poisoned c).1.pat.recovery (encodeEnd core poisoned c).1.evc := by
  unfold encodeEnd
  try dsimp only
  repeat' first
    | with_reducible assumption
    | with_reducible apply foldl_last
    | with_reducible apply foldlM_last
    | intro _
    | with_reducible apply encodeComplete_last
    | with_reducible apply progress_last
    | split
    | (dsimp only [Safety.quiet, Rst.record, id])
    | exact hgq

/-! Frog -/

theorem Chip.rebook_last (c : Chip) (hgq : Lasting q0 c.pat.recovery c.evc) :
    Lasting q0 (Chip.rebook c).pat.recovery (Chip.rebook c).evc := by
  unfold Chip.rebook
  try dsimp only
  repeat' first
    | with_reducible assumption
    | with_reducible apply foldl_last
    | with_reducible apply foldlM_last
    | intro _
    | with_reducible apply Chip.alarmIf_last
    | split
    | (dsimp only [Safety.quiet, Rst.record, id])
    | exact hgq

theorem Chip.voidFrames_last (c : Chip) (ticket stage : Nat) (fs : List FrameRt) (hgq : Lasting q0 c.pat.recovery c.evc) :
    Lasting q0 (Chip.voidFrames c ticket stage fs).pat.recovery (Chip.voidFrames c ticket stage fs).evc := by
  unfold Chip.voidFrames
  try dsimp only
  repeat' first
    | with_reducible assumption
    | with_reducible apply foldl_last
    | with_reducible apply foldlM_last
    | intro _
    | with_reducible apply Chip.voidFrame_last
    | split
    | (dsimp only [Safety.quiet, Rst.record, id])
    | exact hgq

theorem Chip.frogDecode_last (c : Chip) (t : Ticket) (p : Placed) (hgq : Lasting q0 c.pat.recovery c.evc) :
    Lasting q0 (Chip.frogDecode c t p).pat.recovery (Chip.frogDecode c t p).evc := by
  unfold Chip.frogDecode
  try dsimp only
  repeat' first
    | with_reducible assumption
    | with_reducible apply foldl_last
    | with_reducible apply foldlM_last
    | intro _
    | with_reducible apply Chip.updTicket_last
    | with_reducible apply Chip.reTicket_last
    | with_reducible apply Chip.freeHanks_last
    | with_reducible apply Chip.voidFrames_last
    | split
    | (dsimp only [Safety.quiet, Rst.record, id])
    | exact hgq

theorem Chip.frogEncode_last (c : Chip) (t : Ticket) (hgq : Lasting q0 c.pat.recovery c.evc) :
    Lasting q0 (Chip.frogEncode c t).pat.recovery (Chip.frogEncode c t).evc := by
  unfold Chip.frogEncode
  try dsimp only
  repeat' first
    | with_reducible assumption
    | with_reducible apply foldl_last
    | with_reducible apply foldlM_last
    | intro _
    | with_reducible apply Chip.updTicket_last
    | split
    | (dsimp only [Safety.quiet, Rst.record, id])
    | exact hgq

theorem Chip.frogStage_last (c : Chip) (t : Ticket) (p : Placed) (hgq : Lasting q0 c.pat.recovery c.evc) :
    Lasting q0 (Chip.frogStage c t p).pat.recovery (Chip.frogStage c t p).evc := by
  unfold Chip.frogStage
  try dsimp only
  repeat' first
    | with_reducible assumption
    | with_reducible apply foldl_last
    | with_reducible apply foldlM_last
    | intro _
    | with_reducible apply Chip.voidFrames_last
    | split
    | (dsimp only [Safety.quiet, Rst.record, id])
    | exact hgq

theorem Chip.frogAdapt_last (c : Chip) (t : Ticket) (hgq : Lasting q0 c.pat.recovery c.evc) :
    Lasting q0 (Chip.frogAdapt c t).pat.recovery (Chip.frogAdapt c t).evc := by
  unfold Chip.frogAdapt
  try dsimp only
  repeat' first
    | with_reducible assumption
    | with_reducible apply foldl_last
    | with_reducible apply foldlM_last
    | intro _
    | with_reducible apply Chip.reTicket_last
    | split
    | (dsimp only [Safety.quiet, Rst.record, id])
    | exact hgq

theorem Chip.frogHanks_last (c : Chip) (t : Ticket) (p : Placed) (ctx : Nat) (hgq : Lasting q0 c.pat.recovery c.evc) :
    Lasting q0 (Chip.frogHanks c t p ctx).pat.recovery (Chip.frogHanks c t p ctx).evc := by
  unfold Chip.frogHanks
  try dsimp only
  repeat' first
    | with_reducible assumption
    | with_reducible apply foldl_last
    | with_reducible apply foldlM_last
    | intro _
    | with_reducible apply Chip.freeHanks_last
    | split
    | (dsimp only [Safety.quiet, Rst.record, id])
    | exact hgq

theorem Chip.frogKind_last (c : Chip) (t : Ticket) (p : Placed) (hgq : Lasting q0 c.pat.recovery c.evc) :
    Lasting q0 (Chip.frogKind c t p).pat.recovery (Chip.frogKind c t p).evc := by
  unfold Chip.frogKind
  try dsimp only
  repeat' first
    | with_reducible assumption
    | with_reducible apply foldl_last
    | with_reducible apply foldlM_last
    | intro _
    | with_reducible apply Chip.frogDecode_last
    | with_reducible apply Chip.frogEncode_last
    | with_reducible apply Chip.frogStage_last
    | with_reducible apply Chip.frogAdapt_last
    | split
    | (dsimp only [Safety.quiet, Rst.record, id])
    | exact hgq

theorem frogContext_last (cause ctx : Nat) (c : Chip × Mem) (hgq : Lasting q0 c.1.pat.recovery c.1.evc) :
    Lasting q0 (frogContext cause ctx c).1.pat.recovery (frogContext cause ctx c).1.evc := by
  unfold frogContext
  try dsimp only
  repeat' first
    | with_reducible assumption
    | with_reducible apply foldl_last
    | with_reducible apply foldlM_last
    | intro _
    | with_reducible apply Chip.edge_last
    | with_reducible apply Chip.note_last
    | with_reducible apply frogNeedles_last
    | with_reducible apply progress_last
    | with_reducible apply Chip.frogHanks_last
    | with_reducible apply Chip.frogKind_last
    | with_reducible apply Lasting.edge
    | split
    | (dsimp only [Safety.quiet, Rst.record, id])
    | exact hgq

theorem frogContexts_last (cause : Nat) (ctxs : List Nat) (c : Chip × Mem) (hgq : Lasting q0 c.1.pat.recovery c.1.evc) :
    Lasting q0 (frogContexts cause ctxs c).1.pat.recovery (frogContexts cause ctxs c).1.evc := by
  unfold frogContexts
  try dsimp only
  repeat' first
    | with_reducible assumption
    | with_reducible apply foldl_last
    | with_reducible apply foldlM_last
    | intro _
    | with_reducible apply frogContext_last
    | split
    | (dsimp only [Safety.quiet, Rst.record, id])
    | exact hgq

theorem Chip.dropJobs_last (c : Chip) (ticket : Nat) (hgq : Lasting q0 c.pat.recovery c.evc) :
    Lasting q0 (Chip.dropJobs c ticket).pat.recovery (Chip.dropJobs c ticket).evc := by
  unfold Chip.dropJobs
  try dsimp only
  repeat' first
    | with_reducible assumption
    | with_reducible apply foldl_last
    | with_reducible apply foldlM_last
    | intro _
    | split
    | (dsimp only [Safety.quiet, Rst.record, id])
    | exact hgq

theorem Chip.endTicket_last (c : Chip) (t : Ticket) (hgq : Lasting q0 c.pat.recovery c.evc) :
    Lasting q0 (Chip.endTicket c t).pat.recovery (Chip.endTicket c t).evc := by
  unfold Chip.endTicket
  try dsimp only
  repeat' first
    | with_reducible assumption
    | with_reducible apply foldl_last
    | with_reducible apply foldlM_last
    | intro _
    | with_reducible apply Chip.reportLtr_last
    | with_reducible apply Chip.releaseMarkers_last
    | with_reducible apply Chip.dropAllowance_last
    | with_reducible apply Chip.giveBack_last
    | with_reducible apply Chip.rebook_last
    | split
    | (dsimp only [Safety.quiet, Rst.record, id])
    | exact hgq

theorem Chip.forgetContexts_last (c : Chip) (ctxs : List Nat) (hgq : Lasting q0 c.pat.recovery c.evc) :
    Lasting q0 (Chip.forgetContexts c ctxs).pat.recovery (Chip.forgetContexts c ctxs).evc := by
  unfold Chip.forgetContexts
  try dsimp only
  repeat' first
    | with_reducible assumption
    | with_reducible apply foldl_last
    | with_reducible apply foldlM_last
    | intro _
    | split
    | (dsimp only [Safety.quiet, Rst.record, id])
    | exact hgq

theorem killTicket_last (t : Ticket) (c : Chip × Mem) (hgq : Lasting q0 c.1.pat.recovery c.1.evc) :
    Lasting q0 (killTicket t c).1.pat.recovery (killTicket t c).1.evc := by
  unfold killTicket
  try dsimp only
  repeat' first
    | with_reducible assumption
    | with_reducible apply foldl_last
    | with_reducible apply foldlM_last
    | intro _
    | with_reducible apply Chip.pumpAll_last
    | with_reducible apply frogNeedles_last
    | with_reducible apply Chip.dropJobs_last
    | with_reducible apply Chip.endTicket_last
    | with_reducible apply Chip.forgetContexts_last
    | split
    | (dsimp only [Safety.quiet, Rst.record, id])
    | exact hgq

theorem flushSkips_last (ticket k : Nat) (c : Chip × Mem) (hgq : Lasting q0 c.1.pat.recovery c.1.evc) :
    Lasting q0 (flushSkips ticket k c).1.pat.recovery (flushSkips ticket k c).1.evc := by
  induction k generalizing c with
  | zero => exact hgq
  | succ k ih =>
    unfold flushSkips
    split
    · exact hgq
    · split
      · exact hgq
      · exact ih _ (commitSkip_last _ _ hgq _ (by assumption))

theorem closeTicket_last (cause : Nat) (t : Ticket) (c : Chip × Mem) (hgq : Lasting q0 c.1.pat.recovery c.1.evc) :
    Lasting q0 (closeTicket cause t c).1.pat.recovery (closeTicket cause t c).1.evc := by
  unfold closeTicket
  try dsimp only
  repeat' first
    | with_reducible assumption
    | with_reducible apply foldl_last
    | with_reducible apply foldlM_last
    | intro _
    | with_reducible apply Chip.updTicket_last
    | with_reducible apply flush_last
    | with_reducible apply frogContexts_last
    | with_reducible apply killTicket_last
    | with_reducible apply flushSkips_last
    | with_reducible apply Lasting.flush
    | split
    | (dsimp only [Safety.quiet, Rst.record, id])
    | exact hgq

theorem Chip.tellAll_last (c : Chip) (ms : List Nat) (code ticket garment : Nat) (b : List Byte) (hgq : Lasting q0 c.pat.recovery c.evc) :
    Lasting q0 (Chip.tellAll c ms code ticket garment b).pat.recovery (Chip.tellAll c ms code ticket garment b).evc := by
  unfold Chip.tellAll
  try dsimp only
  repeat' first
    | with_reducible assumption
    | with_reducible apply foldl_last
    | with_reducible apply foldlM_last
    | intro _
    | split
    | (dsimp only [Safety.quiet, Rst.record, id])
    | exact hgq

theorem Chip.tellBindOff_last (c : Chip) (t : Ticket) (drain : Bool) (hgq : Lasting q0 c.pat.recovery c.evc) :
    Lasting q0 (Chip.tellBindOff c t drain).pat.recovery (Chip.tellBindOff c t drain).evc := by
  unfold Chip.tellBindOff
  try dsimp only
  repeat' first
    | with_reducible assumption
    | with_reducible apply foldl_last
    | with_reducible apply foldlM_last
    | intro _
    | with_reducible apply Chip.tellAll_last
    | split
    | (dsimp only [Safety.quiet, Rst.record, id])
    | exact hgq

theorem drainTicket_last (t : Ticket) (req : Option (Nat × Nat)) (c : Chip × Mem) (hgq : Lasting q0 c.1.pat.recovery c.1.evc) :
    Lasting q0 (drainTicket t req c).1.pat.recovery (drainTicket t req c).1.evc := by
  unfold drainTicket
  try dsimp only
  repeat' first
    | with_reducible assumption
    | with_reducible apply foldl_last
    | with_reducible apply foldlM_last
    | intro _
    | with_reducible apply Chip.updTicket_last
    | with_reducible apply progress_last
    | split
    | (dsimp only [Safety.quiet, Rst.record, id])
    | exact hgq

theorem bindOff_last (fn : Nat) (r : Req) (c : Chip × Mem) (hgq : Lasting q0 c.1.pat.recovery c.1.evc) :
    Lasting q0 (bindOff fn r c).1.pat.recovery (bindOff fn r c).1.evc := by
  unfold bindOff
  try dsimp only
  repeat' first
    | with_reducible assumption
    | with_reducible apply foldl_last
    | with_reducible apply foldlM_last
    | intro _
    | with_reducible apply Chip.respond_last
    | with_reducible apply Chip.respondRefused_last
    | with_reducible apply closeTicket_last
    | with_reducible apply Chip.tellBindOff_last
    | with_reducible apply drainTicket_last
    | split
    | (dsimp only [Safety.quiet, Rst.record, id])
    | exact hgq

theorem drainEnd_last (ticket : Nat) (c : Chip × Mem) (hgq : Lasting q0 c.1.pat.recovery c.1.evc) :
    Lasting q0 (drainEnd ticket c).1.pat.recovery (drainEnd ticket c).1.evc := by
  unfold drainEnd
  try dsimp only
  repeat' first
    | with_reducible assumption
    | with_reducible apply foldl_last
    | with_reducible apply foldlM_last
    | intro _
    | with_reducible apply Chip.respondAt_last
    | with_reducible apply killTicket_last
    | with_reducible apply Chip.tellBindOff_last
    | split
    | (dsimp only [Safety.quiet, Rst.record, id])
    | exact hgq

/-! Rolivo -/

theorem Chip.sendFrame_last (c : Chip) (p : Port) (w : Waiting) (f : RFrame) (turns : Nat × Nat) (hgq : Lasting q0 c.pat.recovery c.evc) :
    Lasting q0 (Chip.sendFrame c p w f turns).pat.recovery (Chip.sendFrame c p w f turns).evc := by
  unfold Chip.sendFrame
  try dsimp only
  repeat' first
    | with_reducible assumption
    | with_reducible apply foldl_last
    | with_reducible apply foldlM_last
    | intro _
    | split
    | (dsimp only [Safety.quiet, Rst.record, id])
    | exact hgq

theorem frameBoundary_last (p : Port) (c : Chip × Mem) (hgq : Lasting q0 c.1.pat.recovery c.1.evc) :
    Lasting q0 (frameBoundary p c).1.pat.recovery (frameBoundary p c).1.evc := by
  unfold frameBoundary
  try dsimp only
  repeat' first
    | with_reducible assumption
    | with_reducible apply foldl_last
    | with_reducible apply foldlM_last
    | intro _
    | with_reducible apply Chip.sentDone_last
    | with_reducible apply progress_last
    | with_reducible apply Chip.sendFrame_last
    | split
    | (dsimp only [Safety.quiet, Rst.record, id])
    | exact hgq

theorem Chip.repaired_last (c : Chip) (kind : Nat) (p : Port) (hgq : Lasting q0 c.pat.recovery c.evc) :
    Lasting q0 (Chip.repaired c kind p).pat.recovery (Chip.repaired c kind p).evc := by
  unfold Chip.repaired
  try dsimp only
  repeat' first
    | with_reducible assumption
    | with_reducible apply foldl_last
    | with_reducible apply foldlM_last
    | intro _
    | split
    | (dsimp only [Safety.quiet, Rst.record, id])
    | exact hgq

theorem Chip.wrap_last (c : Chip) (p : Port) (hgq : Lasting q0 c.pat.recovery c.evc) :
    Lasting q0 (Chip.wrap c p).pat.recovery (Chip.wrap c p).evc := by
  unfold Chip.wrap
  try dsimp only
  repeat' first
    | with_reducible assumption
    | with_reducible apply foldl_last
    | with_reducible apply foldlM_last
    | intro _
    | with_reducible apply Chip.rebook_last
    | with_reducible apply Chip.repaired_last
    | split
    | (dsimp only [Safety.quiet, Rst.record, id])
    | exact hgq

theorem Chip.linkFault_last (c : Chip) (p : Port) (hgq : Lasting q0 c.pat.recovery c.evc) :
    Lasting q0 (Chip.linkFault c p).pat.recovery (Chip.linkFault c p).evc := by
  unfold Chip.linkFault
  try dsimp only
  repeat' first
    | with_reducible assumption
    | with_reducible apply foldl_last
    | with_reducible apply foldlM_last
    | intro _
    | with_reducible apply Chip.advance_last
    | split
    | (dsimp only [Safety.quiet, Rst.record, id])
    | exact hgq

theorem Chip.hello_last (c : Chip) (p : Port) (h : HelloInfo) (hgq : Lasting q0 c.pat.recovery c.evc) :
    Lasting q0 (Chip.hello c p h).pat.recovery (Chip.hello c p h).evc := by
  unfold Chip.hello
  try dsimp only
  repeat' first
    | with_reducible assumption
    | with_reducible apply foldl_last
    | with_reducible apply foldlM_last
    | intro _
    | with_reducible apply Chip.rebook_last
    | with_reducible apply Chip.repaired_last
    | with_reducible apply Chip.wrap_last
    | split
    | (dsimp only [Safety.quiet, Rst.record, id])
    | exact hgq

/-! Garment -/

theorem Chip.dropHold_last (c : Chip) (h : GarmentHold) (hgq : Lasting q0 c.pat.recovery c.evc) :
    Lasting q0 (Chip.dropHold c h).pat.recovery (Chip.dropHold c h).evc := by
  unfold Chip.dropHold
  try dsimp only
  repeat' first
    | with_reducible assumption
    | with_reducible apply foldl_last
    | with_reducible apply foldlM_last
    | intro _
    | with_reducible apply Chip.releaseMarkers_last
    | split
    | (dsimp only [Safety.quiet, Rst.record, id])
    | exact hgq

theorem Chip.dropHop_last (c : Chip) (g : Nat) (hgq : Lasting q0 c.pat.recovery c.evc) :
    Lasting q0 (Chip.dropHop c g).pat.recovery (Chip.dropHop c g).evc := by
  unfold Chip.dropHop
  try dsimp only
  repeat' first
    | with_reducible assumption
    | with_reducible apply foldl_last
    | with_reducible apply foldlM_last
    | intro _
    | with_reducible apply Chip.rebook_last
    | split
    | (dsimp only [Safety.quiet, Rst.record, id])
    | exact hgq

theorem Chip.holdExpire_last (c : Chip) (g : Nat) (hgq : Lasting q0 c.pat.recovery c.evc) :
    Lasting q0 (Chip.holdExpire c g).pat.recovery (Chip.holdExpire c g).evc := by
  unfold Chip.holdExpire
  try dsimp only
  repeat' first
    | with_reducible assumption
    | with_reducible apply foldl_last
    | with_reducible apply foldlM_last
    | intro _
    | with_reducible apply Chip.advance_last
    | with_reducible apply Chip.hold_last
    | with_reducible apply Chip.dropHold_last
    | split
    | (dsimp only [Safety.quiet, Rst.record, id])
    | exact hgq

theorem Chip.gCommit_last (c : Chip) (f : RFrame) (hgq : Lasting q0 c.pat.recovery c.evc) :
    Lasting q0 (Chip.gCommit c f).pat.recovery (Chip.gCommit c f).evc := by
  unfold Chip.gCommit
  try dsimp only
  repeat' first
    | with_reducible assumption
    | with_reducible apply foldl_last
    | with_reducible apply foldlM_last
    | intro _
    | with_reducible apply Chip.openTicket_last
    | with_reducible apply Chip.sendAnswer_last
    | with_reducible apply Chip.hold_last
    | split
    | (dsimp only [Safety.quiet, Rst.record, id])
    | exact hgq

theorem endPart_last (g cause : Nat) (c : Chip × Mem) (hgq : Lasting q0 c.1.pat.recovery c.1.evc) :
    Lasting q0 (endPart g cause c).1.pat.recovery (endPart g cause c).1.evc := by
  unfold endPart
  try dsimp only
  repeat' first
    | with_reducible assumption
    | with_reducible apply foldl_last
    | with_reducible apply foldlM_last
    | intro _
    | with_reducible apply Chip.hold_last
    | with_reducible apply closeTicket_last
    | with_reducible apply Chip.dropHold_last
    | with_reducible apply Chip.dropHop_last
    | split
    | (dsimp only [Safety.quiet, Rst.record, id])
    | exact hgq

theorem gRelease_last (f : RFrame) (c : Chip × Mem) (hgq : Lasting q0 c.1.pat.recovery c.1.evc) :
    Lasting q0 (gRelease f c).1.pat.recovery (gRelease f c).1.evc := by
  unfold gRelease
  try dsimp only
  repeat' first
    | with_reducible assumption
    | with_reducible apply foldl_last
    | with_reducible apply foldlM_last
    | intro _
    | with_reducible apply endPart_last
    | split
    | (dsimp only [Safety.quiet, Rst.record, id])
    | exact hgq

theorem gBindOff_last (f : RFrame) (c : Chip × Mem) (hgq : Lasting q0 c.1.pat.recovery c.1.evc) :
    Lasting q0 (gBindOff f c).1.pat.recovery (gBindOff f c).1.evc := by
  unfold gBindOff
  try dsimp only
  repeat' first
    | with_reducible assumption
    | with_reducible apply foldl_last
    | with_reducible apply foldlM_last
    | intro _
    | with_reducible apply drainTicket_last
    | with_reducible apply endPart_last
    | split
    | (dsimp only [Safety.quiet, Rst.record, id])
    | exact hgq

theorem Chip.dropLead_last (c : Chip) (l : GarmentLead) (hgq : Lasting q0 c.pat.recovery c.evc) :
    Lasting q0 (Chip.dropLead c l).pat.recovery (Chip.dropLead c l).evc := by
  unfold Chip.dropLead
  try dsimp only
  repeat' first
    | with_reducible assumption
    | with_reducible apply foldl_last
    | with_reducible apply foldlM_last
    | intro _
    | split
    | (dsimp only [Safety.quiet, Rst.record, id])
    | exact hgq

theorem Chip.commitGarment_last (c : Chip) (l : GarmentLead) (hgq : Lasting q0 c.pat.recovery c.evc) :
    Lasting q0 (Chip.commitGarment c l).pat.recovery (Chip.commitGarment c l).evc := by
  unfold Chip.commitGarment
  try dsimp only
  repeat' first
    | with_reducible assumption
    | with_reducible apply foldl_last
    | with_reducible apply foldlM_last
    | intro _
    | with_reducible apply Chip.openTicket_last
    | with_reducible apply Chip.respond_last
    | with_reducible apply Chip.tellAll_last
    | with_reducible apply Chip.dropLead_last
    | split
    | (dsimp only [Safety.quiet, Rst.record, id])
    | exact hgq

theorem Chip.refuseGarment_last (c : Chip) (l : GarmentLead) (reason detail k : Nat) (hgq : Lasting q0 c.pat.recovery c.evc) :
    Lasting q0 (Chip.refuseGarment c l reason detail k).pat.recovery (Chip.refuseGarment c l reason detail k).evc := by
  unfold Chip.refuseGarment
  try dsimp only
  repeat' first
    | with_reducible assumption
    | with_reducible apply foldl_last
    | with_reducible apply foldlM_last
    | intro _
    | with_reducible apply Chip.releaseMarkers_last
    | with_reducible apply Chip.respond_last
    | with_reducible apply Chip.tellAll_last
    | with_reducible apply Chip.dropLead_last
    | split
    | (dsimp only [Safety.quiet, Rst.record, id])
    | exact hgq

theorem gAnswer_last (f : RFrame) (c : Chip × Mem) (hgq : Lasting q0 c.1.pat.recovery c.1.evc) :
    Lasting q0 (gAnswer f c).1.pat.recovery (gAnswer f c).1.evc := by
  unfold gAnswer
  try dsimp only
  repeat' first
    | with_reducible assumption
    | with_reducible apply foldl_last
    | with_reducible apply foldlM_last
    | intro _
    | with_reducible apply closeTicket_last
    | with_reducible apply Chip.tellAll_last
    | with_reducible apply Chip.commitGarment_last
    | with_reducible apply Chip.refuseGarment_last
    | split
    | (dsimp only [Safety.quiet, Rst.record, id])
    | exact hgq

theorem Chip.garmentCastOn_last (c : Chip) (fn : Nat) (r : Req) (raw : List Byte) (hgq : Lasting q0 c.pat.recovery c.evc) :
    Lasting q0 (Chip.garmentCastOn c fn r raw).pat.recovery (Chip.garmentCastOn c fn r raw).evc := by
  unfold Chip.garmentCastOn
  try dsimp only
  repeat' first
    | with_reducible assumption
    | with_reducible apply foldl_last
    | with_reducible apply foldlM_last
    | intro _
    | with_reducible apply Chip.holdMarkers_last
    | with_reducible apply Chip.respondRefused_last
    | with_reducible apply Chip.commitGarment_last
    | split
    | (dsimp only [Safety.quiet, Rst.record, id])
    | exact hgq

theorem Chip.answerTimeout_last (c : Chip) (g : Nat) (hgq : Lasting q0 c.pat.recovery c.evc) :
    Lasting q0 (Chip.answerTimeout c g).pat.recovery (Chip.answerTimeout c g).evc := by
  unfold Chip.answerTimeout
  try dsimp only
  repeat' first
    | with_reducible assumption
    | with_reducible apply foldl_last
    | with_reducible apply foldlM_last
    | intro _
    | with_reducible apply Chip.advance_last
    | with_reducible apply Chip.refuseGarment_last
    | split
    | (dsimp only [Safety.quiet, Rst.record, id])
    | exact hgq

theorem Chip.recordAbort_last (c : Chip) (g cause ticket : Nat) (hgq : Lasting q0 c.pat.recovery c.evc) :
    Lasting q0 (Chip.recordAbort c g cause ticket).pat.recovery (Chip.recordAbort c g cause ticket).evc := by
  unfold Chip.recordAbort
  try dsimp only
  repeat' first
    | with_reducible assumption
    | with_reducible apply foldl_last
    | with_reducible apply foldlM_last
    | intro _
    | with_reducible apply Chip.alarm_last
    | split
    | (dsimp only [Safety.quiet, Rst.record, id])
    | exact hgq

theorem abortGarment_last (g cause : Nat) (heard : List Nat) (c : Chip × Mem) (hgq : Lasting q0 c.1.pat.recovery c.1.evc) :
    Lasting q0 (abortGarment g cause heard c).1.pat.recovery (abortGarment g cause heard c).1.evc := by
  unfold abortGarment
  try dsimp only
  repeat' first
    | with_reducible assumption
    | with_reducible apply foldl_last
    | with_reducible apply foldlM_last
    | intro _
    | with_reducible apply Chip.hold_last
    | with_reducible apply Chip.tellAll_last
    | with_reducible apply endPart_last
    | with_reducible apply Chip.recordAbort_last
    | split
    | (dsimp only [Safety.quiet, Rst.record, id])
    | exact hgq

theorem gAbort_last (f : RFrame) (c : Chip × Mem) (hgq : Lasting q0 c.1.pat.recovery c.1.evc) :
    Lasting q0 (gAbort f c).1.pat.recovery (gAbort f c).1.evc := by
  unfold gAbort
  try dsimp only
  repeat' first
    | with_reducible assumption
    | with_reducible apply foldl_last
    | with_reducible apply foldlM_last
    | intro _
    | with_reducible apply abortGarment_last
    | split
    | (dsimp only [Safety.quiet, Rst.record, id])
    | exact hgq

theorem abortBroken_last (c : Chip × Mem) (hgq : Lasting q0 c.1.pat.recovery c.1.evc) :
    Lasting q0 (abortBroken c).1.pat.recovery (abortBroken c).1.evc := by
  unfold abortBroken
  try dsimp only
  repeat' first
    | with_reducible assumption
    | with_reducible apply foldl_last
    | with_reducible apply foldlM_last
    | intro _
    | with_reducible apply abortGarment_last
    | split
    | (dsimp only [Safety.quiet, Rst.record, id])
    | exact hgq

/-! Logs -/

theorem Chip.moderationExpire_last (c : Chip) (fn v : Nat) (hgq : Lasting q0 c.pat.recovery c.evc) :
    Lasting q0 (Chip.moderationExpire c fn v).pat.recovery (Chip.moderationExpire c fn v).evc := by
  unfold Chip.moderationExpire
  try dsimp only
  repeat' first
    | with_reducible assumption
    | with_reducible apply foldl_last
    | with_reducible apply foldlM_last
    | intro _
    | with_reducible apply Chip.advance_last
    | with_reducible apply Lasting.trySend
    | with_reducible apply Lasting.updVec
    | exact Lasting.none hgq rfl
    | exact Lasting.of_srcs hgq rfl
    | split
    | (dsimp only [Safety.quiet, Rst.record, id])
    | exact hgq

theorem Chip.vectorUnmask_last (c : Chip) (fn v : Nat) (hgq : Lasting q0 c.pat.recovery c.evc) :
    Lasting q0 (Chip.vectorUnmask c fn v).pat.recovery (Chip.vectorUnmask c fn v).evc := by
  unfold Chip.vectorUnmask
  try dsimp only
  repeat' first
    | with_reducible assumption
    | with_reducible apply foldl_last
    | with_reducible apply foldlM_last
    | intro _
    | with_reducible apply flush_last
    | with_reducible apply Lasting.updVec
    | with_reducible apply Lasting.flush
    | exact Lasting.none hgq rfl
    | exact Lasting.of_srcs hgq rfl
    | split
    | (dsimp only [Safety.quiet, Rst.record, id])
    | exact hgq

/-! Pattern -/

theorem Chip.loadCharts_last (c : Chip) (hgq : Lasting q0 c.pat.recovery c.evc) :
    Lasting q0 (Chip.loadCharts c).pat.recovery (Chip.loadCharts c).evc := by
  unfold Chip.loadCharts
  try dsimp only
  repeat' first
    | with_reducible assumption
    | with_reducible apply foldl_last
    | with_reducible apply foldlM_last
    | intro _
    | with_reducible apply Chip.loadRemote_last
    | split
    | (dsimp only [Safety.quiet, Rst.record, id])
    | exact hgq

theorem Chip.applyPattern_last (c : Chip) (p : Pattern) (hgq : Lasting q0 c.pat.recovery c.evc) :
    Lasting q0 (Chip.applyPattern c p).pat.recovery (Chip.applyPattern c p).evc := by
  unfold Chip.applyPattern
  try dsimp only
  repeat' first
    | with_reducible assumption
    | with_reducible apply foldl_last
    | with_reducible apply foldlM_last
    | intro _
    | with_reducible apply Chip.loadCharts_last
    | with_reducible apply Lasting.applyEvents
    | exact Lasting.none hgq rfl
    | exact Lasting.of_srcs hgq rfl
    | split
    | (dsimp only [Safety.quiet, Rst.record, id])
    | exact hgq

/-! Recovery -/

theorem resetNeedle_last (n : Nat) (c : Chip × Mem) (hgq : Lasting q0 c.1.pat.recovery c.1.evc) :
    Lasting q0 (resetNeedle n c).1.pat.recovery (resetNeedle n c).1.evc := by
  unfold resetNeedle
  try dsimp only
  repeat' first
    | with_reducible assumption
    | with_reducible apply foldl_last
    | with_reducible apply foldlM_last
    | intro _
    | with_reducible apply Chip.updNeedle_last
    | with_reducible apply abortOps_last
    | with_reducible apply Chip.dropChunks_last
    | split
    | (dsimp only [Safety.quiet, Rst.record, id])
    | exact hgq

theorem resetDma_last (n : Nat) (c : Chip × Mem) (hgq : Lasting q0 c.1.pat.recovery c.1.evc) :
    Lasting q0 (resetDma n c).1.pat.recovery (resetDma n c).1.evc := by
  unfold resetDma
  try dsimp only
  repeat' first
    | with_reducible assumption
    | with_reducible apply foldl_last
    | with_reducible apply foldlM_last
    | intro _
    | with_reducible apply Chip.updNeedle_last
    | with_reducible apply abortOps_last
    | with_reducible apply Chip.dropChunks_last
    | split
    | (dsimp only [Safety.quiet, Rst.record, id])
    | exact hgq

theorem Chip.resetDec_last (c : Chip) (k : Nat) (hgq : Lasting q0 c.pat.recovery c.evc) :
    Lasting q0 (Chip.resetDec c k).pat.recovery (Chip.resetDec c k).evc := by
  unfold Chip.resetDec
  try dsimp only
  repeat' first
    | with_reducible assumption
    | with_reducible apply foldl_last
    | with_reducible apply foldlM_last
    | intro _
    | with_reducible apply Chip.dropLanes_last
    | split
    | (dsimp only [Safety.quiet, Rst.record, id])
    | exact hgq

theorem Chip.resetEnc_last (c : Chip) (k : Nat) (hgq : Lasting q0 c.pat.recovery c.evc) :
    Lasting q0 (Chip.resetEnc c k).pat.recovery (Chip.resetEnc c k).evc := by
  unfold Chip.resetEnc
  try dsimp only
  repeat' first
    | with_reducible assumption
    | with_reducible apply foldl_last
    | with_reducible apply foldlM_last
    | intro _
    | with_reducible apply Chip.dropLanes_last
    | split
    | (dsimp only [Safety.quiet, Rst.record, id])
    | exact hgq

theorem resetMarub_last (c : Chip × Mem) (hgq : Lasting q0 c.1.pat.recovery c.1.evc) :
    Lasting q0 (resetMarub c).1.pat.recovery (resetMarub c).1.evc := by
  unfold resetMarub
  try dsimp only
  repeat' first
    | with_reducible assumption
    | with_reducible apply foldl_last
    | with_reducible apply foldlM_last
    | intro _
    | with_reducible apply abortOps_last
    | split
    | (dsimp only [Safety.quiet, Rst.record, id])
    | exact hgq

theorem Chip.resetChannel_last (c : Chip) (ch : Nat) (hgq : Lasting q0 c.pat.recovery c.evc) :
    Lasting q0 (Chip.resetChannel c ch).pat.recovery (Chip.resetChannel c ch).evc := by
  unfold Chip.resetChannel
  try dsimp only
  repeat' first
    | with_reducible assumption
    | with_reducible apply foldl_last
    | with_reducible apply foldlM_last
    | intro _
    | with_reducible apply Chip.updNeedle_last
    | with_reducible apply Chip.hbmUe_last
    | split
    | (dsimp only [Safety.quiet, Rst.record, id])
    | exact hgq

theorem Chip.restartTimers_last (c : Chip) (e : Nat) (hgq : Lasting q0 c.pat.recovery c.evc) :
    Lasting q0 (Chip.restartTimers c e).pat.recovery (Chip.restartTimers c e).evc := by
  unfold Chip.restartTimers
  try dsimp only
  repeat' first
    | with_reducible assumption
    | with_reducible apply foldl_last
    | with_reducible apply foldlM_last
    | intro _
    | split
    | (dsimp only [Safety.quiet, Rst.record, id])
    | exact hgq

theorem resetEngine_last (e : Nat) (c : Chip × Mem) (hgq : Lasting q0 c.1.pat.recovery c.1.evc) :
    Lasting q0 (resetEngine e c).1.pat.recovery (resetEngine e c).1.evc := by
  unfold resetEngine
  try dsimp only
  repeat' first
    | with_reducible assumption
    | with_reducible apply foldl_last
    | with_reducible apply foldlM_last
    | intro _
    | with_reducible apply resetNeedle_last
    | with_reducible apply resetDma_last
    | with_reducible apply Chip.resetDec_last
    | with_reducible apply Chip.resetEnc_last
    | with_reducible apply resetMarub_last
    | with_reducible apply Chip.resetChannel_last
    | split
    | (dsimp only [Safety.quiet, Rst.record, id])
    | exact hgq

theorem engineReset_last (e ctx : Nat) (c : Chip × Mem) (hgq : Lasting q0 c.1.pat.recovery c.1.evc) :
    Lasting q0 (engineReset e ctx c).1.pat.recovery (engineReset e ctx c).1.evc := by
  unfold engineReset
  try dsimp only
  repeat' first
    | with_reducible assumption
    | with_reducible apply foldl_last
    | with_reducible apply foldlM_last
    | intro _
    | with_reducible apply Chip.alarm_last
    | with_reducible apply resetEngine_last
    | split
    | (dsimp only [Safety.quiet, Rst.record, id])
    | exact hgq

theorem Chip.tinkOver_last (c : Chip) (k : Tink) (hgq : Lasting q0 c.pat.recovery c.evc) :
    Lasting q0 (Chip.tinkOver c k).pat.recovery (Chip.tinkOver c k).evc := by
  unfold Chip.tinkOver
  try dsimp only
  repeat' first
    | with_reducible assumption
    | with_reducible apply foldl_last
    | with_reducible apply foldlM_last
    | intro _
    | with_reducible apply Chip.alarmIf_last
    | with_reducible apply Chip.edgeIf_last
    | with_reducible apply Chip.restartTimers_last
    | split
    | (dsimp only [Safety.quiet, Rst.record, id])
    | exact hgq

theorem Chip.endTink_last (c : Chip) (hgq : Lasting q0 c.pat.recovery c.evc) :
    Lasting q0 (Chip.endTink c).pat.recovery (Chip.endTink c).evc := by
  unfold Chip.endTink
  try dsimp only
  repeat' first
    | with_reducible assumption
    | with_reducible apply foldl_last
    | with_reducible apply foldlM_last
    | intro _
    | with_reducible apply Chip.tinkOver_last
    | split
    | (dsimp only [Safety.quiet, Rst.record, id])
    | exact hgq

theorem panelReset_last (p cause engine : Nat) (c : Chip × Mem) (hgq : Lasting q0 c.1.pat.recovery c.1.evc) :
    Lasting q0 (panelReset p cause engine c).1.pat.recovery (panelReset p cause engine c).1.evc := by
  unfold panelReset
  try dsimp only
  repeat' first
    | with_reducible assumption
    | with_reducible apply foldl_last
    | with_reducible apply foldlM_last
    | intro _
    | with_reducible apply Chip.updPanel_last
    | with_reducible apply Chip.alarm_last
    | with_reducible apply progressAll_last
    | with_reducible apply frogContexts_last
    | with_reducible apply resetNeedle_last
    | with_reducible apply Chip.resetDec_last
    | with_reducible apply Chip.resetEnc_last
    | with_reducible apply Chip.endTink_last
    | split
    | (dsimp only [Safety.quiet, Rst.record, id])
    | exact hgq

theorem Chip.restock_last (c : Chip) (e : Nat) (js : List Job) (hgq : Lasting q0 c.pat.recovery c.evc) :
    Lasting q0 (Chip.restock c e js).pat.recovery (Chip.restock c e js).evc := by
  unfold Chip.restock
  try dsimp only
  repeat' first
    | with_reducible assumption
    | with_reducible apply foldl_last
    | with_reducible apply foldlM_last
    | intro _
    | split
    | (dsimp only [Safety.quiet, Rst.record, id])
    | exact hgq

theorem tinkEnd_last (k : Tink) (c : Chip × Mem) (hgq : Lasting q0 c.1.pat.recovery c.1.evc) :
    Lasting q0 (tinkEnd k c).1.pat.recovery (tinkEnd k c).1.evc := by
  unfold tinkEnd
  try dsimp only
  repeat' first
    | with_reducible assumption
    | with_reducible apply foldl_last
    | with_reducible apply foldlM_last
    | intro _
    | with_reducible apply Chip.pumpAll_last
    | with_reducible apply Chip.fillPanel_last
    | with_reducible apply progressAll_last
    | with_reducible apply Chip.tinkOver_last
    | with_reducible apply panelReset_last
    | split
    | (dsimp only [Safety.quiet, Rst.record, id])
    | exact hgq

theorem tinkNext_last (k : Tink) (c : Chip × Mem) (hgq : Lasting q0 c.1.pat.recovery c.1.evc) :
    Lasting q0 (tinkNext k c).1.pat.recovery (tinkNext k c).1.evc := by
  unfold tinkNext
  try dsimp only
  repeat' first
    | with_reducible assumption
    | with_reducible apply foldl_last
    | with_reducible apply foldlM_last
    | intro _
    | with_reducible apply tinkEnd_last
    | split
    | (dsimp only [Safety.quiet, Rst.record, id])
    | exact hgq

theorem startTink_last (e : Nat) (suspects : List Nat) (js : List Job) (c : Chip × Mem) (hgq : Lasting q0 c.1.pat.recovery c.1.evc) :
    Lasting q0 (startTink e suspects js c).1.pat.recovery (startTink e suspects js c).1.evc := by
  unfold startTink
  try dsimp only
  repeat' first
    | with_reducible assumption
    | with_reducible apply foldl_last
    | with_reducible apply foldlM_last
    | intro _
    | with_reducible apply Chip.restock_last
    | with_reducible apply tinkNext_last
    | split
    | (dsimp only [Safety.quiet, Rst.record, id])
    | exact hgq

theorem Chip.toTrip_last (c : Chip) (e ctx : Nat) (hgq : Lasting q0 c.pat.recovery c.evc) :
    Lasting q0 (Chip.toTrip c e ctx).pat.recovery (Chip.toTrip c e ctx).evc := by
  unfold Chip.toTrip
  try dsimp only
  repeat' first
    | with_reducible assumption
    | with_reducible apply foldl_last
    | with_reducible apply foldlM_last
    | intro _
    | with_reducible apply Chip.advance_last
    | split
    | (dsimp only [Safety.quiet, Rst.record, id])
    | exact hgq

theorem Chip.countTrip_last (c : Chip) (e ctx : Nat) (hgq : Lasting q0 c.pat.recovery c.evc) :
    Lasting q0 (Chip.countTrip c e ctx).pat.recovery (Chip.countTrip c e ctx).evc := by
  unfold Chip.countTrip
  try dsimp only
  repeat' first
    | with_reducible assumption
    | with_reducible apply foldl_last
    | with_reducible apply foldlM_last
    | intro _
    | with_reducible apply Chip.incident_last
    | split
    | (dsimp only [Safety.quiet, Rst.record, id])
    | exact hgq

theorem engineTrip_last (e ctx : Nat) (c : Chip × Mem) (hgq : Lasting q0 c.1.pat.recovery c.1.evc) :
    Lasting q0 (engineTrip e ctx c).1.pat.recovery (engineTrip e ctx c).1.evc := by
  unfold engineTrip
  try dsimp only
  repeat' first
    | with_reducible assumption
    | with_reducible apply foldl_last
    | with_reducible apply foldlM_last
    | intro _
    | with_reducible apply Chip.pumpAll_last
    | with_reducible apply Chip.restartTimers_last
    | with_reducible apply engineReset_last
    | with_reducible apply startTink_last
    | with_reducible apply Chip.countTrip_last
    | split
    | (dsimp only [Safety.quiet, Rst.record, id])
    | exact hgq

theorem tinkReplayEnd_last (tripped : Bool) (c : Chip × Mem) (hgq : Lasting q0 c.1.pat.recovery c.1.evc) :
    Lasting q0 (tinkReplayEnd tripped c).1.pat.recovery (tinkReplayEnd tripped c).1.evc := by
  unfold tinkReplayEnd
  try dsimp only
  repeat' first
    | with_reducible assumption
    | with_reducible apply foldl_last
    | with_reducible apply foldlM_last
    | intro _
    | with_reducible apply frogContext_last
    | with_reducible apply engineReset_last
    | with_reducible apply Chip.endTink_last
    | with_reducible apply panelReset_last
    | with_reducible apply Chip.restock_last
    | with_reducible apply tinkEnd_last
    | with_reducible apply tinkNext_last
    | with_reducible apply Chip.toTrip_last
    | with_reducible apply Chip.countTrip_last
    | split
    | (dsimp only [Safety.quiet, Rst.record, id])
    | exact hgq

/-! Reset -/

theorem Chip.selfTest_last (c : Chip) (e : StartEnv) (full : Bool) (hgq : Lasting q0 c.pat.recovery c.evc) :
    Lasting q0 (Chip.selfTest c e full).pat.recovery (Chip.selfTest c e full).evc := by
  unfold Chip.selfTest
  try dsimp only
  repeat' first
    | with_reducible assumption
    | with_reducible apply foldl_last
    | with_reducible apply foldlM_last
    | intro _
    | with_reducible apply Chip.incidentIf_last
    | split
    | (dsimp only [Safety.quiet, Rst.record, id])
    | exact hgq

theorem Chip.fresh_last (c : Chip) (hgq : Lasting q0 c.pat.recovery c.evc) :
    Lasting q0 (Chip.fresh c).pat.recovery (Chip.fresh c).evc := by
  unfold Chip.fresh
  try dsimp only
  repeat' first
    | with_reducible assumption
    | with_reducible apply foldl_last
    | with_reducible apply foldlM_last
    | intro _
    | exact Lasting.none hgq rfl
    | exact Lasting.of_srcs hgq rfl
    | split
    | (dsimp only [Safety.quiet, Rst.record, id])
    | exact hgq

theorem Chip.sampleStraps_last (c : Chip) (e : StartEnv) (hgq : Lasting q0 c.pat.recovery c.evc) :
    Lasting q0 (Chip.sampleStraps c e).pat.recovery (Chip.sampleStraps c e).evc := by
  unfold Chip.sampleStraps
  try dsimp only
  repeat' first
    | with_reducible assumption
    | with_reducible apply foldl_last
    | with_reducible apply foldlM_last
    | intro _
    | with_reducible apply Chip.incident_last
    | split
    | (dsimp only [Safety.quiet, Rst.record, id])
    | exact hgq

theorem Chip.joinRing_last (c : Chip) (e : StartEnv) (hgq : Lasting q0 c.pat.recovery c.evc) :
    Lasting q0 (Chip.joinRing c e).pat.recovery (Chip.joinRing c e).evc := by
  unfold Chip.joinRing
  try dsimp only
  repeat' first
    | with_reducible assumption
    | with_reducible apply foldl_last
    | with_reducible apply foldlM_last
    | intro _
    | with_reducible apply Chip.alarm_last
    | split
    | (dsimp only [Safety.quiet, Rst.record, id])
    | exact hgq

theorem Chip.logBuild_last (c : Chip) (id : Nat) (hgq : Lasting q0 c.pat.recovery c.evc) :
    Lasting q0 (Chip.logBuild c id).pat.recovery (Chip.logBuild c id).evc := by
  unfold Chip.logBuild
  try dsimp only
  repeat' first
    | with_reducible assumption
    | with_reducible apply foldl_last
    | with_reducible apply foldlM_last
    | intro _
    | with_reducible apply Chip.note_last
    | split
    | (dsimp only [Safety.quiet, Rst.record, id])
    | exact hgq

theorem Chip.bringUp_last (c : Chip) (e : StartEnv) (full : Bool) (hgq : Lasting q0 c.pat.recovery c.evc) :
    Lasting q0 (Chip.bringUp c e full).pat.recovery (Chip.bringUp c e full).evc := by
  unfold Chip.bringUp
  try dsimp only
  repeat' first
    | with_reducible assumption
    | with_reducible apply foldl_last
    | with_reducible apply foldlM_last
    | intro _
    | with_reducible apply Chip.advance_last
    | with_reducible apply Chip.startRow_last
    | with_reducible apply Chip.crystalFail_last
    | with_reducible apply Chip.selfTest_last
    | with_reducible apply Chip.fresh_last
    | with_reducible apply Chip.sampleStraps_last
    | split
    | (dsimp only [Safety.quiet, Rst.record, id])
    | exact hgq

theorem applied_last (b : Bool) (old : Bool) (i : Image) (seq : Nat) (e : StartEnv) (c : Chip) (hgq : Lasting q0 c.pat.recovery c.evc) :
    Lasting q0 (applied b old i seq e c).1.pat.recovery (applied b old i seq e c).1.evc := by
  unfold applied
  try dsimp only
  repeat' first
    | with_reducible assumption
    | with_reducible apply foldl_last
    | with_reducible apply foldlM_last
    | intro _
    | with_reducible apply Chip.applyPattern_last
    | with_reducible apply Chip.joinRing_last
    | with_reducible apply Chip.logBuild_last
    | split
    | (dsimp only [Safety.quiet, Rst.record, id])
    | exact hgq

theorem Chip.maintain_last (c : Chip) (cause : Nat) (hgq : Lasting q0 c.pat.recovery c.evc) :
    Lasting q0 (Chip.maintain c cause).pat.recovery (Chip.maintain c cause).evc := by
  unfold Chip.maintain
  try dsimp only
  repeat' first
    | with_reducible assumption
    | with_reducible apply foldl_last
    | with_reducible apply foldlM_last
    | intro _
    | with_reducible apply applied_last
    | split
    | (dsimp only [Safety.quiet, Rst.record, id])
    | exact hgq

theorem Chip.chooseSlot_last (c : Chip) (e : StartEnv) (hgq : Lasting q0 c.pat.recovery c.evc) :
    Lasting q0 (Chip.chooseSlot c e).1.pat.recovery (Chip.chooseSlot c e).1.evc := by
  unfold Chip.chooseSlot
  try dsimp only
  repeat' first
    | with_reducible assumption
    | with_reducible apply foldl_last
    | with_reducible apply foldlM_last
    | intro _
    | with_reducible apply applied_last
    | with_reducible apply Chip.maintain_last
    | split
    | (dsimp only [Safety.quiet, Rst.record, id])
    | exact hgq

theorem fullStart_last (e : StartEnv) (c : Chip) (hgq : Lasting q0 c.pat.recovery c.evc) :
    Lasting q0 (fullStart e c).1.pat.recovery (fullStart e c).1.evc := by
  unfold fullStart
  try dsimp only
  repeat' first
    | with_reducible assumption
    | with_reducible apply foldl_last
    | with_reducible apply foldlM_last
    | intro _
    | with_reducible apply Chip.bringUp_last
    | with_reducible apply Chip.chooseSlot_last
    | split
    | (dsimp only [Safety.quiet, Rst.record, id])
    | exact hgq

theorem Chip.leaveGarments_last (c : Chip) (cause : Nat) (hgq : Lasting q0 c.pat.recovery c.evc) :
    Lasting q0 (Chip.leaveGarments c cause).pat.recovery (Chip.leaveGarments c cause).evc := by
  unfold Chip.leaveGarments
  try dsimp only
  repeat' first
    | with_reducible assumption
    | with_reducible apply foldl_last
    | with_reducible apply foldlM_last
    | intro _
    | with_reducible apply Chip.hold_last
    | with_reducible apply Chip.tellAll_last
    | with_reducible apply Chip.dropHold_last
    | with_reducible apply Chip.dropHop_last
    | with_reducible apply Chip.refuseGarment_last
    | with_reducible apply Chip.recordAbort_last
    | split
    | (dsimp only [Safety.quiet, Rst.record, id])
    | exact hgq

theorem killAll_last (c : Chip × Mem) (hgq : Lasting q0 c.1.pat.recovery c.1.evc) :
    Lasting q0 (killAll c).1.pat.recovery (killAll c).1.evc := by
  unfold killAll
  try dsimp only
  repeat' first
    | with_reducible assumption
    | with_reducible apply foldl_last
    | with_reducible apply foldlM_last
    | intro _
    | with_reducible apply killTicket_last
    | split
    | (dsimp only [Safety.quiet, Rst.record, id])
    | exact hgq

theorem Chip.haltEngines_last (c : Chip) (hgq : Lasting q0 c.pat.recovery c.evc) :
    Lasting q0 (Chip.haltEngines c).pat.recovery (Chip.haltEngines c).evc := by
  unfold Chip.haltEngines
  try dsimp only
  repeat' first
    | with_reducible assumption
    | with_reducible apply foldl_last
    | with_reducible apply foldlM_last
    | intro _
    | split
    | (dsimp only [Safety.quiet, Rst.record, id])
    | exact hgq

theorem powerCycle_last (cause engine : Nat) (c : Chip × Mem) (hgq : Lasting q0 c.1.pat.recovery c.1.evc) :
    Lasting q0 (powerCycle cause engine c).1.pat.recovery (powerCycle cause engine c).1.evc := by
  unfold powerCycle
  try dsimp only
  repeat' first
    | with_reducible assumption
    | with_reducible apply foldl_last
    | with_reducible apply foldlM_last
    | intro _
    | with_reducible apply Chip.alarm_last
    | with_reducible apply Chip.endTink_last
    | with_reducible apply Chip.leaveGarments_last
    | with_reducible apply killAll_last
    | with_reducible apply Chip.haltEngines_last
    | split
    | (dsimp only [Safety.quiet, Rst.record, id])
    | exact hgq

theorem warmDown_last (cause engine : Nat) (c : Chip × Mem) (hgq : Lasting q0 c.1.pat.recovery c.1.evc) :
    Lasting q0 (warmDown cause engine c).1.pat.recovery (warmDown cause engine c).1.evc := by
  unfold warmDown
  try dsimp only
  repeat' first
    | with_reducible assumption
    | with_reducible apply foldl_last
    | with_reducible apply foldlM_last
    | intro _
    | with_reducible apply Chip.endTink_last
    | with_reducible apply Chip.leaveGarments_last
    | with_reducible apply killAll_last
    | with_reducible apply Chip.haltEngines_last
    | split
    | (dsimp only [Safety.quiet, Rst.record, id])
    | exact hgq

theorem Chip.retest_last (c : Chip) (hgq : Lasting q0 c.pat.recovery c.evc) :
    Lasting q0 (Chip.retest c).pat.recovery (Chip.retest c).evc := by
  unfold Chip.retest
  try dsimp only
  repeat' first
    | with_reducible assumption
    | with_reducible apply foldl_last
    | with_reducible apply foldlM_last
    | intro _
    | with_reducible apply Chip.incidentIf_last
    | split
    | (dsimp only [Safety.quiet, Rst.record, id])
    | exact hgq

theorem Chip.keepHanks_last (c : Chip) (hgq : Lasting q0 c.pat.recovery c.evc) :
    Lasting q0 (Chip.keepHanks c).pat.recovery (Chip.keepHanks c).evc := by
  unfold Chip.keepHanks
  try dsimp only
  repeat' first
    | with_reducible assumption
    | with_reducible apply foldl_last
    | with_reducible apply foldlM_last
    | intro _
    | split
    | (dsimp only [Safety.quiet, Rst.record, id])
    | exact hgq

theorem warmUp_last (c : Chip × Mem) (hgq : Lasting q0 c.1.pat.recovery c.1.evc) :
    Lasting q0 (warmUp c).1.pat.recovery (warmUp c).1.evc := by
  unfold warmUp
  try dsimp only
  repeat' first
    | with_reducible assumption
    | with_reducible apply foldl_last
    | with_reducible apply foldlM_last
    | intro _
    | with_reducible apply Chip.alarm_last
    | with_reducible apply Chip.applyPattern_last
    | with_reducible apply powerCycle_last
    | with_reducible apply Chip.retest_last
    | with_reducible apply Chip.keepHanks_last
    | split
    | (dsimp only [Safety.quiet, Rst.record, id])
    | exact hgq

theorem warmReset_last (cause engine : Nat) (c : Chip × Mem) (hgq : Lasting q0 c.1.pat.recovery c.1.evc) :
    Lasting q0 (warmReset cause engine c).1.pat.recovery (warmReset cause engine c).1.evc := by
  unfold warmReset
  try dsimp only
  repeat' first
    | with_reducible assumption
    | with_reducible apply foldl_last
    | with_reducible apply foldlM_last
    | intro _
    | with_reducible apply fullStart_last
    | with_reducible apply powerCycle_last
    | with_reducible apply warmDown_last
    | with_reducible apply warmUp_last
    | split
    | (dsimp only [Safety.quiet, Rst.record, id])
    | exact hgq

theorem maintenanceStart_last (c : Chip × Mem) (hgq : Lasting q0 c.1.pat.recovery c.1.evc) :
    Lasting q0 (maintenanceStart c).1.pat.recovery (maintenanceStart c).1.evc := by
  unfold maintenanceStart
  try dsimp only
  repeat' first
    | with_reducible assumption
    | with_reducible apply foldl_last
    | with_reducible apply foldlM_last
    | intro _
    | with_reducible apply Chip.maintain_last
    | with_reducible apply warmDown_last
    | split
    | (dsimp only [Safety.quiet, Rst.record, id])
    | exact hgq

/-! Faults -/

theorem trip_last (engine ctx : Nat) (c : Chip × Mem) (hgq : Lasting q0 c.1.pat.recovery c.1.evc) :
    Lasting q0 (trip engine ctx c).1.pat.recovery (trip engine ctx c).1.evc := by
  unfold trip
  try dsimp only
  repeat' first
    | with_reducible assumption
    | with_reducible apply foldl_last
    | with_reducible apply foldlM_last
    | intro _
    | with_reducible apply Chip.toTrip_last
    | with_reducible apply Chip.countTrip_last
    | with_reducible apply engineTrip_last
    | with_reducible apply warmReset_last
    | split
    | (dsimp only [Safety.quiet, Rst.record, id])
    | exact hgq

theorem overrun_last (l : RecLevel) (c : Chip × Mem) (hgq : Lasting q0 c.1.pat.recovery c.1.evc) :
    Lasting q0 (overrun l c).1.pat.recovery (overrun l c).1.evc := by
  unfold overrun
  try dsimp only
  repeat' first
    | with_reducible assumption
    | with_reducible apply foldl_last
    | with_reducible apply foldlM_last
    | intro _
    | with_reducible apply engineReset_last
    | with_reducible apply panelReset_last
    | with_reducible apply powerCycle_last
    | with_reducible apply warmReset_last
    | split
    | (dsimp only [Safety.quiet, Rst.record, id])
    | exact hgq

theorem waitTimeout_last (ticket source stage : Nat) (c : Chip × Mem) (hgq : Lasting q0 c.1.pat.recovery c.1.evc) :
    Lasting q0 (waitTimeout ticket source stage c).1.pat.recovery (waitTimeout ticket source stage c).1.evc := by
  unfold waitTimeout
  try dsimp only
  repeat' first
    | with_reducible assumption
    | with_reducible apply foldl_last
    | with_reducible apply foldlM_last
    | intro _
    | with_reducible apply Chip.advance_last
    | with_reducible apply Chip.updTicket_last
    | with_reducible apply Chip.note_last
    | with_reducible apply Chip.voidFrame_last
    | with_reducible apply progress_last
    | with_reducible apply engineTrip_last
    | split
    | (dsimp only [Safety.quiet, Rst.record, id])
    | exact hgq

theorem Chip.requestDone_last (c : Chip) (result : Nat) (hgq : Lasting q0 c.pat.recovery c.evc) :
    Lasting q0 (Chip.requestDone c result).pat.recovery (Chip.requestDone c result).evc := by
  unfold Chip.requestDone
  try dsimp only
  repeat' first
    | with_reducible assumption
    | with_reducible apply foldl_last
    | with_reducible apply foldlM_last
    | intro _
    | with_reducible apply Chip.edge_last
    | with_reducible apply Lasting.edge
    | split
    | (dsimp only [Safety.quiet, Rst.record, id])
    | exact hgq

theorem hostRequest_last (ok : Bool) (run : Chip × Mem → Chip × Mem) (absorbed : Chip → Bool) (c : Chip × Mem) (hrun : ∀ d, Lasting q0 d.1.pat.recovery d.1.evc → Lasting q0 (run d).1.pat.recovery (run d).1.evc) (hgq : Lasting q0 c.1.pat.recovery c.1.evc) :
    Lasting q0 (hostRequest ok run absorbed c).1.pat.recovery (hostRequest ok run absorbed c).1.evc := by
  unfold hostRequest
  try dsimp only
  repeat' first
    | with_reducible assumption
    | with_reducible apply foldl_last
    | with_reducible apply foldlM_last
    | intro _
    | with_reducible apply Chip.regIncident_last
    | with_reducible apply Chip.requestDone_last
    | with_reducible apply hrun
    | split
    | (dsimp only [Safety.quiet, Rst.record, id])
    | exact hgq

theorem hostFrog_last (ctx : Nat) (c : Chip × Mem) (hgq : Lasting q0 c.1.pat.recovery c.1.evc) :
    Lasting q0 (hostFrog ctx c).1.pat.recovery (hostFrog ctx c).1.evc := by
  unfold hostFrog
  try dsimp only
  repeat' first
    | with_reducible assumption
    | with_reducible apply foldl_last
    | with_reducible apply foldlM_last
    | intro _
    | with_reducible apply frogContext_last
    | with_reducible apply abortGarment_last
    | with_reducible apply Chip.endTink_last
    | split
    | (dsimp only [Safety.quiet, Rst.record, id])
    | exact hgq

theorem frogRequest_last (ctx : Nat) (c : Chip × Mem) (hgq : Lasting q0 c.1.pat.recovery c.1.evc) :
    Lasting q0 (frogRequest ctx c).1.pat.recovery (frogRequest ctx c).1.evc := by
  unfold frogRequest
  try dsimp only
  repeat' first
    | with_reducible assumption
    | with_reducible apply foldl_last
    | with_reducible apply foldlM_last
    | intro _
    | with_reducible apply hostRequest_last
    | with_reducible apply hostFrog_last
    | split
    | (dsimp only [Safety.quiet, Rst.record, id])
    | exact hgq

theorem panelRequest_last (p : Nat) (c : Chip × Mem) (hgq : Lasting q0 c.1.pat.recovery c.1.evc) :
    Lasting q0 (panelRequest p c).1.pat.recovery (panelRequest p c).1.evc := by
  unfold panelRequest
  try dsimp only
  repeat' first
    | with_reducible assumption
    | with_reducible apply foldl_last
    | with_reducible apply foldlM_last
    | intro _
    | with_reducible apply panelReset_last
    | with_reducible apply hostRequest_last
    | split
    | (dsimp only [Safety.quiet, Rst.record, id])
    | exact hgq

theorem warmRequest_last (c : Chip × Mem) (hgq : Lasting q0 c.1.pat.recovery c.1.evc) :
    Lasting q0 (warmRequest c).1.pat.recovery (warmRequest c).1.evc := by
  unfold warmRequest
  try dsimp only
  repeat' first
    | with_reducible assumption
    | with_reducible apply foldl_last
    | with_reducible apply foldlM_last
    | intro _
    | with_reducible apply warmReset_last
    | with_reducible apply hostRequest_last
    | split
    | (dsimp only [Safety.quiet, Rst.record, id])
    | exact hgq

theorem maintRequest_last (c : Chip × Mem) (hgq : Lasting q0 c.1.pat.recovery c.1.evc) :
    Lasting q0 (maintRequest c).1.pat.recovery (maintRequest c).1.evc := by
  unfold maintRequest
  try dsimp only
  repeat' first
    | with_reducible assumption
    | with_reducible apply foldl_last
    | with_reducible apply foldlM_last
    | intro _
    | with_reducible apply maintenanceStart_last
    | with_reducible apply hostRequest_last
    | split
    | (dsimp only [Safety.quiet, Rst.record, id])
    | exact hgq

theorem cycleRequest_last (c : Chip × Mem) (hgq : Lasting q0 c.1.pat.recovery c.1.evc) :
    Lasting q0 (cycleRequest c).1.pat.recovery (cycleRequest c).1.evc := by
  unfold cycleRequest
  try dsimp only
  repeat' first
    | with_reducible assumption
    | with_reducible apply foldl_last
    | with_reducible apply foldlM_last
    | intro _
    | with_reducible apply powerCycle_last
    | with_reducible apply hostRequest_last
    | split
    | (dsimp only [Safety.quiet, Rst.record, id])
    | exact hgq

theorem parityError_last (pc : Nat) (c : Chip × Mem) (hgq : Lasting q0 c.1.pat.recovery c.1.evc) :
    Lasting q0 (parityError pc c).1.pat.recovery (parityError pc c).1.evc := by
  unfold parityError
  try dsimp only
  repeat' first
    | with_reducible assumption
    | with_reducible apply foldl_last
    | with_reducible apply foldlM_last
    | intro _
    | with_reducible apply Chip.alarm_last
    | with_reducible apply powerCycle_last
    | split
    | (dsimp only [Safety.quiet, Rst.record, id])
    | exact hgq

theorem Chip.patrol_last (c : Chip) (fixed bad : List Nat) (hgq : Lasting q0 c.pat.recovery c.evc) :
    Lasting q0 (Chip.patrol c fixed bad).pat.recovery (Chip.patrol c fixed bad).evc := by
  unfold Chip.patrol
  try dsimp only
  repeat' first
    | with_reducible assumption
    | with_reducible apply foldl_last
    | with_reducible apply foldlM_last
    | intro _
    | with_reducible apply Chip.hbmUe_last
    | split
    | (dsimp only [Safety.quiet, Rst.record, id])
    | exact hgq

theorem Chip.powerSample_last (c : Chip) (mw mv : Nat) (hgq : Lasting q0 c.pat.recovery c.evc) :
    Lasting q0 (Chip.powerSample c mw mv).pat.recovery (Chip.powerSample c mw mv).evc := by
  unfold Chip.powerSample
  try dsimp only
  repeat' first
    | with_reducible assumption
    | with_reducible apply foldl_last
    | with_reducible apply foldlM_last
    | intro _
    | with_reducible apply Chip.alarmIf_last
    | split
    | (dsimp only [Safety.quiet, Rst.record, id])
    | exact hgq

theorem progressEach_last (c : Chip × Mem) (hgq : Lasting q0 c.1.pat.recovery c.1.evc) :
    Lasting q0 (progressEach c).1.pat.recovery (progressEach c).1.evc := by
  unfold progressEach
  try dsimp only
  repeat' first
    | with_reducible assumption
    | with_reducible apply foldl_last
    | with_reducible apply foldlM_last
    | intro _
    | with_reducible apply progressAll_last
    | split
    | (dsimp only [Safety.quiet, Rst.record, id])
    | exact hgq

theorem powerSample_last (mw mv : Nat) (c : Chip × Mem) (hgq : Lasting q0 c.1.pat.recovery c.1.evc) :
    Lasting q0 (powerSample mw mv c).1.pat.recovery (powerSample mw mv c).1.evc := by
  unfold powerSample
  try dsimp only
  repeat' first
    | with_reducible assumption
    | with_reducible apply foldl_last
    | with_reducible apply foldlM_last
    | intro _
    | with_reducible apply Chip.meetRates_last
    | with_reducible apply Chip.shedding_last
    | with_reducible apply Chip.powerSample_last
    | with_reducible apply progressEach_last
    | split
    | (dsimp only [Safety.quiet, Rst.record, id])
    | exact hgq

theorem Chip.thermalReading_last (c : Chip) (temps : List Int) (hgq : Lasting q0 c.pat.recovery c.evc) :
    Lasting q0 (Chip.thermalReading c temps).pat.recovery (Chip.thermalReading c temps).evc := by
  unfold Chip.thermalReading
  try dsimp only
  repeat' first
    | with_reducible assumption
    | with_reducible apply foldl_last
    | with_reducible apply foldlM_last
    | intro _
    | with_reducible apply Chip.alarmIf_last
    | split
    | (dsimp only [Safety.quiet, Rst.record, id])
    | exact hgq

theorem thermalReading_last (temps : List Int) (c : Chip × Mem) (hgq : Lasting q0 c.1.pat.recovery c.1.evc) :
    Lasting q0 (thermalReading temps c).1.pat.recovery (thermalReading temps c).1.evc := by
  unfold thermalReading
  try dsimp only
  repeat' first
    | with_reducible assumption
    | with_reducible apply foldl_last
    | with_reducible apply foldlM_last
    | intro _
    | with_reducible apply Chip.alarm_last
    | with_reducible apply powerCycle_last
    | with_reducible apply Chip.thermalReading_last
    | split
    | (dsimp only [Safety.quiet, Rst.record, id])
    | exact hgq

/-! Rows -/

theorem Chip.latchAll_last (c : Chip) (hgq : Lasting q0 c.pat.recovery c.evc) :
    Lasting q0 (Chip.latchAll c).pat.recovery (Chip.latchAll c).evc := by
  unfold Chip.latchAll
  try dsimp only
  repeat' first
    | with_reducible assumption
    | with_reducible apply foldl_last
    | with_reducible apply foldlM_last
    | intro _
    | with_reducible apply Lasting.latch
    | exact Lasting.none hgq rfl
    | exact Lasting.of_srcs hgq rfl
    | split
    | (dsimp only [Safety.quiet, Rst.record, id])
    | exact hgq

theorem Chip.alarmSummary_last (c : Chip) (supp : Tbl Nat) (hgq : Lasting q0 c.pat.recovery c.evc) :
    Lasting q0 (Chip.alarmSummary c supp).pat.recovery (Chip.alarmSummary c supp).evc := by
  unfold Chip.alarmSummary
  try dsimp only
  repeat' first
    | with_reducible assumption
    | with_reducible apply foldl_last
    | with_reducible apply foldlM_last
    | intro _
    | with_reducible apply Chip.tellAll_last
    | split
    | (dsimp only [Safety.quiet, Rst.record, id])
    | exact hgq

theorem resumeShed_last (c : Chip × Mem) (hgq : Lasting q0 c.1.pat.recovery c.1.evc) :
    Lasting q0 (resumeShed c).1.pat.recovery (resumeShed c).1.evc := by
  unfold resumeShed
  try dsimp only
  repeat' first
    | with_reducible assumption
    | with_reducible apply foldl_last
    | with_reducible apply foldlM_last
    | intro _
    | with_reducible apply Chip.pumpAll_last
    | with_reducible apply Chip.startSample_last
    | with_reducible apply Chip.fillPanel_last
    | split
    | (dsimp only [Safety.quiet, Rst.record, id])
    | exact hgq

theorem Chip.rowEnd_last (c : Chip) (e : RowEnv) (hgq : Lasting q0 c.pat.recovery c.evc) :
    Lasting q0 (Chip.rowEnd c e).pat.recovery (Chip.rowEnd c e).evc := by
  unfold Chip.rowEnd
  try dsimp only
  repeat' first
    | with_reducible assumption
    | with_reducible apply foldl_last
    | with_reducible apply foldlM_last
    | intro _
    | with_reducible apply Chip.advance_last
    | with_reducible apply Chip.summaryRecord_last
    | with_reducible apply Chip.garRise_last
    | with_reducible apply Chip.thermalRow_last
    | with_reducible apply Chip.tensionRow_last
    | with_reducible apply Chip.retryResident_last
    | with_reducible apply Chip.meetRates_last
    | with_reducible apply Chip.latchAll_last
    | with_reducible apply Chip.alarmSummary_last
    | split
    | (dsimp only [Safety.quiet, Rst.record, id])
    | exact hgq

theorem rowBoundary_last (e : RowEnv) (c : Chip × Mem) (hgq : Lasting q0 c.1.pat.recovery c.1.evc) :
    Lasting q0 (rowBoundary e c).1.pat.recovery (rowBoundary e c).1.evc := by
  unfold rowBoundary
  try dsimp only
  repeat' first
    | with_reducible assumption
    | with_reducible apply foldl_last
    | with_reducible apply foldlM_last
    | intro _
    | with_reducible apply Chip.shedding_last
    | with_reducible apply progressEach_last
    | with_reducible apply resumeShed_last
    | with_reducible apply Chip.rowEnd_last
    | split
    | (dsimp only [Safety.quiet, Rst.record, id])
    | exact hgq

/-! Complete -/

theorem Chip.sampleFault_last (c : Chip) (m : Mem) (t : Ticket) (hgq : Lasting q0 c.pat.recovery c.evc) :
    Lasting q0 (Chip.sampleFault c m t).pat.recovery (Chip.sampleFault c m t).evc := by
  unfold Chip.sampleFault
  try dsimp only
  repeat' first
    | with_reducible assumption
    | with_reducible apply foldl_last
    | with_reducible apply foldlM_last
    | intro _
    | with_reducible apply Chip.reTicket_last
    | with_reducible apply Chip.startSample_last
    | split
    | (dsimp only [Safety.quiet, Rst.record, id])
    | exact hgq

theorem Chip.workFault_last (c : Chip) (m : Mem) (ticket : Nat) (p : Placed) (f : Option FrameRt) (hgq : Lasting q0 c.pat.recovery c.evc) :
    Lasting q0 (Chip.workFault c m ticket p f).pat.recovery (Chip.workFault c m ticket p f).evc := by
  unfold Chip.workFault
  try dsimp only
  repeat' first
    | with_reducible assumption
    | with_reducible apply foldl_last
    | with_reducible apply foldlM_last
    | intro _
    | with_reducible apply Chip.voidFrame_last
    | with_reducible apply Chip.sampleFault_last
    | split
    | (dsimp only [Safety.quiet, Rst.record, id])
    | exact hgq

theorem Chip.faultIncident_last (c : Chip) (n ctx status : Nat) (hgq : Lasting q0 c.pat.recovery c.evc) :
    Lasting q0 (Chip.faultIncident c n ctx status).pat.recovery (Chip.faultIncident c n ctx status).evc := by
  unfold Chip.faultIncident
  try dsimp only
  repeat' first
    | with_reducible assumption
    | with_reducible apply foldl_last
    | with_reducible apply foldlM_last
    | intro _
    | with_reducible apply Chip.incident_last
    | split
    | (dsimp only [Safety.quiet, Rst.record, id])
    | exact hgq

theorem columnLimit_last (n : Nat) (c : Chip × Mem) (hgq : Lasting q0 c.1.pat.recovery c.1.evc) :
    Lasting q0 (columnLimit n c).1.pat.recovery (columnLimit n c).1.evc := by
  unfold columnLimit
  try dsimp only
  repeat' first
    | with_reducible assumption
    | with_reducible apply foldl_last
    | with_reducible apply foldlM_last
    | intro _
    | with_reducible apply Chip.alarm_last
    | with_reducible apply warmReset_last
    | split
    | (dsimp only [Safety.quiet, Rst.record, id])
    | exact hgq

theorem roleDone_last (r : OpRole) (c : Chip × Mem) (hgq : Lasting q0 c.1.pat.recovery c.1.evc) :
    Lasting q0 (roleDone r c).1.pat.recovery (roleDone r c).1.evc := by
  unfold roleDone
  try dsimp only
  repeat' first
    | with_reducible assumption
    | with_reducible apply foldl_last
    | with_reducible apply foldlM_last
    | intro _
    | with_reducible apply Chip.updTicket_last
    | with_reducible apply Chip.startSample_last
    | with_reducible apply optimiser_last
    | with_reducible apply Chip.associated_last
    | split
    | (dsimp only [Safety.quiet, Rst.record, id])
    | exact hgq

theorem operationComplete_last (n tag : Nat) (e : OpEnd) (stalls withheld corrected : Nat) (r : OpRole) (c : Chip × Mem) (hgq : Lasting q0 c.1.pat.recovery c.1.evc) :
    Lasting q0 (operationComplete n tag e stalls withheld corrected r c).1.pat.recovery (operationComplete n tag e stalls withheld corrected r c).1.evc := by
  unfold operationComplete
  try dsimp only
  repeat' first
    | with_reducible assumption
    | with_reducible apply foldl_last
    | with_reducible apply foldlM_last
    | intro _
    | with_reducible apply Chip.pumpAll_last
    | with_reducible apply completeOp_last
    | with_reducible apply progress_last
    | with_reducible apply Chip.workFault_last
    | with_reducible apply Chip.faultIncident_last
    | with_reducible apply columnLimit_last
    | with_reducible apply roleDone_last
    | split
    | (dsimp only [Safety.quiet, Rst.record, id])
    | exact hgq

/-! Submit -/

theorem Chip.tlp_last (c : Chip) (hgq : Lasting q0 c.pat.recovery c.evc) :
    Lasting q0 (Chip.tlp c).pat.recovery (Chip.tlp c).evc := by
  unfold Chip.tlp
  try dsimp only
  repeat' first
    | with_reducible assumption
    | with_reducible apply foldl_last
    | with_reducible apply foldlM_last
    | intro _
    | split
    | (dsimp only [Safety.quiet, Rst.record, id])
    | exact hgq

theorem Chip.refuseEntry_last (c : Chip) (g need : Nat) (e : List Byte) (status : Nat) (hgq : Lasting q0 c.pat.recovery c.evc) :
    Lasting q0 (Chip.refuseEntry c g need e status).pat.recovery (Chip.refuseEntry c g need e status).evc := by
  unfold Chip.refuseEntry
  try dsimp only
  repeat' first
    | with_reducible assumption
    | with_reducible apply foldl_last
    | with_reducible apply foldlM_last
    | intro _
    | with_reducible apply Chip.answer_last
    | with_reducible apply Chip.accept_last
    | with_reducible apply Chip.unreserve_last
    | split
    | (dsimp only [Safety.quiet, Rst.record, id])
    | exact hgq

theorem submit_last (fn q op : Nat) (e : List Byte) (check : Nat) (f : Nat → Chip × Mem → Chip × Mem) (c : Chip × Mem) (hf : ∀ k d, Lasting q0 d.1.pat.recovery d.1.evc → Lasting q0 (f k d).1.pat.recovery (f k d).1.evc) (hgq : Lasting q0 c.1.pat.recovery c.1.evc) :
    Lasting q0 (submit fn q op e check f c).1.pat.recovery (submit fn q op e check f c).1.evc := by
  unfold submit
  try dsimp only
  repeat' first
    | with_reducible assumption
    | with_reducible apply foldl_last
    | with_reducible apply foldlM_last
    | intro _
    | with_reducible apply Chip.refuseEntry_last
    | with_reducible apply hf
    | split
    | (dsimp only [Safety.quiet, Rst.record, id])
    | exact hgq

theorem Chip.resolve_last (c : Chip) (g : Nat) (e : List Byte) (d : HostRead) (hgq : Lasting q0 c.pat.recovery c.evc) :
    Lasting q0 (Chip.resolve c g e d).pat.recovery (Chip.resolve c g e d).evc := by
  unfold Chip.resolve
  try dsimp only
  repeat' first
    | with_reducible assumption
    | with_reducible apply foldl_last
    | with_reducible apply foldlM_last
    | intro _
    | split
    | (dsimp only [Safety.quiet, Rst.record, id])
    | exact hgq

theorem nop_last (fn q : Nat) (e : List Byte) (c : Chip × Mem) (hgq : Lasting q0 c.1.pat.recovery c.1.evc) :
    Lasting q0 (nop fn q e c).1.pat.recovery (nop fn q e c).1.evc := by
  unfold nop
  try dsimp only
  repeat' first
    | with_reducible assumption
    | with_reducible apply foldl_last
    | with_reducible apply foldlM_last
    | intro _
    | with_reducible apply Chip.answer_last
    | with_reducible apply Chip.accept_last
    | with_reducible apply submit_last
    | split
    | (dsimp only [Safety.quiet, Rst.record, id])
    | exact hgq

theorem Chip.hankReleaseAll_last (c : Chip) (hs : List Nat) (hgq : Lasting q0 c.pat.recovery c.evc) :
    Lasting q0 (Chip.hankReleaseAll c hs).pat.recovery (Chip.hankReleaseAll c hs).evc := by
  unfold Chip.hankReleaseAll
  try dsimp only
  repeat' first
    | with_reducible assumption
    | with_reducible apply foldl_last
    | with_reducible apply foldlM_last
    | intro _
    | split
    | (dsimp only [Safety.quiet, Rst.record, id])
    | exact hgq

theorem Chip.dropUnit_last (c : Chip) (g : Nat) (hgq : Lasting q0 c.pat.recovery c.evc) :
    Lasting q0 (Chip.dropUnit c g).pat.recovery (Chip.dropUnit c g).evc := by
  unfold Chip.dropUnit
  try dsimp only
  repeat' first
    | with_reducible assumption
    | with_reducible apply foldl_last
    | with_reducible apply foldlM_last
    | intro _
    | with_reducible apply Chip.updQueue_last
    | with_reducible apply Chip.hankReleaseAll_last
    | split
    | (dsimp only [Safety.quiet, Rst.record, id])
    | exact hgq

theorem takePart_last (g need : Nat) (e : List Byte) (t : Ticket) (hs : List Nat) (pic : PicInfo) (c : Chip × Mem) (hgq : Lasting q0 c.1.pat.recovery c.1.evc) :
    Lasting q0 (takePart g need e t hs pic c).1.pat.recovery (takePart g need e t hs pic c).1.evc := by
  unfold takePart
  try dsimp only
  repeat' first
    | with_reducible assumption
    | with_reducible apply foldl_last
    | with_reducible apply foldlM_last
    | intro _
    | with_reducible apply Chip.updQueue_last
    | with_reducible apply Chip.answer_last
    | with_reducible apply Chip.accept_last
    | with_reducible apply Chip.arriveUnit_last
    | with_reducible apply progress_last
    | split
    | (dsimp only [Safety.quiet, Rst.record, id])
    | exact hgq

theorem dataPart_last (g need : Nat) (e : List Byte) (t : Ticket) (d : HostRead) (pic : PicInfo) (c : Chip × Mem) (hgq : Lasting q0 c.1.pat.recovery c.1.evc) :
    Lasting q0 (dataPart g need e t d pic c).1.pat.recovery (dataPart g need e t d pic c).1.evc := by
  unfold dataPart
  try dsimp only
  repeat' first
    | with_reducible assumption
    | with_reducible apply foldl_last
    | with_reducible apply foldlM_last
    | intro _
    | with_reducible apply Chip.wrote_last
    | with_reducible apply Chip.refuseEntry_last
    | with_reducible apply Chip.resolve_last
    | with_reducible apply Chip.dropUnit_last
    | with_reducible apply takePart_last
    | split
    | (dsimp only [Safety.quiet, Rst.record, id])
    | exact hgq

theorem handlePart_last (g need : Nat) (e : List Byte) (t : Ticket) (d : HostRead) (pic : PicInfo) (c : Chip × Mem) (hgq : Lasting q0 c.1.pat.recovery c.1.evc) :
    Lasting q0 (handlePart g need e t d pic c).1.pat.recovery (handlePart g need e t d pic c).1.evc := by
  unfold handlePart
  try dsimp only
  repeat' first
    | with_reducible assumption
    | with_reducible apply foldl_last
    | with_reducible apply foldlM_last
    | intro _
    | with_reducible apply Chip.hankRefuse_last
    | with_reducible apply Chip.hankPass_last
    | with_reducible apply Chip.refuseEntry_last
    | with_reducible apply Chip.resolve_last
    | with_reducible apply Chip.dropUnit_last
    | with_reducible apply takePart_last
    | split
    | (dsimp only [Safety.quiet, Rst.record, id])
    | exact hgq

theorem frameEntry_last (fn : Nat) (e : List Byte) (d : HostRead) (pic : PicInfo) (g : Nat) (c : Chip × Mem) (hgq : Lasting q0 c.1.pat.recovery c.1.evc) :
    Lasting q0 (frameEntry fn e d pic g c).1.pat.recovery (frameEntry fn e d pic g c).1.evc := by
  unfold frameEntry
  try dsimp only
  repeat' first
    | with_reducible assumption
    | with_reducible apply foldl_last
    | with_reducible apply foldlM_last
    | intro _
    | with_reducible apply Chip.refuseEntry_last
    | with_reducible apply Chip.dropUnit_last
    | with_reducible apply dataPart_last
    | with_reducible apply handlePart_last
    | split
    | (dsimp only [Safety.quiet, Rst.record, id])
    | exact hgq

theorem accessOff_last (fn q op : Nat) (e : List Byte) (reads : Bool) (c : Chip × Mem) (hgq : Lasting q0 c.1.pat.recovery c.1.evc) :
    Lasting q0 (accessOff fn q op e reads c).1.pat.recovery (accessOff fn q op e reads c).1.evc := by
  unfold accessOff
  try dsimp only
  repeat' first
    | with_reducible assumption
    | with_reducible apply foldl_last
    | with_reducible apply foldlM_last
    | intro _
    | with_reducible apply Chip.refuseEntry_last
    | with_reducible apply Chip.dropUnit_last
    | split
    | (dsimp only [Safety.quiet, Rst.record, id])
    | exact hgq

theorem frame_last (fn q : Nat) (e : List Byte) (d : HostRead) (pic : PicInfo) (c : Chip × Mem) (hgq : Lasting q0 c.1.pat.recovery c.1.evc) :
    Lasting q0 (frame fn q e d pic c).1.pat.recovery (frame fn q e d pic c).1.evc := by
  unfold frame
  try dsimp only
  repeat' first
    | with_reducible assumption
    | with_reducible apply foldl_last
    | with_reducible apply foldlM_last
    | intro _
    | with_reducible apply submit_last
    | with_reducible apply frameEntry_last
    | with_reducible apply accessOff_last
    | split
    | (dsimp only [Safety.quiet, Rst.record, id])
    | exact hgq

theorem Chip.takeSample_last (c : Chip) (m : Mem) (t : Ticket) (d : List Byte) (pic : PicInfo) (reserved : Nat) (hgq : Lasting q0 c.pat.recovery c.evc) :
    Lasting q0 (Chip.takeSample c m t d pic reserved).pat.recovery (Chip.takeSample c m t d pic reserved).evc := by
  unfold Chip.takeSample
  try dsimp only
  repeat' first
    | with_reducible assumption
    | with_reducible apply foldl_last
    | with_reducible apply foldlM_last
    | intro _
    | with_reducible apply Chip.updTicket_last
    | with_reducible apply Chip.giveBack_last
    | with_reducible apply Chip.startSample_last
    | with_reducible apply Chip.decodeSample_last
    | split
    | (dsimp only [Safety.quiet, Rst.record, id])
    | exact hgq

theorem sampleEntry_last (fn : Nat) (e : List Byte) (d : HostRead) (pic : PicInfo) (g : Nat) (c : Chip × Mem) (hgq : Lasting q0 c.1.pat.recovery c.1.evc) :
    Lasting q0 (sampleEntry fn e d pic g c).1.pat.recovery (sampleEntry fn e d pic g c).1.evc := by
  unfold sampleEntry
  try dsimp only
  repeat' first
    | with_reducible assumption
    | with_reducible apply foldl_last
    | with_reducible apply foldlM_last
    | intro _
    | with_reducible apply Chip.answer_last
    | with_reducible apply Chip.accept_last
    | with_reducible apply progress_last
    | with_reducible apply Chip.refuseEntry_last
    | with_reducible apply Chip.resolve_last
    | with_reducible apply Chip.takeSample_last
    | split
    | (dsimp only [Safety.quiet, Rst.record, id])
    | exact hgq

theorem sample_last (fn q : Nat) (e : List Byte) (d : HostRead) (pic : PicInfo) (c : Chip × Mem) (hgq : Lasting q0 c.1.pat.recovery c.1.evc) :
    Lasting q0 (sample fn q e d pic c).1.pat.recovery (sample fn q e d pic c).1.evc := by
  unfold sample
  try dsimp only
  repeat' first
    | with_reducible assumption
    | with_reducible apply foldl_last
    | with_reducible apply foldlM_last
    | intro _
    | with_reducible apply submit_last
    | with_reducible apply accessOff_last
    | with_reducible apply sampleEntry_last
    | split
    | (dsimp only [Safety.quiet, Rst.record, id])
    | exact hgq

theorem allocEntry_last (fn : Nat) (e : List Byte) (g : Nat) (c : Chip × Mem) (hgq : Lasting q0 c.1.pat.recovery c.1.evc) :
    Lasting q0 (allocEntry fn e g c).1.pat.recovery (allocEntry fn e g c).1.evc := by
  unfold allocEntry
  try dsimp only
  repeat' first
    | with_reducible assumption
    | with_reducible apply foldl_last
    | with_reducible apply foldlM_last
    | intro _
    | with_reducible apply Chip.hostWrite_last
    | with_reducible apply Chip.answer_last
    | with_reducible apply Chip.accept_last
    | with_reducible apply Chip.refuseEntry_last
    | split
    | (dsimp only [Safety.quiet, Rst.record, id])
    | exact hgq

theorem alloc_last (fn q : Nat) (e : List Byte) (c : Chip × Mem) (hgq : Lasting q0 c.1.pat.recovery c.1.evc) :
    Lasting q0 (alloc fn q e c).1.pat.recovery (alloc fn q e c).1.evc := by
  unfold alloc
  try dsimp only
  repeat' first
    | with_reducible assumption
    | with_reducible apply foldl_last
    | with_reducible apply foldlM_last
    | intro _
    | with_reducible apply submit_last
    | with_reducible apply allocEntry_last
    | split
    | (dsimp only [Safety.quiet, Rst.record, id])
    | exact hgq

theorem freeHandle_last (fn : Nat) (acc : Chip × Nat) (x : Nat) (hgq : Lasting q0 acc.1.pat.recovery acc.1.evc) :
    Lasting q0 (freeHandle fn acc x).1.pat.recovery (freeHandle fn acc x).1.evc := by
  unfold freeHandle
  split
  · exact Chip.freeNoHank_last _ _ _ hgq
  · exact Chip.hankFree_last _ _ _ hgq

theorem Chip.freeHandles_last (c : Chip) (fn n : Nat) (b : List Byte) (hgq : Lasting q0 c.pat.recovery c.evc) :
    Lasting q0 (c.freeHandles fn n b).1.pat.recovery (c.freeHandles fn n b).1.evc := by
  unfold Chip.freeHandles
  generalize List.map _ _ = l
  suffices hs : ∀ a : Chip × Nat, Lasting q0 a.1.pat.recovery a.1.evc → Lasting q0 (l.foldl (freeHandle fn) a).1.pat.recovery (l.foldl (freeHandle fn) a).1.evc from hs _ hgq
  induction l with
  | nil => exact fun _ h => h
  | cons x l ih => exact fun a h => ih _ (freeHandle_last _ _ _ h)

theorem freeEntry_last (fn : Nat) (e : List Byte) (d : HostRead) (g : Nat) (c : Chip × Mem) (hgq : Lasting q0 c.1.pat.recovery c.1.evc) :
    Lasting q0 (freeEntry fn e d g c).1.pat.recovery (freeEntry fn e d g c).1.evc := by
  unfold freeEntry
  try dsimp only
  repeat' first
    | with_reducible assumption
    | with_reducible apply foldl_last
    | with_reducible apply foldlM_last
    | intro _
    | with_reducible apply Chip.answer_last
    | with_reducible apply Chip.accept_last
    | with_reducible apply Chip.refuseEntry_last
    | with_reducible apply Chip.resolve_last
    | with_reducible apply Chip.freeHandles_last
    | split
    | (dsimp only [Safety.quiet, Rst.record, id])
    | exact hgq

theorem free_last (fn q : Nat) (e : List Byte) (d : HostRead) (c : Chip × Mem) (hgq : Lasting q0 c.1.pat.recovery c.1.evc) :
    Lasting q0 (free fn q e d c).1.pat.recovery (free fn q e d c).1.evc := by
  unfold free
  try dsimp only
  repeat' first
    | with_reducible assumption
    | with_reducible apply foldl_last
    | with_reducible apply foldlM_last
    | intro _
    | with_reducible apply submit_last
    | with_reducible apply accessOff_last
    | with_reducible apply freeEntry_last
    | split
    | (dsimp only [Safety.quiet, Rst.record, id])
    | exact hgq

theorem copyEntry_last (fn : Nat) (e : List Byte) (d : HostRead) (g : Nat) (c : Chip × Mem) (hgq : Lasting q0 c.1.pat.recovery c.1.evc) :
    Lasting q0 (copyEntry fn e d g c).1.pat.recovery (copyEntry fn e d g c).1.evc := by
  unfold copyEntry
  try dsimp only
  repeat' first
    | with_reducible assumption
    | with_reducible apply foldl_last
    | with_reducible apply foldlM_last
    | intro _
    | with_reducible apply Chip.hostWrite_last
    | with_reducible apply Chip.answer_last
    | with_reducible apply Chip.accept_last
    | with_reducible apply Chip.hbmFetch_last
    | with_reducible apply Chip.refuseEntry_last
    | with_reducible apply Chip.resolve_last
    | split
    | (dsimp only [Safety.quiet, Rst.record, id])
    | exact hgq

theorem copyOut_last (fn q : Nat) (e : List Byte) (d : HostRead) (c : Chip × Mem) (hgq : Lasting q0 c.1.pat.recovery c.1.evc) :
    Lasting q0 (copyOut fn q e d c).1.pat.recovery (copyOut fn q e d c).1.evc := by
  unfold copyOut
  try dsimp only
  repeat' first
    | with_reducible assumption
    | with_reducible apply foldl_last
    | with_reducible apply foldlM_last
    | intro _
    | with_reducible apply submit_last
    | with_reducible apply accessOff_last
    | with_reducible apply copyEntry_last
    | split
    | (dsimp only [Safety.quiet, Rst.record, id])
    | exact hgq

theorem signalEntry_last (fn : Nat) (e : List Byte) (g : Nat) (c : Chip × Mem) (hgq : Lasting q0 c.1.pat.recovery c.1.evc) :
    Lasting q0 (signalEntry fn e g c).1.pat.recovery (signalEntry fn e g c).1.evc := by
  unfold signalEntry
  try dsimp only
  repeat' first
    | with_reducible assumption
    | with_reducible apply foldl_last
    | with_reducible apply foldlM_last
    | intro _
    | with_reducible apply Chip.answer_last
    | with_reducible apply Chip.accept_last
    | with_reducible apply Chip.signalMap_last
    | with_reducible apply progress_last
    | with_reducible apply Chip.refuseEntry_last
    | split
    | (dsimp only [Safety.quiet, Rst.record, id])
    | exact hgq

theorem signal_last (fn q : Nat) (e : List Byte) (c : Chip × Mem) (hgq : Lasting q0 c.1.pat.recovery c.1.evc) :
    Lasting q0 (signal fn q e c).1.pat.recovery (signal fn q e c).1.evc := by
  unfold signal
  try dsimp only
  repeat' first
    | with_reducible assumption
    | with_reducible apply foldl_last
    | with_reducible apply foldlM_last
    | intro _
    | with_reducible apply submit_last
    | with_reducible apply signalEntry_last
    | split
    | (dsimp only [Safety.quiet, Rst.record, id])
    | exact hgq

theorem waitEntry_last (fn : Nat) (e : List Byte) (g : Nat) (c : Chip × Mem) (hgq : Lasting q0 c.1.pat.recovery c.1.evc) :
    Lasting q0 (waitEntry fn e g c).1.pat.recovery (waitEntry fn e g c).1.evc := by
  unfold waitEntry
  try dsimp only
  repeat' first
    | with_reducible assumption
    | with_reducible apply foldl_last
    | with_reducible apply foldlM_last
    | intro _
    | with_reducible apply Chip.answer_last
    | with_reducible apply Chip.accept_last
    | with_reducible apply Chip.refuseEntry_last
    | split
    | (dsimp only [Safety.quiet, Rst.record, id])
    | exact hgq

theorem wait_last (fn q : Nat) (e : List Byte) (c : Chip × Mem) (hgq : Lasting q0 c.1.pat.recovery c.1.evc) :
    Lasting q0 (wait fn q e c).1.pat.recovery (wait fn q e c).1.evc := by
  unfold wait
  try dsimp only
  repeat' first
    | with_reducible assumption
    | with_reducible apply foldl_last
    | with_reducible apply foldlM_last
    | intro _
    | with_reducible apply submit_last
    | with_reducible apply waitEntry_last
    | split
    | (dsimp only [Safety.quiet, Rst.record, id])
    | exact hgq

theorem Chip.waitExpire_last (c : Chip) (q tag : Nat) (hgq : Lasting q0 c.pat.recovery c.evc) :
    Lasting q0 (Chip.waitExpire c q tag).pat.recovery (Chip.waitExpire c q tag).evc := by
  unfold Chip.waitExpire
  try dsimp only
  repeat' first
    | with_reducible assumption
    | with_reducible apply foldl_last
    | with_reducible apply foldlM_last
    | intro _
    | with_reducible apply Chip.advance_last
    | with_reducible apply Chip.answer_last
    | split
    | (dsimp only [Safety.quiet, Rst.record, id])
    | exact hgq

theorem Chip.withTarget_last (c : Chip) (g v : Nat) (hgq : Lasting q0 c.pat.recovery c.evc) :
    Lasting q0 (c.withTarget g v).pat.recovery (c.withTarget g v).evc := by
  exact Lasting.upd g (fun x => { x with target := 1, func := queueFn g, vector := v }) hgq (.inr (fun _ hx => hx)) rfl

theorem Chip.setVector_last (c : Chip) (g v : Nat) (hgq : Lasting q0 c.pat.recovery c.evc) :
    Lasting q0 (Chip.setVector c g v).pat.recovery (Chip.setVector c g v).evc := by
  unfold Chip.setVector
  try dsimp only
  repeat' first
    | with_reducible assumption
    | with_reducible apply foldl_last
    | with_reducible apply foldlM_last
    | intro _
    | with_reducible apply Chip.updQueue_last
    | with_reducible apply Chip.withTarget_last
    | split
    | (dsimp only [Safety.quiet, Rst.record, id])
    | exact hgq

theorem Chip.fetchSq_last (c : Chip) (g : Nat) (hgq : Lasting q0 c.pat.recovery c.evc) :
    Lasting q0 (Chip.fetchSq c g).pat.recovery (Chip.fetchSq c g).evc := by
  unfold Chip.fetchSq
  try dsimp only
  repeat' first
    | with_reducible assumption
    | with_reducible apply foldl_last
    | with_reducible apply foldlM_last
    | intro _
    | split
    | (dsimp only [Safety.quiet, Rst.record, id])
    | exact hgq

theorem Chip.queueResume_last (c : Chip) (g : Nat) (hgq : Lasting q0 c.pat.recovery c.evc) :
    Lasting q0 (Chip.queueResume c g).pat.recovery (Chip.queueResume c g).evc := by
  unfold Chip.queueResume
  try dsimp only
  repeat' first
    | with_reducible assumption
    | with_reducible apply foldl_last
    | with_reducible apply foldlM_last
    | intro _
    | with_reducible apply Chip.updQueue_last
    | with_reducible apply Chip.fetchSq_last
    | split
    | (dsimp only [Safety.quiet, Rst.record, id])
    | exact hgq

theorem Chip.queueEnable_last (c : Chip) (g v : Nat) (hgq : Lasting q0 c.pat.recovery c.evc) :
    Lasting q0 (c.queueEnable g v).pat.recovery (c.queueEnable g v).evc := by
  unfold Chip.queueEnable
  split
  · have hd := Chip.setVector_last c g (ctrlVector (queueFn g) v) hgq
    have he : Lasting q0 (if ((c.setVector g (ctrlVector (queueFn g) v)).queue g).enable then c.setVector g (ctrlVector (queueFn g) v)
      else { (c.setVector g (ctrlVector (queueFn g) v)).updQueue g (fun q => { q with sqLog2 := bitf v 16 4, cqLog2 := bitf v 20 4 }.start) with
             evc := (c.setVector g (ctrlVector (queueFn g) v)).evc.calm g }).pat.recovery
        (if ((c.setVector g (ctrlVector (queueFn g) v)).queue g).enable then c.setVector g (ctrlVector (queueFn g) v)
      else { (c.setVector g (ctrlVector (queueFn g) v)).updQueue g (fun q => { q with sqLog2 := bitf v 16 4, cqLog2 := bitf v 20 4 }.start) with
             evc := (c.setVector g (ctrlVector (queueFn g) v)).evc.calm g }).evc := by
      split
      · exact hd
      · exact Lasting.calm hd
    dsimp only
    split
    · exact Chip.queueResume_last _ _ he
    · exact he
  · exact Chip.regIncident_last _ _ _ hgq

theorem Chip.queueStop_last (c : Chip) (g : Nat) (hgq : Lasting q0 c.pat.recovery c.evc) :
    Lasting q0 (Chip.queueStop c g).pat.recovery (Chip.queueStop c g).evc := by
  unfold Chip.queueStop
  try dsimp only
  repeat' first
    | with_reducible assumption
    | with_reducible apply foldl_last
    | with_reducible apply foldlM_last
    | intro _
    | with_reducible apply Chip.updQueue_last
    | with_reducible apply Chip.dropUnit_last
    | split
    | (dsimp only [Safety.quiet, Rst.record, id])
    | exact hgq

theorem Chip.queueDisable_last (c : Chip) (g v : Nat) (hgq : Lasting q0 c.pat.recovery c.evc) :
    Lasting q0 (Chip.queueDisable c g v).pat.recovery (Chip.queueDisable c g v).evc := by
  unfold Chip.queueDisable
  try dsimp only
  repeat' first
    | with_reducible assumption
    | with_reducible apply foldl_last
    | with_reducible apply foldlM_last
    | intro _
    | with_reducible apply Chip.updQueue_last
    | with_reducible apply Chip.regIncident_last
    | with_reducible apply Chip.setVector_last
    | with_reducible apply Chip.queueResume_last
    | with_reducible apply Chip.queueStop_last
    | split
    | (dsimp only [Safety.quiet, Rst.record, id])
    | exact hgq

theorem Chip.qWrite_last (c : Chip) (fn q off : Nat) (f : Chip → Nat → Chip) (hf : ∀ d k, Lasting q0 d.pat.recovery d.evc → Lasting q0 (f d k).pat.recovery (f d k).evc) (hgq : Lasting q0 c.pat.recovery c.evc) :
    Lasting q0 (c.qWrite fn q off f).pat.recovery (c.qWrite fn q off f).evc := by
  unfold Chip.qWrite
  split
  · split
    · exact Chip.regIncident_last _ _ _ (Chip.tlp_last _ hgq)
    · exact hf _ _ (Chip.tlp_last _ hgq)
  · exact hgq

theorem Chip.sqTail_last (c : Chip) (g v : Nat) (hgq : Lasting q0 c.pat.recovery c.evc) :
    Lasting q0 (Chip.sqTail c g v).pat.recovery (Chip.sqTail c g v).evc := by
  unfold Chip.sqTail
  try dsimp only
  repeat' first
    | with_reducible assumption
    | with_reducible apply foldl_last
    | with_reducible apply foldlM_last
    | intro _
    | with_reducible apply Chip.updQueue_last
    | with_reducible apply Chip.fetchSq_last
    | split
    | (dsimp only [Safety.quiet, Rst.record, id])
    | exact hgq

theorem Chip.queueSeen_last (c : Chip) (g : Nat) (hgq : Lasting q0 c.pat.recovery c.evc) :
    Lasting q0 (c.queueSeen g).pat.recovery (c.queueSeen g).evc := by
  unfold Chip.queueSeen
  dsimp only
  split
  · exact (Lasting.calm hgq).updVec
  · exact Lasting.deliver (Lasting.upd g (fun x => { x with count := min 255 ((c.queue g).cqCount - 1), sat := x.sat && decide (256 < (c.queue g).cqCount) }) hgq (.inr (fun _ hx => hx)) rfl)

theorem Chip.cqHead_last (c : Chip) (g v : Nat) (hgq : Lasting q0 c.pat.recovery c.evc) :
    Lasting q0 (Chip.cqHead c g v).pat.recovery (Chip.cqHead c g v).evc := by
  unfold Chip.cqHead
  try dsimp only
  repeat' first
    | with_reducible assumption
    | with_reducible apply foldl_last
    | with_reducible apply foldlM_last
    | intro _
    | with_reducible apply Chip.updQueue_last
    | with_reducible apply Chip.regIncident_last
    | with_reducible apply Chip.queueSeen_last
    | split
    | (dsimp only [Safety.quiet, Rst.record, id])
    | exact hgq

theorem cqHead_last (fn q v : Nat) (c : Chip × Mem) (hgq : Lasting q0 c.1.pat.recovery c.1.evc) :
    Lasting q0 (cqHead fn q v c).1.pat.recovery (cqHead fn q v c).1.evc := by
  unfold cqHead
  try dsimp only
  repeat' first
    | with_reducible assumption
    | with_reducible apply foldl_last
    | with_reducible apply foldlM_last
    | intro _
    | with_reducible apply progressAll_last
    | with_reducible apply Chip.qWrite_last
    | with_reducible apply Chip.cqHead_last
    | split
    | (dsimp only [Safety.quiet, Rst.record, id])
    | exact hgq

/-! HostLink -/

theorem Chip.dropAsk_last (c : Chip) (fn : Nat) (hgq : Lasting q0 c.pat.recovery c.evc) :
    Lasting q0 (Chip.dropAsk c fn).pat.recovery (Chip.dropAsk c fn).evc := by
  unfold Chip.dropAsk
  try dsimp only
  repeat' first
    | with_reducible assumption
    | with_reducible apply foldl_last
    | with_reducible apply foldlM_last
    | intro _
    | split
    | (dsimp only [Safety.quiet, Rst.record, id])
    | exact hgq

theorem Chip.readFailed_last (c : Chip) (p : ReadFor) (hgq : Lasting q0 c.pat.recovery c.evc) :
    Lasting q0 (Chip.readFailed c p).pat.recovery (Chip.readFailed c p).evc := by
  unfold Chip.readFailed
  repeat' first
      | with_reducible assumption
      | intro _
      | with_reducible apply Chip.updQueue_last
      | with_reducible apply Chip.nextAsk_last
      | with_reducible apply Chip.dropAsk_last
      | split
      | (dsimp only [Safety.quiet, Rst.record, id])
      | exact hgq

theorem Chip.freeTag_last (c : Chip) (tag : Nat) (hgq : Lasting q0 c.pat.recovery c.evc) :
    Lasting q0 (Chip.freeTag c tag).pat.recovery (Chip.freeTag c tag).evc := by
  unfold Chip.freeTag
  try dsimp only
  repeat' first
    | with_reducible assumption
    | with_reducible apply foldl_last
    | with_reducible apply foldlM_last
    | intro _
    | split
    | (dsimp only [Safety.quiet, Rst.record, id])
    | exact hgq

theorem Chip.unexpected_last (c : Chip) (hgq : Lasting q0 c.pat.recovery c.evc) :
    Lasting q0 (Chip.unexpected c).pat.recovery (Chip.unexpected c).evc := by
  unfold Chip.unexpected
  try dsimp only
  repeat' first
    | with_reducible assumption
    | with_reducible apply foldl_last
    | with_reducible apply foldlM_last
    | intro _
    | split
    | (dsimp only [Safety.quiet, Rst.record, id])
    | exact hgq

theorem Chip.fetched_last (c : Chip) (p : ReadFor) (hgq : Lasting q0 c.pat.recovery c.evc) :
    Lasting q0 (Chip.fetched c p).pat.recovery (Chip.fetched c p).evc := by
  unfold Chip.fetched
  repeat' first
      | with_reducible assumption
      | intro _
      | with_reducible apply Chip.updQueue_last
      | split
      | (dsimp only [Safety.quiet, Rst.record, id])
      | exact hgq

theorem Chip.completion_last (c : Chip) (tag : Nat) (st : CplStatus) (hgq : Lasting q0 c.pat.recovery c.evc) :
    Lasting q0 (Chip.completion c tag st).pat.recovery (Chip.completion c tag st).evc := by
  unfold Chip.completion
  try dsimp only
  repeat' first
    | with_reducible assumption
    | with_reducible apply foldl_last
    | with_reducible apply foldlM_last
    | intro _
    | with_reducible apply Chip.readFailed_last
    | with_reducible apply Chip.freeTag_last
    | with_reducible apply Chip.unexpected_last
    | with_reducible apply Chip.fetched_last
    | split
    | (dsimp only [Safety.quiet, Rst.record, id])
    | exact hgq

theorem Chip.readTimeout_last (c : Chip) (tag : Nat) (hgq : Lasting q0 c.pat.recovery c.evc) :
    Lasting q0 (Chip.readTimeout c tag).pat.recovery (Chip.readTimeout c tag).evc := by
  unfold Chip.readTimeout
  try dsimp only
  repeat' first
    | with_reducible assumption
    | with_reducible apply foldl_last
    | with_reducible apply foldlM_last
    | intro _
    | with_reducible apply Chip.advance_last
    | with_reducible apply Chip.readFailed_last
    | split
    | (dsimp only [Safety.quiet, Rst.record, id])
    | exact hgq

theorem Chip.tagRelease_last (c : Chip) (tag : Nat) (hgq : Lasting q0 c.pat.recovery c.evc) :
    Lasting q0 (Chip.tagRelease c tag).pat.recovery (Chip.tagRelease c tag).evc := by
  unfold Chip.tagRelease
  try dsimp only
  repeat' first
    | with_reducible assumption
    | with_reducible apply foldl_last
    | with_reducible apply foldlM_last
    | intro _
    | with_reducible apply Chip.advance_last
    | with_reducible apply Chip.freeTag_last
    | split
    | (dsimp only [Safety.quiet, Rst.record, id])
    | exact hgq

theorem Chip.busMasterOff_last (c : Chip) (fn : Nat) (hgq : Lasting q0 c.pat.recovery c.evc) :
    Lasting q0 (Chip.busMasterOff c fn).pat.recovery (Chip.busMasterOff c fn).evc := by
  unfold Chip.busMasterOff
  try dsimp only
  repeat' first
    | with_reducible assumption
    | with_reducible apply foldl_last
    | with_reducible apply foldlM_last
    | intro _
    | with_reducible apply Chip.nextAsk_last
    | with_reducible apply Chip.dropAsk_last
    | split
    | (dsimp only [Safety.quiet, Rst.record, id])
    | exact hgq

theorem Chip.writeHeld_last (c : Chip) (e : Nat × CqRec) (hgq : Lasting q0 c.pat.recovery c.evc) :
    Lasting q0 (Chip.writeHeld c e).pat.recovery (Chip.writeHeld c e).evc := by
  unfold Chip.writeHeld
  try dsimp only
  repeat' first
    | with_reducible assumption
    | with_reducible apply foldl_last
    | with_reducible apply foldlM_last
    | intro _
    | with_reducible apply Chip.updQueue_last
    | with_reducible apply Chip.cqPut_last
    | split
    | (dsimp only [Safety.quiet, Rst.record, id])
    | exact hgq

theorem Chip.busMasterOn_last (c : Chip) (fn : Nat) (hgq : Lasting q0 c.pat.recovery c.evc) :
    Lasting q0 (Chip.busMasterOn c fn).pat.recovery (Chip.busMasterOn c fn).evc := by
  unfold Chip.busMasterOn
  try dsimp only
  repeat' first
    | with_reducible assumption
    | with_reducible apply foldl_last
    | with_reducible apply foldlM_last
    | intro _
    | with_reducible apply Chip.hostWrite_last
    | with_reducible apply Chip.answered_last
    | with_reducible apply flush_last
    | with_reducible apply Chip.fetchSq_last
    | with_reducible apply Chip.writeHeld_last
    | with_reducible apply Lasting.flush
    | exact Lasting.none hgq rfl
    | exact Lasting.of_srcs hgq rfl
    | split
    | (dsimp only [Safety.quiet, Rst.record, id])
    | exact hgq

theorem busMasterOn_last (fn : Nat) (c : Chip × Mem) (hgq : Lasting q0 c.1.pat.recovery c.1.evc) :
    Lasting q0 (busMasterOn fn c).1.pat.recovery (busMasterOn fn c).1.evc := by
  unfold busMasterOn
  try dsimp only
  repeat' first
    | with_reducible assumption
    | with_reducible apply foldl_last
    | with_reducible apply foldlM_last
    | intro _
    | with_reducible apply progressAll_last
    | with_reducible apply Chip.busMasterOn_last
    | split
    | (dsimp only [Safety.quiet, Rst.record, id])
    | exact hgq

theorem Chip.forgetLead_last (c : Chip) (l : GarmentLead) (hgq : Lasting q0 c.pat.recovery c.evc) :
    Lasting q0 (Chip.forgetLead c l).pat.recovery (Chip.forgetLead c l).evc := by
  unfold Chip.forgetLead
  try dsimp only
  repeat' first
    | with_reducible assumption
    | with_reducible apply foldl_last
    | with_reducible apply foldlM_last
    | intro _
    | with_reducible apply Chip.releaseMarkers_last
    | with_reducible apply Chip.tellAll_last
    | with_reducible apply Chip.dropLead_last
    | split
    | (dsimp only [Safety.quiet, Rst.record, id])
    | exact hgq

theorem endFnTicket_last (c : Chip × Mem) (t : Ticket) (hgq : Lasting q0 c.1.pat.recovery c.1.evc) :
    Lasting q0 (endFnTicket c t).1.pat.recovery (endFnTicket c t).1.evc := by
  unfold endFnTicket
  try dsimp only
  repeat' first
    | with_reducible assumption
    | with_reducible apply foldl_last
    | with_reducible apply foldlM_last
    | intro _
    | with_reducible apply closeTicket_last
    | with_reducible apply abortGarment_last
    | split
    | (dsimp only [Safety.quiet, Rst.record, id])
    | exact hgq

theorem endFunction_last (c : Chip × Mem) (fn : Nat) (hgq : Lasting q0 c.1.pat.recovery c.1.evc) :
    Lasting q0 (endFunction c fn).1.pat.recovery (endFunction c fn).1.evc := by
  unfold endFunction
  try dsimp only
  repeat' first
    | with_reducible assumption
    | with_reducible apply foldl_last
    | with_reducible apply foldlM_last
    | intro _
    | with_reducible apply Chip.forgetLead_last
    | with_reducible apply endFnTicket_last
    | split
    | (dsimp only [Safety.quiet, Rst.record, id])
    | exact hgq

theorem Chip.resetFn_last (c : Chip) (fn : Nat) (hgq : Lasting q0 c.pat.recovery c.evc) :
    Lasting q0 (Chip.resetFn c fn).pat.recovery (Chip.resetFn c fn).evc := by
  unfold Chip.resetFn
  try dsimp only
  repeat' first
    | with_reducible assumption
    | with_reducible apply foldl_last
    | with_reducible apply foldlM_last
    | intro _
    | with_reducible apply Chip.nextAsk_last
    | with_reducible apply Lasting.redeliver
    | with_reducible apply Lasting.fnReset
    | exact Lasting.none hgq rfl
    | exact Lasting.of_srcs hgq rfl
    | split
    | (dsimp only [Safety.quiet, Rst.record, id])
    | exact hgq

theorem Chip.removeFn_last (c : Chip) (fn : Nat) (hgq : Lasting q0 c.pat.recovery c.evc) :
    Lasting q0 (Chip.removeFn c fn).pat.recovery (Chip.removeFn c fn).evc := by
  unfold Chip.removeFn
  try dsimp only
  repeat' first
    | with_reducible assumption
    | with_reducible apply foldl_last
    | with_reducible apply foldlM_last
    | intro _
    | split
    | (dsimp only [Safety.quiet, Rst.record, id])
    | exact hgq

theorem resetFns_last (fns gone : List Nat) (f : Chip → Chip) (c : Chip × Mem) (hf : ∀ d, Lasting q0 d.pat.recovery d.evc → Lasting q0 (f d).pat.recovery (f d).evc) (hgq : Lasting q0 c.1.pat.recovery c.1.evc) :
    Lasting q0 (resetFns fns gone f c).1.pat.recovery (resetFns fns gone f c).1.evc := by
  unfold resetFns
  try dsimp only
  repeat' first
    | with_reducible assumption
    | with_reducible apply foldl_last
    | with_reducible apply foldlM_last
    | intro _
    | with_reducible apply progressEach_last
    | with_reducible apply endFunction_last
    | with_reducible apply Chip.resetFn_last
    | with_reducible apply Chip.removeFn_last
    | with_reducible apply hf
    | split
    | (dsimp only [Safety.quiet, Rst.record, id])
    | exact hgq

theorem functionReset_last (fn : Nat) (c : Chip × Mem) (hgq : Lasting q0 c.1.pat.recovery c.1.evc) :
    Lasting q0 (functionReset fn c).1.pat.recovery (functionReset fn c).1.evc := by
  unfold functionReset
  try dsimp only
  repeat' first
    | with_reducible assumption
    | with_reducible apply foldl_last
    | with_reducible apply foldlM_last
    | intro _
    | with_reducible apply resetFns_last
    | split
    | (dsimp only [Safety.quiet, Rst.record, id])
    | exact hgq

theorem hotReset_last (c : Chip × Mem) (hgq : Lasting q0 c.1.pat.recovery c.1.evc) :
    Lasting q0 (hotReset c).1.pat.recovery (hotReset c).1.evc := by
  unfold hotReset
  try dsimp only
  repeat' first
    | with_reducible assumption
    | with_reducible apply foldl_last
    | with_reducible apply foldlM_last
    | intro _
    | with_reducible apply resetFns_last
    | split
    | (dsimp only [Safety.quiet, Rst.record, id])
    | exact hgq

theorem vfClear_last (c : Chip × Mem) (hgq : Lasting q0 c.1.pat.recovery c.1.evc) :
    Lasting q0 (vfClear c).1.pat.recovery (vfClear c).1.evc := by
  unfold vfClear
  try dsimp only
  repeat' first
    | with_reducible assumption
    | with_reducible apply foldl_last
    | with_reducible apply foldlM_last
    | intro _
    | with_reducible apply resetFns_last
    | split
    | (dsimp only [Safety.quiet, Rst.record, id])
    | exact hgq

theorem vfLower_last (n : Nat) (c : Chip × Mem) (hgq : Lasting q0 c.1.pat.recovery c.1.evc) :
    Lasting q0 (vfLower n c).1.pat.recovery (vfLower n c).1.evc := by
  unfold vfLower
  try dsimp only
  repeat' first
    | with_reducible assumption
    | with_reducible apply foldl_last
    | with_reducible apply foldlM_last
    | intro _
    | with_reducible apply resetFns_last
    | split
    | (dsimp only [Safety.quiet, Rst.record, id])
    | exact hgq

theorem Chip.vfSet_last (c : Chip) (n : Nat) (hgq : Lasting q0 c.pat.recovery c.evc) :
    Lasting q0 (Chip.vfSet c n).pat.recovery (Chip.vfSet c n).evc := by
  unfold Chip.vfSet
  try dsimp only
  repeat' first
    | with_reducible assumption
    | with_reducible apply foldl_last
    | with_reducible apply foldlM_last
    | intro _
    | split
    | (dsimp only [Safety.quiet, Rst.record, id])
    | exact hgq

theorem Chip.l1Entry_last (c : Chip) (hgq : Lasting q0 c.pat.recovery c.evc) :
    Lasting q0 (Chip.l1Entry c).pat.recovery (Chip.l1Entry c).evc := by
  unfold Chip.l1Entry
  try dsimp only
  repeat' first
    | with_reducible assumption
    | with_reducible apply foldl_last
    | with_reducible apply foldlM_last
    | intro _
    | split
    | (dsimp only [Safety.quiet, Rst.record, id])
    | exact hgq

theorem d3hot_last (fn : Nat) (c : Chip × Mem) (hgq : Lasting q0 c.1.pat.recovery c.1.evc) :
    Lasting q0 (d3hot fn c).1.pat.recovery (d3hot fn c).1.evc := by
  unfold d3hot
  try dsimp only
  repeat' first
    | with_reducible assumption
    | with_reducible apply foldl_last
    | with_reducible apply foldlM_last
    | intro _
    | with_reducible apply Chip.enterRung_last
    | with_reducible apply Chip.nextAsk_last
    | with_reducible apply endFunction_last
    | split
    | (dsimp only [Safety.quiet, Rst.record, id])
    | exact hgq

theorem d0Return_last (fn : Nat) (c : Chip × Mem) (hgq : Lasting q0 c.1.pat.recovery c.1.evc) :
    Lasting q0 (d0Return fn c).1.pat.recovery (d0Return fn c).1.evc := by
  unfold d0Return
  try dsimp only
  repeat' first
    | with_reducible assumption
    | with_reducible apply foldl_last
    | with_reducible apply foldlM_last
    | intro _
    | with_reducible apply Chip.wake_last
    | with_reducible apply progressEach_last
    | with_reducible apply Chip.resetFn_last
    | with_reducible apply d3hot_last
    | split
    | (dsimp only [Safety.quiet, Rst.record, id])
    | exact hgq

theorem Chip.linkUp_last (c : Chip) (speed width : Nat) (hgq : Lasting q0 c.pat.recovery c.evc) :
    Lasting q0 (Chip.linkUp c speed width).pat.recovery (Chip.linkUp c speed width).evc := by
  unfold Chip.linkUp
  try dsimp only
  repeat' first
    | with_reducible assumption
    | with_reducible apply foldl_last
    | with_reducible apply foldlM_last
    | intro _
    | split
    | (dsimp only [Safety.quiet, Rst.record, id])
    | exact hgq

theorem Chip.barDropped_last (c : Chip) (fn handle : Nat) (op : Bar2Op) (hgq : Lasting q0 c.pat.recovery c.evc) :
    Lasting q0 (Chip.barDropped c fn handle op).pat.recovery (Chip.barDropped c fn handle op).evc := by
  unfold Chip.barDropped
  try dsimp only
  repeat' first
    | with_reducible assumption
    | with_reducible apply foldl_last
    | with_reducible apply foldlM_last
    | intro _
    | with_reducible apply Chip.incident_last
    | split
    | (dsimp only [Safety.quiet, Rst.record, id])
    | exact hgq

theorem barAccess_last (a room : Nat) (op : Bar2Op) (c : Chip × Mem) (hgq : Lasting q0 c.1.pat.recovery c.1.evc) :
    Lasting q0 (barAccess a room op c).1.pat.recovery (barAccess a room op c).1.evc := by
  unfold barAccess
  try dsimp only
  repeat' first
    | with_reducible assumption
    | with_reducible apply foldl_last
    | with_reducible apply foldlM_last
    | intro _
    | with_reducible apply Chip.hbmWrote_last
    | with_reducible apply Chip.hbmFetch_last
    | split
    | (dsimp only [Safety.quiet, Rst.record, id])
    | exact hgq

theorem bar2_last (fn handle offset : Nat) (op : Bar2Op) (c : Chip × Mem) (hgq : Lasting q0 c.1.pat.recovery c.1.evc) :
    Lasting q0 (bar2 fn handle offset op c).1.pat.recovery (bar2 fn handle offset op c).1.evc := by
  unfold bar2
  try dsimp only
  repeat' first
    | with_reducible assumption
    | with_reducible apply foldl_last
    | with_reducible apply foldlM_last
    | intro _
    | with_reducible apply Chip.tlp_last
    | with_reducible apply Chip.barDropped_last
    | with_reducible apply barAccess_last
    | split
    | (dsimp only [Safety.quiet, Rst.record, id])
    | exact hgq

/-! Round -/

theorem Chip.ackFrame_last (c : Chip) (f : RFrame) (code v : Nat) (hgq : Lasting q0 c.pat.recovery c.evc) :
    Lasting q0 (Chip.ackFrame c f code v).pat.recovery (Chip.ackFrame c f code v).evc := by
  unfold Chip.ackFrame
  try dsimp only
  repeat' first
    | with_reducible assumption
    | with_reducible apply foldl_last
    | with_reducible apply foldlM_last
    | intro _
    | split
    | (dsimp only [Safety.quiet, Rst.record, id])
    | exact hgq

theorem Chip.openXfer_last (c : Chip) (f : RFrame) (ticket : Nat) (hgq : Lasting q0 c.pat.recovery c.evc) :
    Lasting q0 (c.openXfer f ticket).1.pat.recovery (c.openXfer f ticket).1.evc := by
  unfold Chip.openXfer
  split
  · exact hgq
  · split <;> exact hgq

theorem Chip.reserveSample_last (c : Chip) (t : Ticket) (hgq : Lasting q0 c.pat.recovery c.evc) :
    Lasting q0 (Chip.reserveSample c t).pat.recovery (Chip.reserveSample c t).evc := by
  unfold Chip.reserveSample
  try dsimp only
  repeat' first
    | with_reducible assumption
    | with_reducible apply foldl_last
    | with_reducible apply foldlM_last
    | intro _
    | with_reducible apply Chip.updQueue_last
    | split
    | (dsimp only [Safety.quiet, Rst.record, id])
    | exact hgq

theorem xferArrived_last (t : Ticket) (f : RFrame) (x : XferIn) (c : Chip × Mem) (hgq : Lasting q0 c.1.pat.recovery c.1.evc) :
    Lasting q0 (xferArrived t f x c).1.pat.recovery (xferArrived t f x c).1.evc := by
  unfold xferArrived
  try dsimp only
  repeat' first
    | with_reducible assumption
    | with_reducible apply foldl_last
    | with_reducible apply foldlM_last
    | intro _
    | with_reducible apply Chip.arriveUnit_last
    | with_reducible apply Chip.freeHanks_last
    | with_reducible apply Chip.takeSample_last
    | with_reducible apply Chip.reserveSample_last
    | split
    | (dsimp only [Safety.quiet, Rst.record, id])
    | exact hgq

theorem streamData_last (t : Ticket) (f : RFrame) (c : Chip × Mem) (hgq : Lasting q0 c.1.pat.recovery c.1.evc) :
    Lasting q0 (streamData t f c).1.pat.recovery (streamData t f c).1.evc := by
  unfold streamData
  try dsimp only
  repeat' first
    | with_reducible assumption
    | with_reducible apply foldl_last
    | with_reducible apply foldlM_last
    | intro _
    | with_reducible apply Chip.wrote_last
    | with_reducible apply progress_last
    | with_reducible apply alloc_last
    | with_reducible apply Chip.ackFrame_last
    | with_reducible apply Chip.openXfer_last
    | with_reducible apply xferArrived_last
    | split
    | (dsimp only [Safety.quiet, Rst.record, id])
    | exact hgq

theorem regionData_last (f : RFrame) (c : Chip × Mem) (hgq : Lasting q0 c.1.pat.recovery c.1.evc) :
    Lasting q0 (regionData f c).1.pat.recovery (regionData f c).1.evc := by
  unfold regionData
  try dsimp only
  repeat' first
    | with_reducible assumption
    | with_reducible apply foldl_last
    | with_reducible apply foldlM_last
    | intro _
    | with_reducible apply Chip.incident_last
    | with_reducible apply Chip.hbmWrote_last
    | with_reducible apply Chip.ackFrame_last
    | with_reducible apply Chip.openXfer_last
    | split
    | (dsimp only [Safety.quiet, Rst.record, id])
    | exact hgq

theorem Chip.fillData_last (c : Chip) (x : Fill) (f : RFrame) (hgq : Lasting q0 c.pat.recovery c.evc) :
    Lasting q0 (Chip.fillData c x f).pat.recovery (Chip.fillData c x f).evc := by
  unfold Chip.fillData
  try dsimp only
  repeat' first
    | with_reducible assumption
    | with_reducible apply foldl_last
    | with_reducible apply foldlM_last
    | intro _
    | with_reducible apply Chip.note_last
    | with_reducible apply Chip.ackFrame_last
    | split
    | (dsimp only [Safety.quiet, Rst.record, id])
    | exact hgq

theorem dataIn_last (f : RFrame) (c : Chip × Mem) (hgq : Lasting q0 c.1.pat.recovery c.1.evc) :
    Lasting q0 (dataIn f c).1.pat.recovery (dataIn f c).1.evc := by
  unfold dataIn
  try dsimp only
  repeat' first
    | with_reducible assumption
    | with_reducible apply foldl_last
    | with_reducible apply foldlM_last
    | intro _
    | with_reducible apply streamData_last
    | with_reducible apply regionData_last
    | with_reducible apply Chip.fillData_last
    | split
    | (dsimp only [Safety.quiet, Rst.record, id])
    | exact hgq

theorem received_last (p : Port) (f : RFrame) (g : Chip × Mem → Chip × Mem) (c : Chip × Mem) (hg : ∀ d, Lasting q0 d.1.pat.recovery d.1.evc → Lasting q0 (g d).1.pat.recovery (g d).1.evc) (hgq : Lasting q0 c.1.pat.recovery c.1.evc) :
    Lasting q0 (received p f g c).1.pat.recovery (received p f g c).1.evc := by
  unfold received
  try dsimp only
  repeat' first
    | with_reducible assumption
    | with_reducible apply foldl_last
    | with_reducible apply foldlM_last
    | intro _
    | with_reducible apply hg
    | split
    | (dsimp only [Safety.quiet, Rst.record, id])
    | exact hgq

theorem typed_last (type : Nat) (p : Port) (f : RFrame) (g : Chip × Mem → Chip × Mem) (c : Chip × Mem) (hg : ∀ d, Lasting q0 d.1.pat.recovery d.1.evc → Lasting q0 (g d).1.pat.recovery (g d).1.evc) (hgq : Lasting q0 c.1.pat.recovery c.1.evc) :
    Lasting q0 (typed type p f g c).1.pat.recovery (typed type p f g c).1.evc := by
  unfold typed
  try dsimp only
  repeat' first
    | with_reducible assumption
    | with_reducible apply foldl_last
    | with_reducible apply foldlM_last
    | intro _
    | with_reducible apply received_last
    | with_reducible apply hg
    | split
    | (dsimp only [Safety.quiet, Rst.record, id])
    | exact hgq

theorem fetchIn_last (f : RFrame) (c : Chip × Mem) (hgq : Lasting q0 c.1.pat.recovery c.1.evc) :
    Lasting q0 (fetchIn f c).1.pat.recovery (fetchIn f c).1.evc := by
  unfold fetchIn
  try dsimp only
  repeat' first
    | with_reducible assumption
    | with_reducible apply foldl_last
    | with_reducible apply foldlM_last
    | intro _
    | with_reducible apply Chip.hbmFetch_last
    | split
    | (dsimp only [Safety.quiet, Rst.record, id])
    | exact hgq

theorem Chip.runDiscovery_last (c : Chip) (hgq : Lasting q0 c.pat.recovery c.evc) :
    Lasting q0 (Chip.runDiscovery c).pat.recovery (Chip.runDiscovery c).evc := by
  unfold Chip.runDiscovery
  try dsimp only
  repeat' first
    | with_reducible assumption
    | with_reducible apply foldl_last
    | with_reducible apply foldlM_last
    | intro _
    | split
    | (dsimp only [Safety.quiet, Rst.record, id])
    | exact hgq

theorem settleRoutes_last (c : Chip × Mem) (hgq : Lasting q0 c.1.pat.recovery c.1.evc) :
    Lasting q0 (settleRoutes c).1.pat.recovery (settleRoutes c).1.evc := by
  unfold settleRoutes
  try dsimp only
  repeat' first
    | with_reducible assumption
    | with_reducible apply foldl_last
    | with_reducible apply foldlM_last
    | intro _
    | with_reducible apply Chip.rebook_last
    | with_reducible apply abortBroken_last
    | split
    | (dsimp only [Safety.quiet, Rst.record, id])
    | exact hgq

theorem Chip.sameId_last (c : Chip) (serial : Nat) (hgq : Lasting q0 c.pat.recovery c.evc) :
    Lasting q0 (Chip.sameId c serial).pat.recovery (Chip.sameId c serial).evc := by
  unfold Chip.sameId
  try dsimp only
  repeat' first
    | with_reducible assumption
    | with_reducible apply foldl_last
    | with_reducible apply foldlM_last
    | intro _
    | with_reducible apply Chip.alarm_last
    | split
    | (dsimp only [Safety.quiet, Rst.record, id])
    | exact hgq

theorem Chip.discovered_last (c : Chip) (p : Port) (f : RFrame) (hgq : Lasting q0 c.pat.recovery c.evc) :
    Lasting q0 (Chip.discovered c p f).pat.recovery (Chip.discovered c p f).evc := by
  unfold Chip.discovered
  try dsimp only
  repeat' first
    | with_reducible assumption
    | with_reducible apply foldl_last
    | with_reducible apply foldlM_last
    | intro _
    | with_reducible apply Chip.rebook_last
    | with_reducible apply applied_last
    | with_reducible apply Chip.sameId_last
    | split
    | (dsimp only [Safety.quiet, Rst.record, id])
    | exact hgq

theorem markerIn_last (f : RFrame) (c : Chip × Mem) (hgq : Lasting q0 c.1.pat.recovery c.1.evc) :
    Lasting q0 (markerIn f c).1.pat.recovery (markerIn f c).1.evc := by
  unfold markerIn
  try dsimp only
  repeat' first
    | with_reducible assumption
    | with_reducible apply foldl_last
    | with_reducible apply foldlM_last
    | intro _
    | with_reducible apply Chip.signal_last
    | with_reducible apply progress_last
    | with_reducible apply signal_last
    | split
    | (dsimp only [Safety.quiet, Rst.record, id])
    | exact hgq

theorem Chip.alarmIn_last (c : Chip) (f : RFrame) (hgq : Lasting q0 c.pat.recovery c.evc) :
    Lasting q0 (Chip.alarmIn c f).pat.recovery (Chip.alarmIn c f).evc := by
  unfold Chip.alarmIn
  try dsimp only
  repeat' first
    | with_reducible assumption
    | with_reducible apply foldl_last
    | with_reducible apply foldlM_last
    | intro _
    | with_reducible apply Chip.edge_last
    | with_reducible apply Lasting.edge
    | split
    | (dsimp only [Safety.quiet, Rst.record, id])
    | exact hgq

theorem Chip.summaryIn_last (c : Chip) (f : RFrame) (hgq : Lasting q0 c.pat.recovery c.evc) :
    Lasting q0 (Chip.summaryIn c f).pat.recovery (Chip.summaryIn c f).evc := by
  unfold Chip.summaryIn
  try dsimp only
  repeat' first
    | with_reducible assumption
    | with_reducible apply foldl_last
    | with_reducible apply foldlM_last
    | intro _
    | with_reducible apply Chip.edge_last
    | with_reducible apply Lasting.edge
    | split
    | (dsimp only [Safety.quiet, Rst.record, id])
    | exact hgq

theorem ringIn_last (f : RFrame) (c : Chip × Mem) (hgq : Lasting q0 c.1.pat.recovery c.1.evc) :
    Lasting q0 (ringIn f c).1.pat.recovery (ringIn f c).1.evc := by
  unfold ringIn
  try dsimp only
  repeat' first
    | with_reducible assumption
    | with_reducible apply foldl_last
    | with_reducible apply foldlM_last
    | intro _
    | with_reducible apply Chip.incident_last
    | with_reducible apply Chip.runDiscovery_last
    | with_reducible apply settleRoutes_last
    | split
    | (dsimp only [Safety.quiet, Rst.record, id])
    | exact hgq

theorem applyControl_last (f : RFrame) (c : Chip × Mem) (hgq : Lasting q0 c.1.pat.recovery c.1.evc) :
    Lasting q0 (applyControl f c).1.pat.recovery (applyControl f c).1.evc := by
  unfold applyControl
  try dsimp only
  repeat' first
    | with_reducible assumption
    | with_reducible apply foldl_last
    | with_reducible apply foldlM_last
    | intro _
    | with_reducible apply Chip.reserveAsk_last
    | with_reducible apply Chip.gCommit_last
    | with_reducible apply gRelease_last
    | with_reducible apply gBindOff_last
    | with_reducible apply gAnswer_last
    | with_reducible apply gAbort_last
    | with_reducible apply markerIn_last
    | with_reducible apply Chip.alarmIn_last
    | with_reducible apply Chip.summaryIn_last
    | with_reducible apply ringIn_last
    | split
    | (dsimp only [Safety.quiet, Rst.record, id])
    | exact hgq

theorem Chip.updEseq_last (c : Chip) (k : Nat) (g : Eseq → Eseq) (hgq : Lasting q0 c.pat.recovery c.evc) :
    Lasting q0 (Chip.updEseq c k g).pat.recovery (Chip.updEseq c k g).evc := by
  unfold Chip.updEseq
  try dsimp only
  repeat' first
    | with_reducible assumption
    | with_reducible apply foldl_last
    | with_reducible apply foldlM_last
    | intro _
    | split
    | (dsimp only [Safety.quiet, Rst.record, id])
    | exact hgq

theorem drainHeld_last (src : Nat) (k : Nat) (c : Chip × Mem) (hgq : Lasting q0 c.1.pat.recovery c.1.evc) :
    Lasting q0 (drainHeld src k c).1.pat.recovery (drainHeld src k c).1.evc := by
  induction k generalizing c with
  | zero => exact hgq
  | succ k ih =>
    unfold drainHeld
    try dsimp only
    repeat' first
      | with_reducible assumption
      | with_reducible apply foldl_last
      | with_reducible apply foldlM_last
      | with_reducible apply ih
      | intro _
      | with_reducible apply applyControl_last
      | with_reducible apply Chip.updEseq_last
      | (with_reducible refine commitRecs_last _ _ ?_ _ (by assumption))
      | (with_reducible refine commitHead_last _ _ ?_ _ (by assumption))
      | (with_reducible refine commitSkip_last _ _ ?_ _ (by assumption))
      | (with_reducible refine Chip.passOne_last _ _ ?_ _ (by assumption))
      | split
      | (dsimp only [Safety.quiet, Rst.record, id])
      | exact hgq

theorem controlIn_last (f : RFrame) (c : Chip × Mem) (hgq : Lasting q0 c.1.pat.recovery c.1.evc) :
    Lasting q0 (controlIn f c).1.pat.recovery (controlIn f c).1.evc := by
  unfold controlIn
  try dsimp only
  repeat' first
    | with_reducible assumption
    | with_reducible apply foldl_last
    | with_reducible apply foldlM_last
    | intro _
    | with_reducible apply Chip.ackFrame_last
    | with_reducible apply applyControl_last
    | with_reducible apply Chip.updEseq_last
    | with_reducible apply drainHeld_last
    | split
    | (dsimp only [Safety.quiet, Rst.record, id])
    | exact hgq

theorem control_last (code : Nat) (p : Port) (f : RFrame) (g : Chip × Mem → Chip × Mem) (c : Chip × Mem) (hg : ∀ d, Lasting q0 d.1.pat.recovery d.1.evc → Lasting q0 (g d).1.pat.recovery (g d).1.evc) (hgq : Lasting q0 c.1.pat.recovery c.1.evc) :
    Lasting q0 (control code p f g c).1.pat.recovery (control code p f g c).1.evc := by
  unfold control
  try dsimp only
  repeat' first
    | with_reducible assumption
    | with_reducible apply foldl_last
    | with_reducible apply foldlM_last
    | intro _
    | with_reducible apply typed_last
    | with_reducible apply hg
    | split
    | (dsimp only [Safety.quiet, Rst.record, id])
    | exact hgq

theorem Chip.freeXfer_last (c : Chip) (x : XferOut) (hgq : Lasting q0 c.pat.recovery c.evc) :
    Lasting q0 (Chip.freeXfer c x).pat.recovery (Chip.freeXfer c x).evc := by
  unfold Chip.freeXfer
  try dsimp only
  repeat' first
    | with_reducible assumption
    | with_reducible apply foldl_last
    | with_reducible apply foldlM_last
    | intro _
    | split
    | (dsimp only [Safety.quiet, Rst.record, id])
    | exact hgq

theorem endXfer_last (x : XferOut) (c : Chip × Mem) (hgq : Lasting q0 c.1.pat.recovery c.1.evc) :
    Lasting q0 (endXfer x c).1.pat.recovery (endXfer x c).1.evc := by
  unfold endXfer
  try dsimp only
  repeat' first
    | with_reducible assumption
    | with_reducible apply foldl_last
    | with_reducible apply foldlM_last
    | intro _
    | with_reducible apply progress_last
    | with_reducible apply Chip.freeXfer_last
    | split
    | (dsimp only [Safety.quiet, Rst.record, id])
    | exact hgq

theorem xferAckIn_last (f : RFrame) (c : Chip × Mem) (hgq : Lasting q0 c.1.pat.recovery c.1.evc) :
    Lasting q0 (xferAckIn f c).1.pat.recovery (xferAckIn f c).1.evc := by
  unfold xferAckIn
  try dsimp only
  repeat' first
    | with_reducible assumption
    | with_reducible apply foldl_last
    | with_reducible apply foldlM_last
    | intro _
    | with_reducible apply endXfer_last
    | split
    | (dsimp only [Safety.quiet, Rst.record, id])
    | exact hgq

theorem Chip.msgAckIn_last (c : Chip) (f : RFrame) (hgq : Lasting q0 c.pat.recovery c.evc) :
    Lasting q0 (Chip.msgAckIn c f).pat.recovery (Chip.msgAckIn c f).evc := by
  unfold Chip.msgAckIn
  try dsimp only
  repeat' first
    | with_reducible assumption
    | with_reducible apply foldl_last
    | with_reducible apply foldlM_last
    | intro _
    | with_reducible apply Chip.updEseq_last
    | split
    | (dsimp only [Safety.quiet, Rst.record, id])
    | exact hgq

theorem failFor_last (g cause : Nat) (c : Chip × Mem) (hgq : Lasting q0 c.1.pat.recovery c.1.evc) :
    Lasting q0 (failFor g cause c).1.pat.recovery (failFor g cause c).1.evc := by
  unfold failFor
  try dsimp only
  repeat' first
    | with_reducible assumption
    | with_reducible apply foldl_last
    | with_reducible apply foldlM_last
    | intro _
    | with_reducible apply abortGarment_last
    | split
    | (dsimp only [Safety.quiet, Rst.record, id])
    | exact hgq

theorem Chip.resendXfer_last (c : Chip) (x : XferOut) (hgq : Lasting q0 c.pat.recovery c.evc) :
    Lasting q0 (Chip.resendXfer c x).pat.recovery (Chip.resendXfer c x).evc := by
  unfold Chip.resendXfer
  try dsimp only
  repeat' first
    | with_reducible assumption
    | with_reducible apply foldl_last
    | with_reducible apply foldlM_last
    | intro _
    | split
    | (dsimp only [Safety.quiet, Rst.record, id])
    | exact hgq

theorem xferTimeout_last (xfer : Nat) (c : Chip × Mem) (hgq : Lasting q0 c.1.pat.recovery c.1.evc) :
    Lasting q0 (xferTimeout xfer c).1.pat.recovery (xferTimeout xfer c).1.evc := by
  unfold xferTimeout
  try dsimp only
  repeat' first
    | with_reducible assumption
    | with_reducible apply foldl_last
    | with_reducible apply foldlM_last
    | intro _
    | with_reducible apply Chip.advance_last
    | with_reducible apply endXfer_last
    | with_reducible apply failFor_last
    | with_reducible apply Chip.resendXfer_last
    | split
    | (dsimp only [Safety.quiet, Rst.record, id])
    | exact hgq

theorem msgTimeout_last (dest eseq : Nat) (c : Chip × Mem) (hgq : Lasting q0 c.1.pat.recovery c.1.evc) :
    Lasting q0 (msgTimeout dest eseq c).1.pat.recovery (msgTimeout dest eseq c).1.evc := by
  unfold msgTimeout
  try dsimp only
  repeat' first
    | with_reducible assumption
    | with_reducible apply foldl_last
    | with_reducible apply foldlM_last
    | intro _
    | with_reducible apply Chip.advance_last
    | with_reducible apply Chip.updEseq_last
    | with_reducible apply failFor_last
    | split
    | (dsimp only [Safety.quiet, Rst.record, id])
    | exact hgq

theorem controlGap_last (src : Nat) (c : Chip × Mem) (hgq : Lasting q0 c.1.pat.recovery c.1.evc) :
    Lasting q0 (controlGap src c).1.pat.recovery (controlGap src c).1.evc := by
  unfold controlGap
  try dsimp only
  repeat' first
    | with_reducible assumption
    | with_reducible apply foldl_last
    | with_reducible apply foldlM_last
    | intro _
    | with_reducible apply Chip.advance_last
    | with_reducible apply Chip.updEseq_last
    | with_reducible apply drainHeld_last
    | with_reducible apply failFor_last
    | split
    | (dsimp only [Safety.quiet, Rst.record, id])
    | exact hgq

/-! Start -/

theorem Chip.powerOff_last (c : Chip) (k : Keep) (x : Rung) (hgq : Lasting q0 c.pat.recovery c.evc) :
    Lasting q0 (Chip.powerOff c k x).pat.recovery (Chip.powerOff c k x).evc := by
  unfold Chip.powerOff
  try dsimp only
  repeat' first
    | with_reducible assumption
    | with_reducible apply foldl_last
    | with_reducible apply foldlM_last
    | intro _
    | with_reducible apply Chip.fresh_last
    | split
    | (dsimp only [Safety.quiet, Rst.record, id])
    | exact hgq

theorem dormant_last (c : Chip × Mem) (hgq : Lasting q0 c.1.pat.recovery c.1.evc) :
    Lasting q0 (dormant c).1.pat.recovery (dormant c).1.evc := by
  unfold dormant
  try dsimp only
  repeat' first
    | with_reducible assumption
    | with_reducible apply foldl_last
    | with_reducible apply foldlM_last
    | intro _
    | with_reducible apply Chip.powerOff_last
    | split
    | (dsimp only [Safety.quiet, Rst.record, id])
    | exact hgq

theorem keptApply_last (e : StartEnv) (c : Chip) (hgq : Lasting q0 c.pat.recovery c.evc) :
    Lasting q0 (keptApply e c).1.pat.recovery (keptApply e c).1.evc := by
  unfold keptApply
  try dsimp only
  repeat' first
    | with_reducible assumption
    | with_reducible apply foldl_last
    | with_reducible apply foldlM_last
    | intro _
    | with_reducible apply applied_last
    | with_reducible apply powerCycle_last
    | split
    | (dsimp only [Safety.quiet, Rst.record, id])
    | exact hgq

theorem keptStart_last (e : StartEnv) (c : Chip) (hgq : Lasting q0 c.pat.recovery c.evc) :
    Lasting q0 (keptStart e c).1.pat.recovery (keptStart e c).1.evc := by
  unfold keptStart
  try dsimp only
  repeat' first
    | with_reducible assumption
    | with_reducible apply foldl_last
    | with_reducible apply foldlM_last
    | intro _
    | with_reducible apply Chip.edge_last
    | with_reducible apply Chip.bringUp_last
    | with_reducible apply keptApply_last
    | with_reducible apply Lasting.edge
    | split
    | (dsimp only [Safety.quiet, Rst.record, id])
    | exact hgq

theorem start_last (e : StartEnv) (c : Chip) (hgq : Lasting q0 c.pat.recovery c.evc) :
    Lasting q0 (start e c).1.pat.recovery (start e c).1.evc := by
  unfold start
  try dsimp only
  repeat' first
    | with_reducible assumption
    | with_reducible apply foldl_last
    | with_reducible apply foldlM_last
    | intro _
    | with_reducible apply fullStart_last
    | with_reducible apply keptStart_last
    | split
    | (dsimp only [Safety.quiet, Rst.record, id])
    | exact hgq

theorem Chip.perstHigh_last (c : Chip) (hgq : Lasting q0 c.pat.recovery c.evc) :
    Lasting q0 (Chip.perstHigh c).pat.recovery (Chip.perstHigh c).evc := by
  unfold Chip.perstHigh
  try dsimp only
  repeat' first
    | with_reducible assumption
    | with_reducible apply foldl_last
    | with_reducible apply foldlM_last
    | intro _
    | split
    | (dsimp only [Safety.quiet, Rst.record, id])
    | exact hgq

theorem Chip.relink_last (c : Chip) (e : StartEnv) (hgq : Lasting q0 c.pat.recovery c.evc) :
    Lasting q0 (Chip.relink c e).pat.recovery (Chip.relink c e).evc := by
  unfold Chip.relink
  try dsimp only
  repeat' first
    | with_reducible assumption
    | with_reducible apply foldl_last
    | with_reducible apply foldlM_last
    | intro _
    | split
    | (dsimp only [Safety.quiet, Rst.record, id])
    | exact hgq

theorem perstRelease_last (e : StartEnv) (c : Chip × Mem) (hgq : Lasting q0 c.1.pat.recovery c.1.evc) :
    Lasting q0 (perstRelease e c).1.pat.recovery (perstRelease e c).1.evc := by
  unfold perstRelease
  try dsimp only
  repeat' first
    | with_reducible assumption
    | with_reducible apply foldl_last
    | with_reducible apply foldlM_last
    | intro _
    | with_reducible apply warmUp_last
    | with_reducible apply start_last
    | with_reducible apply Chip.perstHigh_last
    | with_reducible apply Chip.relink_last
    | split
    | (dsimp only [Safety.quiet, Rst.record, id])
    | exact hgq

theorem unlink_last (c : Chip × Mem) (hgq : Lasting q0 c.1.pat.recovery c.1.evc) :
    Lasting q0 (unlink c).1.pat.recovery (unlink c).1.evc := by
  unfold unlink
  try dsimp only
  repeat' first
    | with_reducible assumption
    | with_reducible apply foldl_last
    | with_reducible apply foldlM_last
    | intro _
    | with_reducible apply hotReset_last
    | split
    | (dsimp only [Safety.quiet, Rst.record, id])
    | exact hgq

theorem Chip.heldStart_last (c : Chip) (hgq : Lasting q0 c.pat.recovery c.evc) :
    Lasting q0 (Chip.heldStart c).pat.recovery (Chip.heldStart c).evc := by
  unfold Chip.heldStart
  try dsimp only
  repeat' first
    | with_reducible assumption
    | with_reducible apply foldl_last
    | with_reducible apply foldlM_last
    | intro _
    | with_reducible apply applied_last
    | split
    | (dsimp only [Safety.quiet, Rst.record, id])
    | exact hgq

theorem perstAssert_last (c : Chip × Mem) (hgq : Lasting q0 c.1.pat.recovery c.1.evc) :
    Lasting q0 (perstAssert c).1.pat.recovery (perstAssert c).1.evc := by
  unfold perstAssert
  try dsimp only
  repeat' first
    | with_reducible assumption
    | with_reducible apply foldl_last
    | with_reducible apply foldlM_last
    | intro _
    | with_reducible apply powerCycle_last
    | with_reducible apply warmDown_last
    | with_reducible apply Chip.powerOff_last
    | with_reducible apply unlink_last
    | with_reducible apply Chip.heldStart_last
    | split
    | (dsimp only [Safety.quiet, Rst.record, id])
    | exact hgq

theorem endTickets_last (c : Chip × Mem) (hgq : Lasting q0 c.1.pat.recovery c.1.evc) :
    Lasting q0 (endTickets c).1.pat.recovery (endTickets c).1.evc := by
  unfold endTickets
  try dsimp only
  repeat' first
    | with_reducible assumption
    | with_reducible apply foldl_last
    | with_reducible apply foldlM_last
    | intro _
    | with_reducible apply closeTicket_last
    | with_reducible apply Chip.refuseGarment_last
    | with_reducible apply abortGarment_last
    | split
    | (dsimp only [Safety.quiet, Rst.record, id])
    | exact hgq

theorem pmeTurnOff_last (c : Chip × Mem) (hgq : Lasting q0 c.1.pat.recovery c.1.evc) :
    Lasting q0 (pmeTurnOff c).1.pat.recovery (pmeTurnOff c).1.evc := by
  unfold pmeTurnOff
  try dsimp only
  repeat' first
    | with_reducible assumption
    | with_reducible apply foldl_last
    | with_reducible apply foldlM_last
    | intro _
    | with_reducible apply endTickets_last
    | with_reducible apply Lasting.ack
    | split
    | (dsimp only [Safety.quiet, Rst.record, id])
    | exact hgq

theorem modRstAssert_last (c : Chip × Mem) (hgq : Lasting q0 c.1.pat.recovery c.1.evc) :
    Lasting q0 (modRstAssert c).1.pat.recovery (modRstAssert c).1.evc := by
  unfold modRstAssert
  try dsimp only
  repeat' first
    | with_reducible assumption
    | with_reducible apply foldl_last
    | with_reducible apply foldlM_last
    | intro _
    | with_reducible apply warmDown_last
    | with_reducible apply unlink_last
    | with_reducible apply Chip.heldStart_last
    | split
    | (dsimp only [Safety.quiet, Rst.record, id])
    | exact hgq

theorem modRstRelease_last (e : StartEnv) (c : Chip × Mem) (hgq : Lasting q0 c.1.pat.recovery c.1.evc) :
    Lasting q0 (modRstRelease e c).1.pat.recovery (modRstRelease e c).1.evc := by
  unfold modRstRelease
  try dsimp only
  repeat' first
    | with_reducible assumption
    | with_reducible apply foldl_last
    | with_reducible apply foldlM_last
    | intro _
    | with_reducible apply fullStart_last
    | split
    | (dsimp only [Safety.quiet, Rst.record, id])
    | exact hgq

theorem Chip.powerRise_last (c : Chip) (hgq : Lasting q0 c.pat.recovery c.evc) :
    Lasting q0 (Chip.powerRise c).pat.recovery (Chip.powerRise c).evc := by
  unfold Chip.powerRise
  try dsimp only
  repeat' first
    | with_reducible assumption
    | with_reducible apply foldl_last
    | with_reducible apply foldlM_last
    | intro _
    | split
    | (dsimp only [Safety.quiet, Rst.record, id])
    | exact hgq

theorem powerFall_last (c : Chip × Mem) (hgq : Lasting q0 c.1.pat.recovery c.1.evc) :
    Lasting q0 (powerFall c).1.pat.recovery (powerFall c).1.evc := by
  unfold powerFall
  try dsimp only
  repeat' first
    | with_reducible assumption
    | with_reducible apply foldl_last
    | with_reducible apply foldlM_last
    | intro _
    | with_reducible apply dormant_last
    | split
    | (dsimp only [Safety.quiet, Rst.record, id])
    | exact hgq

theorem undervoltage_last (c : Chip × Mem) (hgq : Lasting q0 c.1.pat.recovery c.1.evc) :
    Lasting q0 (undervoltage c).1.pat.recovery (undervoltage c).1.evc := by
  unfold undervoltage
  try dsimp only
  repeat' first
    | with_reducible assumption
    | with_reducible apply foldl_last
    | with_reducible apply foldlM_last
    | intro _
    | with_reducible apply dormant_last
    | split
    | (dsimp only [Safety.quiet, Rst.record, id])
    | exact hgq

theorem Chip.auxOff_last (c : Chip) (hgq : Lasting q0 c.pat.recovery c.evc) :
    Lasting q0 (Chip.auxOff c).pat.recovery (Chip.auxOff c).evc := by
  unfold Chip.auxOff
  try dsimp only
  repeat' first
    | with_reducible assumption
    | with_reducible apply foldl_last
    | with_reducible apply foldlM_last
    | intro _
    | exact Lasting.none hgq rfl
    | exact Lasting.of_srcs hgq rfl
    | split
    | (dsimp only [Safety.quiet, Rst.record, id])
    | exact hgq

theorem Chip.strapsBad_last (c : Chip) (hgq : Lasting q0 c.pat.recovery c.evc) :
    Lasting q0 (Chip.strapsBad c).pat.recovery (Chip.strapsBad c).evc := by
  unfold Chip.strapsBad
  try dsimp only
  repeat' first
    | with_reducible assumption
    | with_reducible apply foldl_last
    | with_reducible apply foldlM_last
    | intro _
    | with_reducible apply Chip.incident_last
    | split
    | (dsimp only [Safety.quiet, Rst.record, id])
    | exact hgq

theorem Chip.slotWrite_last (c : Chip) (fn : Nat) (img : Option Image) (hgq : Lasting q0 c.pat.recovery c.evc) :
    Lasting q0 (c.slotWrite fn img).pat.recovery (c.slotWrite fn img).evc := by
  unfold Chip.slotWrite
  split
  · exact hgq
  · split
    · exact Chip.regIncident_last _ _ _ (Chip.tlp_last _ hgq)
    · have hd := Chip.tlp_last c hgq
      cases img <;> dsimp only <;> split
      · exact Chip.edge_last _ _ (Lasting.of_srcs hd rfl)
      · unfold Pat.setSlot
        split <;> exact Lasting.of_srcs hd rfl
      · exact Chip.edge_last _ _ (Lasting.of_srcs hd rfl)
      · unfold Pat.setSlot
        split <;> exact Lasting.of_srcs hd rfl

theorem Chip.slotWriteEnd_last (c : Chip) (readBack : Nat) (hgq : Lasting q0 c.pat.recovery c.evc) :
    Lasting q0 (c.slotWriteEnd readBack).pat.recovery (c.slotWriteEnd readBack).evc := by
  unfold Chip.slotWriteEnd
  split
  · apply Chip.edge_last
    refine ⟨?_, hgq.2⟩
    dsimp only
    split
    · unfold Pat.setSlot
      split <;> exact hgq.1
    · exact hgq.1
  · exact hgq

/-! Regs -/

theorem Chip.qBase_last (c : Chip) (g off v : Nat) (hgq : Lasting q0 c.pat.recovery c.evc) :
    Lasting q0 (Chip.qBase c g off v).pat.recovery (Chip.qBase c g off v).evc := by
  unfold Chip.qBase
  try dsimp only
  repeat' first
    | with_reducible assumption
    | with_reducible apply foldl_last
    | with_reducible apply foldlM_last
    | intro _
    | with_reducible apply Chip.updQueue_last
    | split
    | (dsimp only [Safety.quiet, Rst.record, id])
    | exact hgq

theorem qRegWrite_last (fn q off v : Nat) (c : Chip × Mem) (hgq : Lasting q0 c.1.pat.recovery c.1.evc) :
    Lasting q0 (qRegWrite fn q off v c).1.pat.recovery (qRegWrite fn q off v c).1.evc := by
  unfold qRegWrite
  try dsimp only
  repeat' first
    | with_reducible assumption
    | with_reducible apply foldl_last
    | with_reducible apply foldlM_last
    | intro _
    | with_reducible apply Chip.updQueue_last
    | with_reducible apply Chip.queueEnable_last
    | with_reducible apply Chip.queueDisable_last
    | with_reducible apply Chip.sqTail_last
    | with_reducible apply cqHead_last
    | with_reducible apply Chip.qBase_last
    | split
    | (dsimp only [Safety.quiet, Rst.record, id])
    | exact hgq

theorem Chip.castGo_last (c : Chip) (fn : Nat) (hgq : Lasting q0 c.pat.recovery c.evc) :
    Lasting q0 (Chip.castGo c fn).pat.recovery (Chip.castGo c fn).evc := by
  unfold Chip.castGo
  try dsimp only
  repeat' first
    | with_reducible assumption
    | with_reducible apply foldl_last
    | with_reducible apply foldlM_last
    | intro _
    | with_reducible apply Lasting.calm
    | exact Lasting.none hgq rfl
    | exact Lasting.of_srcs hgq rfl
    | split
    | (dsimp only [Safety.quiet, Rst.record, id])
    | exact hgq

theorem Chip.castWrite_last (c : Chip) (fn off v : Nat) (hgq : Lasting q0 c.pat.recovery c.evc) :
    Lasting q0 (Chip.castWrite c fn off v).pat.recovery (Chip.castWrite c fn off v).evc := by
  unfold Chip.castWrite
  try dsimp only
  repeat' first
    | with_reducible assumption
    | with_reducible apply foldl_last
    | with_reducible apply foldlM_last
    | intro _
    | with_reducible apply Chip.castGo_last
    | split
    | (dsimp only [Safety.quiet, Rst.record, id])
    | exact hgq

theorem Chip.patWrite_last (c : Chip) (off v : Nat) (hgq : Lasting q0 c.pat.recovery c.evc) :
    Lasting q0 (Chip.patWrite c off v).pat.recovery (Chip.patWrite c off v).evc := by
  unfold Chip.patWrite
  try dsimp only
  repeat' first
    | with_reducible assumption
    | with_reducible apply foldl_last
    | with_reducible apply foldlM_last
    | intro _
    | with_reducible apply Chip.regIncident_last
    | split
    | (dsimp only [Safety.quiet, Rst.record, id])
    | exact hgq

theorem resetRequest_last (v : Nat) (c : Chip × Mem) (hgq : Lasting q0 c.1.pat.recovery c.1.evc) :
    Lasting q0 (resetRequest v c).1.pat.recovery (resetRequest v c).1.evc := by
  unfold resetRequest
  try dsimp only
  repeat' first
    | with_reducible assumption
    | with_reducible apply foldl_last
    | with_reducible apply foldlM_last
    | intro _
    | with_reducible apply Chip.regIncident_last
    | with_reducible apply frogRequest_last
    | with_reducible apply panelRequest_last
    | with_reducible apply warmRequest_last
    | with_reducible apply maintRequest_last
    | with_reducible apply cycleRequest_last
    | split
    | (dsimp only [Safety.quiet, Rst.record, id])
    | exact hgq

theorem Chip.rungRequest_last (c : Chip) (v : Nat) (hgq : Lasting q0 c.pat.recovery c.evc) :
    Lasting q0 (Chip.rungRequest c v).pat.recovery (Chip.rungRequest c v).evc := by
  unfold Chip.rungRequest
  try dsimp only
  repeat' first
    | with_reducible assumption
    | with_reducible apply foldl_last
    | with_reducible apply foldlM_last
    | intro _
    | split
    | (dsimp only [Safety.quiet, Rst.record, id])
    | exact hgq

theorem pfRegWrite_last (a v : Nat) (c : Chip × Mem) (hgq : Lasting q0 c.1.pat.recovery c.1.evc) :
    Lasting q0 (pfRegWrite a v c).1.pat.recovery (pfRegWrite a v c).1.evc := by
  have key : ∀ (p : Prop) [Decidable p] (x y : Chip × Mem), (p → Lasting q0 x.1.pat.recovery x.1.evc) → (¬ p → Lasting q0 y.1.pat.recovery y.1.evc) →
      Lasting q0 (if p then x else y).1.pat.recovery (if p then x else y).1.evc := by
    intro p _ x y hx hy
    split
    · exact hx ‹_›
    · exact hy ‹_›
  unfold pfRegWrite
  dsimp only
  repeat' first
    | with_reducible assumption
    | with_reducible apply Chip.eventAck_last
    | with_reducible apply Chip.idleHint_last
    | with_reducible apply Chip.evcDisable_last
    | with_reducible apply Chip.alarmAck_last
    | with_reducible apply Chip.slotWrite_last
    | with_reducible apply qRegWrite_last
    | with_reducible apply Chip.castWrite_last
    | with_reducible apply Chip.patWrite_last
    | with_reducible apply resetRequest_last
    | with_reducible apply Chip.rungRequest_last
    | (refine key _ _ _ (fun _ => ?_) (fun _ => ?_))
    | split
    | exact hgq

theorem Chip.msixWrite_last (c : Chip) (fn off size v : Nat) (hgq : Lasting q0 c.pat.recovery c.evc) :
    Lasting q0 (Chip.msixWrite c fn off size v).pat.recovery (Chip.msixWrite c fn off size v).evc := by
  unfold Chip.msixWrite
  try dsimp only
  repeat' first
    | with_reducible assumption
    | with_reducible apply foldl_last
    | with_reducible apply foldlM_last
    | intro _
    | with_reducible apply Lasting.trySend
    | with_reducible apply Lasting.updVec
    | exact Lasting.none hgq rfl
    | exact Lasting.of_srcs hgq rfl
    | split
    | (dsimp only [Safety.quiet, Rst.record, id])
    | exact hgq

theorem pfWrite_last (addr size v : Nat) (c : Chip × Mem) (hgq : Lasting q0 c.1.pat.recovery c.1.evc) :
    Lasting q0 (pfWrite addr size v c).1.pat.recovery (pfWrite addr size v c).1.evc := by
  unfold pfWrite
  try dsimp only
  repeat' first
    | with_reducible assumption
    | with_reducible apply foldl_last
    | with_reducible apply foldlM_last
    | intro _
    | with_reducible apply Chip.regIncident_last
    | with_reducible apply pfRegWrite_last
    | with_reducible apply Chip.msixWrite_last
    | split
    | (dsimp only [Safety.quiet, Rst.record, id])
    | exact hgq

theorem vfWrite_last (fn addr size v : Nat) (c : Chip × Mem) (hgq : Lasting q0 c.1.pat.recovery c.1.evc) :
    Lasting q0 (vfWrite fn addr size v c).1.pat.recovery (vfWrite fn addr size v c).1.evc := by
  unfold vfWrite
  try dsimp only
  repeat' first
    | with_reducible assumption
    | with_reducible apply foldl_last
    | with_reducible apply foldlM_last
    | intro _
    | with_reducible apply Chip.regIncident_last
    | with_reducible apply qRegWrite_last
    | with_reducible apply Chip.castWrite_last
    | with_reducible apply Chip.msixWrite_last
    | split
    | (dsimp only [Safety.quiet, Rst.record, id])
    | exact hgq

theorem registerWrite_last (fn addr size v : Nat) (c : Chip × Mem) (hgq : Lasting q0 c.1.pat.recovery c.1.evc) :
    Lasting q0 (registerWrite fn addr size v c).1.pat.recovery (registerWrite fn addr size v c).1.evc := by
  unfold registerWrite
  try dsimp only
  repeat' first
    | with_reducible assumption
    | with_reducible apply foldl_last
    | with_reducible apply foldlM_last
    | intro _
    | with_reducible apply Chip.tlp_last
    | with_reducible apply pfWrite_last
    | with_reducible apply vfWrite_last
    | split
    | (dsimp only [Safety.quiet, Rst.record, id])
    | exact hgq

/-! Smbus -/

theorem Chip.spdmAnswer_last (c : Chip) (overSmbus : Bool) (a : SpdmAnswer) (hgq : Lasting q0 c.pat.recovery c.evc) :
    Lasting q0 (Chip.spdmAnswer c overSmbus a).pat.recovery (Chip.spdmAnswer c overSmbus a).evc := by
  unfold Chip.spdmAnswer
  try dsimp only
  repeat' first
    | with_reducible assumption
    | with_reducible apply foldl_last
    | with_reducible apply foldlM_last
    | intro _
    | with_reducible apply Chip.edge_last
    | with_reducible apply Lasting.edge
    | split
    | (dsimp only [Safety.quiet, Rst.record, id])
    | exact hgq

theorem Chip.smbAnswer_last (c : Chip) (a : SmbAnswer) (hgq : Lasting q0 c.pat.recovery c.evc) :
    Lasting q0 (Chip.smbAnswer c a).pat.recovery (Chip.smbAnswer c a).evc := by
  unfold Chip.smbAnswer
  try dsimp only
  repeat' first
    | with_reducible assumption
    | with_reducible apply foldl_last
    | with_reducible apply foldlM_last
    | intro _
    | split
    | (dsimp only [Safety.quiet, Rst.record, id])
    | exact hgq

theorem Chip.alertResponse_last (c : Chip) (won : Bool) (hgq : Lasting q0 c.pat.recovery c.evc) :
    Lasting q0 (Chip.alertResponse c won).pat.recovery (Chip.alertResponse c won).evc := by
  unfold Chip.alertResponse
  try dsimp only
  repeat' first
    | with_reducible assumption
    | with_reducible apply foldl_last
    | with_reducible apply foldlM_last
    | intro _
    | split
    | (dsimp only [Safety.quiet, Rst.record, id])
    | exact hgq

theorem Chip.setEid_last (c : Chip) (eid : Nat) (hgq : Lasting q0 c.pat.recovery c.evc) :
    Lasting q0 (Chip.setEid c eid).pat.recovery (Chip.setEid c eid).evc := by
  unfold Chip.setEid
  try dsimp only
  repeat' first
    | with_reducible assumption
    | with_reducible apply foldl_last
    | with_reducible apply foldlM_last
    | intro _
    | split
    | (dsimp only [Safety.quiet, Rst.record, id])
    | exact hgq

theorem Chip.readReg_last (c : Chip) (off : Nat) (hgq : Lasting q0 c.pat.recovery c.evc) :
    Lasting q0 (Chip.readReg c off).pat.recovery (Chip.readReg c off).evc := by
  unfold Chip.readReg
  try dsimp only
  repeat' first
    | with_reducible assumption
    | with_reducible apply foldl_last
    | with_reducible apply foldlM_last
    | intro _
    | with_reducible apply Chip.smbAnswer_last
    | split
    | (dsimp only [Safety.quiet, Rst.record, id])
    | exact hgq

theorem Chip.readLog_last (c : Chip) (seq count : Nat) (hgq : Lasting q0 c.pat.recovery c.evc) :
    Lasting q0 (Chip.readLog c seq count).pat.recovery (Chip.readLog c seq count).evc := by
  unfold Chip.readLog
  try dsimp only
  repeat' first
    | with_reducible assumption
    | with_reducible apply foldl_last
    | with_reducible apply foldlM_last
    | intro _
    | with_reducible apply Chip.smbAnswer_last
    | split
    | (dsimp only [Safety.quiet, Rst.record, id])
    | exact hgq

theorem Chip.smbAck_last (c : Chip) (k rep : Nat) (hgq : Lasting q0 c.pat.recovery c.evc) :
    Lasting q0 (Chip.smbAck c k rep).pat.recovery (Chip.smbAck c k rep).evc := by
  unfold Chip.smbAck
  try dsimp only
  repeat' first
    | with_reducible assumption
    | with_reducible apply foldl_last
    | with_reducible apply foldlM_last
    | intro _
    | with_reducible apply Chip.alarmAck_last
    | with_reducible apply Chip.smbAnswer_last
    | split
    | (dsimp only [Safety.quiet, Rst.record, id])
    | exact hgq

theorem smbReset_last (level : Nat) (c : Chip × Mem) (hgq : Lasting q0 c.1.pat.recovery c.1.evc) :
    Lasting q0 (smbReset level c).1.pat.recovery (smbReset level c).1.evc := by
  unfold smbReset
  try dsimp only
  repeat' first
    | with_reducible assumption
    | with_reducible apply foldl_last
    | with_reducible apply foldlM_last
    | intro _
    | with_reducible apply warmRequest_last
    | with_reducible apply maintRequest_last
    | with_reducible apply Chip.smbAnswer_last
    | split
    | (dsimp only [Safety.quiet, Rst.record, id])
    | exact hgq

end Sys2Proof.Machine
end

