-- ==== Sys2Proof/Laws/Mem.lean ====
section
/-!
SUPPORT. Laws of the addressed memory: reading after a write, and the canonical form, which every memory operation keeps.
-/
namespace Sys2Proof.Machine

/-- A cell put in front of a memory above it keeps the form. -/
theorem Mem.above_cons {lo : Option Nat} {a : Nat} {v : Byte} {m : Mem}
    (hl : ∀ l, lo = some l → l < a) (hm : Mem.above (some a) m = true) (hw : Mem.above lo m = true) :
    Mem.above lo (Mem.cons a v m) = true := by
  unfold Mem.cons
  by_cases hv : v = blankByte
  · simp [hv, hw]
  · rw [if_neg hv]
    cases lo with
    | none => simp [Mem.above, hv, hm]
    | some l => simp [Mem.above, hv, hm, hl l rfl]

/-- A lower bound may be lowered. -/
theorem Mem.above_mono {lo : Option Nat} {b : Nat} {m : Mem} (hl : ∀ l, lo = some l → l ≤ b)
    (h : Mem.above (some b) m = true) : Mem.above lo m = true := by
  cases m with
  | nil => simp [Mem.above]
  | cons e m =>
    obtain ⟨i, v⟩ := e
    simp only [Mem.above, Bool.and_eq_true, decide_eq_true_eq] at h ⊢
    cases lo with
    | none => exact ⟨⟨rfl, h.1.2⟩, h.2⟩
    | some l => exact ⟨⟨by have := hl l rfl; simp; omega, h.1.2⟩, h.2⟩

/-- One byte written above a bound keeps the form above it. -/
theorem Mem.above_write {lo : Option Nat} {m : Mem} {a : Nat} {v : Byte} (hl : ∀ l, lo = some l → l < a)
    (h : Mem.above lo m = true) : Mem.above lo (Mem.write m a v) = true := by
  induction m generalizing lo with
  | nil => exact Mem.above_cons hl (by simp [Mem.above]) h
  | cons e m ih =>
    obtain ⟨i, w⟩ := e
    have h' := h
    simp only [Mem.above, Bool.and_eq_true] at h
    unfold Mem.write
    split
    · subst_vars
      exact Mem.above_cons hl h.2 (Mem.above_mono (fun l e => Nat.le_of_lt (hl l e)) h.2)
    · split
      · rename_i hne hlt
        refine Mem.above_cons hl ?_ h'
        simp [Mem.above, h.2, hlt, h.1.2]
      · rename_i hne hlt
        simp only [Mem.above, Bool.and_eq_true]
        exact ⟨h.1, ih (fun l e => by injection e with e; omega) h.2⟩

/-- A byte written keeps the canonical form. -/
theorem Mem.write_wf {m : Mem} (a : Nat) (v : Byte) (h : m.wf = true) : (Mem.write m a v).wf = true :=
  Mem.above_write (fun _ e => by simp at e) h

/-- A run of bytes written keeps the canonical form. -/
theorem Mem.writes_wf {m : Mem} (a : Nat) (b : List Byte) (h : m.wf = true) : (Mem.writes m a b).wf = true := by
  unfold Mem.writes
  suffices ∀ (acc : Mem × Nat), acc.1.wf = true →
      (b.foldl (fun (acc : Mem × Nat) x => (Mem.write acc.1 acc.2 x, acc.2 + 1)) acc).1.wf = true from this _ h
  induction b with
  | nil => intro acc ha; exact ha
  | cons x b ih => intro acc ha; exact ih _ (Mem.write_wf _ _ ha)

/-- Single bytes written keep the canonical form. -/
theorem Mem.scatter_wf {m : Mem} (l : List (Nat × Byte)) (h : m.wf = true) : (Mem.scatter m l).wf = true := by
  unfold Mem.scatter
  induction l generalizing m with
  | nil => exact h
  | cons x l ih => exact ih (Mem.write_wf _ _ h)

/-- Cells taken out keep the form. -/
theorem Mem.above_filter {lo : Option Nat} {m : Mem} (p : Host.Cell → Bool) (h : Mem.above lo m = true) :
    Mem.above lo (m.filter p) = true := by
  induction m generalizing lo with
  | nil => simpa using h
  | cons e m ih =>
    obtain ⟨i, v⟩ := e
    simp only [Mem.above, Bool.and_eq_true] at h
    simp only [List.filter]
    split
    · simp only [Mem.above, Bool.and_eq_true]
      exact ⟨h.1, ih h.2⟩
    · refine Mem.above_mono (b := i) (fun l e => ?_) (ih h.2)
      subst e
      have := h.1.1
      simp at this
      omega

/-- A range cleared keeps the canonical form. -/
theorem Mem.clear_wf {m : Mem} (a n : Nat) (h : m.wf = true) : (Mem.clear m a n).wf = true := Mem.above_filter _ h

/-- Bytes written through a hank list keep the canonical form. -/
theorem hankWrite_wf {m : Mem} (hs : List Nat) (off : Nat) (b : List Byte) (h : m.wf = true) : Mem.wf (hankWrite m hs off b) = true := by
  unfold hankWrite
  suffices ∀ (acc : Mem × Nat), acc.1.wf = true →
      Mem.wf (b.foldl (fun (acc : Mem × Nat) x =>
        (match hs[acc.2 / 0x4000]? with
         | some h => Mem.write acc.1 (hankAddr h + acc.2 % 0x4000) x
         | none => acc.1, acc.2 + 1)) acc).1 = true from this _ h
  induction b with
  | nil => intro acc ha; exact ha
  | cons x b ih =>
    intro acc ha
    refine ih _ ?_
    dsimp only
    split
    · exact Mem.write_wf _ _ ha
    · exact ha

/-- Nothing is listed at an address below a bound. -/
theorem Mem.read_below {m : Mem} {b a : Nat} (h : Mem.above (some b) m = true) (hab : a ≤ b) : Mem.read m a = blankByte := by
  cases m with
  | nil => rfl
  | cons e m =>
    obtain ⟨i, v⟩ := e
    simp only [Mem.above, Bool.and_eq_true, decide_eq_true_eq] at h
    unfold Mem.read
    rw [if_neg (by omega), if_pos (by omega)]

/-- Reading the address of a cell put in front. -/
theorem Mem.read_cons_same {m : Mem} {a : Nat} {v : Byte} (h : Mem.above (some a) m = true) : Mem.read (Mem.cons a v m) a = v := by
  unfold Mem.cons
  by_cases hv : v = blankByte
  · rw [if_pos hv, Mem.read_below h (Nat.le_refl a), hv]
  · rw [if_neg hv]; simp [Mem.read]

/-- A byte reads as it was written. -/
theorem Mem.read_write_same {m : Mem} {lo : Option Nat} (a : Nat) (v : Byte) (h : Mem.above lo m = true) : Mem.read (Mem.write m a v) a = v := by
  induction m generalizing lo with
  | nil => exact Mem.read_cons_same (by simp [Mem.above])
  | cons e m ih =>
    obtain ⟨i, w⟩ := e
    simp only [Mem.above, Bool.and_eq_true] at h
    unfold Mem.write
    split
    · subst_vars; exact Mem.read_cons_same h.2
    · split
      · rename_i hne hlt
        exact Mem.read_cons_same (by simp only [Mem.above, Bool.and_eq_true]; exact ⟨⟨by simpa using hlt, h.1.2⟩, h.2⟩)
      · rename_i hne hlt
        unfold Mem.read
        rw [if_neg hne, if_neg hlt]
        exact ih h.2

/-- A write leaves every other address alone. -/
theorem Mem.read_write_other {m : Mem} {lo : Option Nat} {a b : Nat} (v : Byte) (hne : b ≠ a) (h : Mem.above lo m = true) :
    Mem.read (Mem.write m a v) b = Mem.read m b := by
  have key : ∀ {m' : Mem}, Mem.above (some a) m' = true → ∀ (m0 : Mem), (∀ x, x = b → Mem.read m0 x = (if b < a then blankByte else Mem.read m' x)) →
      Mem.read (Mem.cons a v m') b = Mem.read m0 b := by
    intro m' hm m0 h0
    rw [h0 b rfl]
    unfold Mem.cons
    by_cases hv : v = blankByte
    · rw [if_pos hv]
      split
      · exact Mem.read_below hm (by omega)
      · rfl
    · rw [if_neg hv]
      conv => lhs; unfold Mem.read
      rw [if_neg (Ne.symm hne)]
  induction m generalizing lo with
  | nil => exact key (by simp [Mem.above]) [] (fun x _ => by simp [Mem.read])
  | cons e m ih =>
    obtain ⟨i, w⟩ := e
    simp only [Mem.above, Bool.and_eq_true] at h
    unfold Mem.write
    split
    · subst_vars
      refine key h.2 _ (fun x hx => ?_)
      subst hx
      conv => lhs; unfold Mem.read
      rw [if_neg (Ne.symm hne)]
    · split
      · rename_i hni hlt
        refine key (by simp only [Mem.above, Bool.and_eq_true]; exact ⟨⟨by simpa using hlt, h.1.2⟩, h.2⟩) _ (fun x hx => ?_)
        subst hx
        split
        · unfold Mem.read; rw [if_neg (by omega), if_pos (by omega)]
        · rfl
      · rename_i hni hlt
        unfold Mem.read
        split
        · rfl
        · split
          · rfl
          · exact ih h.2

end Sys2Proof.Machine
end

