-- ==== Sys2Proof/Laws/MemWf.lean ====
section
/-!
SUPPORT. Every operation that writes the addressed memories keeps their canonical form: one law per operation, in the order of the
model's files, each from the laws of the operations it calls.
-/
namespace Sys2Proof.Machine

/-- A choice of two steps keeps the form. -/
theorem ite_wf {p : Prop} [Decidable p] {x y : Chip × Mem} (hx : Mem.wf x.2 = true) (hy : Mem.wf y.2 = true) :
    Mem.wf (if p then x else y).2 = true := by
  split <;> assumption

/-- The empty memory is in form. -/
theorem nil_wf : Mem.wf [] = true := rfl

/-- A mapped optional result keeps the form. -/
theorem map_wf {o : Option (Chip × Mem)} {f : Chip × Mem → Chip × Mem} (ho : ∀ d, o = some d → Mem.wf d.2 = true)
    (hf : ∀ d, (f d).2 = d.2) {e : Chip × Mem} (he : o.map f = some e) : Mem.wf e.2 = true := by
  cases o with
  | none => cases he
  | some d => injection he with he; subst he; rw [hf]; exact ho d rfl

/-- A fold of steps that keep the form keeps it. -/
theorem foldl_wf {α : Type} {f : Chip × Mem → α → Chip × Mem} (hf : ∀ d a, Mem.wf d.2 = true → Mem.wf (f d a).2 = true)
    {l : List α} {c : Chip × Mem} (h : Mem.wf c.2 = true) : Mem.wf (l.foldl f c).2 = true := by
  induction l generalizing c with
  | nil => exact h
  | cons x l ih => exact ih (hf _ _ h)

/-! Needle -/

theorem opMem_wf (m : Mem) (n : Nat) (o : OpRt) (out : TodOut) (status free entryAt : Nat) (entry : List Byte) (h : Mem.wf m = true) :
    Mem.wf (opMem m n o out status free entryAt entry) = true := by
  unfold opMem
  try dsimp only
  repeat' first
    | with_reducible assumption
    | with_reducible exact nil_wf
    | with_reducible apply foldl_wf
    | intro _
    | with_reducible apply Mem.writes_wf
    | with_reducible apply Mem.scatter_wf
    | split
    | (dsimp only)

theorem abortOps_wf (n : Nat) (keep : OpRt → Bool) (c : Chip × Mem) (h : Mem.wf c.2 = true) :
    Mem.wf (abortOps n keep c).2 = true := by
  unfold abortOps
  try dsimp only
  repeat' first
    | with_reducible assumption
    | with_reducible exact nil_wf
    | with_reducible apply foldl_wf
    | intro _
    | with_reducible apply opMem_wf
    | split
    | (dsimp only)

theorem frogEntries_wf (n : Nat) (ctxs : List Nat) (c : Chip × Mem) (h : Mem.wf c.2 = true) :
    Mem.wf (frogEntries n ctxs c).2 = true := by
  unfold frogEntries
  try dsimp only
  repeat' first
    | with_reducible assumption
    | with_reducible exact nil_wf
    | with_reducible apply foldl_wf
    | intro _
    | with_reducible apply Mem.writes_wf
    | split
    | (dsimp only)

theorem frogNeedle_wf (n : Nat) (ctxs : List Nat) (c : Chip × Mem) (h : Mem.wf c.2 = true) :
    Mem.wf (frogNeedle n ctxs c).2 = true := by
  unfold frogNeedle
  try dsimp only
  repeat' first
    | with_reducible assumption
    | with_reducible exact nil_wf
    | with_reducible apply foldl_wf
    | intro _
    | with_reducible apply abortOps_wf
    | with_reducible apply frogEntries_wf
    | split
    | (dsimp only)

theorem frogNeedles_wf (ctxs : List Nat) (c : Chip × Mem) (h : Mem.wf c.2 = true) :
    Mem.wf (frogNeedles ctxs c).2 = true := by
  unfold frogNeedles
  try dsimp only
  repeat' first
    | with_reducible assumption
    | with_reducible exact nil_wf
    | with_reducible apply foldl_wf
    | intro _
    | with_reducible apply frogNeedle_wf
    | split
    | (dsimp only)

theorem completeOp_wf (n : Nat) (o : OpRt) (e : OpEnd) (stalls withheld corrected : Nat) (c : Chip × Mem) (h : Mem.wf c.2 = true) :
    Mem.wf (completeOp n o e stalls withheld corrected c).2 = true := by
  unfold completeOp
  try dsimp only
  repeat' first
    | with_reducible assumption
    | with_reducible exact nil_wf
    | with_reducible apply foldl_wf
    | intro _
    | with_reducible apply opMem_wf
    | split
    | (dsimp only)
/-! Output -/

theorem commitHost_wf (t : Ticket) (kind : Nat) (payload : List Byte) (bytes source pts : Nat) (due : Option Nat) (c : Chip × Mem) (h : Mem.wf c.2 = true) :
    Mem.wf (commitHost t kind payload bytes source pts due c).2 = true := by
  unfold commitHost
  try dsimp only
  repeat' first
    | with_reducible assumption
    | with_reducible exact nil_wf
    | with_reducible apply foldl_wf
    | intro _
    | with_reducible apply hankWrite_wf
    | split
    | (dsimp only)

theorem commitRound_wf (t : Ticket) (dest arg : Nat) (video recs : List Byte) (out : Sent) (c : Chip × Mem) (h : Mem.wf c.2 = true) :
    Mem.wf (commitRound t dest arg video recs out c).2 = true := by
  unfold commitRound
  try dsimp only
  repeat' first
    | with_reducible assumption
    | with_reducible exact nil_wf
    | with_reducible apply foldl_wf
    | intro _
    | with_reducible apply hankWrite_wf
    | split
    | (dsimp only)

theorem commitUnit_wf (t : Ticket) (kind : Nat) (payload : List Byte) (bytes source pts : Nat) (due : Option Nat) (c : Chip × Mem) (h : Mem.wf c.2 = true) :
    ∀ d, commitUnit t kind payload bytes source pts due c = some d → Mem.wf d.2 = true := by
  intro d hd
  unfold commitUnit at hd
  try dsimp only at hd
  repeat' first
    | with_reducible assumption
    | (split at hd)
    | (simp only [Option.some.injEq, reduceCtorEq] at hd; subst hd; try dsimp only)
    | with_reducible apply foldl_wf
    | intro _
    | with_reducible apply commitHost_wf
    | split
    | (dsimp only)
    | (exact absurd hd (by simp))

theorem sendUnit_wf (t : Ticket) (dest arg : Nat) (video recs : List Byte) (out : Sent) (c : Chip × Mem) (h : Mem.wf c.2 = true) :
    ∀ d, sendUnit t dest arg video recs out c = some d → Mem.wf d.2 = true := by
  intro d hd
  unfold sendUnit at hd
  try dsimp only at hd
  repeat' first
    | with_reducible assumption
    | (split at hd)
    | (simp only [Option.some.injEq, reduceCtorEq] at hd; subst hd; try dsimp only)
    | with_reducible apply foldl_wf
    | intro _
    | with_reducible apply commitRound_wf
    | split
    | (dsimp only)
    | (exact absurd hd (by simp))

theorem commitHead_wf (t : Ticket) (c : Chip × Mem) (h : Mem.wf c.2 = true) (d : Chip × Mem) (hd : commitHead t c = some d) :
    Mem.wf d.2 = true := by
  unfold commitHead at hd
  dsimp only at hd
  split at hd
  · cases hd
  · split at hd
    · split at hd
      · obtain ⟨e, he, rfl⟩ := Option.map_eq_some_iff.1 hd
        exact sendUnit_wf _ _ _ _ _ _ _ h e he
      · obtain ⟨e, he, rfl⟩ := Option.map_eq_some_iff.1 hd
        exact commitUnit_wf _ _ _ _ _ _ _ _ h e he
    · cases hd

theorem commitRecs_wf (t : Ticket) (c : Chip × Mem) (h : Mem.wf c.2 = true) (d : Chip × Mem) (hd : commitRecs t c = some d) :
    Mem.wf d.2 = true := by
  unfold commitRecs at hd
  split at hd
  · cases hd
  · try dsimp only at hd
    split at hd
    · obtain ⟨e, he, rfl⟩ := Option.map_eq_some_iff.1 hd
      exact sendUnit_wf _ _ _ _ _ _ _ h e he
    · obtain ⟨e, he, rfl⟩ := Option.map_eq_some_iff.1 hd
      exact commitUnit_wf _ _ _ _ _ _ _ _ h e he

theorem commitSkip_wf (t : Ticket) (c : Chip × Mem) (h : Mem.wf c.2 = true) (d : Chip × Mem) (hd : commitSkip t c = some d) :
    Mem.wf d.2 = true := by
  unfold commitSkip at hd
  split at hd
  · cases hd
  · try dsimp only at hd
    split at hd
    · obtain ⟨e, he, rfl⟩ := Option.map_eq_some_iff.1 hd
      exact sendUnit_wf _ _ _ _ _ _ _ h e he
    · obtain ⟨e, he, rfl⟩ := Option.map_eq_some_iff.1 hd
      exact commitUnit_wf _ _ _ _ _ _ _ _ h e he

theorem flush_wf (ticket k : Nat) (c : Chip × Mem) (h : Mem.wf c.2 = true) : Mem.wf (flush ticket k c).2 = true := by
  induction k generalizing c with
  | zero => exact h
  | succ k ih =>
    unfold flush
    split
    · exact h
    · split
      · exact ih _ (commitRecs_wf _ _ h _ (by assumption))
      · split
        · exact ih _ (commitHead_wf _ _ h _ (by assumption))
        · split <;> exact h
/-! Adapt -/

theorem foldlMem_wf {α : Type} {f : Mem → α → Mem} (hf : ∀ m a, Mem.wf m = true → Mem.wf (f m a) = true)
    {l : List α} {m : Mem} (h : Mem.wf m = true) : Mem.wf (l.foldl f m) = true := by
  induction l generalizing m with
  | nil => exact h
  | cons x l ih => exact ih (hf _ _ h)

theorem writeCopies_wf (ticket : Nat) (c : Chip × Mem) (h : Mem.wf c.2 = true) :
    Mem.wf (writeCopies ticket c).2 = true := by
  unfold writeCopies
  try dsimp only
  repeat' first
    | with_reducible assumption
    | with_reducible exact nil_wf
    | with_reducible apply foldl_wf
    | intro _
    | with_reducible apply foldlMem_wf
    | with_reducible apply hankWrite_wf
    | split
    | (dsimp only)

theorem optimiser_wf (ticket loss : Nat) (finite : Bool) (master : List (List Word)) (c : Chip × Mem) (h : Mem.wf c.2 = true) :
    Mem.wf (optimiser ticket loss finite master c).2 = true := by
  unfold optimiser
  try dsimp only
  repeat' first
    | with_reducible assumption
    | with_reducible exact nil_wf
    | with_reducible apply foldl_wf
    | intro _
    | with_reducible apply writeCopies_wf
    | split
    | (dsimp only)

/-! Venc -/

theorem encoded_wf (t : Ticket) (sd : StreamDef) (o : Out) (c : Chip × Mem) (h : Mem.wf c.2 = true) :
    Mem.wf (encoded t sd o c).2 = true := by
  unfold encoded
  try dsimp only
  repeat' first
    | with_reducible assumption
    | with_reducible exact nil_wf
    | with_reducible apply foldl_wf
    | intro _
    | with_reducible apply hankWrite_wf
    | split
    | (dsimp only)

theorem codedEnd_wf (core : Nat) (t : Ticket) (sd : StreamDef) (j : Job) (poisoned : Bool) (c : Chip × Mem) (h : Mem.wf c.2 = true) :
    Mem.wf (codedEnd core t sd j poisoned c).2 = true := by
  unfold codedEnd
  try dsimp only
  repeat' first
    | with_reducible assumption
    | with_reducible exact nil_wf
    | with_reducible apply foldl_wf
    | intro _
    | with_reducible apply encoded_wf
    | split
    | (dsimp only)

theorem encodeComplete_wf (core : Nat) (poisoned : Bool) (c : Chip × Mem) (h : Mem.wf c.2 = true) :
    Mem.wf (encodeComplete core poisoned c).2 = true := by
  unfold encodeComplete
  try dsimp only
  repeat' first
    | with_reducible assumption
    | with_reducible exact nil_wf
    | with_reducible apply foldl_wf
    | intro _
    | with_reducible apply codedEnd_wf
    | split
    | (dsimp only)

/-! Vdec -/

theorem layBytes_wf (rs : List Range) (b : List Byte) (m : Mem) (h : Mem.wf m = true) : Mem.wf (layBytes rs b m) = true := by
  induction rs generalizing b m with
  | nil => exact h
  | cons r rs ih => exact ih _ _ (Mem.writes_wf _ _ h)

theorem writeFields_wf (t : Ticket) (sd : StreamDef) (p : Placed) (f : FrameRt) (r : Decoded) (c : Chip × Mem) (h : Mem.wf c.2 = true) :
    Mem.wf (writeFields t sd p f r c).2 = true := by
  unfold writeFields
  try dsimp only
  repeat' first
    | with_reducible assumption
    | with_reducible exact nil_wf
    | with_reducible apply foldl_wf
    | intro _
    | with_reducible apply layBytes_wf
    | split
    | (dsimp only)

theorem finishPicture_wf (t : Ticket) (sd : StreamDef) (p : Placed) (f : FrameRt) (c : Chip × Mem) (h : Mem.wf c.2 = true) (d : Chip × Mem)
    (hd : finishPicture t sd p f c = some d) : Mem.wf d.2 = true := by
  unfold finishPicture at hd
  dsimp only at hd
  split at hd
  · cases hd
  · injection hd with hd
    subst hd
    exact writeFields_wf _ _ _ _ _ _ (hankWrite_wf _ _ _ (hankWrite_wf _ _ _ h))

theorem finishSample_wf (t : Ticket) (sd : StreamDef) (s : Sample) (c : Chip × Mem) (h : Mem.wf c.2 = true) (d : Chip × Mem)
    (hd : finishSample t sd s c = some d) : Mem.wf d.2 = true := by
  unfold finishSample at hd
  dsimp only at hd
  split at hd
  · injection hd with hd
    subst hd
    exact hankWrite_wf _ _ _ h
  · cases hd

theorem pictureEnd_wf (core : Nat) (j : Job) (poisoned : Bool) (c : Chip × Mem) (h : Mem.wf c.2 = true) (d : Chip × Mem)
    (hd : pictureEnd core j poisoned c = some d) : Mem.wf d.2 = true := by
  unfold pictureEnd at hd
  repeat' first
    | (injection hd with hd; subst hd; exact h)
    | exact finishSample_wf _ _ _ _ h _ hd
    | exact finishPicture_wf _ _ _ _ _ h _ hd
    | split at hd

theorem passThrough_wf (t : Ticket) (p : Placed) (f : FrameRt) (n : Nat) (c : Chip × Mem) (h : Mem.wf c.2 = true) :
    Mem.wf (passThrough t p f n c).2 = true := by
  unfold passThrough
  try dsimp only
  repeat' first
    | with_reducible assumption
    | with_reducible exact nil_wf
    | with_reducible apply foldl_wf
    | intro _
    | with_reducible apply hankWrite_wf
    | split
    | (dsimp only)

theorem settle_wf (ticket k : Nat) (c : Chip × Mem) (h : Mem.wf c.2 = true) : Mem.wf (settle ticket k c).2 = true := by
  induction k generalizing c with
  | zero => exact h
  | succ k ih =>
    unfold settle
    split
    · exact h
    · split
      · exact ih _ h
      · split
        · exact h
        · exact ih _ (passThrough_wf _ _ _ _ _ h)

theorem progress_wf (ticket : Nat) (c : Chip × Mem) (h : Mem.wf c.2 = true) : Mem.wf (progress ticket c).2 = true := by
  unfold progress
  dsimp only
  with_reducible apply flush_wf
  with_reducible apply settle_wf
  assumption

theorem progressAll_wf (tickets : List Nat) (c : Chip × Mem) (h : Mem.wf c.2 = true) :
    Mem.wf (progressAll tickets c).2 = true := by
  unfold progressAll
  try dsimp only
  repeat' first
    | with_reducible assumption
    | with_reducible exact nil_wf
    | with_reducible apply foldl_wf
    | intro _
    | with_reducible apply progress_wf
    | split
    | (dsimp only)

theorem decodeComplete_wf (core : Nat) (poisoned : Bool) (c : Chip × Mem) (h : Mem.wf c.2 = true) :
    Mem.wf (decodeComplete core poisoned c).2 = true := by
  unfold decodeComplete
  split
  · exact h
  · split
    · exact h
    · dsimp only
      generalize (if poisoned then c.1 else _) = e
      split
      · exact h
      · split
        · exact h
        · rename_i d hd
          with_reducible apply progress_wf
          with_reducible exact pictureEnd_wf _ _ _ (e, c.2) h d hd

theorem encodeEnd_wf (core : Nat) (poisoned : Bool) (c : Chip × Mem) (h : Mem.wf c.2 = true) :
    Mem.wf (encodeEnd core poisoned c).2 = true := by
  unfold encodeEnd
  try dsimp only
  repeat' first
    | with_reducible assumption
    | with_reducible exact nil_wf
    | with_reducible apply foldl_wf
    | intro _
    | with_reducible apply progress_wf
    | with_reducible apply encodeComplete_wf
    | split
    | (dsimp only)

/-! Frog -/

theorem frogContext_wf (cause ctx : Nat) (c : Chip × Mem) (h : Mem.wf c.2 = true) :
    Mem.wf (frogContext cause ctx c).2 = true := by
  unfold frogContext
  try dsimp only
  repeat' first
    | with_reducible assumption
    | with_reducible exact nil_wf
    | with_reducible apply foldl_wf
    | intro _
    | with_reducible apply frogNeedles_wf
    | with_reducible apply progress_wf
    | split
    | (dsimp only)

theorem frogContexts_wf (cause : Nat) (ctxs : List Nat) (c : Chip × Mem) (h : Mem.wf c.2 = true) :
    Mem.wf (frogContexts cause ctxs c).2 = true := by
  unfold frogContexts
  try dsimp only
  repeat' first
    | with_reducible assumption
    | with_reducible exact nil_wf
    | with_reducible apply foldl_wf
    | intro _
    | with_reducible apply frogContext_wf
    | split
    | (dsimp only)

theorem killTicket_wf (t : Ticket) (c : Chip × Mem) (h : Mem.wf c.2 = true) :
    Mem.wf (killTicket t c).2 = true := by
  unfold killTicket
  try dsimp only
  repeat' first
    | with_reducible assumption
    | with_reducible exact nil_wf
    | with_reducible apply foldl_wf
    | intro _
    | with_reducible apply frogNeedles_wf
    | split
    | (dsimp only)

theorem flushSkips_wf (ticket k : Nat) (c : Chip × Mem) (h : Mem.wf c.2 = true) : Mem.wf (flushSkips ticket k c).2 = true := by
  induction k generalizing c with
  | zero => exact h
  | succ k ih =>
    unfold flushSkips
    split
    · exact h
    · split
      · exact h
      · exact ih _ (commitSkip_wf _ _ h _ (by assumption))

theorem closeTicket_wf (cause : Nat) (t : Ticket) (c : Chip × Mem) (h : Mem.wf c.2 = true) :
    Mem.wf (closeTicket cause t c).2 = true := by
  unfold closeTicket
  try dsimp only
  repeat' first
    | with_reducible assumption
    | with_reducible exact nil_wf
    | with_reducible apply foldl_wf
    | intro _
    | with_reducible apply flush_wf
    | with_reducible apply frogContexts_wf
    | with_reducible apply killTicket_wf
    | with_reducible apply flushSkips_wf
    | split
    | (dsimp only)

theorem drainTicket_wf (t : Ticket) (req : Option (Nat × Nat)) (c : Chip × Mem) (h : Mem.wf c.2 = true) :
    Mem.wf (drainTicket t req c).2 = true := by
  unfold drainTicket
  try dsimp only
  repeat' first
    | with_reducible assumption
    | with_reducible exact nil_wf
    | with_reducible apply foldl_wf
    | intro _
    | with_reducible apply progress_wf
    | split
    | (dsimp only)

theorem bindOff_wf (fn : Nat) (r : Req) (c : Chip × Mem) (h : Mem.wf c.2 = true) :
    Mem.wf (bindOff fn r c).2 = true := by
  unfold bindOff
  try dsimp only
  repeat' first
    | with_reducible assumption
    | with_reducible exact nil_wf
    | with_reducible apply foldl_wf
    | intro _
    | with_reducible apply drainTicket_wf
    | with_reducible apply closeTicket_wf
    | split
    | (dsimp only)

theorem requestM_wf (fn : Nat) (d : HostRead) (f : Req → Chip × Mem → Chip × Mem) (c : Chip × Mem) (hf : ∀ k d, Mem.wf d.2 = true → Mem.wf (f k d).2 = true) (h : Mem.wf c.2 = true) :
    Mem.wf (requestM fn d f c).2 = true := by
  unfold requestM
  try dsimp only
  repeat' first
    | with_reducible assumption
    | with_reducible exact nil_wf
    | with_reducible apply foldl_wf
    | intro _
    | with_reducible apply hf
    | split
    | (dsimp only)

theorem drainEnd_wf (ticket : Nat) (c : Chip × Mem) (h : Mem.wf c.2 = true) :
    Mem.wf (drainEnd ticket c).2 = true := by
  unfold drainEnd
  try dsimp only
  repeat' first
    | with_reducible assumption
    | with_reducible exact nil_wf
    | with_reducible apply foldl_wf
    | intro _
    | with_reducible apply killTicket_wf
    | split
    | (dsimp only)
/-! Garment -/

theorem endPart_wf (g cause : Nat) (c : Chip × Mem) (h : Mem.wf c.2 = true) :
    Mem.wf (endPart g cause c).2 = true := by
  unfold endPart
  try dsimp only
  repeat' first
    | with_reducible assumption
    | with_reducible exact nil_wf
    | with_reducible apply foldl_wf
    | intro _
    | with_reducible apply closeTicket_wf
    | split
    | (dsimp only)

theorem gRelease_wf (f : RFrame) (c : Chip × Mem) (h : Mem.wf c.2 = true) :
    Mem.wf (gRelease f c).2 = true := by
  unfold gRelease
  try dsimp only
  repeat' first
    | with_reducible assumption
    | with_reducible exact nil_wf
    | with_reducible apply foldl_wf
    | intro _
    | with_reducible apply endPart_wf
    | split
    | (dsimp only)

theorem gBindOff_wf (f : RFrame) (c : Chip × Mem) (h : Mem.wf c.2 = true) :
    Mem.wf (gBindOff f c).2 = true := by
  unfold gBindOff
  try dsimp only
  repeat' first
    | with_reducible assumption
    | with_reducible exact nil_wf
    | with_reducible apply foldl_wf
    | intro _
    | with_reducible apply endPart_wf
    | with_reducible apply drainTicket_wf
    | split
    | (dsimp only)

theorem gAnswer_wf (f : RFrame) (c : Chip × Mem) (h : Mem.wf c.2 = true) :
    Mem.wf (gAnswer f c).2 = true := by
  unfold gAnswer
  try dsimp only
  repeat' first
    | with_reducible assumption
    | with_reducible exact nil_wf
    | with_reducible apply foldl_wf
    | intro _
    | with_reducible apply closeTicket_wf
    | split
    | (dsimp only)

theorem abortGarment_wf (g cause : Nat) (heard : List Nat) (c : Chip × Mem) (h : Mem.wf c.2 = true) :
    Mem.wf (abortGarment g cause heard c).2 = true := by
  unfold abortGarment
  try dsimp only
  repeat' first
    | with_reducible assumption
    | with_reducible exact nil_wf
    | with_reducible apply foldl_wf
    | intro _
    | with_reducible apply endPart_wf
    | split
    | (dsimp only)

theorem gAbort_wf (f : RFrame) (c : Chip × Mem) (h : Mem.wf c.2 = true) :
    Mem.wf (gAbort f c).2 = true := by
  unfold gAbort
  try dsimp only
  repeat' first
    | with_reducible assumption
    | with_reducible exact nil_wf
    | with_reducible apply foldl_wf
    | intro _
    | with_reducible apply abortGarment_wf
    | split
    | (dsimp only)

theorem abortBroken_wf (c : Chip × Mem) (h : Mem.wf c.2 = true) :
    Mem.wf (abortBroken c).2 = true := by
  unfold abortBroken
  try dsimp only
  repeat' first
    | with_reducible assumption
    | with_reducible exact nil_wf
    | with_reducible apply foldl_wf
    | intro _
    | with_reducible apply abortGarment_wf
    | split
    | (dsimp only)
/-! Recovery -/

theorem resetNeedle_wf (n : Nat) (c : Chip × Mem) (h : Mem.wf c.2 = true) :
    Mem.wf (resetNeedle n c).2 = true := by
  unfold resetNeedle
  try dsimp only
  repeat' first
    | with_reducible assumption
    | with_reducible exact nil_wf
    | with_reducible apply foldl_wf
    | intro _
    | with_reducible apply abortOps_wf
    | split
    | (dsimp only)

theorem resetDma_wf (n : Nat) (c : Chip × Mem) (h : Mem.wf c.2 = true) :
    Mem.wf (resetDma n c).2 = true := by
  unfold resetDma
  try dsimp only
  repeat' first
    | with_reducible assumption
    | with_reducible exact nil_wf
    | with_reducible apply foldl_wf
    | intro _
    | with_reducible apply abortOps_wf
    | split
    | (dsimp only)

theorem resetMarub_wf (c : Chip × Mem) (h : Mem.wf c.2 = true) :
    Mem.wf (resetMarub c).2 = true := by
  unfold resetMarub
  try dsimp only
  repeat' first
    | with_reducible assumption
    | with_reducible exact nil_wf
    | with_reducible apply foldl_wf
    | intro _
    | with_reducible apply abortOps_wf
    | split
    | (dsimp only)

theorem resetEngine_wf (e : Nat) (c : Chip × Mem) (h : Mem.wf c.2 = true) :
    Mem.wf (resetEngine e c).2 = true := by
  unfold resetEngine
  try dsimp only
  repeat' first
    | with_reducible assumption
    | with_reducible exact nil_wf
    | with_reducible apply foldl_wf
    | intro _
    | with_reducible apply resetNeedle_wf
    | with_reducible apply resetDma_wf
    | with_reducible apply resetMarub_wf
    | split
    | (dsimp only)

theorem engineReset_wf (e ctx : Nat) (c : Chip × Mem) (h : Mem.wf c.2 = true) :
    Mem.wf (engineReset e ctx c).2 = true := by
  unfold engineReset
  try dsimp only
  repeat' first
    | with_reducible assumption
    | with_reducible exact nil_wf
    | with_reducible apply foldl_wf
    | intro _
    | with_reducible apply resetEngine_wf
    | split
    | (dsimp only)

theorem panelReset_wf (p cause engine : Nat) (c : Chip × Mem) (h : Mem.wf c.2 = true) :
    Mem.wf (panelReset p cause engine c).2 = true := by
  unfold panelReset
  try dsimp only
  repeat' first
    | with_reducible assumption
    | with_reducible exact nil_wf
    | with_reducible apply foldl_wf
    | intro _
    | with_reducible apply Mem.clear_wf
    | with_reducible apply progressAll_wf
    | with_reducible apply frogContexts_wf
    | with_reducible apply resetNeedle_wf
    | split
    | (dsimp only)

theorem tinkEnd_wf (k : Tink) (c : Chip × Mem) (h : Mem.wf c.2 = true) :
    Mem.wf (tinkEnd k c).2 = true := by
  unfold tinkEnd
  try dsimp only
  repeat' first
    | with_reducible assumption
    | with_reducible exact nil_wf
    | with_reducible apply foldl_wf
    | intro _
    | with_reducible apply progressAll_wf
    | with_reducible apply panelReset_wf
    | split
    | (dsimp only)

theorem tinkNext_wf (k : Tink) (c : Chip × Mem) (h : Mem.wf c.2 = true) :
    Mem.wf (tinkNext k c).2 = true := by
  unfold tinkNext
  try dsimp only
  repeat' first
    | with_reducible assumption
    | with_reducible exact nil_wf
    | with_reducible apply foldl_wf
    | intro _
    | with_reducible apply tinkEnd_wf
    | split
    | (dsimp only)

theorem startTink_wf (e : Nat) (suspects : List Nat) (js : List Job) (c : Chip × Mem) (h : Mem.wf c.2 = true) :
    Mem.wf (startTink e suspects js c).2 = true := by
  unfold startTink
  try dsimp only
  repeat' first
    | with_reducible assumption
    | with_reducible exact nil_wf
    | with_reducible apply foldl_wf
    | intro _
    | with_reducible apply tinkNext_wf
    | split
    | (dsimp only)

theorem engineTrip_wf (e ctx : Nat) (c : Chip × Mem) (h : Mem.wf c.2 = true) :
    Mem.wf (engineTrip e ctx c).2 = true := by
  unfold engineTrip
  try dsimp only
  repeat' first
    | with_reducible assumption
    | with_reducible exact nil_wf
    | with_reducible apply foldl_wf
    | intro _
    | with_reducible apply engineReset_wf
    | with_reducible apply startTink_wf
    | split
    | (dsimp only)

theorem tinkReplayEnd_wf (tripped : Bool) (c : Chip × Mem) (h : Mem.wf c.2 = true) :
    Mem.wf (tinkReplayEnd tripped c).2 = true := by
  unfold tinkReplayEnd
  try dsimp only
  repeat' first
    | with_reducible assumption
    | with_reducible exact nil_wf
    | with_reducible apply foldl_wf
    | intro _
    | with_reducible apply frogContext_wf
    | with_reducible apply engineReset_wf
    | with_reducible apply panelReset_wf
    | with_reducible apply tinkEnd_wf
    | with_reducible apply tinkNext_wf
    | split
    | (dsimp only)
/-! Reset -/

theorem loadSegments_wf (p : Pattern) (m : Mem) (h : Mem.wf m = true) : Mem.wf (loadSegments p m) = true := by
  unfold loadSegments
  generalize p.segments = l
  induction l generalizing m with
  | nil => exact h
  | cons s l ih =>
    refine ih _ ?_
    dsimp only
    cases s.remote
    · exact Mem.writes_wf _ _ h
    · exact h

theorem applied_wf (b old : Bool) (i : Image) (seq : Nat) (e : StartEnv) (c : Chip) : Mem.wf (applied b old i seq e c).2 = true :=
  loadSegments_wf _ _ rfl

theorem Chip.chooseSlot_wf (c : Chip) (e : StartEnv) :
    Mem.wf (Chip.chooseSlot c e).2 = true := by
  unfold Chip.chooseSlot
  try dsimp only
  repeat' first
    | with_reducible assumption
    | with_reducible exact nil_wf
    | with_reducible apply foldl_wf
    | intro _
    | with_reducible apply applied_wf
    | split
    | (dsimp only)

theorem fullStart_wf (e : StartEnv) (c : Chip) :
    Mem.wf (fullStart e c).2 = true := by
  unfold fullStart
  try dsimp only
  repeat' first
    | with_reducible assumption
    | with_reducible exact nil_wf
    | with_reducible apply foldl_wf
    | intro _
    | with_reducible apply Chip.chooseSlot_wf
    | split
    | (dsimp only)

theorem killAll_wf (c : Chip × Mem) (h : Mem.wf c.2 = true) :
    Mem.wf (killAll c).2 = true := by
  unfold killAll
  try dsimp only
  repeat' first
    | with_reducible assumption
    | with_reducible exact nil_wf
    | with_reducible apply foldl_wf
    | intro _
    | with_reducible apply killTicket_wf
    | split
    | (dsimp only)

theorem powerCycle_wf (cause engine : Nat) (c : Chip × Mem) (h : Mem.wf c.2 = true) :
    Mem.wf (powerCycle cause engine c).2 = true := by
  unfold powerCycle
  try dsimp only
  repeat' first
    | with_reducible assumption
    | with_reducible exact nil_wf
    | with_reducible apply foldl_wf
    | intro _
    | with_reducible apply killAll_wf
    | split
    | (dsimp only)

theorem warmDown_wf (cause engine : Nat) (c : Chip × Mem) (h : Mem.wf c.2 = true) :
    Mem.wf (warmDown cause engine c).2 = true := by
  unfold warmDown
  try dsimp only
  repeat' first
    | with_reducible assumption
    | with_reducible exact nil_wf
    | with_reducible apply foldl_wf
    | intro _
    | with_reducible apply killAll_wf
    | split
    | (dsimp only)

theorem warmUp_wf (c : Chip × Mem) (h : Mem.wf c.2 = true) :
    Mem.wf (warmUp c).2 = true := by
  unfold warmUp
  try dsimp only
  repeat' first
    | with_reducible assumption
    | with_reducible exact nil_wf
    | with_reducible apply foldl_wf
    | intro _
    | with_reducible apply powerCycle_wf
    | split
    | (dsimp only)

theorem warmReset_wf (cause engine : Nat) (c : Chip × Mem) (h : Mem.wf c.2 = true) :
    Mem.wf (warmReset cause engine c).2 = true := by
  unfold warmReset
  try dsimp only
  repeat' first
    | with_reducible assumption
    | with_reducible exact nil_wf
    | with_reducible apply foldl_wf
    | intro _
    | with_reducible apply fullStart_wf
    | with_reducible apply powerCycle_wf
    | with_reducible apply warmDown_wf
    | with_reducible apply warmUp_wf
    | split
    | (dsimp only)

theorem maintenanceStart_wf (c : Chip × Mem) (h : Mem.wf c.2 = true) :
    Mem.wf (maintenanceStart c).2 = true := by
  unfold maintenanceStart
  try dsimp only
  repeat' first
    | with_reducible assumption
    | with_reducible exact nil_wf
    | with_reducible apply foldl_wf
    | intro _
    | with_reducible apply warmDown_wf
    | split
    | (dsimp only)
/-! Faults -/

theorem trip_wf (engine ctx : Nat) (c : Chip × Mem) (h : Mem.wf c.2 = true) :
    Mem.wf (trip engine ctx c).2 = true := by
  unfold trip
  try dsimp only
  repeat' first
    | with_reducible assumption
    | with_reducible exact nil_wf
    | with_reducible apply foldl_wf
    | intro _
    | with_reducible apply engineTrip_wf
    | with_reducible apply warmReset_wf
    | split
    | (dsimp only)

theorem overrun_wf (l : RecLevel) (c : Chip × Mem) (h : Mem.wf c.2 = true) :
    Mem.wf (overrun l c).2 = true := by
  unfold overrun
  try dsimp only
  repeat' first
    | with_reducible assumption
    | with_reducible exact nil_wf
    | with_reducible apply foldl_wf
    | intro _
    | with_reducible apply engineReset_wf
    | with_reducible apply panelReset_wf
    | with_reducible apply powerCycle_wf
    | with_reducible apply warmReset_wf
    | split
    | (dsimp only)

theorem waitTimeout_wf (ticket source stage : Nat) (c : Chip × Mem) (h : Mem.wf c.2 = true) :
    Mem.wf (waitTimeout ticket source stage c).2 = true := by
  unfold waitTimeout
  try dsimp only
  repeat' first
    | with_reducible assumption
    | with_reducible exact nil_wf
    | with_reducible apply foldl_wf
    | intro _
    | with_reducible apply progress_wf
    | with_reducible apply engineTrip_wf
    | split
    | (dsimp only)

theorem hostRequest_wf (ok : Bool) (run : Chip × Mem → Chip × Mem) (absorbed : Chip → Bool) (c : Chip × Mem) (hrun : ∀ d, Mem.wf d.2 = true → Mem.wf (run d).2 = true) (h : Mem.wf c.2 = true) :
    Mem.wf (hostRequest ok run absorbed c).2 = true := by
  unfold hostRequest
  try dsimp only
  repeat' first
    | with_reducible assumption
    | with_reducible exact nil_wf
    | with_reducible apply foldl_wf
    | intro _
    | with_reducible apply hrun
    | split
    | (dsimp only)

theorem hostFrog_wf (ctx : Nat) (c : Chip × Mem) (h : Mem.wf c.2 = true) :
    Mem.wf (hostFrog ctx c).2 = true := by
  unfold hostFrog
  try dsimp only
  repeat' first
    | with_reducible assumption
    | with_reducible exact nil_wf
    | with_reducible apply foldl_wf
    | intro _
    | with_reducible apply frogContext_wf
    | with_reducible apply abortGarment_wf
    | split
    | (dsimp only)

theorem frogRequest_wf (ctx : Nat) (c : Chip × Mem) (h : Mem.wf c.2 = true) :
    Mem.wf (frogRequest ctx c).2 = true := by
  unfold frogRequest
  try dsimp only
  repeat' first
    | with_reducible assumption
    | with_reducible exact nil_wf
    | with_reducible apply foldl_wf
    | intro _
    | with_reducible apply hostRequest_wf
    | with_reducible apply hostFrog_wf
    | split
    | (dsimp only)

theorem panelRequest_wf (p : Nat) (c : Chip × Mem) (h : Mem.wf c.2 = true) :
    Mem.wf (panelRequest p c).2 = true := by
  unfold panelRequest
  try dsimp only
  repeat' first
    | with_reducible assumption
    | with_reducible exact nil_wf
    | with_reducible apply foldl_wf
    | intro _
    | with_reducible apply panelReset_wf
    | with_reducible apply hostRequest_wf
    | split
    | (dsimp only)

theorem warmRequest_wf (c : Chip × Mem) (h : Mem.wf c.2 = true) :
    Mem.wf (warmRequest c).2 = true := by
  unfold warmRequest
  try dsimp only
  repeat' first
    | with_reducible assumption
    | with_reducible exact nil_wf
    | with_reducible apply foldl_wf
    | intro _
    | with_reducible apply warmReset_wf
    | with_reducible apply hostRequest_wf
    | split
    | (dsimp only)

theorem maintRequest_wf (c : Chip × Mem) (h : Mem.wf c.2 = true) :
    Mem.wf (maintRequest c).2 = true := by
  unfold maintRequest
  try dsimp only
  repeat' first
    | with_reducible assumption
    | with_reducible exact nil_wf
    | with_reducible apply foldl_wf
    | intro _
    | with_reducible apply maintenanceStart_wf
    | with_reducible apply hostRequest_wf
    | split
    | (dsimp only)

theorem cycleRequest_wf (c : Chip × Mem) (h : Mem.wf c.2 = true) :
    Mem.wf (cycleRequest c).2 = true := by
  unfold cycleRequest
  try dsimp only
  repeat' first
    | with_reducible assumption
    | with_reducible exact nil_wf
    | with_reducible apply foldl_wf
    | intro _
    | with_reducible apply powerCycle_wf
    | with_reducible apply hostRequest_wf
    | split
    | (dsimp only)

theorem parityError_wf (pc : Nat) (c : Chip × Mem) (h : Mem.wf c.2 = true) :
    Mem.wf (parityError pc c).2 = true := by
  unfold parityError
  try dsimp only
  repeat' first
    | with_reducible assumption
    | with_reducible exact nil_wf
    | with_reducible apply foldl_wf
    | intro _
    | with_reducible apply powerCycle_wf
    | split
    | (dsimp only)

theorem progressEach_wf (c : Chip × Mem) (h : Mem.wf c.2 = true) :
    Mem.wf (progressEach c).2 = true := by
  unfold progressEach
  try dsimp only
  repeat' first
    | with_reducible assumption
    | with_reducible exact nil_wf
    | with_reducible apply foldl_wf
    | intro _
    | with_reducible apply progressAll_wf
    | split
    | (dsimp only)

theorem powerSample_wf (mw mv : Nat) (c : Chip × Mem) (h : Mem.wf c.2 = true) :
    Mem.wf (powerSample mw mv c).2 = true := by
  unfold powerSample
  try dsimp only
  repeat' first
    | with_reducible assumption
    | with_reducible exact nil_wf
    | with_reducible apply foldl_wf
    | intro _
    | with_reducible apply progressEach_wf
    | split
    | (dsimp only)

theorem thermalReading_wf (temps : List Int) (c : Chip × Mem) (h : Mem.wf c.2 = true) :
    Mem.wf (thermalReading temps c).2 = true := by
  unfold thermalReading
  try dsimp only
  repeat' first
    | with_reducible assumption
    | with_reducible exact nil_wf
    | with_reducible apply foldl_wf
    | intro _
    | with_reducible apply powerCycle_wf
    | split
    | (dsimp only)
/-! Rows -/

theorem resumeShed_wf (c : Chip × Mem) (h : Mem.wf c.2 = true) :
    Mem.wf (resumeShed c).2 = true := by
  unfold resumeShed
  try dsimp only
  repeat' first
    | with_reducible assumption
    | with_reducible exact nil_wf
    | with_reducible apply foldl_wf
    | intro _
    | split
    | (dsimp only)

theorem rowBoundary_wf (e : RowEnv) (c : Chip × Mem) (h : Mem.wf c.2 = true) :
    Mem.wf (rowBoundary e c).2 = true := by
  unfold rowBoundary
  try dsimp only
  repeat' first
    | with_reducible assumption
    | with_reducible exact nil_wf
    | with_reducible apply foldl_wf
    | intro _
    | with_reducible apply progressEach_wf
    | with_reducible apply resumeShed_wf
    | split
    | (dsimp only)
/-! Complete -/

theorem columnLimit_wf (n : Nat) (c : Chip × Mem) (h : Mem.wf c.2 = true) :
    Mem.wf (columnLimit n c).2 = true := by
  unfold columnLimit
  try dsimp only
  repeat' first
    | with_reducible assumption
    | with_reducible exact nil_wf
    | with_reducible apply foldl_wf
    | intro _
    | with_reducible apply warmReset_wf
    | split
    | (dsimp only)

theorem roleDone_wf (r : OpRole) (c : Chip × Mem) (h : Mem.wf c.2 = true) :
    Mem.wf (roleDone r c).2 = true := by
  cases r <;> simp only [roleDone] <;> first | exact h | exact optimiser_wf _ _ _ _ c h

theorem operationComplete_wf (n tag : Nat) (e : OpEnd) (stalls withheld corrected : Nat) (r : OpRole) (c : Chip × Mem) (h : Mem.wf c.2 = true) :
    Mem.wf (operationComplete n tag e stalls withheld corrected r c).2 = true := by
  unfold operationComplete
  try dsimp only
  repeat' first
    | with_reducible assumption
    | with_reducible exact nil_wf
    | with_reducible apply foldl_wf
    | intro _
    | with_reducible apply completeOp_wf
    | with_reducible apply roleDone_wf
    | with_reducible apply progress_wf
    | with_reducible apply columnLimit_wf
    | split
    | (dsimp only)
/-! Submit -/

theorem submit_wf (fn q op : Nat) (e : List Byte) (check : Nat) (f : Nat → Chip × Mem → Chip × Mem) (c : Chip × Mem) (hf : ∀ k d, Mem.wf d.2 = true → Mem.wf (f k d).2 = true) (h : Mem.wf c.2 = true) :
    Mem.wf (submit fn q op e check f c).2 = true := by
  unfold submit
  try dsimp only
  repeat' first
    | with_reducible assumption
    | with_reducible exact nil_wf
    | with_reducible apply foldl_wf
    | intro _
    | with_reducible apply hf
    | split
    | (dsimp only)

theorem nop_wf (fn q : Nat) (e : List Byte) (c : Chip × Mem) (h : Mem.wf c.2 = true) :
    Mem.wf (nop fn q e c).2 = true := by
  unfold nop
  try dsimp only
  repeat' first
    | with_reducible assumption
    | with_reducible exact nil_wf
    | with_reducible apply foldl_wf
    | intro _
    | with_reducible apply submit_wf
    | split
    | (dsimp only)

theorem takePart_wf (g need : Nat) (e : List Byte) (t : Ticket) (hs : List Nat) (pic : PicInfo) (c : Chip × Mem) (h : Mem.wf c.2 = true) :
    Mem.wf (takePart g need e t hs pic c).2 = true := by
  unfold takePart
  try dsimp only
  repeat' first
    | with_reducible assumption
    | with_reducible exact nil_wf
    | with_reducible apply foldl_wf
    | intro _
    | with_reducible apply progress_wf
    | split
    | (dsimp only)

theorem dataPart_wf (g need : Nat) (e : List Byte) (t : Ticket) (d : HostRead) (pic : PicInfo) (c : Chip × Mem) (h : Mem.wf c.2 = true) :
    Mem.wf (dataPart g need e t d pic c).2 = true := by
  unfold dataPart
  try dsimp only
  repeat' first
    | with_reducible assumption
    | with_reducible exact nil_wf
    | with_reducible apply foldl_wf
    | intro _
    | with_reducible apply hankWrite_wf
    | with_reducible apply takePart_wf
    | split
    | (dsimp only)

theorem handlePart_wf (g need : Nat) (e : List Byte) (t : Ticket) (d : HostRead) (pic : PicInfo) (c : Chip × Mem) (h : Mem.wf c.2 = true) :
    Mem.wf (handlePart g need e t d pic c).2 = true := by
  unfold handlePart
  try dsimp only
  repeat' first
    | with_reducible assumption
    | with_reducible exact nil_wf
    | with_reducible apply foldl_wf
    | intro _
    | with_reducible apply takePart_wf
    | split
    | (dsimp only)

theorem frameEntry_wf (fn : Nat) (e : List Byte) (d : HostRead) (pic : PicInfo) (g : Nat) (c : Chip × Mem) (h : Mem.wf c.2 = true) :
    Mem.wf (frameEntry fn e d pic g c).2 = true := by
  unfold frameEntry
  try dsimp only
  repeat' first
    | with_reducible assumption
    | with_reducible exact nil_wf
    | with_reducible apply foldl_wf
    | intro _
    | with_reducible apply dataPart_wf
    | with_reducible apply handlePart_wf
    | split
    | (dsimp only)

theorem accessOff_wf (fn q op : Nat) (e : List Byte) (reads : Bool) (c : Chip × Mem) (h : Mem.wf c.2 = true) :
    Mem.wf (accessOff fn q op e reads c).2 = true := by
  unfold accessOff
  try dsimp only
  repeat' first
    | with_reducible assumption
    | with_reducible exact nil_wf
    | with_reducible apply foldl_wf
    | intro _
    | split
    | (dsimp only)

theorem frame_wf (fn q : Nat) (e : List Byte) (d : HostRead) (pic : PicInfo) (c : Chip × Mem) (h : Mem.wf c.2 = true) :
    Mem.wf (frame fn q e d pic c).2 = true := by
  unfold frame
  try dsimp only
  repeat' first
    | with_reducible assumption
    | with_reducible exact nil_wf
    | with_reducible apply foldl_wf
    | intro _
    | with_reducible apply submit_wf
    | with_reducible apply frameEntry_wf
    | with_reducible apply accessOff_wf
    | split
    | (dsimp only)

theorem sampleEntry_wf (fn : Nat) (e : List Byte) (d : HostRead) (pic : PicInfo) (g : Nat) (c : Chip × Mem) (h : Mem.wf c.2 = true) :
    Mem.wf (sampleEntry fn e d pic g c).2 = true := by
  unfold sampleEntry
  try dsimp only
  repeat' first
    | with_reducible assumption
    | with_reducible exact nil_wf
    | with_reducible apply foldl_wf
    | intro _
    | with_reducible apply progress_wf
    | split
    | (dsimp only)

theorem sample_wf (fn q : Nat) (e : List Byte) (d : HostRead) (pic : PicInfo) (c : Chip × Mem) (h : Mem.wf c.2 = true) :
    Mem.wf (sample fn q e d pic c).2 = true := by
  unfold sample
  try dsimp only
  repeat' first
    | with_reducible assumption
    | with_reducible exact nil_wf
    | with_reducible apply foldl_wf
    | intro _
    | with_reducible apply submit_wf
    | with_reducible apply accessOff_wf
    | with_reducible apply sampleEntry_wf
    | split
    | (dsimp only)

theorem allocEntry_wf (fn : Nat) (e : List Byte) (g : Nat) (c : Chip × Mem) (h : Mem.wf c.2 = true) :
    Mem.wf (allocEntry fn e g c).2 = true := by
  unfold allocEntry
  try dsimp only
  repeat' first
    | with_reducible assumption
    | with_reducible exact nil_wf
    | with_reducible apply foldl_wf
    | intro _
    | split
    | (dsimp only)

theorem alloc_wf (fn q : Nat) (e : List Byte) (c : Chip × Mem) (h : Mem.wf c.2 = true) :
    Mem.wf (alloc fn q e c).2 = true := by
  unfold alloc
  try dsimp only
  repeat' first
    | with_reducible assumption
    | with_reducible exact nil_wf
    | with_reducible apply foldl_wf
    | intro _
    | with_reducible apply submit_wf
    | with_reducible apply allocEntry_wf
    | split
    | (dsimp only)

theorem freeEntry_wf (fn : Nat) (e : List Byte) (d : HostRead) (g : Nat) (c : Chip × Mem) (h : Mem.wf c.2 = true) :
    Mem.wf (freeEntry fn e d g c).2 = true := by
  unfold freeEntry
  try dsimp only
  repeat' first
    | with_reducible assumption
    | with_reducible exact nil_wf
    | with_reducible apply foldl_wf
    | intro _
    | split
    | (dsimp only)

theorem free_wf (fn q : Nat) (e : List Byte) (d : HostRead) (c : Chip × Mem) (h : Mem.wf c.2 = true) :
    Mem.wf (free fn q e d c).2 = true := by
  unfold free
  try dsimp only
  repeat' first
    | with_reducible assumption
    | with_reducible exact nil_wf
    | with_reducible apply foldl_wf
    | intro _
    | with_reducible apply submit_wf
    | with_reducible apply accessOff_wf
    | with_reducible apply freeEntry_wf
    | split
    | (dsimp only)

theorem copyEntry_wf (fn : Nat) (e : List Byte) (d : HostRead) (g : Nat) (c : Chip × Mem) (h : Mem.wf c.2 = true) :
    Mem.wf (copyEntry fn e d g c).2 = true := by
  unfold copyEntry
  try dsimp only
  repeat' first
    | with_reducible assumption
    | with_reducible exact nil_wf
    | with_reducible apply foldl_wf
    | intro _
    | split
    | (dsimp only)

theorem copyOut_wf (fn q : Nat) (e : List Byte) (d : HostRead) (c : Chip × Mem) (h : Mem.wf c.2 = true) :
    Mem.wf (copyOut fn q e d c).2 = true := by
  unfold copyOut
  try dsimp only
  repeat' first
    | with_reducible assumption
    | with_reducible exact nil_wf
    | with_reducible apply foldl_wf
    | intro _
    | with_reducible apply submit_wf
    | with_reducible apply accessOff_wf
    | with_reducible apply copyEntry_wf
    | split
    | (dsimp only)

theorem signalEntry_wf (fn : Nat) (e : List Byte) (g : Nat) (c : Chip × Mem) (h : Mem.wf c.2 = true) :
    Mem.wf (signalEntry fn e g c).2 = true := by
  unfold signalEntry
  try dsimp only
  repeat' first
    | with_reducible assumption
    | with_reducible exact nil_wf
    | with_reducible apply foldl_wf
    | intro _
    | with_reducible apply progress_wf
    | split
    | (dsimp only)

theorem signal_wf (fn q : Nat) (e : List Byte) (c : Chip × Mem) (h : Mem.wf c.2 = true) :
    Mem.wf (signal fn q e c).2 = true := by
  unfold signal
  try dsimp only
  repeat' first
    | with_reducible assumption
    | with_reducible exact nil_wf
    | with_reducible apply foldl_wf
    | intro _
    | with_reducible apply submit_wf
    | with_reducible apply signalEntry_wf
    | split
    | (dsimp only)

theorem waitEntry_wf (fn : Nat) (e : List Byte) (g : Nat) (c : Chip × Mem) (h : Mem.wf c.2 = true) :
    Mem.wf (waitEntry fn e g c).2 = true := by
  unfold waitEntry
  try dsimp only
  repeat' first
    | with_reducible assumption
    | with_reducible exact nil_wf
    | with_reducible apply foldl_wf
    | intro _
    | split
    | (dsimp only)

theorem wait_wf (fn q : Nat) (e : List Byte) (c : Chip × Mem) (h : Mem.wf c.2 = true) :
    Mem.wf (wait fn q e c).2 = true := by
  unfold wait
  try dsimp only
  repeat' first
    | with_reducible assumption
    | with_reducible exact nil_wf
    | with_reducible apply foldl_wf
    | intro _
    | with_reducible apply submit_wf
    | with_reducible apply waitEntry_wf
    | split
    | (dsimp only)

theorem cqHead_wf (fn q v : Nat) (c : Chip × Mem) (h : Mem.wf c.2 = true) :
    Mem.wf (cqHead fn q v c).2 = true := by
  unfold cqHead
  try dsimp only
  repeat' first
    | with_reducible assumption
    | with_reducible exact nil_wf
    | with_reducible apply foldl_wf
    | intro _
    | with_reducible apply progressAll_wf
    | split
    | (dsimp only)
/-! HostLink -/

theorem busMasterOn_wf (fn : Nat) (c : Chip × Mem) (h : Mem.wf c.2 = true) :
    Mem.wf (busMasterOn fn c).2 = true := by
  unfold busMasterOn
  try dsimp only
  repeat' first
    | with_reducible assumption
    | with_reducible exact nil_wf
    | with_reducible apply foldl_wf
    | intro _
    | with_reducible apply progressAll_wf
    | split
    | (dsimp only)

theorem endFnTicket_wf (c : Chip × Mem) (t : Ticket) (h : Mem.wf c.2 = true) :
    Mem.wf (endFnTicket c t).2 = true := by
  unfold endFnTicket
  try dsimp only
  repeat' first
    | with_reducible assumption
    | with_reducible exact nil_wf
    | with_reducible apply foldl_wf
    | intro _
    | with_reducible apply closeTicket_wf
    | with_reducible apply abortGarment_wf
    | split
    | (dsimp only)

theorem endFunction_wf (c : Chip × Mem) (fn : Nat) (h : Mem.wf c.2 = true) :
    Mem.wf (endFunction c fn).2 = true := by
  unfold endFunction
  try dsimp only
  repeat' first
    | with_reducible assumption
    | with_reducible exact nil_wf
    | with_reducible apply foldl_wf
    | intro _
    | with_reducible apply endFnTicket_wf
    | split
    | (dsimp only)

theorem resetFns_wf (fns gone : List Nat) (f : Chip → Chip) (c : Chip × Mem) (h : Mem.wf c.2 = true) :
    Mem.wf (resetFns fns gone f c).2 = true := by
  unfold resetFns
  try dsimp only
  repeat' first
    | with_reducible assumption
    | with_reducible exact nil_wf
    | with_reducible apply foldl_wf
    | intro _
    | with_reducible apply progressEach_wf
    | with_reducible apply endFunction_wf
    | split
    | (dsimp only)

theorem functionReset_wf (fn : Nat) (c : Chip × Mem) (h : Mem.wf c.2 = true) :
    Mem.wf (functionReset fn c).2 = true := by
  unfold functionReset
  try dsimp only
  repeat' first
    | with_reducible assumption
    | with_reducible exact nil_wf
    | with_reducible apply foldl_wf
    | intro _
    | with_reducible apply resetFns_wf
    | split
    | (dsimp only)

theorem hotReset_wf (c : Chip × Mem) (h : Mem.wf c.2 = true) :
    Mem.wf (hotReset c).2 = true := by
  unfold hotReset
  try dsimp only
  repeat' first
    | with_reducible assumption
    | with_reducible exact nil_wf
    | with_reducible apply foldl_wf
    | intro _
    | with_reducible apply resetFns_wf
    | split
    | (dsimp only)

theorem vfClear_wf (c : Chip × Mem) (h : Mem.wf c.2 = true) :
    Mem.wf (vfClear c).2 = true := by
  unfold vfClear
  try dsimp only
  repeat' first
    | with_reducible assumption
    | with_reducible exact nil_wf
    | with_reducible apply foldl_wf
    | intro _
    | with_reducible apply resetFns_wf
    | split
    | (dsimp only)

theorem vfLower_wf (n : Nat) (c : Chip × Mem) (h : Mem.wf c.2 = true) :
    Mem.wf (vfLower n c).2 = true := by
  unfold vfLower
  try dsimp only
  repeat' first
    | with_reducible assumption
    | with_reducible exact nil_wf
    | with_reducible apply foldl_wf
    | intro _
    | with_reducible apply resetFns_wf
    | split
    | (dsimp only)

theorem d3hot_wf (fn : Nat) (c : Chip × Mem) (h : Mem.wf c.2 = true) :
    Mem.wf (d3hot fn c).2 = true := by
  unfold d3hot
  try dsimp only
  repeat' first
    | with_reducible assumption
    | with_reducible exact nil_wf
    | with_reducible apply foldl_wf
    | intro _
    | with_reducible apply endFunction_wf
    | split
    | (dsimp only)

theorem d0Return_wf (fn : Nat) (c : Chip × Mem) (h : Mem.wf c.2 = true) :
    Mem.wf (d0Return fn c).2 = true := by
  unfold d0Return
  try dsimp only
  repeat' first
    | with_reducible assumption
    | with_reducible exact nil_wf
    | with_reducible apply foldl_wf
    | intro _
    | with_reducible apply progressEach_wf
    | with_reducible apply d3hot_wf
    | split
    | (dsimp only)

theorem barAccess_wf (a room : Nat) (op : Bar2Op) (c : Chip × Mem) (h : Mem.wf c.2 = true) :
    Mem.wf (barAccess a room op c).2 = true := by
  unfold barAccess
  try dsimp only
  repeat' first
    | with_reducible assumption
    | with_reducible exact nil_wf
    | with_reducible apply foldl_wf
    | intro _
    | with_reducible apply Mem.writes_wf
    | with_reducible apply Mem.write_wf
    | split
    | (dsimp only)

theorem bar2_wf (fn handle offset : Nat) (op : Bar2Op) (c : Chip × Mem) (h : Mem.wf c.2 = true) :
    Mem.wf (bar2 fn handle offset op c).2 = true := by
  unfold bar2
  try dsimp only
  repeat' first
    | with_reducible assumption
    | with_reducible exact nil_wf
    | with_reducible apply foldl_wf
    | intro _
    | with_reducible apply barAccess_wf
    | split
    | (dsimp only)
/-! Round -/

theorem xferArrived_wf (t : Ticket) (f : RFrame) (x : XferIn) (c : Chip × Mem) (h : Mem.wf c.2 = true) :
    Mem.wf (xferArrived t f x c).2 = true := by
  unfold xferArrived
  try dsimp only
  repeat' first
    | with_reducible assumption
    | with_reducible exact nil_wf
    | with_reducible apply foldl_wf
    | intro _
    | split
    | (dsimp only)

theorem streamData_wf (t : Ticket) (f : RFrame) (c : Chip × Mem) (h : Mem.wf c.2 = true) :
    Mem.wf (streamData t f c).2 = true := by
  unfold streamData
  try dsimp only
  repeat' first
    | with_reducible assumption
    | with_reducible exact nil_wf
    | with_reducible apply foldl_wf
    | intro _
    | with_reducible apply hankWrite_wf
    | with_reducible apply progress_wf
    | with_reducible apply alloc_wf
    | with_reducible apply xferArrived_wf
    | split
    | (dsimp only)

theorem regionData_wf (f : RFrame) (c : Chip × Mem) (h : Mem.wf c.2 = true) :
    Mem.wf (regionData f c).2 = true := by
  unfold regionData
  try dsimp only
  repeat' first
    | with_reducible assumption
    | with_reducible exact nil_wf
    | with_reducible apply foldl_wf
    | intro _
    | with_reducible apply Mem.writes_wf
    | split
    | (dsimp only)

theorem dataIn_wf (f : RFrame) (c : Chip × Mem) (h : Mem.wf c.2 = true) :
    Mem.wf (dataIn f c).2 = true := by
  unfold dataIn
  try dsimp only
  repeat' first
    | with_reducible assumption
    | with_reducible exact nil_wf
    | with_reducible apply foldl_wf
    | intro _
    | with_reducible apply streamData_wf
    | with_reducible apply regionData_wf
    | split
    | (dsimp only)

theorem received_wf (p : Port) (f : RFrame) (g : Chip × Mem → Chip × Mem) (c : Chip × Mem) (hg : ∀ d, Mem.wf d.2 = true → Mem.wf (g d).2 = true) (h : Mem.wf c.2 = true) :
    Mem.wf (received p f g c).2 = true := by
  unfold received
  try dsimp only
  repeat' first
    | with_reducible assumption
    | with_reducible exact nil_wf
    | with_reducible apply foldl_wf
    | intro _
    | with_reducible apply hg
    | split
    | (dsimp only)

theorem typed_wf (type : Nat) (p : Port) (f : RFrame) (g : Chip × Mem → Chip × Mem) (c : Chip × Mem) (hg : ∀ d, Mem.wf d.2 = true → Mem.wf (g d).2 = true) (h : Mem.wf c.2 = true) :
    Mem.wf (typed type p f g c).2 = true := by
  unfold typed
  try dsimp only
  repeat' first
    | with_reducible assumption
    | with_reducible exact nil_wf
    | with_reducible apply foldl_wf
    | intro _
    | with_reducible apply received_wf
    | with_reducible apply hg
    | split
    | (dsimp only)

theorem fetchIn_wf (f : RFrame) (c : Chip × Mem) (h : Mem.wf c.2 = true) :
    Mem.wf (fetchIn f c).2 = true := by
  unfold fetchIn
  try dsimp only
  repeat' first
    | with_reducible assumption
    | with_reducible exact nil_wf
    | with_reducible apply foldl_wf
    | intro _
    | split
    | (dsimp only)

theorem settleRoutes_wf (c : Chip × Mem) (h : Mem.wf c.2 = true) :
    Mem.wf (settleRoutes c).2 = true := by
  unfold settleRoutes
  try dsimp only
  repeat' first
    | with_reducible assumption
    | with_reducible exact nil_wf
    | with_reducible apply foldl_wf
    | intro _
    | with_reducible apply abortBroken_wf
    | split
    | (dsimp only)

theorem markerIn_wf (f : RFrame) (c : Chip × Mem) (h : Mem.wf c.2 = true) :
    Mem.wf (markerIn f c).2 = true := by
  unfold markerIn
  try dsimp only
  repeat' first
    | with_reducible assumption
    | with_reducible exact nil_wf
    | with_reducible apply foldl_wf
    | intro _
    | with_reducible apply progress_wf
    | with_reducible apply signal_wf
    | split
    | (dsimp only)

theorem ringIn_wf (f : RFrame) (c : Chip × Mem) (h : Mem.wf c.2 = true) :
    Mem.wf (ringIn f c).2 = true := by
  unfold ringIn
  try dsimp only
  repeat' first
    | with_reducible assumption
    | with_reducible exact nil_wf
    | with_reducible apply foldl_wf
    | intro _
    | with_reducible apply settleRoutes_wf
    | split
    | (dsimp only)

theorem applyControl_wf (f : RFrame) (c : Chip × Mem) (h : Mem.wf c.2 = true) :
    Mem.wf (applyControl f c).2 = true := by
  unfold applyControl
  try dsimp only
  repeat' first
    | with_reducible assumption
    | with_reducible exact nil_wf
    | with_reducible apply foldl_wf
    | intro _
    | with_reducible apply gRelease_wf
    | with_reducible apply gBindOff_wf
    | with_reducible apply gAnswer_wf
    | with_reducible apply gAbort_wf
    | with_reducible apply markerIn_wf
    | with_reducible apply ringIn_wf
    | split
    | (dsimp only)

theorem drainHeld_wf (src k : Nat) (c : Chip × Mem) (h : Mem.wf c.2 = true) : Mem.wf (drainHeld src k c).2 = true := by
  induction k generalizing c with
  | zero => exact h
  | succ k ih =>
    unfold drainHeld
    split
    · exact h
    · exact ih _ (applyControl_wf _ _ h)

theorem controlIn_wf (f : RFrame) (c : Chip × Mem) (h : Mem.wf c.2 = true) :
    Mem.wf (controlIn f c).2 = true := by
  unfold controlIn
  try dsimp only
  repeat' first
    | with_reducible assumption
    | with_reducible exact nil_wf
    | with_reducible apply foldl_wf
    | intro _
    | with_reducible apply applyControl_wf
    | with_reducible apply drainHeld_wf
    | split
    | (dsimp only)

theorem control_wf (code : Nat) (p : Port) (f : RFrame) (g : Chip × Mem → Chip × Mem) (c : Chip × Mem) (hg : ∀ d, Mem.wf d.2 = true → Mem.wf (g d).2 = true) (h : Mem.wf c.2 = true) :
    Mem.wf (control code p f g c).2 = true := by
  unfold control
  try dsimp only
  repeat' first
    | with_reducible assumption
    | with_reducible exact nil_wf
    | with_reducible apply foldl_wf
    | intro _
    | with_reducible apply typed_wf
    | with_reducible apply hg
    | split
    | (dsimp only)

theorem endXfer_wf (x : XferOut) (c : Chip × Mem) (h : Mem.wf c.2 = true) :
    Mem.wf (endXfer x c).2 = true := by
  unfold endXfer
  try dsimp only
  repeat' first
    | with_reducible assumption
    | with_reducible exact nil_wf
    | with_reducible apply foldl_wf
    | intro _
    | with_reducible apply progress_wf
    | split
    | (dsimp only)

theorem xferAckIn_wf (f : RFrame) (c : Chip × Mem) (h : Mem.wf c.2 = true) :
    Mem.wf (xferAckIn f c).2 = true := by
  unfold xferAckIn
  try dsimp only
  repeat' first
    | with_reducible assumption
    | with_reducible exact nil_wf
    | with_reducible apply foldl_wf
    | intro _
    | with_reducible apply endXfer_wf
    | split
    | (dsimp only)

theorem failFor_wf (g cause : Nat) (c : Chip × Mem) (h : Mem.wf c.2 = true) :
    Mem.wf (failFor g cause c).2 = true := by
  unfold failFor
  try dsimp only
  repeat' first
    | with_reducible assumption
    | with_reducible exact nil_wf
    | with_reducible apply foldl_wf
    | intro _
    | with_reducible apply abortGarment_wf
    | split
    | (dsimp only)

theorem xferTimeout_wf (xfer : Nat) (c : Chip × Mem) (h : Mem.wf c.2 = true) :
    Mem.wf (xferTimeout xfer c).2 = true := by
  unfold xferTimeout
  try dsimp only
  repeat' first
    | with_reducible assumption
    | with_reducible exact nil_wf
    | with_reducible apply foldl_wf
    | intro _
    | with_reducible apply endXfer_wf
    | with_reducible apply failFor_wf
    | split
    | (dsimp only)

theorem msgTimeout_wf (dest eseq : Nat) (c : Chip × Mem) (h : Mem.wf c.2 = true) :
    Mem.wf (msgTimeout dest eseq c).2 = true := by
  unfold msgTimeout
  try dsimp only
  repeat' first
    | with_reducible assumption
    | with_reducible exact nil_wf
    | with_reducible apply foldl_wf
    | intro _
    | with_reducible apply failFor_wf
    | split
    | (dsimp only)

theorem controlGap_wf (src : Nat) (c : Chip × Mem) (h : Mem.wf c.2 = true) :
    Mem.wf (controlGap src c).2 = true := by
  unfold controlGap
  try dsimp only
  repeat' first
    | with_reducible assumption
    | with_reducible exact nil_wf
    | with_reducible apply foldl_wf
    | intro _
    | with_reducible apply drainHeld_wf
    | with_reducible apply failFor_wf
    | split
    | (dsimp only)
/-! Start -/

theorem dormant_wf (c : Chip × Mem) (_h : Mem.wf c.2 = true) :
    Mem.wf (dormant c).2 = true := by
  unfold dormant
  try dsimp only
  repeat' first
    | with_reducible assumption
    | with_reducible exact nil_wf
    | with_reducible apply foldl_wf
    | intro _
    | split
    | (dsimp only)

theorem keptApply_wf (e : StartEnv) (c : Chip) :
    Mem.wf (keptApply e c).2 = true := by
  unfold keptApply
  try dsimp only
  repeat' first
    | with_reducible assumption
    | with_reducible exact nil_wf
    | with_reducible apply foldl_wf
    | intro _
    | with_reducible apply applied_wf
    | with_reducible apply powerCycle_wf
    | split
    | (dsimp only)

theorem keptStart_wf (e : StartEnv) (c : Chip) :
    Mem.wf (keptStart e c).2 = true := by
  unfold keptStart
  try dsimp only
  repeat' first
    | with_reducible assumption
    | with_reducible exact nil_wf
    | with_reducible apply foldl_wf
    | intro _
    | with_reducible apply keptApply_wf
    | split
    | (dsimp only)

theorem start_wf (e : StartEnv) (c : Chip) :
    Mem.wf (start e c).2 = true := by
  unfold start
  try dsimp only
  repeat' first
    | with_reducible assumption
    | with_reducible exact nil_wf
    | with_reducible apply foldl_wf
    | intro _
    | with_reducible apply fullStart_wf
    | with_reducible apply keptStart_wf
    | split
    | (dsimp only)

theorem perstRelease_wf (e : StartEnv) (c : Chip × Mem) (h : Mem.wf c.2 = true) :
    Mem.wf (perstRelease e c).2 = true := by
  unfold perstRelease
  try dsimp only
  repeat' first
    | with_reducible assumption
    | with_reducible exact nil_wf
    | with_reducible apply foldl_wf
    | intro _
    | with_reducible apply warmUp_wf
    | with_reducible apply start_wf
    | split
    | (dsimp only)

theorem unlink_wf (c : Chip × Mem) (h : Mem.wf c.2 = true) :
    Mem.wf (unlink c).2 = true := by
  unfold unlink
  try dsimp only
  repeat' first
    | with_reducible assumption
    | with_reducible exact nil_wf
    | with_reducible apply foldl_wf
    | intro _
    | with_reducible apply hotReset_wf
    | split
    | (dsimp only)

theorem perstAssert_wf (c : Chip × Mem) (h : Mem.wf c.2 = true) :
    Mem.wf (perstAssert c).2 = true := by
  unfold perstAssert
  try dsimp only
  repeat' first
    | with_reducible assumption
    | with_reducible exact nil_wf
    | with_reducible apply foldl_wf
    | intro _
    | with_reducible apply powerCycle_wf
    | with_reducible apply warmDown_wf
    | with_reducible apply unlink_wf
    | split
    | (dsimp only)

theorem endTickets_wf (c : Chip × Mem) (h : Mem.wf c.2 = true) :
    Mem.wf (endTickets c).2 = true := by
  unfold endTickets
  try dsimp only
  repeat' first
    | with_reducible assumption
    | with_reducible exact nil_wf
    | with_reducible apply foldl_wf
    | intro _
    | with_reducible apply closeTicket_wf
    | with_reducible apply abortGarment_wf
    | split
    | (dsimp only)

theorem pmeTurnOff_wf (c : Chip × Mem) (h : Mem.wf c.2 = true) :
    Mem.wf (pmeTurnOff c).2 = true := by
  unfold pmeTurnOff
  try dsimp only
  repeat' first
    | with_reducible assumption
    | with_reducible exact nil_wf
    | with_reducible apply foldl_wf
    | intro _
    | with_reducible apply endTickets_wf
    | split
    | (dsimp only)

theorem modRstAssert_wf (c : Chip × Mem) (h : Mem.wf c.2 = true) :
    Mem.wf (modRstAssert c).2 = true := by
  unfold modRstAssert
  try dsimp only
  repeat' first
    | with_reducible assumption
    | with_reducible exact nil_wf
    | with_reducible apply foldl_wf
    | intro _
    | with_reducible apply warmDown_wf
    | with_reducible apply unlink_wf
    | split
    | (dsimp only)

theorem modRstRelease_wf (e : StartEnv) (c : Chip × Mem) (h : Mem.wf c.2 = true) :
    Mem.wf (modRstRelease e c).2 = true := by
  unfold modRstRelease
  try dsimp only
  repeat' first
    | with_reducible assumption
    | with_reducible exact nil_wf
    | with_reducible apply foldl_wf
    | intro _
    | with_reducible apply fullStart_wf
    | split
    | (dsimp only)

theorem powerFall_wf (c : Chip × Mem) (h : Mem.wf c.2 = true) :
    Mem.wf (powerFall c).2 = true := by
  unfold powerFall
  try dsimp only
  repeat' first
    | with_reducible assumption
    | with_reducible exact nil_wf
    | with_reducible apply foldl_wf
    | intro _
    | with_reducible apply dormant_wf
    | split
    | (dsimp only)

theorem undervoltage_wf (c : Chip × Mem) (h : Mem.wf c.2 = true) :
    Mem.wf (undervoltage c).2 = true := by
  unfold undervoltage
  try dsimp only
  repeat' first
    | with_reducible assumption
    | with_reducible exact nil_wf
    | with_reducible apply foldl_wf
    | intro _
    | with_reducible apply dormant_wf
    | split
    | (dsimp only)
/-! Regs -/

theorem qRegWrite_wf (fn q off v : Nat) (c : Chip × Mem) (h : Mem.wf c.2 = true) :
    Mem.wf (qRegWrite fn q off v c).2 = true := by
  unfold qRegWrite
  try dsimp only
  repeat' first
    | with_reducible assumption
    | with_reducible exact nil_wf
    | with_reducible apply foldl_wf
    | intro _
    | with_reducible apply cqHead_wf
    | split
    | (dsimp only)

theorem resetRequest_wf (v : Nat) (c : Chip × Mem) (h : Mem.wf c.2 = true) :
    Mem.wf (resetRequest v c).2 = true := by
  unfold resetRequest
  try dsimp only
  repeat' first
    | with_reducible assumption
    | with_reducible exact nil_wf
    | with_reducible apply foldl_wf
    | intro _
    | with_reducible apply frogRequest_wf
    | with_reducible apply panelRequest_wf
    | with_reducible apply warmRequest_wf
    | with_reducible apply maintRequest_wf
    | with_reducible apply cycleRequest_wf
    | split
    | (dsimp only)

theorem pfRegWrite_wf (a v : Nat) (c : Chip × Mem) (h : Mem.wf c.2 = true) : Mem.wf (pfRegWrite a v c).2 = true := by
  have hq := qRegWrite_wf 0 ((a - 0x40000) / 0x400) (a % 0x400) v c h
  have hr := resetRequest_wf v c h
  unfold pfRegWrite
  repeat' first
    | with_reducible assumption
    | with_reducible apply ite_wf
    | dsimp only

theorem pfWrite_wf (addr size v : Nat) (c : Chip × Mem) (h : Mem.wf c.2 = true) :
    Mem.wf (pfWrite addr size v c).2 = true := by
  unfold pfWrite
  try dsimp only
  repeat' first
    | with_reducible assumption
    | with_reducible exact nil_wf
    | with_reducible apply foldl_wf
    | intro _
    | with_reducible apply pfRegWrite_wf
    | split
    | (dsimp only)

theorem vfWrite_wf (fn addr size v : Nat) (c : Chip × Mem) (h : Mem.wf c.2 = true) :
    Mem.wf (vfWrite fn addr size v c).2 = true := by
  unfold vfWrite
  try dsimp only
  repeat' first
    | with_reducible assumption
    | with_reducible exact nil_wf
    | with_reducible apply foldl_wf
    | intro _
    | with_reducible apply qRegWrite_wf
    | split
    | (dsimp only)

theorem registerWrite_wf (fn addr size v : Nat) (c : Chip × Mem) (h : Mem.wf c.2 = true) :
    Mem.wf (registerWrite fn addr size v c).2 = true := by
  unfold registerWrite
  try dsimp only
  repeat' first
    | with_reducible assumption
    | with_reducible exact nil_wf
    | with_reducible apply foldl_wf
    | intro _
    | with_reducible apply pfWrite_wf
    | with_reducible apply vfWrite_wf
    | split
    | (dsimp only)
/-! Smbus -/

theorem smbReset_wf (level : Nat) (c : Chip × Mem) (h : Mem.wf c.2 = true) :
    Mem.wf (smbReset level c).2 = true := by
  unfold smbReset
  try dsimp only
  repeat' first
    | with_reducible assumption
    | with_reducible exact nil_wf
    | with_reducible apply foldl_wf
    | intro _
    | with_reducible apply warmRequest_wf
    | with_reducible apply maintRequest_wf
    | split
    | (dsimp only)

end Sys2Proof.Machine
end

