-- ==== Sys2Proof/Laws/Quiet.lean ====
section
/-!
SUPPORT. Frame lemmas: every shared operation that a host, Round, core or queue command goes through keeps the quiet part of the
chip (Safety.quiet): gauge, tension, VCORE rung, pattern store, SMBus answers, reset bookkeeping, pins and kept state.
-/
namespace Sys2Proof.Machine

variable {q0 : (Gauge × RungB × Pat × List SmbAnswer × Tens) × (Rst × Pins × Keep)}

theorem foldlM_quiet {α : Type} {f : Chip × Mem → α → Chip × Mem} (hf : ∀ d a, Safety.quiet d.1 = q0 → Safety.quiet (f d a).1 = q0)
    {l : List α} {c : Chip × Mem} (h : Safety.quiet c.1 = q0) : Safety.quiet (l.foldl f c).1 = q0 := by
  induction l generalizing c with
  | nil => exact h
  | cons x l ih => exact ih (hf _ _ h)

theorem foldl_quiet {α : Type} {f : Chip → α → Chip} (hf : ∀ d a, Safety.quiet d = q0 → Safety.quiet (f d a) = q0)
    {l : List α} {c : Chip} (h : Safety.quiet c = q0) : Safety.quiet (l.foldl f c) = q0 := by
  induction l generalizing c with
  | nil => exact h
  | cons x l ih => exact ih (hf _ _ h)

/-! Ops -/

theorem Chip.updQueue_quiet (c : Chip) (g : Nat) (f : Queue → Queue) (hgq : Safety.quiet c = q0) :
    Safety.quiet (Chip.updQueue c g f) = q0 := by
  unfold Chip.updQueue
  try dsimp only
  repeat' first
    | with_reducible assumption
    | with_reducible apply foldl_quiet
    | with_reducible apply foldlM_quiet
    | intro _
    | split
    | (dsimp only [Safety.quiet, Rst.record, id])
    | exact hgq

theorem Chip.updNeedle_quiet (c : Chip) (n : Nat) (f : Needle → Needle) (hgq : Safety.quiet c = q0) :
    Safety.quiet (Chip.updNeedle c n f) = q0 := by
  unfold Chip.updNeedle
  try dsimp only
  repeat' first
    | with_reducible assumption
    | with_reducible apply foldl_quiet
    | with_reducible apply foldlM_quiet
    | intro _
    | split
    | (dsimp only [Safety.quiet, Rst.record, id])
    | exact hgq

theorem Chip.updPanel_quiet (c : Chip) (p : Nat) (f : Panel → Panel) (hgq : Safety.quiet c = q0) :
    Safety.quiet (Chip.updPanel c p f) = q0 := by
  unfold Chip.updPanel
  try dsimp only
  repeat' first
    | with_reducible assumption
    | with_reducible apply foldl_quiet
    | with_reducible apply foldlM_quiet
    | intro _
    | split
    | (dsimp only [Safety.quiet, Rst.record, id])
    | exact hgq

theorem Chip.updTicket_quiet (c : Chip) (t : Nat) (f : Ticket → Ticket) (hgq : Safety.quiet c = q0) :
    Safety.quiet (Chip.updTicket c t f) = q0 := by
  unfold Chip.updTicket
  try dsimp only
  repeat' first
    | with_reducible assumption
    | with_reducible apply foldl_quiet
    | with_reducible apply foldlM_quiet
    | intro _
    | split
    | (dsimp only [Safety.quiet, Rst.record, id])
    | exact hgq

theorem Chip.reportLtr_quiet (c : Chip) (hgq : Safety.quiet c = q0) :
    Safety.quiet (Chip.reportLtr c) = q0 := by
  unfold Chip.reportLtr
  try dsimp only
  repeat' first
    | with_reducible assumption
    | with_reducible apply foldl_quiet
    | with_reducible apply foldlM_quiet
    | intro _
    | split
    | (dsimp only [Safety.quiet, Rst.record, id])
    | exact hgq

/-! Flags -/

theorem Chip.edge_quiet (c : Chip) (s : Nat) (hgq : Safety.quiet c = q0) :
    Safety.quiet (Chip.edge c s) = q0 := by
  unfold Chip.edge
  try dsimp only
  repeat' first
    | with_reducible assumption
    | with_reducible apply foldl_quiet
    | with_reducible apply foldlM_quiet
    | intro _
    | split
    | (dsimp only [Safety.quiet, Rst.record, id])
    | exact hgq

theorem Chip.incident_quiet (c : Chip) (i : Incident) (src : Nat) (ctx : Option Nat) (ticket argHi arg : Nat) (hgq : Safety.quiet c = q0) :
    Safety.quiet (Chip.incident c i src ctx ticket argHi arg) = q0 := by
  unfold Chip.incident
  try dsimp only
  repeat' first
    | with_reducible assumption
    | with_reducible apply foldl_quiet
    | with_reducible apply foldlM_quiet
    | intro _
    | with_reducible apply Chip.edge_quiet
    | split
    | (dsimp only [Safety.quiet, Rst.record, id])
    | exact hgq

theorem Chip.note_quiet (c : Chip) (i : Incident) (src : Nat) (ctx : Option Nat) (ticket argHi arg : Nat) (hgq : Safety.quiet c = q0) :
    Safety.quiet (Chip.note c i src ctx ticket argHi arg) = q0 := by
  unfold Chip.note
  try dsimp only
  repeat' first
    | with_reducible assumption
    | with_reducible apply foldl_quiet
    | with_reducible apply foldlM_quiet
    | intro _
    | with_reducible apply Chip.edge_quiet
    | split
    | (dsimp only [Safety.quiet, Rst.record, id])
    | exact hgq

theorem Chip.regIncident_quiet (c : Chip) (i : Incident) (addr : Nat) (hgq : Safety.quiet c = q0) :
    Safety.quiet (Chip.regIncident c i addr) = q0 := by
  unfold Chip.regIncident
  try dsimp only
  repeat' first
    | with_reducible assumption
    | with_reducible apply foldl_quiet
    | with_reducible apply foldlM_quiet
    | intro _
    | with_reducible apply Chip.incident_quiet
    | split
    | (dsimp only [Safety.quiet, Rst.record, id])
    | exact hgq

theorem Chip.alarm_quiet (c : Chip) (e : Bool) (i : Incident) (k src : Nat) (ctx : Option Nat) (ticket argHi arg : Nat) (hgq : Safety.quiet c = q0) :
    Safety.quiet (Chip.alarm c e i k src ctx ticket argHi arg) = q0 := by
  unfold Chip.alarm
  try dsimp only
  repeat' first
    | with_reducible assumption
    | with_reducible apply foldl_quiet
    | with_reducible apply foldlM_quiet
    | intro _
    | with_reducible apply Chip.edge_quiet
    | split
    | (dsimp only [Safety.quiet, Rst.record, id])
    | exact hgq

theorem Chip.alarmIf_quiet (c : Chip) (b e : Bool) (i : Incident) (k src : Nat) (ctx : Option Nat) (ticket argHi arg : Nat) (hgq : Safety.quiet c = q0) :
    Safety.quiet (Chip.alarmIf c b e i k src ctx ticket argHi arg) = q0 := by
  unfold Chip.alarmIf
  try dsimp only
  repeat' first
    | with_reducible assumption
    | with_reducible apply foldl_quiet
    | with_reducible apply foldlM_quiet
    | intro _
    | with_reducible apply Chip.alarm_quiet
    | split
    | (dsimp only [Safety.quiet, Rst.record, id])
    | exact hgq

theorem Chip.incidentIf_quiet (c : Chip) (b : Bool) (i : Incident) (src : Nat) (ctx : Option Nat) (ticket argHi arg : Nat) (hgq : Safety.quiet c = q0) :
    Safety.quiet (Chip.incidentIf c b i src ctx ticket argHi arg) = q0 := by
  unfold Chip.incidentIf
  try dsimp only
  repeat' first
    | with_reducible assumption
    | with_reducible apply foldl_quiet
    | with_reducible apply foldlM_quiet
    | intro _
    | with_reducible apply Chip.incident_quiet
    | split
    | (dsimp only [Safety.quiet, Rst.record, id])
    | exact hgq

theorem Chip.edgeIf_quiet (c : Chip) (b : Bool) (s : Nat) (hgq : Safety.quiet c = q0) :
    Safety.quiet (Chip.edgeIf c b s) = q0 := by
  unfold Chip.edgeIf
  try dsimp only
  repeat' first
    | with_reducible assumption
    | with_reducible apply foldl_quiet
    | with_reducible apply foldlM_quiet
    | intro _
    | with_reducible apply Chip.edge_quiet
    | split
    | (dsimp only [Safety.quiet, Rst.record, id])
    | exact hgq

theorem Chip.summaryRecord_quiet (c : Chip) (suppressed : Nat) (hgq : Safety.quiet c = q0) :
    Safety.quiet (Chip.summaryRecord c suppressed) = q0 := by
  unfold Chip.summaryRecord
  try dsimp only
  repeat' first
    | with_reducible assumption
    | with_reducible apply foldl_quiet
    | with_reducible apply foldlM_quiet
    | intro _
    | with_reducible apply Chip.edge_quiet
    | split
    | (dsimp only [Safety.quiet, Rst.record, id])
    | exact hgq

theorem Chip.eventAck_quiet (c : Chip) (s seen : Nat) (hgq : Safety.quiet c = q0) :
    Safety.quiet (Chip.eventAck c s seen) = q0 := by
  unfold Chip.eventAck
  try dsimp only
  repeat' first
    | with_reducible assumption
    | with_reducible apply foldl_quiet
    | with_reducible apply foldlM_quiet
    | intro _
    | with_reducible apply Chip.regIncident_quiet
    | split
    | (dsimp only [Safety.quiet, Rst.record, id])
    | exact hgq

theorem Chip.idleHint_quiet (c : Chip) (v : Nat) (hgq : Safety.quiet c = q0) :
    Safety.quiet (Chip.idleHint c v) = q0 := by
  unfold Chip.idleHint
  try dsimp only
  repeat' first
    | with_reducible assumption
    | with_reducible apply foldl_quiet
    | with_reducible apply foldlM_quiet
    | intro _
    | split
    | (dsimp only [Safety.quiet, Rst.record, id])
    | exact hgq

theorem Chip.evcDisable_quiet (c : Chip) (on : Bool) (hgq : Safety.quiet c = q0) :
    Safety.quiet (Chip.evcDisable c on) = q0 := by
  unfold Chip.evcDisable
  try dsimp only
  repeat' first
    | with_reducible assumption
    | with_reducible apply foldl_quiet
    | with_reducible apply foldlM_quiet
    | intro _
    | split
    | (dsimp only [Safety.quiet, Rst.record, id])
    | exact hgq

theorem Chip.alarmAck_quiet (c : Chip) (k seen : Nat) (hgq : Safety.quiet c = q0) :
    Safety.quiet (Chip.alarmAck c k seen) = q0 := by
  unfold Chip.alarmAck
  try dsimp only
  repeat' first
    | with_reducible assumption
    | with_reducible apply foldl_quiet
    | with_reducible apply foldlM_quiet
    | intro _
    | with_reducible apply Chip.regIncident_quiet
    | split
    | (dsimp only [Safety.quiet, Rst.record, id])
    | exact hgq

/-! Gauge -/

theorem Chip.garRise_quiet (c : Chip) (before : Bool) (hgq : Safety.quiet c = q0) :
    Safety.quiet (Chip.garRise c before) = q0 := by
  unfold Chip.garRise
  try dsimp only
  repeat' first
    | with_reducible assumption
    | with_reducible apply foldl_quiet
    | with_reducible apply foldlM_quiet
    | intro _
    | with_reducible apply Chip.alarmIf_quiet
    | split
    | (dsimp only [Safety.quiet, Rst.record, id])
    | exact hgq

/-! Tension -/

theorem Chip.degradeOne_quiet (c : Chip) (hgq : Safety.quiet c = q0) :
    Safety.quiet (Chip.degradeOne c) = q0 := by
  unfold Chip.degradeOne
  try dsimp only
  repeat' first
    | with_reducible assumption
    | with_reducible apply foldl_quiet
    | with_reducible apply foldlM_quiet
    | intro _
    | with_reducible apply Chip.updTicket_quiet
    | with_reducible apply Chip.alarm_quiet
    | split
    | (dsimp only [Safety.quiet, Rst.record, id])
    | exact hgq

theorem Chip.restoreOne_quiet (c : Chip) (hgq : Safety.quiet c = q0) :
    Safety.quiet (Chip.restoreOne c) = q0 := by
  unfold Chip.restoreOne
  try dsimp only
  repeat' first
    | with_reducible assumption
    | with_reducible apply foldl_quiet
    | with_reducible apply foldlM_quiet
    | intro _
    | with_reducible apply Chip.updTicket_quiet
    | with_reducible apply Chip.incident_quiet
    | split
    | (dsimp only [Safety.quiet, Rst.record, id])
    | exact hgq

/-! HostQueue -/

theorem Chip.hostWrite_quiet (c : Chip) (addr : Nat) (b : List Byte) (hgq : Safety.quiet c = q0) :
    Safety.quiet (Chip.hostWrite c addr b) = q0 := by
  unfold Chip.hostWrite
  try dsimp only
  repeat' first
    | with_reducible assumption
    | with_reducible apply foldl_quiet
    | with_reducible apply foldlM_quiet
    | intro _
    | split
    | (dsimp only [Safety.quiet, Rst.record, id])
    | exact hgq

theorem Chip.cqPut_quiet (c : Chip) (g : Nat) (r : CqRec) (hgq : Safety.quiet c = q0) :
    Safety.quiet (Chip.cqPut c g r) = q0 := by
  unfold Chip.cqPut
  try dsimp only
  repeat' first
    | with_reducible assumption
    | with_reducible apply foldl_quiet
    | with_reducible apply foldlM_quiet
    | intro _
    | with_reducible apply Chip.edge_quiet
    | split
    | (dsimp only [Safety.quiet, Rst.record, id])
    | exact hgq

theorem Chip.cqHold_quiet (c : Chip) (g : Nat) (r : CqRec) (hgq : Safety.quiet c = q0) :
    Safety.quiet (Chip.cqHold c g r) = q0 := by
  unfold Chip.cqHold
  try dsimp only
  repeat' first
    | with_reducible assumption
    | with_reducible apply foldl_quiet
    | with_reducible apply foldlM_quiet
    | intro _
    | split
    | (dsimp only [Safety.quiet, Rst.record, id])
    | exact hgq

theorem Chip.cqWrite_quiet (c : Chip) (g : Nat) (r : CqRec) (hgq : Safety.quiet c = q0) :
    Safety.quiet (Chip.cqWrite c g r) = q0 := by
  unfold Chip.cqWrite
  try dsimp only
  repeat' first
    | with_reducible assumption
    | with_reducible apply foldl_quiet
    | with_reducible apply foldlM_quiet
    | intro _
    | with_reducible apply Chip.updQueue_quiet
    | with_reducible apply Chip.cqPut_quiet
    | with_reducible apply Chip.cqHold_quiet
    | split
    | (dsimp only [Safety.quiet, Rst.record, id])
    | exact hgq

theorem Chip.answer_quiet (c : Chip) (g tag status ticket bytes : Nat) (hgq : Safety.quiet c = q0) :
    Safety.quiet (Chip.answer c g tag status ticket bytes) = q0 := by
  unfold Chip.answer
  try dsimp only
  repeat' first
    | with_reducible assumption
    | with_reducible apply foldl_quiet
    | with_reducible apply foldlM_quiet
    | intro _
    | with_reducible apply Chip.cqWrite_quiet
    | split
    | (dsimp only [Safety.quiet, Rst.record, id])
    | exact hgq

theorem Chip.accept_quiet (c : Chip) (g need : Nat) (hgq : Safety.quiet c = q0) :
    Safety.quiet (Chip.accept c g need) = q0 := by
  unfold Chip.accept
  try dsimp only
  repeat' first
    | with_reducible assumption
    | with_reducible apply foldl_quiet
    | with_reducible apply foldlM_quiet
    | intro _
    | split
    | (dsimp only [Safety.quiet, Rst.record, id])
    | exact hgq

theorem Chip.unreserve_quiet (c : Chip) (g n : Nat) (hgq : Safety.quiet c = q0) :
    Safety.quiet (Chip.unreserve c g n) = q0 := by
  unfold Chip.unreserve
  try dsimp only
  repeat' first
    | with_reducible assumption
    | with_reducible apply foldl_quiet
    | with_reducible apply foldlM_quiet
    | intro _
    | with_reducible apply Chip.updQueue_quiet
    | split
    | (dsimp only [Safety.quiet, Rst.record, id])
    | exact hgq

/-! Pool -/

theorem Chip.hankAlloc_quiet (c : Chip) (ticket tag n : Nat) (hgq : Safety.quiet c = q0) :
    Safety.quiet (Chip.hankAlloc c ticket tag n) = q0 := by
  unfold Chip.hankAlloc
  try dsimp only
  repeat' first
    | with_reducible assumption
    | with_reducible apply foldl_quiet
    | with_reducible apply foldlM_quiet
    | intro _
    | split
    | (dsimp only [Safety.quiet, Rst.record, id])
    | exact hgq

theorem Chip.hankGrant_quiet (c : Chip) (hgq : Safety.quiet c = q0) :
    Safety.quiet (Chip.hankGrant c) = q0 := by
  unfold Chip.hankGrant
  try dsimp only
  repeat' first
    | with_reducible assumption
    | with_reducible apply foldl_quiet
    | with_reducible apply foldlM_quiet
    | intro _
    | split
    | (dsimp only [Safety.quiet, Rst.record, id])
    | exact hgq

theorem Chip.hankRefuse_quiet (c : Chip) (why : HankRefusal) (h caller : Nat) (hgq : Safety.quiet c = q0) :
    Safety.quiet (Chip.hankRefuse c why h caller) = q0 := by
  unfold Chip.hankRefuse
  try dsimp only
  repeat' first
    | with_reducible assumption
    | with_reducible apply foldl_quiet
    | with_reducible apply foldlM_quiet
    | intro _
    | with_reducible apply Chip.incident_quiet
    | split
    | (dsimp only [Safety.quiet, Rst.record, id])
    | exact hgq

theorem Chip.hankShare_quiet (c : Chip) (h caller releaser : Nat) (readers : List Nat) (hgq : Safety.quiet c = q0) :
    Safety.quiet (Chip.hankShare c h caller releaser readers) = q0 := by
  unfold Chip.hankShare
  try dsimp only
  repeat' first
    | with_reducible assumption
    | with_reducible apply foldl_quiet
    | with_reducible apply foldlM_quiet
    | intro _
    | with_reducible apply Chip.hankRefuse_quiet
    | split
    | (dsimp only [Safety.quiet, Rst.record, id])
    | exact hgq

theorem Chip.hankPass_quiet (c : Chip) (h caller tag : Nat) (hgq : Safety.quiet c = q0) :
    Safety.quiet (Chip.hankPass c h caller tag) = q0 := by
  unfold Chip.hankPass
  try dsimp only
  repeat' first
    | with_reducible assumption
    | with_reducible apply foldl_quiet
    | with_reducible apply foldlM_quiet
    | intro _
    | with_reducible apply Chip.hankRefuse_quiet
    | split
    | (dsimp only [Safety.quiet, Rst.record, id])
    | exact hgq

theorem Chip.hankFree_quiet (c : Chip) (h caller : Nat) (hgq : Safety.quiet c = q0) :
    Safety.quiet (Chip.hankFree c h caller) = q0 := by
  unfold Chip.hankFree
  try dsimp only
  repeat' first
    | with_reducible assumption
    | with_reducible apply foldl_quiet
    | with_reducible apply foldlM_quiet
    | intro _
    | with_reducible apply Chip.hankRefuse_quiet
    | split
    | (dsimp only [Safety.quiet, Rst.record, id])
    | exact hgq

theorem Chip.freeNoHank_quiet (c : Chip) (fn handle : Nat) (hgq : Safety.quiet c = q0) :
    Safety.quiet (Chip.freeNoHank c fn handle) = q0 := by
  unfold Chip.freeNoHank
  try dsimp only
  repeat' first
    | with_reducible assumption
    | with_reducible apply foldl_quiet
    | with_reducible apply foldlM_quiet
    | intro _
    | with_reducible apply Chip.incident_quiet
    | split
    | (dsimp only [Safety.quiet, Rst.record, id])
    | exact hgq

theorem Chip.scrubDone_quiet (c : Chip) (h : Nat) (hgq : Safety.quiet c = q0) :
    Safety.quiet (Chip.scrubDone c h) = q0 := by
  unfold Chip.scrubDone
  try dsimp only
  repeat' first
    | with_reducible assumption
    | with_reducible apply foldl_quiet
    | with_reducible apply foldlM_quiet
    | intro _
    | split
    | (dsimp only [Safety.quiet, Rst.record, id])
    | exact hgq

theorem Chip.wakeWaits_quiet (c : Chip) (m : Nat) (hgq : Safety.quiet c = q0) :
    Safety.quiet (Chip.wakeWaits c m) = q0 := by
  unfold Chip.wakeWaits
  try dsimp only
  repeat' first
    | with_reducible assumption
    | with_reducible apply foldl_quiet
    | with_reducible apply foldlM_quiet
    | intro _
    | with_reducible apply Chip.answer_quiet
    | split
    | (dsimp only [Safety.quiet, Rst.record, id])
    | exact hgq

theorem Chip.signal_quiet (c : Chip) (m n ctx ticket : Nat) (hgq : Safety.quiet c = q0) :
    Safety.quiet (c.signal m n ctx ticket) = q0 := by
  unfold Chip.signal
  split
  · split
    · exact Chip.note_quiet _ _ _ _ _ _ _ (Chip.wakeWaits_quiet _ _ hgq)
    · exact Chip.wakeWaits_quiet _ _ hgq
  · exact Chip.note_quiet _ _ _ _ _ _ _ hgq

theorem Chip.signalMap_quiet (c : Chip) (t : Ticket) (i n ctx : Nat) (hgq : Safety.quiet c = q0) :
    Safety.quiet (Chip.signalMap c t i n ctx) = q0 := by
  unfold Chip.signalMap
  try dsimp only
  repeat' first
    | with_reducible assumption
    | with_reducible apply foldl_quiet
    | with_reducible apply foldlM_quiet
    | intro _
    | with_reducible apply Chip.signal_quiet
    | split
    | (dsimp only [Safety.quiet, Rst.record, id])
    | exact hgq

theorem Chip.releaseMarkers_quiet (c : Chip) (ms : List Nat) (hgq : Safety.quiet c = q0) :
    Safety.quiet (Chip.releaseMarkers c ms) = q0 := by
  unfold Chip.releaseMarkers
  try dsimp only
  repeat' first
    | with_reducible assumption
    | with_reducible apply foldl_quiet
    | with_reducible apply foldlM_quiet
    | intro _
    | with_reducible apply Chip.answer_quiet
    | split
    | (dsimp only [Safety.quiet, Rst.record, id])
    | exact hgq

theorem Chip.hbmUe_quiet (c : Chip) (a : Nat) (hgq : Safety.quiet c = q0) :
    Safety.quiet (Chip.hbmUe c a) = q0 := by
  unfold Chip.hbmUe
  try dsimp only
  repeat' first
    | with_reducible assumption
    | with_reducible apply foldl_quiet
    | with_reducible apply foldlM_quiet
    | intro _
    | with_reducible apply Chip.alarm_quiet
    | split
    | (dsimp only [Safety.quiet, Rst.record, id])
    | exact hgq

/-! Panels -/

theorem Chip.charge_quiet (c : Chip) (panel res bytes : Nat) (guar : Bool) (own : Option (Nat × Nat)) (hgq : Safety.quiet c = q0) :
    Safety.quiet (Chip.charge c panel res bytes guar own) = q0 := by
  unfold Chip.charge
  try dsimp only
  repeat' first
    | with_reducible assumption
    | with_reducible apply foldl_quiet
    | with_reducible apply foldlM_quiet
    | intro _
    | with_reducible apply Chip.updPanel_quiet
    | split
    | (dsimp only [Safety.quiet, Rst.record, id])
    | exact hgq

theorem Chip.dmaBegins_quiet (c : Chip) (own : Nat × Nat) (hgq : Safety.quiet c = q0) :
    Safety.quiet (Chip.dmaBegins c own) = q0 := by
  unfold Chip.dmaBegins
  try dsimp only
  repeat' first
    | with_reducible assumption
    | with_reducible apply foldl_quiet
    | with_reducible apply foldlM_quiet
    | intro _
    | with_reducible apply Chip.updNeedle_quiet
    | split
    | (dsimp only [Safety.quiet, Rst.record, id])
    | exact hgq

theorem Chip.admitChunk_quiet (c : Chip) (panel res : Nat) (guar : Bool) (hgq : Safety.quiet c = q0) :
    Safety.quiet (Chip.admitChunk c panel res guar) = q0 := by
  unfold Chip.admitChunk
  try dsimp only
  repeat' first
    | with_reducible assumption
    | with_reducible apply foldl_quiet
    | with_reducible apply foldlM_quiet
    | intro _
    | with_reducible apply Chip.updPanel_quiet
    | with_reducible apply Chip.dmaBegins_quiet
    | split
    | (dsimp only [Safety.quiet, Rst.record, id])
    | exact hgq

theorem Chip.hbmWrote_quiet (c : Chip) (r : Range) (hgq : Safety.quiet c = q0) :
    Safety.quiet (Chip.hbmWrote c r) = q0 := by
  unfold Chip.hbmWrote
  try dsimp only
  repeat' first
    | with_reducible assumption
    | with_reducible apply foldl_quiet
    | with_reducible apply foldlM_quiet
    | intro _
    | split
    | (dsimp only [Safety.quiet, Rst.record, id])
    | exact hgq

theorem Chip.wrote_quiet (c : Chip) (rs : List Range) (hgq : Safety.quiet c = q0) :
    Safety.quiet (Chip.wrote c rs) = q0 := by
  unfold Chip.wrote
  try dsimp only
  repeat' first
    | with_reducible assumption
    | with_reducible apply foldl_quiet
    | with_reducible apply foldlM_quiet
    | intro _
    | with_reducible apply Chip.hbmWrote_quiet
    | split
    | (dsimp only [Safety.quiet, Rst.record, id])
    | exact hgq

theorem Chip.hbmRead_quiet (c : Chip) (r : Range) (hgq : Safety.quiet c = q0) :
    Safety.quiet (Chip.hbmRead c r) = q0 := by
  unfold Chip.hbmRead
  try dsimp only
  repeat' first
    | with_reducible assumption
    | with_reducible apply foldl_quiet
    | with_reducible apply foldlM_quiet
    | intro _
    | split
    | (dsimp only [Safety.quiet, Rst.record, id])
    | exact hgq

theorem Chip.hbmFetch_quiet (c : Chip) (r : Range) (hgq : Safety.quiet c = q0) :
    Safety.quiet (Chip.hbmFetch c r) = q0 := by
  unfold Chip.hbmFetch
  try dsimp only
  repeat' first
    | with_reducible assumption
    | with_reducible apply foldl_quiet
    | with_reducible apply foldlM_quiet
    | intro _
    | with_reducible apply Chip.hbmUe_quiet
    | with_reducible apply Chip.hbmRead_quiet
    | split
    | (dsimp only [Safety.quiet, Rst.record, id])
    | exact hgq

theorem Chip.sharedLine_quiet (c : Chip) (p x : Nat) (hgq : Safety.quiet c = q0) :
    Safety.quiet (Chip.sharedLine c p x) = q0 := by
  unfold Chip.sharedLine
  try dsimp only
  repeat' first
    | with_reducible assumption
    | with_reducible apply foldl_quiet
    | with_reducible apply foldlM_quiet
    | intro _
    | split
    | (dsimp only [Safety.quiet, Rst.record, id])
    | exact hgq

theorem Chip.startFill_quiet (c : Chip) (f : Fill) (hgq : Safety.quiet c = q0) :
    Safety.quiet (Chip.startFill c f) = q0 := by
  unfold Chip.startFill
  try dsimp only
  repeat' first
    | with_reducible assumption
    | with_reducible apply foldl_quiet
    | with_reducible apply foldlM_quiet
    | intro _
    | with_reducible apply Chip.charge_quiet
    | split
    | (dsimp only [Safety.quiet, Rst.record, id])
    | exact hgq

theorem Chip.miss_quiet (c : Chip) (panel b : Nat) (r : Range) (guar : Bool) (remote : Option Nat) (own : Option (Nat × Nat)) (hgq : Safety.quiet c = q0) :
    Safety.quiet (Chip.miss c panel b r guar remote own) = q0 := by
  unfold Chip.miss
  try dsimp only
  repeat' first
    | with_reducible assumption
    | with_reducible apply foldl_quiet
    | with_reducible apply foldlM_quiet
    | intro _
    | with_reducible apply Chip.charge_quiet
    | with_reducible apply Chip.hbmRead_quiet
    | with_reducible apply Chip.startFill_quiet
    | split
    | (dsimp only [Safety.quiet, Rst.record, id])
    | exact hgq

theorem Chip.readBlock_quiet (c : Chip) (panel : Nat) (r : Range) (guar : Bool) (remote : Option Nat) (own : Option (Nat × Nat)) (hgq : Safety.quiet c = q0) :
    Safety.quiet (Chip.readBlock c panel r guar remote own) = q0 := by
  unfold Chip.readBlock
  try dsimp only
  repeat' first
    | with_reducible assumption
    | with_reducible apply foldl_quiet
    | with_reducible apply foldlM_quiet
    | intro _
    | with_reducible apply Chip.charge_quiet
    | with_reducible apply Chip.miss_quiet
    | split
    | (dsimp only [Safety.quiet, Rst.record, id])
    | exact hgq

theorem Chip.hbmBlockRead_quiet (c : Chip) (panel : Nat) (r : Range) (guar : Bool) (own : Option (Nat × Nat)) (hgq : Safety.quiet c = q0) :
    Safety.quiet (Chip.hbmBlockRead c panel r guar own) = q0 := by
  unfold Chip.hbmBlockRead
  try dsimp only
  repeat' first
    | with_reducible assumption
    | with_reducible apply foldl_quiet
    | with_reducible apply foldlM_quiet
    | intro _
    | with_reducible apply Chip.charge_quiet
    | with_reducible apply Chip.hbmRead_quiet
    | with_reducible apply Chip.sharedLine_quiet
    | with_reducible apply Chip.readBlock_quiet
    | split
    | (dsimp only [Safety.quiet, Rst.record, id])
    | exact hgq

theorem Chip.needleRead_quiet (c : Chip) (panel : Nat) (r : Range) (guar : Bool) (own : Option (Nat × Nat)) (hgq : Safety.quiet c = q0) :
    Safety.quiet (Chip.needleRead c panel r guar own) = q0 := by
  unfold Chip.needleRead
  try dsimp only
  repeat' first
    | with_reducible assumption
    | with_reducible apply foldl_quiet
    | with_reducible apply foldlM_quiet
    | intro _
    | with_reducible apply Chip.charge_quiet
    | with_reducible apply Chip.hbmBlockRead_quiet
    | split
    | (dsimp only [Safety.quiet, Rst.record, id])
    | exact hgq

theorem Chip.panelWrite_quiet (c : Chip) (panel : Nat) (r : Range) (guar : Bool) (own : Option (Nat × Nat)) (hgq : Safety.quiet c = q0) :
    Safety.quiet (Chip.panelWrite c panel r guar own) = q0 := by
  unfold Chip.panelWrite
  try dsimp only
  repeat' first
    | with_reducible assumption
    | with_reducible apply foldl_quiet
    | with_reducible apply foldlM_quiet
    | intro _
    | with_reducible apply Chip.charge_quiet
    | with_reducible apply Chip.hbmWrote_quiet
    | split
    | (dsimp only [Safety.quiet, Rst.record, id])
    | exact hgq

theorem Chip.loadRemote_quiet (c : Chip) (i : Nat) (hgq : Safety.quiet c = q0) :
    Safety.quiet (Chip.loadRemote c i) = q0 := by
  unfold Chip.loadRemote
  try dsimp only
  repeat' first
    | with_reducible assumption
    | with_reducible apply foldl_quiet
    | with_reducible apply foldlM_quiet
    | intro _
    | with_reducible apply Chip.startFill_quiet
    | split
    | (dsimp only [Safety.quiet, Rst.record, id])
    | exact hgq

theorem Chip.loadResident_quiet (c : Chip) (hgq : Safety.quiet c = q0) :
    Safety.quiet (Chip.loadResident c) = q0 := by
  unfold Chip.loadResident
  try dsimp only
  repeat' first
    | with_reducible assumption
    | with_reducible apply foldl_quiet
    | with_reducible apply foldlM_quiet
    | intro _
    | with_reducible apply Chip.loadRemote_quiet
    | split
    | (dsimp only [Safety.quiet, Rst.record, id])
    | exact hgq

theorem Chip.retryResident_quiet (c : Chip) (hgq : Safety.quiet c = q0) :
    Safety.quiet (Chip.retryResident c) = q0 := by
  unfold Chip.retryResident
  try dsimp only
  repeat' first
    | with_reducible assumption
    | with_reducible apply foldl_quiet
    | with_reducible apply foldlM_quiet
    | intro _
    | with_reducible apply Chip.loadRemote_quiet
    | split
    | (dsimp only [Safety.quiet, Rst.record, id])
    | exact hgq

/-! Needle -/

theorem Chip.dmaTraffic_quiet (c : Chip) (n : Nat) (guar : Bool) (ds : List Dma) (hgq : Safety.quiet c = q0) :
    Safety.quiet (Chip.dmaTraffic c n guar ds) = q0 := by
  unfold Chip.dmaTraffic
  try dsimp only
  repeat' first
    | with_reducible assumption
    | with_reducible apply foldl_quiet
    | with_reducible apply foldlM_quiet
    | intro _
    | with_reducible apply Chip.charge_quiet
    | with_reducible apply Chip.needleRead_quiet
    | split
    | (dsimp only [Safety.quiet, Rst.record, id])
    | exact hgq

theorem Chip.issueHead_quiet (c : Chip) (m : Mem) (n : Nat) (w : TodWait) (hgq : Safety.quiet c = q0) :
    ∀ d, Chip.issueHead c m n w = some d → Safety.quiet d = q0 := by
  intro d hd
  unfold Chip.issueHead at hd
  try dsimp only at hd
  repeat' first
    | with_reducible assumption
    | (split at hd)
    | (simp only [Option.some.injEq, reduceCtorEq] at hd; subst hd; try dsimp only)
    | with_reducible apply foldl_quiet
    | with_reducible apply foldlM_quiet
    | intro _
    | with_reducible apply Chip.updNeedle_quiet
    | with_reducible apply Chip.dmaTraffic_quiet
    | split
    | (dsimp only [Safety.quiet, Rst.record, id])
    | (exact absurd hd (by simp))
    | exact hgq

theorem Chip.passHead_quiet (c : Chip) (n : Nat) (hgq : Safety.quiet c = q0) :
    ∀ d, c.passHead n = some d → Safety.quiet d = q0 := by
  intro d hd
  obtain ⟨w, -, rfl⟩ := Option.map_eq_some_iff.1 hd
  exact Chip.updNeedle_quiet _ _ _ hgq

theorem Chip.startSwap_quiet (c : Chip) (n ctx : Nat) (k : Swap) (hgq : Safety.quiet c = q0) :
    Safety.quiet (Chip.startSwap c n ctx k) = q0 := by
  unfold Chip.startSwap
  try dsimp only
  repeat' first
    | with_reducible assumption
    | with_reducible apply foldl_quiet
    | with_reducible apply foldlM_quiet
    | intro _
    | with_reducible apply Chip.updNeedle_quiet
    | with_reducible apply Chip.updPanel_quiet
    | with_reducible apply Chip.readBlock_quiet
    | split
    | (dsimp only [Safety.quiet, Rst.record, id])
    | exact hgq

theorem Chip.dispatch_quiet (c : Chip) (m : Mem) (n : Nat) (hgq : Safety.quiet c = q0) :
    ∀ d, c.dispatch m n = some d → Safety.quiet d = q0 := by
  intro d hd
  unfold Chip.dispatch at hd
  dsimp only at hd
  repeat' first
    | (cases hd; done)
    | (obtain ⟨w, -, hw⟩ := Option.bind_eq_some_iff.1 hd; exact Chip.issueHead_quiet _ _ _ _ hgq _ hw)
    | (injection hd with hd; subst hd; first | exact Chip.updNeedle_quiet _ _ _ hgq | exact Chip.startSwap_quiet _ _ _ _ hgq)
    | split at hd

theorem Chip.pumpOne_quiet (c : Chip) (m : Mem) (n : Nat) (hgq : Safety.quiet c = q0) :
    ∀ d, c.pumpOne m n = some d → Safety.quiet d = q0 := by
  intro d hd
  unfold Chip.pumpOne at hd
  split at hd
  · injection hd with hd
    subst hd
    exact Chip.passHead_quiet _ _ hgq _ (by assumption)
  · exact Chip.dispatch_quiet _ _ _ hgq _ hd

theorem Chip.pumpN_quiet (m : Mem) (n k : Nat) (c : Chip) (hgq : Safety.quiet c = q0) :
    Safety.quiet (Chip.pumpN m n k c) = q0 := by
  induction k generalizing c with
  | zero => exact hgq
  | succ k ih =>
    unfold Chip.pumpN
    split
    · exact hgq
    · exact ih _ (Chip.pumpOne_quiet _ _ _ hgq _ (by assumption))

theorem Chip.noteWaits_quiet (c : Chip) (n : Nat) (hgq : Safety.quiet c = q0) :
    Safety.quiet (Chip.noteWaits c n) = q0 := by
  unfold Chip.noteWaits
  try dsimp only
  repeat' first
    | with_reducible assumption
    | with_reducible apply foldl_quiet
    | with_reducible apply foldlM_quiet
    | intro _
    | with_reducible apply Chip.updNeedle_quiet
    | split
    | (dsimp only [Safety.quiet, Rst.record, id])
    | exact hgq

theorem Chip.pump_quiet (c : Chip) (m : Mem) (n : Nat) (hgq : Safety.quiet c = q0) :
    Safety.quiet (Chip.pump c m n) = q0 := by
  unfold Chip.pump
  try dsimp only
  repeat' first
    | with_reducible assumption
    | with_reducible apply foldl_quiet
    | with_reducible apply foldlM_quiet
    | intro _
    | with_reducible apply Chip.pumpN_quiet
    | with_reducible apply Chip.noteWaits_quiet
    | split
    | (dsimp only [Safety.quiet, Rst.record, id])
    | exact hgq

theorem Chip.pumpAll_quiet (c : Chip) (m : Mem) (hgq : Safety.quiet c = q0) :
    Safety.quiet (Chip.pumpAll c m) = q0 := by
  unfold Chip.pumpAll
  try dsimp only
  repeat' first
    | with_reducible assumption
    | with_reducible apply foldl_quiet
    | with_reducible apply foldlM_quiet
    | intro _
    | with_reducible apply Chip.pump_quiet
    | split
    | (dsimp only [Safety.quiet, Rst.record, id])
    | exact hgq

theorem Chip.takeTod_quiet (c : Chip) (m : Mem) (op n seq : Nat) (tod : List Byte) (hgq : Safety.quiet c = q0) :
    Safety.quiet (Chip.takeTod c m op n seq tod) = q0 := by
  unfold Chip.takeTod
  try dsimp only
  repeat' first
    | with_reducible assumption
    | with_reducible apply foldl_quiet
    | with_reducible apply foldlM_quiet
    | intro _
    | with_reducible apply Chip.updNeedle_quiet
    | with_reducible apply Chip.pump_quiet
    | split
    | (dsimp only [Safety.quiet, Rst.record, id])
    | exact hgq

theorem abortOps_quiet (n : Nat) (keep : OpRt → Bool) (c : Chip × Mem) (hgq : Safety.quiet c.1 = q0) :
    Safety.quiet (abortOps n keep c).1 = q0 := by
  unfold abortOps
  try dsimp only
  repeat' first
    | with_reducible assumption
    | with_reducible apply foldl_quiet
    | with_reducible apply foldlM_quiet
    | intro _
    | with_reducible apply Chip.updNeedle_quiet
    | with_reducible apply Chip.wrote_quiet
    | split
    | (dsimp only [Safety.quiet, Rst.record, id])
    | exact hgq

theorem frogEntries_quiet (n : Nat) (ctxs : List Nat) (c : Chip × Mem) (hgq : Safety.quiet c.1 = q0) :
    Safety.quiet (frogEntries n ctxs c).1 = q0 := by
  unfold frogEntries
  try dsimp only
  repeat' first
    | with_reducible assumption
    | with_reducible apply foldl_quiet
    | with_reducible apply foldlM_quiet
    | intro _
    | with_reducible apply Chip.updNeedle_quiet
    | split
    | (dsimp only [Safety.quiet, Rst.record, id])
    | exact hgq

theorem Chip.dropChunks_quiet (c : Chip) (n : Nat) (gone : Nat → Bool) (hgq : Safety.quiet c = q0) :
    Safety.quiet (Chip.dropChunks c n gone) = q0 := by
  unfold Chip.dropChunks
  try dsimp only
  repeat' first
    | with_reducible assumption
    | with_reducible apply foldl_quiet
    | with_reducible apply foldlM_quiet
    | intro _
    | split
    | (dsimp only [Safety.quiet, Rst.record, id])
    | exact hgq

theorem frogNeedle_quiet (n : Nat) (ctxs : List Nat) (c : Chip × Mem) (hgq : Safety.quiet c.1 = q0) :
    Safety.quiet (frogNeedle n ctxs c).1 = q0 := by
  unfold frogNeedle
  try dsimp only
  repeat' first
    | with_reducible assumption
    | with_reducible apply foldl_quiet
    | with_reducible apply foldlM_quiet
    | intro _
    | with_reducible apply Chip.updNeedle_quiet
    | with_reducible apply abortOps_quiet
    | with_reducible apply frogEntries_quiet
    | with_reducible apply Chip.dropChunks_quiet
    | split
    | (dsimp only [Safety.quiet, Rst.record, id])
    | exact hgq

theorem frogNeedles_quiet (ctxs : List Nat) (c : Chip × Mem) (hgq : Safety.quiet c.1 = q0) :
    Safety.quiet (frogNeedles ctxs c).1 = q0 := by
  unfold frogNeedles
  try dsimp only
  repeat' first
    | with_reducible assumption
    | with_reducible apply foldl_quiet
    | with_reducible apply foldlM_quiet
    | intro _
    | with_reducible apply frogNeedle_quiet
    | split
    | (dsimp only [Safety.quiet, Rst.record, id])
    | exact hgq

theorem Chip.throttled_quiet (c : Chip) (o : OpRt) (w : Nat) (hgq : Safety.quiet c = q0) :
    Safety.quiet (Chip.throttled c o w) = q0 := by
  unfold Chip.throttled
  try dsimp only
  repeat' first
    | with_reducible assumption
    | with_reducible apply foldl_quiet
    | with_reducible apply foldlM_quiet
    | intro _
    | with_reducible apply Chip.updTicket_quiet
    | split
    | (dsimp only [Safety.quiet, Rst.record, id])
    | exact hgq

theorem completeOp_quiet (n : Nat) (o : OpRt) (e : OpEnd) (stalls withheld corrected : Nat) (c : Chip × Mem) (hgq : Safety.quiet c.1 = q0) :
    Safety.quiet (completeOp n o e stalls withheld corrected c).1 = q0 := by
  unfold completeOp
  try dsimp only
  repeat' first
    | with_reducible assumption
    | with_reducible apply foldl_quiet
    | with_reducible apply foldlM_quiet
    | intro _
    | with_reducible apply Chip.updNeedle_quiet
    | with_reducible apply Chip.signal_quiet
    | with_reducible apply Chip.signalMap_quiet
    | with_reducible apply Chip.wrote_quiet
    | with_reducible apply Chip.throttled_quiet
    | split
    | (dsimp only [Safety.quiet, Rst.record, id])
    | exact hgq

theorem Chip.runRead_quiet (c : Chip) (r : Range) (hgq : Safety.quiet c = q0) :
    Safety.quiet (Chip.runRead c r) = q0 := by
  unfold Chip.runRead
  try dsimp only
  repeat' first
    | with_reducible assumption
    | with_reducible apply foldl_quiet
    | with_reducible apply foldlM_quiet
    | intro _
    | with_reducible apply Chip.hbmUe_quiet
    | split
    | (dsimp only [Safety.quiet, Rst.record, id])
    | exact hgq

theorem Chip.dmaComplete_quiet (c : Chip) (m : Mem) (n id : Nat) (hgq : Safety.quiet c = q0) :
    Safety.quiet (Chip.dmaComplete c m n id) = q0 := by
  unfold Chip.dmaComplete
  try dsimp only
  repeat' first
    | with_reducible assumption
    | with_reducible apply foldl_quiet
    | with_reducible apply foldlM_quiet
    | intro _
    | with_reducible apply Chip.updNeedle_quiet
    | with_reducible apply Chip.dmaTraffic_quiet
    | with_reducible apply Chip.pump_quiet
    | with_reducible apply Chip.runRead_quiet
    | split
    | (dsimp only [Safety.quiet, Rst.record, id])
    | exact hgq

theorem Chip.meetRates_quiet (c : Chip) (hgq : Safety.quiet c = q0) :
    Safety.quiet (Chip.meetRates c) = q0 := by
  unfold Chip.meetRates
  try dsimp only
  repeat' first
    | with_reducible assumption
    | with_reducible apply foldl_quiet
    | with_reducible apply foldlM_quiet
    | intro _
    | split
    | (dsimp only [Safety.quiet, Rst.record, id])
    | exact hgq

/-! Cast -/

theorem Chip.holdMarkers_quiet (c : Chip) (t : Ticket) (id : Nat) (hgq : Safety.quiet c = q0) :
    Safety.quiet (Chip.holdMarkers c t id) = q0 := by
  unfold Chip.holdMarkers
  try dsimp only
  repeat' first
    | with_reducible assumption
    | with_reducible apply foldl_quiet
    | with_reducible apply foldlM_quiet
    | intro _
    | split
    | (dsimp only [Safety.quiet, Rst.record, id])
    | exact hgq

theorem Chip.addAllowance_quiet (c : Chip) (p : Placed) (hgq : Safety.quiet c = q0) :
    Safety.quiet (Chip.addAllowance c p) = q0 := by
  unfold Chip.addAllowance
  try dsimp only
  repeat' first
    | with_reducible assumption
    | with_reducible apply foldl_quiet
    | with_reducible apply foldlM_quiet
    | intro _
    | with_reducible apply Chip.updPanel_quiet
    | split
    | (dsimp only [Safety.quiet, Rst.record, id])
    | exact hgq

theorem Chip.dropAllowance_quiet (c : Chip) (p : Placed) (hgq : Safety.quiet c = q0) :
    Safety.quiet (Chip.dropAllowance c p) = q0 := by
  unfold Chip.dropAllowance
  try dsimp only
  repeat' first
    | with_reducible assumption
    | with_reducible apply foldl_quiet
    | with_reducible apply foldlM_quiet
    | intro _
    | with_reducible apply Chip.updPanel_quiet
    | split
    | (dsimp only [Safety.quiet, Rst.record, id])
    | exact hgq

theorem Chip.openTicket_quiet (c : Chip) (t : Ticket) (id : Nat) (hgq : Safety.quiet c = q0) :
    Safety.quiet (Chip.openTicket c t id) = q0 := by
  unfold Chip.openTicket
  try dsimp only
  repeat' first
    | with_reducible assumption
    | with_reducible apply foldl_quiet
    | with_reducible apply foldlM_quiet
    | intro _
    | with_reducible apply Chip.reportLtr_quiet
    | with_reducible apply Chip.holdMarkers_quiet
    | with_reducible apply Chip.addAllowance_quiet
    | split
    | (dsimp only [Safety.quiet, Rst.record, id])
    | exact hgq

theorem Chip.answered_quiet (c : Chip) (fn reason : Nat) (hgq : Safety.quiet c = q0) :
    Safety.quiet (Chip.answered c fn reason) = q0 := by
  unfold Chip.answered
  try dsimp only
  repeat' first
    | with_reducible assumption
    | with_reducible apply foldl_quiet
    | with_reducible apply foldlM_quiet
    | intro _
    | with_reducible apply Chip.edge_quiet
    | split
    | (dsimp only [Safety.quiet, Rst.record, id])
    | exact hgq

theorem Chip.respWrite_quiet (c : Chip) (fn addr reason : Nat) (b : List Byte) (hgq : Safety.quiet c = q0) :
    Safety.quiet (Chip.respWrite c fn addr reason b) = q0 := by
  unfold Chip.respWrite
  try dsimp only
  repeat' first
    | with_reducible assumption
    | with_reducible apply foldl_quiet
    | with_reducible apply foldlM_quiet
    | intro _
    | with_reducible apply Chip.hostWrite_quiet
    | with_reducible apply Chip.answered_quiet
    | split
    | (dsimp only [Safety.quiet, Rst.record, id])
    | exact hgq

theorem Chip.respondAt_quiet (c : Chip) (fn resp tag module decided : Nat) (v : Verdict) (hgq : Safety.quiet c = q0) :
    Safety.quiet (Chip.respondAt c fn resp tag module decided v) = q0 := by
  unfold Chip.respondAt
  try dsimp only
  repeat' first
    | with_reducible assumption
    | with_reducible apply foldl_quiet
    | with_reducible apply foldlM_quiet
    | intro _
    | with_reducible apply Chip.answered_quiet
    | with_reducible apply Chip.respWrite_quiet
    | split
    | (dsimp only [Safety.quiet, Rst.record, id])
    | exact hgq

theorem Chip.respond_quiet (c : Chip) (fn resp tag module : Nat) (v : Verdict) (hgq : Safety.quiet c = q0) :
    Safety.quiet (Chip.respond c fn resp tag module v) = q0 := by
  unfold Chip.respond
  try dsimp only
  repeat' first
    | with_reducible assumption
    | with_reducible apply foldl_quiet
    | with_reducible apply foldlM_quiet
    | intro _
    | with_reducible apply Chip.respondAt_quiet
    | split
    | (dsimp only [Safety.quiet, Rst.record, id])
    | exact hgq

theorem Chip.respondRefused_quiet (c : Chip) (fn : Nat) (r : Req) (v : Verdict) (hgq : Safety.quiet c = q0) :
    Safety.quiet (Chip.respondRefused c fn r v) = q0 := by
  unfold Chip.respondRefused
  try dsimp only
  repeat' first
    | with_reducible assumption
    | with_reducible apply foldl_quiet
    | with_reducible apply foldlM_quiet
    | intro _
    | with_reducible apply Chip.respond_quiet
    | split
    | (dsimp only [Safety.quiet, Rst.record, id])
    | exact hgq

theorem Chip.castOn_quiet (c : Chip) (fn : Nat) (r : Req) (hgq : Safety.quiet c = q0) :
    Safety.quiet (Chip.castOn c fn r) = q0 := by
  unfold Chip.castOn
  try dsimp only
  repeat' first
    | with_reducible assumption
    | with_reducible apply foldl_quiet
    | with_reducible apply foldlM_quiet
    | intro _
    | with_reducible apply Chip.openTicket_quiet
    | with_reducible apply Chip.respond_quiet
    | with_reducible apply Chip.respondRefused_quiet
    | split
    | (dsimp only [Safety.quiet, Rst.record, id])
    | exact hgq

theorem Chip.castRead_quiet (c : Chip) (fn : Nat) (d : HostRead) (hgq : Safety.quiet c = q0) :
    Safety.quiet (Chip.castRead c fn d) = q0 := by
  unfold Chip.castRead
  try dsimp only
  repeat' first
    | with_reducible assumption
    | with_reducible apply foldl_quiet
    | with_reducible apply foldlM_quiet
    | intro _
    | split
    | (dsimp only [Safety.quiet, Rst.record, id])
    | exact hgq

/-! Reserve -/

theorem Chip.sendAnswer_quiet (c : Chip) (lead g reason : Nat) (hgq : Safety.quiet c = q0) :
    Safety.quiet (Chip.sendAnswer c lead g reason) = q0 := by
  unfold Chip.sendAnswer
  try dsimp only
  repeat' first
    | with_reducible assumption
    | with_reducible apply foldl_quiet
    | with_reducible apply foldlM_quiet
    | intro _
    | split
    | (dsimp only [Safety.quiet, Rst.record, id])
    | exact hgq

theorem Chip.holdPart_quiet (c : Chip) (g : Nat) (hop : Bool) (t : Ticket) (hgq : Safety.quiet c = q0) :
    Safety.quiet (Chip.holdPart c g hop t) = q0 := by
  unfold Chip.holdPart
  try dsimp only
  repeat' first
    | with_reducible assumption
    | with_reducible apply foldl_quiet
    | with_reducible apply foldlM_quiet
    | intro _
    | with_reducible apply Chip.holdMarkers_quiet
    | split
    | (dsimp only [Safety.quiet, Rst.record, id])
    | exact hgq

theorem Chip.gReserve_quiet (c : Chip) (f : RFrame) (hgq : Safety.quiet c = q0) :
    Safety.quiet (Chip.gReserve c f) = q0 := by
  unfold Chip.gReserve
  try dsimp only
  repeat' first
    | with_reducible assumption
    | with_reducible apply foldl_quiet
    | with_reducible apply foldlM_quiet
    | intro _
    | with_reducible apply Chip.sendAnswer_quiet
    | with_reducible apply Chip.holdPart_quiet
    | split
    | (dsimp only [Safety.quiet, Rst.record, id])
    | exact hgq

theorem Chip.serve_quiet (l kept : List Ask) (c : Chip) (hgq : Safety.quiet c = q0) :
    Safety.quiet (Chip.serve l kept c) = q0 := by
  induction l generalizing kept c with
  | nil => exact hgq
  | cons a l ih =>
    cases a with
    | bell k =>
      unfold Chip.serve
      split
      · exact hgq
      · exact ih _ _ hgq
    | peer f => exact ih _ _ (Chip.gReserve_quiet _ _ hgq)

theorem Chip.nextAsk_quiet (c : Chip) (hgq : Safety.quiet c = q0) :
    Safety.quiet (Chip.nextAsk c) = q0 := by
  unfold Chip.nextAsk
  try dsimp only
  repeat' first
    | with_reducible assumption
    | with_reducible apply foldl_quiet
    | with_reducible apply foldlM_quiet
    | intro _
    | with_reducible apply Chip.serve_quiet
    | split
    | (dsimp only [Safety.quiet, Rst.record, id])
    | exact hgq

theorem Chip.reserveAsk_quiet (c : Chip) (f : RFrame) (hgq : Safety.quiet c = q0) :
    Safety.quiet (Chip.reserveAsk c f) = q0 := by
  unfold Chip.reserveAsk
  try dsimp only
  repeat' first
    | with_reducible assumption
    | with_reducible apply foldl_quiet
    | with_reducible apply foldlM_quiet
    | intro _
    | with_reducible apply Chip.nextAsk_quiet
    | split
    | (dsimp only [Safety.quiet, Rst.record, id])
    | exact hgq

theorem Chip.request_quiet (c : Chip) (fn : Nat) (d : HostRead) (f : Chip → Req → Chip) (hf : ∀ d k, Safety.quiet d = q0 → Safety.quiet (f d k) = q0) (hgq : Safety.quiet c = q0) :
    Safety.quiet (Chip.request c fn d f) = q0 := by
  unfold Chip.request
  try dsimp only
  repeat' first
    | with_reducible assumption
    | with_reducible apply foldl_quiet
    | with_reducible apply foldlM_quiet
    | intro _
    | with_reducible apply Chip.castRead_quiet
    | with_reducible apply Chip.nextAsk_quiet
    | with_reducible apply hf
    | split
    | (dsimp only [Safety.quiet, Rst.record, id])
    | exact hgq

theorem requestM_quiet (fn : Nat) (d : HostRead) (f : Req → Chip × Mem → Chip × Mem) (c : Chip × Mem) (hf : ∀ k d, Safety.quiet d.1 = q0 → Safety.quiet (f k d).1 = q0) (hgq : Safety.quiet c.1 = q0) :
    Safety.quiet (requestM fn d f c).1 = q0 := by
  unfold requestM
  try dsimp only
  repeat' first
    | with_reducible assumption
    | with_reducible apply foldl_quiet
    | with_reducible apply foldlM_quiet
    | intro _
    | with_reducible apply Chip.castRead_quiet
    | with_reducible apply Chip.nextAsk_quiet
    | with_reducible apply hf
    | split
    | (dsimp only [Safety.quiet, Rst.record, id])
    | exact hgq

/-! Stream -/

theorem Chip.giveBack_quiet (c : Chip) (t : Ticket) (n : Nat) (hgq : Safety.quiet c = q0) :
    Safety.quiet (Chip.giveBack c t n) = q0 := by
  unfold Chip.giveBack
  try dsimp only
  repeat' first
    | with_reducible assumption
    | with_reducible apply foldl_quiet
    | with_reducible apply foldlM_quiet
    | intro _
    | split
    | (dsimp only [Safety.quiet, Rst.record, id])
    | exact hgq

theorem Chip.reTicket_quiet (c : Chip) (t u : Ticket) (hgq : Safety.quiet c = q0) :
    Safety.quiet (Chip.reTicket c t u) = q0 := by
  unfold Chip.reTicket
  try dsimp only
  repeat' first
    | with_reducible assumption
    | with_reducible apply foldl_quiet
    | with_reducible apply foldlM_quiet
    | intro _
    | with_reducible apply Chip.updTicket_quiet
    | with_reducible apply Chip.giveBack_quiet
    | split
    | (dsimp only [Safety.quiet, Rst.record, id])
    | exact hgq

theorem Chip.arriveUnit_quiet (c : Chip) (t : Ticket) (ps : List UnitPart) (pts : Nat) (key : Bool) (p : PicInfo) (hgq : Safety.quiet c = q0) :
    Safety.quiet (Chip.arriveUnit c t ps pts key p) = q0 := by
  unfold Chip.arriveUnit
  try dsimp only
  repeat' first
    | with_reducible assumption
    | with_reducible apply foldl_quiet
    | with_reducible apply foldlM_quiet
    | intro _
    | with_reducible apply Chip.updTicket_quiet
    | with_reducible apply Chip.accept_quiet
    | with_reducible apply Chip.giveBack_quiet
    | split
    | (dsimp only [Safety.quiet, Rst.record, id])
    | exact hgq

theorem Chip.freeHanks_quiet (c : Chip) (t : Ticket) (hs : List Nat) (hgq : Safety.quiet c = q0) :
    Safety.quiet (Chip.freeHanks c t hs) = q0 := by
  unfold Chip.freeHanks
  try dsimp only
  repeat' first
    | with_reducible assumption
    | with_reducible apply foldl_quiet
    | with_reducible apply foldlM_quiet
    | intro _
    | split
    | (dsimp only [Safety.quiet, Rst.record, id])
    | exact hgq

theorem Chip.uncode_quiet (c : Chip) (t : Ticket) (hgq : Safety.quiet c = q0) :
    Safety.quiet (Chip.uncode c t) = q0 := by
  unfold Chip.uncode
  try dsimp only
  repeat' first
    | with_reducible assumption
    | with_reducible apply foldl_quiet
    | with_reducible apply foldlM_quiet
    | intro _
    | split
    | (dsimp only [Safety.quiet, Rst.record, id])
    | exact hgq

theorem Chip.voidFrame_quiet (c : Chip) (t : Ticket) (f : FrameRt) (stage reason : Nat) (shed : Bool) (hgq : Safety.quiet c = q0) :
    Safety.quiet (Chip.voidFrame c t f stage reason shed) = q0 := by
  unfold Chip.voidFrame
  try dsimp only
  repeat' first
    | with_reducible assumption
    | with_reducible apply foldl_quiet
    | with_reducible apply foldlM_quiet
    | intro _
    | with_reducible apply Chip.updTicket_quiet
    | with_reducible apply Chip.giveBack_quiet
    | with_reducible apply Chip.uncode_quiet
    | split
    | (dsimp only [Safety.quiet, Rst.record, id])
    | exact hgq

theorem Chip.passOne_quiet (c : Chip) (t : Ticket) (hgq : Safety.quiet c = q0) :
    ∀ d, c.passOne t = some d → Safety.quiet d = q0 := by
  intro d hd
  obtain ⟨p, -, hp⟩ := List.exists_of_findSome?_eq_some hd
  split at hp
  · split at hp
    · injection hp with hp
      subst hp
      exact Chip.signalMap_quiet _ _ _ _ _ hgq
    · cases hp
  · cases hp

/-! Output -/

theorem Chip.countCqWait_quiet (c : Chip) (t : Ticket) (hgq : Safety.quiet c = q0) :
    Safety.quiet (Chip.countCqWait c t) = q0 := by
  unfold Chip.countCqWait
  try dsimp only
  repeat' first
    | with_reducible assumption
    | with_reducible apply foldl_quiet
    | with_reducible apply foldlM_quiet
    | intro _
    | with_reducible apply Chip.updTicket_quiet
    | split
    | (dsimp only [Safety.quiet, Rst.record, id])
    | exact hgq

theorem Chip.cqCommit_quiet (c : Chip) (t : Ticket) (r : CqRec) (hgq : Safety.quiet c = q0) :
    Safety.quiet (Chip.cqCommit c t r) = q0 := by
  unfold Chip.cqCommit
  try dsimp only
  repeat' first
    | with_reducible assumption
    | with_reducible apply foldl_quiet
    | with_reducible apply foldlM_quiet
    | intro _
    | with_reducible apply Chip.cqPut_quiet
    | with_reducible apply Chip.cqWrite_quiet
    | split
    | (dsimp only [Safety.quiet, Rst.record, id])
    | exact hgq

theorem commitHost_quiet (t : Ticket) (kind : Nat) (payload : List Byte) (bytes source pts : Nat) (due : Option Nat) (c : Chip × Mem) (hgq : Safety.quiet c.1 = q0) :
    Safety.quiet (commitHost t kind payload bytes source pts due c).1 = q0 := by
  unfold commitHost
  try dsimp only
  repeat' first
    | with_reducible assumption
    | with_reducible apply foldl_quiet
    | with_reducible apply foldlM_quiet
    | intro _
    | with_reducible apply Chip.wrote_quiet
    | with_reducible apply Chip.cqCommit_quiet
    | split
    | (dsimp only [Safety.quiet, Rst.record, id])
    | exact hgq

theorem commitRound_quiet (t : Ticket) (dest arg : Nat) (video recs : List Byte) (out : Sent) (c : Chip × Mem) (hgq : Safety.quiet c.1 = q0) :
    Safety.quiet (commitRound t dest arg video recs out c).1 = q0 := by
  unfold commitRound
  try dsimp only
  repeat' first
    | with_reducible assumption
    | with_reducible apply foldl_quiet
    | with_reducible apply foldlM_quiet
    | intro _
    | with_reducible apply Chip.wrote_quiet
    | split
    | (dsimp only [Safety.quiet, Rst.record, id])
    | exact hgq

theorem commitUnit_quiet (t : Ticket) (kind : Nat) (payload : List Byte) (bytes source pts : Nat) (due : Option Nat) (c : Chip × Mem) (hgq : Safety.quiet c.1 = q0) :
    ∀ d, commitUnit t kind payload bytes source pts due c = some d → Safety.quiet d.1 = q0 := by
  intro d hd
  unfold commitUnit at hd
  try dsimp only at hd
  repeat' first
    | with_reducible assumption
    | (split at hd)
    | (simp only [Option.some.injEq, reduceCtorEq] at hd; subst hd; try dsimp only)
    | with_reducible apply foldl_quiet
    | with_reducible apply foldlM_quiet
    | intro _
    | with_reducible apply commitHost_quiet
    | split
    | (dsimp only [Safety.quiet, Rst.record, id])
    | (exact absurd hd (by simp))
    | exact hgq

theorem sendUnit_quiet (t : Ticket) (dest arg : Nat) (video recs : List Byte) (out : Sent) (c : Chip × Mem) (hgq : Safety.quiet c.1 = q0) :
    ∀ d, sendUnit t dest arg video recs out c = some d → Safety.quiet d.1 = q0 := by
  intro d hd
  unfold sendUnit at hd
  try dsimp only at hd
  repeat' first
    | with_reducible assumption
    | (split at hd)
    | (simp only [Option.some.injEq, reduceCtorEq] at hd; subst hd; try dsimp only)
    | with_reducible apply foldl_quiet
    | with_reducible apply foldlM_quiet
    | intro _
    | with_reducible apply commitRound_quiet
    | split
    | (dsimp only [Safety.quiet, Rst.record, id])
    | (exact absurd hd (by simp))
    | exact hgq

theorem Chip.headDone_quiet (c : Chip) (t : Ticket) (n : Nat) (skip : Bool) (hgq : Safety.quiet c = q0) :
    Safety.quiet (Chip.headDone c t n skip) = q0 := by
  unfold Chip.headDone
  try dsimp only
  repeat' first
    | with_reducible assumption
    | with_reducible apply foldl_quiet
    | with_reducible apply foldlM_quiet
    | intro _
    | with_reducible apply Chip.updTicket_quiet
    | with_reducible apply Chip.giveBack_quiet
    | split
    | (dsimp only [Safety.quiet, Rst.record, id])
    | exact hgq

theorem Chip.recsDone_quiet (c : Chip) (t : Ticket) (hgq : Safety.quiet c = q0) :
    Safety.quiet (Chip.recsDone c t) = q0 := by
  unfold Chip.recsDone
  try dsimp only
  repeat' first
    | with_reducible assumption
    | with_reducible apply foldl_quiet
    | with_reducible apply foldlM_quiet
    | intro _
    | with_reducible apply Chip.updTicket_quiet
    | split
    | (dsimp only [Safety.quiet, Rst.record, id])
    | exact hgq

theorem Chip.skipDone_quiet (c : Chip) (t : Ticket) (hgq : Safety.quiet c = q0) :
    Safety.quiet (Chip.skipDone c t) = q0 := by
  unfold Chip.skipDone
  try dsimp only
  repeat' first
    | with_reducible assumption
    | with_reducible apply foldl_quiet
    | with_reducible apply foldlM_quiet
    | intro _
    | with_reducible apply Chip.updTicket_quiet
    | with_reducible apply Chip.freeHanks_quiet
    | split
    | (dsimp only [Safety.quiet, Rst.record, id])
    | exact hgq

theorem Chip.sentDone_quiet (c : Chip) (s : Sent) (hgq : Safety.quiet c = q0) :
    Safety.quiet (Chip.sentDone c s) = q0 := by
  unfold Chip.sentDone
  try dsimp only
  repeat' first
    | with_reducible assumption
    | with_reducible apply foldl_quiet
    | with_reducible apply foldlM_quiet
    | intro _
    | with_reducible apply Chip.updTicket_quiet
    | with_reducible apply Chip.headDone_quiet
    | with_reducible apply Chip.recsDone_quiet
    | with_reducible apply Chip.skipDone_quiet
    | split
    | (dsimp only [Safety.quiet, Rst.record, id])
    | exact hgq

theorem commitHead_quiet (t : Ticket) (c : Chip × Mem) (hgq : Safety.quiet c.1 = q0) :
    ∀ d, commitHead t c = some d → Safety.quiet d.1 = q0 := by
  intro d hd
  unfold commitHead at hd
  dsimp only at hd
  repeat' first
    | (cases hd; done)
    | (obtain ⟨e, he, rfl⟩ := Option.map_eq_some_iff.1 hd
       first
        | exact sendUnit_quiet _ _ _ _ _ _ _ hgq e he
        | exact Chip.headDone_quiet _ _ _ _ (commitUnit_quiet _ _ _ _ _ _ _ _ hgq e he))
    | split at hd

theorem commitRecs_quiet (t : Ticket) (c : Chip × Mem) (hgq : Safety.quiet c.1 = q0) :
    ∀ d, commitRecs t c = some d → Safety.quiet d.1 = q0 := by
  intro d hd
  unfold commitRecs at hd
  dsimp only at hd
  repeat' first
    | (cases hd; done)
    | (obtain ⟨e, he, rfl⟩ := Option.map_eq_some_iff.1 hd
       first
        | exact sendUnit_quiet _ _ _ _ _ _ _ hgq e he
        | exact Chip.recsDone_quiet _ _ (commitUnit_quiet _ _ _ _ _ _ _ _ hgq e he))
    | split at hd

theorem commitSkip_quiet (t : Ticket) (c : Chip × Mem) (hgq : Safety.quiet c.1 = q0) :
    ∀ d, commitSkip t c = some d → Safety.quiet d.1 = q0 := by
  intro d hd
  unfold commitSkip at hd
  dsimp only at hd
  repeat' first
    | (cases hd; done)
    | (obtain ⟨e, he, rfl⟩ := Option.map_eq_some_iff.1 hd
       first
        | exact sendUnit_quiet _ _ _ _ _ _ _ hgq e he
        | exact Chip.skipDone_quiet _ _ (commitUnit_quiet _ _ _ _ _ _ _ _ hgq e he))
    | split at hd

theorem flush_quiet (ticket k : Nat) (c : Chip × Mem) (hgq : Safety.quiet c.1 = q0) :
    Safety.quiet (flush ticket k c).1 = q0 := by
  induction k generalizing c with
  | zero => exact hgq
  | succ k ih =>
    unfold flush
    split
    · exact hgq
    · split
      · exact ih _ (commitRecs_quiet _ _ hgq _ (by assumption))
      · split
        · exact ih _ (commitHead_quiet _ _ hgq _ (by assumption))
        · split
          · exact hgq
          · exact Chip.countCqWait_quiet _ _ hgq

theorem Chip.clearParts_quiet (c : Chip) (t : Ticket) (hgq : Safety.quiet c = q0) :
    Safety.quiet (Chip.clearParts c t) = q0 := by
  unfold Chip.clearParts
  try dsimp only
  repeat' first
    | with_reducible assumption
    | with_reducible apply foldl_quiet
    | with_reducible apply foldlM_quiet
    | intro _
    | split
    | (dsimp only [Safety.quiet, Rst.record, id])
    | exact hgq

theorem Chip.reap_quiet (c : Chip) (ticket : Nat) (hgq : Safety.quiet c = q0) :
    Safety.quiet (Chip.reap c ticket) = q0 := by
  unfold Chip.reap
  try dsimp only
  repeat' first
    | with_reducible assumption
    | with_reducible apply foldl_quiet
    | with_reducible apply foldlM_quiet
    | intro _
    | with_reducible apply Chip.updTicket_quiet
    | with_reducible apply Chip.freeHanks_quiet
    | with_reducible apply Chip.clearParts_quiet
    | split
    | (dsimp only [Safety.quiet, Rst.record, id])
    | exact hgq

/-! Adapt -/

theorem Chip.startSample_quiet (c : Chip) (m : Mem) (ticket : Nat) (hgq : Safety.quiet c = q0) :
    Safety.quiet (Chip.startSample c m ticket) = q0 := by
  unfold Chip.startSample
  try dsimp only
  repeat' first
    | with_reducible assumption
    | with_reducible apply foldl_quiet
    | with_reducible apply foldlM_quiet
    | intro _
    | with_reducible apply Chip.updTicket_quiet
    | split
    | (dsimp only [Safety.quiet, Rst.record, id])
    | exact hgq

theorem Chip.cacheSample_quiet (c : Chip) (t : Ticket) (cap : Nat) (s : Sample) (hs : List Nat) (hgq : Safety.quiet c = q0) :
    Safety.quiet (Chip.cacheSample c t cap s hs) = q0 := by
  unfold Chip.cacheSample
  try dsimp only
  repeat' first
    | with_reducible assumption
    | with_reducible apply foldl_quiet
    | with_reducible apply foldlM_quiet
    | intro _
    | with_reducible apply Chip.updTicket_quiet
    | with_reducible apply Chip.freeHanks_quiet
    | split
    | (dsimp only [Safety.quiet, Rst.record, id])
    | exact hgq

theorem Chip.copyHanks_quiet (c : Chip) (t : Ticket) (hgq : Safety.quiet c = q0) :
    Safety.quiet (Chip.copyHanks c t) = q0 := by
  unfold Chip.copyHanks
  try dsimp only
  repeat' first
    | with_reducible assumption
    | with_reducible apply foldl_quiet
    | with_reducible apply foldlM_quiet
    | intro _
    | with_reducible apply Chip.updTicket_quiet
    | split
    | (dsimp only [Safety.quiet, Rst.record, id])
    | exact hgq

theorem writeCopies_quiet (ticket : Nat) (c : Chip × Mem) (hgq : Safety.quiet c.1 = q0) :
    Safety.quiet (writeCopies ticket c).1 = q0 := by
  unfold writeCopies
  try dsimp only
  repeat' first
    | with_reducible assumption
    | with_reducible apply foldl_quiet
    | with_reducible apply foldlM_quiet
    | intro _
    | with_reducible apply Chip.wrote_quiet
    | with_reducible apply Chip.copyHanks_quiet
    | split
    | (dsimp only [Safety.quiet, Rst.record, id])
    | exact hgq

theorem optimiser_quiet (ticket loss : Nat) (finite : Bool) (master : List (List Word)) (c : Chip × Mem) (hgq : Safety.quiet c.1 = q0) :
    Safety.quiet (optimiser ticket loss finite master c).1 = q0 := by
  unfold optimiser
  try dsimp only
  repeat' first
    | with_reducible assumption
    | with_reducible apply foldl_quiet
    | with_reducible apply foldlM_quiet
    | intro _
    | with_reducible apply Chip.reTicket_quiet
    | with_reducible apply writeCopies_quiet
    | split
    | (dsimp only [Safety.quiet, Rst.record, id])
    | exact hgq

/-! Track -/

theorem Chip.associated_quiet (c : Chip) (ticket source : Nat) (cands : List Candidate) (hgq : Safety.quiet c = q0) :
    Safety.quiet (Chip.associated c ticket source cands) = q0 := by
  unfold Chip.associated
  try dsimp only
  repeat' first
    | with_reducible assumption
    | with_reducible apply foldl_quiet
    | with_reducible apply foldlM_quiet
    | intro _
    | with_reducible apply Chip.reTicket_quiet
    | split
    | (dsimp only [Safety.quiet, Rst.record, id])
    | exact hgq

/-! Venc -/

theorem Chip.startLane_quiet (c : Chip) (core : Nat) (j : Job) (hgq : Safety.quiet c = q0) :
    Safety.quiet (Chip.startLane c core j) = q0 := by
  unfold Chip.startLane
  try dsimp only
  repeat' first
    | with_reducible assumption
    | with_reducible apply foldl_quiet
    | with_reducible apply foldlM_quiet
    | intro _
    | split
    | (dsimp only [Safety.quiet, Rst.record, id])
    | exact hgq

theorem Chip.placeLanes_quiet (c : Chip) (p : Nat) (js : List Job) (hgq : Safety.quiet c = q0) :
    Safety.quiet (Chip.placeLanes c p js) = q0 := by
  unfold Chip.placeLanes
  try dsimp only
  repeat' first
    | with_reducible assumption
    | with_reducible apply foldl_quiet
    | with_reducible apply foldlM_quiet
    | intro _
    | with_reducible apply Chip.startLane_quiet
    | split
    | (dsimp only [Safety.quiet, Rst.record, id])
    | exact hgq

theorem Chip.laneStart_quiet (c : Chip) (core : Nat) (hgq : Safety.quiet c = q0) :
    Safety.quiet (Chip.laneStart c core) = q0 := by
  unfold Chip.laneStart
  try dsimp only
  repeat' first
    | with_reducible assumption
    | with_reducible apply foldl_quiet
    | with_reducible apply foldlM_quiet
    | intro _
    | with_reducible apply Chip.startLane_quiet
    | split
    | (dsimp only [Safety.quiet, Rst.record, id])
    | exact hgq

theorem Chip.encSegment_quiet (c : Chip) (core : Nat) (hgq : Safety.quiet c = q0) :
    Safety.quiet (Chip.encSegment c core) = q0 := by
  unfold Chip.encSegment
  try dsimp only
  repeat' first
    | with_reducible assumption
    | with_reducible apply foldl_quiet
    | with_reducible apply foldlM_quiet
    | intro _
    | with_reducible apply Chip.startLane_quiet
    | split
    | (dsimp only [Safety.quiet, Rst.record, id])
    | exact hgq

theorem Chip.encodeOut_quiet (c : Chip) (t : Ticket) (sd : StreamDef) (p : Placed) (o : Out) (hgq : Safety.quiet c = q0) :
    Safety.quiet (Chip.encodeOut c t sd p o) = q0 := by
  unfold Chip.encodeOut
  try dsimp only
  repeat' first
    | with_reducible assumption
    | with_reducible apply foldl_quiet
    | with_reducible apply foldlM_quiet
    | intro _
    | with_reducible apply Chip.updTicket_quiet
    | with_reducible apply Chip.placeLanes_quiet
    | split
    | (dsimp only [Safety.quiet, Rst.record, id])
    | exact hgq

theorem Chip.encodeNext_quiet (c : Chip) (ticket : Nat) (hgq : Safety.quiet c = q0) :
    Safety.quiet (Chip.encodeNext c ticket) = q0 := by
  unfold Chip.encodeNext
  try dsimp only
  repeat' first
    | with_reducible assumption
    | with_reducible apply foldl_quiet
    | with_reducible apply foldlM_quiet
    | intro _
    | with_reducible apply Chip.updTicket_quiet
    | with_reducible apply Chip.encodeOut_quiet
    | split
    | (dsimp only [Safety.quiet, Rst.record, id])
    | exact hgq

theorem Chip.encodeFault_quiet (c : Chip) (core : Nat) (t : Ticket) (j : Job) (hgq : Safety.quiet c = q0) :
    Safety.quiet (Chip.encodeFault c core t j) = q0 := by
  unfold Chip.encodeFault
  try dsimp only
  repeat' first
    | with_reducible assumption
    | with_reducible apply foldl_quiet
    | with_reducible apply foldlM_quiet
    | intro _
    | with_reducible apply Chip.updTicket_quiet
    | with_reducible apply Chip.incident_quiet
    | with_reducible apply Chip.hbmUe_quiet
    | split
    | (dsimp only [Safety.quiet, Rst.record, id])
    | exact hgq

theorem encoded_quiet (t : Ticket) (sd : StreamDef) (o : Out) (c : Chip × Mem) (hgq : Safety.quiet c.1 = q0) :
    Safety.quiet (encoded t sd o c).1 = q0 := by
  unfold encoded
  try dsimp only
  repeat' first
    | with_reducible assumption
    | with_reducible apply foldl_quiet
    | with_reducible apply foldlM_quiet
    | intro _
    | with_reducible apply Chip.updTicket_quiet
    | with_reducible apply Chip.wrote_quiet
    | split
    | (dsimp only [Safety.quiet, Rst.record, id])
    | exact hgq

theorem Chip.dropLanes_quiet (c : Chip) (j : Job) (hgq : Safety.quiet c = q0) :
    Safety.quiet (Chip.dropLanes c j) = q0 := by
  unfold Chip.dropLanes
  try dsimp only
  repeat' first
    | with_reducible assumption
    | with_reducible apply foldl_quiet
    | with_reducible apply foldlM_quiet
    | intro _
    | split
    | (dsimp only [Safety.quiet, Rst.record, id])
    | exact hgq

theorem Chip.encTraffic_quiet (c : Chip) (core : Nat) (t : Ticket) (sd : StreamDef) (j : Job) (hgq : Safety.quiet c = q0) :
    Safety.quiet (Chip.encTraffic c core t sd j) = q0 := by
  unfold Chip.encTraffic
  try dsimp only
  repeat' first
    | with_reducible assumption
    | with_reducible apply foldl_quiet
    | with_reducible apply foldlM_quiet
    | intro _
    | with_reducible apply Chip.charge_quiet
    | split
    | (dsimp only [Safety.quiet, Rst.record, id])
    | exact hgq

theorem Chip.encodeFree_quiet (c : Chip) (core : Nat) (j : Job) (hgq : Safety.quiet c = q0) :
    Safety.quiet (Chip.encodeFree c core j) = q0 := by
  unfold Chip.encodeFree
  try dsimp only
  repeat' first
    | with_reducible assumption
    | with_reducible apply foldl_quiet
    | with_reducible apply foldlM_quiet
    | intro _
    | split
    | (dsimp only [Safety.quiet, Rst.record, id])
    | exact hgq

theorem codedEnd_quiet (core : Nat) (t : Ticket) (sd : StreamDef) (j : Job) (poisoned : Bool) (c : Chip × Mem) (hgq : Safety.quiet c.1 = q0) :
    Safety.quiet (codedEnd core t sd j poisoned c).1 = q0 := by
  unfold codedEnd
  try dsimp only
  repeat' first
    | with_reducible assumption
    | with_reducible apply foldl_quiet
    | with_reducible apply foldlM_quiet
    | intro _
    | with_reducible apply Chip.encodeFault_quiet
    | with_reducible apply encoded_quiet
    | with_reducible apply Chip.dropLanes_quiet
    | split
    | (dsimp only [Safety.quiet, Rst.record, id])
    | exact hgq

theorem encodeComplete_quiet (core : Nat) (poisoned : Bool) (c : Chip × Mem) (hgq : Safety.quiet c.1 = q0) :
    Safety.quiet (encodeComplete core poisoned c).1 = q0 := by
  unfold encodeComplete
  try dsimp only
  repeat' first
    | with_reducible assumption
    | with_reducible apply foldl_quiet
    | with_reducible apply foldlM_quiet
    | intro _
    | with_reducible apply Chip.encTraffic_quiet
    | with_reducible apply Chip.encodeFree_quiet
    | with_reducible apply codedEnd_quiet
    | split
    | (dsimp only [Safety.quiet, Rst.record, id])
    | exact hgq

/-! Vdec -/

theorem Chip.startDec_quiet (c : Chip) (core : Nat) (j : Job) (hgq : Safety.quiet c = q0) :
    Safety.quiet (Chip.startDec c core j) = q0 := by
  unfold Chip.startDec
  try dsimp only
  repeat' first
    | with_reducible assumption
    | with_reducible apply foldl_quiet
    | with_reducible apply foldlM_quiet
    | intro _
    | split
    | (dsimp only [Safety.quiet, Rst.record, id])
    | exact hgq

theorem Chip.fillDec_quiet (c : Chip) (core : Nat) (hgq : Safety.quiet c = q0) :
    Safety.quiet (Chip.fillDec c core) = q0 := by
  unfold Chip.fillDec
  try dsimp only
  repeat' first
    | with_reducible assumption
    | with_reducible apply foldl_quiet
    | with_reducible apply foldlM_quiet
    | intro _
    | with_reducible apply Chip.startDec_quiet
    | split
    | (dsimp only [Safety.quiet, Rst.record, id])
    | exact hgq

theorem Chip.fillPanel_quiet (c : Chip) (p : Nat) (hgq : Safety.quiet c = q0) :
    Safety.quiet (Chip.fillPanel c p) = q0 := by
  unfold Chip.fillPanel
  try dsimp only
  repeat' first
    | with_reducible assumption
    | with_reducible apply foldl_quiet
    | with_reducible apply foldlM_quiet
    | intro _
    | with_reducible apply Chip.fillDec_quiet
    | split
    | (dsimp only [Safety.quiet, Rst.record, id])
    | exact hgq

theorem Chip.decSegment_quiet (c : Chip) (core : Nat) (hgq : Safety.quiet c = q0) :
    Safety.quiet (Chip.decSegment c core) = q0 := by
  unfold Chip.decSegment
  try dsimp only
  repeat' first
    | with_reducible assumption
    | with_reducible apply foldl_quiet
    | with_reducible apply foldlM_quiet
    | intro _
    | with_reducible apply Chip.startDec_quiet
    | with_reducible apply Chip.fillDec_quiet
    | split
    | (dsimp only [Safety.quiet, Rst.record, id])
    | exact hgq

theorem Chip.handOn_quiet (c : Chip) (t : Ticket) (hgq : Safety.quiet c = q0) :
    Safety.quiet (Chip.handOn c t) = q0 := by
  unfold Chip.handOn
  try dsimp only
  repeat' first
    | with_reducible assumption
    | with_reducible apply foldl_quiet
    | with_reducible apply foldlM_quiet
    | intro _
    | with_reducible apply Chip.updTicket_quiet
    | with_reducible apply Chip.signalMap_quiet
    | split
    | (dsimp only [Safety.quiet, Rst.record, id])
    | exact hgq

theorem Chip.decodeNext_quiet (c : Chip) (ticket : Nat) (hgq : Safety.quiet c = q0) :
    Safety.quiet (Chip.decodeNext c ticket) = q0 := by
  unfold Chip.decodeNext
  try dsimp only
  repeat' first
    | with_reducible assumption
    | with_reducible apply foldl_quiet
    | with_reducible apply foldlM_quiet
    | intro _
    | with_reducible apply Chip.updTicket_quiet
    | with_reducible apply Chip.fillPanel_quiet
    | with_reducible apply Chip.handOn_quiet
    | split
    | (dsimp only [Safety.quiet, Rst.record, id])
    | exact hgq

theorem Chip.decodeSample_quiet (c : Chip) (t : Ticket) (s : Sample) (hgq : Safety.quiet c = q0) :
    Safety.quiet (Chip.decodeSample c t s) = q0 := by
  unfold Chip.decodeSample
  try dsimp only
  repeat' first
    | with_reducible assumption
    | with_reducible apply foldl_quiet
    | with_reducible apply foldlM_quiet
    | intro _
    | with_reducible apply Chip.fillPanel_quiet
    | split
    | (dsimp only [Safety.quiet, Rst.record, id])
    | exact hgq

theorem writeFields_quiet (t : Ticket) (sd : StreamDef) (p : Placed) (f : FrameRt) (r : Decoded) (c : Chip × Mem) (hgq : Safety.quiet c.1 = q0) :
    Safety.quiet (writeFields t sd p f r c).1 = q0 := by
  unfold writeFields
  try dsimp only
  repeat' first
    | with_reducible assumption
    | with_reducible apply foldl_quiet
    | with_reducible apply foldlM_quiet
    | intro _
    | with_reducible apply Chip.panelWrite_quiet
    | split
    | (dsimp only [Safety.quiet, Rst.record, id])
    | exact hgq

theorem Chip.hold_quiet (c : Chip) (t : Ticket) (ctx n : Nat) (hgq : Safety.quiet c = q0) :
    Safety.quiet (c.hold t ctx n).1 = q0 := by
  unfold Chip.hold
  split <;> exact hgq

theorem finishPicture_quiet (t : Ticket) (sd : StreamDef) (p : Placed) (f : FrameRt) (c : Chip × Mem) (hgq : Safety.quiet c.1 = q0) :
    ∀ d, finishPicture t sd p f c = some d → Safety.quiet d.1 = q0 := by
  intro d hd
  unfold finishPicture at hd
  try dsimp only at hd
  repeat' first
    | with_reducible assumption
    | (split at hd)
    | (simp only [Option.some.injEq, reduceCtorEq] at hd; subst hd; try dsimp only)
    | with_reducible apply foldl_quiet
    | with_reducible apply foldlM_quiet
    | intro _
    | with_reducible apply Chip.updTicket_quiet
    | with_reducible apply Chip.signalMap_quiet
    | with_reducible apply Chip.wrote_quiet
    | with_reducible apply Chip.hbmRead_quiet
    | with_reducible apply Chip.freeHanks_quiet
    | with_reducible apply writeFields_quiet
    | with_reducible apply Chip.hold_quiet
    | split
    | (dsimp only [Safety.quiet, Rst.record, id])
    | (exact absurd hd (by simp))
    | exact hgq

theorem Chip.pictureFault_quiet (c : Chip) (core : Nat) (t : Ticket) (p : Placed) (f : FrameRt) (hgq : Safety.quiet c = q0) :
    Safety.quiet (Chip.pictureFault c core t p f) = q0 := by
  unfold Chip.pictureFault
  try dsimp only
  repeat' first
    | with_reducible assumption
    | with_reducible apply foldl_quiet
    | with_reducible apply foldlM_quiet
    | intro _
    | with_reducible apply Chip.updTicket_quiet
    | with_reducible apply Chip.incident_quiet
    | with_reducible apply Chip.hbmUe_quiet
    | with_reducible apply Chip.freeHanks_quiet
    | with_reducible apply Chip.voidFrame_quiet
    | split
    | (dsimp only [Safety.quiet, Rst.record, id])
    | exact hgq

theorem finishSample_quiet (t : Ticket) (sd : StreamDef) (s : Sample) (c : Chip × Mem) (hgq : Safety.quiet c.1 = q0) :
    ∀ d, finishSample t sd s c = some d → Safety.quiet d.1 = q0 := by
  intro d hd
  unfold finishSample at hd
  try dsimp only at hd
  repeat' first
    | with_reducible assumption
    | (split at hd)
    | (simp only [Option.some.injEq, reduceCtorEq] at hd; subst hd; try dsimp only)
    | with_reducible apply foldl_quiet
    | with_reducible apply foldlM_quiet
    | intro _
    | with_reducible apply Chip.wrote_quiet
    | with_reducible apply Chip.startSample_quiet
    | with_reducible apply Chip.cacheSample_quiet
    | split
    | (dsimp only [Safety.quiet, Rst.record, id])
    | (exact absurd hd (by simp))
    | exact hgq

theorem Chip.decodeFree_quiet (c : Chip) (core : Nat) (j : Job) (hgq : Safety.quiet c = q0) :
    Safety.quiet (Chip.decodeFree c core j) = q0 := by
  unfold Chip.decodeFree
  try dsimp only
  repeat' first
    | with_reducible assumption
    | with_reducible apply foldl_quiet
    | with_reducible apply foldlM_quiet
    | intro _
    | with_reducible apply Chip.fillDec_quiet
    | split
    | (dsimp only [Safety.quiet, Rst.record, id])
    | exact hgq

theorem Chip.decTraffic_quiet (c : Chip) (core : Nat) (j : Job) (hgq : Safety.quiet c = q0) :
    Safety.quiet (Chip.decTraffic c core j) = q0 := by
  unfold Chip.decTraffic
  try dsimp only
  repeat' first
    | with_reducible assumption
    | with_reducible apply foldl_quiet
    | with_reducible apply foldlM_quiet
    | intro _
    | with_reducible apply Chip.charge_quiet
    | split
    | (dsimp only [Safety.quiet, Rst.record, id])
    | exact hgq

theorem pictureEnd_quiet (core : Nat) (j : Job) (poisoned : Bool) (c : Chip × Mem) (hgq : Safety.quiet c.1 = q0) :
    ∀ d, pictureEnd core j poisoned c = some d → Safety.quiet d.1 = q0 := by
  intro d hd
  unfold pictureEnd at hd
  try dsimp only at hd
  repeat' first
    | with_reducible assumption
    | (split at hd)
    | (simp only [Option.some.injEq, reduceCtorEq] at hd; subst hd; try dsimp only)
    | with_reducible apply foldl_quiet
    | with_reducible apply foldlM_quiet
    | intro _
    | with_reducible apply Chip.reTicket_quiet
    | with_reducible apply Chip.dropLanes_quiet
    | (with_reducible refine finishPicture_quiet _ _ _ _ _ ?_ _ (by assumption))
    | with_reducible apply Chip.pictureFault_quiet
    | (with_reducible refine finishSample_quiet _ _ _ _ ?_ _ (by assumption))
    | split
    | (dsimp only [Safety.quiet, Rst.record, id])
    | (exact absurd hd (by simp))
    | exact hgq

theorem Chip.noteFieldWait_quiet (c : Chip) (j : Job) (hgq : Safety.quiet c = q0) :
    Safety.quiet (Chip.noteFieldWait c j) = q0 := by
  unfold Chip.noteFieldWait
  try dsimp only
  repeat' first
    | with_reducible assumption
    | with_reducible apply foldl_quiet
    | with_reducible apply foldlM_quiet
    | intro _
    | with_reducible apply Chip.updTicket_quiet
    | split
    | (dsimp only [Safety.quiet, Rst.record, id])
    | exact hgq

theorem Chip.shedFrame_quiet (c : Chip) (t : Ticket) (f : FrameRt) (hgq : Safety.quiet c = q0) :
    Safety.quiet (Chip.shedFrame c t f) = q0 := by
  unfold Chip.shedFrame
  try dsimp only
  repeat' first
    | with_reducible assumption
    | with_reducible apply foldl_quiet
    | with_reducible apply foldlM_quiet
    | intro _
    | with_reducible apply Chip.updTicket_quiet
    | with_reducible apply Chip.voidFrame_quiet
    | split
    | (dsimp only [Safety.quiet, Rst.record, id])
    | exact hgq

theorem Chip.shedding_quiet (c : Chip) (ticket : Nat) (hgq : Safety.quiet c = q0) :
    Safety.quiet (Chip.shedding c ticket) = q0 := by
  unfold Chip.shedding
  try dsimp only
  repeat' first
    | with_reducible assumption
    | with_reducible apply foldl_quiet
    | with_reducible apply foldlM_quiet
    | intro _
    | with_reducible apply Chip.shedFrame_quiet
    | split
    | (dsimp only [Safety.quiet, Rst.record, id])
    | exact hgq

theorem passThrough_quiet (t : Ticket) (p : Placed) (f : FrameRt) (n : Nat) (c : Chip × Mem) (hgq : Safety.quiet c.1 = q0) :
    Safety.quiet (passThrough t p f n c).1 = q0 := by
  unfold passThrough
  try dsimp only
  repeat' first
    | with_reducible assumption
    | with_reducible apply foldl_quiet
    | with_reducible apply foldlM_quiet
    | intro _
    | with_reducible apply Chip.updTicket_quiet
    | with_reducible apply Chip.signalMap_quiet
    | with_reducible apply Chip.wrote_quiet
    | split
    | (dsimp only [Safety.quiet, Rst.record, id])
    | exact hgq

theorem settle_quiet (ticket k : Nat) (c : Chip × Mem) (hgq : Safety.quiet c.1 = q0) :
    Safety.quiet (settle ticket k c).1 = q0 := by
  induction k generalizing c with
  | zero => exact hgq
  | succ k ih =>
    unfold settle
    split
    · exact hgq
    · split
      · exact ih _ (Chip.passOne_quiet _ _ hgq _ (by assumption))
      · split
        · exact hgq
        · exact ih _ (passThrough_quiet _ _ _ _ _ hgq)

theorem Chip.shareMade_quiet (c : Chip) (ticket : Nat) (hgq : Safety.quiet c = q0) :
    Safety.quiet (Chip.shareMade c ticket) = q0 := by
  unfold Chip.shareMade
  try dsimp only
  repeat' first
    | with_reducible assumption
    | with_reducible apply foldl_quiet
    | with_reducible apply foldlM_quiet
    | intro _
    | split
    | (dsimp only [Safety.quiet, Rst.record, id])
    | exact hgq

theorem Chip.noteOut_quiet (c : Chip) (ticket : Nat) (hgq : Safety.quiet c = q0) :
    Safety.quiet (Chip.noteOut c ticket) = q0 := by
  unfold Chip.noteOut
  try dsimp only
  repeat' first
    | with_reducible assumption
    | with_reducible apply foldl_quiet
    | with_reducible apply foldlM_quiet
    | intro _
    | with_reducible apply Chip.updTicket_quiet
    | split
    | (dsimp only [Safety.quiet, Rst.record, id])
    | exact hgq

theorem progress_quiet (ticket : Nat) (c : Chip × Mem) (hgq : Safety.quiet c.1 = q0) :
    Safety.quiet (progress ticket c).1 = q0 := by
  unfold progress
  try dsimp only
  repeat' first
    | with_reducible assumption
    | with_reducible apply foldl_quiet
    | with_reducible apply foldlM_quiet
    | intro _
    | with_reducible apply Chip.pumpAll_quiet
    | with_reducible apply flush_quiet
    | with_reducible apply Chip.reap_quiet
    | with_reducible apply Chip.encodeNext_quiet
    | with_reducible apply Chip.decodeNext_quiet
    | with_reducible apply Chip.shedding_quiet
    | with_reducible apply settle_quiet
    | with_reducible apply Chip.shareMade_quiet
    | with_reducible apply Chip.noteOut_quiet
    | split
    | (dsimp only [Safety.quiet, Rst.record, id])
    | exact hgq

theorem progressAll_quiet (tickets : List Nat) (c : Chip × Mem) (hgq : Safety.quiet c.1 = q0) :
    Safety.quiet (progressAll tickets c).1 = q0 := by
  unfold progressAll
  try dsimp only
  repeat' first
    | with_reducible assumption
    | with_reducible apply foldl_quiet
    | with_reducible apply foldlM_quiet
    | intro _
    | with_reducible apply progress_quiet
    | split
    | (dsimp only [Safety.quiet, Rst.record, id])
    | exact hgq

theorem decodeComplete_quiet (core : Nat) (poisoned : Bool) (c : Chip × Mem) (hgq : Safety.quiet c.1 = q0) :
    Safety.quiet (decodeComplete core poisoned c).1 = q0 := by
  unfold decodeComplete
  try dsimp only
  repeat' first
    | with_reducible assumption
    | with_reducible apply foldl_quiet
    | with_reducible apply foldlM_quiet
    | intro _
    | with_reducible apply Chip.decodeFree_quiet
    | with_reducible apply Chip.decTraffic_quiet
    | (with_reducible refine pictureEnd_quiet _ _ _ _ ?_ _ (by assumption))
    | with_reducible apply Chip.noteFieldWait_quiet
    | with_reducible apply progress_quiet
    | split
    | (dsimp only [Safety.quiet, Rst.record, id])
    | exact hgq

theorem encodeEnd_quiet (core : Nat) (poisoned : Bool) (c : Chip × Mem) (hgq : Safety.quiet c.1 = q0) :
    Safety.quiet (encodeEnd core poisoned c).1 = q0 := by
  unfold encodeEnd
  try dsimp only
  repeat' first
    | with_reducible assumption
    | with_reducible apply foldl_quiet
    | with_reducible apply foldlM_quiet
    | intro _
    | with_reducible apply encodeComplete_quiet
    | with_reducible apply progress_quiet
    | split
    | (dsimp only [Safety.quiet, Rst.record, id])
    | exact hgq

/-! Frog -/

theorem Chip.rebook_quiet (c : Chip) (hgq : Safety.quiet c = q0) :
    Safety.quiet (Chip.rebook c) = q0 := by
  unfold Chip.rebook
  try dsimp only
  repeat' first
    | with_reducible assumption
    | with_reducible apply foldl_quiet
    | with_reducible apply foldlM_quiet
    | intro _
    | with_reducible apply Chip.alarmIf_quiet
    | split
    | (dsimp only [Safety.quiet, Rst.record, id])
    | exact hgq

theorem Chip.voidFrames_quiet (c : Chip) (ticket stage : Nat) (fs : List FrameRt) (hgq : Safety.quiet c = q0) :
    Safety.quiet (Chip.voidFrames c ticket stage fs) = q0 := by
  unfold Chip.voidFrames
  try dsimp only
  repeat' first
    | with_reducible assumption
    | with_reducible apply foldl_quiet
    | with_reducible apply foldlM_quiet
    | intro _
    | with_reducible apply Chip.voidFrame_quiet
    | split
    | (dsimp only [Safety.quiet, Rst.record, id])
    | exact hgq

theorem Chip.frogDecode_quiet (c : Chip) (t : Ticket) (p : Placed) (hgq : Safety.quiet c = q0) :
    Safety.quiet (Chip.frogDecode c t p) = q0 := by
  unfold Chip.frogDecode
  try dsimp only
  repeat' first
    | with_reducible assumption
    | with_reducible apply foldl_quiet
    | with_reducible apply foldlM_quiet
    | intro _
    | with_reducible apply Chip.updTicket_quiet
    | with_reducible apply Chip.reTicket_quiet
    | with_reducible apply Chip.freeHanks_quiet
    | with_reducible apply Chip.voidFrames_quiet
    | split
    | (dsimp only [Safety.quiet, Rst.record, id])
    | exact hgq

theorem Chip.frogEncode_quiet (c : Chip) (t : Ticket) (hgq : Safety.quiet c = q0) :
    Safety.quiet (Chip.frogEncode c t) = q0 := by
  unfold Chip.frogEncode
  try dsimp only
  repeat' first
    | with_reducible assumption
    | with_reducible apply foldl_quiet
    | with_reducible apply foldlM_quiet
    | intro _
    | with_reducible apply Chip.updTicket_quiet
    | split
    | (dsimp only [Safety.quiet, Rst.record, id])
    | exact hgq

theorem Chip.frogStage_quiet (c : Chip) (t : Ticket) (p : Placed) (hgq : Safety.quiet c = q0) :
    Safety.quiet (Chip.frogStage c t p) = q0 := by
  unfold Chip.frogStage
  try dsimp only
  repeat' first
    | with_reducible assumption
    | with_reducible apply foldl_quiet
    | with_reducible apply foldlM_quiet
    | intro _
    | with_reducible apply Chip.voidFrames_quiet
    | split
    | (dsimp only [Safety.quiet, Rst.record, id])
    | exact hgq

theorem Chip.frogAdapt_quiet (c : Chip) (t : Ticket) (hgq : Safety.quiet c = q0) :
    Safety.quiet (Chip.frogAdapt c t) = q0 := by
  unfold Chip.frogAdapt
  try dsimp only
  repeat' first
    | with_reducible assumption
    | with_reducible apply foldl_quiet
    | with_reducible apply foldlM_quiet
    | intro _
    | with_reducible apply Chip.reTicket_quiet
    | split
    | (dsimp only [Safety.quiet, Rst.record, id])
    | exact hgq

theorem Chip.frogHanks_quiet (c : Chip) (t : Ticket) (p : Placed) (ctx : Nat) (hgq : Safety.quiet c = q0) :
    Safety.quiet (Chip.frogHanks c t p ctx) = q0 := by
  unfold Chip.frogHanks
  try dsimp only
  repeat' first
    | with_reducible assumption
    | with_reducible apply foldl_quiet
    | with_reducible apply foldlM_quiet
    | intro _
    | with_reducible apply Chip.freeHanks_quiet
    | split
    | (dsimp only [Safety.quiet, Rst.record, id])
    | exact hgq

theorem Chip.frogKind_quiet (c : Chip) (t : Ticket) (p : Placed) (hgq : Safety.quiet c = q0) :
    Safety.quiet (Chip.frogKind c t p) = q0 := by
  unfold Chip.frogKind
  try dsimp only
  repeat' first
    | with_reducible assumption
    | with_reducible apply foldl_quiet
    | with_reducible apply foldlM_quiet
    | intro _
    | with_reducible apply Chip.frogDecode_quiet
    | with_reducible apply Chip.frogEncode_quiet
    | with_reducible apply Chip.frogStage_quiet
    | with_reducible apply Chip.frogAdapt_quiet
    | split
    | (dsimp only [Safety.quiet, Rst.record, id])
    | exact hgq

theorem frogContext_quiet (cause ctx : Nat) (c : Chip × Mem) (hgq : Safety.quiet c.1 = q0) :
    Safety.quiet (frogContext cause ctx c).1 = q0 := by
  unfold frogContext
  try dsimp only
  repeat' first
    | with_reducible assumption
    | with_reducible apply foldl_quiet
    | with_reducible apply foldlM_quiet
    | intro _
    | with_reducible apply Chip.edge_quiet
    | with_reducible apply Chip.note_quiet
    | with_reducible apply frogNeedles_quiet
    | with_reducible apply progress_quiet
    | with_reducible apply Chip.frogHanks_quiet
    | with_reducible apply Chip.frogKind_quiet
    | split
    | (dsimp only [Safety.quiet, Rst.record, id])
    | exact hgq

theorem frogContexts_quiet (cause : Nat) (ctxs : List Nat) (c : Chip × Mem) (hgq : Safety.quiet c.1 = q0) :
    Safety.quiet (frogContexts cause ctxs c).1 = q0 := by
  unfold frogContexts
  try dsimp only
  repeat' first
    | with_reducible assumption
    | with_reducible apply foldl_quiet
    | with_reducible apply foldlM_quiet
    | intro _
    | with_reducible apply frogContext_quiet
    | split
    | (dsimp only [Safety.quiet, Rst.record, id])
    | exact hgq

theorem Chip.dropJobs_quiet (c : Chip) (ticket : Nat) (hgq : Safety.quiet c = q0) :
    Safety.quiet (Chip.dropJobs c ticket) = q0 := by
  unfold Chip.dropJobs
  try dsimp only
  repeat' first
    | with_reducible assumption
    | with_reducible apply foldl_quiet
    | with_reducible apply foldlM_quiet
    | intro _
    | split
    | (dsimp only [Safety.quiet, Rst.record, id])
    | exact hgq

theorem Chip.endTicket_quiet (c : Chip) (t : Ticket) (hgq : Safety.quiet c = q0) :
    Safety.quiet (Chip.endTicket c t) = q0 := by
  unfold Chip.endTicket
  try dsimp only
  repeat' first
    | with_reducible assumption
    | with_reducible apply foldl_quiet
    | with_reducible apply foldlM_quiet
    | intro _
    | with_reducible apply Chip.reportLtr_quiet
    | with_reducible apply Chip.releaseMarkers_quiet
    | with_reducible apply Chip.dropAllowance_quiet
    | with_reducible apply Chip.giveBack_quiet
    | with_reducible apply Chip.rebook_quiet
    | split
    | (dsimp only [Safety.quiet, Rst.record, id])
    | exact hgq

theorem Chip.forgetContexts_quiet (c : Chip) (ctxs : List Nat) (hgq : Safety.quiet c = q0) :
    Safety.quiet (Chip.forgetContexts c ctxs) = q0 := by
  unfold Chip.forgetContexts
  try dsimp only
  repeat' first
    | with_reducible assumption
    | with_reducible apply foldl_quiet
    | with_reducible apply foldlM_quiet
    | intro _
    | split
    | (dsimp only [Safety.quiet, Rst.record, id])
    | exact hgq

theorem killTicket_quiet (t : Ticket) (c : Chip × Mem) (hgq : Safety.quiet c.1 = q0) :
    Safety.quiet (killTicket t c).1 = q0 := by
  unfold killTicket
  try dsimp only
  repeat' first
    | with_reducible assumption
    | with_reducible apply foldl_quiet
    | with_reducible apply foldlM_quiet
    | intro _
    | with_reducible apply Chip.pumpAll_quiet
    | with_reducible apply frogNeedles_quiet
    | with_reducible apply Chip.dropJobs_quiet
    | with_reducible apply Chip.endTicket_quiet
    | with_reducible apply Chip.forgetContexts_quiet
    | split
    | (dsimp only [Safety.quiet, Rst.record, id])
    | exact hgq

theorem flushSkips_quiet (ticket k : Nat) (c : Chip × Mem) (hgq : Safety.quiet c.1 = q0) :
    Safety.quiet (flushSkips ticket k c).1 = q0 := by
  induction k generalizing c with
  | zero => exact hgq
  | succ k ih =>
    unfold flushSkips
    split
    · exact hgq
    · split
      · exact hgq
      · exact ih _ (commitSkip_quiet _ _ hgq _ (by assumption))

theorem closeTicket_quiet (cause : Nat) (t : Ticket) (c : Chip × Mem) (hgq : Safety.quiet c.1 = q0) :
    Safety.quiet (closeTicket cause t c).1 = q0 := by
  unfold closeTicket
  try dsimp only
  repeat' first
    | with_reducible assumption
    | with_reducible apply foldl_quiet
    | with_reducible apply foldlM_quiet
    | intro _
    | with_reducible apply Chip.updTicket_quiet
    | with_reducible apply flush_quiet
    | with_reducible apply frogContexts_quiet
    | with_reducible apply killTicket_quiet
    | with_reducible apply flushSkips_quiet
    | split
    | (dsimp only [Safety.quiet, Rst.record, id])
    | exact hgq

theorem Chip.tellAll_quiet (c : Chip) (ms : List Nat) (code ticket garment : Nat) (b : List Byte) (hgq : Safety.quiet c = q0) :
    Safety.quiet (Chip.tellAll c ms code ticket garment b) = q0 := by
  unfold Chip.tellAll
  try dsimp only
  repeat' first
    | with_reducible assumption
    | with_reducible apply foldl_quiet
    | with_reducible apply foldlM_quiet
    | intro _
    | split
    | (dsimp only [Safety.quiet, Rst.record, id])
    | exact hgq

theorem Chip.tellBindOff_quiet (c : Chip) (t : Ticket) (drain : Bool) (hgq : Safety.quiet c = q0) :
    Safety.quiet (Chip.tellBindOff c t drain) = q0 := by
  unfold Chip.tellBindOff
  try dsimp only
  repeat' first
    | with_reducible assumption
    | with_reducible apply foldl_quiet
    | with_reducible apply foldlM_quiet
    | intro _
    | with_reducible apply Chip.tellAll_quiet
    | split
    | (dsimp only [Safety.quiet, Rst.record, id])
    | exact hgq

theorem drainTicket_quiet (t : Ticket) (req : Option (Nat × Nat)) (c : Chip × Mem) (hgq : Safety.quiet c.1 = q0) :
    Safety.quiet (drainTicket t req c).1 = q0 := by
  unfold drainTicket
  try dsimp only
  repeat' first
    | with_reducible assumption
    | with_reducible apply foldl_quiet
    | with_reducible apply foldlM_quiet
    | intro _
    | with_reducible apply Chip.updTicket_quiet
    | with_reducible apply progress_quiet
    | split
    | (dsimp only [Safety.quiet, Rst.record, id])
    | exact hgq

theorem bindOff_quiet (fn : Nat) (r : Req) (c : Chip × Mem) (hgq : Safety.quiet c.1 = q0) :
    Safety.quiet (bindOff fn r c).1 = q0 := by
  unfold bindOff
  try dsimp only
  repeat' first
    | with_reducible assumption
    | with_reducible apply foldl_quiet
    | with_reducible apply foldlM_quiet
    | intro _
    | with_reducible apply Chip.respond_quiet
    | with_reducible apply Chip.respondRefused_quiet
    | with_reducible apply closeTicket_quiet
    | with_reducible apply Chip.tellBindOff_quiet
    | with_reducible apply drainTicket_quiet
    | split
    | (dsimp only [Safety.quiet, Rst.record, id])
    | exact hgq

theorem drainEnd_quiet (ticket : Nat) (c : Chip × Mem) (hgq : Safety.quiet c.1 = q0) :
    Safety.quiet (drainEnd ticket c).1 = q0 := by
  unfold drainEnd
  try dsimp only
  repeat' first
    | with_reducible assumption
    | with_reducible apply foldl_quiet
    | with_reducible apply foldlM_quiet
    | intro _
    | with_reducible apply Chip.respondAt_quiet
    | with_reducible apply killTicket_quiet
    | with_reducible apply Chip.tellBindOff_quiet
    | split
    | (dsimp only [Safety.quiet, Rst.record, id])
    | exact hgq

/-! Rolivo -/

theorem Chip.sendFrame_quiet (c : Chip) (p : Port) (w : Waiting) (f : RFrame) (turns : Nat × Nat) (hgq : Safety.quiet c = q0) :
    Safety.quiet (Chip.sendFrame c p w f turns) = q0 := by
  unfold Chip.sendFrame
  try dsimp only
  repeat' first
    | with_reducible assumption
    | with_reducible apply foldl_quiet
    | with_reducible apply foldlM_quiet
    | intro _
    | split
    | (dsimp only [Safety.quiet, Rst.record, id])
    | exact hgq

theorem frameBoundary_quiet (p : Port) (c : Chip × Mem) (hgq : Safety.quiet c.1 = q0) :
    Safety.quiet (frameBoundary p c).1 = q0 := by
  unfold frameBoundary
  try dsimp only
  repeat' first
    | with_reducible assumption
    | with_reducible apply foldl_quiet
    | with_reducible apply foldlM_quiet
    | intro _
    | with_reducible apply Chip.sentDone_quiet
    | with_reducible apply progress_quiet
    | with_reducible apply Chip.sendFrame_quiet
    | split
    | (dsimp only [Safety.quiet, Rst.record, id])
    | exact hgq

theorem Chip.repaired_quiet (c : Chip) (kind : Nat) (p : Port) (hgq : Safety.quiet c = q0) :
    Safety.quiet (Chip.repaired c kind p) = q0 := by
  unfold Chip.repaired
  try dsimp only
  repeat' first
    | with_reducible assumption
    | with_reducible apply foldl_quiet
    | with_reducible apply foldlM_quiet
    | intro _
    | split
    | (dsimp only [Safety.quiet, Rst.record, id])
    | exact hgq

theorem Chip.wrap_quiet (c : Chip) (p : Port) (hgq : Safety.quiet c = q0) :
    Safety.quiet (Chip.wrap c p) = q0 := by
  unfold Chip.wrap
  try dsimp only
  repeat' first
    | with_reducible assumption
    | with_reducible apply foldl_quiet
    | with_reducible apply foldlM_quiet
    | intro _
    | with_reducible apply Chip.rebook_quiet
    | with_reducible apply Chip.repaired_quiet
    | split
    | (dsimp only [Safety.quiet, Rst.record, id])
    | exact hgq

/-! Garment -/

theorem Chip.dropHold_quiet (c : Chip) (h : GarmentHold) (hgq : Safety.quiet c = q0) :
    Safety.quiet (Chip.dropHold c h) = q0 := by
  unfold Chip.dropHold
  try dsimp only
  repeat' first
    | with_reducible assumption
    | with_reducible apply foldl_quiet
    | with_reducible apply foldlM_quiet
    | intro _
    | with_reducible apply Chip.releaseMarkers_quiet
    | split
    | (dsimp only [Safety.quiet, Rst.record, id])
    | exact hgq

theorem Chip.dropHop_quiet (c : Chip) (g : Nat) (hgq : Safety.quiet c = q0) :
    Safety.quiet (Chip.dropHop c g) = q0 := by
  unfold Chip.dropHop
  try dsimp only
  repeat' first
    | with_reducible assumption
    | with_reducible apply foldl_quiet
    | with_reducible apply foldlM_quiet
    | intro _
    | with_reducible apply Chip.rebook_quiet
    | split
    | (dsimp only [Safety.quiet, Rst.record, id])
    | exact hgq

theorem Chip.gCommit_quiet (c : Chip) (f : RFrame) (hgq : Safety.quiet c = q0) :
    Safety.quiet (Chip.gCommit c f) = q0 := by
  unfold Chip.gCommit
  try dsimp only
  repeat' first
    | with_reducible assumption
    | with_reducible apply foldl_quiet
    | with_reducible apply foldlM_quiet
    | intro _
    | with_reducible apply Chip.openTicket_quiet
    | with_reducible apply Chip.sendAnswer_quiet
    | with_reducible apply Chip.hold_quiet
    | split
    | (dsimp only [Safety.quiet, Rst.record, id])
    | exact hgq

theorem endPart_quiet (g cause : Nat) (c : Chip × Mem) (hgq : Safety.quiet c.1 = q0) :
    Safety.quiet (endPart g cause c).1 = q0 := by
  unfold endPart
  try dsimp only
  repeat' first
    | with_reducible assumption
    | with_reducible apply foldl_quiet
    | with_reducible apply foldlM_quiet
    | intro _
    | with_reducible apply Chip.hold_quiet
    | with_reducible apply closeTicket_quiet
    | with_reducible apply Chip.dropHold_quiet
    | with_reducible apply Chip.dropHop_quiet
    | split
    | (dsimp only [Safety.quiet, Rst.record, id])
    | exact hgq

theorem gRelease_quiet (f : RFrame) (c : Chip × Mem) (hgq : Safety.quiet c.1 = q0) :
    Safety.quiet (gRelease f c).1 = q0 := by
  unfold gRelease
  try dsimp only
  repeat' first
    | with_reducible assumption
    | with_reducible apply foldl_quiet
    | with_reducible apply foldlM_quiet
    | intro _
    | with_reducible apply endPart_quiet
    | split
    | (dsimp only [Safety.quiet, Rst.record, id])
    | exact hgq

theorem gBindOff_quiet (f : RFrame) (c : Chip × Mem) (hgq : Safety.quiet c.1 = q0) :
    Safety.quiet (gBindOff f c).1 = q0 := by
  unfold gBindOff
  try dsimp only
  repeat' first
    | with_reducible assumption
    | with_reducible apply foldl_quiet
    | with_reducible apply foldlM_quiet
    | intro _
    | with_reducible apply drainTicket_quiet
    | with_reducible apply endPart_quiet
    | split
    | (dsimp only [Safety.quiet, Rst.record, id])
    | exact hgq

theorem Chip.dropLead_quiet (c : Chip) (l : GarmentLead) (hgq : Safety.quiet c = q0) :
    Safety.quiet (Chip.dropLead c l) = q0 := by
  unfold Chip.dropLead
  try dsimp only
  repeat' first
    | with_reducible assumption
    | with_reducible apply foldl_quiet
    | with_reducible apply foldlM_quiet
    | intro _
    | split
    | (dsimp only [Safety.quiet, Rst.record, id])
    | exact hgq

theorem Chip.commitGarment_quiet (c : Chip) (l : GarmentLead) (hgq : Safety.quiet c = q0) :
    Safety.quiet (Chip.commitGarment c l) = q0 := by
  unfold Chip.commitGarment
  try dsimp only
  repeat' first
    | with_reducible assumption
    | with_reducible apply foldl_quiet
    | with_reducible apply foldlM_quiet
    | intro _
    | with_reducible apply Chip.openTicket_quiet
    | with_reducible apply Chip.respond_quiet
    | with_reducible apply Chip.tellAll_quiet
    | with_reducible apply Chip.dropLead_quiet
    | split
    | (dsimp only [Safety.quiet, Rst.record, id])
    | exact hgq

theorem Chip.refuseGarment_quiet (c : Chip) (l : GarmentLead) (reason detail k : Nat) (hgq : Safety.quiet c = q0) :
    Safety.quiet (Chip.refuseGarment c l reason detail k) = q0 := by
  unfold Chip.refuseGarment
  try dsimp only
  repeat' first
    | with_reducible assumption
    | with_reducible apply foldl_quiet
    | with_reducible apply foldlM_quiet
    | intro _
    | with_reducible apply Chip.releaseMarkers_quiet
    | with_reducible apply Chip.respond_quiet
    | with_reducible apply Chip.tellAll_quiet
    | with_reducible apply Chip.dropLead_quiet
    | split
    | (dsimp only [Safety.quiet, Rst.record, id])
    | exact hgq

theorem gAnswer_quiet (f : RFrame) (c : Chip × Mem) (hgq : Safety.quiet c.1 = q0) :
    Safety.quiet (gAnswer f c).1 = q0 := by
  unfold gAnswer
  try dsimp only
  repeat' first
    | with_reducible assumption
    | with_reducible apply foldl_quiet
    | with_reducible apply foldlM_quiet
    | intro _
    | with_reducible apply closeTicket_quiet
    | with_reducible apply Chip.tellAll_quiet
    | with_reducible apply Chip.commitGarment_quiet
    | with_reducible apply Chip.refuseGarment_quiet
    | split
    | (dsimp only [Safety.quiet, Rst.record, id])
    | exact hgq

theorem Chip.garmentCastOn_quiet (c : Chip) (fn : Nat) (r : Req) (raw : List Byte) (hgq : Safety.quiet c = q0) :
    Safety.quiet (Chip.garmentCastOn c fn r raw) = q0 := by
  unfold Chip.garmentCastOn
  try dsimp only
  repeat' first
    | with_reducible assumption
    | with_reducible apply foldl_quiet
    | with_reducible apply foldlM_quiet
    | intro _
    | with_reducible apply Chip.holdMarkers_quiet
    | with_reducible apply Chip.respondRefused_quiet
    | with_reducible apply Chip.commitGarment_quiet
    | split
    | (dsimp only [Safety.quiet, Rst.record, id])
    | exact hgq

theorem Chip.recordAbort_quiet (c : Chip) (g cause ticket : Nat) (hgq : Safety.quiet c = q0) :
    Safety.quiet (Chip.recordAbort c g cause ticket) = q0 := by
  unfold Chip.recordAbort
  try dsimp only
  repeat' first
    | with_reducible assumption
    | with_reducible apply foldl_quiet
    | with_reducible apply foldlM_quiet
    | intro _
    | with_reducible apply Chip.alarm_quiet
    | split
    | (dsimp only [Safety.quiet, Rst.record, id])
    | exact hgq

theorem abortGarment_quiet (g cause : Nat) (heard : List Nat) (c : Chip × Mem) (hgq : Safety.quiet c.1 = q0) :
    Safety.quiet (abortGarment g cause heard c).1 = q0 := by
  unfold abortGarment
  try dsimp only
  repeat' first
    | with_reducible assumption
    | with_reducible apply foldl_quiet
    | with_reducible apply foldlM_quiet
    | intro _
    | with_reducible apply Chip.hold_quiet
    | with_reducible apply Chip.tellAll_quiet
    | with_reducible apply endPart_quiet
    | with_reducible apply Chip.recordAbort_quiet
    | split
    | (dsimp only [Safety.quiet, Rst.record, id])
    | exact hgq

theorem gAbort_quiet (f : RFrame) (c : Chip × Mem) (hgq : Safety.quiet c.1 = q0) :
    Safety.quiet (gAbort f c).1 = q0 := by
  unfold gAbort
  try dsimp only
  repeat' first
    | with_reducible assumption
    | with_reducible apply foldl_quiet
    | with_reducible apply foldlM_quiet
    | intro _
    | with_reducible apply abortGarment_quiet
    | split
    | (dsimp only [Safety.quiet, Rst.record, id])
    | exact hgq

theorem abortBroken_quiet (c : Chip × Mem) (hgq : Safety.quiet c.1 = q0) :
    Safety.quiet (abortBroken c).1 = q0 := by
  unfold abortBroken
  try dsimp only
  repeat' first
    | with_reducible assumption
    | with_reducible apply foldl_quiet
    | with_reducible apply foldlM_quiet
    | intro _
    | with_reducible apply abortGarment_quiet
    | split
    | (dsimp only [Safety.quiet, Rst.record, id])
    | exact hgq

/-! Logs -/

theorem Chip.vectorUnmask_quiet (c : Chip) (fn v : Nat) (hgq : Safety.quiet c = q0) :
    Safety.quiet (Chip.vectorUnmask c fn v) = q0 := by
  unfold Chip.vectorUnmask
  try dsimp only
  repeat' first
    | with_reducible assumption
    | with_reducible apply foldl_quiet
    | with_reducible apply foldlM_quiet
    | intro _
    | with_reducible apply flush_quiet
    | split
    | (dsimp only [Safety.quiet, Rst.record, id])
    | exact hgq

/-! Pattern -/

theorem Chip.loadCharts_quiet (c : Chip) (hgq : Safety.quiet c = q0) :
    Safety.quiet (Chip.loadCharts c) = q0 := by
  unfold Chip.loadCharts
  try dsimp only
  repeat' first
    | with_reducible assumption
    | with_reducible apply foldl_quiet
    | with_reducible apply foldlM_quiet
    | intro _
    | with_reducible apply Chip.loadRemote_quiet
    | split
    | (dsimp only [Safety.quiet, Rst.record, id])
    | exact hgq

/-! Recovery -/

theorem resetNeedle_quiet (n : Nat) (c : Chip × Mem) (hgq : Safety.quiet c.1 = q0) :
    Safety.quiet (resetNeedle n c).1 = q0 := by
  unfold resetNeedle
  try dsimp only
  repeat' first
    | with_reducible assumption
    | with_reducible apply foldl_quiet
    | with_reducible apply foldlM_quiet
    | intro _
    | with_reducible apply Chip.updNeedle_quiet
    | with_reducible apply abortOps_quiet
    | with_reducible apply Chip.dropChunks_quiet
    | split
    | (dsimp only [Safety.quiet, Rst.record, id])
    | exact hgq

theorem resetDma_quiet (n : Nat) (c : Chip × Mem) (hgq : Safety.quiet c.1 = q0) :
    Safety.quiet (resetDma n c).1 = q0 := by
  unfold resetDma
  try dsimp only
  repeat' first
    | with_reducible assumption
    | with_reducible apply foldl_quiet
    | with_reducible apply foldlM_quiet
    | intro _
    | with_reducible apply Chip.updNeedle_quiet
    | with_reducible apply abortOps_quiet
    | with_reducible apply Chip.dropChunks_quiet
    | split
    | (dsimp only [Safety.quiet, Rst.record, id])
    | exact hgq

theorem Chip.resetDec_quiet (c : Chip) (k : Nat) (hgq : Safety.quiet c = q0) :
    Safety.quiet (Chip.resetDec c k) = q0 := by
  unfold Chip.resetDec
  try dsimp only
  repeat' first
    | with_reducible assumption
    | with_reducible apply foldl_quiet
    | with_reducible apply foldlM_quiet
    | intro _
    | with_reducible apply Chip.dropLanes_quiet
    | split
    | (dsimp only [Safety.quiet, Rst.record, id])
    | exact hgq

theorem Chip.resetEnc_quiet (c : Chip) (k : Nat) (hgq : Safety.quiet c = q0) :
    Safety.quiet (Chip.resetEnc c k) = q0 := by
  unfold Chip.resetEnc
  try dsimp only
  repeat' first
    | with_reducible assumption
    | with_reducible apply foldl_quiet
    | with_reducible apply foldlM_quiet
    | intro _
    | with_reducible apply Chip.dropLanes_quiet
    | split
    | (dsimp only [Safety.quiet, Rst.record, id])
    | exact hgq

theorem resetMarub_quiet (c : Chip × Mem) (hgq : Safety.quiet c.1 = q0) :
    Safety.quiet (resetMarub c).1 = q0 := by
  unfold resetMarub
  try dsimp only
  repeat' first
    | with_reducible assumption
    | with_reducible apply foldl_quiet
    | with_reducible apply foldlM_quiet
    | intro _
    | with_reducible apply abortOps_quiet
    | split
    | (dsimp only [Safety.quiet, Rst.record, id])
    | exact hgq

theorem Chip.resetChannel_quiet (c : Chip) (ch : Nat) (hgq : Safety.quiet c = q0) :
    Safety.quiet (Chip.resetChannel c ch) = q0 := by
  unfold Chip.resetChannel
  try dsimp only
  repeat' first
    | with_reducible assumption
    | with_reducible apply foldl_quiet
    | with_reducible apply foldlM_quiet
    | intro _
    | with_reducible apply Chip.updNeedle_quiet
    | with_reducible apply Chip.hbmUe_quiet
    | split
    | (dsimp only [Safety.quiet, Rst.record, id])
    | exact hgq

theorem Chip.restartTimers_quiet (c : Chip) (e : Nat) (hgq : Safety.quiet c = q0) :
    Safety.quiet (Chip.restartTimers c e) = q0 := by
  unfold Chip.restartTimers
  try dsimp only
  repeat' first
    | with_reducible assumption
    | with_reducible apply foldl_quiet
    | with_reducible apply foldlM_quiet
    | intro _
    | split
    | (dsimp only [Safety.quiet, Rst.record, id])
    | exact hgq

theorem resetEngine_quiet (e : Nat) (c : Chip × Mem) (hgq : Safety.quiet c.1 = q0) :
    Safety.quiet (resetEngine e c).1 = q0 := by
  unfold resetEngine
  try dsimp only
  repeat' first
    | with_reducible assumption
    | with_reducible apply foldl_quiet
    | with_reducible apply foldlM_quiet
    | intro _
    | with_reducible apply resetNeedle_quiet
    | with_reducible apply resetDma_quiet
    | with_reducible apply Chip.resetDec_quiet
    | with_reducible apply Chip.resetEnc_quiet
    | with_reducible apply resetMarub_quiet
    | with_reducible apply Chip.resetChannel_quiet
    | split
    | (dsimp only [Safety.quiet, Rst.record, id])
    | exact hgq

theorem engineReset_quiet (e ctx : Nat) (c : Chip × Mem) (hgq : Safety.quiet c.1 = q0) :
    Safety.quiet (engineReset e ctx c).1 = q0 := by
  unfold engineReset
  try dsimp only
  repeat' first
    | with_reducible assumption
    | with_reducible apply foldl_quiet
    | with_reducible apply foldlM_quiet
    | intro _
    | with_reducible apply Chip.alarm_quiet
    | with_reducible apply resetEngine_quiet
    | split
    | (dsimp only [Safety.quiet, Rst.record, id])
    | exact hgq

theorem Chip.tinkOver_quiet (c : Chip) (k : Tink) (hgq : Safety.quiet c = q0) :
    Safety.quiet (Chip.tinkOver c k) = q0 := by
  unfold Chip.tinkOver
  try dsimp only
  repeat' first
    | with_reducible assumption
    | with_reducible apply foldl_quiet
    | with_reducible apply foldlM_quiet
    | intro _
    | with_reducible apply Chip.alarmIf_quiet
    | with_reducible apply Chip.edgeIf_quiet
    | with_reducible apply Chip.restartTimers_quiet
    | split
    | (dsimp only [Safety.quiet, Rst.record, id])
    | exact hgq

theorem Chip.restock_quiet (c : Chip) (e : Nat) (js : List Job) (hgq : Safety.quiet c = q0) :
    Safety.quiet (Chip.restock c e js) = q0 := by
  unfold Chip.restock
  try dsimp only
  repeat' first
    | with_reducible assumption
    | with_reducible apply foldl_quiet
    | with_reducible apply foldlM_quiet
    | intro _
    | split
    | (dsimp only [Safety.quiet, Rst.record, id])
    | exact hgq

theorem Chip.countTrip_quiet (c : Chip) (e ctx : Nat) (hgq : Safety.quiet c = q0) :
    Safety.quiet (Chip.countTrip c e ctx) = q0 := by
  unfold Chip.countTrip
  try dsimp only
  repeat' first
    | with_reducible assumption
    | with_reducible apply foldl_quiet
    | with_reducible apply foldlM_quiet
    | intro _
    | with_reducible apply Chip.incident_quiet
    | split
    | (dsimp only [Safety.quiet, Rst.record, id])
    | exact hgq

/-! Reset -/

theorem Chip.logBuild_quiet (c : Chip) (id : Nat) (hgq : Safety.quiet c = q0) :
    Safety.quiet (Chip.logBuild c id) = q0 := by
  unfold Chip.logBuild
  try dsimp only
  repeat' first
    | with_reducible assumption
    | with_reducible apply foldl_quiet
    | with_reducible apply foldlM_quiet
    | intro _
    | with_reducible apply Chip.note_quiet
    | split
    | (dsimp only [Safety.quiet, Rst.record, id])
    | exact hgq

theorem Chip.leaveGarments_quiet (c : Chip) (cause : Nat) (hgq : Safety.quiet c = q0) :
    Safety.quiet (Chip.leaveGarments c cause) = q0 := by
  unfold Chip.leaveGarments
  try dsimp only
  repeat' first
    | with_reducible assumption
    | with_reducible apply foldl_quiet
    | with_reducible apply foldlM_quiet
    | intro _
    | with_reducible apply Chip.hold_quiet
    | with_reducible apply Chip.tellAll_quiet
    | with_reducible apply Chip.dropHold_quiet
    | with_reducible apply Chip.dropHop_quiet
    | with_reducible apply Chip.refuseGarment_quiet
    | with_reducible apply Chip.recordAbort_quiet
    | split
    | (dsimp only [Safety.quiet, Rst.record, id])
    | exact hgq

theorem killAll_quiet (c : Chip × Mem) (hgq : Safety.quiet c.1 = q0) :
    Safety.quiet (killAll c).1 = q0 := by
  unfold killAll
  try dsimp only
  repeat' first
    | with_reducible assumption
    | with_reducible apply foldl_quiet
    | with_reducible apply foldlM_quiet
    | intro _
    | with_reducible apply killTicket_quiet
    | split
    | (dsimp only [Safety.quiet, Rst.record, id])
    | exact hgq

theorem Chip.haltEngines_quiet (c : Chip) (hgq : Safety.quiet c = q0) :
    Safety.quiet (Chip.haltEngines c) = q0 := by
  unfold Chip.haltEngines
  try dsimp only
  repeat' first
    | with_reducible assumption
    | with_reducible apply foldl_quiet
    | with_reducible apply foldlM_quiet
    | intro _
    | split
    | (dsimp only [Safety.quiet, Rst.record, id])
    | exact hgq

theorem Chip.keepHanks_quiet (c : Chip) (hgq : Safety.quiet c = q0) :
    Safety.quiet (Chip.keepHanks c) = q0 := by
  unfold Chip.keepHanks
  try dsimp only
  repeat' first
    | with_reducible assumption
    | with_reducible apply foldl_quiet
    | with_reducible apply foldlM_quiet
    | intro _
    | split
    | (dsimp only [Safety.quiet, Rst.record, id])
    | exact hgq

/-! Faults -/

theorem Chip.patrol_quiet (c : Chip) (fixed bad : List Nat) (hgq : Safety.quiet c = q0) :
    Safety.quiet (Chip.patrol c fixed bad) = q0 := by
  unfold Chip.patrol
  try dsimp only
  repeat' first
    | with_reducible assumption
    | with_reducible apply foldl_quiet
    | with_reducible apply foldlM_quiet
    | intro _
    | with_reducible apply Chip.hbmUe_quiet
    | split
    | (dsimp only [Safety.quiet, Rst.record, id])
    | exact hgq

theorem progressEach_quiet (c : Chip × Mem) (hgq : Safety.quiet c.1 = q0) :
    Safety.quiet (progressEach c).1 = q0 := by
  unfold progressEach
  try dsimp only
  repeat' first
    | with_reducible assumption
    | with_reducible apply foldl_quiet
    | with_reducible apply foldlM_quiet
    | intro _
    | with_reducible apply progressAll_quiet
    | split
    | (dsimp only [Safety.quiet, Rst.record, id])
    | exact hgq

/-! Rows -/

theorem Chip.alarmSummary_quiet (c : Chip) (supp : Tbl Nat) (hgq : Safety.quiet c = q0) :
    Safety.quiet (Chip.alarmSummary c supp) = q0 := by
  unfold Chip.alarmSummary
  try dsimp only
  repeat' first
    | with_reducible assumption
    | with_reducible apply foldl_quiet
    | with_reducible apply foldlM_quiet
    | intro _
    | with_reducible apply Chip.tellAll_quiet
    | split
    | (dsimp only [Safety.quiet, Rst.record, id])
    | exact hgq

theorem resumeShed_quiet (c : Chip × Mem) (hgq : Safety.quiet c.1 = q0) :
    Safety.quiet (resumeShed c).1 = q0 := by
  unfold resumeShed
  try dsimp only
  repeat' first
    | with_reducible assumption
    | with_reducible apply foldl_quiet
    | with_reducible apply foldlM_quiet
    | intro _
    | with_reducible apply Chip.pumpAll_quiet
    | with_reducible apply Chip.startSample_quiet
    | with_reducible apply Chip.fillPanel_quiet
    | split
    | (dsimp only [Safety.quiet, Rst.record, id])
    | exact hgq

/-! Complete -/

theorem Chip.sampleFault_quiet (c : Chip) (m : Mem) (t : Ticket) (hgq : Safety.quiet c = q0) :
    Safety.quiet (Chip.sampleFault c m t) = q0 := by
  unfold Chip.sampleFault
  try dsimp only
  repeat' first
    | with_reducible assumption
    | with_reducible apply foldl_quiet
    | with_reducible apply foldlM_quiet
    | intro _
    | with_reducible apply Chip.reTicket_quiet
    | with_reducible apply Chip.startSample_quiet
    | split
    | (dsimp only [Safety.quiet, Rst.record, id])
    | exact hgq

theorem Chip.workFault_quiet (c : Chip) (m : Mem) (ticket : Nat) (p : Placed) (f : Option FrameRt) (hgq : Safety.quiet c = q0) :
    Safety.quiet (Chip.workFault c m ticket p f) = q0 := by
  unfold Chip.workFault
  try dsimp only
  repeat' first
    | with_reducible assumption
    | with_reducible apply foldl_quiet
    | with_reducible apply foldlM_quiet
    | intro _
    | with_reducible apply Chip.voidFrame_quiet
    | with_reducible apply Chip.sampleFault_quiet
    | split
    | (dsimp only [Safety.quiet, Rst.record, id])
    | exact hgq

theorem Chip.faultIncident_quiet (c : Chip) (n ctx status : Nat) (hgq : Safety.quiet c = q0) :
    Safety.quiet (Chip.faultIncident c n ctx status) = q0 := by
  unfold Chip.faultIncident
  try dsimp only
  repeat' first
    | with_reducible assumption
    | with_reducible apply foldl_quiet
    | with_reducible apply foldlM_quiet
    | intro _
    | with_reducible apply Chip.incident_quiet
    | split
    | (dsimp only [Safety.quiet, Rst.record, id])
    | exact hgq

theorem roleDone_quiet (r : OpRole) (c : Chip × Mem) (hgq : Safety.quiet c.1 = q0) :
    Safety.quiet (roleDone r c).1 = q0 := by
  unfold roleDone
  try dsimp only
  repeat' first
    | with_reducible assumption
    | with_reducible apply foldl_quiet
    | with_reducible apply foldlM_quiet
    | intro _
    | with_reducible apply Chip.updTicket_quiet
    | with_reducible apply Chip.startSample_quiet
    | with_reducible apply optimiser_quiet
    | with_reducible apply Chip.associated_quiet
    | split
    | (dsimp only [Safety.quiet, Rst.record, id])
    | exact hgq

/-! Submit -/

theorem Chip.tlp_quiet (c : Chip) (hgq : Safety.quiet c = q0) :
    Safety.quiet (Chip.tlp c) = q0 := by
  unfold Chip.tlp
  try dsimp only
  repeat' first
    | with_reducible assumption
    | with_reducible apply foldl_quiet
    | with_reducible apply foldlM_quiet
    | intro _
    | split
    | (dsimp only [Safety.quiet, Rst.record, id])
    | exact hgq

theorem Chip.refuseEntry_quiet (c : Chip) (g need : Nat) (e : List Byte) (status : Nat) (hgq : Safety.quiet c = q0) :
    Safety.quiet (Chip.refuseEntry c g need e status) = q0 := by
  unfold Chip.refuseEntry
  try dsimp only
  repeat' first
    | with_reducible assumption
    | with_reducible apply foldl_quiet
    | with_reducible apply foldlM_quiet
    | intro _
    | with_reducible apply Chip.answer_quiet
    | with_reducible apply Chip.accept_quiet
    | with_reducible apply Chip.unreserve_quiet
    | split
    | (dsimp only [Safety.quiet, Rst.record, id])
    | exact hgq

theorem submit_quiet (fn q op : Nat) (e : List Byte) (check : Nat) (f : Nat → Chip × Mem → Chip × Mem) (c : Chip × Mem) (hf : ∀ k d, Safety.quiet d.1 = q0 → Safety.quiet (f k d).1 = q0) (hgq : Safety.quiet c.1 = q0) :
    Safety.quiet (submit fn q op e check f c).1 = q0 := by
  unfold submit
  try dsimp only
  repeat' first
    | with_reducible assumption
    | with_reducible apply foldl_quiet
    | with_reducible apply foldlM_quiet
    | intro _
    | with_reducible apply Chip.refuseEntry_quiet
    | with_reducible apply hf
    | split
    | (dsimp only [Safety.quiet, Rst.record, id])
    | exact hgq

theorem Chip.resolve_quiet (c : Chip) (g : Nat) (e : List Byte) (d : HostRead) (hgq : Safety.quiet c = q0) :
    Safety.quiet (Chip.resolve c g e d) = q0 := by
  unfold Chip.resolve
  try dsimp only
  repeat' first
    | with_reducible assumption
    | with_reducible apply foldl_quiet
    | with_reducible apply foldlM_quiet
    | intro _
    | split
    | (dsimp only [Safety.quiet, Rst.record, id])
    | exact hgq

theorem nop_quiet (fn q : Nat) (e : List Byte) (c : Chip × Mem) (hgq : Safety.quiet c.1 = q0) :
    Safety.quiet (nop fn q e c).1 = q0 := by
  unfold nop
  try dsimp only
  repeat' first
    | with_reducible assumption
    | with_reducible apply foldl_quiet
    | with_reducible apply foldlM_quiet
    | intro _
    | with_reducible apply Chip.answer_quiet
    | with_reducible apply Chip.accept_quiet
    | with_reducible apply submit_quiet
    | split
    | (dsimp only [Safety.quiet, Rst.record, id])
    | exact hgq

theorem Chip.hankReleaseAll_quiet (c : Chip) (hs : List Nat) (hgq : Safety.quiet c = q0) :
    Safety.quiet (Chip.hankReleaseAll c hs) = q0 := by
  unfold Chip.hankReleaseAll
  try dsimp only
  repeat' first
    | with_reducible assumption
    | with_reducible apply foldl_quiet
    | with_reducible apply foldlM_quiet
    | intro _
    | split
    | (dsimp only [Safety.quiet, Rst.record, id])
    | exact hgq

theorem Chip.dropUnit_quiet (c : Chip) (g : Nat) (hgq : Safety.quiet c = q0) :
    Safety.quiet (Chip.dropUnit c g) = q0 := by
  unfold Chip.dropUnit
  try dsimp only
  repeat' first
    | with_reducible assumption
    | with_reducible apply foldl_quiet
    | with_reducible apply foldlM_quiet
    | intro _
    | with_reducible apply Chip.updQueue_quiet
    | with_reducible apply Chip.hankReleaseAll_quiet
    | split
    | (dsimp only [Safety.quiet, Rst.record, id])
    | exact hgq

theorem takePart_quiet (g need : Nat) (e : List Byte) (t : Ticket) (hs : List Nat) (pic : PicInfo) (c : Chip × Mem) (hgq : Safety.quiet c.1 = q0) :
    Safety.quiet (takePart g need e t hs pic c).1 = q0 := by
  unfold takePart
  try dsimp only
  repeat' first
    | with_reducible assumption
    | with_reducible apply foldl_quiet
    | with_reducible apply foldlM_quiet
    | intro _
    | with_reducible apply Chip.updQueue_quiet
    | with_reducible apply Chip.answer_quiet
    | with_reducible apply Chip.accept_quiet
    | with_reducible apply Chip.arriveUnit_quiet
    | with_reducible apply progress_quiet
    | split
    | (dsimp only [Safety.quiet, Rst.record, id])
    | exact hgq

theorem dataPart_quiet (g need : Nat) (e : List Byte) (t : Ticket) (d : HostRead) (pic : PicInfo) (c : Chip × Mem) (hgq : Safety.quiet c.1 = q0) :
    Safety.quiet (dataPart g need e t d pic c).1 = q0 := by
  unfold dataPart
  try dsimp only
  repeat' first
    | with_reducible assumption
    | with_reducible apply foldl_quiet
    | with_reducible apply foldlM_quiet
    | intro _
    | with_reducible apply Chip.wrote_quiet
    | with_reducible apply Chip.refuseEntry_quiet
    | with_reducible apply Chip.resolve_quiet
    | with_reducible apply Chip.dropUnit_quiet
    | with_reducible apply takePart_quiet
    | split
    | (dsimp only [Safety.quiet, Rst.record, id])
    | exact hgq

theorem handlePart_quiet (g need : Nat) (e : List Byte) (t : Ticket) (d : HostRead) (pic : PicInfo) (c : Chip × Mem) (hgq : Safety.quiet c.1 = q0) :
    Safety.quiet (handlePart g need e t d pic c).1 = q0 := by
  unfold handlePart
  try dsimp only
  repeat' first
    | with_reducible assumption
    | with_reducible apply foldl_quiet
    | with_reducible apply foldlM_quiet
    | intro _
    | with_reducible apply Chip.hankRefuse_quiet
    | with_reducible apply Chip.hankPass_quiet
    | with_reducible apply Chip.refuseEntry_quiet
    | with_reducible apply Chip.resolve_quiet
    | with_reducible apply Chip.dropUnit_quiet
    | with_reducible apply takePart_quiet
    | split
    | (dsimp only [Safety.quiet, Rst.record, id])
    | exact hgq

theorem frameEntry_quiet (fn : Nat) (e : List Byte) (d : HostRead) (pic : PicInfo) (g : Nat) (c : Chip × Mem) (hgq : Safety.quiet c.1 = q0) :
    Safety.quiet (frameEntry fn e d pic g c).1 = q0 := by
  unfold frameEntry
  try dsimp only
  repeat' first
    | with_reducible assumption
    | with_reducible apply foldl_quiet
    | with_reducible apply foldlM_quiet
    | intro _
    | with_reducible apply Chip.refuseEntry_quiet
    | with_reducible apply Chip.dropUnit_quiet
    | with_reducible apply dataPart_quiet
    | with_reducible apply handlePart_quiet
    | split
    | (dsimp only [Safety.quiet, Rst.record, id])
    | exact hgq

theorem accessOff_quiet (fn q op : Nat) (e : List Byte) (reads : Bool) (c : Chip × Mem) (hgq : Safety.quiet c.1 = q0) :
    Safety.quiet (accessOff fn q op e reads c).1 = q0 := by
  unfold accessOff
  try dsimp only
  repeat' first
    | with_reducible assumption
    | with_reducible apply foldl_quiet
    | with_reducible apply foldlM_quiet
    | intro _
    | with_reducible apply Chip.refuseEntry_quiet
    | with_reducible apply Chip.dropUnit_quiet
    | split
    | (dsimp only [Safety.quiet, Rst.record, id])
    | exact hgq

theorem frame_quiet (fn q : Nat) (e : List Byte) (d : HostRead) (pic : PicInfo) (c : Chip × Mem) (hgq : Safety.quiet c.1 = q0) :
    Safety.quiet (frame fn q e d pic c).1 = q0 := by
  unfold frame
  try dsimp only
  repeat' first
    | with_reducible assumption
    | with_reducible apply foldl_quiet
    | with_reducible apply foldlM_quiet
    | intro _
    | with_reducible apply submit_quiet
    | with_reducible apply frameEntry_quiet
    | with_reducible apply accessOff_quiet
    | split
    | (dsimp only [Safety.quiet, Rst.record, id])
    | exact hgq

theorem Chip.takeSample_quiet (c : Chip) (m : Mem) (t : Ticket) (d : List Byte) (pic : PicInfo) (reserved : Nat) (hgq : Safety.quiet c = q0) :
    Safety.quiet (Chip.takeSample c m t d pic reserved) = q0 := by
  unfold Chip.takeSample
  try dsimp only
  repeat' first
    | with_reducible assumption
    | with_reducible apply foldl_quiet
    | with_reducible apply foldlM_quiet
    | intro _
    | with_reducible apply Chip.updTicket_quiet
    | with_reducible apply Chip.giveBack_quiet
    | with_reducible apply Chip.startSample_quiet
    | with_reducible apply Chip.decodeSample_quiet
    | split
    | (dsimp only [Safety.quiet, Rst.record, id])
    | exact hgq

theorem sampleEntry_quiet (fn : Nat) (e : List Byte) (d : HostRead) (pic : PicInfo) (g : Nat) (c : Chip × Mem) (hgq : Safety.quiet c.1 = q0) :
    Safety.quiet (sampleEntry fn e d pic g c).1 = q0 := by
  unfold sampleEntry
  try dsimp only
  repeat' first
    | with_reducible assumption
    | with_reducible apply foldl_quiet
    | with_reducible apply foldlM_quiet
    | intro _
    | with_reducible apply Chip.answer_quiet
    | with_reducible apply Chip.accept_quiet
    | with_reducible apply progress_quiet
    | with_reducible apply Chip.refuseEntry_quiet
    | with_reducible apply Chip.resolve_quiet
    | with_reducible apply Chip.takeSample_quiet
    | split
    | (dsimp only [Safety.quiet, Rst.record, id])
    | exact hgq

theorem sample_quiet (fn q : Nat) (e : List Byte) (d : HostRead) (pic : PicInfo) (c : Chip × Mem) (hgq : Safety.quiet c.1 = q0) :
    Safety.quiet (sample fn q e d pic c).1 = q0 := by
  unfold sample
  try dsimp only
  repeat' first
    | with_reducible assumption
    | with_reducible apply foldl_quiet
    | with_reducible apply foldlM_quiet
    | intro _
    | with_reducible apply submit_quiet
    | with_reducible apply accessOff_quiet
    | with_reducible apply sampleEntry_quiet
    | split
    | (dsimp only [Safety.quiet, Rst.record, id])
    | exact hgq

theorem allocEntry_quiet (fn : Nat) (e : List Byte) (g : Nat) (c : Chip × Mem) (hgq : Safety.quiet c.1 = q0) :
    Safety.quiet (allocEntry fn e g c).1 = q0 := by
  unfold allocEntry
  try dsimp only
  repeat' first
    | with_reducible assumption
    | with_reducible apply foldl_quiet
    | with_reducible apply foldlM_quiet
    | intro _
    | with_reducible apply Chip.hostWrite_quiet
    | with_reducible apply Chip.answer_quiet
    | with_reducible apply Chip.accept_quiet
    | with_reducible apply Chip.refuseEntry_quiet
    | split
    | (dsimp only [Safety.quiet, Rst.record, id])
    | exact hgq

theorem alloc_quiet (fn q : Nat) (e : List Byte) (c : Chip × Mem) (hgq : Safety.quiet c.1 = q0) :
    Safety.quiet (alloc fn q e c).1 = q0 := by
  unfold alloc
  try dsimp only
  repeat' first
    | with_reducible assumption
    | with_reducible apply foldl_quiet
    | with_reducible apply foldlM_quiet
    | intro _
    | with_reducible apply submit_quiet
    | with_reducible apply allocEntry_quiet
    | split
    | (dsimp only [Safety.quiet, Rst.record, id])
    | exact hgq

theorem freeHandle_quiet (fn : Nat) (acc : Chip × Nat) (x : Nat) (hgq : Safety.quiet acc.1 = q0) :
    Safety.quiet (freeHandle fn acc x).1 = q0 := by
  unfold freeHandle
  split
  · exact Chip.freeNoHank_quiet _ _ _ hgq
  · exact Chip.hankFree_quiet _ _ _ hgq

theorem Chip.freeHandles_quiet (c : Chip) (fn n : Nat) (b : List Byte) (hgq : Safety.quiet c = q0) :
    Safety.quiet (c.freeHandles fn n b).1 = q0 := by
  unfold Chip.freeHandles
  generalize List.map _ _ = l
  suffices hs : ∀ a : Chip × Nat, Safety.quiet a.1 = q0 → Safety.quiet (l.foldl (freeHandle fn) a).1 = q0 from hs _ hgq
  induction l with
  | nil => exact fun _ h => h
  | cons x l ih => exact fun a h => ih _ (freeHandle_quiet _ _ _ h)

theorem freeEntry_quiet (fn : Nat) (e : List Byte) (d : HostRead) (g : Nat) (c : Chip × Mem) (hgq : Safety.quiet c.1 = q0) :
    Safety.quiet (freeEntry fn e d g c).1 = q0 := by
  unfold freeEntry
  try dsimp only
  repeat' first
    | with_reducible assumption
    | with_reducible apply foldl_quiet
    | with_reducible apply foldlM_quiet
    | intro _
    | with_reducible apply Chip.answer_quiet
    | with_reducible apply Chip.accept_quiet
    | with_reducible apply Chip.refuseEntry_quiet
    | with_reducible apply Chip.resolve_quiet
    | with_reducible apply Chip.freeHandles_quiet
    | split
    | (dsimp only [Safety.quiet, Rst.record, id])
    | exact hgq

theorem free_quiet (fn q : Nat) (e : List Byte) (d : HostRead) (c : Chip × Mem) (hgq : Safety.quiet c.1 = q0) :
    Safety.quiet (free fn q e d c).1 = q0 := by
  unfold free
  try dsimp only
  repeat' first
    | with_reducible assumption
    | with_reducible apply foldl_quiet
    | with_reducible apply foldlM_quiet
    | intro _
    | with_reducible apply submit_quiet
    | with_reducible apply accessOff_quiet
    | with_reducible apply freeEntry_quiet
    | split
    | (dsimp only [Safety.quiet, Rst.record, id])
    | exact hgq

theorem copyEntry_quiet (fn : Nat) (e : List Byte) (d : HostRead) (g : Nat) (c : Chip × Mem) (hgq : Safety.quiet c.1 = q0) :
    Safety.quiet (copyEntry fn e d g c).1 = q0 := by
  unfold copyEntry
  try dsimp only
  repeat' first
    | with_reducible assumption
    | with_reducible apply foldl_quiet
    | with_reducible apply foldlM_quiet
    | intro _
    | with_reducible apply Chip.hostWrite_quiet
    | with_reducible apply Chip.answer_quiet
    | with_reducible apply Chip.accept_quiet
    | with_reducible apply Chip.hbmFetch_quiet
    | with_reducible apply Chip.refuseEntry_quiet
    | with_reducible apply Chip.resolve_quiet
    | split
    | (dsimp only [Safety.quiet, Rst.record, id])
    | exact hgq

theorem copyOut_quiet (fn q : Nat) (e : List Byte) (d : HostRead) (c : Chip × Mem) (hgq : Safety.quiet c.1 = q0) :
    Safety.quiet (copyOut fn q e d c).1 = q0 := by
  unfold copyOut
  try dsimp only
  repeat' first
    | with_reducible assumption
    | with_reducible apply foldl_quiet
    | with_reducible apply foldlM_quiet
    | intro _
    | with_reducible apply submit_quiet
    | with_reducible apply accessOff_quiet
    | with_reducible apply copyEntry_quiet
    | split
    | (dsimp only [Safety.quiet, Rst.record, id])
    | exact hgq

theorem signalEntry_quiet (fn : Nat) (e : List Byte) (g : Nat) (c : Chip × Mem) (hgq : Safety.quiet c.1 = q0) :
    Safety.quiet (signalEntry fn e g c).1 = q0 := by
  unfold signalEntry
  try dsimp only
  repeat' first
    | with_reducible assumption
    | with_reducible apply foldl_quiet
    | with_reducible apply foldlM_quiet
    | intro _
    | with_reducible apply Chip.answer_quiet
    | with_reducible apply Chip.accept_quiet
    | with_reducible apply Chip.signalMap_quiet
    | with_reducible apply progress_quiet
    | with_reducible apply Chip.refuseEntry_quiet
    | split
    | (dsimp only [Safety.quiet, Rst.record, id])
    | exact hgq

theorem signal_quiet (fn q : Nat) (e : List Byte) (c : Chip × Mem) (hgq : Safety.quiet c.1 = q0) :
    Safety.quiet (signal fn q e c).1 = q0 := by
  unfold signal
  try dsimp only
  repeat' first
    | with_reducible assumption
    | with_reducible apply foldl_quiet
    | with_reducible apply foldlM_quiet
    | intro _
    | with_reducible apply submit_quiet
    | with_reducible apply signalEntry_quiet
    | split
    | (dsimp only [Safety.quiet, Rst.record, id])
    | exact hgq

theorem waitEntry_quiet (fn : Nat) (e : List Byte) (g : Nat) (c : Chip × Mem) (hgq : Safety.quiet c.1 = q0) :
    Safety.quiet (waitEntry fn e g c).1 = q0 := by
  unfold waitEntry
  try dsimp only
  repeat' first
    | with_reducible assumption
    | with_reducible apply foldl_quiet
    | with_reducible apply foldlM_quiet
    | intro _
    | with_reducible apply Chip.answer_quiet
    | with_reducible apply Chip.accept_quiet
    | with_reducible apply Chip.refuseEntry_quiet
    | split
    | (dsimp only [Safety.quiet, Rst.record, id])
    | exact hgq

theorem wait_quiet (fn q : Nat) (e : List Byte) (c : Chip × Mem) (hgq : Safety.quiet c.1 = q0) :
    Safety.quiet (wait fn q e c).1 = q0 := by
  unfold wait
  try dsimp only
  repeat' first
    | with_reducible assumption
    | with_reducible apply foldl_quiet
    | with_reducible apply foldlM_quiet
    | intro _
    | with_reducible apply submit_quiet
    | with_reducible apply waitEntry_quiet
    | split
    | (dsimp only [Safety.quiet, Rst.record, id])
    | exact hgq

theorem Chip.withTarget_quiet (c : Chip) (g v : Nat) (hgq : Safety.quiet c = q0) :
    Safety.quiet (Chip.withTarget c g v) = q0 := by
  unfold Chip.withTarget
  try dsimp only
  repeat' first
    | with_reducible assumption
    | with_reducible apply foldl_quiet
    | with_reducible apply foldlM_quiet
    | intro _
    | split
    | (dsimp only [Safety.quiet, Rst.record, id])
    | exact hgq

theorem Chip.setVector_quiet (c : Chip) (g v : Nat) (hgq : Safety.quiet c = q0) :
    Safety.quiet (Chip.setVector c g v) = q0 := by
  unfold Chip.setVector
  try dsimp only
  repeat' first
    | with_reducible assumption
    | with_reducible apply foldl_quiet
    | with_reducible apply foldlM_quiet
    | intro _
    | with_reducible apply Chip.updQueue_quiet
    | with_reducible apply Chip.withTarget_quiet
    | split
    | (dsimp only [Safety.quiet, Rst.record, id])
    | exact hgq

theorem Chip.fetchSq_quiet (c : Chip) (g : Nat) (hgq : Safety.quiet c = q0) :
    Safety.quiet (Chip.fetchSq c g) = q0 := by
  unfold Chip.fetchSq
  try dsimp only
  repeat' first
    | with_reducible assumption
    | with_reducible apply foldl_quiet
    | with_reducible apply foldlM_quiet
    | intro _
    | split
    | (dsimp only [Safety.quiet, Rst.record, id])
    | exact hgq

theorem Chip.queueResume_quiet (c : Chip) (g : Nat) (hgq : Safety.quiet c = q0) :
    Safety.quiet (Chip.queueResume c g) = q0 := by
  unfold Chip.queueResume
  try dsimp only
  repeat' first
    | with_reducible assumption
    | with_reducible apply foldl_quiet
    | with_reducible apply foldlM_quiet
    | intro _
    | with_reducible apply Chip.updQueue_quiet
    | with_reducible apply Chip.fetchSq_quiet
    | split
    | (dsimp only [Safety.quiet, Rst.record, id])
    | exact hgq

theorem Chip.queueEnable_quiet (c : Chip) (g v : Nat) (hgq : Safety.quiet c = q0) :
    Safety.quiet (Chip.queueEnable c g v) = q0 := by
  unfold Chip.queueEnable
  try dsimp only
  repeat' first
    | with_reducible assumption
    | with_reducible apply foldl_quiet
    | with_reducible apply foldlM_quiet
    | intro _
    | with_reducible apply Chip.updQueue_quiet
    | with_reducible apply Chip.regIncident_quiet
    | with_reducible apply Chip.setVector_quiet
    | with_reducible apply Chip.queueResume_quiet
    | split
    | (dsimp only [Safety.quiet, Rst.record, id])
    | exact hgq

theorem Chip.queueStop_quiet (c : Chip) (g : Nat) (hgq : Safety.quiet c = q0) :
    Safety.quiet (Chip.queueStop c g) = q0 := by
  unfold Chip.queueStop
  try dsimp only
  repeat' first
    | with_reducible assumption
    | with_reducible apply foldl_quiet
    | with_reducible apply foldlM_quiet
    | intro _
    | with_reducible apply Chip.updQueue_quiet
    | with_reducible apply Chip.dropUnit_quiet
    | split
    | (dsimp only [Safety.quiet, Rst.record, id])
    | exact hgq

theorem Chip.queueDisable_quiet (c : Chip) (g v : Nat) (hgq : Safety.quiet c = q0) :
    Safety.quiet (Chip.queueDisable c g v) = q0 := by
  unfold Chip.queueDisable
  try dsimp only
  repeat' first
    | with_reducible assumption
    | with_reducible apply foldl_quiet
    | with_reducible apply foldlM_quiet
    | intro _
    | with_reducible apply Chip.updQueue_quiet
    | with_reducible apply Chip.regIncident_quiet
    | with_reducible apply Chip.setVector_quiet
    | with_reducible apply Chip.queueResume_quiet
    | with_reducible apply Chip.queueStop_quiet
    | split
    | (dsimp only [Safety.quiet, Rst.record, id])
    | exact hgq

theorem Chip.qWrite_quiet (c : Chip) (fn q off : Nat) (f : Chip → Nat → Chip) (hf : ∀ d k, Safety.quiet d = q0 → Safety.quiet (f d k) = q0) (hgq : Safety.quiet c = q0) :
    Safety.quiet (c.qWrite fn q off f) = q0 := by
  unfold Chip.qWrite
  split
  · split
    · exact Chip.regIncident_quiet _ _ _ (Chip.tlp_quiet _ hgq)
    · exact hf _ _ (Chip.tlp_quiet _ hgq)
  · exact hgq

theorem Chip.sqTail_quiet (c : Chip) (g v : Nat) (hgq : Safety.quiet c = q0) :
    Safety.quiet (Chip.sqTail c g v) = q0 := by
  unfold Chip.sqTail
  try dsimp only
  repeat' first
    | with_reducible assumption
    | with_reducible apply foldl_quiet
    | with_reducible apply foldlM_quiet
    | intro _
    | with_reducible apply Chip.updQueue_quiet
    | with_reducible apply Chip.fetchSq_quiet
    | split
    | (dsimp only [Safety.quiet, Rst.record, id])
    | exact hgq

theorem Chip.queueSeen_quiet (c : Chip) (g : Nat) (hgq : Safety.quiet c = q0) :
    Safety.quiet (Chip.queueSeen c g) = q0 := by
  unfold Chip.queueSeen
  try dsimp only
  repeat' first
    | with_reducible assumption
    | with_reducible apply foldl_quiet
    | with_reducible apply foldlM_quiet
    | intro _
    | split
    | (dsimp only [Safety.quiet, Rst.record, id])
    | exact hgq

theorem Chip.cqHead_quiet (c : Chip) (g v : Nat) (hgq : Safety.quiet c = q0) :
    Safety.quiet (Chip.cqHead c g v) = q0 := by
  unfold Chip.cqHead
  try dsimp only
  repeat' first
    | with_reducible assumption
    | with_reducible apply foldl_quiet
    | with_reducible apply foldlM_quiet
    | intro _
    | with_reducible apply Chip.updQueue_quiet
    | with_reducible apply Chip.regIncident_quiet
    | with_reducible apply Chip.queueSeen_quiet
    | split
    | (dsimp only [Safety.quiet, Rst.record, id])
    | exact hgq

theorem cqHead_quiet (fn q v : Nat) (c : Chip × Mem) (hgq : Safety.quiet c.1 = q0) :
    Safety.quiet (cqHead fn q v c).1 = q0 := by
  unfold cqHead
  try dsimp only
  repeat' first
    | with_reducible assumption
    | with_reducible apply foldl_quiet
    | with_reducible apply foldlM_quiet
    | intro _
    | with_reducible apply progressAll_quiet
    | with_reducible apply Chip.qWrite_quiet
    | with_reducible apply Chip.cqHead_quiet
    | split
    | (dsimp only [Safety.quiet, Rst.record, id])
    | exact hgq

/-! HostLink -/

theorem Chip.dropAsk_quiet (c : Chip) (fn : Nat) (hgq : Safety.quiet c = q0) :
    Safety.quiet (Chip.dropAsk c fn) = q0 := by
  unfold Chip.dropAsk
  try dsimp only
  repeat' first
    | with_reducible assumption
    | with_reducible apply foldl_quiet
    | with_reducible apply foldlM_quiet
    | intro _
    | split
    | (dsimp only [Safety.quiet, Rst.record, id])
    | exact hgq

theorem Chip.readFailed_quiet (c : Chip) (p : ReadFor) (hgq : Safety.quiet c = q0) :
    Safety.quiet (Chip.readFailed c p) = q0 := by
  unfold Chip.readFailed
  repeat' first
      | with_reducible assumption
      | intro _
      | with_reducible apply Chip.updQueue_quiet
      | with_reducible apply Chip.nextAsk_quiet
      | with_reducible apply Chip.dropAsk_quiet
      | split
      | (dsimp only [Safety.quiet, Rst.record, id])
      | exact hgq

theorem Chip.freeTag_quiet (c : Chip) (tag : Nat) (hgq : Safety.quiet c = q0) :
    Safety.quiet (Chip.freeTag c tag) = q0 := by
  unfold Chip.freeTag
  try dsimp only
  repeat' first
    | with_reducible assumption
    | with_reducible apply foldl_quiet
    | with_reducible apply foldlM_quiet
    | intro _
    | split
    | (dsimp only [Safety.quiet, Rst.record, id])
    | exact hgq

theorem Chip.unexpected_quiet (c : Chip) (hgq : Safety.quiet c = q0) :
    Safety.quiet (Chip.unexpected c) = q0 := by
  unfold Chip.unexpected
  try dsimp only
  repeat' first
    | with_reducible assumption
    | with_reducible apply foldl_quiet
    | with_reducible apply foldlM_quiet
    | intro _
    | split
    | (dsimp only [Safety.quiet, Rst.record, id])
    | exact hgq

theorem Chip.fetched_quiet (c : Chip) (p : ReadFor) (hgq : Safety.quiet c = q0) :
    Safety.quiet (Chip.fetched c p) = q0 := by
  unfold Chip.fetched
  repeat' first
      | with_reducible assumption
      | intro _
      | with_reducible apply Chip.updQueue_quiet
      | split
      | (dsimp only [Safety.quiet, Rst.record, id])
      | exact hgq

theorem Chip.completion_quiet (c : Chip) (tag : Nat) (st : CplStatus) (hgq : Safety.quiet c = q0) :
    Safety.quiet (Chip.completion c tag st) = q0 := by
  unfold Chip.completion
  try dsimp only
  repeat' first
    | with_reducible assumption
    | with_reducible apply foldl_quiet
    | with_reducible apply foldlM_quiet
    | intro _
    | with_reducible apply Chip.readFailed_quiet
    | with_reducible apply Chip.freeTag_quiet
    | with_reducible apply Chip.unexpected_quiet
    | with_reducible apply Chip.fetched_quiet
    | split
    | (dsimp only [Safety.quiet, Rst.record, id])
    | exact hgq

theorem Chip.busMasterOff_quiet (c : Chip) (fn : Nat) (hgq : Safety.quiet c = q0) :
    Safety.quiet (Chip.busMasterOff c fn) = q0 := by
  unfold Chip.busMasterOff
  try dsimp only
  repeat' first
    | with_reducible assumption
    | with_reducible apply foldl_quiet
    | with_reducible apply foldlM_quiet
    | intro _
    | with_reducible apply Chip.nextAsk_quiet
    | with_reducible apply Chip.dropAsk_quiet
    | split
    | (dsimp only [Safety.quiet, Rst.record, id])
    | exact hgq

theorem Chip.writeHeld_quiet (c : Chip) (e : Nat × CqRec) (hgq : Safety.quiet c = q0) :
    Safety.quiet (Chip.writeHeld c e) = q0 := by
  unfold Chip.writeHeld
  try dsimp only
  repeat' first
    | with_reducible assumption
    | with_reducible apply foldl_quiet
    | with_reducible apply foldlM_quiet
    | intro _
    | with_reducible apply Chip.updQueue_quiet
    | with_reducible apply Chip.cqPut_quiet
    | split
    | (dsimp only [Safety.quiet, Rst.record, id])
    | exact hgq

theorem Chip.busMasterOn_quiet (c : Chip) (fn : Nat) (hgq : Safety.quiet c = q0) :
    Safety.quiet (Chip.busMasterOn c fn) = q0 := by
  unfold Chip.busMasterOn
  try dsimp only
  repeat' first
    | with_reducible assumption
    | with_reducible apply foldl_quiet
    | with_reducible apply foldlM_quiet
    | intro _
    | with_reducible apply Chip.hostWrite_quiet
    | with_reducible apply Chip.answered_quiet
    | with_reducible apply flush_quiet
    | with_reducible apply Chip.fetchSq_quiet
    | with_reducible apply Chip.writeHeld_quiet
    | split
    | (dsimp only [Safety.quiet, Rst.record, id])
    | exact hgq

theorem busMasterOn_quiet (fn : Nat) (c : Chip × Mem) (hgq : Safety.quiet c.1 = q0) :
    Safety.quiet (busMasterOn fn c).1 = q0 := by
  unfold busMasterOn
  try dsimp only
  repeat' first
    | with_reducible assumption
    | with_reducible apply foldl_quiet
    | with_reducible apply foldlM_quiet
    | intro _
    | with_reducible apply progressAll_quiet
    | with_reducible apply Chip.busMasterOn_quiet
    | split
    | (dsimp only [Safety.quiet, Rst.record, id])
    | exact hgq

theorem Chip.forgetLead_quiet (c : Chip) (l : GarmentLead) (hgq : Safety.quiet c = q0) :
    Safety.quiet (Chip.forgetLead c l) = q0 := by
  unfold Chip.forgetLead
  try dsimp only
  repeat' first
    | with_reducible assumption
    | with_reducible apply foldl_quiet
    | with_reducible apply foldlM_quiet
    | intro _
    | with_reducible apply Chip.releaseMarkers_quiet
    | with_reducible apply Chip.tellAll_quiet
    | with_reducible apply Chip.dropLead_quiet
    | split
    | (dsimp only [Safety.quiet, Rst.record, id])
    | exact hgq

theorem endFnTicket_quiet (c : Chip × Mem) (t : Ticket) (hgq : Safety.quiet c.1 = q0) :
    Safety.quiet (endFnTicket c t).1 = q0 := by
  unfold endFnTicket
  try dsimp only
  repeat' first
    | with_reducible assumption
    | with_reducible apply foldl_quiet
    | with_reducible apply foldlM_quiet
    | intro _
    | with_reducible apply closeTicket_quiet
    | with_reducible apply abortGarment_quiet
    | split
    | (dsimp only [Safety.quiet, Rst.record, id])
    | exact hgq

theorem endFunction_quiet (c : Chip × Mem) (fn : Nat) (hgq : Safety.quiet c.1 = q0) :
    Safety.quiet (endFunction c fn).1 = q0 := by
  unfold endFunction
  try dsimp only
  repeat' first
    | with_reducible assumption
    | with_reducible apply foldl_quiet
    | with_reducible apply foldlM_quiet
    | intro _
    | with_reducible apply Chip.forgetLead_quiet
    | with_reducible apply endFnTicket_quiet
    | split
    | (dsimp only [Safety.quiet, Rst.record, id])
    | exact hgq

theorem Chip.resetFn_quiet (c : Chip) (fn : Nat) (hgq : Safety.quiet c = q0) :
    Safety.quiet (Chip.resetFn c fn) = q0 := by
  unfold Chip.resetFn
  try dsimp only
  repeat' first
    | with_reducible assumption
    | with_reducible apply foldl_quiet
    | with_reducible apply foldlM_quiet
    | intro _
    | with_reducible apply Chip.nextAsk_quiet
    | split
    | (dsimp only [Safety.quiet, Rst.record, id])
    | exact hgq

theorem Chip.removeFn_quiet (c : Chip) (fn : Nat) (hgq : Safety.quiet c = q0) :
    Safety.quiet (Chip.removeFn c fn) = q0 := by
  unfold Chip.removeFn
  try dsimp only
  repeat' first
    | with_reducible assumption
    | with_reducible apply foldl_quiet
    | with_reducible apply foldlM_quiet
    | intro _
    | split
    | (dsimp only [Safety.quiet, Rst.record, id])
    | exact hgq

theorem resetFns_quiet (fns gone : List Nat) (f : Chip → Chip) (c : Chip × Mem) (hf : ∀ d, Safety.quiet d = q0 → Safety.quiet (f d) = q0) (hgq : Safety.quiet c.1 = q0) :
    Safety.quiet (resetFns fns gone f c).1 = q0 := by
  unfold resetFns
  try dsimp only
  repeat' first
    | with_reducible assumption
    | with_reducible apply foldl_quiet
    | with_reducible apply foldlM_quiet
    | intro _
    | with_reducible apply progressEach_quiet
    | with_reducible apply endFunction_quiet
    | with_reducible apply Chip.resetFn_quiet
    | with_reducible apply Chip.removeFn_quiet
    | with_reducible apply hf
    | split
    | (dsimp only [Safety.quiet, Rst.record, id])
    | exact hgq

theorem functionReset_quiet (fn : Nat) (c : Chip × Mem) (hgq : Safety.quiet c.1 = q0) :
    Safety.quiet (functionReset fn c).1 = q0 := by
  unfold functionReset
  try dsimp only
  repeat' first
    | with_reducible assumption
    | with_reducible apply foldl_quiet
    | with_reducible apply foldlM_quiet
    | intro _
    | with_reducible apply resetFns_quiet
    | split
    | (dsimp only [Safety.quiet, Rst.record, id])
    | exact hgq

theorem hotReset_quiet (c : Chip × Mem) (hgq : Safety.quiet c.1 = q0) :
    Safety.quiet (hotReset c).1 = q0 := by
  unfold hotReset
  try dsimp only
  repeat' first
    | with_reducible assumption
    | with_reducible apply foldl_quiet
    | with_reducible apply foldlM_quiet
    | intro _
    | with_reducible apply resetFns_quiet
    | split
    | (dsimp only [Safety.quiet, Rst.record, id])
    | exact hgq

theorem vfClear_quiet (c : Chip × Mem) (hgq : Safety.quiet c.1 = q0) :
    Safety.quiet (vfClear c).1 = q0 := by
  unfold vfClear
  try dsimp only
  repeat' first
    | with_reducible assumption
    | with_reducible apply foldl_quiet
    | with_reducible apply foldlM_quiet
    | intro _
    | with_reducible apply resetFns_quiet
    | split
    | (dsimp only [Safety.quiet, Rst.record, id])
    | exact hgq

theorem vfLower_quiet (n : Nat) (c : Chip × Mem) (hgq : Safety.quiet c.1 = q0) :
    Safety.quiet (vfLower n c).1 = q0 := by
  unfold vfLower
  try dsimp only
  repeat' first
    | with_reducible assumption
    | with_reducible apply foldl_quiet
    | with_reducible apply foldlM_quiet
    | intro _
    | with_reducible apply resetFns_quiet
    | split
    | (dsimp only [Safety.quiet, Rst.record, id])
    | exact hgq

theorem Chip.vfSet_quiet (c : Chip) (n : Nat) (hgq : Safety.quiet c = q0) :
    Safety.quiet (Chip.vfSet c n) = q0 := by
  unfold Chip.vfSet
  try dsimp only
  repeat' first
    | with_reducible assumption
    | with_reducible apply foldl_quiet
    | with_reducible apply foldlM_quiet
    | intro _
    | split
    | (dsimp only [Safety.quiet, Rst.record, id])
    | exact hgq

theorem Chip.l1Entry_quiet (c : Chip) (hgq : Safety.quiet c = q0) :
    Safety.quiet (Chip.l1Entry c) = q0 := by
  unfold Chip.l1Entry
  try dsimp only
  repeat' first
    | with_reducible assumption
    | with_reducible apply foldl_quiet
    | with_reducible apply foldlM_quiet
    | intro _
    | split
    | (dsimp only [Safety.quiet, Rst.record, id])
    | exact hgq

theorem Chip.linkUp_quiet (c : Chip) (speed width : Nat) (hgq : Safety.quiet c = q0) :
    Safety.quiet (Chip.linkUp c speed width) = q0 := by
  unfold Chip.linkUp
  try dsimp only
  repeat' first
    | with_reducible assumption
    | with_reducible apply foldl_quiet
    | with_reducible apply foldlM_quiet
    | intro _
    | split
    | (dsimp only [Safety.quiet, Rst.record, id])
    | exact hgq

theorem Chip.barDropped_quiet (c : Chip) (fn handle : Nat) (op : Bar2Op) (hgq : Safety.quiet c = q0) :
    Safety.quiet (Chip.barDropped c fn handle op) = q0 := by
  unfold Chip.barDropped
  try dsimp only
  repeat' first
    | with_reducible assumption
    | with_reducible apply foldl_quiet
    | with_reducible apply foldlM_quiet
    | intro _
    | with_reducible apply Chip.incident_quiet
    | split
    | (dsimp only [Safety.quiet, Rst.record, id])
    | exact hgq

theorem barAccess_quiet (a room : Nat) (op : Bar2Op) (c : Chip × Mem) (hgq : Safety.quiet c.1 = q0) :
    Safety.quiet (barAccess a room op c).1 = q0 := by
  unfold barAccess
  try dsimp only
  repeat' first
    | with_reducible assumption
    | with_reducible apply foldl_quiet
    | with_reducible apply foldlM_quiet
    | intro _
    | with_reducible apply Chip.hbmWrote_quiet
    | with_reducible apply Chip.hbmFetch_quiet
    | split
    | (dsimp only [Safety.quiet, Rst.record, id])
    | exact hgq

theorem bar2_quiet (fn handle offset : Nat) (op : Bar2Op) (c : Chip × Mem) (hgq : Safety.quiet c.1 = q0) :
    Safety.quiet (bar2 fn handle offset op c).1 = q0 := by
  unfold bar2
  try dsimp only
  repeat' first
    | with_reducible assumption
    | with_reducible apply foldl_quiet
    | with_reducible apply foldlM_quiet
    | intro _
    | with_reducible apply Chip.tlp_quiet
    | with_reducible apply Chip.barDropped_quiet
    | with_reducible apply barAccess_quiet
    | split
    | (dsimp only [Safety.quiet, Rst.record, id])
    | exact hgq

/-! Round -/

theorem Chip.ackFrame_quiet (c : Chip) (f : RFrame) (code v : Nat) (hgq : Safety.quiet c = q0) :
    Safety.quiet (Chip.ackFrame c f code v) = q0 := by
  unfold Chip.ackFrame
  try dsimp only
  repeat' first
    | with_reducible assumption
    | with_reducible apply foldl_quiet
    | with_reducible apply foldlM_quiet
    | intro _
    | split
    | (dsimp only [Safety.quiet, Rst.record, id])
    | exact hgq

theorem Chip.openXfer_quiet (c : Chip) (f : RFrame) (ticket : Nat) (hgq : Safety.quiet c = q0) :
    Safety.quiet (c.openXfer f ticket).1 = q0 := by
  unfold Chip.openXfer
  split
  · exact hgq
  · split <;> exact hgq

theorem Chip.reserveSample_quiet (c : Chip) (t : Ticket) (hgq : Safety.quiet c = q0) :
    Safety.quiet (Chip.reserveSample c t) = q0 := by
  unfold Chip.reserveSample
  try dsimp only
  repeat' first
    | with_reducible assumption
    | with_reducible apply foldl_quiet
    | with_reducible apply foldlM_quiet
    | intro _
    | with_reducible apply Chip.updQueue_quiet
    | split
    | (dsimp only [Safety.quiet, Rst.record, id])
    | exact hgq

theorem xferArrived_quiet (t : Ticket) (f : RFrame) (x : XferIn) (c : Chip × Mem) (hgq : Safety.quiet c.1 = q0) :
    Safety.quiet (xferArrived t f x c).1 = q0 := by
  unfold xferArrived
  try dsimp only
  repeat' first
    | with_reducible assumption
    | with_reducible apply foldl_quiet
    | with_reducible apply foldlM_quiet
    | intro _
    | with_reducible apply Chip.arriveUnit_quiet
    | with_reducible apply Chip.freeHanks_quiet
    | with_reducible apply Chip.takeSample_quiet
    | with_reducible apply Chip.reserveSample_quiet
    | split
    | (dsimp only [Safety.quiet, Rst.record, id])
    | exact hgq

theorem streamData_quiet (t : Ticket) (f : RFrame) (c : Chip × Mem) (hgq : Safety.quiet c.1 = q0) :
    Safety.quiet (streamData t f c).1 = q0 := by
  unfold streamData
  try dsimp only
  repeat' first
    | with_reducible assumption
    | with_reducible apply foldl_quiet
    | with_reducible apply foldlM_quiet
    | intro _
    | with_reducible apply Chip.wrote_quiet
    | with_reducible apply progress_quiet
    | with_reducible apply alloc_quiet
    | with_reducible apply Chip.ackFrame_quiet
    | with_reducible apply Chip.openXfer_quiet
    | with_reducible apply xferArrived_quiet
    | split
    | (dsimp only [Safety.quiet, Rst.record, id])
    | exact hgq

theorem regionData_quiet (f : RFrame) (c : Chip × Mem) (hgq : Safety.quiet c.1 = q0) :
    Safety.quiet (regionData f c).1 = q0 := by
  unfold regionData
  try dsimp only
  repeat' first
    | with_reducible assumption
    | with_reducible apply foldl_quiet
    | with_reducible apply foldlM_quiet
    | intro _
    | with_reducible apply Chip.incident_quiet
    | with_reducible apply Chip.hbmWrote_quiet
    | with_reducible apply Chip.ackFrame_quiet
    | with_reducible apply Chip.openXfer_quiet
    | split
    | (dsimp only [Safety.quiet, Rst.record, id])
    | exact hgq

theorem Chip.fillData_quiet (c : Chip) (x : Fill) (f : RFrame) (hgq : Safety.quiet c = q0) :
    Safety.quiet (Chip.fillData c x f) = q0 := by
  unfold Chip.fillData
  try dsimp only
  repeat' first
    | with_reducible assumption
    | with_reducible apply foldl_quiet
    | with_reducible apply foldlM_quiet
    | intro _
    | with_reducible apply Chip.note_quiet
    | with_reducible apply Chip.ackFrame_quiet
    | split
    | (dsimp only [Safety.quiet, Rst.record, id])
    | exact hgq

theorem dataIn_quiet (f : RFrame) (c : Chip × Mem) (hgq : Safety.quiet c.1 = q0) :
    Safety.quiet (dataIn f c).1 = q0 := by
  unfold dataIn
  try dsimp only
  repeat' first
    | with_reducible assumption
    | with_reducible apply foldl_quiet
    | with_reducible apply foldlM_quiet
    | intro _
    | with_reducible apply streamData_quiet
    | with_reducible apply regionData_quiet
    | with_reducible apply Chip.fillData_quiet
    | split
    | (dsimp only [Safety.quiet, Rst.record, id])
    | exact hgq

theorem received_quiet (p : Port) (f : RFrame) (g : Chip × Mem → Chip × Mem) (c : Chip × Mem) (hg : ∀ d, Safety.quiet d.1 = q0 → Safety.quiet (g d).1 = q0) (hgq : Safety.quiet c.1 = q0) :
    Safety.quiet (received p f g c).1 = q0 := by
  unfold received
  try dsimp only
  repeat' first
    | with_reducible assumption
    | with_reducible apply foldl_quiet
    | with_reducible apply foldlM_quiet
    | intro _
    | with_reducible apply hg
    | split
    | (dsimp only [Safety.quiet, Rst.record, id])
    | exact hgq

theorem typed_quiet (type : Nat) (p : Port) (f : RFrame) (g : Chip × Mem → Chip × Mem) (c : Chip × Mem) (hg : ∀ d, Safety.quiet d.1 = q0 → Safety.quiet (g d).1 = q0) (hgq : Safety.quiet c.1 = q0) :
    Safety.quiet (typed type p f g c).1 = q0 := by
  unfold typed
  try dsimp only
  repeat' first
    | with_reducible assumption
    | with_reducible apply foldl_quiet
    | with_reducible apply foldlM_quiet
    | intro _
    | with_reducible apply received_quiet
    | with_reducible apply hg
    | split
    | (dsimp only [Safety.quiet, Rst.record, id])
    | exact hgq

theorem fetchIn_quiet (f : RFrame) (c : Chip × Mem) (hgq : Safety.quiet c.1 = q0) :
    Safety.quiet (fetchIn f c).1 = q0 := by
  unfold fetchIn
  try dsimp only
  repeat' first
    | with_reducible assumption
    | with_reducible apply foldl_quiet
    | with_reducible apply foldlM_quiet
    | intro _
    | with_reducible apply Chip.hbmFetch_quiet
    | split
    | (dsimp only [Safety.quiet, Rst.record, id])
    | exact hgq

theorem Chip.runDiscovery_quiet (c : Chip) (hgq : Safety.quiet c = q0) :
    Safety.quiet (Chip.runDiscovery c) = q0 := by
  unfold Chip.runDiscovery
  try dsimp only
  repeat' first
    | with_reducible assumption
    | with_reducible apply foldl_quiet
    | with_reducible apply foldlM_quiet
    | intro _
    | split
    | (dsimp only [Safety.quiet, Rst.record, id])
    | exact hgq

theorem settleRoutes_quiet (c : Chip × Mem) (hgq : Safety.quiet c.1 = q0) :
    Safety.quiet (settleRoutes c).1 = q0 := by
  unfold settleRoutes
  try dsimp only
  repeat' first
    | with_reducible assumption
    | with_reducible apply foldl_quiet
    | with_reducible apply foldlM_quiet
    | intro _
    | with_reducible apply Chip.rebook_quiet
    | with_reducible apply abortBroken_quiet
    | split
    | (dsimp only [Safety.quiet, Rst.record, id])
    | exact hgq

theorem Chip.sameId_quiet (c : Chip) (serial : Nat) (hgq : Safety.quiet c = q0) :
    Safety.quiet (Chip.sameId c serial) = q0 := by
  unfold Chip.sameId
  try dsimp only
  repeat' first
    | with_reducible assumption
    | with_reducible apply foldl_quiet
    | with_reducible apply foldlM_quiet
    | intro _
    | with_reducible apply Chip.alarm_quiet
    | split
    | (dsimp only [Safety.quiet, Rst.record, id])
    | exact hgq

theorem Chip.discovered_quiet (c : Chip) (p : Port) (f : RFrame) (hgq : Safety.quiet c = q0) :
    Safety.quiet (Chip.discovered c p f) = q0 := by
  unfold Chip.discovered
  try dsimp only
  repeat' first
    | with_reducible assumption
    | with_reducible apply foldl_quiet
    | with_reducible apply foldlM_quiet
    | intro _
    | with_reducible apply Chip.rebook_quiet
    | with_reducible apply Chip.sameId_quiet
    | split
    | (dsimp only [Safety.quiet, Rst.record, id])
    | exact hgq

theorem markerIn_quiet (f : RFrame) (c : Chip × Mem) (hgq : Safety.quiet c.1 = q0) :
    Safety.quiet (markerIn f c).1 = q0 := by
  unfold markerIn
  try dsimp only
  repeat' first
    | with_reducible assumption
    | with_reducible apply foldl_quiet
    | with_reducible apply foldlM_quiet
    | intro _
    | with_reducible apply Chip.signal_quiet
    | with_reducible apply progress_quiet
    | with_reducible apply signal_quiet
    | split
    | (dsimp only [Safety.quiet, Rst.record, id])
    | exact hgq

theorem Chip.alarmIn_quiet (c : Chip) (f : RFrame) (hgq : Safety.quiet c = q0) :
    Safety.quiet (Chip.alarmIn c f) = q0 := by
  unfold Chip.alarmIn
  try dsimp only
  repeat' first
    | with_reducible assumption
    | with_reducible apply foldl_quiet
    | with_reducible apply foldlM_quiet
    | intro _
    | with_reducible apply Chip.edge_quiet
    | split
    | (dsimp only [Safety.quiet, Rst.record, id])
    | exact hgq

theorem Chip.summaryIn_quiet (c : Chip) (f : RFrame) (hgq : Safety.quiet c = q0) :
    Safety.quiet (Chip.summaryIn c f) = q0 := by
  unfold Chip.summaryIn
  try dsimp only
  repeat' first
    | with_reducible assumption
    | with_reducible apply foldl_quiet
    | with_reducible apply foldlM_quiet
    | intro _
    | with_reducible apply Chip.edge_quiet
    | split
    | (dsimp only [Safety.quiet, Rst.record, id])
    | exact hgq

theorem ringIn_quiet (f : RFrame) (c : Chip × Mem) (hgq : Safety.quiet c.1 = q0) :
    Safety.quiet (ringIn f c).1 = q0 := by
  unfold ringIn
  try dsimp only
  repeat' first
    | with_reducible assumption
    | with_reducible apply foldl_quiet
    | with_reducible apply foldlM_quiet
    | intro _
    | with_reducible apply Chip.incident_quiet
    | with_reducible apply Chip.runDiscovery_quiet
    | with_reducible apply settleRoutes_quiet
    | split
    | (dsimp only [Safety.quiet, Rst.record, id])
    | exact hgq

theorem applyControl_quiet (f : RFrame) (c : Chip × Mem) (hgq : Safety.quiet c.1 = q0) :
    Safety.quiet (applyControl f c).1 = q0 := by
  unfold applyControl
  try dsimp only
  repeat' first
    | with_reducible assumption
    | with_reducible apply foldl_quiet
    | with_reducible apply foldlM_quiet
    | intro _
    | with_reducible apply Chip.reserveAsk_quiet
    | with_reducible apply Chip.gCommit_quiet
    | with_reducible apply gRelease_quiet
    | with_reducible apply gBindOff_quiet
    | with_reducible apply gAnswer_quiet
    | with_reducible apply gAbort_quiet
    | with_reducible apply markerIn_quiet
    | with_reducible apply Chip.alarmIn_quiet
    | with_reducible apply Chip.summaryIn_quiet
    | with_reducible apply ringIn_quiet
    | split
    | (dsimp only [Safety.quiet, Rst.record, id])
    | exact hgq

theorem Chip.updEseq_quiet (c : Chip) (k : Nat) (g : Eseq → Eseq) (hgq : Safety.quiet c = q0) :
    Safety.quiet (Chip.updEseq c k g) = q0 := by
  unfold Chip.updEseq
  try dsimp only
  repeat' first
    | with_reducible assumption
    | with_reducible apply foldl_quiet
    | with_reducible apply foldlM_quiet
    | intro _
    | split
    | (dsimp only [Safety.quiet, Rst.record, id])
    | exact hgq

theorem drainHeld_quiet (src : Nat) (k : Nat) (c : Chip × Mem) (hgq : Safety.quiet c.1 = q0) :
    Safety.quiet (drainHeld src k c).1 = q0 := by
  induction k generalizing c with
  | zero => exact hgq
  | succ k ih =>
    unfold drainHeld
    try dsimp only
    repeat' first
      | with_reducible assumption
      | with_reducible apply foldl_quiet
      | with_reducible apply foldlM_quiet
      | with_reducible apply ih
      | intro _
      | with_reducible apply applyControl_quiet
      | with_reducible apply Chip.updEseq_quiet
      | (with_reducible refine commitRecs_quiet _ _ ?_ _ (by assumption))
      | (with_reducible refine commitHead_quiet _ _ ?_ _ (by assumption))
      | (with_reducible refine commitSkip_quiet _ _ ?_ _ (by assumption))
      | (with_reducible refine Chip.passOne_quiet _ _ ?_ _ (by assumption))
      | split
      | (dsimp only [Safety.quiet, Rst.record, id])
      | exact hgq

theorem controlIn_quiet (f : RFrame) (c : Chip × Mem) (hgq : Safety.quiet c.1 = q0) :
    Safety.quiet (controlIn f c).1 = q0 := by
  unfold controlIn
  try dsimp only
  repeat' first
    | with_reducible assumption
    | with_reducible apply foldl_quiet
    | with_reducible apply foldlM_quiet
    | intro _
    | with_reducible apply Chip.ackFrame_quiet
    | with_reducible apply applyControl_quiet
    | with_reducible apply Chip.updEseq_quiet
    | with_reducible apply drainHeld_quiet
    | split
    | (dsimp only [Safety.quiet, Rst.record, id])
    | exact hgq

theorem control_quiet (code : Nat) (p : Port) (f : RFrame) (g : Chip × Mem → Chip × Mem) (c : Chip × Mem) (hg : ∀ d, Safety.quiet d.1 = q0 → Safety.quiet (g d).1 = q0) (hgq : Safety.quiet c.1 = q0) :
    Safety.quiet (control code p f g c).1 = q0 := by
  unfold control
  try dsimp only
  repeat' first
    | with_reducible assumption
    | with_reducible apply foldl_quiet
    | with_reducible apply foldlM_quiet
    | intro _
    | with_reducible apply typed_quiet
    | with_reducible apply hg
    | split
    | (dsimp only [Safety.quiet, Rst.record, id])
    | exact hgq

theorem Chip.freeXfer_quiet (c : Chip) (x : XferOut) (hgq : Safety.quiet c = q0) :
    Safety.quiet (Chip.freeXfer c x) = q0 := by
  unfold Chip.freeXfer
  try dsimp only
  repeat' first
    | with_reducible assumption
    | with_reducible apply foldl_quiet
    | with_reducible apply foldlM_quiet
    | intro _
    | split
    | (dsimp only [Safety.quiet, Rst.record, id])
    | exact hgq

theorem endXfer_quiet (x : XferOut) (c : Chip × Mem) (hgq : Safety.quiet c.1 = q0) :
    Safety.quiet (endXfer x c).1 = q0 := by
  unfold endXfer
  try dsimp only
  repeat' first
    | with_reducible assumption
    | with_reducible apply foldl_quiet
    | with_reducible apply foldlM_quiet
    | intro _
    | with_reducible apply progress_quiet
    | with_reducible apply Chip.freeXfer_quiet
    | split
    | (dsimp only [Safety.quiet, Rst.record, id])
    | exact hgq

theorem xferAckIn_quiet (f : RFrame) (c : Chip × Mem) (hgq : Safety.quiet c.1 = q0) :
    Safety.quiet (xferAckIn f c).1 = q0 := by
  unfold xferAckIn
  try dsimp only
  repeat' first
    | with_reducible assumption
    | with_reducible apply foldl_quiet
    | with_reducible apply foldlM_quiet
    | intro _
    | with_reducible apply endXfer_quiet
    | split
    | (dsimp only [Safety.quiet, Rst.record, id])
    | exact hgq

theorem Chip.msgAckIn_quiet (c : Chip) (f : RFrame) (hgq : Safety.quiet c = q0) :
    Safety.quiet (Chip.msgAckIn c f) = q0 := by
  unfold Chip.msgAckIn
  try dsimp only
  repeat' first
    | with_reducible assumption
    | with_reducible apply foldl_quiet
    | with_reducible apply foldlM_quiet
    | intro _
    | with_reducible apply Chip.updEseq_quiet
    | split
    | (dsimp only [Safety.quiet, Rst.record, id])
    | exact hgq

theorem failFor_quiet (g cause : Nat) (c : Chip × Mem) (hgq : Safety.quiet c.1 = q0) :
    Safety.quiet (failFor g cause c).1 = q0 := by
  unfold failFor
  try dsimp only
  repeat' first
    | with_reducible assumption
    | with_reducible apply foldl_quiet
    | with_reducible apply foldlM_quiet
    | intro _
    | with_reducible apply abortGarment_quiet
    | split
    | (dsimp only [Safety.quiet, Rst.record, id])
    | exact hgq

theorem Chip.resendXfer_quiet (c : Chip) (x : XferOut) (hgq : Safety.quiet c = q0) :
    Safety.quiet (Chip.resendXfer c x) = q0 := by
  unfold Chip.resendXfer
  try dsimp only
  repeat' first
    | with_reducible assumption
    | with_reducible apply foldl_quiet
    | with_reducible apply foldlM_quiet
    | intro _
    | split
    | (dsimp only [Safety.quiet, Rst.record, id])
    | exact hgq

/-! Start -/

theorem Chip.relink_quiet (c : Chip) (e : StartEnv) (hgq : Safety.quiet c = q0) :
    Safety.quiet (Chip.relink c e) = q0 := by
  unfold Chip.relink
  try dsimp only
  repeat' first
    | with_reducible assumption
    | with_reducible apply foldl_quiet
    | with_reducible apply foldlM_quiet
    | intro _
    | split
    | (dsimp only [Safety.quiet, Rst.record, id])
    | exact hgq

theorem unlink_quiet (c : Chip × Mem) (hgq : Safety.quiet c.1 = q0) :
    Safety.quiet (unlink c).1 = q0 := by
  unfold unlink
  try dsimp only
  repeat' first
    | with_reducible assumption
    | with_reducible apply foldl_quiet
    | with_reducible apply foldlM_quiet
    | intro _
    | with_reducible apply hotReset_quiet
    | split
    | (dsimp only [Safety.quiet, Rst.record, id])
    | exact hgq

theorem endTickets_quiet (c : Chip × Mem) (hgq : Safety.quiet c.1 = q0) :
    Safety.quiet (endTickets c).1 = q0 := by
  unfold endTickets
  try dsimp only
  repeat' first
    | with_reducible assumption
    | with_reducible apply foldl_quiet
    | with_reducible apply foldlM_quiet
    | intro _
    | with_reducible apply closeTicket_quiet
    | with_reducible apply Chip.refuseGarment_quiet
    | with_reducible apply abortGarment_quiet
    | split
    | (dsimp only [Safety.quiet, Rst.record, id])
    | exact hgq

/-! Regs -/

theorem Chip.qBase_quiet (c : Chip) (g off v : Nat) (hgq : Safety.quiet c = q0) :
    Safety.quiet (Chip.qBase c g off v) = q0 := by
  unfold Chip.qBase
  try dsimp only
  repeat' first
    | with_reducible assumption
    | with_reducible apply foldl_quiet
    | with_reducible apply foldlM_quiet
    | intro _
    | with_reducible apply Chip.updQueue_quiet
    | split
    | (dsimp only [Safety.quiet, Rst.record, id])
    | exact hgq

theorem qRegWrite_quiet (fn q off v : Nat) (c : Chip × Mem) (hgq : Safety.quiet c.1 = q0) :
    Safety.quiet (qRegWrite fn q off v c).1 = q0 := by
  unfold qRegWrite
  try dsimp only
  repeat' first
    | with_reducible assumption
    | with_reducible apply foldl_quiet
    | with_reducible apply foldlM_quiet
    | intro _
    | with_reducible apply Chip.updQueue_quiet
    | with_reducible apply Chip.queueEnable_quiet
    | with_reducible apply Chip.queueDisable_quiet
    | with_reducible apply Chip.sqTail_quiet
    | with_reducible apply cqHead_quiet
    | with_reducible apply Chip.qBase_quiet
    | split
    | (dsimp only [Safety.quiet, Rst.record, id])
    | exact hgq

theorem Chip.castGo_quiet (c : Chip) (fn : Nat) (hgq : Safety.quiet c = q0) :
    Safety.quiet (Chip.castGo c fn) = q0 := by
  unfold Chip.castGo
  try dsimp only
  repeat' first
    | with_reducible assumption
    | with_reducible apply foldl_quiet
    | with_reducible apply foldlM_quiet
    | intro _
    | split
    | (dsimp only [Safety.quiet, Rst.record, id])
    | exact hgq

theorem Chip.castWrite_quiet (c : Chip) (fn off v : Nat) (hgq : Safety.quiet c = q0) :
    Safety.quiet (Chip.castWrite c fn off v) = q0 := by
  unfold Chip.castWrite
  try dsimp only
  repeat' first
    | with_reducible assumption
    | with_reducible apply foldl_quiet
    | with_reducible apply foldlM_quiet
    | intro _
    | with_reducible apply Chip.castGo_quiet
    | split
    | (dsimp only [Safety.quiet, Rst.record, id])
    | exact hgq

theorem Chip.msixWrite_quiet (c : Chip) (fn off size v : Nat) (hgq : Safety.quiet c = q0) :
    Safety.quiet (Chip.msixWrite c fn off size v) = q0 := by
  unfold Chip.msixWrite
  try dsimp only
  repeat' first
    | with_reducible assumption
    | with_reducible apply foldl_quiet
    | with_reducible apply foldlM_quiet
    | intro _
    | split
    | (dsimp only [Safety.quiet, Rst.record, id])
    | exact hgq

theorem vfWrite_quiet (fn addr size v : Nat) (c : Chip × Mem) (hgq : Safety.quiet c.1 = q0) :
    Safety.quiet (vfWrite fn addr size v c).1 = q0 := by
  unfold vfWrite
  try dsimp only
  repeat' first
    | with_reducible assumption
    | with_reducible apply foldl_quiet
    | with_reducible apply foldlM_quiet
    | intro _
    | with_reducible apply Chip.regIncident_quiet
    | with_reducible apply qRegWrite_quiet
    | with_reducible apply Chip.castWrite_quiet
    | with_reducible apply Chip.msixWrite_quiet
    | split
    | (dsimp only [Safety.quiet, Rst.record, id])
    | exact hgq

/-! Smbus -/

theorem Chip.spdmAnswer_quiet (c : Chip) (overSmbus : Bool) (a : SpdmAnswer) (hgq : Safety.quiet c = q0) :
    Safety.quiet (Chip.spdmAnswer c overSmbus a) = q0 := by
  unfold Chip.spdmAnswer
  try dsimp only
  repeat' first
    | with_reducible assumption
    | with_reducible apply foldl_quiet
    | with_reducible apply foldlM_quiet
    | intro _
    | with_reducible apply Chip.edge_quiet
    | split
    | (dsimp only [Safety.quiet, Rst.record, id])
    | exact hgq

end Sys2Proof.Machine
end

