-- ==== Sys2Proof/Laws/State.lean ====
section
/-!
SUPPORT. What each shared update leaves as it was, one law per field (by rfl), so that no proof unfolds a record update.
-/
namespace Sys2Proof.Machine

@[simp] theorem Chip.advance_tens (c : Chip) (t : Nat) : (c.advance t).tens = c.tens := rfl
@[simp] theorem Chip.advance_evc (c : Chip) (t : Nat) : (c.advance t).evc = c.evc := rfl
@[simp] theorem Chip.advance_log (c : Chip) (t : Nat) : (c.advance t).log = c.log := rfl
@[simp] theorem Chip.advance_pcie (c : Chip) (t : Nat) : (c.advance t).pcie = c.pcie := rfl
@[simp] theorem Chip.advance_queues (c : Chip) (t : Nat) : (c.advance t).queues = c.queues := rfl
@[simp] theorem Chip.advance_waits (c : Chip) (t : Nat) : (c.advance t).waits = c.waits := rfl
@[simp] theorem Chip.advance_cast (c : Chip) (t : Nat) : (c.advance t).cast = c.cast := rfl
@[simp] theorem Chip.advance_hank (c : Chip) (t : Nat) : (c.advance t).hank = c.hank := rfl
@[simp] theorem Chip.advance_markers (c : Chip) (t : Nat) : (c.advance t).markers = c.markers := rfl
@[simp] theorem Chip.advance_ndl (c : Chip) (t : Nat) : (c.advance t).ndl = c.ndl := rfl
@[simp] theorem Chip.advance_pnl (c : Chip) (t : Nat) : (c.advance t).pnl = c.pnl := rfl
@[simp] theorem Chip.advance_vdec (c : Chip) (t : Nat) : (c.advance t).vdec = c.vdec := rfl
@[simp] theorem Chip.advance_venc (c : Chip) (t : Nat) : (c.advance t).venc = c.venc := rfl
@[simp] theorem Chip.advance_tracks (c : Chip) (t : Nat) : (c.advance t).tracks = c.tracks := rfl
@[simp] theorem Chip.advance_hbm (c : Chip) (t : Nat) : (c.advance t).hbm = c.hbm := rfl
@[simp] theorem Chip.advance_rnd (c : Chip) (t : Nat) : (c.advance t).rnd = c.rnd := rfl
@[simp] theorem Chip.advance_rst (c : Chip) (t : Nat) : (c.advance t).rst = c.rst := rfl
@[simp] theorem Chip.advance_rung (c : Chip) (t : Nat) : (c.advance t).rung = c.rung := rfl
@[simp] theorem Chip.advance_pat (c : Chip) (t : Nat) : (c.advance t).pat = c.pat := rfl
@[simp] theorem Chip.advance_keep (c : Chip) (t : Nat) : (c.advance t).keep = c.keep := rfl
@[simp] theorem Chip.advance_pins (c : Chip) (t : Nat) : (c.advance t).pins = c.pins := rfl
@[simp] theorem Chip.advance_smbus (c : Chip) (t : Nat) : (c.advance t).smbus = c.smbus := rfl
@[simp] theorem Chip.advance_hostTx (c : Chip) (t : Nat) : (c.advance t).hostTx = c.hostTx := rfl
@[simp] theorem Chip.advance_freeCtr (c : Chip) (t : Nat) : (c.advance t).freeCtr = c.freeCtr := rfl

@[simp] theorem Chip.updQueue_gauge (c : Chip) (g : Nat) (f : Queue → Queue) : (c.updQueue g f).gauge = c.gauge := rfl
@[simp] theorem Chip.updQueue_tens (c : Chip) (g : Nat) (f : Queue → Queue) : (c.updQueue g f).tens = c.tens := rfl
@[simp] theorem Chip.updQueue_evc (c : Chip) (g : Nat) (f : Queue → Queue) : (c.updQueue g f).evc = c.evc := rfl
@[simp] theorem Chip.updQueue_log (c : Chip) (g : Nat) (f : Queue → Queue) : (c.updQueue g f).log = c.log := rfl
@[simp] theorem Chip.updQueue_pcie (c : Chip) (g : Nat) (f : Queue → Queue) : (c.updQueue g f).pcie = c.pcie := rfl
@[simp] theorem Chip.updQueue_waits (c : Chip) (g : Nat) (f : Queue → Queue) : (c.updQueue g f).waits = c.waits := rfl
@[simp] theorem Chip.updQueue_cast (c : Chip) (g : Nat) (f : Queue → Queue) : (c.updQueue g f).cast = c.cast := rfl
@[simp] theorem Chip.updQueue_hank (c : Chip) (g : Nat) (f : Queue → Queue) : (c.updQueue g f).hank = c.hank := rfl
@[simp] theorem Chip.updQueue_markers (c : Chip) (g : Nat) (f : Queue → Queue) : (c.updQueue g f).markers = c.markers := rfl
@[simp] theorem Chip.updQueue_ndl (c : Chip) (g : Nat) (f : Queue → Queue) : (c.updQueue g f).ndl = c.ndl := rfl
@[simp] theorem Chip.updQueue_pnl (c : Chip) (g : Nat) (f : Queue → Queue) : (c.updQueue g f).pnl = c.pnl := rfl
@[simp] theorem Chip.updQueue_vdec (c : Chip) (g : Nat) (f : Queue → Queue) : (c.updQueue g f).vdec = c.vdec := rfl
@[simp] theorem Chip.updQueue_venc (c : Chip) (g : Nat) (f : Queue → Queue) : (c.updQueue g f).venc = c.venc := rfl
@[simp] theorem Chip.updQueue_tracks (c : Chip) (g : Nat) (f : Queue → Queue) : (c.updQueue g f).tracks = c.tracks := rfl
@[simp] theorem Chip.updQueue_hbm (c : Chip) (g : Nat) (f : Queue → Queue) : (c.updQueue g f).hbm = c.hbm := rfl
@[simp] theorem Chip.updQueue_rnd (c : Chip) (g : Nat) (f : Queue → Queue) : (c.updQueue g f).rnd = c.rnd := rfl
@[simp] theorem Chip.updQueue_rst (c : Chip) (g : Nat) (f : Queue → Queue) : (c.updQueue g f).rst = c.rst := rfl
@[simp] theorem Chip.updQueue_rung (c : Chip) (g : Nat) (f : Queue → Queue) : (c.updQueue g f).rung = c.rung := rfl
@[simp] theorem Chip.updQueue_pat (c : Chip) (g : Nat) (f : Queue → Queue) : (c.updQueue g f).pat = c.pat := rfl
@[simp] theorem Chip.updQueue_keep (c : Chip) (g : Nat) (f : Queue → Queue) : (c.updQueue g f).keep = c.keep := rfl
@[simp] theorem Chip.updQueue_pins (c : Chip) (g : Nat) (f : Queue → Queue) : (c.updQueue g f).pins = c.pins := rfl
@[simp] theorem Chip.updQueue_smbus (c : Chip) (g : Nat) (f : Queue → Queue) : (c.updQueue g f).smbus = c.smbus := rfl
@[simp] theorem Chip.updQueue_hostTx (c : Chip) (g : Nat) (f : Queue → Queue) : (c.updQueue g f).hostTx = c.hostTx := rfl
@[simp] theorem Chip.updQueue_freeCtr (c : Chip) (g : Nat) (f : Queue → Queue) : (c.updQueue g f).freeCtr = c.freeCtr := rfl

@[simp] theorem Chip.updNeedle_gauge (c : Chip) (n : Nat) (f : Needle → Needle) : (c.updNeedle n f).gauge = c.gauge := rfl
@[simp] theorem Chip.updNeedle_tens (c : Chip) (n : Nat) (f : Needle → Needle) : (c.updNeedle n f).tens = c.tens := rfl
@[simp] theorem Chip.updNeedle_evc (c : Chip) (n : Nat) (f : Needle → Needle) : (c.updNeedle n f).evc = c.evc := rfl
@[simp] theorem Chip.updNeedle_log (c : Chip) (n : Nat) (f : Needle → Needle) : (c.updNeedle n f).log = c.log := rfl
@[simp] theorem Chip.updNeedle_pcie (c : Chip) (n : Nat) (f : Needle → Needle) : (c.updNeedle n f).pcie = c.pcie := rfl
@[simp] theorem Chip.updNeedle_queues (c : Chip) (n : Nat) (f : Needle → Needle) : (c.updNeedle n f).queues = c.queues := rfl
@[simp] theorem Chip.updNeedle_waits (c : Chip) (n : Nat) (f : Needle → Needle) : (c.updNeedle n f).waits = c.waits := rfl
@[simp] theorem Chip.updNeedle_cast (c : Chip) (n : Nat) (f : Needle → Needle) : (c.updNeedle n f).cast = c.cast := rfl
@[simp] theorem Chip.updNeedle_hank (c : Chip) (n : Nat) (f : Needle → Needle) : (c.updNeedle n f).hank = c.hank := rfl
@[simp] theorem Chip.updNeedle_markers (c : Chip) (n : Nat) (f : Needle → Needle) : (c.updNeedle n f).markers = c.markers := rfl
@[simp] theorem Chip.updNeedle_pnl (c : Chip) (n : Nat) (f : Needle → Needle) : (c.updNeedle n f).pnl = c.pnl := rfl
@[simp] theorem Chip.updNeedle_vdec (c : Chip) (n : Nat) (f : Needle → Needle) : (c.updNeedle n f).vdec = c.vdec := rfl
@[simp] theorem Chip.updNeedle_venc (c : Chip) (n : Nat) (f : Needle → Needle) : (c.updNeedle n f).venc = c.venc := rfl
@[simp] theorem Chip.updNeedle_tracks (c : Chip) (n : Nat) (f : Needle → Needle) : (c.updNeedle n f).tracks = c.tracks := rfl
@[simp] theorem Chip.updNeedle_hbm (c : Chip) (n : Nat) (f : Needle → Needle) : (c.updNeedle n f).hbm = c.hbm := rfl
@[simp] theorem Chip.updNeedle_rnd (c : Chip) (n : Nat) (f : Needle → Needle) : (c.updNeedle n f).rnd = c.rnd := rfl
@[simp] theorem Chip.updNeedle_rst (c : Chip) (n : Nat) (f : Needle → Needle) : (c.updNeedle n f).rst = c.rst := rfl
@[simp] theorem Chip.updNeedle_rung (c : Chip) (n : Nat) (f : Needle → Needle) : (c.updNeedle n f).rung = c.rung := rfl
@[simp] theorem Chip.updNeedle_pat (c : Chip) (n : Nat) (f : Needle → Needle) : (c.updNeedle n f).pat = c.pat := rfl
@[simp] theorem Chip.updNeedle_keep (c : Chip) (n : Nat) (f : Needle → Needle) : (c.updNeedle n f).keep = c.keep := rfl
@[simp] theorem Chip.updNeedle_pins (c : Chip) (n : Nat) (f : Needle → Needle) : (c.updNeedle n f).pins = c.pins := rfl
@[simp] theorem Chip.updNeedle_smbus (c : Chip) (n : Nat) (f : Needle → Needle) : (c.updNeedle n f).smbus = c.smbus := rfl
@[simp] theorem Chip.updNeedle_hostTx (c : Chip) (n : Nat) (f : Needle → Needle) : (c.updNeedle n f).hostTx = c.hostTx := rfl
@[simp] theorem Chip.updNeedle_freeCtr (c : Chip) (n : Nat) (f : Needle → Needle) : (c.updNeedle n f).freeCtr = c.freeCtr := rfl

@[simp] theorem Chip.updPanel_gauge (c : Chip) (p : Nat) (f : Panel → Panel) : (c.updPanel p f).gauge = c.gauge := rfl
@[simp] theorem Chip.updPanel_tens (c : Chip) (p : Nat) (f : Panel → Panel) : (c.updPanel p f).tens = c.tens := rfl
@[simp] theorem Chip.updPanel_evc (c : Chip) (p : Nat) (f : Panel → Panel) : (c.updPanel p f).evc = c.evc := rfl
@[simp] theorem Chip.updPanel_log (c : Chip) (p : Nat) (f : Panel → Panel) : (c.updPanel p f).log = c.log := rfl
@[simp] theorem Chip.updPanel_pcie (c : Chip) (p : Nat) (f : Panel → Panel) : (c.updPanel p f).pcie = c.pcie := rfl
@[simp] theorem Chip.updPanel_queues (c : Chip) (p : Nat) (f : Panel → Panel) : (c.updPanel p f).queues = c.queues := rfl
@[simp] theorem Chip.updPanel_waits (c : Chip) (p : Nat) (f : Panel → Panel) : (c.updPanel p f).waits = c.waits := rfl
@[simp] theorem Chip.updPanel_cast (c : Chip) (p : Nat) (f : Panel → Panel) : (c.updPanel p f).cast = c.cast := rfl
@[simp] theorem Chip.updPanel_hank (c : Chip) (p : Nat) (f : Panel → Panel) : (c.updPanel p f).hank = c.hank := rfl
@[simp] theorem Chip.updPanel_markers (c : Chip) (p : Nat) (f : Panel → Panel) : (c.updPanel p f).markers = c.markers := rfl
@[simp] theorem Chip.updPanel_ndl (c : Chip) (p : Nat) (f : Panel → Panel) : (c.updPanel p f).ndl = c.ndl := rfl
@[simp] theorem Chip.updPanel_vdec (c : Chip) (p : Nat) (f : Panel → Panel) : (c.updPanel p f).vdec = c.vdec := rfl
@[simp] theorem Chip.updPanel_venc (c : Chip) (p : Nat) (f : Panel → Panel) : (c.updPanel p f).venc = c.venc := rfl
@[simp] theorem Chip.updPanel_tracks (c : Chip) (p : Nat) (f : Panel → Panel) : (c.updPanel p f).tracks = c.tracks := rfl
@[simp] theorem Chip.updPanel_hbm (c : Chip) (p : Nat) (f : Panel → Panel) : (c.updPanel p f).hbm = c.hbm := rfl
@[simp] theorem Chip.updPanel_rnd (c : Chip) (p : Nat) (f : Panel → Panel) : (c.updPanel p f).rnd = c.rnd := rfl
@[simp] theorem Chip.updPanel_rst (c : Chip) (p : Nat) (f : Panel → Panel) : (c.updPanel p f).rst = c.rst := rfl
@[simp] theorem Chip.updPanel_rung (c : Chip) (p : Nat) (f : Panel → Panel) : (c.updPanel p f).rung = c.rung := rfl
@[simp] theorem Chip.updPanel_pat (c : Chip) (p : Nat) (f : Panel → Panel) : (c.updPanel p f).pat = c.pat := rfl
@[simp] theorem Chip.updPanel_keep (c : Chip) (p : Nat) (f : Panel → Panel) : (c.updPanel p f).keep = c.keep := rfl
@[simp] theorem Chip.updPanel_pins (c : Chip) (p : Nat) (f : Panel → Panel) : (c.updPanel p f).pins = c.pins := rfl
@[simp] theorem Chip.updPanel_smbus (c : Chip) (p : Nat) (f : Panel → Panel) : (c.updPanel p f).smbus = c.smbus := rfl
@[simp] theorem Chip.updPanel_hostTx (c : Chip) (p : Nat) (f : Panel → Panel) : (c.updPanel p f).hostTx = c.hostTx := rfl
@[simp] theorem Chip.updPanel_freeCtr (c : Chip) (p : Nat) (f : Panel → Panel) : (c.updPanel p f).freeCtr = c.freeCtr := rfl

@[simp] theorem Chip.updTicket_gauge (c : Chip) (t : Nat) (f : Ticket → Ticket) : (c.updTicket t f).gauge = c.gauge := rfl
@[simp] theorem Chip.updTicket_tens (c : Chip) (t : Nat) (f : Ticket → Ticket) : (c.updTicket t f).tens = c.tens := rfl
@[simp] theorem Chip.updTicket_evc (c : Chip) (t : Nat) (f : Ticket → Ticket) : (c.updTicket t f).evc = c.evc := rfl
@[simp] theorem Chip.updTicket_log (c : Chip) (t : Nat) (f : Ticket → Ticket) : (c.updTicket t f).log = c.log := rfl
@[simp] theorem Chip.updTicket_pcie (c : Chip) (t : Nat) (f : Ticket → Ticket) : (c.updTicket t f).pcie = c.pcie := rfl
@[simp] theorem Chip.updTicket_queues (c : Chip) (t : Nat) (f : Ticket → Ticket) : (c.updTicket t f).queues = c.queues := rfl
@[simp] theorem Chip.updTicket_waits (c : Chip) (t : Nat) (f : Ticket → Ticket) : (c.updTicket t f).waits = c.waits := rfl
@[simp] theorem Chip.updTicket_hank (c : Chip) (t : Nat) (f : Ticket → Ticket) : (c.updTicket t f).hank = c.hank := rfl
@[simp] theorem Chip.updTicket_markers (c : Chip) (t : Nat) (f : Ticket → Ticket) : (c.updTicket t f).markers = c.markers := rfl
@[simp] theorem Chip.updTicket_ndl (c : Chip) (t : Nat) (f : Ticket → Ticket) : (c.updTicket t f).ndl = c.ndl := rfl
@[simp] theorem Chip.updTicket_pnl (c : Chip) (t : Nat) (f : Ticket → Ticket) : (c.updTicket t f).pnl = c.pnl := rfl
@[simp] theorem Chip.updTicket_vdec (c : Chip) (t : Nat) (f : Ticket → Ticket) : (c.updTicket t f).vdec = c.vdec := rfl
@[simp] theorem Chip.updTicket_venc (c : Chip) (t : Nat) (f : Ticket → Ticket) : (c.updTicket t f).venc = c.venc := rfl
@[simp] theorem Chip.updTicket_tracks (c : Chip) (t : Nat) (f : Ticket → Ticket) : (c.updTicket t f).tracks = c.tracks := rfl
@[simp] theorem Chip.updTicket_hbm (c : Chip) (t : Nat) (f : Ticket → Ticket) : (c.updTicket t f).hbm = c.hbm := rfl
@[simp] theorem Chip.updTicket_rnd (c : Chip) (t : Nat) (f : Ticket → Ticket) : (c.updTicket t f).rnd = c.rnd := rfl
@[simp] theorem Chip.updTicket_rst (c : Chip) (t : Nat) (f : Ticket → Ticket) : (c.updTicket t f).rst = c.rst := rfl
@[simp] theorem Chip.updTicket_rung (c : Chip) (t : Nat) (f : Ticket → Ticket) : (c.updTicket t f).rung = c.rung := rfl
@[simp] theorem Chip.updTicket_pat (c : Chip) (t : Nat) (f : Ticket → Ticket) : (c.updTicket t f).pat = c.pat := rfl
@[simp] theorem Chip.updTicket_keep (c : Chip) (t : Nat) (f : Ticket → Ticket) : (c.updTicket t f).keep = c.keep := rfl
@[simp] theorem Chip.updTicket_pins (c : Chip) (t : Nat) (f : Ticket → Ticket) : (c.updTicket t f).pins = c.pins := rfl
@[simp] theorem Chip.updTicket_smbus (c : Chip) (t : Nat) (f : Ticket → Ticket) : (c.updTicket t f).smbus = c.smbus := rfl
@[simp] theorem Chip.updTicket_hostTx (c : Chip) (t : Nat) (f : Ticket → Ticket) : (c.updTicket t f).hostTx = c.hostTx := rfl
@[simp] theorem Chip.updTicket_freeCtr (c : Chip) (t : Nat) (f : Ticket → Ticket) : (c.updTicket t f).freeCtr = c.freeCtr := rfl

@[simp] theorem Chip.edge_gauge (c : Chip) (s : Nat) : (c.edge s).gauge = c.gauge := rfl
@[simp] theorem Chip.edge_tens (c : Chip) (s : Nat) : (c.edge s).tens = c.tens := rfl
@[simp] theorem Chip.edge_log (c : Chip) (s : Nat) : (c.edge s).log = c.log := rfl
@[simp] theorem Chip.edge_pcie (c : Chip) (s : Nat) : (c.edge s).pcie = c.pcie := rfl
@[simp] theorem Chip.edge_queues (c : Chip) (s : Nat) : (c.edge s).queues = c.queues := rfl
@[simp] theorem Chip.edge_waits (c : Chip) (s : Nat) : (c.edge s).waits = c.waits := rfl
@[simp] theorem Chip.edge_cast (c : Chip) (s : Nat) : (c.edge s).cast = c.cast := rfl
@[simp] theorem Chip.edge_hank (c : Chip) (s : Nat) : (c.edge s).hank = c.hank := rfl
@[simp] theorem Chip.edge_markers (c : Chip) (s : Nat) : (c.edge s).markers = c.markers := rfl
@[simp] theorem Chip.edge_ndl (c : Chip) (s : Nat) : (c.edge s).ndl = c.ndl := rfl
@[simp] theorem Chip.edge_pnl (c : Chip) (s : Nat) : (c.edge s).pnl = c.pnl := rfl
@[simp] theorem Chip.edge_vdec (c : Chip) (s : Nat) : (c.edge s).vdec = c.vdec := rfl
@[simp] theorem Chip.edge_venc (c : Chip) (s : Nat) : (c.edge s).venc = c.venc := rfl
@[simp] theorem Chip.edge_tracks (c : Chip) (s : Nat) : (c.edge s).tracks = c.tracks := rfl
@[simp] theorem Chip.edge_hbm (c : Chip) (s : Nat) : (c.edge s).hbm = c.hbm := rfl
@[simp] theorem Chip.edge_rnd (c : Chip) (s : Nat) : (c.edge s).rnd = c.rnd := rfl
@[simp] theorem Chip.edge_rst (c : Chip) (s : Nat) : (c.edge s).rst = c.rst := rfl
@[simp] theorem Chip.edge_rung (c : Chip) (s : Nat) : (c.edge s).rung = c.rung := rfl
@[simp] theorem Chip.edge_pat (c : Chip) (s : Nat) : (c.edge s).pat = c.pat := rfl
@[simp] theorem Chip.edge_keep (c : Chip) (s : Nat) : (c.edge s).keep = c.keep := rfl
@[simp] theorem Chip.edge_pins (c : Chip) (s : Nat) : (c.edge s).pins = c.pins := rfl
@[simp] theorem Chip.edge_smbus (c : Chip) (s : Nat) : (c.edge s).smbus = c.smbus := rfl
@[simp] theorem Chip.edge_hostTx (c : Chip) (s : Nat) : (c.edge s).hostTx = c.hostTx := rfl
@[simp] theorem Chip.edge_freeCtr (c : Chip) (s : Nat) : (c.edge s).freeCtr = c.freeCtr := rfl

@[simp] theorem Chip.edgeIf_gauge (c : Chip) (b : Bool) (s : Nat) : (c.edgeIf b s).gauge = c.gauge := rfl
@[simp] theorem Chip.edgeIf_tens (c : Chip) (b : Bool) (s : Nat) : (c.edgeIf b s).tens = c.tens := rfl
@[simp] theorem Chip.edgeIf_log (c : Chip) (b : Bool) (s : Nat) : (c.edgeIf b s).log = c.log := rfl
@[simp] theorem Chip.edgeIf_pcie (c : Chip) (b : Bool) (s : Nat) : (c.edgeIf b s).pcie = c.pcie := rfl
@[simp] theorem Chip.edgeIf_queues (c : Chip) (b : Bool) (s : Nat) : (c.edgeIf b s).queues = c.queues := rfl
@[simp] theorem Chip.edgeIf_waits (c : Chip) (b : Bool) (s : Nat) : (c.edgeIf b s).waits = c.waits := rfl
@[simp] theorem Chip.edgeIf_cast (c : Chip) (b : Bool) (s : Nat) : (c.edgeIf b s).cast = c.cast := rfl
@[simp] theorem Chip.edgeIf_hank (c : Chip) (b : Bool) (s : Nat) : (c.edgeIf b s).hank = c.hank := rfl
@[simp] theorem Chip.edgeIf_markers (c : Chip) (b : Bool) (s : Nat) : (c.edgeIf b s).markers = c.markers := rfl
@[simp] theorem Chip.edgeIf_ndl (c : Chip) (b : Bool) (s : Nat) : (c.edgeIf b s).ndl = c.ndl := rfl
@[simp] theorem Chip.edgeIf_pnl (c : Chip) (b : Bool) (s : Nat) : (c.edgeIf b s).pnl = c.pnl := rfl
@[simp] theorem Chip.edgeIf_vdec (c : Chip) (b : Bool) (s : Nat) : (c.edgeIf b s).vdec = c.vdec := rfl
@[simp] theorem Chip.edgeIf_venc (c : Chip) (b : Bool) (s : Nat) : (c.edgeIf b s).venc = c.venc := rfl
@[simp] theorem Chip.edgeIf_tracks (c : Chip) (b : Bool) (s : Nat) : (c.edgeIf b s).tracks = c.tracks := rfl
@[simp] theorem Chip.edgeIf_hbm (c : Chip) (b : Bool) (s : Nat) : (c.edgeIf b s).hbm = c.hbm := rfl
@[simp] theorem Chip.edgeIf_rnd (c : Chip) (b : Bool) (s : Nat) : (c.edgeIf b s).rnd = c.rnd := rfl
@[simp] theorem Chip.edgeIf_rst (c : Chip) (b : Bool) (s : Nat) : (c.edgeIf b s).rst = c.rst := rfl
@[simp] theorem Chip.edgeIf_rung (c : Chip) (b : Bool) (s : Nat) : (c.edgeIf b s).rung = c.rung := rfl
@[simp] theorem Chip.edgeIf_pat (c : Chip) (b : Bool) (s : Nat) : (c.edgeIf b s).pat = c.pat := rfl
@[simp] theorem Chip.edgeIf_keep (c : Chip) (b : Bool) (s : Nat) : (c.edgeIf b s).keep = c.keep := rfl
@[simp] theorem Chip.edgeIf_pins (c : Chip) (b : Bool) (s : Nat) : (c.edgeIf b s).pins = c.pins := rfl
@[simp] theorem Chip.edgeIf_smbus (c : Chip) (b : Bool) (s : Nat) : (c.edgeIf b s).smbus = c.smbus := rfl
@[simp] theorem Chip.edgeIf_hostTx (c : Chip) (b : Bool) (s : Nat) : (c.edgeIf b s).hostTx = c.hostTx := rfl
@[simp] theorem Chip.edgeIf_freeCtr (c : Chip) (b : Bool) (s : Nat) : (c.edgeIf b s).freeCtr = c.freeCtr := rfl

@[simp] theorem Chip.incident_gauge (c : Chip) (i : Incident) (src : Nat) (ctx : Option Nat) (ticket argHi arg : Nat) : (c.incident i src ctx ticket argHi arg).gauge = c.gauge := rfl
@[simp] theorem Chip.incident_tens (c : Chip) (i : Incident) (src : Nat) (ctx : Option Nat) (ticket argHi arg : Nat) : (c.incident i src ctx ticket argHi arg).tens = c.tens := rfl
@[simp] theorem Chip.incident_pcie (c : Chip) (i : Incident) (src : Nat) (ctx : Option Nat) (ticket argHi arg : Nat) : (c.incident i src ctx ticket argHi arg).pcie = c.pcie := rfl
@[simp] theorem Chip.incident_queues (c : Chip) (i : Incident) (src : Nat) (ctx : Option Nat) (ticket argHi arg : Nat) : (c.incident i src ctx ticket argHi arg).queues = c.queues := rfl
@[simp] theorem Chip.incident_waits (c : Chip) (i : Incident) (src : Nat) (ctx : Option Nat) (ticket argHi arg : Nat) : (c.incident i src ctx ticket argHi arg).waits = c.waits := rfl
@[simp] theorem Chip.incident_cast (c : Chip) (i : Incident) (src : Nat) (ctx : Option Nat) (ticket argHi arg : Nat) : (c.incident i src ctx ticket argHi arg).cast = c.cast := rfl
@[simp] theorem Chip.incident_hank (c : Chip) (i : Incident) (src : Nat) (ctx : Option Nat) (ticket argHi arg : Nat) : (c.incident i src ctx ticket argHi arg).hank = c.hank := rfl
@[simp] theorem Chip.incident_markers (c : Chip) (i : Incident) (src : Nat) (ctx : Option Nat) (ticket argHi arg : Nat) : (c.incident i src ctx ticket argHi arg).markers = c.markers := rfl
@[simp] theorem Chip.incident_ndl (c : Chip) (i : Incident) (src : Nat) (ctx : Option Nat) (ticket argHi arg : Nat) : (c.incident i src ctx ticket argHi arg).ndl = c.ndl := rfl
@[simp] theorem Chip.incident_pnl (c : Chip) (i : Incident) (src : Nat) (ctx : Option Nat) (ticket argHi arg : Nat) : (c.incident i src ctx ticket argHi arg).pnl = c.pnl := rfl
@[simp] theorem Chip.incident_vdec (c : Chip) (i : Incident) (src : Nat) (ctx : Option Nat) (ticket argHi arg : Nat) : (c.incident i src ctx ticket argHi arg).vdec = c.vdec := rfl
@[simp] theorem Chip.incident_venc (c : Chip) (i : Incident) (src : Nat) (ctx : Option Nat) (ticket argHi arg : Nat) : (c.incident i src ctx ticket argHi arg).venc = c.venc := rfl
@[simp] theorem Chip.incident_tracks (c : Chip) (i : Incident) (src : Nat) (ctx : Option Nat) (ticket argHi arg : Nat) : (c.incident i src ctx ticket argHi arg).tracks = c.tracks := rfl
@[simp] theorem Chip.incident_hbm (c : Chip) (i : Incident) (src : Nat) (ctx : Option Nat) (ticket argHi arg : Nat) : (c.incident i src ctx ticket argHi arg).hbm = c.hbm := rfl
@[simp] theorem Chip.incident_rnd (c : Chip) (i : Incident) (src : Nat) (ctx : Option Nat) (ticket argHi arg : Nat) : (c.incident i src ctx ticket argHi arg).rnd = c.rnd := rfl
@[simp] theorem Chip.incident_rst (c : Chip) (i : Incident) (src : Nat) (ctx : Option Nat) (ticket argHi arg : Nat) : (c.incident i src ctx ticket argHi arg).rst = c.rst := rfl
@[simp] theorem Chip.incident_rung (c : Chip) (i : Incident) (src : Nat) (ctx : Option Nat) (ticket argHi arg : Nat) : (c.incident i src ctx ticket argHi arg).rung = c.rung := rfl
@[simp] theorem Chip.incident_pat (c : Chip) (i : Incident) (src : Nat) (ctx : Option Nat) (ticket argHi arg : Nat) : (c.incident i src ctx ticket argHi arg).pat = c.pat := rfl
@[simp] theorem Chip.incident_keep (c : Chip) (i : Incident) (src : Nat) (ctx : Option Nat) (ticket argHi arg : Nat) : (c.incident i src ctx ticket argHi arg).keep = c.keep := rfl
@[simp] theorem Chip.incident_pins (c : Chip) (i : Incident) (src : Nat) (ctx : Option Nat) (ticket argHi arg : Nat) : (c.incident i src ctx ticket argHi arg).pins = c.pins := rfl
@[simp] theorem Chip.incident_smbus (c : Chip) (i : Incident) (src : Nat) (ctx : Option Nat) (ticket argHi arg : Nat) : (c.incident i src ctx ticket argHi arg).smbus = c.smbus := rfl
@[simp] theorem Chip.incident_hostTx (c : Chip) (i : Incident) (src : Nat) (ctx : Option Nat) (ticket argHi arg : Nat) : (c.incident i src ctx ticket argHi arg).hostTx = c.hostTx := rfl
@[simp] theorem Chip.incident_freeCtr (c : Chip) (i : Incident) (src : Nat) (ctx : Option Nat) (ticket argHi arg : Nat) : (c.incident i src ctx ticket argHi arg).freeCtr = c.freeCtr := rfl

@[simp] theorem Chip.note_gauge (c : Chip) (i : Incident) (src : Nat) (ctx : Option Nat) (ticket argHi arg : Nat) : (c.note i src ctx ticket argHi arg).gauge = c.gauge := rfl
@[simp] theorem Chip.note_tens (c : Chip) (i : Incident) (src : Nat) (ctx : Option Nat) (ticket argHi arg : Nat) : (c.note i src ctx ticket argHi arg).tens = c.tens := rfl
@[simp] theorem Chip.note_pcie (c : Chip) (i : Incident) (src : Nat) (ctx : Option Nat) (ticket argHi arg : Nat) : (c.note i src ctx ticket argHi arg).pcie = c.pcie := rfl
@[simp] theorem Chip.note_queues (c : Chip) (i : Incident) (src : Nat) (ctx : Option Nat) (ticket argHi arg : Nat) : (c.note i src ctx ticket argHi arg).queues = c.queues := rfl
@[simp] theorem Chip.note_waits (c : Chip) (i : Incident) (src : Nat) (ctx : Option Nat) (ticket argHi arg : Nat) : (c.note i src ctx ticket argHi arg).waits = c.waits := rfl
@[simp] theorem Chip.note_cast (c : Chip) (i : Incident) (src : Nat) (ctx : Option Nat) (ticket argHi arg : Nat) : (c.note i src ctx ticket argHi arg).cast = c.cast := rfl
@[simp] theorem Chip.note_hank (c : Chip) (i : Incident) (src : Nat) (ctx : Option Nat) (ticket argHi arg : Nat) : (c.note i src ctx ticket argHi arg).hank = c.hank := rfl
@[simp] theorem Chip.note_markers (c : Chip) (i : Incident) (src : Nat) (ctx : Option Nat) (ticket argHi arg : Nat) : (c.note i src ctx ticket argHi arg).markers = c.markers := rfl
@[simp] theorem Chip.note_ndl (c : Chip) (i : Incident) (src : Nat) (ctx : Option Nat) (ticket argHi arg : Nat) : (c.note i src ctx ticket argHi arg).ndl = c.ndl := rfl
@[simp] theorem Chip.note_pnl (c : Chip) (i : Incident) (src : Nat) (ctx : Option Nat) (ticket argHi arg : Nat) : (c.note i src ctx ticket argHi arg).pnl = c.pnl := rfl
@[simp] theorem Chip.note_vdec (c : Chip) (i : Incident) (src : Nat) (ctx : Option Nat) (ticket argHi arg : Nat) : (c.note i src ctx ticket argHi arg).vdec = c.vdec := rfl
@[simp] theorem Chip.note_venc (c : Chip) (i : Incident) (src : Nat) (ctx : Option Nat) (ticket argHi arg : Nat) : (c.note i src ctx ticket argHi arg).venc = c.venc := rfl
@[simp] theorem Chip.note_tracks (c : Chip) (i : Incident) (src : Nat) (ctx : Option Nat) (ticket argHi arg : Nat) : (c.note i src ctx ticket argHi arg).tracks = c.tracks := rfl
@[simp] theorem Chip.note_hbm (c : Chip) (i : Incident) (src : Nat) (ctx : Option Nat) (ticket argHi arg : Nat) : (c.note i src ctx ticket argHi arg).hbm = c.hbm := rfl
@[simp] theorem Chip.note_rnd (c : Chip) (i : Incident) (src : Nat) (ctx : Option Nat) (ticket argHi arg : Nat) : (c.note i src ctx ticket argHi arg).rnd = c.rnd := rfl
@[simp] theorem Chip.note_rst (c : Chip) (i : Incident) (src : Nat) (ctx : Option Nat) (ticket argHi arg : Nat) : (c.note i src ctx ticket argHi arg).rst = c.rst := rfl
@[simp] theorem Chip.note_rung (c : Chip) (i : Incident) (src : Nat) (ctx : Option Nat) (ticket argHi arg : Nat) : (c.note i src ctx ticket argHi arg).rung = c.rung := rfl
@[simp] theorem Chip.note_pat (c : Chip) (i : Incident) (src : Nat) (ctx : Option Nat) (ticket argHi arg : Nat) : (c.note i src ctx ticket argHi arg).pat = c.pat := rfl
@[simp] theorem Chip.note_keep (c : Chip) (i : Incident) (src : Nat) (ctx : Option Nat) (ticket argHi arg : Nat) : (c.note i src ctx ticket argHi arg).keep = c.keep := rfl
@[simp] theorem Chip.note_pins (c : Chip) (i : Incident) (src : Nat) (ctx : Option Nat) (ticket argHi arg : Nat) : (c.note i src ctx ticket argHi arg).pins = c.pins := rfl
@[simp] theorem Chip.note_smbus (c : Chip) (i : Incident) (src : Nat) (ctx : Option Nat) (ticket argHi arg : Nat) : (c.note i src ctx ticket argHi arg).smbus = c.smbus := rfl
@[simp] theorem Chip.note_hostTx (c : Chip) (i : Incident) (src : Nat) (ctx : Option Nat) (ticket argHi arg : Nat) : (c.note i src ctx ticket argHi arg).hostTx = c.hostTx := rfl
@[simp] theorem Chip.note_freeCtr (c : Chip) (i : Incident) (src : Nat) (ctx : Option Nat) (ticket argHi arg : Nat) : (c.note i src ctx ticket argHi arg).freeCtr = c.freeCtr := rfl

@[simp] theorem Chip.incidentIf_gauge (c : Chip) (b : Bool) (i : Incident) (src : Nat) (ctx : Option Nat) (ticket argHi arg : Nat) : (c.incidentIf b i src ctx ticket argHi arg).gauge = c.gauge := rfl
@[simp] theorem Chip.incidentIf_tens (c : Chip) (b : Bool) (i : Incident) (src : Nat) (ctx : Option Nat) (ticket argHi arg : Nat) : (c.incidentIf b i src ctx ticket argHi arg).tens = c.tens := rfl
@[simp] theorem Chip.incidentIf_pcie (c : Chip) (b : Bool) (i : Incident) (src : Nat) (ctx : Option Nat) (ticket argHi arg : Nat) : (c.incidentIf b i src ctx ticket argHi arg).pcie = c.pcie := rfl
@[simp] theorem Chip.incidentIf_queues (c : Chip) (b : Bool) (i : Incident) (src : Nat) (ctx : Option Nat) (ticket argHi arg : Nat) : (c.incidentIf b i src ctx ticket argHi arg).queues = c.queues := rfl
@[simp] theorem Chip.incidentIf_waits (c : Chip) (b : Bool) (i : Incident) (src : Nat) (ctx : Option Nat) (ticket argHi arg : Nat) : (c.incidentIf b i src ctx ticket argHi arg).waits = c.waits := rfl
@[simp] theorem Chip.incidentIf_cast (c : Chip) (b : Bool) (i : Incident) (src : Nat) (ctx : Option Nat) (ticket argHi arg : Nat) : (c.incidentIf b i src ctx ticket argHi arg).cast = c.cast := rfl
@[simp] theorem Chip.incidentIf_hank (c : Chip) (b : Bool) (i : Incident) (src : Nat) (ctx : Option Nat) (ticket argHi arg : Nat) : (c.incidentIf b i src ctx ticket argHi arg).hank = c.hank := rfl
@[simp] theorem Chip.incidentIf_markers (c : Chip) (b : Bool) (i : Incident) (src : Nat) (ctx : Option Nat) (ticket argHi arg : Nat) : (c.incidentIf b i src ctx ticket argHi arg).markers = c.markers := rfl
@[simp] theorem Chip.incidentIf_ndl (c : Chip) (b : Bool) (i : Incident) (src : Nat) (ctx : Option Nat) (ticket argHi arg : Nat) : (c.incidentIf b i src ctx ticket argHi arg).ndl = c.ndl := rfl
@[simp] theorem Chip.incidentIf_pnl (c : Chip) (b : Bool) (i : Incident) (src : Nat) (ctx : Option Nat) (ticket argHi arg : Nat) : (c.incidentIf b i src ctx ticket argHi arg).pnl = c.pnl := rfl
@[simp] theorem Chip.incidentIf_vdec (c : Chip) (b : Bool) (i : Incident) (src : Nat) (ctx : Option Nat) (ticket argHi arg : Nat) : (c.incidentIf b i src ctx ticket argHi arg).vdec = c.vdec := rfl
@[simp] theorem Chip.incidentIf_venc (c : Chip) (b : Bool) (i : Incident) (src : Nat) (ctx : Option Nat) (ticket argHi arg : Nat) : (c.incidentIf b i src ctx ticket argHi arg).venc = c.venc := rfl
@[simp] theorem Chip.incidentIf_tracks (c : Chip) (b : Bool) (i : Incident) (src : Nat) (ctx : Option Nat) (ticket argHi arg : Nat) : (c.incidentIf b i src ctx ticket argHi arg).tracks = c.tracks := rfl
@[simp] theorem Chip.incidentIf_hbm (c : Chip) (b : Bool) (i : Incident) (src : Nat) (ctx : Option Nat) (ticket argHi arg : Nat) : (c.incidentIf b i src ctx ticket argHi arg).hbm = c.hbm := rfl
@[simp] theorem Chip.incidentIf_rnd (c : Chip) (b : Bool) (i : Incident) (src : Nat) (ctx : Option Nat) (ticket argHi arg : Nat) : (c.incidentIf b i src ctx ticket argHi arg).rnd = c.rnd := rfl
@[simp] theorem Chip.incidentIf_rst (c : Chip) (b : Bool) (i : Incident) (src : Nat) (ctx : Option Nat) (ticket argHi arg : Nat) : (c.incidentIf b i src ctx ticket argHi arg).rst = c.rst := rfl
@[simp] theorem Chip.incidentIf_rung (c : Chip) (b : Bool) (i : Incident) (src : Nat) (ctx : Option Nat) (ticket argHi arg : Nat) : (c.incidentIf b i src ctx ticket argHi arg).rung = c.rung := rfl
@[simp] theorem Chip.incidentIf_pat (c : Chip) (b : Bool) (i : Incident) (src : Nat) (ctx : Option Nat) (ticket argHi arg : Nat) : (c.incidentIf b i src ctx ticket argHi arg).pat = c.pat := rfl
@[simp] theorem Chip.incidentIf_keep (c : Chip) (b : Bool) (i : Incident) (src : Nat) (ctx : Option Nat) (ticket argHi arg : Nat) : (c.incidentIf b i src ctx ticket argHi arg).keep = c.keep := rfl
@[simp] theorem Chip.incidentIf_pins (c : Chip) (b : Bool) (i : Incident) (src : Nat) (ctx : Option Nat) (ticket argHi arg : Nat) : (c.incidentIf b i src ctx ticket argHi arg).pins = c.pins := rfl
@[simp] theorem Chip.incidentIf_smbus (c : Chip) (b : Bool) (i : Incident) (src : Nat) (ctx : Option Nat) (ticket argHi arg : Nat) : (c.incidentIf b i src ctx ticket argHi arg).smbus = c.smbus := rfl
@[simp] theorem Chip.incidentIf_hostTx (c : Chip) (b : Bool) (i : Incident) (src : Nat) (ctx : Option Nat) (ticket argHi arg : Nat) : (c.incidentIf b i src ctx ticket argHi arg).hostTx = c.hostTx := rfl
@[simp] theorem Chip.incidentIf_freeCtr (c : Chip) (b : Bool) (i : Incident) (src : Nat) (ctx : Option Nat) (ticket argHi arg : Nat) : (c.incidentIf b i src ctx ticket argHi arg).freeCtr = c.freeCtr := rfl

@[simp] theorem Chip.idleHint_gauge (c : Chip) (v : Nat) : (c.idleHint v).gauge = c.gauge := rfl
@[simp] theorem Chip.idleHint_tens (c : Chip) (v : Nat) : (c.idleHint v).tens = c.tens := rfl
@[simp] theorem Chip.idleHint_log (c : Chip) (v : Nat) : (c.idleHint v).log = c.log := rfl
@[simp] theorem Chip.idleHint_pcie (c : Chip) (v : Nat) : (c.idleHint v).pcie = c.pcie := rfl
@[simp] theorem Chip.idleHint_queues (c : Chip) (v : Nat) : (c.idleHint v).queues = c.queues := rfl
@[simp] theorem Chip.idleHint_waits (c : Chip) (v : Nat) : (c.idleHint v).waits = c.waits := rfl
@[simp] theorem Chip.idleHint_cast (c : Chip) (v : Nat) : (c.idleHint v).cast = c.cast := rfl
@[simp] theorem Chip.idleHint_hank (c : Chip) (v : Nat) : (c.idleHint v).hank = c.hank := rfl
@[simp] theorem Chip.idleHint_markers (c : Chip) (v : Nat) : (c.idleHint v).markers = c.markers := rfl
@[simp] theorem Chip.idleHint_ndl (c : Chip) (v : Nat) : (c.idleHint v).ndl = c.ndl := rfl
@[simp] theorem Chip.idleHint_pnl (c : Chip) (v : Nat) : (c.idleHint v).pnl = c.pnl := rfl
@[simp] theorem Chip.idleHint_vdec (c : Chip) (v : Nat) : (c.idleHint v).vdec = c.vdec := rfl
@[simp] theorem Chip.idleHint_venc (c : Chip) (v : Nat) : (c.idleHint v).venc = c.venc := rfl
@[simp] theorem Chip.idleHint_tracks (c : Chip) (v : Nat) : (c.idleHint v).tracks = c.tracks := rfl
@[simp] theorem Chip.idleHint_hbm (c : Chip) (v : Nat) : (c.idleHint v).hbm = c.hbm := rfl
@[simp] theorem Chip.idleHint_rnd (c : Chip) (v : Nat) : (c.idleHint v).rnd = c.rnd := rfl
@[simp] theorem Chip.idleHint_rst (c : Chip) (v : Nat) : (c.idleHint v).rst = c.rst := rfl
@[simp] theorem Chip.idleHint_rung (c : Chip) (v : Nat) : (c.idleHint v).rung = c.rung := rfl
@[simp] theorem Chip.idleHint_pat (c : Chip) (v : Nat) : (c.idleHint v).pat = c.pat := rfl
@[simp] theorem Chip.idleHint_keep (c : Chip) (v : Nat) : (c.idleHint v).keep = c.keep := rfl
@[simp] theorem Chip.idleHint_pins (c : Chip) (v : Nat) : (c.idleHint v).pins = c.pins := rfl
@[simp] theorem Chip.idleHint_smbus (c : Chip) (v : Nat) : (c.idleHint v).smbus = c.smbus := rfl
@[simp] theorem Chip.idleHint_hostTx (c : Chip) (v : Nat) : (c.idleHint v).hostTx = c.hostTx := rfl
@[simp] theorem Chip.idleHint_freeCtr (c : Chip) (v : Nat) : (c.idleHint v).freeCtr = c.freeCtr := rfl

@[simp] theorem Chip.evcDisable_gauge (c : Chip) (on : Bool) : (c.evcDisable on).gauge = c.gauge := rfl
@[simp] theorem Chip.evcDisable_tens (c : Chip) (on : Bool) : (c.evcDisable on).tens = c.tens := rfl
@[simp] theorem Chip.evcDisable_log (c : Chip) (on : Bool) : (c.evcDisable on).log = c.log := rfl
@[simp] theorem Chip.evcDisable_pcie (c : Chip) (on : Bool) : (c.evcDisable on).pcie = c.pcie := rfl
@[simp] theorem Chip.evcDisable_queues (c : Chip) (on : Bool) : (c.evcDisable on).queues = c.queues := rfl
@[simp] theorem Chip.evcDisable_waits (c : Chip) (on : Bool) : (c.evcDisable on).waits = c.waits := rfl
@[simp] theorem Chip.evcDisable_cast (c : Chip) (on : Bool) : (c.evcDisable on).cast = c.cast := rfl
@[simp] theorem Chip.evcDisable_hank (c : Chip) (on : Bool) : (c.evcDisable on).hank = c.hank := rfl
@[simp] theorem Chip.evcDisable_markers (c : Chip) (on : Bool) : (c.evcDisable on).markers = c.markers := rfl
@[simp] theorem Chip.evcDisable_ndl (c : Chip) (on : Bool) : (c.evcDisable on).ndl = c.ndl := rfl
@[simp] theorem Chip.evcDisable_pnl (c : Chip) (on : Bool) : (c.evcDisable on).pnl = c.pnl := rfl
@[simp] theorem Chip.evcDisable_vdec (c : Chip) (on : Bool) : (c.evcDisable on).vdec = c.vdec := rfl
@[simp] theorem Chip.evcDisable_venc (c : Chip) (on : Bool) : (c.evcDisable on).venc = c.venc := rfl
@[simp] theorem Chip.evcDisable_tracks (c : Chip) (on : Bool) : (c.evcDisable on).tracks = c.tracks := rfl
@[simp] theorem Chip.evcDisable_hbm (c : Chip) (on : Bool) : (c.evcDisable on).hbm = c.hbm := rfl
@[simp] theorem Chip.evcDisable_rnd (c : Chip) (on : Bool) : (c.evcDisable on).rnd = c.rnd := rfl
@[simp] theorem Chip.evcDisable_rst (c : Chip) (on : Bool) : (c.evcDisable on).rst = c.rst := rfl
@[simp] theorem Chip.evcDisable_rung (c : Chip) (on : Bool) : (c.evcDisable on).rung = c.rung := rfl
@[simp] theorem Chip.evcDisable_pat (c : Chip) (on : Bool) : (c.evcDisable on).pat = c.pat := rfl
@[simp] theorem Chip.evcDisable_keep (c : Chip) (on : Bool) : (c.evcDisable on).keep = c.keep := rfl
@[simp] theorem Chip.evcDisable_pins (c : Chip) (on : Bool) : (c.evcDisable on).pins = c.pins := rfl
@[simp] theorem Chip.evcDisable_smbus (c : Chip) (on : Bool) : (c.evcDisable on).smbus = c.smbus := rfl
@[simp] theorem Chip.evcDisable_hostTx (c : Chip) (on : Bool) : (c.evcDisable on).hostTx = c.hostTx := rfl
@[simp] theorem Chip.evcDisable_freeCtr (c : Chip) (on : Bool) : (c.evcDisable on).freeCtr = c.freeCtr := rfl

@[simp] theorem Chip.hostWrite_gauge (c : Chip) (addr : Nat) (b : List Byte) : (c.hostWrite addr b).gauge = c.gauge := rfl
@[simp] theorem Chip.hostWrite_tens (c : Chip) (addr : Nat) (b : List Byte) : (c.hostWrite addr b).tens = c.tens := rfl
@[simp] theorem Chip.hostWrite_evc (c : Chip) (addr : Nat) (b : List Byte) : (c.hostWrite addr b).evc = c.evc := rfl
@[simp] theorem Chip.hostWrite_log (c : Chip) (addr : Nat) (b : List Byte) : (c.hostWrite addr b).log = c.log := rfl
@[simp] theorem Chip.hostWrite_queues (c : Chip) (addr : Nat) (b : List Byte) : (c.hostWrite addr b).queues = c.queues := rfl
@[simp] theorem Chip.hostWrite_waits (c : Chip) (addr : Nat) (b : List Byte) : (c.hostWrite addr b).waits = c.waits := rfl
@[simp] theorem Chip.hostWrite_cast (c : Chip) (addr : Nat) (b : List Byte) : (c.hostWrite addr b).cast = c.cast := rfl
@[simp] theorem Chip.hostWrite_hank (c : Chip) (addr : Nat) (b : List Byte) : (c.hostWrite addr b).hank = c.hank := rfl
@[simp] theorem Chip.hostWrite_markers (c : Chip) (addr : Nat) (b : List Byte) : (c.hostWrite addr b).markers = c.markers := rfl
@[simp] theorem Chip.hostWrite_ndl (c : Chip) (addr : Nat) (b : List Byte) : (c.hostWrite addr b).ndl = c.ndl := rfl
@[simp] theorem Chip.hostWrite_pnl (c : Chip) (addr : Nat) (b : List Byte) : (c.hostWrite addr b).pnl = c.pnl := rfl
@[simp] theorem Chip.hostWrite_vdec (c : Chip) (addr : Nat) (b : List Byte) : (c.hostWrite addr b).vdec = c.vdec := rfl
@[simp] theorem Chip.hostWrite_venc (c : Chip) (addr : Nat) (b : List Byte) : (c.hostWrite addr b).venc = c.venc := rfl
@[simp] theorem Chip.hostWrite_tracks (c : Chip) (addr : Nat) (b : List Byte) : (c.hostWrite addr b).tracks = c.tracks := rfl
@[simp] theorem Chip.hostWrite_hbm (c : Chip) (addr : Nat) (b : List Byte) : (c.hostWrite addr b).hbm = c.hbm := rfl
@[simp] theorem Chip.hostWrite_rnd (c : Chip) (addr : Nat) (b : List Byte) : (c.hostWrite addr b).rnd = c.rnd := rfl
@[simp] theorem Chip.hostWrite_rst (c : Chip) (addr : Nat) (b : List Byte) : (c.hostWrite addr b).rst = c.rst := rfl
@[simp] theorem Chip.hostWrite_rung (c : Chip) (addr : Nat) (b : List Byte) : (c.hostWrite addr b).rung = c.rung := rfl
@[simp] theorem Chip.hostWrite_pat (c : Chip) (addr : Nat) (b : List Byte) : (c.hostWrite addr b).pat = c.pat := rfl
@[simp] theorem Chip.hostWrite_keep (c : Chip) (addr : Nat) (b : List Byte) : (c.hostWrite addr b).keep = c.keep := rfl
@[simp] theorem Chip.hostWrite_pins (c : Chip) (addr : Nat) (b : List Byte) : (c.hostWrite addr b).pins = c.pins := rfl
@[simp] theorem Chip.hostWrite_smbus (c : Chip) (addr : Nat) (b : List Byte) : (c.hostWrite addr b).smbus = c.smbus := rfl
@[simp] theorem Chip.hostWrite_freeCtr (c : Chip) (addr : Nat) (b : List Byte) : (c.hostWrite addr b).freeCtr = c.freeCtr := rfl

@[simp] theorem Chip.accept_gauge (c : Chip) (g need : Nat) : (c.accept g need).gauge = c.gauge := rfl
@[simp] theorem Chip.accept_tens (c : Chip) (g need : Nat) : (c.accept g need).tens = c.tens := rfl
@[simp] theorem Chip.accept_evc (c : Chip) (g need : Nat) : (c.accept g need).evc = c.evc := rfl
@[simp] theorem Chip.accept_log (c : Chip) (g need : Nat) : (c.accept g need).log = c.log := rfl
@[simp] theorem Chip.accept_waits (c : Chip) (g need : Nat) : (c.accept g need).waits = c.waits := rfl
@[simp] theorem Chip.accept_cast (c : Chip) (g need : Nat) : (c.accept g need).cast = c.cast := rfl
@[simp] theorem Chip.accept_hank (c : Chip) (g need : Nat) : (c.accept g need).hank = c.hank := rfl
@[simp] theorem Chip.accept_markers (c : Chip) (g need : Nat) : (c.accept g need).markers = c.markers := rfl
@[simp] theorem Chip.accept_ndl (c : Chip) (g need : Nat) : (c.accept g need).ndl = c.ndl := rfl
@[simp] theorem Chip.accept_pnl (c : Chip) (g need : Nat) : (c.accept g need).pnl = c.pnl := rfl
@[simp] theorem Chip.accept_vdec (c : Chip) (g need : Nat) : (c.accept g need).vdec = c.vdec := rfl
@[simp] theorem Chip.accept_venc (c : Chip) (g need : Nat) : (c.accept g need).venc = c.venc := rfl
@[simp] theorem Chip.accept_tracks (c : Chip) (g need : Nat) : (c.accept g need).tracks = c.tracks := rfl
@[simp] theorem Chip.accept_hbm (c : Chip) (g need : Nat) : (c.accept g need).hbm = c.hbm := rfl
@[simp] theorem Chip.accept_rnd (c : Chip) (g need : Nat) : (c.accept g need).rnd = c.rnd := rfl
@[simp] theorem Chip.accept_rst (c : Chip) (g need : Nat) : (c.accept g need).rst = c.rst := rfl
@[simp] theorem Chip.accept_rung (c : Chip) (g need : Nat) : (c.accept g need).rung = c.rung := rfl
@[simp] theorem Chip.accept_pat (c : Chip) (g need : Nat) : (c.accept g need).pat = c.pat := rfl
@[simp] theorem Chip.accept_keep (c : Chip) (g need : Nat) : (c.accept g need).keep = c.keep := rfl
@[simp] theorem Chip.accept_pins (c : Chip) (g need : Nat) : (c.accept g need).pins = c.pins := rfl
@[simp] theorem Chip.accept_smbus (c : Chip) (g need : Nat) : (c.accept g need).smbus = c.smbus := rfl
@[simp] theorem Chip.accept_hostTx (c : Chip) (g need : Nat) : (c.accept g need).hostTx = c.hostTx := rfl
@[simp] theorem Chip.accept_freeCtr (c : Chip) (g need : Nat) : (c.accept g need).freeCtr = c.freeCtr := rfl

@[simp] theorem Chip.unreserve_gauge (c : Chip) (g n : Nat) : (c.unreserve g n).gauge = c.gauge := rfl
@[simp] theorem Chip.unreserve_tens (c : Chip) (g n : Nat) : (c.unreserve g n).tens = c.tens := rfl
@[simp] theorem Chip.unreserve_evc (c : Chip) (g n : Nat) : (c.unreserve g n).evc = c.evc := rfl
@[simp] theorem Chip.unreserve_log (c : Chip) (g n : Nat) : (c.unreserve g n).log = c.log := rfl
@[simp] theorem Chip.unreserve_pcie (c : Chip) (g n : Nat) : (c.unreserve g n).pcie = c.pcie := rfl
@[simp] theorem Chip.unreserve_waits (c : Chip) (g n : Nat) : (c.unreserve g n).waits = c.waits := rfl
@[simp] theorem Chip.unreserve_cast (c : Chip) (g n : Nat) : (c.unreserve g n).cast = c.cast := rfl
@[simp] theorem Chip.unreserve_hank (c : Chip) (g n : Nat) : (c.unreserve g n).hank = c.hank := rfl
@[simp] theorem Chip.unreserve_markers (c : Chip) (g n : Nat) : (c.unreserve g n).markers = c.markers := rfl
@[simp] theorem Chip.unreserve_ndl (c : Chip) (g n : Nat) : (c.unreserve g n).ndl = c.ndl := rfl
@[simp] theorem Chip.unreserve_pnl (c : Chip) (g n : Nat) : (c.unreserve g n).pnl = c.pnl := rfl
@[simp] theorem Chip.unreserve_vdec (c : Chip) (g n : Nat) : (c.unreserve g n).vdec = c.vdec := rfl
@[simp] theorem Chip.unreserve_venc (c : Chip) (g n : Nat) : (c.unreserve g n).venc = c.venc := rfl
@[simp] theorem Chip.unreserve_tracks (c : Chip) (g n : Nat) : (c.unreserve g n).tracks = c.tracks := rfl
@[simp] theorem Chip.unreserve_hbm (c : Chip) (g n : Nat) : (c.unreserve g n).hbm = c.hbm := rfl
@[simp] theorem Chip.unreserve_rnd (c : Chip) (g n : Nat) : (c.unreserve g n).rnd = c.rnd := rfl
@[simp] theorem Chip.unreserve_rst (c : Chip) (g n : Nat) : (c.unreserve g n).rst = c.rst := rfl
@[simp] theorem Chip.unreserve_rung (c : Chip) (g n : Nat) : (c.unreserve g n).rung = c.rung := rfl
@[simp] theorem Chip.unreserve_pat (c : Chip) (g n : Nat) : (c.unreserve g n).pat = c.pat := rfl
@[simp] theorem Chip.unreserve_keep (c : Chip) (g n : Nat) : (c.unreserve g n).keep = c.keep := rfl
@[simp] theorem Chip.unreserve_pins (c : Chip) (g n : Nat) : (c.unreserve g n).pins = c.pins := rfl
@[simp] theorem Chip.unreserve_smbus (c : Chip) (g n : Nat) : (c.unreserve g n).smbus = c.smbus := rfl
@[simp] theorem Chip.unreserve_hostTx (c : Chip) (g n : Nat) : (c.unreserve g n).hostTx = c.hostTx := rfl
@[simp] theorem Chip.unreserve_freeCtr (c : Chip) (g n : Nat) : (c.unreserve g n).freeCtr = c.freeCtr := rfl

@[simp] theorem Chip.cqHold_gauge (c : Chip) (g : Nat) (r : CqRec) : (c.cqHold g r).gauge = c.gauge := rfl
@[simp] theorem Chip.cqHold_tens (c : Chip) (g : Nat) (r : CqRec) : (c.cqHold g r).tens = c.tens := rfl
@[simp] theorem Chip.cqHold_evc (c : Chip) (g : Nat) (r : CqRec) : (c.cqHold g r).evc = c.evc := rfl
@[simp] theorem Chip.cqHold_log (c : Chip) (g : Nat) (r : CqRec) : (c.cqHold g r).log = c.log := rfl
@[simp] theorem Chip.cqHold_queues (c : Chip) (g : Nat) (r : CqRec) : (c.cqHold g r).queues = c.queues := rfl
@[simp] theorem Chip.cqHold_waits (c : Chip) (g : Nat) (r : CqRec) : (c.cqHold g r).waits = c.waits := rfl
@[simp] theorem Chip.cqHold_cast (c : Chip) (g : Nat) (r : CqRec) : (c.cqHold g r).cast = c.cast := rfl
@[simp] theorem Chip.cqHold_hank (c : Chip) (g : Nat) (r : CqRec) : (c.cqHold g r).hank = c.hank := rfl
@[simp] theorem Chip.cqHold_markers (c : Chip) (g : Nat) (r : CqRec) : (c.cqHold g r).markers = c.markers := rfl
@[simp] theorem Chip.cqHold_ndl (c : Chip) (g : Nat) (r : CqRec) : (c.cqHold g r).ndl = c.ndl := rfl
@[simp] theorem Chip.cqHold_pnl (c : Chip) (g : Nat) (r : CqRec) : (c.cqHold g r).pnl = c.pnl := rfl
@[simp] theorem Chip.cqHold_vdec (c : Chip) (g : Nat) (r : CqRec) : (c.cqHold g r).vdec = c.vdec := rfl
@[simp] theorem Chip.cqHold_venc (c : Chip) (g : Nat) (r : CqRec) : (c.cqHold g r).venc = c.venc := rfl
@[simp] theorem Chip.cqHold_tracks (c : Chip) (g : Nat) (r : CqRec) : (c.cqHold g r).tracks = c.tracks := rfl
@[simp] theorem Chip.cqHold_hbm (c : Chip) (g : Nat) (r : CqRec) : (c.cqHold g r).hbm = c.hbm := rfl
@[simp] theorem Chip.cqHold_rnd (c : Chip) (g : Nat) (r : CqRec) : (c.cqHold g r).rnd = c.rnd := rfl
@[simp] theorem Chip.cqHold_rst (c : Chip) (g : Nat) (r : CqRec) : (c.cqHold g r).rst = c.rst := rfl
@[simp] theorem Chip.cqHold_rung (c : Chip) (g : Nat) (r : CqRec) : (c.cqHold g r).rung = c.rung := rfl
@[simp] theorem Chip.cqHold_pat (c : Chip) (g : Nat) (r : CqRec) : (c.cqHold g r).pat = c.pat := rfl
@[simp] theorem Chip.cqHold_keep (c : Chip) (g : Nat) (r : CqRec) : (c.cqHold g r).keep = c.keep := rfl
@[simp] theorem Chip.cqHold_pins (c : Chip) (g : Nat) (r : CqRec) : (c.cqHold g r).pins = c.pins := rfl
@[simp] theorem Chip.cqHold_smbus (c : Chip) (g : Nat) (r : CqRec) : (c.cqHold g r).smbus = c.smbus := rfl
@[simp] theorem Chip.cqHold_hostTx (c : Chip) (g : Nat) (r : CqRec) : (c.cqHold g r).hostTx = c.hostTx := rfl
@[simp] theorem Chip.cqHold_freeCtr (c : Chip) (g : Nat) (r : CqRec) : (c.cqHold g r).freeCtr = c.freeCtr := rfl

@[simp] theorem Chip.freeTag_gauge (c : Chip) (tag : Nat) : (c.freeTag tag).gauge = c.gauge := rfl
@[simp] theorem Chip.freeTag_tens (c : Chip) (tag : Nat) : (c.freeTag tag).tens = c.tens := rfl
@[simp] theorem Chip.freeTag_evc (c : Chip) (tag : Nat) : (c.freeTag tag).evc = c.evc := rfl
@[simp] theorem Chip.freeTag_log (c : Chip) (tag : Nat) : (c.freeTag tag).log = c.log := rfl
@[simp] theorem Chip.freeTag_queues (c : Chip) (tag : Nat) : (c.freeTag tag).queues = c.queues := rfl
@[simp] theorem Chip.freeTag_waits (c : Chip) (tag : Nat) : (c.freeTag tag).waits = c.waits := rfl
@[simp] theorem Chip.freeTag_cast (c : Chip) (tag : Nat) : (c.freeTag tag).cast = c.cast := rfl
@[simp] theorem Chip.freeTag_hank (c : Chip) (tag : Nat) : (c.freeTag tag).hank = c.hank := rfl
@[simp] theorem Chip.freeTag_markers (c : Chip) (tag : Nat) : (c.freeTag tag).markers = c.markers := rfl
@[simp] theorem Chip.freeTag_ndl (c : Chip) (tag : Nat) : (c.freeTag tag).ndl = c.ndl := rfl
@[simp] theorem Chip.freeTag_pnl (c : Chip) (tag : Nat) : (c.freeTag tag).pnl = c.pnl := rfl
@[simp] theorem Chip.freeTag_vdec (c : Chip) (tag : Nat) : (c.freeTag tag).vdec = c.vdec := rfl
@[simp] theorem Chip.freeTag_venc (c : Chip) (tag : Nat) : (c.freeTag tag).venc = c.venc := rfl
@[simp] theorem Chip.freeTag_tracks (c : Chip) (tag : Nat) : (c.freeTag tag).tracks = c.tracks := rfl
@[simp] theorem Chip.freeTag_hbm (c : Chip) (tag : Nat) : (c.freeTag tag).hbm = c.hbm := rfl
@[simp] theorem Chip.freeTag_rnd (c : Chip) (tag : Nat) : (c.freeTag tag).rnd = c.rnd := rfl
@[simp] theorem Chip.freeTag_rst (c : Chip) (tag : Nat) : (c.freeTag tag).rst = c.rst := rfl
@[simp] theorem Chip.freeTag_rung (c : Chip) (tag : Nat) : (c.freeTag tag).rung = c.rung := rfl
@[simp] theorem Chip.freeTag_pat (c : Chip) (tag : Nat) : (c.freeTag tag).pat = c.pat := rfl
@[simp] theorem Chip.freeTag_keep (c : Chip) (tag : Nat) : (c.freeTag tag).keep = c.keep := rfl
@[simp] theorem Chip.freeTag_pins (c : Chip) (tag : Nat) : (c.freeTag tag).pins = c.pins := rfl
@[simp] theorem Chip.freeTag_smbus (c : Chip) (tag : Nat) : (c.freeTag tag).smbus = c.smbus := rfl
@[simp] theorem Chip.freeTag_hostTx (c : Chip) (tag : Nat) : (c.freeTag tag).hostTx = c.hostTx := rfl
@[simp] theorem Chip.freeTag_freeCtr (c : Chip) (tag : Nat) : (c.freeTag tag).freeCtr = c.freeCtr := rfl

@[simp] theorem Chip.unexpected_gauge (c : Chip) : c.unexpected.gauge = c.gauge := rfl
@[simp] theorem Chip.unexpected_tens (c : Chip) : c.unexpected.tens = c.tens := rfl
@[simp] theorem Chip.unexpected_evc (c : Chip) : c.unexpected.evc = c.evc := rfl
@[simp] theorem Chip.unexpected_log (c : Chip) : c.unexpected.log = c.log := rfl
@[simp] theorem Chip.unexpected_queues (c : Chip) : c.unexpected.queues = c.queues := rfl
@[simp] theorem Chip.unexpected_waits (c : Chip) : c.unexpected.waits = c.waits := rfl
@[simp] theorem Chip.unexpected_cast (c : Chip) : c.unexpected.cast = c.cast := rfl
@[simp] theorem Chip.unexpected_hank (c : Chip) : c.unexpected.hank = c.hank := rfl
@[simp] theorem Chip.unexpected_markers (c : Chip) : c.unexpected.markers = c.markers := rfl
@[simp] theorem Chip.unexpected_ndl (c : Chip) : c.unexpected.ndl = c.ndl := rfl
@[simp] theorem Chip.unexpected_pnl (c : Chip) : c.unexpected.pnl = c.pnl := rfl
@[simp] theorem Chip.unexpected_vdec (c : Chip) : c.unexpected.vdec = c.vdec := rfl
@[simp] theorem Chip.unexpected_venc (c : Chip) : c.unexpected.venc = c.venc := rfl
@[simp] theorem Chip.unexpected_tracks (c : Chip) : c.unexpected.tracks = c.tracks := rfl
@[simp] theorem Chip.unexpected_hbm (c : Chip) : c.unexpected.hbm = c.hbm := rfl
@[simp] theorem Chip.unexpected_rnd (c : Chip) : c.unexpected.rnd = c.rnd := rfl
@[simp] theorem Chip.unexpected_rst (c : Chip) : c.unexpected.rst = c.rst := rfl
@[simp] theorem Chip.unexpected_rung (c : Chip) : c.unexpected.rung = c.rung := rfl
@[simp] theorem Chip.unexpected_pat (c : Chip) : c.unexpected.pat = c.pat := rfl
@[simp] theorem Chip.unexpected_keep (c : Chip) : c.unexpected.keep = c.keep := rfl
@[simp] theorem Chip.unexpected_pins (c : Chip) : c.unexpected.pins = c.pins := rfl
@[simp] theorem Chip.unexpected_smbus (c : Chip) : c.unexpected.smbus = c.smbus := rfl
@[simp] theorem Chip.unexpected_hostTx (c : Chip) : c.unexpected.hostTx = c.hostTx := rfl
@[simp] theorem Chip.unexpected_freeCtr (c : Chip) : c.unexpected.freeCtr = c.freeCtr := rfl

@[simp] theorem Chip.dropLead_gauge (c : Chip) (l : GarmentLead) : (c.dropLead l).gauge = c.gauge := rfl
@[simp] theorem Chip.dropLead_tens (c : Chip) (l : GarmentLead) : (c.dropLead l).tens = c.tens := rfl
@[simp] theorem Chip.dropLead_evc (c : Chip) (l : GarmentLead) : (c.dropLead l).evc = c.evc := rfl
@[simp] theorem Chip.dropLead_log (c : Chip) (l : GarmentLead) : (c.dropLead l).log = c.log := rfl
@[simp] theorem Chip.dropLead_pcie (c : Chip) (l : GarmentLead) : (c.dropLead l).pcie = c.pcie := rfl
@[simp] theorem Chip.dropLead_queues (c : Chip) (l : GarmentLead) : (c.dropLead l).queues = c.queues := rfl
@[simp] theorem Chip.dropLead_waits (c : Chip) (l : GarmentLead) : (c.dropLead l).waits = c.waits := rfl
@[simp] theorem Chip.dropLead_hank (c : Chip) (l : GarmentLead) : (c.dropLead l).hank = c.hank := rfl
@[simp] theorem Chip.dropLead_markers (c : Chip) (l : GarmentLead) : (c.dropLead l).markers = c.markers := rfl
@[simp] theorem Chip.dropLead_ndl (c : Chip) (l : GarmentLead) : (c.dropLead l).ndl = c.ndl := rfl
@[simp] theorem Chip.dropLead_pnl (c : Chip) (l : GarmentLead) : (c.dropLead l).pnl = c.pnl := rfl
@[simp] theorem Chip.dropLead_vdec (c : Chip) (l : GarmentLead) : (c.dropLead l).vdec = c.vdec := rfl
@[simp] theorem Chip.dropLead_venc (c : Chip) (l : GarmentLead) : (c.dropLead l).venc = c.venc := rfl
@[simp] theorem Chip.dropLead_tracks (c : Chip) (l : GarmentLead) : (c.dropLead l).tracks = c.tracks := rfl
@[simp] theorem Chip.dropLead_hbm (c : Chip) (l : GarmentLead) : (c.dropLead l).hbm = c.hbm := rfl
@[simp] theorem Chip.dropLead_rnd (c : Chip) (l : GarmentLead) : (c.dropLead l).rnd = c.rnd := rfl
@[simp] theorem Chip.dropLead_rst (c : Chip) (l : GarmentLead) : (c.dropLead l).rst = c.rst := rfl
@[simp] theorem Chip.dropLead_rung (c : Chip) (l : GarmentLead) : (c.dropLead l).rung = c.rung := rfl
@[simp] theorem Chip.dropLead_pat (c : Chip) (l : GarmentLead) : (c.dropLead l).pat = c.pat := rfl
@[simp] theorem Chip.dropLead_keep (c : Chip) (l : GarmentLead) : (c.dropLead l).keep = c.keep := rfl
@[simp] theorem Chip.dropLead_pins (c : Chip) (l : GarmentLead) : (c.dropLead l).pins = c.pins := rfl
@[simp] theorem Chip.dropLead_smbus (c : Chip) (l : GarmentLead) : (c.dropLead l).smbus = c.smbus := rfl
@[simp] theorem Chip.dropLead_hostTx (c : Chip) (l : GarmentLead) : (c.dropLead l).hostTx = c.hostTx := rfl
@[simp] theorem Chip.dropLead_freeCtr (c : Chip) (l : GarmentLead) : (c.dropLead l).freeCtr = c.freeCtr := rfl

@[simp] theorem Chip.hankAlloc_gauge (c : Chip) (ticket tag n : Nat) : (c.hankAlloc ticket tag n).gauge = c.gauge := rfl
@[simp] theorem Chip.hankAlloc_tens (c : Chip) (ticket tag n : Nat) : (c.hankAlloc ticket tag n).tens = c.tens := rfl
@[simp] theorem Chip.hankAlloc_evc (c : Chip) (ticket tag n : Nat) : (c.hankAlloc ticket tag n).evc = c.evc := rfl
@[simp] theorem Chip.hankAlloc_log (c : Chip) (ticket tag n : Nat) : (c.hankAlloc ticket tag n).log = c.log := rfl
@[simp] theorem Chip.hankAlloc_pcie (c : Chip) (ticket tag n : Nat) : (c.hankAlloc ticket tag n).pcie = c.pcie := rfl
@[simp] theorem Chip.hankAlloc_queues (c : Chip) (ticket tag n : Nat) : (c.hankAlloc ticket tag n).queues = c.queues := rfl
@[simp] theorem Chip.hankAlloc_waits (c : Chip) (ticket tag n : Nat) : (c.hankAlloc ticket tag n).waits = c.waits := rfl
@[simp] theorem Chip.hankAlloc_cast (c : Chip) (ticket tag n : Nat) : (c.hankAlloc ticket tag n).cast = c.cast := rfl
@[simp] theorem Chip.hankAlloc_markers (c : Chip) (ticket tag n : Nat) : (c.hankAlloc ticket tag n).markers = c.markers := rfl
@[simp] theorem Chip.hankAlloc_ndl (c : Chip) (ticket tag n : Nat) : (c.hankAlloc ticket tag n).ndl = c.ndl := rfl
@[simp] theorem Chip.hankAlloc_pnl (c : Chip) (ticket tag n : Nat) : (c.hankAlloc ticket tag n).pnl = c.pnl := rfl
@[simp] theorem Chip.hankAlloc_vdec (c : Chip) (ticket tag n : Nat) : (c.hankAlloc ticket tag n).vdec = c.vdec := rfl
@[simp] theorem Chip.hankAlloc_venc (c : Chip) (ticket tag n : Nat) : (c.hankAlloc ticket tag n).venc = c.venc := rfl
@[simp] theorem Chip.hankAlloc_tracks (c : Chip) (ticket tag n : Nat) : (c.hankAlloc ticket tag n).tracks = c.tracks := rfl
@[simp] theorem Chip.hankAlloc_hbm (c : Chip) (ticket tag n : Nat) : (c.hankAlloc ticket tag n).hbm = c.hbm := rfl
@[simp] theorem Chip.hankAlloc_rnd (c : Chip) (ticket tag n : Nat) : (c.hankAlloc ticket tag n).rnd = c.rnd := rfl
@[simp] theorem Chip.hankAlloc_rst (c : Chip) (ticket tag n : Nat) : (c.hankAlloc ticket tag n).rst = c.rst := rfl
@[simp] theorem Chip.hankAlloc_rung (c : Chip) (ticket tag n : Nat) : (c.hankAlloc ticket tag n).rung = c.rung := rfl
@[simp] theorem Chip.hankAlloc_pat (c : Chip) (ticket tag n : Nat) : (c.hankAlloc ticket tag n).pat = c.pat := rfl
@[simp] theorem Chip.hankAlloc_keep (c : Chip) (ticket tag n : Nat) : (c.hankAlloc ticket tag n).keep = c.keep := rfl
@[simp] theorem Chip.hankAlloc_pins (c : Chip) (ticket tag n : Nat) : (c.hankAlloc ticket tag n).pins = c.pins := rfl
@[simp] theorem Chip.hankAlloc_smbus (c : Chip) (ticket tag n : Nat) : (c.hankAlloc ticket tag n).smbus = c.smbus := rfl
@[simp] theorem Chip.hankAlloc_hostTx (c : Chip) (ticket tag n : Nat) : (c.hankAlloc ticket tag n).hostTx = c.hostTx := rfl
@[simp] theorem Chip.hankAlloc_freeCtr (c : Chip) (ticket tag n : Nat) : (c.hankAlloc ticket tag n).freeCtr = c.freeCtr := rfl

@[simp] theorem Chip.hankGrant_gauge (c : Chip) : c.hankGrant.gauge = c.gauge := rfl
@[simp] theorem Chip.hankGrant_tens (c : Chip) : c.hankGrant.tens = c.tens := rfl
@[simp] theorem Chip.hankGrant_evc (c : Chip) : c.hankGrant.evc = c.evc := rfl
@[simp] theorem Chip.hankGrant_log (c : Chip) : c.hankGrant.log = c.log := rfl
@[simp] theorem Chip.hankGrant_pcie (c : Chip) : c.hankGrant.pcie = c.pcie := rfl
@[simp] theorem Chip.hankGrant_queues (c : Chip) : c.hankGrant.queues = c.queues := rfl
@[simp] theorem Chip.hankGrant_waits (c : Chip) : c.hankGrant.waits = c.waits := rfl
@[simp] theorem Chip.hankGrant_cast (c : Chip) : c.hankGrant.cast = c.cast := rfl
@[simp] theorem Chip.hankGrant_markers (c : Chip) : c.hankGrant.markers = c.markers := rfl
@[simp] theorem Chip.hankGrant_ndl (c : Chip) : c.hankGrant.ndl = c.ndl := rfl
@[simp] theorem Chip.hankGrant_pnl (c : Chip) : c.hankGrant.pnl = c.pnl := rfl
@[simp] theorem Chip.hankGrant_vdec (c : Chip) : c.hankGrant.vdec = c.vdec := rfl
@[simp] theorem Chip.hankGrant_venc (c : Chip) : c.hankGrant.venc = c.venc := rfl
@[simp] theorem Chip.hankGrant_tracks (c : Chip) : c.hankGrant.tracks = c.tracks := rfl
@[simp] theorem Chip.hankGrant_hbm (c : Chip) : c.hankGrant.hbm = c.hbm := rfl
@[simp] theorem Chip.hankGrant_rnd (c : Chip) : c.hankGrant.rnd = c.rnd := rfl
@[simp] theorem Chip.hankGrant_rst (c : Chip) : c.hankGrant.rst = c.rst := rfl
@[simp] theorem Chip.hankGrant_rung (c : Chip) : c.hankGrant.rung = c.rung := rfl
@[simp] theorem Chip.hankGrant_pat (c : Chip) : c.hankGrant.pat = c.pat := rfl
@[simp] theorem Chip.hankGrant_keep (c : Chip) : c.hankGrant.keep = c.keep := rfl
@[simp] theorem Chip.hankGrant_pins (c : Chip) : c.hankGrant.pins = c.pins := rfl
@[simp] theorem Chip.hankGrant_smbus (c : Chip) : c.hankGrant.smbus = c.smbus := rfl
@[simp] theorem Chip.hankGrant_hostTx (c : Chip) : c.hankGrant.hostTx = c.hostTx := rfl
@[simp] theorem Chip.hankGrant_freeCtr (c : Chip) : c.hankGrant.freeCtr = c.freeCtr := rfl

@[simp] theorem Chip.scrubDone_gauge (c : Chip) (h : Nat) : (c.scrubDone h).gauge = c.gauge := rfl
@[simp] theorem Chip.scrubDone_tens (c : Chip) (h : Nat) : (c.scrubDone h).tens = c.tens := rfl
@[simp] theorem Chip.scrubDone_evc (c : Chip) (h : Nat) : (c.scrubDone h).evc = c.evc := rfl
@[simp] theorem Chip.scrubDone_log (c : Chip) (h : Nat) : (c.scrubDone h).log = c.log := rfl
@[simp] theorem Chip.scrubDone_pcie (c : Chip) (h : Nat) : (c.scrubDone h).pcie = c.pcie := rfl
@[simp] theorem Chip.scrubDone_queues (c : Chip) (h : Nat) : (c.scrubDone h).queues = c.queues := rfl
@[simp] theorem Chip.scrubDone_waits (c : Chip) (h : Nat) : (c.scrubDone h).waits = c.waits := rfl
@[simp] theorem Chip.scrubDone_cast (c : Chip) (h : Nat) : (c.scrubDone h).cast = c.cast := rfl
@[simp] theorem Chip.scrubDone_markers (c : Chip) (h : Nat) : (c.scrubDone h).markers = c.markers := rfl
@[simp] theorem Chip.scrubDone_ndl (c : Chip) (h : Nat) : (c.scrubDone h).ndl = c.ndl := rfl
@[simp] theorem Chip.scrubDone_pnl (c : Chip) (h : Nat) : (c.scrubDone h).pnl = c.pnl := rfl
@[simp] theorem Chip.scrubDone_vdec (c : Chip) (h : Nat) : (c.scrubDone h).vdec = c.vdec := rfl
@[simp] theorem Chip.scrubDone_venc (c : Chip) (h : Nat) : (c.scrubDone h).venc = c.venc := rfl
@[simp] theorem Chip.scrubDone_tracks (c : Chip) (h : Nat) : (c.scrubDone h).tracks = c.tracks := rfl
@[simp] theorem Chip.scrubDone_hbm (c : Chip) (h : Nat) : (c.scrubDone h).hbm = c.hbm := rfl
@[simp] theorem Chip.scrubDone_rnd (c : Chip) (h : Nat) : (c.scrubDone h).rnd = c.rnd := rfl
@[simp] theorem Chip.scrubDone_rst (c : Chip) (h : Nat) : (c.scrubDone h).rst = c.rst := rfl
@[simp] theorem Chip.scrubDone_rung (c : Chip) (h : Nat) : (c.scrubDone h).rung = c.rung := rfl
@[simp] theorem Chip.scrubDone_pat (c : Chip) (h : Nat) : (c.scrubDone h).pat = c.pat := rfl
@[simp] theorem Chip.scrubDone_keep (c : Chip) (h : Nat) : (c.scrubDone h).keep = c.keep := rfl
@[simp] theorem Chip.scrubDone_pins (c : Chip) (h : Nat) : (c.scrubDone h).pins = c.pins := rfl
@[simp] theorem Chip.scrubDone_smbus (c : Chip) (h : Nat) : (c.scrubDone h).smbus = c.smbus := rfl
@[simp] theorem Chip.scrubDone_hostTx (c : Chip) (h : Nat) : (c.scrubDone h).hostTx = c.hostTx := rfl
@[simp] theorem Chip.scrubDone_freeCtr (c : Chip) (h : Nat) : (c.scrubDone h).freeCtr = c.freeCtr := rfl

@[simp] theorem Chip.hbmRead_gauge (c : Chip) (r : Range) : (c.hbmRead r).gauge = c.gauge := rfl
@[simp] theorem Chip.hbmRead_tens (c : Chip) (r : Range) : (c.hbmRead r).tens = c.tens := rfl
@[simp] theorem Chip.hbmRead_evc (c : Chip) (r : Range) : (c.hbmRead r).evc = c.evc := rfl
@[simp] theorem Chip.hbmRead_log (c : Chip) (r : Range) : (c.hbmRead r).log = c.log := rfl
@[simp] theorem Chip.hbmRead_pcie (c : Chip) (r : Range) : (c.hbmRead r).pcie = c.pcie := rfl
@[simp] theorem Chip.hbmRead_queues (c : Chip) (r : Range) : (c.hbmRead r).queues = c.queues := rfl
@[simp] theorem Chip.hbmRead_waits (c : Chip) (r : Range) : (c.hbmRead r).waits = c.waits := rfl
@[simp] theorem Chip.hbmRead_cast (c : Chip) (r : Range) : (c.hbmRead r).cast = c.cast := rfl
@[simp] theorem Chip.hbmRead_hank (c : Chip) (r : Range) : (c.hbmRead r).hank = c.hank := rfl
@[simp] theorem Chip.hbmRead_markers (c : Chip) (r : Range) : (c.hbmRead r).markers = c.markers := rfl
@[simp] theorem Chip.hbmRead_ndl (c : Chip) (r : Range) : (c.hbmRead r).ndl = c.ndl := rfl
@[simp] theorem Chip.hbmRead_pnl (c : Chip) (r : Range) : (c.hbmRead r).pnl = c.pnl := rfl
@[simp] theorem Chip.hbmRead_vdec (c : Chip) (r : Range) : (c.hbmRead r).vdec = c.vdec := rfl
@[simp] theorem Chip.hbmRead_venc (c : Chip) (r : Range) : (c.hbmRead r).venc = c.venc := rfl
@[simp] theorem Chip.hbmRead_tracks (c : Chip) (r : Range) : (c.hbmRead r).tracks = c.tracks := rfl
@[simp] theorem Chip.hbmRead_rnd (c : Chip) (r : Range) : (c.hbmRead r).rnd = c.rnd := rfl
@[simp] theorem Chip.hbmRead_rst (c : Chip) (r : Range) : (c.hbmRead r).rst = c.rst := rfl
@[simp] theorem Chip.hbmRead_rung (c : Chip) (r : Range) : (c.hbmRead r).rung = c.rung := rfl
@[simp] theorem Chip.hbmRead_pat (c : Chip) (r : Range) : (c.hbmRead r).pat = c.pat := rfl
@[simp] theorem Chip.hbmRead_keep (c : Chip) (r : Range) : (c.hbmRead r).keep = c.keep := rfl
@[simp] theorem Chip.hbmRead_pins (c : Chip) (r : Range) : (c.hbmRead r).pins = c.pins := rfl
@[simp] theorem Chip.hbmRead_smbus (c : Chip) (r : Range) : (c.hbmRead r).smbus = c.smbus := rfl
@[simp] theorem Chip.hbmRead_hostTx (c : Chip) (r : Range) : (c.hbmRead r).hostTx = c.hostTx := rfl
@[simp] theorem Chip.hbmRead_freeCtr (c : Chip) (r : Range) : (c.hbmRead r).freeCtr = c.freeCtr := rfl

@[simp] theorem Chip.advance_gauge (c : Chip) (t : Nat) : (c.advance t).gauge = c.gauge.advance t := rfl
@[simp] theorem Chip.updQueue_queues (c : Chip) (g : Nat) (f : Queue → Queue) : (c.updQueue g f).queues = Tbl.upd {} c.queues g f := rfl
@[simp] theorem Chip.updNeedle_ndl (c : Chip) (n : Nat) (f : Needle → Needle) : (c.updNeedle n f).ndl = { c.ndl with tab := Tbl.upd {} c.ndl.tab n f } := rfl
@[simp] theorem Chip.updPanel_pnl (c : Chip) (p : Nat) (f : Panel → Panel) : (c.updPanel p f).pnl = { c.pnl with panels := Tbl.upd {} c.pnl.panels p f } := rfl
@[simp] theorem Chip.updTicket_cast (c : Chip) (t : Nat) (f : Ticket → Ticket) : (c.updTicket t f).cast = c.cast.updTicket t f := rfl
@[simp] theorem Chip.edge_evc (c : Chip) (s : Nat) : (c.edge s).evc = c.evc.edge c.pcie c.now s := rfl
@[simp] theorem Chip.hostWrite_hostTx (c : Chip) (addr : Nat) (b : List Byte) : (c.hostWrite addr b).hostTx = c.hostTx ++ [{ addr := addr, bytes := b }] := rfl
@[simp] theorem Chip.hostWrite_pcie (c : Chip) (addr : Nat) (b : List Byte) : (c.hostWrite addr b).pcie = c.pcie.countWrite b.length := rfl
@[simp] theorem Chip.accept_queues (c : Chip) (g need : Nat) : (c.accept g need).queues = Tbl.upd {} c.queues g (fun q => q.accept need) := rfl

end Sys2Proof.Machine
end

