-- ==== Sys2Proof/Laws/Submit.lean ====
section
/-!
SUPPORT. What handing over one submission entry can do (R275 to R281): an entry that is not next changes nothing, and an entry taken
and answered moves its own queue, sends one record and touches nothing but the queues, the host writes, the endpoint and the events.
-/
namespace Sys2Proof.Machine

/-- The function of a global queue number, back from the function and its local queue (Table 13.6). -/
theorem queueFn_globalQueue {fn q : Nat} (h : q < queuesOf fn) : queueFn (globalQueue fn q) = fn := by
  unfold queueFn globalQueue queuesOf at *
  split at h
  · simp_all
  · rename_i hf; rw [if_neg hf, if_neg (by omega)]; omega

/-- An entry accepted, answered and its spare records given back: the queue is `Answered`, its record is the next host write, and only
the queues, the host writes, the endpoint and the events have changed. -/
theorem Chip.answer_spec (c : Chip) (g need tag st tk n : Nat) (hn : 1 ≤ need) (hb : (c.pcie.fn (queueFn g)).bme = true)
    (hr : (c.queue g).state = .running) :
    let d := ((c.accept g need).answer g tag st tk n).unreserve g (need - 1)
    Safety.Answered c d g ∧ d.hostTx = c.hostTx ++ [Safety.answerWrite c g tag st tk n] ∧
    d = { c with queues := d.queues, hostTx := d.hostTx, pcie := d.pcie, evc := d.evc } := by
  have hb' : ((c.accept g need).pcie.fn (queueFn g)).bme = true := hb
  intro d
  have hd : d = (((c.accept g need).updQueue g (fun q => { q with reserved := q.reserved - 1 })).cqPut g
      (answerRec tag st tk n)).unreserve g (need - 1) := by
    show Chip.unreserve (Chip.cqWrite _ _ _) _ _ = _
    unfold Chip.cqWrite; rw [if_pos hb']
  rw [hd]
  refine ⟨⟨?_, ?_, ?_, ?_, ?_, ?_, ?_⟩, ?_, ?_⟩
  all_goals try (unfold Chip.unreserve Chip.cqPut Chip.updQueue Chip.accept Chip.queue; simp only [Tbl.get_upd_same, Tbl.get_set_same, Queue.written, Queue.accept, Queue.sqSize, Queue.cqSize])
  · omega
  · exact hr
  · intro k hk
    rw [Tbl.get_upd_other _ _ _ hk, Tbl.get_set_other _ _ _ hk, Tbl.get_upd_other _ _ _ hk, Tbl.get_upd_other _ _ _ hk]
  · rfl

/-- Every entry needs at least the record that answers it (R276). -/
theorem Chip.needOf_pos (c : Chip) (fn : Nat) (e : List Byte) : 1 ≤ c.needOf fn e := by
  unfold Chip.needOf; split; omega; split; omega; split <;> omega

/-- An entry is taken only from a running queue of a function with Bus Master Enable. -/
theorem Chip.takes_facts {c : Chip} {g n : Nat} (h : c.takes g n = true) :
    (c.queue g).state = .running ∧ (c.pcie.fn (queueFn g)).bme = true := by
  unfold Chip.takes at h; simp only [Bool.and_eq_true, beq_iff_eq] at h; exact ⟨h.1.1.1.1, h.1.1.2⟩

/-- An entry that cannot be taken waits: nothing changes. -/
theorem submit_waits {fn q op : Nat} {e : List Byte} {check : Nat} {f} {c : Chip × Mem}
    (h : c.1.takes (globalQueue fn q) (c.1.needOf fn e) = false) : submit fn q op e check f c = c := by
  unfold submit; simp [h]

/-- An entry taken while admission is closed, or of a bad descriptor, is answered and does nothing else. -/
theorem submit_refused {fn q op : Nat} {e : List Byte} {check : Nat} {f} {c : Chip × Mem} (hq : q < queuesOf fn) (ho : eOp e = op)
    (h : c.1.takes (globalQueue fn q) (c.1.needOf fn e) = true) (hc : c.1.closed = true ∨ check = 2) :
    submit fn q op e check f c =
      (c.1.refuseEntry (globalQueue fn q) (c.1.needOf fn e) e (if c.1.closed then 8 else 2), c.2) := by
  unfold submit; simp only [hq, h, ho, and_self, if_true]
  rcases hc with hc | hc
  · simp [hc, stFenced]
  · subst hc; cases c.1.closed <;> simp [stOk, stFenced]

/-- With Bus Master Enable set, handing an entry over logs nothing. -/
theorem accessOff_bme {fn q op : Nat} {e : List Byte} {r} {c : Chip × Mem} (h : (c.1.pcie.fn fn).bme = true) :
    accessOff fn q op e r c = c := by
  unfold accessOff; simp [h]

end Sys2Proof.Machine
end

