-- ==== Sys2Proof/WellFormed.lean ====
section
/-!
DEFINITION. Which commands are well formed: every operand lies within the range that the spec gives the thing it names. The meanings do
not rest on it; they are total.
-/
namespace Sys2Proof

/-- A function: the PF or one of 16 VFs (R273). -/
def fnOk (fn : Nat) : Bool := decide (fn ≤ 16)
/-- A queue of a function: 128 on the PF, 8 on a VF (R276). -/
def queueOk (fn q : Nat) : Bool := fnOk fn && decide (q < if fn = 0 then 128 else 8)
/-- A submission entry is 64 bytes (Table 13.6). -/
def entryOk (e : List Byte) : Bool := e.length == 64
/-- A needle and a descriptor of 128 bytes (Table 6.3). -/
def todOk (n : Nat) (tod : List Byte) : Bool := decide (n < 64) && tod.length == 128
/-- A Rolivo frame's fields keep the widths of Tables 12.2 and 12.3. -/
def RFrame.wf (f : RFrame) : Bool :=
  decide (f.type < 256 ∧ f.dest < 1024 ∧ f.src < 1024 ∧ f.ttl < 4096 ∧ f.lseq < 65536 ∧ f.length < 65536 ∧ f.garment < 4096 ∧ f.hcrc < 65536) &&
  decide (f.ticket < 4294967296 ∧ f.xfer < 4294967296 ∧ f.offset < 4294967296 ∧ f.arg < 4294967296 ∧ f.pcrc < 4294967296 ∧ f.ack < 65536) &&
  f.credits.length == 4 && f.credits.all (fun c => decide (c < 65536)) && f.payload.length == f.length
/-- Bytes of a BAR2 access lie within the hank (R275). -/
def Bar2Op.wf (offset : Nat) : Bar2Op → Bool
  | .write b => decide (offset + b.length ≤ 16384)
  | .read n => decide (offset + n ≤ 16384)
/-- A video core of a kind. -/
def coreOk (n core : Nat) : Bool := decide (core < n)
/-- A hank of the pool (R235). -/
def hankOk (h : Nat) : Bool := decide (h < 2097152)
/-- What a start's self-test and discovery report lies in range. -/
def StartEnv.wf (e : StartEnv) : Bool :=
  (match e.straps with | some v => decide (v < 1024) | none => true) && e.failMem.all (fun n => decide (n < 64)) &&
  e.failRouter.all (fun n => decide (n < 64)) && e.failCols.all (fun x => decide (x.1 < 64) && x.2.all (fun k => decide (k < 66))) &&
  e.failDec.all (coreOk 12) && e.failEnc.all (coreOk 8) && e.peers.all (fun p => decide (p.1 < 1024)) &&
  decide (e.speed ≤ 5 ∧ e.width ≤ 16) && e.provRows.all (fun r => decide (r.length ≤ 100) && r.all (fun w => w.length == 256))

/-- Whether a command's operands lie in their ranges. -/
def Instr.wf : Instr → Bool
  | .registerWrite fn _ size _ => fnOk fn && [1, 2, 4, 8].contains size
  | .gaugeWindowEnd counts => counts.length == 256
  | .thermalReading temps => temps.length == 32
  | .castOn fn _ | .bindOff fn _ | .garmentCastOn fn _ | .busMasterDisable fn | .busMasterEnable fn | .functionLevelReset fn
  | .d3hotEntry fn | .d0Return fn | .slotWrite fn _ => fnOk fn
  | .reserve _ f | .answer _ f | .commit _ f | .release _ f | .garmentBindOff _ f | .data _ f | .fetch _ f | .idle _ f | .nak _ f
  | .discover _ f | .markerSignal _ f | .garmentAbort _ f | .xferAck _ f | .msgAck _ f | .alarm _ f | .alarmSummary _ f | .ringChange _ f => f.wf
  | .matmul n _ t | .conv n _ t | .dwconv n _ t | .pool n _ t | .eltwise n _ t | .norm n _ t | .softmax n _ t | .gather n _ t
  | .scatter n _ t | .argmax n _ t | .s2d n _ t | .marub n _ t | .sync n _ t => todOk n t
  | .operationComplete n tag _ _ _ _ => decide (n < 64 ∧ tag < 16)
  | .weightSwapComplete n => decide (n < 64)
  | .dmaTransferComplete n _ => decide (n < 64)
  | .chunkAdmit panel res _ => decide (panel < 16 ∧ res < 3)
  | .decodeSegmentEnd core | .decodeComplete core _ => coreOk 12 core
  | .laneStart core | .encodeSegmentEnd core | .encodeComplete core _ => coreOk 8 core
  | .hankShare h _ _ _ | .hankPass h _ _ | .hankFree h _ | .hankScrubDone h => hankOk h
  | .hbmParityError pc => decide (pc < 128)
  | .rowIdleClose pc bank => decide (pc < 128 ∧ bank < 64)
  | .perstRelease e | .modRstRelease e => e.wf
  | .bar2Access fn _ offset op => fnOk fn && op.wf offset
  | .queueEnable fn q _ | .queueDisable fn q _ | .resume fn q | .sqTailWrite fn q _ | .cqHeadWrite fn q _ => queueOk fn q
  | .nop fn q e | .frame fn q e _ _ | .sample fn q e _ _ | .alloc fn q e | .free fn q e _ | .copyOut fn q e _ | .signal fn q e
  | .wait fn q e => queueOk fn q && entryOk e
  | .hostWaitTimeout q _ => decide (q < 256)
  | .completionTlp tag _ | .completionTimeout tag | .tagRelease tag => decide (tag < 768)
  | .numvfsLower n | .vfEnableSet n => decide (n ≤ 16)
  | .eventAck src seen => decide (src < 1024 ∧ seen < 256)
  | .idleHint v => decide (v < 2048)
  | .moderationTimerExpire fn v | .vectorUnmask fn v => fnOk fn && decide (v < if fn = 0 then 2048 else 64)
  | .alarmAck k rep | .ackAlarm k rep => decide (k < 64 ∧ rep < 256)
  | .trip engine context => decide (engine < 256 ∧ context < 16384)
  | .frog context => decide (context < 16384)
  | .panelReset p => decide (p < 16)
  | .setEndpointId eid => decide (eid < 256)
  | .laneLocked _ lanes => decide (lanes < 256)
  | .pcieLinkUp speed width => decide (1 ≤ speed ∧ speed ≤ 5) && [1, 2, 4, 8, 16].contains width
  | .hbmStackTemperature stack _ => decide (stack < 4)
  | .garmentAnswerTimeout g | .garmentHoldExpire g => decide (g < 4096)
  | .controlGap src => decide (src < 1024)
  | .msgAckTimeout dest _ => decide (dest < 1024)
  | .hello _ h => decide (h.neighbour < 1024 ∧ h.bypassed ≤ 2)
  | .rowBoundary _ | .fastHoldExpire | .vcoreSettled | .provisionalRowBoundary | .marginTimeout | .gaugeTimeLoRead | .crystalFail
  | .bindOffDrainEnd _ | .chartFillComplete _ _ | .chartFillTimeout _ | .residentSegmentLoaded _ | .fieldReleaseTimeout _ _
  | .skipRecordCommit _ | .waitTimeout _ _ _ | .sampleDropped _ _ | .hankAlloc _ _ _ | .hankAllocGrant | .patrolScrub _ _ | .idleSend _
  | .frameBoundary _ | .linkFault _ | .xferAckTimeout _ | .discoveryRun | .lossOfLock _ | .wrap _ | .plannedSlip | .perstAssert
  | .hotReset | .vfEnableClear | .l1Entry | .pmeTurnOff | .doeDiscovery _ | .getVersion _ _ | .getCapabilities _ _
  | .negotiateAlgorithms _ _ | .getDigests _ _ | .getCertificate _ _ | .challenge _ _ | .getMeasurements _ _ | .evcDisable _ | .logCopy
  | .logPersist | .powerSample _ _ | .hushEntry | .dozeEntry | .wake _ | .tinkReplayEnd _ | .recoveryOverrun _ | .heartbeatTimeout _
  | .warmChipReset | .maintenanceStart | .powerCycle | .modRstAssert | .powerEnableRise | .powerEnableFall | .inputUndervoltage | .auxUp
  | .auxLoss | .strapsUnstable | .alertResponse _ | .getEndpointId | .getMctpVersionSupport | .getMessageTypeSupport
  | .getVendorDefinedMessageSupport _ | .getStatus | .readReg _ | .readLog _ _ | .requestReset _ | .inputVoltageRestored
  | .slotWriteEnd _ => true

end Sys2Proof
end

