-- ==== Sys2Proof/Tests/Slice0.lean ====
section
/-!
SUPPORT. The model's own tests: the refusals of WellFormed, a witness that meets the hypotheses of each statement, and small one-step
tests whose expected values come from the spec.
-/
namespace Sys2Proof.Tests
open Sys2Proof.Machine
set_option Elab.async false

/-! ### Small states -/

/-- The reset state with its chip changed. -/
def on (f : Chip → Chip) : State := { State.reset with chip := f State.reset.chip }
/-- A PF with Bus Master Enable on a link that is up. -/
def live : Chip := { pins := { perstN := true }, cast := { closed := false }, pat := { mode := .applied }
                     pcie := { up := true, fns := [(0, { enabled := true, bme := true })] } }
/-- A chip as a state. -/
def of (c : Chip) : State := { chip := c, mem := [], pending := [] }
/-- A frame of a type, from module 2 to module 0, numbered 0, with good checks. -/
def frameOf (type : Nat) (cls : RClass) (payload : List Byte) (last : Bool) : RFrame :=
  newFrame 2 type cls 0 7 1 0 0 0 last false payload
/-- A sample Rolivo frame for the checks of its widths. -/
def plain : RFrame := frameOf 1 .guaranteed [] false
/-- A start with nothing failing, strapped as module 3. -/
def env0 : StartEnv :=
  { straps := some 3, failCols := [], failMem := [], failRouter := [], failDec := [], failEnc := [], peers := [], dupSerial := none
    speed := 5, width := 16, startMs := 100, crystalOk := true, hotStacks := [] }

/-! ### WellFormed refuses -/

theorem refuses_bad_function : (Instr.castOn 17 .failed).wf = false ∧ (Instr.functionLevelReset 17).wf = false := by decide
theorem refuses_bad_access_size : (Instr.registerWrite 0 0 3 0).wf = false ∧ (Instr.registerWrite 17 0 4 0).wf = false := by decide
theorem refuses_bad_counts : (Instr.gaugeWindowEnd [1800]).wf = false ∧ (Instr.thermalReading [200]).wf = false := by decide
theorem refuses_bad_frame_type : (Instr.data .east { plain with type := 256 }).wf = false := by decide
theorem refuses_bad_frame_ids : (Instr.data .east { plain with dest := 1024 }).wf = false ∧
    (Instr.data .east { plain with src := 1024 }).wf = false ∧ (Instr.data .east { plain with garment := 4096 }).wf = false := by decide
theorem refuses_bad_frame_counts : (Instr.idle .west { plain with credits := [0, 0, 0] }).wf = false ∧
    (Instr.idle .west { plain with credits := [0, 0, 0, 65536] }).wf = false ∧ (Instr.idle .west { plain with ack := 65536 }).wf = false := by decide
theorem refuses_bad_frame_length : (Instr.data .east { plain with length := 1 }).wf = false ∧
    (Instr.data .east { plain with lseq := 65536 }).wf = false ∧ (Instr.data .east { plain with ttl := 4096 }).wf = false ∧
    (Instr.data .east { plain with hcrc := 65536 }).wf = false := by decide
theorem refuses_bad_frame_words : (Instr.data .east { plain with ticket := 2 ^ 32 }).wf = false ∧
    (Instr.data .east { plain with xfer := 2 ^ 32 }).wf = false ∧ (Instr.data .east { plain with offset := 2 ^ 32 }).wf = false ∧
    (Instr.data .east { plain with arg := 2 ^ 32 }).wf = false ∧ (Instr.data .east { plain with pcrc := 2 ^ 32 }).wf = false := by decide
theorem refuses_bad_descriptor : (Instr.matmul 64 0 (List.replicate 128 0)).wf = false ∧ (Instr.sync 0 0 []).wf = false := by decide
theorem refuses_bad_needle : (Instr.operationComplete 64 0 { how := .ok } 0 0 .plain).wf = false ∧ (Instr.operationComplete 0 16 { how := .ok } 0 0 .plain).wf = false ∧
    (Instr.weightSwapComplete 64).wf = false ∧ (Instr.dmaTransferComplete 64 0).wf = false := by decide
theorem refuses_bad_panel : (Instr.chunkAdmit 16 0 true).wf = false ∧ (Instr.chunkAdmit 0 3 true).wf = false ∧ (Instr.panelReset 16).wf = false := by
  decide
theorem refuses_bad_core : (Instr.decodeSegmentEnd 12).wf = false ∧ (Instr.laneStart 8).wf = false ∧ (Instr.encodeSegmentEnd 8).wf = false := by
  decide
theorem refuses_bad_hank : (Instr.hankFree 2097152 0).wf = false ∧ (Instr.hankScrubDone 2097152).wf = false := by decide
theorem refuses_bad_channel : (Instr.hbmParityError 128).wf = false ∧ (Instr.rowIdleClose 128 0).wf = false ∧ (Instr.rowIdleClose 0 64).wf = false ∧
    (Instr.hbmStackTemperature 4 true).wf = false := by decide
theorem refuses_bad_start : (Instr.perstRelease { env0 with straps := some 1024 }).wf = false ∧
    (Instr.perstRelease { env0 with failMem := [64] }).wf = false ∧ (Instr.modRstRelease { env0 with failCols := [(0, [66])] }).wf = false ∧
    (Instr.perstRelease { env0 with failDec := [12] }).wf = false ∧ (Instr.perstRelease { env0 with failEnc := [8] }).wf = false ∧
    (Instr.perstRelease { env0 with speed := 6 }).wf = false ∧ (Instr.perstRelease { env0 with width := 17 }).wf = false ∧
    (Instr.perstRelease { env0 with failRouter := [64] }).wf = false := by decide
theorem refuses_bad_bar2 : (Instr.bar2Access 0 0 16384 (.read 1)).wf = false ∧ (Instr.bar2Access 0 0 16383 (.write [1, 2])).wf = false := by decide
theorem refuses_bad_queue : (Instr.resume 0 128).wf = false ∧ (Instr.resume 1 8).wf = false ∧ (Instr.hostWaitTimeout 256 0).wf = false := by decide
theorem refuses_bad_entry : (Instr.nop 0 0 (List.replicate 63 0)).wf = false ∧ (Instr.wait 0 128 (List.replicate 64 0)).wf = false := by decide +kernel
theorem refuses_bad_tag : (Instr.completionTimeout 768).wf = false ∧ (Instr.tagRelease 768).wf = false := by decide
theorem refuses_bad_vfs : (Instr.vfEnableSet 17).wf = false ∧ (Instr.numvfsLower 17).wf = false := by decide
theorem refuses_bad_source : (Instr.eventAck 1024 0).wf = false ∧ (Instr.eventAck 0 256).wf = false := by decide
theorem refuses_bad_vector : (Instr.idleHint 2048).wf = false ∧ (Instr.vectorUnmask 0 2048).wf = false ∧
    (Instr.moderationTimerExpire 1 64).wf = false := by decide
theorem refuses_bad_alarm : (Instr.alarmAck 64 0).wf = false ∧ (Instr.ackAlarm 0 256).wf = false := by decide
theorem refuses_bad_recovery : (Instr.trip 256 0).wf = false ∧ (Instr.trip 0 16384).wf = false ∧ (Instr.frog 16384).wf = false := by decide
theorem refuses_bad_link : (Instr.pcieLinkUp 0 16).wf = false ∧ (Instr.pcieLinkUp 6 16).wf = false ∧ (Instr.pcieLinkUp 5 3).wf = false ∧
    (Instr.laneLocked .east 256).wf = false := by decide
theorem refuses_bad_garment : (Instr.garmentHoldExpire 4096).wf = false ∧ (Instr.garmentAnswerTimeout 4096).wf = false := by decide
theorem refuses_bad_ids : (Instr.setEndpointId 256).wf = false ∧ (Instr.controlGap 1024).wf = false ∧ (Instr.msgAckTimeout 1024 0).wf = false ∧
    (Instr.hello .east { neighbour := 1024, bypassed := 0, ackLseq := 0 }).wf = false ∧ (Instr.hello .east { neighbour := 0, bypassed := 3, ackLseq := 0 }).wf = false := by decide
theorem accepts_good_commands : (Instr.perstRelease env0).wf = true ∧ (Instr.data .east plain).wf = true ∧
    (Instr.eventAck 1023 255).wf = true ∧ (Instr.bar2Access 16 0 16383 (.write [1])).wf = true ∧ (Instr.resume 1 7).wf = true ∧
    (Instr.matmul 63 0 (List.replicate 128 0)).wf = true := by decide +kernel

/-- No word spells a command: no row of the table carries bits (log 3). -/
theorem no_word_spells_a_command : decodeTableWord 32 0 = none ∧ decodeTableWord 0 0 = none := by decide

/-! ### Witnesses: states and operands that meet the hypotheses of each statement -/

theorem witness_StepRunsFrontCommand : (let s : State := { State.reset with pending := [.hankAllocGrant, .l1Entry] }
    s.pending = .hankAllocGrant :: [.l1Entry]) ∧ State.reset.pending = [] := by decide

theorem witness_AccessesWithoutARegister :
    (let c := State.reset.chip
     ∀ a ∈ [0x2FFFC, 0x38100], a % 4 = 0 ∧ ¬ (0x30000 ≤ a ∧ a < 0x38100) ∧ logWindow a = false ∧ c.regAt a = none) ∧
    (let c := State.reset.chip
     ∀ a ∈ [0xBFFC, 0xC400, 0xCFFC, 0xD008], a % 4 = 0 ∧ ¬ (0xC000 ≤ a ∧ a < 0xC400) ∧ ¬ (0xD000 ≤ a ∧ a < 0xD008) ∧ c.sliceReg 1 a = none) ∧
    (State.reset.chip.bar0Read 0 0x10004 4 = some (600 * 65536 + 1800) ∧ 0x10004 % 4 = 0 ∧ 2 + 2 ≤ 4) ∧
    ((of live).chip.reachableFn 0 = true ∧ 0x10000 % 4 + 2 ≤ 4 ∧ (of live).chip.regAt 0x38100 = none) ∧
    (let s := of { live with pcie := { up := true, fns := [(0, { enabled := true }), (16, { enabled := true })] } }
     s.chip.reachableFn 16 = true ∧ s.chip.sliceReg 16 0xFFFC = none ∧ 0xFFFC < 0x10000) := by decide +kernel

theorem witness_RegisterWritesStoreTheirFields :
    (of live).chip.reachableFn 0 = true ∧ (of live).chip.onlyBasic = false ∧ 2 ^ 32 - 1 < 2 ^ 32 := by decide

/-- A module whose gauges run, in a row of the pattern. -/
def paced (g : Gauge) : State := of { live with gauge := { g with running := true, provisional := false } }

theorem witness_WindowEndReadsAndSteps :
    (paced {}).chip.gauge.running = true ∧
    (let s := paced {}
     let k := 3
     let counts := List.replicate 256 18719
     k < counts.length ∧ s.chip.rung.rung ≠ .doze ∧ (s.chip.gauge.loop k).retired = false ∧ s.chip.gauge.fastHold = none ∧
     (let r := 18719 * (s.chip.gauge.loop k).calNum / (s.chip.gauge.loop k).calDen
      500 ≤ r ∧ r ≤ 3000 ∧ r * 100 < s.chip.gauge.floor * 104)) := by decide +kernel

theorem witness_GaugeTimersAndLatch :
    (let s := paced { fastHold := some 1250 }
     s.chip.gauge.fastHold = some 1250 ∧ s.chip.gauge.time ≤ 1250 ∧ 1250 < 2 ^ 64) ∧
    (let s := paced { settleAt := some 500, time := 500 }
     s.chip.gauge.settleAt = some 500 ∧ s.chip.gauge.time ≤ 500 ∧ 500 < 2 ^ 64) := by decide

theorem witness_ProvisionalRowSteps : (let s := of { live with gauge := { running := true } }
    s.chip.gauge.running = true ∧ s.chip.gauge.provisional = true) := by decide

theorem witness_GuaranteeHoldsAreSet :
    (let s := paced { startRows := 64 }
     s.chip.gauge.marginMet = false ∧ 64 ≤ s.chip.gauge.startRows) ∧ (paced {}).chip.gauge.crystalFail = false := by decide

theorem witness_RowBoundaryLatchesAndSteps : (let s := paced { minPace := 1943 }
    s.chip.gauge.running = true ∧ s.chip.gauge.provisional = false ∧ s.chip.rung.rung ≠ .doze ∧ s.chip.gauge.firstRow = false ∧
    s.chip.gauge.minPace * 100 < s.chip.gauge.floor * 108) := by decide

theorem witness_EdgesCount :
    (∃ k, k < 1024 ∧ reservedSource k = true) ∧
    (let e : Evc := { srcs := [(273, { pending := true, count := 255 })] }
     reservedSource 273 = false ∧ (e.src 273).pending = true ∧ (e.src 273).count = 255) ∧
    (reservedSource 276 = false ∧ (({} : Evc).src 276).pending = false ∧ (({} : Evc).src 276).sat = false) := by decide +kernel

/-- A chip whose source `k` is pending with a count. -/
def pendingAt (k count : Nat) : Chip := { live with evc := { srcs := [(k, { pending := true, count := count, target := 2, vector := 1 })] } }

theorem witness_EventAckCases :
    (∀ k ∈ [272, 273], (State.reset.chip.evc.src k).pending = false) ∧
    (let s := of (pendingAt 273 2)
     (s.chip.evc.src 273).pending = true ∧ (s.chip.evc.src 273).count < 3) ∧
    (let s := of (pendingAt 1023 255)
     (s.chip.evc.src 1023).pending = true ∧ 255 = (s.chip.evc.src 1023).count) ∧
    (let s := of (pendingAt 276 1)
     (s.chip.evc.src 276).pending = true ∧ 0 < (s.chip.evc.src 276).count ∧ s.chip.evc.route 276 = (2, 0, 1) ∧ reservedSource 276 = false) := by
  decide +kernel

/-- A chip whose vector `v` of the PF is as given, with MSI-X enabled. -/
def vectored (v : Nat) (x : Vec) : Chip :=
  { live with evc := { vecs := [(v, x)] }, pcie := { up := true, fns := [(0, { enabled := true, bme := true, msixEnable := true })] } }

theorem witness_VectorsSendOrHoldMessages :
    (let s := of (vectored 2047 { req := true, masked := false })
     let x := s.chip.evc.vec 0 2047
     let f := s.chip.pcie.fn 0
     x.req = true ∧ s.chip.evc.disable = false ∧ f.msixEnable = true ∧ f.funcMask = false ∧ x.masked = false ∧ f.bme = true) ∧
    (let s := of (vectored 1 { req := true, masked := false, timer := some 250, modUs := 10 })
     (s.chip.evc.vec 0 1).timer = some 250 ∧ s.chip.gauge.time ≤ 250 ∧ 250 < 2 ^ 64) ∧
    (let s := of (vectored 0 { req := true })
     (s.chip.evc.vec 0 0).req = true ∧ (s.chip.pcie.fn 0).bme = true ∧ (s.chip.evc.vec 0 0).timing s.chip.gauge.time = false) := by
  decide +kernel

/-- A log record for the small logs of the witnesses. -/
def rec0 : LogRec := ⟨0, 1, 273, 0, false, false, 255, 0, none, 0, 0, 0, 0⟩

theorem witness_AlarmAckCases :
    (let s := of { live with log := { alarms := [(63, { first := some rec0, rep := 254 })] } }
     (s.chip.log.slot 63).first.isSome = true ∧ (s.chip.log.slot 63).rep < 255) ∧
    (let s := of { live with log := { alarms := [(0, { first := some rec0, rep := 1 })] } }
     ¬ ((s.chip.log.slot 0).first.isSome = true ∧ (s.chip.log.slot 0).rep < 1) ∧ 0 < (s.chip.log.slot 0).rep) ∧
    (State.reset.chip.log.slot 5).first.isSome = false := by decide +kernel

theorem witness_AlarmsAndBudgets :
    (live.log.slot 0).first = none ∧ live.log.keeps 276 = true ∧
    (let l : Log := { srcs := [(273, { budget := 0 })] }
     (l.src 273).budget = 0) ∧
    (let l : Log := { toCopy := List.replicate 8192 rec0 }
     0 < (l.src 273).budget ∧ 8192 ≤ l.toCopy.length) ∧
    (let l : Log := {}
     0 < (l.src 273).budget ∧ l.toCopy.length < 8192 ∧ l.chip.length < 8192) := by decide +kernel

theorem witness_LogTiersFill :
    (let s := of { live with log := { hbmReady := true, toCopy := [rec0] } }
     s.chip.log.hbmReady = true ∧ s.chip.log.toCopy.length + s.chip.log.hbm.length ≤ 524288) ∧
    State.reset.chip.log.hbmReady = false ∧ (of { live with log := { persDefer := true } }).chip.log.persDefer = true ∧
    (State.reset.chip.log.persDefer = false ∧ State.reset.chip.log.pers.length + 8 ≤ 524288) := by decide

theorem witness_PowerSamplesAreTaken :
    (450000 < 450001 ∧ 29999 < 30000) ∧
    (330000 ≤ 450000 ∧ 40000 ≤ 40000 ∧ 60000 ≤ 60000 ∧ 330000 ≤ State.reset.chip.tens.capEff * 110) ∧
    (30000 ≤ 39999 ∧ 39999 < 40000 ∧ 60000 < 70000 ∧ State.reset.chip.tens.vinRange = false) ∧
    (State.reset.chip.tens.capEff * 110 < 330001 ∧ (of { live with tens := { shedding := true } }).chip.tens.shedding = true) := by decide

theorem witness_ThermalReadingsActOnTheChip :
    (([-161, -160, 600, 601, 439] : List Int).length ≤ 32 ∧ State.reset.chip.tens.trips [-161, -160, 601, 439] = false) ∧
    (State.reset.chip.tens.trips [440] = true ∧ State.reset.chip.tens.trips [600] = true ∧ State.reset.chip.rst.trayReq = false) := by
  decide +kernel

theorem witness_RungsAreEnteredAndLeft :
    (let s := of live
     s.chip.rung.rung = .run ∧ 1 ≤ s.chip.rung.limit ∧ s.chip.idle = true) ∧
    (let s := of { live with rung := { limit := 0 } }
     ¬ (s.chip.rung.rung = .run ∧ 1 ≤ s.chip.rung.limit ∧ s.chip.idle = true)) ∧
    (let s := of { live with rung := { rung := .hush } }
     s.chip.rung.rung = .hush ∧ 2 ≤ s.chip.rung.limit ∧ s.chip.idle = true ∧ s.chip.guaranteedLive = false) ∧
    (of live).chip.rung.rung ≠ .hush := by decide +kernel

/-- The stage of a ticket as placed, on panel 0, with one context. -/
def placedAs (stage : Nat) (kind : StageKind) (ctx : Nat) : Placed :=
  { stage := stage, kind := kind, panel := 0, resource := 0, price := 1000, width := 1, critical := true, tested := true, tA := 1, tB := 30,
    eNs := 1000, dNs := 100000, dA := 100000, fixedNs := 0, energy := 0, hbm := 0, yoke := 0, round := 0, bulk := 0, nCtx := 1, nMrk := 1, hanks := 4,
    perFrame := 1, viewOff := 0, needles := [], contexts := [ctx] }
/-- A live ticket of the PF: one decode stage, queue 0, quota 8. -/
def tk : Ticket :=
  { id := 5, fn := 0, guaranteed := true, outVideo := true, outCramar := false, srcRound := false, pipeline := 1, codec := 1, level := 40,
    profile := 0x0102, queue := 0, maxW := 1920, maxH := 1080, rateNum := 30, rateDen := 1, kbps := 8000, deadlineUs := 40000, quota := 8,
    priority := 0, garment := none, lead := 0, members := [], placed := [placedAs 0 .decode 9], contexts := [9], markers := [1024, 1025],
    roundPath := [], power := 10 }
/-- A pipeline of one decode stage. -/
def sd : StreamDef :=
  { index := 1, codecs := [1], live := true, stages := [{ kind := .decode, role := 0, candidates := [0], perFrame := 1, viewOff := 0, needles := [], weightBytes := 0 }], mfGrid := 0, nbuf := 0, mfBufs := [], reBufs := [],
    av1 := false, split := { kind := .whole, units := [] }, gop := .lowDelay, keyInterval := 30, ltrInterval := 0, nref := 2, rc := .cqp 30 32 [], roiOffsets := [],
    roiMaxAge := 1, outW := 1920, outH := 1080, fgK := 1, cutShare := 1, anEvery := 1, anW := 64, anH := 64, detMin := 0, newMin := 0,
    nmsIou := 0, matchMin := 0, iouWeight := 0, detMax := 1, trackMax := 1, confirmHits := 1, maxMisses := 1, roiMap := [], adapt := false,
    rank := 4, trainFmt := 0, accum := 1, publishSteps := 1, cacheHanks := 4, members := [], sendTo := none, sendArg := 0 }
/-- A pattern with that pipeline and one panel of needles 0 to 7. -/
def pat0 : Pattern :=
  { policy := ⟨1800, 600, 25000, 3000, 0, 1, 64, 16, 16, 0, 5, 4⟩
    panels := [⟨0, [0, 1, 2, 3, 4, 5, 6, 7], List.range 12, List.range 8, 32, 32, 0, 0, 0, 0⟩]
    regions := [], charts := [], segments := [], costs := [], streams := [sd], round := ⟨none, 0, 0, 0, 1, 1⟩, events := ⟨[], [], 0, []⟩ }
/-- A chip with queue 0 running, one entry handed over, and the ticket live. -/
def served : Chip :=
  { live with
    queues := [(0, { enable := true, state := .running, sqTail := 1 })]
    cast := { closed := false, tickets := [tk] }, pat := { mode := .applied, pattern := some pat0 }
    markers := [(1024, { scope := 1, ticket := 5 }), (1025, { scope := 1, ticket := 5 })], hank := { ready := true } }
/-- A submission entry (Table 13.6) of an opcode: its fields by offset. -/
def entry (op : Nat) (fields : List (Nat × Nat × Nat)) : List Byte :=
  (List.range 64).map (fun i => BitVec.ofNat 8 (if i = 0 then op else
    match fields.find? (fun f => f.1 ≤ i && i < f.1 + f.2.1) with | some f => f.2.2 / 256 ^ (i - f.1) | none => 0))

/-- A chip whose hanks are as given. -/
def pooled (h : Hank) : Chip := { served with hank := { h with ready := true } }
/-- A hank held by the host for the ticket. -/
def heldHank : HankRec := { state := .held, owner := hostTag 0, ticket := 5 }

theorem witness_HankAllocationsAreServedInOrder :
    (let s := of served
     s.chip.ticket? 5 = some tk ∧ s.chip.grantable tk 8 = true) ∧
    (let s := of (pooled { waiters := [⟨5, 0, 1, false⟩] })
     s.chip.ticket? 5 = some tk ∧ s.chip.grantable tk 1 = false) ∧ (of served).chip.ticket? 6 = none ∧
    (let s := of (pooled { waiters := [⟨5, 1, 9, true⟩, ⟨5, 2, 3, false⟩] })
     s.chip.hank.waiters.find? (fun x => !x.isOver) = some ⟨5, 2, 3, false⟩ ∧ s.chip.ticket? 5 = some tk ∧ s.chip.canMeet tk 3 = true) ∧
    (let s := of (pooled { waiters := [⟨5, 1, 9, true⟩] })
     s.chip.hank.waiters.find? (fun x => !x.isOver) = none ∧ s.chip.hank.waiters.head? = some ⟨5, 1, 9, true⟩) ∧
    (let s := of { pooled { fresh := 2097150, waiters := [⟨5, 1, 3, false⟩] } with cast := { tickets := [tk] } }
     s.chip.hank.waiters.find? (fun x => !x.isOver) = some ⟨5, 1, 3, false⟩ ∧ s.chip.canMeet tk 3 = false) ∧
    State.reset.chip.hank.waiters = [] := by decide +kernel

theorem witness_ShareAndPassHandOver :
    (let s := of (pooled { recs := [(0, heldHank)] })
     let x := s.chip.hank.entry 0
     x.state = .held ∧ x.owner = hostTag 0 ∧ s.chip.tagOfTicket x.ticket (ctxTag 9) = true) ∧
    (let s := of (pooled { recs := [(0, heldHank)] })
     ¬ ((s.chip.hank.entry 1).state = .held) ∧ (s.chip.hank.entry 0).owner ≠ 3) := by decide +kernel

theorem witness_FreeScrubsOrIsRefused :
    (let s := of (pooled { recs := [(2097151, heldHank), (7, { heldHank with state := .scrub })] })
     ((s.chip.hank.entry 2097151).state = .held ∧ (s.chip.hank.entry 2097151).owner = hostTag 0) ∧
     (s.chip.hank.entry 7).state ≠ .held ∧ (s.chip.hank.entry 7).state ≠ .shared ∧ (s.chip.hank.entry 2097151).owner ≠ 0) := by decide +kernel

theorem witness_ScrubbedHankIsZeroAndFree :
    (let s : State := { of (pooled { recs := [(3, { state := .scrub })], scrub := [3] }) with mem := [(3 * 0x4000, 7)] }
     Mem.wf s.mem = true ∧ s.chip.scrubNext = some 3 ∧ s.chip.scrubNext ≠ some 4) := by decide +kernel

theorem witness_HbmKeepsItself :
    (127 < 128 ∧ State.reset.chip.hbm.replays 127 + 1 ≠ 4) ∧
    (let h : Hbm := { rowReplays := [(5, 3)] }
     h.replays 5 + 1 = 4) ∧
    (let s := of { live with hbm := { banks := [(64, { row := some 1, access := 100 })] }, gauge := { time := 150 } }
     let b : Bank := Tbl.get {} s.chip.hbm.banks (1 * 64 + 0)
     s.chip.gauge.time ≤ b.access + 50 ∧ b.access + 50 < 2 ^ 64) := by decide +kernel

theorem witness_HbmErrorsAreReported :
    (let s := of { live with hbm := { rowReplays := [(0, 3)] } }
     0 < 128 ∧ s.chip.hbm.replays 0 + 1 = 4 ∧ s.chip.rst.trayReq = false) := by decide +kernel

theorem witness_QueuesStartStopAndResume :
    (let s := of live
     s.chip.reachableFn 0 = true ∧ 127 < queuesOf 0 ∧ s.chip.onlyBasic = false ∧ ctrlOk 0 = false ∧ ctrlOk (4 * 2 ^ 20 + 4 * 2 ^ 16) = true ∧
     (s.chip.queue 127).enable = false ∧ (s.chip.queue 127).state ≠ .error) ∧
    ((of served).chip.queue 0).enable = true ∧ (of served).chip.queueNamed 0 = true ∧
    (let s := of { live with queues := [(0, { enable := true, state := .error })] }
     (s.chip.queue 0).enable = true ∧ s.chip.queueNamed 0 = false ∧ (s.chip.queue 0).state = .error) := by decide +kernel

theorem witness_DoorbellsMoveThePointers :
    (of live).chip.reachableFn 0 = true ∧ 127 < queuesOf 0 ∧ (of live).chip.onlyBasic = false ∧
    15 < ((of live).chip.queue 127).sqSize ∧ ¬ 16 < ((of live).chip.queue 127).sqSize ∧
    (let x : Queue := { cqCount := 3, cqTail := 3 }
     3 < x.cqSize ∧ (3 + x.cqSize - x.cqHead) % x.cqSize ≤ x.cqCount) := by decide +kernel

theorem witness_EntriesWaitOrAreFenced :
    (let s := of served
     let e := entry 0 [(2, 2, 0xFFFF)]
     (s.chip.pcie.fn 0).bme = true ∧ 0 < queuesOf 0 ∧ s.chip.takes (globalQueue 0 0) (s.chip.needOf 0 e) = true ∧ eOp e = 0 ∧ eTag e = 0xFFFF) ∧
    (let s := of { served with rst := { fenced := true } }
     let e := entry 7 [(2, 2, 3)]
     s.chip.takes (globalQueue 0 0) (s.chip.needOf 0 e) = true ∧ eOp e = 7 ∧ s.chip.closed = true) ∧
    (of live).chip.takes (globalQueue 0 0) 1 = false := by decide +kernel

theorem witness_NopAndAllocAreAnswered :
    (let s := of served
     let e := entry 0 [(2, 2, 3)]
     (0 < queuesOf 0 ∧ s.chip.takes (globalQueue 0 0) (s.chip.needOf 0 e) = true ∧ eOp e = 0 ∧ s.chip.closed = false) ∧
     eTag e ≠ 0xFFFF ∧ unusedZero e [] = true) ∧
    (let s := of served
     let e := entry 3 [(2, 2, 3), (4, 4, 5), (8, 8, 0x1000), (20, 2, 64)]
     (s.chip.takes (globalQueue 0 0) (s.chip.needOf 0 e) = true ∧ eOp e = 3) ∧ eTag e ≠ 0xFFFF ∧
     unusedZero e [(4, 4), (8, 8), (20, 2)] = true ∧ (1 ≤ eCount e ∧ eCount e ≤ 64) ∧ s.chip.fnTicket 0 (eTicket e) = some tk ∧
     tk.closing = false ∧ s.chip.grantable tk (eCount e) = true) ∧
    (let s := of (pooled { waiters := [⟨5, 0, 1, false⟩] })
     s.chip.grantable tk 1 = false) := by decide +kernel

theorem witness_FreeAndCopyOutAreAnswered :
    (let s := of (pooled { recs := [(0, heldHank)] })
     let e := entry 4 [(2, 2, 3), (8, 8, 0x1000), (20, 2, 1)]
     let b : List Byte := [0, 0, 0, 0]
     (s.chip.takes (globalQueue 0 0) (s.chip.needOf 0 e) = true ∧ eOp e = 4) ∧ eTag e ≠ 0xFFFF ∧ unusedZero e [(8, 8), (20, 2)] = true ∧
     eCount e = 1 ∧ s.chip.hank.ofHandle 0 (le b 0 4) = some 0 ∧ s.chip.hank.frees 0 (hostTag 0) = true) ∧
    (let e := entry 4 [(2, 2, 3), (20, 2, 4096)]
     1 ≤ eCount e ∧ eCount e ≤ 4096) ∧
    (let s := of (pooled { recs := [(0, heldHank)] })
     let e := entry 5 [(2, 2, 3), (8, 8, 0x1000), (16, 4, 0x4000), (20, 2, 1), (40, 8, 0x2000)]
     let b : List Byte := [0, 0, 0, 0]
     (s.chip.takes (globalQueue 0 0) (s.chip.needOf 0 e) = true ∧ eOp e = 5) ∧ eTag e ≠ 0xFFFF ∧
     unusedZero e [(8, 8), (16, 4), (20, 2), (40, 8)] = true ∧ s.chip.allHeld 0 (s.chip.handleHanks 0 (eCount e) b) = true ∧
     eLen e ≤ 0x4000 * eCount e) := by decide +kernel

/-- What the front end parses of a small H.264 unit. -/
def pic0 : PicInfo :=
  { codec := 1, profile := .h264High, level := 40, depth := 8, chroma := .c420, width := 64, height := 64, frames := [4096], syntaxBad := none
    refs := 1, dpb := 2, dpbAt := .sequence, tools := [], faultAt := .picture, rap := true, keyPic := true, gdr := none
    splits := [{ kind := .whole, units := [4096] }], grain := [], look := {} }
/-- A FRAME entry of the ticket with the flags given: LEN bytes, COUNT handles. -/
def frameEntry0 (flags len count : Nat) : List Byte := entry 1 [(1, 1, flags), (2, 2, 3), (4, 4, 5), (8, 8, 0x1000), (16, 4, len), (20, 2, count)]

theorem witness_FramesHandUnitsOver :
    (let s := of served
     let e := frameEntry0 6 0x4001 0
     (s.chip.takes (globalQueue 0 0) (s.chip.needOf 0 e) = true ∧ eOp e = 1) ∧ eTag e ≠ 0xFFFF ∧ frameFields e = true ∧
     s.chip.fnTicket 0 (eTicket e) = some tk ∧ tk.queue = globalQueue 0 0 ∧ s.chip.intrudes (globalQueue 0 0) 5 = false ∧
     (s.chip.unitOf (globalQueue 0 0) 5).length < 4096 ∧ bit (eFlags e) 2 = true ∧ bit (eFlags e) 1 = true ∧ ceilDiv (eLen e) 0x4000 = 2 ∧
     s.chip.grantable tk 2 = true ∧ s.chip.stream? tk.pipeline = some sd) ∧
    (let s := of (pooled { waiters := [⟨5, 0, 1, false⟩] })
     s.chip.grantable tk 2 = false) ∧
    (let e := frameEntry0 4 0x4000 0
     bit (eFlags e) 2 = true ∧ bit (eFlags e) 1 = false) ∧
    (let s := of (pooled { recs := [(0, heldHank), (1, heldHank)] })
     let e := frameEntry0 0 0x8000 2
     let b : List Byte := [0, 0, 0, 0, 1, 0, 0, 0]
     (s.chip.takes (globalQueue 0 0) (s.chip.needOf 0 e) = true ∧ eOp e = 1) ∧ frameFields e = true ∧
     bit (eFlags e) 2 = false ∧ bit (eFlags e) 1 = false ∧ s.chip.handleHanks 0 (eCount e) b = [0, 1].map some ∧ ([0, 1] : List Nat).Nodup ∧
     (∀ h ∈ [0, 1], (s.chip.hank.entry h).state = .held ∧ (s.chip.hank.entry h).owner = hostTag 0 ∧ (s.chip.hank.entry h).ticket = 5) ∧
     tk.contexts.contains (tk.kindContext .decode) = true ∧ tk.kindContext .decode < 0x4000 ∧ eLen e ≤ 0x4000 * 2) := by decide +kernel

/-- The ticket with an adaptation stage. -/
def adapting : Ticket := { tk with placed := tk.placed ++ [placedAs 1 .adapt 10], contexts := [9, 10] }

theorem witness_SamplesJoinTheStep :
    (let s := of { served with cast := { closed := false, tickets := [adapting] } }
     let e := entry 2 [(2, 2, 3), (4, 4, 5), (8, 8, 0x1000)]
     (s.chip.takes (globalQueue 0 0) (s.chip.needOf 0 e) = true ∧ eOp e = 2 ∧ s.chip.closed = false) ∧ eTag e ≠ 0xFFFF ∧
     unusedZero e [(4, 4), (8, 8)] = true ∧ s.chip.fnTicket 0 (eTicket e) = some adapting ∧ adapting.closing = false ∧
     adapting.queue = globalQueue 0 0 ∧ adapting.srcRound = false ∧ (adapting.kindStage .adapt).isSome = true ∧
     (s.chip.sampleRefused adapting (zeros 64) pic0).isSome = true) := by decide +kernel

theorem witness_HostSignalsAndWaits :
    (let s := of served
     let e := entry 6 [(2, 2, 3), (4, 4, 5), (22, 2, 1), (24, 4, 65535)]
     (s.chip.takes (globalQueue 0 0) (s.chip.needOf 0 e) = true ∧ eOp e = 6) ∧ unusedZero e [(4, 4), (22, 2), (24, 4)] = true ∧
     1 ≤ eValue e ∧ eValue e ≤ 65535 ∧ s.chip.fnTicket 0 (eTicket e) = some tk ∧ tk.markers[eMarker e]? = some 1025 ∧
     (s.chip.marker 1025).takesSignal 5 = true ∧ (∀ w ∈ s.chip.waits, w.marker ≠ 1025)) ∧
    (let s := of served
     let e := entry 7 [(2, 2, 3), (4, 4, 5), (22, 2, 0), (24, 4, 1), (28, 4, 10000000)]
     (s.chip.takes (globalQueue 0 0) (s.chip.needOf 0 e) = true ∧ eOp e = 7) ∧ unusedZero e [(4, 4), (22, 2), (24, 4), (28, 4)] = true ∧
     10 ≤ eTimeout e ∧ eTimeout e ≤ 10000000 ∧ tk.markers[eMarker e]? = some 1024 ∧ ¬ eValue e ≤ (s.chip.marker 1024).count) ∧
    (let w : HostWait := ⟨0, 3, 5, 1024, 1, 250⟩
     let s := of { served with waits := [w] }
     s.chip.waits.find? (fun x => x.q == w.q && x.tag == w.tag) = some w ∧ (s.chip.pcie.fn (queueFn w.q)).bme = true ∧
     s.chip.gauge.time ≤ w.deadline ∧ w.deadline < 2 ^ 64) := by decide +kernel

/-- A chip with one read tag in a state. -/
def tagged (st : TagState) (p : ReadFor) : Chip :=
  { served with pcie := { up := true, fns := [(0, { enabled := true, bme := true })], tags := [(767, ⟨0, p, 0, 1250, st⟩)] } }

theorem witness_HostReadsComplete :
    State.reset.chip.pcie.tags.find? (fun e => e.1 == 767) = none ∧
    (let s := of (tagged .outstanding (.sqEntries 0))
     s.chip.pcie.tags.find? (fun e => e.1 == 767) = some (767, ⟨0, .sqEntries 0, 0, 1250, .outstanding⟩) ∧ (s.chip.queue 0).enable = true ∧
     s.chip.gauge.time ≤ 0 + 1250 ∧ 0 + 1250 < 2 ^ 64) ∧
    (let s := of (tagged .outstanding (.castDescriptor 0))
     s.chip.pcie.tags.find? (fun e => e.1 == 767) = some (767, ⟨0, .castDescriptor 0, 0, 1250, .outstanding⟩)) ∧
    (let s := of { tagged .quarantinedFlr .image with gauge := { time := 2500 } }
     s.chip.pcie.tags.find? (fun e => e.1 == 767) = some (767, ⟨0, .image, 0, 1250, .quarantinedFlr⟩) ∧ s.chip.gauge.time ≤ 0 + 2 * 1250) ∧
    ((of served).chip.pcie.fn 0).bme = true ∧
    (let s := State.reset
     (s.chip.pcie.fn 0).enabled = true ∧ (s.chip.pcie.fn 0).bme = false) := by decide +kernel

/-- A chip whose VF 16 is enabled. -/
def withVf (f : Fun) : Chip := { served with pcie := { up := true, numVfs := 16, vfEnable := true, fns := [(0, { enabled := true, bme := true }), (16, f)] } }

theorem witness_FunctionsAreReset :
    (16 ≠ 0 ∧ ((of (withVf { enabled := true })).chip.pcie.fn 16).enabled = true) ∧ (State.reset.chip.pcie.fn 16).enabled = false ∧
    (∀ k ∈ vfList, k ≤ 16) ∧ 16 ∈ vfList ∧ 15 < 16 ∧
    (let s := of (withVf { enabled := true })
     (s.chip.pcie.fn 16).d3hot = false) ∧
    ((of (withVf { enabled := true, d3hot := true })).chip.pcie.fn 16).d3hot = true := by decide +kernel

theorem witness_LinkAndBar2Accesses :
    (let s := of served
     s.chip.pcie.up = true ∧ s.chip.pcie.power = .l0 ∧ s.chip.pcie.tags = [] ∧ (∀ e ∈ s.chip.pcie.fns, e.2.held = [] ∧ e.2.heldResp = [])) ∧
    State.reset.chip.pcie.up = false ∧ (15 < 16 ∧ 31 < 32) ∧
    (let s := of (pooled { recs := [(0, heldHank)] })
     Mem.wf s.mem = true ∧ s.chip.reachableFn 0 = true ∧ s.chip.hank.ofHandle 0 0 = some 0 ∧ (s.chip.hank.entry 0).charged = true ∧
     (s.chip.hank.entry 0).owner = hostTag 0 ∧ 0x3FFF + 1 ≤ 0x4000) ∧
    (let s := of served
     s.chip.reachableFn 0 = true ∧ s.chip.hank.ofHandle 0 0 = some 0 ∧ (s.chip.hank.entry 0).charged = false) ∧
    (let s := of live
     s.chip.maint = false ∧ s.chip.rst.trayReq = false ∧ s.chip.pat.mode ≠ .starting) := by decide +kernel

theorem witness_SpdmAnswersRequests :
    (65535 < 65536 ∧ 1 ≤ 5 ∧ 5 ≤ 5) ∧ ((of live).chip.pcie.up = true ∧ (of live).chip.pins.perstN = true) ∧
    (of live).chip.managed = true ∧ State.reset.chip.pcie.up = false := by decide

theorem witness_SmbusAnswersCommands :
    State.reset.chip.pins.aux = true ∧ (of { live with pins := { perstN := true, alert := true } }).chip.pins.alert = true ∧
    (0 < 254 ∧ 254 < 255) ∧ (of live).chip.managed = true ∧ readable 0x10030 = true ∧ readable 0x4000 = false ∧
    (let s := of { live with log := { hbm := [rec0] } }
     rec0 ∈ s.chip.log.hbm ∧ rec0.seq = 1 % 4294967296 ∧ ∀ x ∈ s.chip.log.hbm, x.seq = rec0.seq → x = rec0) ∧
    State.reset.chip.managed = false := by decide +kernel

/-- An image with the pattern of the witnesses, its nine sections in order. -/
def img0 : Image :=
  { magic := 0x4E525450, format := 1, sections := 9, imageLen := 0xB000, version := 1, minRom := 0, keyIndex := 0, buildId := 0, resvOk := true
    dir := (List.range 9).map (fun k => ⟨k + 1, 0x1000 * (k + 1), 0x100, 0, 0⟩), digest := 77, sigOk := true, pattern := pat0 }
/-- A chip whose pattern can be brought back. -/
def staged : Chip := { served with pat := { mode := .applied, pattern := some pat0, staged := some img0, stagedDigest := 77 } }

theorem witness_PerstStartsAndStops :
    (let s := State.reset
     s.chip.pins.perstN = false ∧ s.chip.pins.aux = true ∧ s.chip.pins.pg = true ∧ s.chip.pins.modRstN = true ∧ s.chip.rst.trayReq = false ∧
     s.chip.rst.warmPending = false ∧ s.chip.startsKept = false) ∧
    (let s := of { staged with pins := {}, rst := { warmPending := true, fenced := true } }
     s.chip.pins.perstN = false ∧ s.chip.rst.warmPending = true ∧ s.chip.pat.staged = some img0 ∧ img0.digest = s.chip.pat.stagedDigest) ∧
    (let s := of { live with pcie := { up := true, pmeAck := true } }
     s.chip.pins.perstN = true ∧ s.chip.pat.mode = .applied ∧ s.chip.rst.trayReq = false ∧ s.chip.pcie.pmeAck = true) ∧
    (let s := of live
     s.chip.pins.perstN = true ∧ s.chip.pcie.pmeAck = false ∧ s.chip.recentWarm.length < 2) := by decide +kernel

theorem witness_SuppliesAndResetPins :
    (let s := on (fun c => { c with pins := { c.pins with pwrEn := false } })
     s.chip.pins.pwrEn = false ∧ s.chip.pins.aux = true) ∧
    (State.reset.chip.pins.pwrEn = true ∧ State.reset.chip.pins.aux = true ∧ State.reset.chip.pins.pg = true ∧ State.reset.chip.pins.modRstN = true) ∧
    (State.reset.chip.rnd.fromPattern = false ∧ (of { live with rnd := { fromPattern := true } }).chip.rnd.fromPattern = true) ∧
    (let s := on (fun c => { c with pins := { c.pins with pg := false } })
     s.chip.pins.modRstN = true ∧ s.chip.pins.pg = false) ∧
    (let s := of { live with pins := { perstN := true, modRstN := false } }
     s.chip.pins.modRstN = false ∧ s.chip.pins.perstN = true ∧ s.chip.pins.pg = true ∧ s.chip.rst.trayReq = false) ∧
    (let s := on (fun c => { c with pins := { c.pins with modRstN := false } })
     s.chip.pins.modRstN = false ∧ s.chip.pins.perstN = false) := by decide

/-- A chip in maintenance start, with the length of the image written. -/
def maint0 (p : Pat) : Chip := { live with pat := { p with mode := .maintRom, wrLen := 0xB000 } }

theorem witness_SlotsAreWrittenInMaintenance :
    ((of live).chip.reachableFn 0 = true ∧ (of live).chip.maint = false) ∧
    (let s := of (maint0 {})
     s.chip.reachableFn 0 = true ∧ s.chip.maint = true ∧ s.chip.pat.wrBusy = false ∧ s.chip.writeResult 0 (some img0) = 0 ∧
     s.chip.writeResult 0 none ≠ 0) ∧
    (let s := of (maint0 { wrBusy := true, wrImage := some img0 })
     s.chip.pat.wrBusy = true ∧ s.chip.pat.wrImage = some img0) := by decide +kernel

/-- A chip whose needle 3 runs a band of context 9 on panel 0. -/
def banded : Chip :=
  { served with ndl := { tab := [(3, { testing := false, panel := some 0, columns := 64, band := some 9 })] },
                pnl := { panels := [(0, { valid := true, declared := [3], presented := [3] })] } }

theorem witness_TripsAreTinked :
    (let s := of banded
     3 < 149 ∧ s.chip.rst.fenced = false ∧ s.chip.rst.tink = none ∧ s.chip.onEngine 3 ≠ []) ∧ (192 ≤ 255 ∧ 255 < 256) ∧
    realEngine 170 = false ∧
    (let s := of { banded with rst := { tink := some ⟨3, 1, [9, 10], []⟩ } }
     s.chip.rst.tink = some ⟨3, 1, [9, 10], []⟩ ∧ 1 + 1 ≠ 4) ∧
    (let s := of { banded with rst := { tink := some ⟨3, 2, [9], [10]⟩ } }
     s.chip.rst.tink = some ⟨3, 2, [9], [10]⟩ ∧ ([10] : List Nat) ≠ []) := by decide +kernel

theorem witness_RecoveriesRun :
    (let s := of staged
     (s.chip.rst.trayReq = false ∧ s.chip.pat.mode = .applied ∧ s.chip.recentWarm.length < 2 ∧ s.chip.pat.staged = some img0 ∧
      img0.digest = s.chip.pat.stagedDigest) ∧ 149 ≤ 152 ∧ 152 < 153 ∧ s.chip.rst.fenced = false ∧ s.chip.rst.reqBusy = false) ∧
    (let s := of { staged with rst := { warmTimes := [1, 2] }, gauge := { time := 1500000000 } }
     2 ≤ s.chip.recentWarm.length) ∧
    (let s := of { banded with rst := { lastEngine := 3 } }
     s.chip.enginePanel s.chip.rst.lastEngine = some 0 ∧ (s.chip.panel 0).valid = true ∧ (s.chip.panel 15).valid = false ∧
     s.chip.pat.mode ≠ .starting) ∧
    (let s := of banded
     s.chip.ctxTicket 9 = some tk ∧ tk.fn = 0 ∧ tk.garment = none ∧ tk.stageOf 9 = some (placedAs 0 .decode 9) ∧ s.chip.frogAllowed 11 = false) ∧
    (of { live with rst := { reqBusy := true } }).chip.rst.reqBusy = true ∧ (of { live with rst := { fenced := true } }).chip.rst.fenced = true ∧
    (of live).chip.managed = true := by decide +kernel
/-- A tink ended by a higher level with a culprit raises alarm 36, and a waiting one ends with it (R354, R355). -/
theorem test_ended_tink_raises_its_alarm :
    (let c := Chip.endTink { banded with rst := { tink := some ⟨3, 2, [9], [10]⟩, waitTinks := [⟨5, 1, [9], []⟩] } }
     ((c.log.slot 36).first.isSome, c.rst.tinks, c.engineHeld 5 9)) = (true, [], false) := by decide +kernel

/-! ### Admission, needles, panels, video cores, the Round -/

/-- 64 bytes of a request descriptor (Table 3.1) with the fields given by offset and length. -/
def descriptor (fields : List (Nat × Nat × Nat)) : List Byte :=
  (List.range 64).map (fun i => BitVec.ofNat 8 (match fields.find? (fun f => f.1 ≤ i && i < f.1 + f.2.1) with | some f => f.2.2 / 256 ^ (i - f.1) | none => 0))
/-- A guaranteed H.264 cast-on of pipeline 1 with a deadline of 2 s, the longest. -/
def castOnFields : List (Nat × Nat × Nat) :=
  [(0, 2, 1), (2, 1, 1), (3, 1, 4), (4, 4, 77), (8, 8, 0x1000), (16, 2, 1), (18, 1, 1), (19, 1, 40), (20, 2, 0x0102), (24, 2, 1920), (26, 2, 1080),
   (28, 2, 30), (30, 2, 1), (32, 4, 8000), (36, 4, 2000000)]
/-- The cost entry of the decode stage. -/
def cost0 : CostEntry := ⟨1, 0, 0, 0, 1, true, false, 0, 0, 0, 0, 0, 0, 0, 0, 0, 0, 1, 2, 4⟩
/-- A chip with a request of function 0 in flight and the panel of the witnesses applied. -/
def castChip : Chip :=
  { served with
    cast := { closed := false, fns := [(0, { busy := true })], tickets := [tk] }
    pat := { mode := .applied, pattern := some { pat0 with costs := [cost0] } }
    pnl := { panels := [(0, { valid := true, declared := [3], presented := [3], dec := List.range 12, enc := List.range 8 })] } }

theorem witness_CastOnIsDecided :
    (of served).chip.requested 0 = false ∧ (of castChip).chip.requested 0 = true ∧ 0 ≤ 16 ∧
    (let r := Req.of (descriptor ((0, 2, 2) :: castOnFields))
     r.firstBad 0 1 = some 0) ∧
    (let s := of { castChip with cast := { castChip.cast with closed := true } }
     s.chip.requested 0 = true ∧ (Req.of (descriptor castOnFields)).firstBad 0 1 = none ∧ s.chip.closed = true) ∧
    (let b := descriptor ((16, 2, 2) :: castOnFields)
     let r := Req.of b
     let c := castChip.castRead 0 (.data b)
     r.firstBad 0 1 = none ∧ castChip.closed = false ∧ c.judge r r.pipeline [] = .inl { reason := 5 }) ∧
    (let b := descriptor castOnFields
     let r := Req.of b
     let c := castChip.castRead 0 (.data b)
     r.firstBad 0 1 = none ∧ castChip.closed = false ∧ (match c.judge r r.pipeline [] with | .inl _ => [] | .inr ps => ps.map (fun p => p.stage)) = [0]) := by
  decide +kernel

/-- A bind-off of ticket 5, and one that drains. -/
def unbind (flags : Nat) : List Byte := descriptor [(0, 2, 1), (2, 1, 2), (3, 1, flags), (4, 4, 78), (8, 8, 0x1020), (0x28, 4, 5)]

theorem witness_BindOffEndsTickets :
    (let s := of castChip
     s.chip.requested 0 = true ∧ (Req.of (unbind 0)).firstBad 0 2 = none ∧ s.chip.closed = false ∧
     s.chip.bindable 0 (Req.of (unbind 0)) = some tk ∧ (Req.of (unbind 0)).drain = false ∧ (Req.of (unbind 2)).drain = true ∧
     s.chip.bindable 0 (Req.of (unbind 2)) = some tk ∧ (s.chip.pcie.fn 0).bme = true ∧ (Req.of (unbind 0)).resp % 32 = 0 ∧ tk.garment = none) ∧
    (let s := of { castChip with cast := { castChip.cast with tickets := [{ tk with id := 6 }] } }
     s.chip.bindable 0 (Req.of (unbind 0)) = none) ∧
    (let k := { tk with closing := true, drainTag := some (78, 0x1020) }
     let s := of { castChip with cast := { castChip.cast with tickets := [k] } }
     s.chip.ticket? 5 = some k ∧ k.drainTag = some (78, 0x1020) ∧ k.drained = true ∧ k.fn ≤ 16) ∧
    (let k := { tk with closing := true, drainTag := some (78, 0x1020), skips := [⟨0, 1, 0, 0, []⟩] }
     let s := of { castChip with cast := { castChip.cast with tickets := [k] } }
     s.chip.ticket? 5 = some k ∧ k.drainTag = some (78, 0x1020) ∧ k.drained = false) ∧
    (let k := { tk with closing := true, partDrain := true }
     let s := of { castChip with cast := { castChip.cast with tickets := [k] } }
     s.chip.ticket? 5 = some k ∧ k.drainTag = none ∧ k.partDrain = true ∧ k.drained = true ∧ tk.partDrain = false) := by decide +kernel

/-- The stream of the witnesses with members for a garment. -/
def sdG (ms : List Member) : StreamDef := { sd with members := ms }
/-- The chip of the witnesses with that stream and module number 0. -/
def garmentChip (ms : List Member) : Chip :=
  { castChip with pat := { mode := .applied, pattern := some { pat0 with costs := [cost0], streams := [sdG ms] } } }
/-- A garment's lead that waits for two modules. -/
def lead0 (due : List Nat) : GarmentLead := ⟨9, 0, 77, 0x1000, 0, [2, 3], due, 5, { tk with garment := some 9, markers := [] }⟩

theorem witness_GarmentsAreDecidedInTwoPhases :
    (let b := descriptor ((2, 1, 3) :: (0x30, 2, 9) :: castOnFields)
     let ms : List Member := [⟨0, 2000000, 1⟩, ⟨2, 2000000, 1⟩]
     let s := of (garmentChip ms)
     let r := Req.of b
     let c := s.chip.castRead 0 (.data b)
     let loads := c.hopLoads r ms
     let ids := (c.rnd.id :: ms.map (fun m => m.module)).eraseDups
     let asked := ids.filter (fun k => k != c.rnd.id) ++ ((loads.map (fun e => e.1)).filter (fun k => !ids.contains k)).eraseDups
     s.chip.requested 0 = true ∧ ((c.stream? r.pipeline).map (fun sd => sd.members)).getD [] = ms ∧ c.firstChecks 0 3 r = none ∧ asked = [2] ∧
     (match c.judgePart r ⟨0, 2000000, 1⟩ c.rnd.id ids (loadsOf loads c.rnd.id) with | .inl _ => false | .inr k => k.garment == some 9) = true) ∧
    (let b := descriptor ((2, 1, 3) :: (0x30, 2, 9) :: castOnFields)
     let s := of (garmentChip [])
     let r := Req.of b
     let c := s.chip.castRead 0 (.data b)
     s.chip.requested 0 = true ∧ ((c.stream? r.pipeline).map (fun sd => sd.members)).getD [] = [] ∧ c.firstChecks 0 3 r = none ∧
     (match c.judgePart r { module := 0, deadline := r.deadline, pipeline := r.pipeline } 0 [0] [] with | .inl _ => false | .inr _ => true) = true) ∧
    (let b := descriptor ((2, 1, 3) :: (0x30, 2, 4096) :: castOnFields)
     let c := (garmentChip []).castRead 0 (.data b)
     c.firstChecks 0 3 (Req.of b) = some { reason := 1, detail := 0x30 }) ∧
    (let b := descriptor ((2, 1, 3) :: (0x30, 2, 9) :: (16, 2, 2) :: castOnFields)
     let c := (garmentChip []).castRead 0 (.data b)
     c.firstChecks 0 3 (Req.of b) = none ∧
     c.judgePart (Req.of b) { module := 0, deadline := 2000000, pipeline := 2 } 0 [0] [] = .inl { reason := 5 }) ∧
    (let s := of { castChip with cast := { castChip.cast with leads := [lead0 [2, 3]] }, gauge := { time := 125000 } }
     s.chip.cast.lead? 9 = some (lead0 [2, 3]) ∧ (lead0 [2, 3]).fn ≤ 16 ∧ 0 + 125000 < 2 ^ 64 ∧ s.chip.now ≤ 0 + 125000 ∧
     (∀ m ∈ (lead0 [2, 3]).asked, m ≠ s.chip.rnd.id)) ∧
    (let h : GarmentHold := ⟨9, 250000, false, { tk with garment := some 9, markers := [7] }⟩
     let s := of { castChip with cast := { castChip.cast with holds := [h] } }
     s.chip.cast.hold? 9 = some h ∧ h.expires < 2 ^ 64 ∧ s.chip.now ≤ h.expires) := by decide +kernel

/-- A Round frame whose header check holds. -/
def good (f : RFrame) : RFrame := { f with hcrc := crc16 f.header }
/-- A numbered Control message of module 2, its first, for ticket 5 and garment 9. -/
def ctl (code : Nat) (b : List Byte) : RFrame := good (newFrame 2 2 .control 0 5 0 0 0 9 false false (ctlPayload code b))
/-- A chip with its EAST port up and module 2 one hop WEST. -/
def ringed (c : Chip) : Chip :=
  { c with rnd := { c.rnd with east := { state := .up }, west := { state := .up }, slipped := false, ready := true
                               routes := [(2, { valid := true, west := true, hopsW := 1 })] } }
/-- A ticket of garment 9 led by a module. -/
def gk (lead : Nat) : Ticket := { tk with garment := some 9, lead := lead, members := [2] }
/-- What `Safety.Arrives` asks of a message at the EAST port of module 0. -/
def arrives (c : Chip) (f : RFrame) (code : Nat) : Bool :=
  f.type == 2 && ctlCode f == code && (c.rnd.receive .east f).2 && !c.rst.fenced && f.offset == (c.rnd.eseqOf f.src).nextIn &&
  (c.rnd.eseqOf f.src).held == []
theorem arrives_iff (c : Chip) (f : RFrame) (code : Nat) : arrives c f code = true ↔ Safety.Arrives c .east f code := by
  simp [arrives, Safety.Arrives, and_assoc]
/-- A RESERVE of the descriptor of the witnesses: whether the recipient is a member, and what it carries for others. -/
def reserveOf (part : Bool) : RFrame :=
  ctl 2 (reserveBytes (descriptor ((2, 1, 3) :: (0x30, 2, 9) :: castOnFields)) (if part then some ⟨0, 2000000, 1⟩ else none) [] [0, 2])

theorem witness_GarmentMessagesAct :
    (let s := of (ringed { castChip with cast := { closed := true } })
     arrives s.chip (reserveOf false) 0x0002 ∧ (Safety.takenIn s.chip .east (reserveOf false)).closed = true) ∧
    (let s := of (ringed castChip)
     let f := reserveOf false
     let c := Safety.takenIn s.chip .east f
     arrives s.chip f 0x0002 ∧ c.closed = false ∧ le (f.payload.drop 2) 64 1 = 0 ∧ c.roundCheck .east (reservePath (f.payload.drop 2)) = none ∧
     c.roundCheck .west (reservePath (f.payload.drop 2)) = none ∧ c.garmentBusy f.garment = false) ∧
    (let s := of (ringed { castChip with cast := { closed := false, tickets := [gk 2] } })
     let f := reserveOf false
     let c := Safety.takenIn s.chip .east f
     arrives s.chip f 0x0002 ∧ c.closed = false ∧ c.garmentBusy f.garment = true) ∧
    (let s := of (ringed castChip)
     let f := reserveOf true
     let c := Safety.takenIn s.chip .east f
     let body := f.payload.drop 2
     arrives s.chip f 0x0002 ∧ c.closed = false ∧ le body 64 1 ≠ 0 ∧
     (match c.judgePart { Req.of body with garment := f.garment } { module := c.rnd.id, deadline := le body 67 4, pipeline := le body 65 2 } f.src
        (reserveMembers body) (reservePath body) with | .inl _ => false | .inr k => k.members == [0, 2]) = true) ∧
    (let s := of (ringed { castChip with cast := { closed := false, tickets := [gk 2] } })
     let f := reserveOf true
     let c := Safety.takenIn s.chip .east f
     let body := f.payload.drop 2
     arrives s.chip f 0x0002 ∧ c.closed = false ∧
     (match c.judgePart { Req.of body with garment := f.garment } { module := c.rnd.id, deadline := le body 67 4, pipeline := le body 65 2 } f.src
        (reserveMembers body) (reservePath body) with | .inl v => v.reason == 0x0012 | .inr _ => false) = true) ∧
    (let s := of (ringed { castChip with cast := { castChip.cast with order := [.bell 0] } })
     arrives s.chip (reserveOf true) 0x0002 ∧ s.chip.cast.order = [.bell 0] ∧ s.chip.bellReads 0 = true ∧ castChip.cast.order = []) ∧
    (let h : GarmentHold := ⟨9, 250000, false, gk 2⟩
     let s := of (ringed { castChip with cast := { closed := false, holds := [h] } })
     arrives s.chip (ctl 3 []) 0x0003 ∧ s.chip.cast.hold? (ctl 3 []).garment = some h ∧ h.hop = false ∧
     s.chip.garmentTicket (ctl 3 []).garment = none ∧ s.chip.inGarment (ctl 3 []).garment = true) ∧
    (let h : GarmentHold := ⟨9, 250000, true, hopTicket 9 2 []⟩
     let s := of (ringed { castChip with cast := { closed := false, holds := [h] } })
     arrives s.chip (ctl 3 []) 0x0003 ∧ s.chip.cast.hold? (ctl 3 []).garment = some h ∧ h.hop = true) ∧
    (let s := of (ringed castChip)
     arrives s.chip (ctl 3 []) 0x0003 ∧ s.chip.cast.hold? 9 = none ∧ s.chip.inGarment 9 = false) ∧
    (let s := of (ringed { castChip with cast := { closed := false, tickets := [gk 2] } })
     arrives s.chip (ctl 4 []) 0x0004 ∧ arrives s.chip (ctl 6 []) 0x0006 ∧ arrives s.chip (ctl 7 []) 0x0007 ∧
     s.chip.garmentTicket 9 = some (gk 2) ∧ s.chip.inGarment 9 = true ∧ (gk 2).closing = false ∧
     arrives s.chip (ctl 6 (leBytes 4 5)) 0x0006) ∧
    (let s := of (ringed { castChip with cast := { closed := false, tickets := [{ gk 2 with closing := true }] } })
     arrives s.chip (ctl 6 (leBytes 4 5)) 0x0006 ∧ s.chip.garmentTicket 9 = some { gk 2 with closing := true }) := by decide +kernel

theorem witness_GarmentAnswersAct :
    (let f := ctl 5 (leBytes 2 0)
     let s := of (ringed { castChip with cast := { closed := false, leads := [lead0 [3]] } })
     arrives s.chip f 0x0005 ∧ s.chip.cast.lead? f.garment = some (lead0 [3]) ∧ (lead0 [3]).due.contains f.src = false) ∧
    (let f := ctl 5 (leBytes 2 0)
     let s := of (ringed { castChip with cast := { closed := false, leads := [lead0 [2, 3]] } })
     s.chip.cast.lead? f.garment = some (lead0 [2, 3]) ∧ (lead0 [2, 3]).due.contains f.src = true ∧ le (f.payload.drop 2) 0 2 = 0 ∧
     (lead0 [2, 3]).due.erase f.src ≠ [] ∧ (lead0 [2]).due.erase f.src = [] ∧ (lead0 [2]).due.contains f.src = true) ∧
    (let f := ctl 5 (leBytes 2 0x0012)
     let s := of (ringed { castChip with cast := { closed := false, leads := [lead0 [2]] } })
     arrives s.chip f 0x0005 ∧ s.chip.cast.lead? f.garment = some (lead0 [2]) ∧ (lead0 [2]).due.contains f.src = true ∧ le (f.payload.drop 2) 0 2 ≠ 0) ∧
    (let f := ctl 5 (leBytes 2 0x0011)
     let s := of (ringed { castChip with cast := { closed := false, tickets := [gk 0] } })
     arrives s.chip f 0x0005 ∧ s.chip.cast.lead? f.garment = none ∧ s.chip.garmentTicket f.garment = some (gk 0) ∧ (gk 0).lead = s.chip.rnd.id ∧
     le (f.payload.drop 2) 0 2 ≠ 0 ∧ (gk 2).lead ≠ s.chip.rnd.id) ∧
    (let f := ctl 5 (leBytes 2 0)
     let s := of (ringed castChip)
     arrives s.chip f 0x0005 ∧ s.chip.cast.lead? f.garment = none ∧ s.chip.garmentTicket f.garment = none) := by decide +kernel

/-- A descriptor of an opcode for context 9. -/
def todFor (op control : Nat) : List Byte := [BitVec.ofNat 8 op, 0] ++ leBytes 2 control ++ leBytes 2 9 ++ zeros 122
/-- A chip whose needle 63 is on panel 0, as given. -/
def needled (c : Chip) (x : Needle) : Chip := { c with ndl := { tab := [(63, { x with testing := false, panel := some 0, columns := 64 })] } }
/-- The chip of the witnesses with weights in its stage. -/
def weighed : Chip :=
  { served with pat := { mode := .applied, pattern := some { pat0 with streams := [{ sd with stages := [{ kind := .decode, role := 0, candidates := [0], perFrame := 1, viewOff := 0, needles := [], weightBytes := 1024 }] }] } } }

theorem witness_DescriptorsWaitAndIssue :
    ((of served).chip.needle 63).panel = none ∧ ((of (needled served { retired := true })).chip.needle 63).retired = true ∧
    (let s := of (needled served { swap := some ⟨(1, 0), 0, 0, 1024⟩ })
     let x := s.chip.needle 63
     x.panel ≠ none ∧ x.retired = false ∧ x.swap ≠ none) ∧
    (let s := of (needled served {})
     let x := s.chip.needle 63
     let d := todOf (leBytes 1 13 ++ [0] ++ leBytes 2 0x0800 ++ leBytes 2 9 ++ zeros 98 ++ leBytes 4 1 ++ zeros 20)
     x.panel ≠ none ∧ x.retired = false ∧ x.waiting = [] ∧ s.chip.waitMet d = false) ∧
    (let s := of (needled weighed {})
     let x := s.chip.needle 63
     let d := todOf (todFor 1 0)
     x.panel = some 0 ∧ x.retired = false ∧ x.swap = none ∧ x.waiting = [] ∧ x.band = none ∧ s.chip.fencedCtx 63 d.ctx = false ∧
     s.chip.waitMet d = true ∧ s.chip.ctxWeights 63 d.ctx = some ⟨(1, 0), 0, sramBase 63, 1024⟩ ∧ x.weights ≠ some (1, 0)) ∧
    (let s := of (needled weighed { weights := some (1, 0) })
     let x := s.chip.needle 63
     let d := todOf (todFor 13 0)
     x.panel ≠ none ∧ x.retired = false ∧ x.swap = none ∧ x.waiting = [] ∧ x.ops = [] ∧ x.freeTiles ≠ 0 ∧ x.spillTag = none ∧
     s.chip.fencedCtx 63 d.ctx = false ∧ s.chip.engineHeld 148 d.ctx = false ∧ s.chip.waitMet d = true ∧ x.band = none ∧ s.chip.ctxWeights 63 d.ctx = some ⟨(1, 0), 0, sramBase 63, 1024⟩ ∧
     x.weights = some (1, 0) ∧ d.opcode = 13) ∧
    (let s := of (needled served {})
     let d := todOf (todFor 1 0)
     s.chip.ctxWeights 63 d.ctx = none ∧ d.badFields = true ∧ le (todFor 1 0) 0 1 ≠ 2) ∧
    (let c := needled served { waiting := [⟨0, todFor 13 0⟩] }
     (c.readyBands 63).filter c.ctxGuaranteed = [9]) := by decide +kernel

/-- An operation of context 9 with a tag, as it stands in its needle. -/
def op0 (status : Nat) (signal : Option (Nat × Nat)) : OpRt :=
  { tag := 15, seq := 0, opcode := 13, context := 9, status := status, flags := 0, stitches := 0, busy := 0, cost := 0, issued := 0, tiles := 1
    visits := 0, spilled := 0, reads := [], writes := [], records := [], slots := [], desc := todFor 13 0, auxRec := [], listA := [], listB := []
    loaded := [], rate := 64, signal := signal, bandEnd := true, bad := false, frame := none }
/-- A transfer of 64 bytes into a slot. -/
def dma0 : Dma := ⟨7, 15, 9, [(0, 64)], sramBase 63, true, [], 0⟩

theorem witness_NeedleWorkCompletes :
    ((of served).chip.needle 0).op? 15 = none ∧
    (let s := of (needled served { ops := [op0 0 (some (0, 65535))] })
     (s.chip.needle 63).op? 15 = some (op0 0 (some (0, 65535))) ∧ s.chip.canComplete 63 (op0 0 (some (0, 65535))) = true ∧
     (op0 0 (some (0, 65535))).endStatus .ok = 0 ∧ s.chip.ctxTicket 9 = some tk ∧ tk.markers[0]? = some 1024 ∧ (s.chip.marker 1024).takesSignal 5 = true) ∧
    (let s := of (needled served { ops := [op0 3 none] })
     (s.chip.needle 63).op? 15 = some (op0 3 none) ∧ s.chip.canComplete 63 (op0 3 none) = true ∧ (op0 3 none).endStatus .ok = 3) ∧
    (let s := of (needled served { ops := [op0 0 none], rowFaults := 15 })
     (s.chip.needle 63).op? 15 = some (op0 0 none) ∧ (op0 0 none).endStatus (.columnFault 63) = 6 ∧ s.chip.canComplete 63 (op0 0 none) = true) ∧
    (op0 0 none).endStatus .memoryError = 7 ∧
    (let s := of (needled served { ops := [op0 0 none], dma := [dma0] })
     (s.chip.needle 63).op? 15 = some (op0 0 none) ∧ s.chip.canComplete 63 (op0 0 none) = false) ∧
    (of (needled served { rowFaults := 15 })).chip.needle 63 ≠ {} ∧ ((of (needled served { rowFaults := 15 })).chip.needle 63).rowFaults ≠ 16 ∧
    ((of (needled served {})).chip.needle 63).dma? 7 = none ∧
    (let s := of (needled served { ops := [op0 0 none], dma := [dma0] })
     (s.chip.needle 63).dma? 7 = some dma0 ∧ s.chip.dmaReady 63 dma0 = true ∧ dma0.inward = true) ∧
    (let d : Dma := { dma0 with inward := false }
     let s := of (needled served { ops := [op0 0 none], dma := [d, { dma0 with id := 8 }] })
     (s.chip.needle 63).dma? 7 = some d ∧ d.inward = false) := by decide +kernel

theorem witness_TripsAreTinked_2 :
    (let s := of (needled served { ops := [{ op0 0 none with cost := 1800 }] })
     63 < 64 ∧ (s.chip.needle 63).ops = [{ op0 0 none with cost := 1800 }] ∧ (op0 0 none).context = 9 ∧ 9 < 16384) := by decide +kernel
/-- At floor pace 1,800, 8 × 1,800 stitches take 8 µs, and the trip comes 100 µs later (R343). -/
theorem test_trip_comes_at_the_limit :
    (let s := of { (needled served { ops := [{ op0 0 none with cost := 1800 }] }) with gauge := { floor := 1800 } }
     (s.chip.toTrip 63 9).now) = 2700 := by decide +kernel

theorem witness_PanelsAndChartsServe :
    (let x : Panel := { waiting := [⟨2, 64, true, none⟩], gBucket := [0, 0, 1] }
     x.waiting.find? (fun w => w.res == 2 && w.guar == true) = some ⟨2, 64, true, none⟩ ∧ 0 < x.gBucket.getD 2 0) ∧
    (let x : Panel := { waiting := [⟨0, 64, true, none⟩], gBucket := [0, 0, 0], bBucket := [1, 0, 0] }
     x.waiting.find? (fun w => w.res == 0 && w.guar == true) = some ⟨0, 64, true, none⟩ ∧ x.gBucket.getD 0 0 ≤ 0 ∧ 0 < x.bBucket.getD 0 0) ∧
    (let x : Panel := { waiting := [⟨0, 64, false, none⟩], gBucket := [1, 0, 0], bBucket := [1, 0, 0] }
     x.waiting.find? (fun w => w.res == 0 && w.guar == false) = some ⟨0, 64, false, none⟩ ∧ 0 < x.bBucket.getD 0 0 ∧
     ∀ k ∈ x.waiting, k.res = 0 → k.guar = false) ∧
    (let x : Panel := { waiting := [⟨0, 64, false, none⟩, ⟨0, 64, true, none⟩], gBucket := [1, 0, 0], bBucket := [1, 0, 0] }
     x.waiting.find? (fun w => w.res == 0 && w.guar == false) = some ⟨0, 64, false, none⟩ ∧ 0 < x.gBucket.getD 0 0 ∧
     (x.waiting.any (fun k => k.res == 0 && k.guar)) = true) ∧
    (let x : Panel := { waiting := [⟨0, 64, false, none⟩] }
     x.waiting.find? (fun w => w.res == 0 && w.guar == false) = some ⟨0, 64, false, none⟩ ∧ x.bBucket.getD 0 0 ≤ 0) ∧
    ({} : Panel).waiting.find? (fun w => w.res == 0 && w.guar == true) = none ∧
    (of served).chip.pnl.fill? 0 = none ∧
    (let f : Fill := ⟨5, 0, true, some 2, false, true, 0, some 0, false⟩
     let s := of { served with pnl := { fills := [f] }, gauge := { time := 25000 } }
     s.chip.pnl.fill? 5 = some f ∧ f.remote.isSome = true ∧ s.chip.now ≤ f.since + 25000 ∧ f.since + 25000 < 2 ^ 64 ∧ f.retried = false) ∧
    (let f : Fill := ⟨5, 0, true, some 2, true, true, 0, some 0, false⟩
     let s := of { served with pnl := { fills := [f] } }
     s.chip.pnl.fill? 5 = some f ∧ f.retried = true) ∧
    (let f : Fill := ⟨5, 0, true, none, false, true, 0, none, false⟩
     let s := of { served with pnl := { fills := [f] } }
     s.chip.pnl.fill? 5 = some f ∧ f.remote = none) ∧
    (let g : Segment := ⟨0, 0x840000000, 1, none, true, false, []⟩
     let s := of { served with pat := { mode := .applied, pattern := some { pat0 with segments := [g] } } }
     s.chip.segments[0]? = some g ∧ s.chip.residentSegs.contains 0 = true ∧ s.chip.residentSegs.contains 1 = false) := by decide +kernel

/-- A lane of a picture of ticket 5: class, sub-deadline, abandoned or not. -/
def job0 (sub cls due : Nat) (abandon : Bool) : Job :=
  { ticket := 5, context := 9, source := 0, sub := sub, lane := 0, samples := 4096, cls := cls, width := 1, due := due, abandon := abandon }
/-- Such a lane whose traffic has been charged. -/
def moved (sub cls due : Nat) : Job := { job0 sub cls due false with charged := true }
/-- The chip of the witnesses with panel 0 owning every video core. -/
def filmed : Chip :=
  { served with pnl := { panels := [(0, { valid := true, declared := [3], presented := [3], dec := List.range 12, enc := List.range 8 })] } }
/-- That chip with a decode core, and the lanes that are ready. -/
def decoding (k : VCore) (ready : List Job) : Chip := { filmed with vdec := { cores := [(11, { k with testing := false })], ready := ready } }
/-- That chip with an encode core, and the lanes that wait. -/
def encoding (k : VCore) (waiting : List Job) : Chip := { filmed with venc := { cores := [(7, { k with testing := false })], waiting := waiting } }

theorem witness_VideoCoresSwitchAndFinish :
    ([job0 0 0 5 false] : List Job) ≠ [] ∧
    ((of served).chip.vdec.core 11).job = none ∧
    (let s := of (decoding { job := some (job0 0 1 0 false) } [job0 0 0 5 false])
     (s.chip.vdec.core 11).job = some (job0 0 1 0 false) ∧
     firstJob s.chip.vdec.last (s.chip.decChoices 11) = some (job0 0 0 5 false) ∧ preempts (job0 0 0 5 false) (job0 0 1 0 false) = true) ∧
    (let s := of (decoding { job := some (job0 0 0 5 false) } [job0 0 0 5 false])
     firstJob s.chip.vdec.last (s.chip.decChoices 11) = some (job0 0 0 5 false) ∧ preempts (job0 0 0 5 false) (job0 0 0 5 false) = false) ∧
    (let s := of (decoding { job := some (job0 0 0 5 true) } [job0 0 1 0 false])
     let x := s.chip.vdec.core 11
     x.job = some (job0 0 0 5 true) ∧ x.offline = false ∧ x.testing = false ∧
     firstJob s.chip.vdec.last (s.chip.decChoices 11) = some (job0 0 1 0 false)) ∧
    (let s := of (decoding { job := some (job0 0 0 5 true) } [])
     firstJob s.chip.vdec.last (s.chip.decChoices 11) = none) ∧
    (let s := of (encoding {} [job0 0 0 5 false])
     (s.chip.venc.core 7).free = true ∧ firstJob s.chip.venc.last (s.chip.encChoices 7) = some (job0 0 0 5 false)) ∧
    (let s := of (encoding {} [])
     firstJob s.chip.venc.last (s.chip.encChoices 7) = none) := by decide +kernel
theorem witness_VideoCoresSwitchAndFinish_2 :
    ((of served).chip.venc.core 7).free = false ∧
    ((of served).chip.venc.core 7).job = none ∧
    (let s := of (encoding { job := some (job0 0 1 0 false) } [job0 0 0 5 false])
     (s.chip.venc.core 7).job = some (job0 0 1 0 false) ∧
     firstJob s.chip.venc.last (s.chip.encChoices 7) = some (job0 0 0 5 false) ∧ preempts (job0 0 0 5 false) (job0 0 1 0 false) = true) := by decide +kernel
theorem witness_VideoCoresSwitchAndFinish_3 :
    (let s := of (encoding { job := some (moved 0 0 5) } [])
     let cur := moved 0 0 5
     let cs := Tbl.upd {} s.chip.venc.cores 7 (fun k => { k with job := none, busy := if cur.abandon then k.busy else k.busy.add (2 * cur.samples) })
     (s.chip.venc.core 7).job = some cur ∧ cur.abandon = false ∧ (coreJobs cs ++ s.chip.venc.waiting).any (samePicture cur) = false ∧
     s.chip.ticket? cur.ticket = some tk ∧ s.chip.stream? tk.pipeline = some sd ∧ s.chip.heldBack sd cur = false ∧
     (s.chip.encTraffic 7 tk sd cur).pnl.chunkWaits (224 + 7, 0) = false) ∧
    (let s := of (encoding { job := some (job0 0 0 5 false) } [{ job0 0 0 5 false with lane := 1 }])
     let cur := job0 0 0 5 false
     let d := { sd with split := { kind := .wavefront, units := [1, 1] } }
     s.chip.heldBack d cur = true ∧ s.chip.heldBack sd cur = false ∧ s.chip.venc.lanesLeft cur = true) ∧
    (let x : Chunk := ⟨0, 4096, true, some (231, 0)⟩
     let cur := { job0 0 0 5 false with charged := true }
     let s := of { encoding { job := some cur } [] with pnl := { panels := [(0, { waiting := [x] })] } }
     (s.chip.encTraffic 7 tk sd cur).pnl.chunkWaits (224 + 7, 0) = true) := by decide +kernel

/-- A frame in decode, and the first output of the stream. -/
def frame0 : FrameRt := { source := 0, order := 0, arrival := 0, pts := 0, pic := pic0, parts := [], decoding := true }
/-- An output that waits or is being coded. -/
def out0 (state : OutState) : Out := { source := 0, sub := 0, order := 0, state := state, arrival := 0, pts := 0, rep := false, key := true }
/-- The ticket with that frame and output. -/
def framed : Ticket := { tk with frames := [frame0], outs := [out0 .waiting] }
/-- The chip with that ticket, and one decode core. -/
def decodes (k : Ticket) (j : Job) : Chip := { decoding { job := some j } [] with cast := { closed := false, tickets := [k] } }
theorem witness_PicturesWaitsAndSamplesEnd :
    ((of served).chip.vdec.core 11).job = none ∧
    (let s := of (decodes framed (job0 0 0 5 true))
     (s.chip.vdec.core 11).job = some (job0 0 0 5 true)) ∧
    (let s := of { decodes framed (job0 0 0 5 false) with vdec := { cores := [(11, { testing := false, job := some (job0 0 0 5 false) })], ready := [{ job0 0 0 5 false with lane := 1 }] } }
     s.chip.vdec.lanesLeft 11 (job0 0 0 5 false) = true) ∧
    (let s := of (decodes framed (moved 0 0 5))
     let j := moved 0 0 5
     (s.chip.vdec.core 11).job = some j ∧ j.abandon = false ∧ j.sub ≠ 1 ∧ s.chip.ticket? j.ticket = some framed ∧
     s.chip.stream? framed.pipeline = some sd ∧ framed.kindStage .decode = some (placedAs 0 .decode 9) ∧ framed.frame? j.source = some frame0 ∧
     s.chip.vdec.lanesLeft 11 j = false ∧ (s.chip.decTraffic 11 j).pnl.chunkWaits (192 + 11, 0) = false ∧ hankCount (pictureBytes frame0.pic) = 1 ∧
     framed.upCount sd frame0 = 0 ∧ framed.genCount sd frame0 false = (0, 0) ∧ framed.genCount sd frame0 true = (0, 0) ∧ anCount sd frame0 = 0 ∧
     s.chip.grantable framed 1 = true ∧ s.chip.fieldWaits framed sd frame0 = false ∧ sd.mfBufs = [] ∧ 11 < 12) := by decide +kernel
theorem witness_PicturesWaitsAndSamplesEnd_2 :
    (let s := of { decodes framed (job0 0 0 5 false) with hank := { fresh := 2097152, ready := true } }
     s.chip.grantable framed 1 = false) ∧
    (let x : Chunk := ⟨0, 4096, true, some (203, 0)⟩
     let s := of { decodes framed { job0 0 0 5 false with charged := true } with pnl := { panels := [(0, { waiting := [x] })] } }
     (s.chip.decTraffic 11 { job0 0 0 5 false with charged := true }).pnl.chunkWaits (192 + 11, 0) = true) ∧
    (let x : Sample := ⟨0, 0, 1000, 0, .decoding, zeros 64, pic0⟩
     let k := { adapting with adapt := { samples := [x] } }
     let s := of (decodes k (moved 1 2 0))
     s.chip.ticket? 5 = some k ∧ k.adapt.samples.find? (fun s => s.id == 0 && s.state == .decoding) = some x ∧ s.chip.vdec.lanesLeft 11 (moved 1 2 0) = false ∧
     (s.chip.decTraffic 11 (moved 1 2 0)).pnl.chunkWaits (192 + 11, 0) = false ∧ s.chip.grantable k 1 = true ∧ k.adapt.fits sd.cacheHanks 1 = true ∧
     k.adapt.fits 0 1 = false) ∧
    (let f := { frame0 with order := 2, fieldWait := some 0 }
     let d := { sd with mfBufs := [0, 0], nbuf := 2, mfGrid := 8 }
     let k := { framed with frames := [f] }
     let s := of { decodes k (job0 0 0 5 false) with pat := { mode := .applied, pattern := some { pat0 with streams := [d] } } }
     s.chip.ticket? 5 = some k ∧ s.chip.stream? k.pipeline = some d ∧ k.kindStage .decode = some (placedAs 0 .decode 9) ∧ k.frame? 0 = some f ∧
     f.decoding = true ∧ f.fieldWait = some 0 ∧ s.chip.fieldWaits k d f = true) := by decide +kernel
theorem witness_PicturesWaitsAndSamplesEnd_3 :
    (of served).chip.ticket? 6 = none ∧
    (let s := of (decodes framed (job0 0 0 5 false))
     let p := placedAs 0 .decode 9
     framed.placed.find? (fun p => p.stage == 0) = some p ∧ framed.frame? 0 = some frame0 ∧ s.chip.stageDone framed p frame0 = false ∧
     frame0.lost.contains 0 = false ∧ s.chip.waitDue framed p frame0 = some 5000 ∧ framed.guaranteed = true ∧
     s.chip.inputAt framed p frame0 = some 0 ∧ s.chip.waitDue { framed with guaranteed := false } p frame0 = none) ∧
    (let f := { frame0 with lost := [0] }
     f.lost.contains 0 = true) ∧
    (of served).chip.ticket? 5 = some tk ∧
    tk.skips.drop tk.sentSkips = [] ∧
    (let k := { tk with skips := [⟨0, 1, 0, 0, []⟩] }
     let s := of { served with cast := { closed := false, tickets := [k] } }
     s.chip.ticket? 5 = some k ∧ k.skips = ⟨0, 1, 0, 0, []⟩ :: [] ∧ k.sentSkips = 0 ∧ s.chip.sendsTo k = none ∧ s.chip.canCommit k 2 = true ∧ queueFn k.queue = k.fn) ∧
    (let k := { tk with skips := [⟨0, 1, 0, 0, []⟩] }
     let s := of { served with cast := { closed := false, tickets := [k] }, hank := { fresh := 2097151, ready := true } }
     s.chip.canCommit k 2 = false) ∧
    (let k := { tk with skips := [⟨0, 1, 0, 0, []⟩] }
     let s := of { served with cast := { closed := false, tickets := [k] }
                               pat := { mode := .applied, pattern := some { pat0 with streams := [{ sd with sendTo := some 2, sendArg := 7 }] } } }
     s.chip.sendsTo k = some (2, 7) ∧ k.skips.drop k.sentSkips = ⟨0, 1, 0, 0, []⟩ :: [] ∧ s.chip.grantable k 1 = true ∧ s.chip.rnd.openXfers < 4096) ∧
    (let x : Sample := ⟨3, 0, 1000, 0, .ready 0, zeros 64, pic0⟩
     let k := { adapting with adapt := { samples := [x] } }
     let s := of { served with cast := { closed := false, tickets := [k] } }
     s.chip.ticket? 5 = some k ∧ k.adapt.samples.find? (fun q => q.id == 3 && q.open) = some x) := by decide +kernel

theorem witness_TripsAreTinked_3 :
    11 < 12 ∧ ((of (decoding { job := some (job0 0 1 0 false) } [])).chip.vdec.core 11).job = some (job0 0 1 0 false) := by decide +kernel
/-- A picture pre-empted after 300 ticks and taken up 1,000 ticks later has worked 300 ticks (R343). -/
theorem test_preempted_time_does_not_count :
    (let k := VCore.switch { job := some { job0 0 1 0 false with start := 100 } } (job0 0 0 5 false) 400
     (k.release.take { job0 0 1 0 false with start := 300 } 1400).job) = some { job0 0 1 0 false with start := 1100 } := by decide +kernel

/-- A frame of a type and class from module 2 for ticket 5, its header check good. -/
def traffic (type : Nat) (cls : RClass) (arg : Nat) (last : Bool) (payload : List Byte) : RFrame := good (newFrame 2 type cls 0 5 7 0 arg 0 last false payload)
/-- A ROUND region of one page that modules of role 1 may write. -/
def roundRegion0 : Region := ⟨0x840000000, 0x200000, .round, 0, 1, 0⟩
/-- The chip of the witnesses on the ring, with that region, and module 2 known by its roles. -/
def ringChip : Chip :=
  let c := ringed served
  { c with rnd := { c.rnd with peers := [(2, ⟨1, 1, 0, 0⟩)] }, pat := { mode := .applied, pattern := some { pat0 with regions := [roundRegion0] } } }

theorem witness_ControlMessagesKeepTheirOrder :
    (let f := traffic 2 .control 0 false (ctlPayload 0x000C [1])
     f.type = 2 ∧ ctlCode f ≠ 1 ∧ traffic 1 .control 0 false [] ≠ f) ∧
    (let s := of ringChip
     let f := { ctl 1 [] with hcrc := 65536 }
     f.type = 2 ∧ ctlCode f = 1 ∧ (s.chip.rnd.receive .east f).2 = false) ∧
    (let s := of { ringChip with rst := { fenced := true } }
     ctlCode (ctl 1 []) = 1 ∧ s.chip.rst.fenced = true) ∧
    (let s := of ringChip
     let f := good { ctl 1 [] with offset := 2147483647 }
     let q := s.chip.rnd.eseqOf f.src
     f.type = 2 ∧ ctlCode f = 1 ∧ (s.chip.rnd.receive .east f).2 = true ∧ f.offset ≠ q.nextIn ∧
     (q.ahead f.offset && !q.held.any (fun g => g.offset == f.offset)) = true) ∧
    (let s := of ringChip
     let f := good { ctl 1 [] with offset := 4294967295 }
     let q := s.chip.rnd.eseqOf f.src
     (s.chip.rnd.receive .east f).2 = true ∧ f.offset ≠ q.nextIn ∧ q.ahead f.offset = false) ∧
    ((of ringChip).chip.rnd.exit 2 = some .west ∧ ((of ringChip).chip.rnd.port .west).state ≠ .wrapped) ∧
    (let s := of { ringChip with cast := { closed := false, tickets := [gk 2] }, markers := [(1025, { scope := 2, ticket := 5, count := 4294967295 })] }
     let f := ctl 1 (leBytes 2 1 ++ leBytes 2 65535)
     arrives s.chip f 1 ∧ s.chip.ticket? f.ticket = some (gk 2) ∧ (gk 2).markers[le f.payload 2 2]? = some 1025 ∧ (gk 2).garment = some f.garment ∧
     (s.chip.marker 1025).takesSignal 5 = true) ∧
    (let s := of { ringChip with cast := { closed := false } }
     arrives s.chip (ctl 1 []) 1 ∧ s.chip.ticket? (ctl 1 []).ticket = none) ∧
    (let s := of { ringChip with pat := { mode := .applied, pattern := some { pat0 with events := ⟨[], [], 0, [0]⟩ } } }
     arrives s.chip (ctl 10 (zeros 64)) 10 ∧ arrives s.chip (ctl 11 (zeros 128)) 11 ∧ s.chip.collects = true) ∧
    ((of ringChip).chip.collects = false ∧ arrives (of ringChip).chip (ctl 12 (2 :: leBytes 2 2)) 12 ∧
     le ((ctl 12 (2 :: leBytes 2 2)).payload.drop 2) 0 1 = 2 ∧ changeMods ((ctl 12 (2 :: leBytes 2 2)).payload.drop 2) = [2]) ∧
    (let f := traffic 2 .control 0 false (ctlPayload 8 (leBytes 4 7))
     let x : XferOut := ⟨7, 2, .guaranteed, 5, 0, 0, false, [3], [], 0, some 0, false, none, true⟩
     let s := of { ringChip with rnd := { ringChip.rnd with xout := [x] }, hank := { recs := [(3, heldHank)], ready := true } }
     f.type = 2 ∧ (s.chip.rnd.receive .east f).2 = true ∧ ctlCode f = 8 ∧
     s.chip.rnd.xout.find? (fun x => x.xfer == le f.payload 2 4 && x.dest == f.src) = some x ∧ (s.chip.hank.entry 3).charged = true ∧
     (s.chip.hank.entry 3).ticket = 5 ∧ (of ringChip).chip.rnd.xout.find? (fun x => x.xfer == le f.payload 2 4 && x.dest == f.src) = none) ∧
    (let f := traffic 2 .control 0 false (ctlPayload 9 (leBytes 4 0))
     f.type = 2 ∧ ctlCode f = 9 ∧ ((of ringChip).chip.rnd.receive .east f).2 = true) := by decide +kernel

theorem witness_PortsTakeFrames :
    (((of served).chip.rnd.port .east).state ≠ .up) ∧
    (let x := (of ringChip).chip.rnd.port .east
     let f := traffic 1 .guaranteed 0 false [1]
     f.type = 1 ∧ x.state = .up ∧ { f with stomp := true }.stomp = true ∧ f.stomp = false ∧ { f with hcrc := 65536 }.hcrcOk = false ∧
     { f with lseq := 65535 }.lseq ≠ x.rxSeq ∧ x.dropping = false ∧ f.hcrcOk = true ∧ f.lseq = x.rxSeq ∧ f.pcrcOk = true ∧ f.bad = false ∧
     { f with resv := 1 }.bad = true) ∧
    (let x := (of { ringChip with rnd := { ringChip.rnd with east := { state := .up, dropping := true } } }).chip.rnd.port .east
     x.dropping = true ∧ (traffic 1 .guaranteed 0 false []).lseq = x.rxSeq ∧ { traffic 1 .guaranteed 0 false [] with lseq := 1 }.lseq ≠ x.rxSeq) ∧
    (let f := good { traffic 1 .guaranteed 0 false [] with dest := 3, ttl := 1 }
     f.hcrcOk = true ∧ f.pcrcOk = true ∧ f.bad = false ∧ f.dest ≠ (of ringChip).chip.rnd.id ∧ f.ttl ≤ 1) ∧
    (let f := good { traffic 1 .guaranteed 0 false [] with dest := 3, ttl := 2 }
     f.hcrcOk = true ∧ f.dest ≠ (of ringChip).chip.rnd.id ∧ 1 < f.ttl ∧ ((of ringChip).chip.rnd.port .west).state ≠ .wrapped) ∧
    (let f := good { traffic 4 .control 0 false [] with nak := true, ack := 65535 }
     let x := (of { ringChip with rnd := { ringChip.rnd with east := { state := .up, replay := [{ plain with lseq := 65535 }, plain] } } }).chip.rnd.port .east
     x.state = .up ∧ f.hcrcOk = true ∧ f.bad = false ∧ f.nak = true ∧ x.replay.any (fun g => g.lseq == f.ack) = true) ∧
    ((of served).chip.rnd.slipped = true ∧ (of ringChip).chip.rnd.slipped = false ∧ 2 ≤ 2 ∧ 2 < 3) := by decide +kernel

/-- The ticket of the witnesses, fed over the Round. -/
def overRound : Ticket := { tk with srcRound := true }

theorem witness_RoundTrafficActs :
    (let s := of { ringChip with cast := { closed := false, tickets := [overRound] } }
     let f := traffic 1 .guaranteed 0 true (zeros 64)
     let g := traffic 1 .guaranteed 0 false (zeros 64)
     f.type = 1 ∧ (s.chip.rnd.receive .east f).2 = true ∧ s.chip.rst.fenced = false ∧ f.cls ≠ .bulk ∧ s.chip.ticket? f.ticket = some overRound ∧
     overRound.srcRound = true ∧ overRound.closing = false ∧ s.chip.rnd.incoming f = none ∧ f.offset = 0 ∧ ceilDiv f.payload.length 0x4000 = 1 ∧
     s.chip.grantable overRound 1 = true ∧ f.last = true ∧ overRound.kindStage .adapt = none ∧ s.chip.stream? overRound.pipeline ≠ none ∧
     g.last = false ∧ (s.chip.rnd.receive .east g).2 = true) ∧
    (let s := of { ringChip with cast := { closed := false, tickets := [overRound] }, hank := { fresh := 2097152, ready := true } }
     s.chip.grantable overRound 1 = false) ∧
    (let s := of { ringChip with cast := { closed := false } }
     let f := good { traffic 1 .guaranteed 0 true [1] with offset := 0x1FFFFF }
     (s.chip.rnd.receive .east f).2 = true ∧ f.cls ≠ .bulk ∧ s.chip.ticket? f.ticket = none ∧ s.chip.roundRegion f = some roundRegion0 ∧
     (s.chip.mayWrite f.src roundRegion0 && decide (f.offset + f.payload.length ≤ roundRegion0.size)) = true ∧ s.chip.rnd.incoming f = none ∧
     decide (f.offset + 1 + f.payload.length ≤ roundRegion0.size) = false ∧ s.chip.roundRegion (traffic 1 .guaranteed 1 true [1]) = none) ∧
    (let x : Fill := ⟨0, 0, true, some 2, false, true, 0, none, false⟩
     let s := of { ringChip with pnl := { fills := [x] } }
     let f := traffic 1 .bulk (s.chip.windowBlock 0) true []
     (s.chip.rnd.receive .east f).2 = true ∧ f.cls = .bulk ∧ s.chip.fillOf f = some x ∧ f.length = 0) ∧
    (let s := of { ringChip with rnd := { ringChip.rnd with roles := 4 }
                                 pat := { mode := .applied, pattern := some { pat0 with regions := [{ roundRegion0 with kind := .segment }] } } }
     let f := traffic 3 .bulk 31 true []
     f.type = 3 ∧ (s.chip.rnd.receive .east f).2 = true ∧ s.chip.rst.fenced = false ∧ s.chip.rnd.openXfers < 4096 ∧ s.chip.isStore = true ∧
     s.chip.storeBlock f.arg = some (0x840000000 + 31 * 65536) ∧ s.chip.storeBlock 32 = none) ∧
    ((of ringChip).chip.isStore = false ∧ (of { ringChip with rst := { fenced := true } }).chip.rst.fenced = true) ∧
    (let f := fun (k serial : Nat) => traffic 6 .control 0 true (discoverPayload k serial 1 0 2)
     let s := of { ringChip with pins := { perstN := true, serial := 50 } }
     (f 0 50).type = 6 ∧ (s.chip.rnd.receive .east (f 0 50)).2 = true ∧ le (f 0 50).payload 0 2 = s.chip.rnd.id ∧
     le (f 0 50).payload 2 8 = s.chip.pins.serial ∧ (f 0 50).turned = false ∧ le (f 0 49).payload 2 8 < s.chip.pins.serial ∧
     s.chip.pins.serial < le (f 0 51).payload 2 8 ∧ le (f 2 51).payload 0 2 ≠ s.chip.rnd.id ∧ 1 < (f 2 51).ttl ∧
     (s.chip.rnd.receive .east (f 2 51)).2 = true ∧ (s.chip.rnd.port .west).state ≠ .wrapped) := by decide +kernel

theorem witness_PortsAndTimersOfTheRound :
    (let x := (of ringChip).chip.rnd.port .east
     x.state = .up ∧ x.transit = [] ∧ x.egress = []) ∧
    (let c : Chip := { ringChip with rnd := { ringChip.rnd with east := { state := .up, egress := [ctl 1 []] } } }
     let x := c.rnd.port .east
     x.state = .up ∧ x.choose c.rnd.wrrBe c.rnd.wrrBulk = some ((none, ctl 1 []), 0, 0) ∧ (ctl 1 []).credited = true ∧
     c.rnd.commits (ctl 1 []) = none ∧ x.ready (fun f => f.cls == .control) = some (none, ctl 1 []) ∧ x.ctlShare (none, ctl 1 []) = true) ∧
    (let f := traffic 1 .guaranteed 0 true []
     let o : XferOut := ⟨7, 2, .guaranteed, 5, 0, 0, false, [], [f], 1, none, false, some ⟨5, .head 1 false, some 0, []⟩, false⟩
     let c : Chip := { ringChip with rnd := { ringChip.rnd with east := { state := .up, egress := [f] }, xout := [o] } }
     let x := c.rnd.port .east
     x.ready (fun f => f.cls == .control) = none ∧ x.ready (fun f => f.cls == .guaranteed) = some (none, f) ∧
     x.ready (fun f => f.cls == .bulk && f.resvBulk) = none) ∧
    (let f := traffic 1 .guaranteed 0 true []
     let o : XferOut := ⟨7, 0, .guaranteed, 5, 0, 0, false, [], [f], 1, none, false, some ⟨5, .head 1 false, some 0, []⟩, false⟩
     let c : Chip := { ringChip with rnd := { ringChip.rnd with id := 2, east := { state := .up, egress := [f] }, xout := [o] } }
     c.rnd.commits f = some ⟨5, .head 1 false, some 0, []⟩) ∧
    ((of served).chip.rnd.slipped = true ∧ ((of ringChip).chip.rnd.port .east).replayAt = none) := by decide +kernel

theorem witness_TimersOfTheRound :
    (let c : Chip := { ringChip with rnd := { ringChip.rnd with east := { state := .training, replayAt := some 0 }, slipPending := true }, gauge := { time := 500 } }
     c.rnd.slipped = false ∧ (c.rnd.port .east).replayAt = some 0 ∧ c.now ≤ 0 + 500 ∧ 0 + 500 < 2 ^ 64 ∧ (c.rnd.port .east).state ≠ .up ∧
     (c.rnd.port .east).state ≠ .wrapped ∧ (c.rnd.port .west).state ≠ .wrapped ∧ c.rnd.slipPending = true ∧ c.rnd.east.replay = [] ∧ c.rnd.west.replay = []) ∧
    (of ringChip).chip.rnd.slipPending = false ∧
    (let c : Chip := { ringChip with rnd := { ringChip.rnd with runs := 2 } }
     c.rnd.peers.find? (fun e => e.1 == 2) = some (2, ⟨1, 1, 0, 0⟩) ∧ 0 + 2 < c.rnd.runs + 1) ∧
    (of ringChip).chip.rnd.xout.find? (fun x => x.xfer == 7 && x.leftAt.isSome) = none ∧
    (let x : XferOut := ⟨7, 2, .guaranteed, 5, 9, 0, false, [], [], 0, some 0, true, none, true⟩
     let c : Chip := { ringChip with rnd := { ringChip.rnd with xout := [x] }, gauge := { time := 2500 } }
     c.rnd.xout.find? (fun x => x.xfer == 7 && x.leftAt.isSome) = some x ∧ x.leftAt = some 0 ∧ c.now ≤ 0 + 2500 ∧ 0 + 2500 < 2 ^ 64 ∧
     x.resent = true ∧ { x with resent := false }.resent = false) ∧
    (let c : Chip := { ringChip with rnd := { ringChip.rnd with eseq := [(2, { unacked := [(4294967295, ctl 1 [], 0)] })] } }
     (c.rnd.eseqOf 2).unacked.find? (fun u => u.1 == 4294967295) = some (4294967295, ctl 1 [], 0) ∧ (ctl 1 []).resent = false ∧
     { ctl 1 [] with resent := true }.resent = true ∧ (c.rnd.eseqOf 2).gapAt = none ∧ (c.rnd.eseqOf 3).unacked.find? (fun u => u.1 == 0) = none) ∧
    (let g := good { ctl 1 [] with offset := 1 }
     let c : Chip := { ringChip with rnd := { ringChip.rnd with eseq := [(2, { held := [g], gapAt := some 0 })] }, gauge := { time := 7500 } }
     (c.rnd.eseqOf 2).gapAt = some 0 ∧ (c.rnd.eseqOf 2).nearest = some g ∧ c.now ≤ 0 + 7500 ∧ 0 + 7500 < 2 ^ 64) := by decide +kernel

theorem witness_StepKeepsMemoryForm : Safety.Inv State.reset ∧ (∃ t, step State.reset = .next t) :=
  ⟨(by decide : Mem.wf State.reset.mem = true), ⟨_, rfl⟩⟩
theorem witness_RecoveryImageNeverChanges : ∃ t, step State.reset = .next t := ⟨_, rfl⟩
theorem witness_ReservedSourcesStayQuiet :
    (∀ k, reservedSource k = true → (State.reset.chip.evc.src k).pending = false) ∧ reservedSource 1023 = true ∧ (∃ t, step State.reset = .next t) :=
  ⟨fun _ _ => rfl, by decide, ⟨_, rfl⟩⟩

/-! ### Tests on the spec's worked examples -/

/-- A decimal fraction converted exactly: num / den into a format, by a scale 2^-k. -/
def conv (f : Fmt) (neg : Bool) (num den k : Nat) : Conv := convert f 0 .nearest (.divide (.fin false den (-(k : Int)))) (.fin neg num 0)

/-- Worked example of ch. 4: 3.3, 3.375, 500 and 0.005 as E4M3 with scale 1 are 0x45, 0x46, 0x7E (saturated) and 0x03. -/
theorem test_e4m3_values :
    ((conv .e4m3 false 33 10 0).code, (conv .e4m3 false 3375 1000 0).code, conv .e4m3 false 500 1 0, (conv .e4m3 false 5 1000 0).code) =
    (0x45, 0x46, ⟨0x7E, true, false⟩, 0x03) := by decide +kernel
/-- Table 4.7: the group's scales are E8 0x7E and BF16 0x3ED5; under E8 2.9, -1.3 and 0.25 are 0x6, 0xD and 0x0. -/
theorem test_gs4_group :
    (deriveE8 .gs4 0 (rne32q false 29 10 0), deriveBf16 .gs4 0 (rne32q false 29 10 0)) = (0x7E, 0x3ED5) ∧
    ((conv .gs4 false 29 10 1).code, (conv .gs4 true 13 10 1).code, (conv .gs4 false 25 100 1).code) = (0x6, 0xD, 0x0) := by decide +kernel
/-- Worked example of ch. 4: the abs-max 5.7 gives SCALE_E8 0x79, and 7.5 the code 0x7A; 0.01 and 7.5 then are 0x32 and 0x7E, saturated. -/
theorem test_delayed_scale :
    (deriveE8 .e4m3 0 (rne32q false 57 10 0), deriveE8 .e4m3 0 (rne32q false 75 10 0)) = (0x79, 0x7A) ∧
    ((conv .e4m3 false 1 100 6).code, conv .e4m3 false 75 10 6) = (0x32, ⟨0x7E, true, false⟩) := by decide +kernel
/-- Worked example of ch. 4: RNE(-0.5296875 x 20) + 128 = 117, stored as 0x75 in A8. -/
theorem test_a8_store : (convert .a8 128 .nearest (.times (.fin false 20 0)) (rne32q true 5296875 10000000 0)).code = 0x75 := by decide +kernel
/-- Worked examples of ch. 8: L and DECODE_PRICE of HEVC Level 5.1; the shares of an 8192 x 4320 picture in 2 tiles and in 68 CTU rows. -/
theorem test_decode_shares :
    (levelRow 2 51).map (fun l => (l.size, decodePrice l.size)) = some (8912896, 17825792) ∧
    splitLoads { kind := .tiles, units := [17694720, 17694720] } 4 = [17694720, 17694720] ∧
    splitLoads { kind := .wavefront, units := List.replicate 67 524288 ++ [262144] } 4 = [8912896, 8912896, 8912896, 8650752] := by decide +kernel
/-- Worked example of ch. 11: 6,220,800 B are 380 hanks. Of ch. 17: the limit of COST 73,856 at 1,800 Mstitch/s is 428.25 µs, in ticks. -/
theorem test_sizes_and_limits : ceilDiv 6220800 0x4000 = 380 ∧ opLimit 1800 73856 0 = 10707 := by decide
/-- Worked example of ch. 16, rows 1 and 2: g_floor 58 and 60; the cuts of 17.0 W and 6.4 W give RATE_B 18, and RATE_B 1 with RATE_G 63. -/
theorem test_tension_rows :
    (guaranteedFloor 1800 1990, guaranteedFloor 1800 1930) = (58, 60) ∧
    (let e : RowEnv := ⟨262000, 375, 900, 0, 0, 0⟩
     let t : Tens := { capEff := 2500 }
     ((t.branch 58 e false).1.rateB, (t.branch 58 e false).1.rateG) = (18, 64)) ∧
    (let e : RowEnv := ⟨251400, 375, 900, 0, 0, 0⟩
     let t : Tens := { capEff := 2500, rateB := 18 }
     ((t.branch 60 e false).1.rateB, (t.branch 60 e false).1.rateG) = (1, 63)) := by decide +kernel
/-- Row 3 of it: at Tj 97 °C cap_eff is 210 W; what RATE_G, shedding and the rest cannot cut leaves the row over. -/
theorem test_tension_over :
    capOf 2500 388 = 2100 ∧
    (let e : RowEnv := ⟨245000, 375, 900, 14000, 0, 0⟩
     let t : Tens := { capEff := 2100, rateB := 1, rateG := 63 }
     ((t.branch 60 e false).1.rateB, (t.branch 60 e false).1.rateG, (t.branch 60 e false).1.shedding, (t.branch 60 e false).2.1) = (1, 60, true, true)) := by
  decide +kernel
/-- Worked example of ch. 2: at floor 1,800 the margin target is 1,944 and the fast-step threshold 1,872. -/
theorem test_margins :
    (let g : Gauge := {}
     (g.meets 1944, g.meets 1943, (g.fastStep 1872).fast.live, (g.fastStep 1871).fast.live)) = (true, false, 0, 1) := by decide
/-- Worked example of ch. 3: twelve 2160p60 encodes, the thirteenth at 898,560 ppm passes, the fourteenth at 967,680 ppm does not. -/
theorem test_encode_capacity :
    (let p := { placedAs 0 .encode 1 with resource := 1, price := 16588800, tB := 60, dNs := 16666666, dA := 16666666 }
     (demandOk (List.replicate 13 p) 8 1800,
      loadPpm (demand (List.replicate 13 p)) 8 1800, demandOk (List.replicate 14 p) 8 1800, loadPpm (demand (List.replicate 14 p)) 8 1800)) =
    (true, 898560, false, 967680) := by decide +kernel

/-! ### One-step tests -/

/-- The chip after a command. -/
def after (c : Instr) (s : State) : Chip := match exec c s with | .next t => t.chip | _ => s.chip
/-- R313: COUNT 5 acknowledged with 5 clears the source; an ordinary source acknowledged with 3 goes on. -/
theorem test_event_ack :
    (let s := of { live with evc := { srcs := [(300, { pending := true, count := 5 })] } }
     ((after (.eventAck 300 5) s).evc.src 300).pending) = false := by decide +kernel
/-- R41: a request dropped where its descriptor cannot be read leaves nothing in flight and no ticket. -/
theorem test_cast_dropped : (((after (.castOn 0 .failed) (of castChip)).cast.fn 0).busy, (after (.castOn 0 .failed) (of castChip)).cast.tickets.length) = (false, 1) := by
  decide +kernel
/-- R51, R53: an accepted cast-on is ticket 1 with context 0, its contexts and markers reserved. -/
theorem test_cast_on :
    ((after (.castOn 0 (.data (descriptor castOnFields))) (of { castChip with cast := { castChip.cast with tickets := [] } })).cast.tickets.map
      (fun k => (k.id, k.contexts, k.markers.length, k.quota))) = [(1, [0], 2, 4)] := by decide +kernel
/-- R59: a COMMIT turns a hold into the ticket that the lead numbers. -/
theorem test_commit :
    ((after (.commit .east (ctl 3 [])) (of (ringed { castChip with cast := { closed := false, holds := [⟨9, 250000, false, gk 2⟩] } }))).cast.tickets.map
      (fun k => (k.id, k.garment))) = [(partKey 2 5, some 9)] := by decide +kernel
/-- R240: a scrubbed hank is free and its bytes are 0. -/
theorem test_scrub_done :
    (let s : State := { of (pooled { recs := [(3, { state := .scrub })], scrub := [3] }) with mem := [(3 * 0x4000, 7)] }
     ((after (.hankScrubDone 3) s).hank.entry 3).state) = .free := by decide +kernel
/-- R287: Bus Master Enable set lets the function's held work go; the bit is in force. -/
theorem test_bus_master : ((after (.busMasterEnable 0) State.reset).pcie.fn 0).bme = true := by decide +kernel
/-- R252: a good frame moves the expected LSEQ on from 65,535 to 0. -/
theorem test_lseq_wraps :
    (let f := good { plain with lseq := 65535, type := 7 }
     let c : Chip := { ringChip with rnd := { ringChip.rnd with east := { state := .up, rxSeq := 65535 } } }
     ((c.rnd.receive .east { f with hcrc := crc16 f.header }).1.port .east).rxSeq) = 0 := by decide +kernel
/-- R138: SYNC issues on an idle needle with tag 0. -/
theorem test_sync_issues :
    ((after (.sync 63 0 ((todFor 13 0).set 14 1)) (of (needled served {}))).needle 63).ops.map (fun o => (o.tag, o.opcode, o.context, o.status)) = [(0, 13, 9, 0)] := by
  decide +kernel
/-- R113: fields that no rule allows end as BAD_DESCRIPTOR, status 3. -/
theorem test_bad_descriptor :
    ((after (.matmul 63 0 (todFor 1 0)) (of (needled served {}))).needle 63).ops.map (fun o => o.status) = [3] := by decide +kernel
/-- R151: an admitted chunk takes its bytes off the G bucket, which may go below 0. -/
theorem test_chunk_admitted :
    (let s := of { served with pnl := { panels := [(0, { valid := true, waiting := [⟨0, 64, true, none⟩], gBucket := [1, 0, 0] })] } }
     ((after (.chunkAdmit 0 0 true) s).panel 0).gBucket) = [-63, 0, 0] := by decide +kernel
/-- R102, R346: a column fault is recorded and the count of them rises. -/
theorem test_column_fault :
    (let s := of (needled served { ops := [op0 0 none] })
     let d := after (.operationComplete 63 15 { how := .columnFault 63 } 0 0 .plain) s
     ((d.needle 63).rowFaults, (d.needle 63).faultCol)) = (1, 63) := by decide +kernel
/-- R159: a guaranteed picture takes the core of a best-effort one, which goes to the context store. -/
theorem test_preemption :
    (let d := after (.decodeSegmentEnd 11) (of (decoding { job := some (job0 0 1 0 false) } [job0 0 0 5 false]))
     (((d.vdec.core 11).job.map (fun j => j.cls)), ((d.vdec.core 11).saved.map (fun j => j.cls)), d.vdec.preempt.live)) = (some 0, [1], 1) := by decide +kernel
/-- Tables 8.10 and 9.5: a core's registers lie at 0x1000 + 0x100 × its number. -/
theorem test_core_registers :
    ((State.reset.chip.regAt 0x401B00).isSome, (State.reset.chip.regAt 0x401010).isSome, (State.reset.chip.regAt 0x409708).isSome) =
      (true, false, true) := by decide +kernel
/-- R279, Table 13.9: an entry of OP 9 is taken and answered BAD_DESCRIPTOR (log 103). -/
theorem test_unknown_op :
    (let d := after (.nop 0 0 (entry 9 [])) (of served)
     (d.hostTx.map (fun w => le w.bytes 2 1), (d.queue 0).sqHead)) = ([2], 1) := by decide +kernel
/-- R197: the picture after one whose work is over and gone is no repeat; after a refused one it is. -/
theorem test_interval_still :
    (let p := { pic0 with keyPic := false }
     ({ tk with lastSub := some (4, 0), lastSource := some 4, frames := [] }.intervalStill p,
      { tk with lastSub := some (5, 0), lastSource := some 4, frames := [] }.intervalStill p)) = (false, true) := by decide +kernel
end Sys2Proof.Tests
end

section
/-!
The time base as registers show it and the two voltage timers of R31 (family 02, R31 and R37).
-/
namespace Sys2Proof.Machine

/-- The GAUGE block starts at 0x10000 (Table 19.1). -/
theorem Chip.regAt_gauge (c : Chip) {off : Nat} (h : off < 0x8000) : c.regAt (0x10000 + off) = c.gaugeReg off := by
  unfold Chip.regAt
  repeat rw [if_neg (by omega)]
  rw [if_pos (by omega), Nat.add_sub_cancel_left]

theorem Chip.gaugeReg_timeLo (c : Chip) : c.gaugeReg 0x30 = some (low32 c.gauge.time) := rfl

theorem Chip.gaugeReg_timeHi (c : Chip) : c.gaugeReg 0x34 = some c.gauge.timeHi := rfl

/-- A time still to come, or now, is where the time base arrives (log 2). -/
theorem Gauge.advance_of_le {g : Gauge} {t : Nat} (hle : g.time ≤ t) (hlt : t < 2 ^ 64) : g.advance t = { g with time := t } := by
  have hmod : max g.time t % 18446744073709551616 = t := by omega
  rw [Gauge.advance, hmod]

theorem Gauge.fastExpire_of_due {g : Gauge} {d : Nat} (hd : g.fastHold = some d) (hle : g.time ≤ d) (hlt : d < 2 ^ 64) :
    g.fastExpire = { g with time := d, fastHold := none } := by
  rw [Gauge.fastExpire, hd, Option.getD_some, Gauge.advance_of_le hle hlt]

theorem Gauge.settle_of_due {g : Gauge} {d : Nat} (hd : g.settleAt = some d) (hle : g.time ≤ d) (hlt : d < 2 ^ 64) :
    g.settle = { g with time := d, settled2 := g.vcore2, settleAt := none } := by
  rw [Gauge.settle, hd, Option.getD_some, Gauge.advance_of_le hle hlt]

/-- Settles O8: the two registers by their place in the GAUGE block; each timer ends at its own time, which is not past. -/
theorem gaugeTimersAndLatch : Obligations.GaugeTimersAndLatch := by
  unfold Obligations.GaugeTimersAndLatch
  refine ⟨fun c => ⟨?lo, ?hi⟩, fun s => ?latch, fun s d hd hle hlt => ?fastHold, fun s d hd hle hlt => ?settled⟩
  case lo => exact (c.regAt_gauge (off := 0x30) (by decide)).trans c.gaugeReg_timeLo
  case hi => exact (c.regAt_gauge (off := 0x34) (by decide)).trans c.gaugeReg_timeHi
  case latch => exact exec_gaugeTimeLoRead
  case fastHold => rw [exec_fastHoldExpire, execFastHoldExpire, Gauge.fastExpire_of_due hd hle hlt]
  case settled => rw [exec_vcoreSettled, execVcoreSettled, Gauge.settle_of_due hd hle hlt]

end Sys2Proof.Machine
end

section
/-!
Event sources: what an edge (R312) and an acknowledgement (R313 to R316) do to a source's record (family 15).
-/
namespace Sys2Proof.Machine

/-! ### Source records -/

/-- A source's record changed. -/
def Evc.updSrc (e : Evc) (k : Nat) (f : Src → Src) : Evc := { e with srcs := Tbl.upd {} e.srcs k f }

@[simp] theorem Evc.src_updSrc_same (e : Evc) (k : Nat) (f : Src → Src) : (e.updSrc k f).src k = f (e.src k) :=
  Tbl.get_upd_same _ _ _ _

theorem Evc.src_updSrc_other (e : Evc) {k j : Nat} (f : Src → Src) (h : j ≠ k) : (e.updSrc k f).src j = e.src j :=
  Tbl.get_upd_other _ _ _ h

/-- Delivery touches no source's record. -/
@[simp] theorem Evc.src_deliver (e : Evc) (p : Pcie) (now s j : Nat) : (e.deliver p now s).src j = e.src j := by
  rw [Evc.src, Evc.deliver_srcs, Evc.src]

/-! ### Delivery (R316, R318) -/

theorem Evc.deliver_of_vector {e : Evc} {s fn v : Nat} (h : e.route s = (1, fn, v)) (p : Pcie) (now : Nat) :
    e.deliver p now s = e.request p now fn v := by
  simp only [Evc.deliver, h]

theorem Evc.deliver_of_holder {e : Evc} {s fn v : Nat} (h : e.route s = (2, fn, v)) (p : Pcie) (now : Nat) :
    e.deliver p now s = { e with holder := (v % 4, s) :: e.holder } := by
  simp only [Evc.deliver, h]

@[simp] theorem Evc.vec_updVec_same (e : Evc) (fn v : Nat) (f : Vec → Vec) : (e.updVec fn v f).vec fn v = f (e.vec fn v) :=
  Tbl.get_upd_same _ _ _ _

/-- A requested message waits in REQ or has left. -/
theorem Evc.request_waits_or_sent (e : Evc) (p : Pcie) (now fn v : Nat) :
    ((e.request p now fn v).vec fn v).req = true ∨ (e.request p now fn v).msgs = (fn, v) :: e.msgs := by
  unfold Evc.request Evc.trySend
  split
  next => exact .inr rfl
  next => exact .inl (by rw [Evc.vec_updVec_same])

/-! ### Edges (R310, R312) -/

theorem Src.edge_of_pending {x : Src} (h : x.pending = true) :
    x.edge = { x with count := min 255 (x.count + 1), sat := x.sat || x.count == 255 } := by
  simp [Src.edge, h]

theorem Src.edge_of_clear {x : Src} (h : x.pending = false) : x.edge = { x with pending := true, count := 0 } := by
  simp [Src.edge, h]

theorem Evc.edge_of_reserved {k : Nat} (h : reservedSource k = true) (p : Pcie) (now : Nat) (e : Evc) : e.edge p now k = e :=
  if_pos h

theorem Evc.edge_of_pending {k : Nat} {e : Evc} (hk : reservedSource k = false) (h : (e.src k).pending = true) (p : Pcie) (now : Nat) :
    e.edge p now k = e.updSrc k Src.edge := by
  simp [Evc.edge, hk, h, Evc.updSrc]

theorem Evc.edge_of_clear {k : Nat} {e : Evc} (hk : reservedSource k = false) (h : (e.src k).pending = false) (p : Pcie) (now : Nat) :
    e.edge p now k = (e.updSrc k Src.edge).deliver p now k := by
  simp [Evc.edge, hk, h, Evc.updSrc]

/-- Whether or not the edge also requests delivery, the source's record takes it. -/
theorem Evc.src_edge_same {k : Nat} (hk : reservedSource k = false) (p : Pcie) (now : Nat) (e : Evc) :
    (e.edge p now k).src k = (e.src k).edge := by
  cases h : (e.src k).pending with
  | true => rw [Evc.edge_of_pending hk h, Evc.src_updSrc_same]
  | false => rw [Evc.edge_of_clear hk h, Evc.src_deliver, Evc.src_updSrc_same]

theorem Evc.src_edge_other {k j : Nat} (hj : j ≠ k) (p : Pcie) (now : Nat) (e : Evc) : (e.edge p now k).src j = e.src j := by
  cases hk : reservedSource k with
  | true => rw [Evc.edge_of_reserved hk]
  | false =>
    cases h : (e.src k).pending with
    | true => rw [Evc.edge_of_pending hk h, Evc.src_updSrc_other _ _ hj]
    | false => rw [Evc.edge_of_clear hk h, Evc.src_deliver, Evc.src_updSrc_other _ _ hj]

/-- Edges one after the other reach the source's record as so many edges on it. -/
theorem Evc.src_foldl_edge {k : Nat} (hk : reservedSource k = false) (p : Pcie) (now n : Nat) (e : Evc) :
    ((List.replicate n k).foldl (fun d j => Evc.edge p now j d) e).src k = Nat.repeat Src.edge n (e.src k) := by
  induction n with
  | zero => rfl
  | succ n ih => rw [List.replicate_succ', List.foldl_append, List.foldl_cons, List.foldl_nil, Evc.src_edge_same hk, ih, Nat.repeat]

/-- The edge that sets PENDING is not counted; the 256th after it, which finds COUNT at 255, sets SAT. -/
theorem Src.repeat_edge_of_clear {x : Src} (hp : x.pending = false) (hs : x.sat = false) (m : Nat) :
    Nat.repeat Src.edge (m + 1) x = { x with pending := true, count := min 255 m, sat := decide (256 < m + 1) } := by
  induction m with
  | zero => rw [Nat.repeat, Nat.repeat, Src.edge_of_clear hp, hs]; rfl
  | succ m ih =>
    have hsat : (decide (256 < m + 1) || min 255 m == 255) = decide (256 < m + 1 + 1) := by
      rw [Bool.eq_iff_iff, Bool.or_eq_true, beq_iff_eq, decide_eq_true_iff, decide_eq_true_iff]
      omega
    have hcount : min 255 (min 255 m + 1) = min 255 (m + 1) := by omega
    rw [Nat.repeat, ih, Src.edge_of_pending rfl]
    simp only [hsat, hcount]

/-- Settles O12: each edge by its equation, and n of them by induction on the edges after the first. -/
theorem edgesCount : Obligations.EdgesCount := by
  unfold Obligations.EdgesCount
  refine fun e p now k => ⟨fun hk => Evc.edge_of_reserved hk p now e, ?pending, ?clear, fun j hj => Evc.src_edge_other hj p now e, ?edges⟩
  case pending =>
    intro hk hp
    rw [Evc.edge_of_pending hk hp, Evc.src_updSrc_same, Src.edge_of_pending hp]
    exact ⟨rfl, rfl, rfl⟩
  case clear =>
    intro hk hp
    rw [Evc.src_edge_same hk, Src.edge_of_clear hp]
    exact ⟨rfl, rfl⟩
  case edges =>
    intro n hn hk hp hs
    obtain ⟨m, rfl⟩ := Nat.exists_eq_add_of_le' hn
    rw [Evc.src_foldl_edge hk, Src.repeat_edge_of_clear hp hs]
    exact ⟨rfl, rfl, rfl⟩

/-! ### Acknowledgements (R313) -/

/-- A source's record after an acknowledgement that saw fewer edges than were counted. -/
def Src.countDown (seen : Nat) (x : Src) : Src := { x with count := x.count - seen - 1 }

theorem Evc.route_countDown (e : Evc) (k seen : Nat) : (e.updSrc k (Src.countDown seen)).route k = e.route k := by
  unfold Evc.route
  rw [Evc.src_updSrc_same]
  rfl

theorem Evc.ackOf_ignored {e : Evc} {k : Nat} (h : k < 273 ∨ (e.src k).pending = false) (seen : Nat) : e.ackOf k seen = .ignored := by
  obtain hk | hp := h
  · simp [Evc.ackOf, implicitAck, hk]
  · simp [Evc.ackOf, ackCase, hp]

/-- From 273 on a pending source is acknowledged by SEEN against COUNT. -/
theorem Evc.ackOf_pending {e : Evc} {k : Nat} (hk : 273 ≤ k) (hp : (e.src k).pending = true) (seen : Nat) :
    e.ackOf k seen = if (e.src k).count < seen then .logged else if seen = (e.src k).count then .cleared else .left := by
  simp [Evc.ackOf, implicitAck, ackCase, hp, Nat.not_lt.2 hk]

theorem Chip.eventAck_of_ignored {c : Chip} {k seen : Nat} (h : c.evc.ackOf k seen = .ignored) : c.eventAck k seen = c := by
  simp only [Chip.eventAck, Evc.ack, h]

theorem Chip.eventAck_of_logged {c : Chip} {k seen : Nat} (h : c.evc.ackOf k seen = .logged) :
    c.eventAck k seen = c.incident .ackIgnored 278 none 0 0 (0x22000 + 4 * k) := by
  simp only [Chip.eventAck, h, Chip.regIncident, srcRegAccess]

theorem Chip.eventAck_of_cleared {c : Chip} {k seen : Nat} (h : c.evc.ackOf k seen = .cleared) :
    c.eventAck k seen = { c with evc := c.evc.updSrc k Src.clear, log := c.log.restore k } := by
  simp only [Chip.eventAck, Evc.ack, h, Evc.updSrc]

theorem Chip.eventAck_of_left {c : Chip} {k seen : Nat} (h : c.evc.ackOf k seen = .left) :
    c.eventAck k seen = { c with evc := (c.evc.updSrc k (Src.countDown seen)).deliver c.pcie c.now k } := by
  simp only [Chip.eventAck, Evc.ack, h]
  rfl

/-- The budget of a source after R322 restores it. -/
theorem Log.budget_restore (l : Log) (k : Nat) : ((l.restore k).src k).budget = 32 := by
  rw [Log.src, Log.restore, Tbl.get_upd_same]

/-- Operands in range are taken as they are. -/
theorem exec_eventAck_of_lt {k seen : Nat} (hk : k < 1024) (hseen : seen < 256) (s : State) :
    exec (.eventAck k seen) s = .next { s with chip := s.chip.eventAck k seen } := by
  rw [exec_eventAck, execEventAck, Nat.mod_eq_of_lt hk, Nat.mod_eq_of_lt hseen]

/-- An edge after the acknowledgement that cleared a source makes it pending again. -/
theorem Src.edge_clear (x : Src) : x.clear.edge.pending = true ∧ x.clear.edge.count = 0 := by
  rw [Src.edge_of_clear (x := x.clear) rfl]
  exact ⟨rfl, rfl⟩

/-- An edge after an acknowledgement that left some makes the source's count one more. -/
theorem Src.edge_countDown {x : Src} {seen : Nat} (hp : x.pending = true) (hlt : seen < x.count) :
    (x.countDown seen).edge.pending = true ∧ (x.countDown seen).edge.count = min 255 (x.count - seen) := by
  have hcount : x.count - seen - 1 + 1 = x.count - seen := by omega
  rw [Src.edge_of_pending (x := x.countDown seen) hp, ← hcount]
  exact ⟨hp, rfl⟩

/-- Settles O13: the case of R313 is found from SEEN and COUNT, and each case changes the chip by its equation. -/
theorem eventAckCases : Obligations.EventAckCases := by
  unfold Obligations.EventAckCases
  intro s k seen hk hseen
  rw [exec_eventAck_of_lt hk hseen]
  refine ⟨fun h => ?ignored, fun h273 hp hlt => ?logged, fun h273 hp heq => ?cleared, fun h273 hp hlt => ?left⟩
  case ignored => rw [Chip.eventAck_of_ignored (Evc.ackOf_ignored h seen)]
  case logged =>
    have hcase : s.chip.evc.ackOf k seen = .logged := by rw [Evc.ackOf_pending h273 hp, if_pos hlt]
    rw [Chip.eventAck_of_logged hcase]
  case cleared =>
    have hcase : s.chip.evc.ackOf k seen = .cleared := by
      rw [Evc.ackOf_pending h273 hp, if_neg (Nat.not_lt.2 (Nat.le_of_eq heq)), if_pos heq]
    rw [Chip.eventAck_of_cleared hcase]
    refine ⟨_, rfl, rfl, Evc.src_updSrc_same _ _ _, fun j hj => Evc.src_updSrc_other _ _ hj, rfl, rfl, Log.budget_restore _ _, fun hres => ?_⟩
    rw [Evc.src_edge_same hres, Evc.src_updSrc_same]
    exact Src.edge_clear _
  case left =>
    have hcase : s.chip.evc.ackOf k seen = .left := by
      rw [Evc.ackOf_pending h273 hp, if_neg (Nat.not_lt.2 (Nat.le_of_lt hlt)), if_neg (Nat.ne_of_lt hlt)]
    rw [Chip.eventAck_of_left hcase]
    refine ⟨_, rfl, rfl, ?record, fun j hj => ?others, fun fn v hroute => ?vector, fun fn v hroute => ?holder, fun hres => ?edge⟩
    case record => exact (Evc.src_deliver _ _ _ _ _).trans (Evc.src_updSrc_same _ _ _)
    case others => exact (Evc.src_deliver _ _ _ _ _).trans (Evc.src_updSrc_other _ _ hj)
    case vector =>
      rw [Evc.deliver_of_vector ((Evc.route_countDown _ _ _).trans hroute)]
      exact Evc.request_waits_or_sent _ _ _ _ _
    case holder => rw [Evc.deliver_of_holder ((Evc.route_countDown _ _ _).trans hroute)]; rfl
    case edge =>
      rw [Evc.src_edge_same hres, Evc.src_deliver, Evc.src_updSrc_same]
      exact Src.edge_countDown hp hlt

end Sys2Proof.Machine
end

section
/-!
What every step keeps: the canonical form of the addressed memories (log 6), and that no reserved source is pending (family 15, R310).
One case per command, each from the law of the operation that its meaning runs.
-/
namespace Sys2Proof.Machine
/-- A fact of the state that a command's meaning answers holds of the state it ends in. -/
theorem of_exec {P : State → Prop} {c : Instr} {s t u : State} (hu : exec c s = .next u) (h : exec c s = .next t) (hP : P u) : P t := by
  rw [h] at hu
  cases hu
  exact hP

theorem frameBoundary_wf (p : Port) (c : Chip × Mem) (h : Mem.wf c.2 = true) : Mem.wf (frameBoundary p c).2 = true := by
  unfold frameBoundary
  dsimp only
  split
  next => exact h
  next =>
    split
    next => exact h
    next =>
      split
      next => exact h
      next => exact progress_wf _ _ h

/-- A command of which only the chip's part is new keeps the form. -/
theorem inv_of_chip {c : Instr} {s t : State} {d : Chip} (hu : exec c s = .next { s with chip := d }) (h : exec c s = .next t)
    (hs : Safety.Inv s) : Safety.Inv t :=
  of_exec hu h hs

theorem inv_of_pair {c : Instr} {s t : State} {d : Chip × Mem} (hu : exec c s = .next { s with chip := d.1, mem := d.2 }) (h : exec c s = .next t)
    (hd : Mem.wf d.2 = true) : Safety.Inv t :=
  of_exec hu h hd

/-- Every command keeps the canonical form of the addressed memories. -/
theorem exec_keeps_inv {c : Instr} {s t : State} (hs : Safety.Inv s) (h : exec c s = .next t) : Safety.Inv t := by
  cases c with
  | registerWrite => exact inv_of_pair exec_registerWrite h (registerWrite_wf _ _ _ _ _ hs)
  | rowBoundary => exact inv_of_pair exec_rowBoundary h (rowBoundary_wf _ _ hs)
  | gaugeWindowEnd => exact inv_of_chip exec_gaugeWindowEnd h hs
  | fastHoldExpire => exact inv_of_chip exec_fastHoldExpire h hs
  | vcoreSettled => exact inv_of_chip exec_vcoreSettled h hs
  | provisionalRowBoundary => exact inv_of_chip exec_provisionalRowBoundary h hs
  | marginTimeout => exact inv_of_chip exec_marginTimeout h hs
  | gaugeTimeLoRead => exact inv_of_chip exec_gaugeTimeLoRead h hs
  | crystalFail => exact inv_of_chip exec_crystalFail h hs
  | castOn => exact inv_of_chip exec_castOn h hs
  | bindOff => exact inv_of_pair exec_bindOff h (requestM_wf _ _ _ _ (fun _ _ => bindOff_wf _ _ _) hs)
  | bindOffDrainEnd => exact inv_of_pair exec_bindOffDrainEnd h (drainEnd_wf _ _ hs)
  | garmentCastOn => exact inv_of_chip exec_garmentCastOn h hs
  | reserve => exact inv_of_pair exec_reserve h (control_wf _ _ _ _ _ (fun _ => controlIn_wf _ _) hs)
  | answer => exact inv_of_pair exec_answer h (control_wf _ _ _ _ _ (fun _ => controlIn_wf _ _) hs)
  | commit => exact inv_of_pair exec_commit h (control_wf _ _ _ _ _ (fun _ => controlIn_wf _ _) hs)
  | release => exact inv_of_pair exec_release h (control_wf _ _ _ _ _ (fun _ => controlIn_wf _ _) hs)
  | garmentAnswerTimeout => exact inv_of_chip exec_garmentAnswerTimeout h hs
  | garmentHoldExpire => exact inv_of_chip exec_garmentHoldExpire h hs
  | garmentBindOff => exact inv_of_pair exec_garmentBindOff h (control_wf _ _ _ _ _ (fun _ => controlIn_wf _ _) hs)
  | matmul => exact inv_of_chip exec_matmul h hs
  | conv => exact inv_of_chip exec_conv h hs
  | dwconv => exact inv_of_chip exec_dwconv h hs
  | pool => exact inv_of_chip exec_pool h hs
  | eltwise => exact inv_of_chip exec_eltwise h hs
  | norm => exact inv_of_chip exec_norm h hs
  | softmax => exact inv_of_chip exec_softmax h hs
  | gather => exact inv_of_chip exec_gather h hs
  | scatter => exact inv_of_chip exec_scatter h hs
  | argmax => exact inv_of_chip exec_argmax h hs
  | s2d => exact inv_of_chip exec_s2d h hs
  | marub => exact inv_of_chip exec_marub h hs
  | sync => exact inv_of_chip exec_sync h hs
  | operationComplete => exact inv_of_pair exec_operationComplete h (operationComplete_wf _ _ _ _ _ _ _ _ hs)
  | weightSwapComplete => exact of_exec exec_weightSwapComplete h (by
    unfold Safety.Inv
    dsimp only
    split
    next => exact hs
    next => exact Mem.writes_wf _ _ hs)
  | dmaTransferComplete => exact of_exec exec_dmaTransferComplete h (by
    unfold Safety.Inv
    dsimp only
    split
    next => exact hs
    next =>
      split
      next => exact Mem.writes_wf _ _ hs
      next => exact hs)
  | chunkAdmit => exact inv_of_chip exec_chunkAdmit h hs
  | chartFillComplete => exact of_exec exec_chartFillComplete h (by
    unfold Safety.Inv
    dsimp only
    split
    next => exact Mem.writes_wf _ _ hs
    next => exact hs)
  | chartFillTimeout => exact inv_of_chip exec_chartFillTimeout h hs
  | residentSegmentLoaded => exact inv_of_chip exec_residentSegmentLoaded h hs
  | decodeSegmentEnd => exact inv_of_chip exec_decodeSegmentEnd h hs
  | decodeComplete => exact inv_of_pair exec_decodeComplete h (decodeComplete_wf _ _ _ hs)
  | fieldReleaseTimeout => exact inv_of_pair exec_fieldReleaseTimeout h (progress_wf _ _ hs)
  | skipRecordCommit => exact of_exec exec_skipRecordCommit h (by
    split
    next => exact hs
    next =>
      split
      next => exact hs
      next hd => exact commitSkip_wf _ (s.chip, s.mem) hs _ hd)
  | laneStart => exact inv_of_chip exec_laneStart h hs
  | encodeSegmentEnd => exact inv_of_chip exec_encodeSegmentEnd h hs
  | encodeComplete => exact inv_of_pair exec_encodeComplete h (encodeEnd_wf _ _ _ hs)
  | waitTimeout => exact inv_of_pair exec_waitTimeout h (waitTimeout_wf _ _ _ _ hs)
  | sampleDropped => exact inv_of_chip exec_sampleDropped h hs
  | hankAlloc => exact inv_of_chip exec_hankAlloc h hs
  | hankAllocGrant => exact inv_of_chip exec_hankAllocGrant h hs
  | hankShare => exact inv_of_chip exec_hankShare h hs
  | hankPass => exact inv_of_chip exec_hankPass h hs
  | hankFree => exact inv_of_chip exec_hankFree h hs
  | hankScrubDone => exact of_exec exec_hankScrubDone h (by
    unfold Safety.Inv
    dsimp only
    split
    next => exact Mem.clear_wf _ _ hs
    next => exact hs)
  | hbmParityError => exact inv_of_pair exec_hbmParityError h (parityError_wf _ _ hs)
  | rowIdleClose => exact inv_of_chip exec_rowIdleClose h hs
  | patrolScrub => exact inv_of_chip exec_patrolScrub h hs
  | data => exact inv_of_pair exec_data h (typed_wf _ _ _ _ _ (fun _ => dataIn_wf _ _) hs)
  | fetch => exact inv_of_pair exec_fetch h (typed_wf _ _ _ _ _ (fun _ => fetchIn_wf _ _) hs)
  | idle => exact inv_of_chip exec_idle h hs
  | nak => exact inv_of_chip exec_nak h hs
  | hello => exact inv_of_chip exec_hello h hs
  | discover => exact inv_of_pair exec_discover h (typed_wf _ _ _ _ _ (fun _ hd => hd) hs)
  | markerSignal => exact inv_of_pair exec_markerSignal h (control_wf _ _ _ _ _ (fun _ => controlIn_wf _ _) hs)
  | garmentAbort => exact inv_of_pair exec_garmentAbort h (control_wf _ _ _ _ _ (fun _ => controlIn_wf _ _) hs)
  | xferAck => exact inv_of_pair exec_xferAck h (control_wf _ _ _ _ _ (fun _ => xferAckIn_wf _ _) hs)
  | msgAck => exact inv_of_pair exec_msgAck h (control_wf _ _ _ _ _ (fun _ hd => hd) hs)
  | alarm => exact inv_of_pair exec_alarm h (control_wf _ _ _ _ _ (fun _ => controlIn_wf _ _) hs)
  | alarmSummary => exact inv_of_pair exec_alarmSummary h (control_wf _ _ _ _ _ (fun _ => controlIn_wf _ _) hs)
  | ringChange => exact inv_of_pair exec_ringChange h (control_wf _ _ _ _ _ (fun _ => controlIn_wf _ _) hs)
  | idleSend => exact inv_of_chip exec_idleSend h hs
  | frameBoundary => exact inv_of_pair exec_frameBoundary h (frameBoundary_wf _ _ hs)
  | linkFault => exact inv_of_chip exec_linkFault h hs
  | xferAckTimeout => exact inv_of_pair exec_xferAckTimeout h (xferTimeout_wf _ _ hs)
  | msgAckTimeout => exact inv_of_pair exec_msgAckTimeout h (msgTimeout_wf _ _ _ hs)
  | controlGap => exact inv_of_pair exec_controlGap h (controlGap_wf _ _ hs)
  | discoveryRun => exact inv_of_pair exec_discoveryRun h (settleRoutes_wf _ hs)
  | lossOfLock => exact inv_of_chip exec_lossOfLock h hs
  | wrap => exact inv_of_chip exec_wrap h hs
  | plannedSlip => exact inv_of_chip exec_plannedSlip h hs
  | perstRelease => exact inv_of_pair exec_perstRelease h (perstRelease_wf _ _ hs)
  | perstAssert => exact inv_of_pair exec_perstAssert h (perstAssert_wf _ hs)
  | bar2Access => exact inv_of_pair exec_bar2Access h (bar2_wf _ _ _ _ _ hs)
  | queueEnable => exact inv_of_chip exec_queueEnable h hs
  | queueDisable => exact inv_of_chip exec_queueDisable h hs
  | resume => exact inv_of_chip exec_resume h hs
  | sqTailWrite => exact inv_of_chip exec_sqTailWrite h hs
  | cqHeadWrite => exact inv_of_pair exec_cqHeadWrite h (cqHead_wf _ _ _ _ hs)
  | nop => exact inv_of_pair exec_nop h (nop_wf _ _ _ _ hs)
  | frame => exact inv_of_pair exec_frame h (frame_wf _ _ _ _ _ _ hs)
  | sample => exact inv_of_pair exec_sample h (sample_wf _ _ _ _ _ _ hs)
  | alloc => exact inv_of_pair exec_alloc h (alloc_wf _ _ _ _ hs)
  | free => exact inv_of_pair exec_free h (free_wf _ _ _ _ _ hs)
  | copyOut => exact inv_of_pair exec_copyOut h (copyOut_wf _ _ _ _ _ hs)
  | signal => exact inv_of_pair exec_signal h (signal_wf _ _ _ _ hs)
  | wait => exact inv_of_pair exec_wait h (wait_wf _ _ _ _ hs)
  | hostWaitTimeout => exact inv_of_chip exec_hostWaitTimeout h hs
  | completionTlp => exact inv_of_chip exec_completionTlp h hs
  | completionTimeout => exact inv_of_chip exec_completionTimeout h hs
  | tagRelease => exact inv_of_chip exec_tagRelease h hs
  | busMasterDisable => exact inv_of_chip exec_busMasterDisable h hs
  | busMasterEnable => exact inv_of_pair exec_busMasterEnable h (busMasterOn_wf _ _ hs)
  | functionLevelReset => exact inv_of_pair exec_functionLevelReset h (functionReset_wf _ _ hs)
  | hotReset => exact inv_of_pair exec_hotReset h (hotReset_wf _ hs)
  | vfEnableClear => exact inv_of_pair exec_vfEnableClear h (vfClear_wf _ hs)
  | numvfsLower => exact inv_of_pair exec_numvfsLower h (vfLower_wf _ _ hs)
  | l1Entry => exact inv_of_chip exec_l1Entry h hs
  | d3hotEntry => exact inv_of_pair exec_d3hotEntry h (d3hot_wf _ _ hs)
  | d0Return => exact inv_of_pair exec_d0Return h (d0Return_wf _ _ hs)
  | pmeTurnOff => exact inv_of_pair exec_pmeTurnOff h (pmeTurnOff_wf _ hs)
  | doeDiscovery => exact inv_of_chip exec_doeDiscovery h hs
  | getVersion => exact inv_of_chip exec_getVersion h hs
  | getCapabilities => exact inv_of_chip exec_getCapabilities h hs
  | negotiateAlgorithms => exact inv_of_chip exec_negotiateAlgorithms h hs
  | getDigests => exact inv_of_chip exec_getDigests h hs
  | getCertificate => exact inv_of_chip exec_getCertificate h hs
  | challenge => exact inv_of_chip exec_challenge h hs
  | getMeasurements => exact inv_of_chip exec_getMeasurements h hs
  | slotWrite => exact inv_of_chip exec_slotWrite h hs
  | eventAck => exact inv_of_chip exec_eventAck h hs
  | idleHint => exact inv_of_chip exec_idleHint h hs
  | evcDisable => exact inv_of_chip exec_evcDisable h hs
  | moderationTimerExpire => exact inv_of_chip exec_moderationTimerExpire h hs
  | vectorUnmask => exact inv_of_chip exec_vectorUnmask h hs
  | alarmAck => exact inv_of_chip exec_alarmAck h hs
  | logCopy => exact inv_of_chip exec_logCopy h hs
  | logPersist => exact inv_of_chip exec_logPersist h hs
  | powerSample => exact inv_of_pair exec_powerSample h (powerSample_wf _ _ _ hs)
  | thermalReading => exact inv_of_pair exec_thermalReading h (thermalReading_wf _ _ hs)
  | hushEntry => exact inv_of_chip exec_hushEntry h hs
  | dozeEntry => exact inv_of_chip exec_dozeEntry h hs
  | wake => exact inv_of_chip exec_wake h hs
  | trip => exact inv_of_pair exec_trip h (trip_wf _ _ _ hs)
  | tinkReplayEnd => exact inv_of_pair exec_tinkReplayEnd h (tinkReplayEnd_wf _ _ hs)
  | recoveryOverrun => exact inv_of_pair exec_recoveryOverrun h (overrun_wf _ _ hs)
  | heartbeatTimeout => exact inv_of_pair exec_heartbeatTimeout h (warmReset_wf _ _ _ hs)
  | frog => exact inv_of_pair exec_frog h (frogRequest_wf _ _ hs)
  | panelReset => exact inv_of_pair exec_panelReset h (panelRequest_wf _ _ hs)
  | warmChipReset => exact inv_of_pair exec_warmChipReset h (warmRequest_wf _ hs)
  | maintenanceStart => exact inv_of_pair exec_maintenanceStart h (maintRequest_wf _ hs)
  | powerCycle => exact inv_of_pair exec_powerCycle h (cycleRequest_wf _ hs)
  | modRstAssert => exact inv_of_pair exec_modRstAssert h (modRstAssert_wf _ hs)
  | modRstRelease => exact inv_of_pair exec_modRstRelease h (modRstRelease_wf _ _ hs)
  | powerEnableRise => exact inv_of_chip exec_powerEnableRise h hs
  | powerEnableFall => exact inv_of_pair exec_powerEnableFall h (powerFall_wf _ hs)
  | inputUndervoltage => exact inv_of_pair exec_inputUndervoltage h (undervoltage_wf _ hs)
  | auxUp => exact inv_of_chip exec_auxUp h hs
  | auxLoss => exact of_exec exec_auxLoss h (by exact nil_wf)
  | strapsUnstable => exact inv_of_chip exec_strapsUnstable h hs
  | alertResponse => exact inv_of_chip exec_alertResponse h hs
  | setEndpointId => exact inv_of_chip exec_setEndpointId h hs
  | getEndpointId => exact inv_of_chip exec_getEndpointId h hs
  | getMctpVersionSupport => exact inv_of_chip exec_getMctpVersionSupport h hs
  | getMessageTypeSupport => exact inv_of_chip exec_getMessageTypeSupport h hs
  | getVendorDefinedMessageSupport => exact inv_of_chip exec_getVendorDefinedMessageSupport h hs
  | getStatus => exact inv_of_chip exec_getStatus h hs
  | readReg => exact inv_of_chip exec_readReg h hs
  | readLog => exact inv_of_chip exec_readLog h hs
  | ackAlarm => exact inv_of_chip exec_ackAlarm h hs
  | requestReset => exact inv_of_pair exec_requestReset h (smbReset_wf _ _ hs)
  | laneLocked => exact inv_of_chip exec_laneLocked h hs
  | pcieLinkUp => exact inv_of_chip exec_pcieLinkUp h hs
  | vfEnableSet => exact inv_of_chip exec_vfEnableSet h hs
  | inputVoltageRestored => exact inv_of_chip exec_inputVoltageRestored h hs
  | hbmStackTemperature => exact inv_of_chip exec_hbmStackTemperature h hs
  | slotWriteEnd => exact inv_of_chip exec_slotWriteEnd h hs

/-- The recovery image of a state is a given one, and none of its reserved sources is pending. -/
def State.Lasts (r : Slot) (s : State) : Prop := Lasting r s.chip.pat.recovery s.chip.evc

theorem lasts_of_chip {c : Instr} {s t : State} {r : Slot} {d : Chip} (hu : exec c s = .next { s with chip := d }) (h : exec c s = .next t)
    (hd : Lasting r d.pat.recovery d.evc) : t.Lasts r :=
  of_exec hu h hd

theorem lasts_of_pair {c : Instr} {s t : State} {r : Slot} {d : Chip × Mem} (hu : exec c s = .next { s with chip := d.1, mem := d.2 })
    (h : exec c s = .next t) (hd : Lasting r d.1.pat.recovery d.1.evc) : t.Lasts r :=
  of_exec hu h hd

/-- Every command keeps the recovery image and leaves the reserved sources unpending. -/
theorem exec_keeps_lasts {c : Instr} {s t : State} {r : Slot} (hs : s.Lasts r) (h : exec c s = .next t) : t.Lasts r := by
  cases c with
  | registerWrite => exact lasts_of_pair exec_registerWrite h (registerWrite_last _ _ _ _ _ hs)
  | rowBoundary => exact lasts_of_pair exec_rowBoundary h (rowBoundary_last _ _ hs)
  | gaugeWindowEnd => exact lasts_of_chip exec_gaugeWindowEnd h (Chip.gaugeWindowEnd_last _ _ hs)
  | fastHoldExpire => exact lasts_of_chip exec_fastHoldExpire h hs
  | vcoreSettled => exact lasts_of_chip exec_vcoreSettled h hs
  | provisionalRowBoundary => exact lasts_of_chip exec_provisionalRowBoundary h hs
  | marginTimeout => exact lasts_of_chip exec_marginTimeout h (Chip.marginTimeout_last _ hs)
  | gaugeTimeLoRead => exact lasts_of_chip exec_gaugeTimeLoRead h hs
  | crystalFail => exact lasts_of_chip exec_crystalFail h (Chip.crystalFail_last _ hs)
  | castOn => exact lasts_of_chip exec_castOn h (Chip.request_last _ _ _ _ (fun _ _ => Chip.castOn_last _ _ _) hs)
  | bindOff => exact lasts_of_pair exec_bindOff h (requestM_last _ _ _ _ (fun _ _ => bindOff_last _ _ _) hs)
  | bindOffDrainEnd => exact lasts_of_pair exec_bindOffDrainEnd h (drainEnd_last _ _ hs)
  | garmentCastOn => exact lasts_of_chip exec_garmentCastOn h (Chip.request_last _ _ _ _ (fun _ _ => Chip.garmentCastOn_last _ _ _ _) hs)
  | reserve => exact lasts_of_pair exec_reserve h (control_last _ _ _ _ _ (fun _ => controlIn_last _ _) hs)
  | answer => exact lasts_of_pair exec_answer h (control_last _ _ _ _ _ (fun _ => controlIn_last _ _) hs)
  | commit => exact lasts_of_pair exec_commit h (control_last _ _ _ _ _ (fun _ => controlIn_last _ _) hs)
  | release => exact lasts_of_pair exec_release h (control_last _ _ _ _ _ (fun _ => controlIn_last _ _) hs)
  | garmentAnswerTimeout => exact lasts_of_chip exec_garmentAnswerTimeout h (Chip.answerTimeout_last _ _ hs)
  | garmentHoldExpire => exact lasts_of_chip exec_garmentHoldExpire h (Chip.holdExpire_last _ _ hs)
  | garmentBindOff => exact lasts_of_pair exec_garmentBindOff h (control_last _ _ _ _ _ (fun _ => controlIn_last _ _) hs)
  | matmul => exact lasts_of_chip exec_matmul h (Chip.takeTod_last _ _ _ _ _ _ hs)
  | conv => exact lasts_of_chip exec_conv h (Chip.takeTod_last _ _ _ _ _ _ hs)
  | dwconv => exact lasts_of_chip exec_dwconv h (Chip.takeTod_last _ _ _ _ _ _ hs)
  | pool => exact lasts_of_chip exec_pool h (Chip.takeTod_last _ _ _ _ _ _ hs)
  | eltwise => exact lasts_of_chip exec_eltwise h (Chip.takeTod_last _ _ _ _ _ _ hs)
  | norm => exact lasts_of_chip exec_norm h (Chip.takeTod_last _ _ _ _ _ _ hs)
  | softmax => exact lasts_of_chip exec_softmax h (Chip.takeTod_last _ _ _ _ _ _ hs)
  | gather => exact lasts_of_chip exec_gather h (Chip.takeTod_last _ _ _ _ _ _ hs)
  | scatter => exact lasts_of_chip exec_scatter h (Chip.takeTod_last _ _ _ _ _ _ hs)
  | argmax => exact lasts_of_chip exec_argmax h (Chip.takeTod_last _ _ _ _ _ _ hs)
  | s2d => exact lasts_of_chip exec_s2d h (Chip.takeTod_last _ _ _ _ _ _ hs)
  | marub => exact lasts_of_chip exec_marub h (Chip.takeTod_last _ _ _ _ _ _ hs)
  | sync => exact lasts_of_chip exec_sync h (Chip.takeTod_last _ _ _ _ _ _ hs)
  | operationComplete => exact lasts_of_pair exec_operationComplete h (operationComplete_last _ _ _ _ _ _ _ _ hs)
  | weightSwapComplete => exact of_exec exec_weightSwapComplete h (by
    unfold State.Lasts
    dsimp only
    split
    next => exact hs
    next => exact Chip.pump_last _ _ _ (Chip.updNeedle_last _ _ _ hs))
  | dmaTransferComplete => exact of_exec exec_dmaTransferComplete h (Chip.dmaComplete_last _ _ _ _ hs)
  | chunkAdmit => exact lasts_of_chip exec_chunkAdmit h (Chip.admitChunk_last _ _ _ _ hs)
  | chartFillComplete => exact of_exec exec_chartFillComplete h hs
  | chartFillTimeout => exact lasts_of_chip exec_chartFillTimeout h (Chip.fillTimeout_last _ _ hs)
  | residentSegmentLoaded => exact lasts_of_chip exec_residentSegmentLoaded h hs
  | decodeSegmentEnd => exact lasts_of_chip exec_decodeSegmentEnd h (Chip.decSegment_last _ _ hs)
  | decodeComplete => exact lasts_of_pair exec_decodeComplete h (decodeComplete_last _ _ _ hs)
  | fieldReleaseTimeout => exact lasts_of_pair exec_fieldReleaseTimeout h (progress_last _ _ (Chip.fieldTimeout_last _ _ _ hs))
  | skipRecordCommit => exact of_exec exec_skipRecordCommit h (by
    split
    next => exact hs
    next =>
      split
      next => exact hs
      next hd => exact commitSkip_last _ (s.chip, s.mem) hs _ hd)
  | laneStart => exact lasts_of_chip exec_laneStart h (Chip.laneStart_last _ _ hs)
  | encodeSegmentEnd => exact lasts_of_chip exec_encodeSegmentEnd h (Chip.encSegment_last _ _ hs)
  | encodeComplete => exact lasts_of_pair exec_encodeComplete h (encodeEnd_last _ _ _ hs)
  | waitTimeout => exact lasts_of_pair exec_waitTimeout h (waitTimeout_last _ _ _ _ hs)
  | sampleDropped => exact lasts_of_chip exec_sampleDropped h (Chip.startSample_last _ _ _ (Chip.sampleDropped_last _ _ _ hs))
  | hankAlloc => exact lasts_of_chip exec_hankAlloc h (Chip.hankAlloc_last _ _ _ _ hs)
  | hankAllocGrant => exact lasts_of_chip exec_hankAllocGrant h (Chip.hankGrant_last _ hs)
  | hankShare => exact lasts_of_chip exec_hankShare h (Chip.hankShare_last _ _ _ _ _ hs)
  | hankPass => exact lasts_of_chip exec_hankPass h (Chip.hankPass_last _ _ _ _ hs)
  | hankFree => exact lasts_of_chip exec_hankFree h (Chip.hankFree_last _ _ _ hs)
  | hankScrubDone => exact of_exec exec_hankScrubDone h (by
    unfold State.Lasts
    dsimp only
    split
    next => exact Chip.hbmWrote_last _ _ (Chip.scrubDone_last _ _ hs)
    next => exact hs)
  | hbmParityError => exact lasts_of_pair exec_hbmParityError h (parityError_last _ _ hs)
  | rowIdleClose => exact lasts_of_chip exec_rowIdleClose h hs
  | patrolScrub => exact lasts_of_chip exec_patrolScrub h (Chip.patrol_last _ _ _ hs)
  | data => exact lasts_of_pair exec_data h (typed_last _ _ _ _ _ (fun _ => dataIn_last _ _) hs)
  | fetch => exact lasts_of_pair exec_fetch h (typed_last _ _ _ _ _ (fun _ => fetchIn_last _ _) hs)
  | idle => exact lasts_of_chip exec_idle h hs
  | nak => exact lasts_of_chip exec_nak h hs
  | hello => exact lasts_of_chip exec_hello h (Chip.hello_last _ _ _ hs)
  | discover => exact lasts_of_pair exec_discover h (typed_last _ _ _ _ _ (fun _ => Chip.discovered_last _ _ _) hs)
  | markerSignal => exact lasts_of_pair exec_markerSignal h (control_last _ _ _ _ _ (fun _ => controlIn_last _ _) hs)
  | garmentAbort => exact lasts_of_pair exec_garmentAbort h (control_last _ _ _ _ _ (fun _ => controlIn_last _ _) hs)
  | xferAck => exact lasts_of_pair exec_xferAck h (control_last _ _ _ _ _ (fun _ => xferAckIn_last _ _) hs)
  | msgAck => exact lasts_of_pair exec_msgAck h (control_last _ _ _ _ _ (fun _ => Chip.msgAckIn_last _ _) hs)
  | alarm => exact lasts_of_pair exec_alarm h (control_last _ _ _ _ _ (fun _ => controlIn_last _ _) hs)
  | alarmSummary => exact lasts_of_pair exec_alarmSummary h (control_last _ _ _ _ _ (fun _ => controlIn_last _ _) hs)
  | ringChange => exact lasts_of_pair exec_ringChange h (control_last _ _ _ _ _ (fun _ => controlIn_last _ _) hs)
  | idleSend => exact lasts_of_chip exec_idleSend h hs
  | frameBoundary => exact lasts_of_pair exec_frameBoundary h (frameBoundary_last _ _ hs)
  | linkFault => exact lasts_of_chip exec_linkFault h (Chip.linkFault_last _ _ hs)
  | xferAckTimeout => exact lasts_of_pair exec_xferAckTimeout h (xferTimeout_last _ _ hs)
  | msgAckTimeout => exact lasts_of_pair exec_msgAckTimeout h (msgTimeout_last _ _ _ hs)
  | controlGap => exact lasts_of_pair exec_controlGap h (controlGap_last _ _ hs)
  | discoveryRun => exact lasts_of_pair exec_discoveryRun h (settleRoutes_last _ (Chip.runDiscovery_last _ hs))
  | lossOfLock => exact lasts_of_chip exec_lossOfLock h hs
  | wrap => exact of_exec exec_wrap h (by
    unfold State.Lasts
    dsimp only
    split
    next => exact hs
    next => exact Chip.wrap_last _ _ hs)
  | plannedSlip => exact of_exec exec_plannedSlip h (by
    unfold State.Lasts
    dsimp only
    split
    next =>
      split
      next => split <;> exact hs
      next => exact hs
    next => exact hs)
  | perstRelease => exact lasts_of_pair exec_perstRelease h (perstRelease_last _ _ hs)
  | perstAssert => exact lasts_of_pair exec_perstAssert h (perstAssert_last _ hs)
  | bar2Access => exact lasts_of_pair exec_bar2Access h (bar2_last _ _ _ _ _ hs)
  | queueEnable => exact lasts_of_chip exec_queueEnable h (Chip.qWrite_last _ _ _ _ _ (fun _ _ => Chip.queueEnable_last _ _ _) hs)
  | queueDisable => exact lasts_of_chip exec_queueDisable h (Chip.qWrite_last _ _ _ _ _ (fun _ _ => Chip.queueDisable_last _ _ _) hs)
  | resume => exact lasts_of_chip exec_resume h (Chip.qWrite_last _ _ _ _ _ (fun _ _ => Chip.queueResume_last _ _) hs)
  | sqTailWrite => exact lasts_of_chip exec_sqTailWrite h (Chip.qWrite_last _ _ _ _ _ (fun _ _ => Chip.sqTail_last _ _ _) hs)
  | cqHeadWrite => exact lasts_of_pair exec_cqHeadWrite h (cqHead_last _ _ _ _ hs)
  | nop => exact lasts_of_pair exec_nop h (nop_last _ _ _ _ hs)
  | frame => exact lasts_of_pair exec_frame h (frame_last _ _ _ _ _ _ hs)
  | sample => exact lasts_of_pair exec_sample h (sample_last _ _ _ _ _ _ hs)
  | alloc => exact lasts_of_pair exec_alloc h (alloc_last _ _ _ _ hs)
  | free => exact lasts_of_pair exec_free h (free_last _ _ _ _ _ hs)
  | copyOut => exact lasts_of_pair exec_copyOut h (copyOut_last _ _ _ _ _ hs)
  | signal => exact lasts_of_pair exec_signal h (signal_last _ _ _ _ hs)
  | wait => exact lasts_of_pair exec_wait h (wait_last _ _ _ _ hs)
  | hostWaitTimeout => exact lasts_of_chip exec_hostWaitTimeout h (Chip.waitExpire_last _ _ _ hs)
  | completionTlp => exact lasts_of_chip exec_completionTlp h (Chip.completion_last _ _ _ hs)
  | completionTimeout => exact lasts_of_chip exec_completionTimeout h (Chip.readTimeout_last _ _ hs)
  | tagRelease => exact lasts_of_chip exec_tagRelease h (Chip.tagRelease_last _ _ hs)
  | busMasterDisable => exact lasts_of_chip exec_busMasterDisable h (Chip.busMasterOff_last _ _ hs)
  | busMasterEnable => exact lasts_of_pair exec_busMasterEnable h (busMasterOn_last _ _ hs)
  | functionLevelReset => exact lasts_of_pair exec_functionLevelReset h (functionReset_last _ _ hs)
  | hotReset => exact lasts_of_pair exec_hotReset h (hotReset_last _ hs)
  | vfEnableClear => exact lasts_of_pair exec_vfEnableClear h (vfClear_last _ hs)
  | numvfsLower => exact lasts_of_pair exec_numvfsLower h (vfLower_last _ _ hs)
  | l1Entry => exact lasts_of_chip exec_l1Entry h (Chip.l1Entry_last _ hs)
  | d3hotEntry => exact lasts_of_pair exec_d3hotEntry h (d3hot_last _ _ hs)
  | d0Return => exact lasts_of_pair exec_d0Return h (d0Return_last _ _ hs)
  | pmeTurnOff => exact lasts_of_pair exec_pmeTurnOff h (pmeTurnOff_last _ hs)
  | doeDiscovery => exact lasts_of_chip exec_doeDiscovery h (Chip.spdmAnswer_last _ _ _ hs)
  | getVersion => exact lasts_of_chip exec_getVersion h (Chip.spdmAnswer_last _ _ _ hs)
  | getCapabilities => exact lasts_of_chip exec_getCapabilities h (Chip.spdmAnswer_last _ _ _ hs)
  | negotiateAlgorithms => exact lasts_of_chip exec_negotiateAlgorithms h (Chip.spdmAnswer_last _ _ _ hs)
  | getDigests => exact lasts_of_chip exec_getDigests h (Chip.spdmAnswer_last _ _ _ hs)
  | getCertificate => exact lasts_of_chip exec_getCertificate h (Chip.spdmAnswer_last _ _ _ hs)
  | challenge => exact lasts_of_chip exec_challenge h (Chip.spdmAnswer_last _ _ _ hs)
  | getMeasurements => exact lasts_of_chip exec_getMeasurements h (Chip.spdmAnswer_last _ _ _ hs)
  | slotWrite => exact lasts_of_chip exec_slotWrite h (Chip.slotWrite_last _ _ _ hs)
  | eventAck => exact lasts_of_chip exec_eventAck h (Chip.eventAck_last _ _ _ hs)
  | idleHint => exact lasts_of_chip exec_idleHint h (Chip.idleHint_last _ _ hs)
  | evcDisable => exact lasts_of_chip exec_evcDisable h (Chip.evcDisable_last _ _ hs)
  | moderationTimerExpire => exact lasts_of_chip exec_moderationTimerExpire h (Chip.moderationExpire_last _ _ _ hs)
  | vectorUnmask => exact lasts_of_chip exec_vectorUnmask h (Chip.vectorUnmask_last _ _ _ hs)
  | alarmAck => exact lasts_of_chip exec_alarmAck h (Chip.alarmAck_last _ _ _ hs)
  | logCopy => exact lasts_of_chip exec_logCopy h hs
  | logPersist => exact lasts_of_chip exec_logPersist h hs
  | powerSample => exact lasts_of_pair exec_powerSample h (powerSample_last _ _ _ hs)
  | thermalReading => exact lasts_of_pair exec_thermalReading h (thermalReading_last _ _ hs)
  | hushEntry => exact of_exec exec_hushEntry h (by
    unfold State.Lasts
    dsimp only
    split
    next => exact Chip.enterRung_last _ _ hs
    next => exact hs)
  | dozeEntry => exact of_exec exec_dozeEntry h (by
    unfold State.Lasts
    dsimp only
    split
    next => exact Chip.enterRung_last _ _ hs
    next => exact hs)
  | wake => exact lasts_of_chip exec_wake h (Chip.wake_last _ _ hs)
  | trip => exact lasts_of_pair exec_trip h (trip_last _ _ _ hs)
  | tinkReplayEnd => exact lasts_of_pair exec_tinkReplayEnd h (tinkReplayEnd_last _ _ hs)
  | recoveryOverrun => exact lasts_of_pair exec_recoveryOverrun h (overrun_last _ _ hs)
  | heartbeatTimeout => exact lasts_of_pair exec_heartbeatTimeout h (warmReset_last _ _ _ hs)
  | frog => exact lasts_of_pair exec_frog h (frogRequest_last _ _ hs)
  | panelReset => exact lasts_of_pair exec_panelReset h (panelRequest_last _ _ hs)
  | warmChipReset => exact lasts_of_pair exec_warmChipReset h (warmRequest_last _ hs)
  | maintenanceStart => exact lasts_of_pair exec_maintenanceStart h (maintRequest_last _ hs)
  | powerCycle => exact lasts_of_pair exec_powerCycle h (cycleRequest_last _ hs)
  | modRstAssert => exact lasts_of_pair exec_modRstAssert h (modRstAssert_last _ hs)
  | modRstRelease => exact lasts_of_pair exec_modRstRelease h (modRstRelease_last _ _ hs)
  | powerEnableRise => exact lasts_of_chip exec_powerEnableRise h (Chip.powerRise_last _ hs)
  | powerEnableFall => exact lasts_of_pair exec_powerEnableFall h (powerFall_last _ hs)
  | inputUndervoltage => exact lasts_of_pair exec_inputUndervoltage h (undervoltage_last _ hs)
  | auxUp => exact lasts_of_chip exec_auxUp h hs
  | auxLoss => exact of_exec exec_auxLoss h (Chip.auxOff_last _ hs)
  | strapsUnstable => exact lasts_of_chip exec_strapsUnstable h (Chip.strapsBad_last _ hs)
  | alertResponse => exact lasts_of_chip exec_alertResponse h (Chip.alertResponse_last _ _ hs)
  | setEndpointId => exact lasts_of_chip exec_setEndpointId h (Chip.smbAnswer_last _ _ (Chip.setEid_last _ _ hs))
  | getEndpointId => exact lasts_of_chip exec_getEndpointId h (Chip.smbAnswer_last _ _ hs)
  | getMctpVersionSupport => exact lasts_of_chip exec_getMctpVersionSupport h (Chip.smbAnswer_last _ _ hs)
  | getMessageTypeSupport => exact lasts_of_chip exec_getMessageTypeSupport h (Chip.smbAnswer_last _ _ hs)
  | getVendorDefinedMessageSupport => exact lasts_of_chip exec_getVendorDefinedMessageSupport h (Chip.smbAnswer_last _ _ hs)
  | getStatus => exact lasts_of_chip exec_getStatus h (Chip.smbAnswer_last _ _ hs)
  | readReg => exact lasts_of_chip exec_readReg h (Chip.readReg_last _ _ hs)
  | readLog => exact lasts_of_chip exec_readLog h (Chip.readLog_last _ _ _ hs)
  | ackAlarm => exact lasts_of_chip exec_ackAlarm h (Chip.smbAck_last _ _ _ hs)
  | requestReset => exact lasts_of_pair exec_requestReset h (smbReset_last _ _ hs)
  | laneLocked => exact lasts_of_chip exec_laneLocked h hs
  | pcieLinkUp => exact lasts_of_chip exec_pcieLinkUp h (Chip.linkUp_last _ _ _ hs)
  | vfEnableSet => exact lasts_of_chip exec_vfEnableSet h (Chip.vfSet_last _ _ hs)
  | inputVoltageRestored => exact lasts_of_chip exec_inputVoltageRestored h hs
  | hbmStackTemperature => exact lasts_of_chip exec_hbmStackTemperature h hs
  | slotWriteEnd => exact lasts_of_chip exec_slotWriteEnd h (Chip.slotWriteEnd_last _ _ hs)

/-- What a step can do: a tick where no command waits, else the command at the front of the queue (log 1). -/
theorem step_cases {s t : State} (h : step s = .next t) :
    t = { s with chip := s.chip.tick } ∨ ∃ c rest, s.pending = c :: rest ∧ exec c { s with pending := rest } = .next t := by
  unfold step at h
  split at h
  next => cases h; exact .inl rfl
  next c rest hp => exact .inr ⟨c, rest, hp, h⟩

/-- A property that a tick and every command keep is kept by every step; waiting commands do not matter to it. -/
theorem step_keeps {P : State → Prop} (htick : ∀ s : State, P s → P { s with chip := s.chip.tick })
    (hqueue : ∀ (s : State) (l : List Instr), P s → P { s with pending := l })
    (hexec : ∀ (c : Instr) (s t : State), P s → exec c s = .next t → P t) {s t : State} (hs : P s) (h : step s = .next t) : P t := by
  obtain rfl | ⟨c, rest, -, hc⟩ := step_cases h
  · exact htick s hs
  · exact hexec c _ t (hqueue s rest hs) hc

/-- Settles O58: a tick leaves the memories alone, and every command's meaning keeps their form. -/
theorem stepKeepsMemoryForm : Obligations.StepKeepsMemoryForm := by
  unfold Obligations.StepKeepsMemoryForm
  intro s t hs h
  exact step_keeps (fun _ hs => hs) (fun _ _ hs => hs) (fun _ _ _ => exec_keeps_inv) hs h

/-- Settles O60: no edge reaches a reserved source, and nothing else makes a source pending. -/
theorem reservedSourcesStayQuiet : Obligations.ReservedSourcesStayQuiet := by
  unfold Obligations.ReservedSourcesStayQuiet
  intro s t hs h
  have ht : t.Lasts s.chip.pat.recovery :=
    step_keeps (P := State.Lasts s.chip.pat.recovery) (fun _ hs => hs) (fun _ _ hs => hs) (fun _ _ _ => exec_keeps_lasts) ⟨rfl, hs⟩ h
  exact ht.2

end Sys2Proof.Machine
end

section
/-!
The queue of waiting commands (log 1) and the reset state (families 11 to 16).
-/
namespace Sys2Proof.Machine

/-- Settles O1: each case of the step is its definition on that queue. -/
theorem stepRunsFrontCommand : Obligations.StepRunsFrontCommand := by
  unfold Obligations.StepRunsFrontCommand
  refine ⟨fun s c rest hp => ?front, fun s hp => ?tick⟩
  case front => rw [step, hp]
  case tick => rw [step, hp]; rfl

/-- Settles O2: every command's meaning answers a next state that has the queue it was given. -/
theorem commandsKeepTheQueue : Obligations.CommandsKeepTheQueue := by
  unfold Obligations.CommandsKeepTheQueue
  intro c s
  cases c with
  | registerWrite => exact ⟨_, exec_registerWrite, rfl⟩
  | rowBoundary => exact ⟨_, exec_rowBoundary, rfl⟩
  | gaugeWindowEnd => exact ⟨_, exec_gaugeWindowEnd, rfl⟩
  | fastHoldExpire => exact ⟨_, exec_fastHoldExpire, rfl⟩
  | vcoreSettled => exact ⟨_, exec_vcoreSettled, rfl⟩
  | provisionalRowBoundary => exact ⟨_, exec_provisionalRowBoundary, rfl⟩
  | marginTimeout => exact ⟨_, exec_marginTimeout, rfl⟩
  | gaugeTimeLoRead => exact ⟨_, exec_gaugeTimeLoRead, rfl⟩
  | crystalFail => exact ⟨_, exec_crystalFail, rfl⟩
  | castOn => exact ⟨_, exec_castOn, rfl⟩
  | bindOff => exact ⟨_, exec_bindOff, rfl⟩
  | bindOffDrainEnd => exact ⟨_, exec_bindOffDrainEnd, rfl⟩
  | garmentCastOn => exact ⟨_, exec_garmentCastOn, rfl⟩
  | reserve => exact ⟨_, exec_reserve, rfl⟩
  | answer => exact ⟨_, exec_answer, rfl⟩
  | commit => exact ⟨_, exec_commit, rfl⟩
  | release => exact ⟨_, exec_release, rfl⟩
  | garmentAnswerTimeout => exact ⟨_, exec_garmentAnswerTimeout, rfl⟩
  | garmentHoldExpire => exact ⟨_, exec_garmentHoldExpire, rfl⟩
  | garmentBindOff => exact ⟨_, exec_garmentBindOff, rfl⟩
  | matmul => exact ⟨_, exec_matmul, rfl⟩
  | conv => exact ⟨_, exec_conv, rfl⟩
  | dwconv => exact ⟨_, exec_dwconv, rfl⟩
  | pool => exact ⟨_, exec_pool, rfl⟩
  | eltwise => exact ⟨_, exec_eltwise, rfl⟩
  | norm => exact ⟨_, exec_norm, rfl⟩
  | softmax => exact ⟨_, exec_softmax, rfl⟩
  | gather => exact ⟨_, exec_gather, rfl⟩
  | scatter => exact ⟨_, exec_scatter, rfl⟩
  | argmax => exact ⟨_, exec_argmax, rfl⟩
  | s2d => exact ⟨_, exec_s2d, rfl⟩
  | marub => exact ⟨_, exec_marub, rfl⟩
  | sync => exact ⟨_, exec_sync, rfl⟩
  | operationComplete => exact ⟨_, exec_operationComplete, rfl⟩
  | weightSwapComplete => exact ⟨_, exec_weightSwapComplete, rfl⟩
  | dmaTransferComplete => exact ⟨_, exec_dmaTransferComplete, rfl⟩
  | chunkAdmit => exact ⟨_, exec_chunkAdmit, rfl⟩
  | chartFillComplete => exact ⟨_, exec_chartFillComplete, rfl⟩
  | chartFillTimeout => exact ⟨_, exec_chartFillTimeout, rfl⟩
  | residentSegmentLoaded => exact ⟨_, exec_residentSegmentLoaded, rfl⟩
  | decodeSegmentEnd => exact ⟨_, exec_decodeSegmentEnd, rfl⟩
  | decodeComplete => exact ⟨_, exec_decodeComplete, rfl⟩
  | fieldReleaseTimeout => exact ⟨_, exec_fieldReleaseTimeout, rfl⟩
  | skipRecordCommit =>
    refine ⟨_, exec_skipRecordCommit, ?_⟩
    split
    next => rfl
    next => split <;> rfl
  | laneStart => exact ⟨_, exec_laneStart, rfl⟩
  | encodeSegmentEnd => exact ⟨_, exec_encodeSegmentEnd, rfl⟩
  | encodeComplete => exact ⟨_, exec_encodeComplete, rfl⟩
  | waitTimeout => exact ⟨_, exec_waitTimeout, rfl⟩
  | sampleDropped => exact ⟨_, exec_sampleDropped, rfl⟩
  | hankAlloc => exact ⟨_, exec_hankAlloc, rfl⟩
  | hankAllocGrant => exact ⟨_, exec_hankAllocGrant, rfl⟩
  | hankShare => exact ⟨_, exec_hankShare, rfl⟩
  | hankPass => exact ⟨_, exec_hankPass, rfl⟩
  | hankFree => exact ⟨_, exec_hankFree, rfl⟩
  | hankScrubDone => exact ⟨_, exec_hankScrubDone, rfl⟩
  | hbmParityError => exact ⟨_, exec_hbmParityError, rfl⟩
  | rowIdleClose => exact ⟨_, exec_rowIdleClose, rfl⟩
  | patrolScrub => exact ⟨_, exec_patrolScrub, rfl⟩
  | data => exact ⟨_, exec_data, rfl⟩
  | fetch => exact ⟨_, exec_fetch, rfl⟩
  | idle => exact ⟨_, exec_idle, rfl⟩
  | nak => exact ⟨_, exec_nak, rfl⟩
  | hello => exact ⟨_, exec_hello, rfl⟩
  | discover => exact ⟨_, exec_discover, rfl⟩
  | markerSignal => exact ⟨_, exec_markerSignal, rfl⟩
  | garmentAbort => exact ⟨_, exec_garmentAbort, rfl⟩
  | xferAck => exact ⟨_, exec_xferAck, rfl⟩
  | msgAck => exact ⟨_, exec_msgAck, rfl⟩
  | alarm => exact ⟨_, exec_alarm, rfl⟩
  | alarmSummary => exact ⟨_, exec_alarmSummary, rfl⟩
  | ringChange => exact ⟨_, exec_ringChange, rfl⟩
  | idleSend => exact ⟨_, exec_idleSend, rfl⟩
  | frameBoundary => exact ⟨_, exec_frameBoundary, rfl⟩
  | linkFault => exact ⟨_, exec_linkFault, rfl⟩
  | xferAckTimeout => exact ⟨_, exec_xferAckTimeout, rfl⟩
  | msgAckTimeout => exact ⟨_, exec_msgAckTimeout, rfl⟩
  | controlGap => exact ⟨_, exec_controlGap, rfl⟩
  | discoveryRun => exact ⟨_, exec_discoveryRun, rfl⟩
  | lossOfLock => exact ⟨_, exec_lossOfLock, rfl⟩
  | wrap => exact ⟨_, exec_wrap, rfl⟩
  | plannedSlip => exact ⟨_, exec_plannedSlip, rfl⟩
  | perstRelease => exact ⟨_, exec_perstRelease, rfl⟩
  | perstAssert => exact ⟨_, exec_perstAssert, rfl⟩
  | bar2Access => exact ⟨_, exec_bar2Access, rfl⟩
  | queueEnable => exact ⟨_, exec_queueEnable, rfl⟩
  | queueDisable => exact ⟨_, exec_queueDisable, rfl⟩
  | resume => exact ⟨_, exec_resume, rfl⟩
  | sqTailWrite => exact ⟨_, exec_sqTailWrite, rfl⟩
  | cqHeadWrite => exact ⟨_, exec_cqHeadWrite, rfl⟩
  | nop => exact ⟨_, exec_nop, rfl⟩
  | frame => exact ⟨_, exec_frame, rfl⟩
  | sample => exact ⟨_, exec_sample, rfl⟩
  | alloc => exact ⟨_, exec_alloc, rfl⟩
  | free => exact ⟨_, exec_free, rfl⟩
  | copyOut => exact ⟨_, exec_copyOut, rfl⟩
  | signal => exact ⟨_, exec_signal, rfl⟩
  | wait => exact ⟨_, exec_wait, rfl⟩
  | hostWaitTimeout => exact ⟨_, exec_hostWaitTimeout, rfl⟩
  | completionTlp => exact ⟨_, exec_completionTlp, rfl⟩
  | completionTimeout => exact ⟨_, exec_completionTimeout, rfl⟩
  | tagRelease => exact ⟨_, exec_tagRelease, rfl⟩
  | busMasterDisable => exact ⟨_, exec_busMasterDisable, rfl⟩
  | busMasterEnable => exact ⟨_, exec_busMasterEnable, rfl⟩
  | functionLevelReset => exact ⟨_, exec_functionLevelReset, rfl⟩
  | hotReset => exact ⟨_, exec_hotReset, rfl⟩
  | vfEnableClear => exact ⟨_, exec_vfEnableClear, rfl⟩
  | numvfsLower => exact ⟨_, exec_numvfsLower, rfl⟩
  | l1Entry => exact ⟨_, exec_l1Entry, rfl⟩
  | d3hotEntry => exact ⟨_, exec_d3hotEntry, rfl⟩
  | d0Return => exact ⟨_, exec_d0Return, rfl⟩
  | pmeTurnOff => exact ⟨_, exec_pmeTurnOff, rfl⟩
  | doeDiscovery => exact ⟨_, exec_doeDiscovery, rfl⟩
  | getVersion => exact ⟨_, exec_getVersion, rfl⟩
  | getCapabilities => exact ⟨_, exec_getCapabilities, rfl⟩
  | negotiateAlgorithms => exact ⟨_, exec_negotiateAlgorithms, rfl⟩
  | getDigests => exact ⟨_, exec_getDigests, rfl⟩
  | getCertificate => exact ⟨_, exec_getCertificate, rfl⟩
  | challenge => exact ⟨_, exec_challenge, rfl⟩
  | getMeasurements => exact ⟨_, exec_getMeasurements, rfl⟩
  | slotWrite => exact ⟨_, exec_slotWrite, rfl⟩
  | eventAck => exact ⟨_, exec_eventAck, rfl⟩
  | idleHint => exact ⟨_, exec_idleHint, rfl⟩
  | evcDisable => exact ⟨_, exec_evcDisable, rfl⟩
  | moderationTimerExpire => exact ⟨_, exec_moderationTimerExpire, rfl⟩
  | vectorUnmask => exact ⟨_, exec_vectorUnmask, rfl⟩
  | alarmAck => exact ⟨_, exec_alarmAck, rfl⟩
  | logCopy => exact ⟨_, exec_logCopy, rfl⟩
  | logPersist => exact ⟨_, exec_logPersist, rfl⟩
  | powerSample => exact ⟨_, exec_powerSample, rfl⟩
  | thermalReading => exact ⟨_, exec_thermalReading, rfl⟩
  | hushEntry => exact ⟨_, exec_hushEntry, rfl⟩
  | dozeEntry => exact ⟨_, exec_dozeEntry, rfl⟩
  | wake => exact ⟨_, exec_wake, rfl⟩
  | trip => exact ⟨_, exec_trip, rfl⟩
  | tinkReplayEnd => exact ⟨_, exec_tinkReplayEnd, rfl⟩
  | recoveryOverrun => exact ⟨_, exec_recoveryOverrun, rfl⟩
  | heartbeatTimeout => exact ⟨_, exec_heartbeatTimeout, rfl⟩
  | frog => exact ⟨_, exec_frog, rfl⟩
  | panelReset => exact ⟨_, exec_panelReset, rfl⟩
  | warmChipReset => exact ⟨_, exec_warmChipReset, rfl⟩
  | maintenanceStart => exact ⟨_, exec_maintenanceStart, rfl⟩
  | powerCycle => exact ⟨_, exec_powerCycle, rfl⟩
  | modRstAssert => exact ⟨_, exec_modRstAssert, rfl⟩
  | modRstRelease => exact ⟨_, exec_modRstRelease, rfl⟩
  | powerEnableRise => exact ⟨_, exec_powerEnableRise, rfl⟩
  | powerEnableFall => exact ⟨_, exec_powerEnableFall, rfl⟩
  | inputUndervoltage => exact ⟨_, exec_inputUndervoltage, rfl⟩
  | auxUp => exact ⟨_, exec_auxUp, rfl⟩
  | auxLoss => exact ⟨_, exec_auxLoss, rfl⟩
  | strapsUnstable => exact ⟨_, exec_strapsUnstable, rfl⟩
  | alertResponse => exact ⟨_, exec_alertResponse, rfl⟩
  | setEndpointId => exact ⟨_, exec_setEndpointId, rfl⟩
  | getEndpointId => exact ⟨_, exec_getEndpointId, rfl⟩
  | getMctpVersionSupport => exact ⟨_, exec_getMctpVersionSupport, rfl⟩
  | getMessageTypeSupport => exact ⟨_, exec_getMessageTypeSupport, rfl⟩
  | getVendorDefinedMessageSupport => exact ⟨_, exec_getVendorDefinedMessageSupport, rfl⟩
  | getStatus => exact ⟨_, exec_getStatus, rfl⟩
  | readReg => exact ⟨_, exec_readReg, rfl⟩
  | readLog => exact ⟨_, exec_readLog, rfl⟩
  | ackAlarm => exact ⟨_, exec_ackAlarm, rfl⟩
  | requestReset => exact ⟨_, exec_requestReset, rfl⟩
  | laneLocked => exact ⟨_, exec_laneLocked, rfl⟩
  | pcieLinkUp => exact ⟨_, exec_pcieLinkUp, rfl⟩
  | vfEnableSet => exact ⟨_, exec_vfEnableSet, rfl⟩
  | inputVoltageRestored => exact ⟨_, exec_inputVoltageRestored, rfl⟩
  | hbmStackTemperature => exact ⟨_, exec_hbmStackTemperature, rfl⟩
  | slotWriteEnd => exact ⟨_, exec_slotWriteEnd, rfl⟩

/-- Settles O3: every table of the reset state is empty, so that each entry reads as its default. -/
theorem resetStateIsClean : Obligations.ResetStateIsClean := by
  unfold Obligations.ResetStateIsClean
  exact ⟨rfl, rfl, rfl, rfl, rfl, fun _ => rfl, fun _ => rfl, fun _ => rfl, rfl⟩

/-- Settles O4: each address is that of its register, which the reset state gives its value. -/
theorem resetRegisterValues : Obligations.ResetRegisterValues := by
  unfold Obligations.ResetRegisterValues
  refine ⟨?_, ?_, ?_, ?_, ?_, ?_, ?_, ?_, ?_, ?_, ?_, ?_, ?_, ?_, ?_, ?_, ?_⟩ <;> decide +kernel

end Sys2Proof.Machine
end

section
/-!
Reads and writes of BAR0 where no register is, and narrower ones (family 19, R4).
-/
namespace Sys2Proof.Machine

/-! ### Where registers are -/

/-- A block has no register at an offset that none of its entries names. -/
theorem regIn_eq_none_iff {off : Nat} {l : List (Nat × Nat)} : regIn off l = none ↔ off ∉ l.map Prod.fst := by
  constructor
  · intro h hm
    obtain ⟨e, he, rfl⟩ := List.mem_map.1 hm
    simpa using List.find?_eq_none.1 (Option.map_eq_none_iff.1 h) e he
  · intro h
    refine Option.map_eq_none_iff.2 (List.find?_eq_none.2 fun e he => ?_)
    simpa using fun hk => h (List.mem_map.2 ⟨e, he, hk⟩)

theorem firstReg_pair_eq_none_iff {x y : Option Nat} : firstReg [x, y] = none ↔ x = none ∧ y = none := by
  cases x <;> cases y <;> simp [firstReg]

theorem Chip.fnStatus_tlp (c : Chip) : c.tlp.fnStatus = c.fnStatus := rfl

/-- The link's power state is the value of a register, and no register is there only in one of its states. -/
theorem Chip.pcieReg_tlp_eq_none_iff (c : Chip) (off : Nat) : c.tlp.pcieReg off = none ↔ c.pcieReg off = none := by
  unfold Chip.pcieReg
  rw [firstReg_pair_eq_none_iff, firstReg_pair_eq_none_iff, regIn_eq_none_iff, regIn_eq_none_iff, Chip.fnStatus_tlp]
  simp only [List.map_append, List.map_cons, List.map_nil, ctrRegs]

theorem Chip.regAt_pcie (c : Chip) {a : Nat} (hlo : 0x8000 ≤ a) (hhi : a < 0x9000) : c.regAt a = c.pcieReg (a - 0x8000) := by
  unfold Chip.regAt
  exact (if_neg (by omega)).trans ((if_neg (by omega)).trans ((if_neg (by omega)).trans (if_pos hhi)))

theorem Chip.regAt_tlp_of_not_pcie (c : Chip) {a : Nat} (h : a < 0x8000 ∨ 0x9000 ≤ a) : c.tlp.regAt a = c.regAt a := by
  unfold Chip.regAt
  by_cases h1 : a < 0x8000
  · by_cases h2 : a < 0x4000
    · rw [if_pos h2, if_pos h2]; rfl
    · rw [if_neg h2, if_neg h2, if_pos h1, if_pos h1]; rfl
  · have h3 : ¬ a < 0x9000 := by omega
    rw [if_neg h3, if_neg h3]
    rfl

theorem Chip.regAt_tlp_eq_none_iff (c : Chip) (a : Nat) : c.tlp.regAt a = none ↔ c.regAt a = none := by
  by_cases h : 0x8000 ≤ a ∧ a < 0x9000
  · rw [c.regAt_pcie h.1 h.2, c.tlp.regAt_pcie h.1 h.2, Chip.pcieReg_tlp_eq_none_iff]
  · rw [c.regAt_tlp_of_not_pcie (by omega)]


/-! ### Reads -/

theorem bitf_zero (lo n : Nat) : bitf 0 lo n = 0 := by simp [bitf]

/-- The part of a word's low 32 bits is the part of the word. -/
theorem bitf_mod (w : Nat) {lo n : Nat} (h : lo + n ≤ 32) : w % 2 ^ 32 / 2 ^ lo % 2 ^ n = bitf w lo n := by
  have h32 : 2 ^ 32 = 2 ^ lo * 2 ^ (32 - lo) := by rw [← Nat.pow_add]; congr 1; omega
  rw [h32, Nat.mod_mul_right_div_self, Nat.mod_mod_of_dvd _ (Nat.pow_dvd_pow 2 (by omega)), bitf]

/-- A read that stays within the aligned word at `a`. -/
theorem Chip.bar0Read_within (c : Chip) (fn : Nat) {a off n : Nat} (ha : a % 4 = 0) (hn : n ≠ 0) (hoff : off + n ≤ 4) :
    c.bar0Read fn (a + off) n = some (bitf (if fn = 0 then c.bar0Word a else c.sliceWord fn a) (8 * off) (8 * n)) := by
  have hmod : (a + off) % 4 = off := by omega
  have hbase : a + off - (a + off) % 4 = a := by omega
  rw [Chip.bar0Read, hbase, hmod, if_neg (by omega)]

theorem Chip.bar0Word_of_none {c : Chip} {a : Nat} (hmsix : ¬ (0x30000 ≤ a ∧ a < 0x38100)) (hlog : logWindow a = false)
    (hreg : c.regAt a = none) : c.bar0Word a = 0 := by
  obtain ⟨hchip, htel⟩ : ¬ (0x1040000 ≤ a ∧ a < 0x1080000) ∧ ¬ (0x1800000 ≤ a ∧ a < 0x2000000) := by simpa [logWindow] using hlog
  unfold Chip.bar0Word
  rw [if_neg (show ¬ (0x30000 ≤ a ∧ a < 0x38000) by omega), if_neg (show ¬ (0x38000 ≤ a ∧ a < 0x38100) by omega), if_neg hchip, if_neg htel, hreg]
  exact ite_self _

theorem Chip.sliceWord_of_none {c : Chip} {fn a : Nat} (hmsix : ¬ (0xC000 ≤ a ∧ a < 0xC400)) (hpba : ¬ (0xD000 ≤ a ∧ a < 0xD008))
    (hreg : c.sliceReg fn a = none) : c.sliceWord fn a = 0 := by
  unfold Chip.sliceWord
  rw [if_neg hmsix, if_neg hpba, hreg]
  exact ite_self _

/-! ### Writes -/

theorem pfWrite_discarded {c : Chip × Mem} {a size v : Nat} (hsize : size ≠ 0) (hin : a % 4 + size ≤ 4) (ha : a < 0x2000000)
    (hmsix : ¬ (0x30000 ≤ a ∧ a < 0x38100)) (h : size ≠ 4 ∨ logWindow a = true ∨ c.1.regAt a = none) :
    pfWrite a size v c = (c.1.regIncident .regDiscard a, c.2) := by
  unfold pfWrite
  rw [if_neg (by omega), if_neg (by omega), if_neg (by omega), if_pos]
  rcases h with h | h | h
  · exact .inl h
  · exact .inr (.inl h)
  · exact .inr (.inr (.inr h))

theorem vfWrite_discarded {c : Chip × Mem} {fn a size v : Nat} (hsize : size ≠ 0) (hin : a % 4 + size ≤ 4) (ha : a < 0x10000)
    (hmsix : ¬ (0xC000 ≤ a ∧ a < 0xC400)) (hpba : ¬ (0xD000 ≤ a ∧ a < 0xD008)) (h : size ≠ 4 ∨ c.1.sliceReg fn a = none) :
    vfWrite fn a size v c = (c.1.regIncident .regDiscard a, c.2) := by
  unfold vfWrite
  exact (if_neg hmsix).trans ((if_neg hpba).trans ((if_neg (by omega)).trans (if_pos (h.imp_right .inr))))

/-- A write that reaches a function there and in D0. -/
theorem registerWrite_of_reachable {c : Chip × Mem} {fn a size v : Nat} (h : c.1.reachableFn fn = true) :
    registerWrite fn a size v c = if fn = 0 then pfWrite a size v (c.1.tlp, c.2) else vfWrite fn a size v (c.1.tlp, c.2) :=
  if_pos h

/-- Settles O5: a read finds no register in its block, and a write that names none is only reported. -/
theorem accessesWithoutARegister : Obligations.AccessesWithoutARegister := by
  unfold Obligations.AccessesWithoutARegister
  refine ⟨fun c a ha hmsix hlog hreg => ?pf, fun c fn a hfn ha hmsix hpba hreg => ?vf, fun c fn a off n v ha hn hoff h4 => ?narrow,
    fun s a size v hfn hsize hin ha hmsix h => ?pfWrite, fun s fn a size v hf hfn hsize hin ha hmsix hpba h => ?vfWrite⟩
  case pf =>
    rw [← Nat.add_zero a, Chip.bar0Read_within c 0 ha (by decide) (by decide), if_pos rfl, Chip.bar0Word_of_none hmsix hlog hreg, bitf_zero]
  case vf =>
    rw [← Nat.add_zero a, Chip.bar0Read_within c fn ha (by decide) (by decide), if_neg hfn, Chip.sliceWord_of_none hmsix hpba hreg, bitf_zero]
  case narrow =>
    rw [← Nat.add_zero a, Chip.bar0Read_within c fn ha (by decide) (by decide)] at h4
    obtain rfl := Option.some.inj h4
    rw [Chip.bar0Read_within c fn ha hn hoff]
    simp only [bitf, Nat.mul_zero, Nat.pow_zero, Nat.div_one]
    rw [bitf_mod _ (by omega), bitf]
  case pfWrite =>
    have hwrite := pfWrite_discarded (c := (s.chip.tlp, s.mem)) (v := v) hsize hin ha hmsix
      (h.imp_right (Or.imp_right (Chip.regAt_tlp_eq_none_iff _ _).2))
    rw [exec_registerWrite, execRegisterWrite, registerWrite_of_reachable hfn, if_pos rfl, hwrite]
    rfl
  case vfWrite =>
    rw [exec_registerWrite, execRegisterWrite, registerWrite_of_reachable hfn, if_neg hf,
      vfWrite_discarded (c := (s.chip.tlp, s.mem)) hsize hin ha hmsix hpba h]
    rfl

end Sys2Proof.Machine
end

section
/-!
The management interface: the SPDM responder (family 13, R292) and the SMBus endpoint (families 18 and 19, R377 to R380, R389).
-/
namespace Sys2Proof.Machine

/-! ### SPDM over the DOE mailbox and over SMBus -/

theorem Chip.spdmAnswer_overDoe {c : Chip} (hup : c.pcie.up = true) (hperst : c.pins.perstN = true) (a : SpdmAnswer) :
    c.spdmAnswer false a = Chip.edge { c with pcie := { c.pcie with doe := a :: c.pcie.doe } } srcDoe := by
  simp [Chip.spdmAnswer, hup, hperst]

theorem Chip.spdmAnswer_overSmbus {c : Chip} (h : c.managed = true) (a : SpdmAnswer) :
    c.spdmAnswer true a = { c with pcie := { c.pcie with smbSpdm := a :: c.pcie.smbSpdm } } := by
  simp [Chip.spdmAnswer, h]

theorem Chip.spdmAnswer_linkDown {c : Chip} (h : c.pcie.up = false) (a : SpdmAnswer) : c.spdmAnswer false a = c := by
  simp [Chip.spdmAnswer, h]

/-- The slot and the offset of a GET_CERTIFICATE request for slot 0. -/
theorem bitf_certificateArg {off : Nat} (h : off < 65536) : bitf (65536 * off) 0 8 = 0 ∧ bitf (65536 * off) 16 16 = off := by
  unfold bitf
  omega

/-- The index and the signature flag of a GET_MEASUREMENTS request. -/
theorem Chip.measurements_one (c : Chip) {i : Nat} (h1 : 1 ≤ i) (h5 : i ≤ 5) (sign : Bool) :
    let arg := i + if sign then 256 else 0
    c.measurements (bitf arg 0 8) (bit arg 8) = .measurements [i] [c.measured i] sign := by
  have hindex : bitf (i + if sign then 256 else 0) 0 8 = i := by unfold bitf; split <;> omega
  have hsign : bit (i + if sign then 256 else 0) 8 = sign := by
    cases sign
    · simp only [bit, Bool.false_eq_true, if_false, beq_eq_false_iff_ne]; omega
    · simp only [bit, if_true, beq_iff_eq]; omega
  simp only [hindex, hsign]
  rw [Chip.measurements, if_neg (by omega), if_neg (by omega), if_pos h5]

theorem execGetCertificate_slotZero {off : Nat} (h : off < 65536) (overSmbus : Bool) (s : State) :
    execGetCertificate overSmbus (65536 * off) s = .next { s with chip := s.chip.spdmAnswer overSmbus (.certificate 0 off) } := by
  obtain ⟨hslot, hoff⟩ := bitf_certificateArg h
  rw [execGetCertificate, hslot, hoff, if_pos rfl]

theorem execGetMeasurements_one {i : Nat} (h1 : 1 ≤ i) (h5 : i ≤ 5) (sign overSmbus : Bool) (s : State) :
    execGetMeasurements overSmbus (i + if sign then 256 else 0) s =
      .next { s with chip := s.chip.spdmAnswer overSmbus (.measurements [i] [s.chip.measured i] sign) } := by
  rw [execGetMeasurements, s.chip.measurements_one h1 h5]

/-- Settles O38: each request runs to the responder with its own answer, which each way of asking delivers. -/
theorem spdmAnswersRequests : Obligations.SpdmAnswersRequests := by
  unfold Obligations.SpdmAnswersRequests
  intro s arg off i sign hoff h1 h5
  refine ⟨fun hup hperst => ?doe, fun hm => ?smbus, fun hdown => ?down⟩
  case doe =>
    have answered : ∀ {c : Instr} {a : SpdmAnswer}, exec c s = .next { s with chip := s.chip.spdmAnswer false a } →
        exec c s = .next { s with chip := Chip.edge { s.chip with pcie := { s.chip.pcie with doe := a :: s.chip.pcie.doe } } 273 } := by
      intro c a he
      rw [he, Chip.spdmAnswer_overDoe hup hperst]
      rfl
    simp only [List.forall_mem_cons]
    exact ⟨answered exec_doeDiscovery, answered exec_doeDiscovery, answered exec_getVersion, answered exec_getCapabilities,
      answered exec_negotiateAlgorithms, answered exec_getDigests, answered (exec_getCertificate.trans (execGetCertificate_slotZero hoff _ _)),
      answered exec_getCertificate, answered exec_challenge, answered exec_challenge,
      answered (exec_getMeasurements.trans (execGetMeasurements_one h1 h5 _ _ _)), by simp⟩
  case smbus =>
    have answered : ∀ {c : Instr} {a : SpdmAnswer}, exec c s = .next { s with chip := s.chip.spdmAnswer true a } →
        exec c s = .next { s with chip := { s.chip with pcie := { s.chip.pcie with smbSpdm := a :: s.chip.pcie.smbSpdm } } } := by
      intro c a he
      rw [he, Chip.spdmAnswer_overSmbus hm]
    simp only [List.forall_mem_cons]
    exact ⟨answered exec_getVersion, answered exec_getCapabilities, answered exec_negotiateAlgorithms, answered exec_getDigests,
      answered (exec_getCertificate.trans (execGetCertificate_slotZero hoff _ _)), answered exec_challenge,
      answered (exec_getMeasurements.trans (execGetMeasurements_one h1 h5 _ _ _)), by simp⟩
  case down =>
    have quiet : ∀ {c : Instr} {a : SpdmAnswer}, exec c s = .next { s with chip := s.chip.spdmAnswer false a } → exec c s = .next s := by
      intro c a he
      rw [he, Chip.spdmAnswer_linkDown hdown]
    simp only [List.forall_mem_cons]
    exact ⟨quiet exec_doeDiscovery, quiet exec_getVersion, quiet exec_getMeasurements, by simp⟩

/-! ### SMBus answers -/

theorem Chip.smbAnswer_of_aux {c : Chip} (h : c.pins.aux = true) (a : SmbAnswer) : c.smbAnswer a = { c with smbus := a :: c.smbus } :=
  if_pos h

theorem Chip.alertResponse_won {c : Chip} (haux : c.pins.aux = true) (halert : c.pins.alert = true) :
    c.alertResponse true =
      { c with smbus := .alertAddress (0x40 + c.pins.slotId % 32) :: c.smbus, pins := { c.pins with alert := c.pins.alertHot } } := by
  simp [Chip.alertResponse, haux, halert, Chip.smbAddr]

theorem Chip.alertResponse_lost (c : Chip) : c.alertResponse false = c := by
  simp [Chip.alertResponse]

theorem Chip.setEid_taken {c : Chip} {eid : Nat} (haux : c.pins.aux = true) (h0 : 0 < eid) (h255 : eid < 255) :
    c.setEid eid = { c with pins := { c.pins with eid := eid } } := by
  simp [Chip.setEid, haux, h255, Nat.pos_iff_ne_zero.1 h0]

theorem Chip.setEid_not_taken {c : Chip} {eid : Nat} (h : eid = 0 ∨ 255 ≤ eid) : c.setEid eid = c := by
  obtain h | h := h
  · simp [Chip.setEid, h]
  · simp [Chip.setEid, Nat.not_lt.2 h]

@[simp] theorem length_leBytes (n v : Nat) : (leBytes n v).length = n := by
  induction n generalizing v with
  | zero => rfl
  | succ n ih => rw [leBytes, List.length_cons, ih]

@[simp] theorem length_zeros (n : Nat) : (zeros n).length = n := List.length_replicate

theorem Chip.length_statusPayload (c : Chip) : c.statusPayload.length = 29 := by
  unfold Chip.statusPayload
  split <;> simp

/-- The bytes of a value hang on what its width holds alone. -/
theorem leBytes_mod (n v : Nat) : leBytes n (v % 256 ^ n) = leBytes n v := by
  induction n generalizing v with
  | zero => rfl
  | succ n ih =>
    have hlow : BitVec.ofNat 8 (v % 256 ^ (n + 1)) = BitVec.ofNat 8 v := by
      refine BitVec.eq_of_toNat_eq ?_
      rw [BitVec.toNat_ofNat, BitVec.toNat_ofNat, Nat.mod_mod_of_dvd _ ⟨256 ^ n, Nat.pow_succ'⟩]
    have hhigh : v % 256 ^ (n + 1) / 256 = v / 256 % 256 ^ n := by rw [Nat.pow_succ', Nat.mod_mul_right_div_self]
    rw [leBytes, leBytes, hlow, hhigh, ih]

/-- READ_REG of a readable register answers what BAR0 reads there (R389). -/
theorem Chip.readReg_readable {c : Chip} {off : Nat} (hm : c.managed = true) (haux : c.pins.aux = true) (hr : readable off = true) :
    ∃ v, c.bar0Read 0 off 4 = some v ∧ c.readReg off =
      { c with gauge := if off = 0x10030 then c.gauge.latchTime else c.gauge, smbus := .vendor 2 0 (leBytes 4 v) :: c.smbus } := by
  have halign : off % 4 = 0 := by
    simp only [readable, Bool.and_eq_true, beq_iff_eq] at hr
    exact hr.1
  refine ⟨_, Chip.bar0Read_within c 0 (off := 0) halign (by decide) (by decide), ?_⟩
  have hbytes : leBytes 4 (bitf (c.bar0Word off) (8 * 0) (8 * 4)) = leBytes 4 (c.bar0Word off) := by
    rw [bitf, Nat.mul_zero, Nat.pow_zero, Nat.div_one]
    exact leBytes_mod 4 _
  rw [if_pos rfl, hbytes, Chip.readReg, hm, if_neg (by decide), if_pos hr]
  exact if_pos haux

theorem Log.bySeq_one {l : Log} {seq : Nat} {r : LogRec} (hr : r ∈ l.hbm) (hseq : r.seq = seq % 4294967296)
    (huniq : ∀ x ∈ l.hbm, x.seq = r.seq → x = r) : l.bySeq seq 1 = [r] := by
  have hfind : l.hbm.find? (fun x => x.seq == (seq + 0) % 4294967296) = some r := by
    obtain ⟨x, hx⟩ : ∃ x, l.hbm.find? (fun x => x.seq == (seq + 0) % 4294967296) = some x :=
      Option.isSome_iff_exists.1 (List.find?_isSome.2 ⟨r, hr, beq_iff_eq.2 hseq⟩)
    have hxs : x.seq = r.seq := (beq_iff_eq.1 (List.find?_some (p := fun x : LogRec => x.seq == (seq + 0) % 4294967296) hx)).trans hseq.symm
    rw [hx, huniq x (List.mem_of_find?_eq_some hx) hxs]
  rw [Log.bySeq, List.range_one, List.filterMap_cons, hfind, List.filterMap_nil]

theorem Chip.readLog_one {c : Chip} {seq : Nat} {r : LogRec} (hm : c.managed = true) (haux : c.pins.aux = true) (hr : r ∈ c.log.hbm)
    (hseq : r.seq = seq % 4294967296) (huniq : ∀ x ∈ c.log.hbm, x.seq = r.seq → x = r) :
    c.readLog seq 1 = { c with smbus := .vendor 3 0 r.bytes :: c.smbus } := by
  rw [Chip.readLog, Chip.smbAnswer_of_aux haux, hm, Log.bySeq_one hr hseq huniq]
  simp [vcOk]

@[simp] theorem Chip.alarmAck_pins (c : Chip) (k seen : Nat) : (c.alarmAck k seen).pins = c.pins := by
  unfold Chip.alarmAck
  split <;> rfl

theorem Chip.smbAck_taken {c : Chip} {k rep : Nat} (hm : c.managed = true) (haux : c.pins.aux = true) (hk : k < 64) (hrep : rep < 256) :
    c.smbAck k rep = { c.alarmAck k rep with smbus := .vendor 4 0 [] :: (c.alarmAck k rep).smbus } := by
  rw [Chip.smbAck, hm, if_neg (by decide), if_neg (by omega), Chip.smbAnswer_of_aux ((congrArg Pins.aux (c.alarmAck_pins k rep)).trans haux)]
  rfl

/-- Settles O39: each command answers by its equation while the auxiliary supply is up. -/
theorem smbusAnswersCommands : Obligations.SmbusAnswersCommands := by
  unfold Obligations.SmbusAnswersCommands
  intro s haux
  have hsay : ∀ a, s.chip.smbAnswer a = { s.chip with smbus := a :: s.chip.smbus } := Chip.smbAnswer_of_aux haux
  refine ⟨fun halert => ?won, ?lost, fun eid h0 h255 => ?eid, fun eid h => ?sameEid, ?getEid, ?version, ?types, ?vendor, fun k hk => ?noMore,
    ?status, s.chip.length_statusPayload, fun hm off hr => ?readReg, fun hm off hr => ?badReg, fun hm seq r hr hseq huniq => ?readLog,
    fun hm k rep hk hrep => ?ackAlarm, fun hm off seq n k rep => ?notReady⟩
  case won => rw [exec_alertResponse, execAlertResponse, Chip.alertResponse_won haux halert]
  case lost => rw [exec_alertResponse, execAlertResponse, Chip.alertResponse_lost]
  case eid => rw [exec_setEndpointId, execSetEndpointId, Chip.setEid_taken haux h0 h255, Chip.smbAnswer_of_aux (by exact haux)]
  case sameEid => rw [exec_setEndpointId, execSetEndpointId, Chip.setEid_not_taken h, hsay]
  case getEid => rw [exec_getEndpointId, execGetEndpointId, hsay]
  case version => rw [exec_getMctpVersionSupport, execGetMctpVersionSupport, hsay]
  case types => rw [exec_getMessageTypeSupport, execGetMessageTypeSupport, hsay]
  case vendor => rw [exec_getVendorDefinedMessageSupport, execGetVendorDefinedMessageSupport, hsay, if_pos rfl]
  case noMore => rw [exec_getVendorDefinedMessageSupport, execGetVendorDefinedMessageSupport, hsay, if_neg hk]
  case status => rw [exec_getStatus, execGetStatus, hsay]; rfl
  case readReg =>
    obtain ⟨v, hv, hread⟩ := Chip.readReg_readable hm haux hr
    exact ⟨v, hv, by rw [exec_readReg, execReadReg, hread]⟩
  case badReg => rw [exec_readReg, execReadReg, Chip.readReg, hm, hr, if_neg (by decide), if_neg (by decide), hsay]; rfl
  case readLog => rw [exec_readLog, execReadLog, Chip.readLog_one hm haux hr hseq huniq]
  case ackAlarm => rw [exec_ackAlarm, execAckAlarm, Chip.smbAck_taken hm haux hk hrep]
  case notReady =>
    refine ⟨?_, ?_, ?_, fun l => ?_⟩
    · rw [exec_readReg, execReadReg, Chip.readReg, hm, Bool.not_false, if_pos rfl, hsay]; rfl
    · rw [exec_readLog, execReadLog, Chip.readLog, hm, hsay]; rfl
    · rw [exec_ackAlarm, execAckAlarm, Chip.smbAck, hm, Bool.not_false, if_pos rfl, hsay]; rfl
    · rw [exec_requestReset, execRequestReset, smbReset, hm, Bool.not_false, if_pos rfl, hsay]; rfl

end Sys2Proof.Machine
end

section
/-!
The incident log: alarm slots and their acknowledgement (R324), budgets (R322) and the tiers (R321), family 15.
-/
namespace Sys2Proof.Machine

/-! ### Slots -/

/-- An alarm slot changed. -/
def Log.updSlot (l : Log) (k : Nat) (f : AlarmSlot → AlarmSlot) : Log := { l with alarms := Tbl.upd {} l.alarms k f }

@[simp] theorem Log.slot_updSlot_same (l : Log) (k : Nat) (f : AlarmSlot → AlarmSlot) : (l.updSlot k f).slot k = f (l.slot k) :=
  Tbl.get_upd_same _ l.alarms _ _

theorem Log.slot_updSlot_other (l : Log) {k j : Nat} (f : AlarmSlot → AlarmSlot) (h : j ≠ k) : (l.updSlot k f).slot j = l.slot j :=
  Tbl.get_upd_other _ l.alarms _ h

theorem Log.put_alarms (l : Log) (r : LogRec) : (l.put r).alarms = l.alarms := by
  unfold Log.put
  split <;> rfl

/-- A record, kept or not, touches no alarm slot. -/
@[simp] theorem Log.slot_add (l : Log) (r : LogRec) (k : Nat) : (l.add r).slot k = l.slot k := by
  have halarms : (l.add r).alarms = l.alarms := by
    unfold Log.add
    split
    next => rw [Log.put_alarms]; split <;> rfl
    next => rfl
  rw [Log.slot, halarms, Log.slot]

theorem AlarmSlot.raise_of_free {x : AlarmSlot} (h : x.first = none) (r : LogRec) :
    x.raise r = { first := some r, lastTime := r.time, rep := 0, sat := false } := by
  simp only [AlarmSlot.raise, h]

theorem AlarmSlot.raise_of_taken {x : AlarmSlot} (h : x.first.isSome = true) (r : LogRec) :
    x.raise r = { x with lastTime := r.time, rep := min 255 (x.rep + 1), sat := x.sat || x.rep == 255 } := by
  obtain ⟨q, hq⟩ := Option.isSome_iff_exists.1 h
  simp only [AlarmSlot.raise, hq]

/-- Raising an alarm takes its slot. -/
theorem AlarmSlot.first_raise (x : AlarmSlot) (r : LogRec) : (x.raise r).first.isSome = true := by
  cases h : x.first with
  | none => rw [AlarmSlot.raise_of_free h]; rfl
  | some q => rw [AlarmSlot.raise_of_taken (by rw [h]; rfl)]; exact h ▸ rfl

/-- The record that an alarm's slot and message show (R324). -/
def Chip.alarmRec (c : Chip) (i : Incident) (k src : Nat) (ctx : Option Nat) (ticket argHi arg : Nat) : LogRec :=
  { c.logRec src 3 i.code k ctx ticket argHi arg with
    seq := if c.log.keeps src then (c.log.add (c.logRec src 3 i.code k ctx ticket argHi arg)).seq
           else Config.unkeptSeq (c.log.add (c.logRec src 3 i.code k ctx ticket argHi arg)).lost % 4294967296 }

section alarm
variable (c : Chip) (e : Bool) (i : Incident) (k src : Nat) (ctx : Option Nat) (ticket argHi arg : Nat)

theorem Chip.alarm_alarms : (c.alarm e i k src ctx ticket argHi arg).log.alarms =
    Tbl.upd {} c.log.alarms k (fun x => x.raise (c.alarmRec i k src ctx ticket argHi arg)) := rfl

theorem Chip.slot_alarm_same :
    (c.alarm e i k src ctx ticket argHi arg).log.slot k = (c.log.slot k).raise (c.alarmRec i k src ctx ticket argHi arg) := by
  rw [Log.slot, Chip.alarm_alarms]
  exact Tbl.get_upd_same _ _ _ _

theorem Chip.slot_alarm_other {j : Nat} (h : j ≠ k) : (c.alarm e i k src ctx ticket argHi arg).log.slot j = c.log.slot j := by
  rw [Log.slot, Chip.alarm_alarms]
  exact Tbl.get_upd_other _ _ _ h

/-- An alarm raised stands in its slot. -/
theorem Chip.alarm_first : ((c.alarm e i k src ctx ticket argHi arg).log.slot k).first.isSome = true := by
  rw [Chip.slot_alarm_same]
  exact AlarmSlot.first_raise _ _

/-- An alarm frees no slot. -/
theorem Chip.alarm_keeps_first {j : Nat} (h : (c.log.slot j).first.isSome = true) :
    ((c.alarm e i k src ctx ticket argHi arg).log.slot j).first.isSome = true := by
  by_cases hj : j = k
  · exact hj ▸ c.alarm_first e i k src ctx ticket argHi arg
  · rwa [c.slot_alarm_other e i k src ctx ticket argHi arg hj]

theorem Chip.alarmIf_true : c.alarmIf true e i k src ctx ticket argHi arg = c.alarm e i k src ctx ticket argHi arg := rfl

theorem Chip.alarmIf_false : c.alarmIf false e i k src ctx ticket argHi arg = c := rfl

/-- Raised or not, an alarm leaves a taken slot taken. -/
theorem Chip.alarmIf_keeps_first (b : Bool) {j : Nat} (h : (c.log.slot j).first.isSome = true) :
    ((c.alarmIf b e i k src ctx ticket argHi arg).log.slot j).first.isSome = true := by
  cases b with
  | false => exact h
  | true => exact c.alarm_keeps_first e i k src ctx ticket argHi arg h

theorem Chip.alarmIf_keeps_alert (b : Bool) (h : c.pins.alert = true) : (c.alarmIf b e i k src ctx ticket argHi arg).pins.alert = true := by
  cases b with
  | false => exact h
  | true => rfl

end alarm

/-! ### Acknowledgement -/

theorem Chip.alarmAck_of_not_logged {c : Chip} {k rep : Nat} (h : ackCase (c.log.slot k).first.isSome (c.log.slot k).rep rep ≠ .logged) :
    c.alarmAck k rep = { c with log := c.log.updSlot k (fun x => x.ack rep) } := by
  unfold Chip.alarmAck
  split
  next h' => exact absurd h' h
  next => rfl

theorem ackCase_of_free (n seen : Nat) : ackCase false n seen = .ignored := rfl

theorem ackCase_of_taken (n seen : Nat) : ackCase true n seen = if n < seen then .logged else if seen = n then .cleared else .left := rfl

/-- A taken slot is acknowledged by REPEAT against its own. -/
theorem AlarmSlot.ack_of_taken {x : AlarmSlot} (h : x.first.isSome = true) {rep : Nat} (hle : rep ≤ x.rep) :
    x.ack rep = if rep = x.rep then {} else { x with rep := x.rep - rep - 1 } := by
  rw [AlarmSlot.ack, h, ackCase_of_taken, if_neg (Nat.not_lt.2 hle)]
  by_cases heq : rep = x.rep
  · rw [if_pos heq, if_pos heq]
  · rw [if_neg heq, if_neg heq]

/-- Settles O15: the case of R313 is found from the slot and REPEAT, and the slot takes what it says. -/
theorem alarmAckCases : Obligations.AlarmAckCases := by
  unfold Obligations.AlarmAckCases
  intro s k rep hk hrep
  have hexec : exec (.alarmAck k rep) s = .next { s with chip := s.chip.alarmAck k rep } := by
    rw [exec_alarmAck, execAlarmAck, Nat.mod_eq_of_lt hk, Nat.mod_eq_of_lt hrep]
  refine ⟨fun hx hlt => ?logged, fun hcase => ?kept⟩
  case logged =>
    have hlogged : ackCase (s.chip.log.slot k).first.isSome (s.chip.log.slot k).rep rep = .logged := by
      rw [hx, ackCase_of_taken, if_pos hlt]
    rw [hexec, Chip.alarmAck, hlogged]
    rfl
  case kept =>
    have hne : ackCase (s.chip.log.slot k).first.isSome (s.chip.log.slot k).rep rep ≠ .logged := by
      cases hx : (s.chip.log.slot k).first.isSome with
      | false => exact Ack.noConfusion
      | true =>
        rw [ackCase_of_taken, if_neg fun hlt => hcase ⟨hx, hlt⟩]
        split <;> exact Ack.noConfusion
    refine ⟨_, hexec, ?_⟩
    rw [Chip.alarmAck_of_not_logged hne]
    refine ⟨rfl, fun j hj => Log.slot_updSlot_other _ _ hj, fun hfree => ?_, fun hx heq => ?_, fun hx hlt => ?_⟩
    · rw [Log.slot_updSlot_same, AlarmSlot.ack, hfree]
      rfl
    · rw [Log.slot_updSlot_same, AlarmSlot.ack_of_taken hx (Nat.le_of_eq heq), if_pos heq]
    · rw [Log.slot_updSlot_same, AlarmSlot.ack_of_taken hx (Nat.le_of_lt hlt), if_neg (Nat.ne_of_lt hlt)]

/-! ### Budgets -/

/-- A source's record in a log whose records are those of another with this one changed. -/
theorem Log.src_of_upd {l d : Log} {k : Nat} {f : LogSrc → LogSrc} (h : d.srcs = Tbl.upd {} l.srcs k f) : d.src k = f (l.src k) := by
  rw [Log.src, h]
  exact Tbl.get_upd_same _ _ _ _

theorem Log.add_of_spent {l : Log} {r : LogRec} (h : (l.src r.source).budget = 0) :
    l.add r =
      { l with
        srcs := Tbl.upd {} l.srcs r.source (fun x => { x with suppressed := satAdd 65535 x.suppressed 1 })
        lost := satAdd 4294967295 l.lost 1
        suppCtr := l.suppCtr.inc
        rowSupp := if l.rowSupp.contains r.source then l.rowSupp else r.source :: l.rowSupp } := by
  rw [Log.add, h, if_neg (Nat.lt_irrefl 0)]

theorem Log.add_of_full {l : Log} {r : LogRec} (h : 0 < (l.src r.source).budget) (hfull : l.full = true) :
    l.add r = { l with lost := satAdd 4294967295 l.lost 1 } := by
  rw [Log.add, if_pos h, if_pos hfull, Log.put, if_pos hfull]

/-- A kept record joins the on-chip tier and its backlog with the next sequence number, and takes one of its source's budget. -/
theorem Log.add_of_kept {l : Log} {r : LogRec} (h : 0 < (l.src r.source).budget) (hfull : l.full = false) :
    ∃ q : LogRec, q = { r with seq := (l.add r).seq } ∧ (l.add r).chip = (q :: l.chip).take 8192 ∧ (l.add r).toCopy = l.toCopy ++ [q] ∧
      (l.add r).src r.source = { l.src r.source with budget := (l.src r.source).budget - 1 } := by
  have hfull' : Log.full { l with srcs := Tbl.upd {} l.srcs r.source (fun x => { x with budget := x.budget - 1 }) } = false := hfull
  rw [Log.add, if_pos h, hfull, if_neg Bool.false_ne_true, Log.put, hfull', if_neg Bool.false_ne_true]
  exact ⟨_, rfl, rfl, rfl, Log.src_of_upd (l := l) (f := fun x => { x with budget := x.budget - 1 }) rfl⟩

theorem Log.full_eq_true {l : Log} (h : 8192 ≤ l.toCopy.length) : l.full = true := decide_eq_true h

theorem Log.full_eq_false {l : Log} (h : l.toCopy.length < 8192) : l.full = false := decide_eq_false (Nat.not_le.2 h)

/-- Settles O16: an alarm's slot by R324 on the record it shows, a detailed record by its source's budget and the tier's room. -/
theorem alarmsAndBudgets : Obligations.AlarmsAndBudgets := by
  unfold Obligations.AlarmsAndBudgets
  refine ⟨fun c e i k src ctx ticket hi arg => ⟨rfl, fun j hj => c.slot_alarm_other _ _ _ _ _ _ _ _ hj, fun hfree => ?free, fun htaken => ?taken⟩,
    fun l r => ⟨fun h => ?spent, fun h hfull => ?full, fun h hroom hlen => ?kept⟩⟩
  case free =>
    refine ⟨c.alarmRec i k src ctx ticket hi arg, ?_, rfl, rfl, rfl, rfl, fun hkeeps => if_pos hkeeps⟩
    rw [Chip.slot_alarm_same, AlarmSlot.raise_of_free hfree]
    rfl
  case taken =>
    rw [Chip.slot_alarm_same, AlarmSlot.raise_of_taken htaken]
    rfl
  case spent =>
    rw [Log.add_of_spent h]
    exact ⟨rfl, rfl, congrArg LogSrc.suppressed (Log.src_of_upd (l := l) (f := fun x => { x with suppressed := satAdd 65535 x.suppressed 1 }) rfl)⟩
  case full =>
    rw [Log.add_of_full h (Log.full_eq_true hfull)]
    exact ⟨rfl, rfl, rfl⟩
  case kept =>
    obtain ⟨q, hq, hchip, hcopy, hbudget⟩ := Log.add_of_kept h (Log.full_eq_false hroom)
    have htake : (q :: l.chip).take 8192 = q :: l.chip := List.take_of_length_le hlen
    exact ⟨⟨q, hchip.trans htake, by rw [hq], hcopy⟩, congrArg LogSrc.budget hbudget⟩

/-! ### Tiers -/

theorem Log.copy_of_ready {l : Log} (h : l.hbmReady = true) (hroom : l.toCopy.length + l.hbm.length ≤ 524288) :
    l.copy = { l with hbm := l.toCopy.reverse ++ l.hbm, headHbm := (l.headHbm + l.toCopy.length) % 524288, toCopy := [] } := by
  have htake : (l.toCopy.reverse ++ l.hbm).take tierSize = l.toCopy.reverse ++ l.hbm :=
    List.take_of_length_le (by rw [List.length_append, List.length_reverse]; exact hroom)
  rw [Log.copy, if_pos h, htake]
  rfl

theorem Log.copy_of_not_ready {l : Log} (h : l.hbmReady = false) : l.copy = l := by
  rw [Log.copy, h, if_neg Bool.false_ne_true]

theorem Log.page_of_deferred {l : Log} (h : l.persDefer = true) : l.page = l := if_pos h

/-- While the persistent tier has room for a page, no sector is erased. -/
theorem Log.page_of_room {l : Log} (h : l.persDefer = false) (hroom : l.pers.length + 8 ≤ 524288) :
    l.page = { l with
      pers := (l.toPersist.take 8).reverse ++ l.pers
      headPers := (l.headPers + (l.toPersist.take 8).length) % tierSize
      toPersist := l.toPersist.drop 8 } := by
  have hlen : (l.toPersist.take 8).length ≤ 8 := List.length_take_le 8 _
  have hsector : l.sectorFor (l.toPersist.take 8).length = l.pers := if_neg (by unfold tierSize; omega)
  rw [Log.page, h, if_neg Bool.false_ne_true]
  simp only [hsector]

/-- Settles O17: the copy and the page by their equations. -/
theorem logTiersFill : Obligations.LogTiersFill := by
  unfold Obligations.LogTiersFill
  refine ⟨fun s hready hroom => ?copy, fun s hready => ?notReady, fun s hdefer => ?deferred, fun s hdefer hroom => ?page⟩
  case copy => rw [exec_logCopy, execLogCopy, Log.copy_of_ready hready hroom]
  case notReady => rw [exec_logCopy, execLogCopy, Log.copy_of_not_ready hready]
  case deferred => rw [exec_logPersist, execLogPersist, Log.page_of_deferred hdefer]
  case page =>
    refine ⟨_, exec_logPersist, ?_⟩
    rw [Log.page_of_room hdefer hroom]
    exact ⟨rfl, rfl⟩

end Sys2Proof.Machine
end

section
/-!
The voltage loop's provisional rows and the holds of the guarantee at risk (family 02, R30, R32, R35, R38).
-/
namespace Sys2Proof.Machine

/-! ### Provisional rows -/

/-- The fields of the gauge that the step of R30 leaves alone. -/
theorem Gauge.r30_frame (g : Gauge) (low : Nat) :
    g.r30 low = { g with vcore2 := (g.r30 low).vcore2, settleAt := (g.r30 low).settleAt, calmRows := (g.r30 low).calmRows } := by
  unfold Gauge.r30
  split
  next => rfl
  next =>
    split
    next => split <;> rfl
    next => rfl

theorem Gauge.r30_rowNum (g : Gauge) (low : Nat) : (g.r30 low).rowNum = g.rowNum := by rw [Gauge.r30_frame]

theorem Gauge.r30_minPaceSnap (g : Gauge) (low : Nat) : (g.r30 low).minPaceSnap = g.minPaceSnap := by rw [Gauge.r30_frame]

theorem Gauge.r30_raises {g : Gauge} {low : Nat} (h : low * 100 < g.floor * 108) :
    (g.r30 low).vcore2 = min (g.vcore2 + 10) 1800 ∧ (g.r30 low).calmRows = 0 := by
  rw [Gauge.r30, if_pos h]
  exact ⟨rfl, rfl⟩

theorem Gauge.r30_lowers {g : Gauge} {low : Nat} (h108 : ¬ low * 100 < g.floor * 108) (h112 : g.floor * 112 ≤ low * 100) (h8 : 8 ≤ g.calmRows + 1) :
    (g.r30 low).vcore2 = max (g.vcore2 - 5) (2 * g.vmin) ∧ (g.r30 low).calmRows = 0 := by
  rw [Gauge.r30, if_neg h108, if_pos h112, if_pos h8]
  exact ⟨rfl, rfl⟩

theorem Gauge.r30_counts {g : Gauge} {low : Nat} (h108 : ¬ low * 100 < g.floor * 108) (h112 : g.floor * 112 ≤ low * 100)
    (h8 : ¬ 8 ≤ g.calmRows + 1) : (g.r30 low).vcore2 = g.vcore2 ∧ (g.r30 low).calmRows = g.calmRows + 1 := by
  rw [Gauge.r30, if_neg h108, if_pos h112, if_neg h8]
  exact ⟨rfl, rfl⟩

theorem Gauge.r30_rests {g : Gauge} {low : Nat} (h108 : ¬ low * 100 < g.floor * 108) (h112 : ¬ g.floor * 112 ≤ low * 100) :
    (g.r30 low).vcore2 = g.vcore2 ∧ (g.r30 low).calmRows = 0 := by
  rw [Gauge.r30, if_neg h108, if_neg h112]
  exact ⟨rfl, rfl⟩

/-- Settles O9: the boundary is the step of R30 on the live minimum, whose branches are those of the rule. -/
theorem provisionalRowSteps : Obligations.ProvisionalRowSteps := by
  unfold Obligations.ProvisionalRowSteps
  intro s hrun hprov
  refine ⟨_, exec_provisionalRowBoundary, rfl, ?_⟩
  rw [if_pos ⟨hrun, hprov⟩]
  let g := s.chip.gauge.advance (s.chip.gauge.rowStart + 25000)
  refine ⟨rfl, g.r30_rowNum _, g.r30_minPaceSnap _, rfl, rfl, ?rule⟩
  show if g.minPace * 100 < g.floor * 108 then (g.r30 g.minPace).vcore2 = min (g.vcore2 + 10) 1800 ∧ (g.r30 g.minPace).calmRows = 0
    else if g.floor * 112 ≤ g.minPace * 100 then
      if 8 ≤ g.calmRows + 1 then (g.r30 g.minPace).vcore2 = max (g.vcore2 - 5) (2 * g.vmin) ∧ (g.r30 g.minPace).calmRows = 0
      else (g.r30 g.minPace).vcore2 = g.vcore2 ∧ (g.r30 g.minPace).calmRows = g.calmRows + 1
    else (g.r30 g.minPace).vcore2 = g.vcore2 ∧ (g.r30 g.minPace).calmRows = 0
  split
  next h108 => exact Gauge.r30_raises h108
  next h108 =>
    split
    next h112 =>
      split
      next h8 => exact Gauge.r30_lowers h108 h112 h8
      next h8 => exact Gauge.r30_counts h108 h112 h8
    next h112 => exact Gauge.r30_rests h108 h112

/-! ### Holds -/

/-- Guarantee at risk asks the gauge's holds and the tension's account. -/
theorem Chip.gar_of_holdVoltage {c : Chip} (h : c.gauge.holdVoltage = true) : c.gar = true := by simp [Chip.gar, h]

theorem Chip.gar_of_holdCrystal {c : Chip} (h : c.gauge.holdCrystal = true) : c.gar = true := by simp [Chip.gar, h]

theorem Gauge.marginLate_of_missed {g : Gauge} (hmet : g.marginMet = false) (hrows : 64 ≤ g.startRows) : g.marginLate = true := by
  simp [Gauge.marginLate, hmet, hrows]

/-- Settles O10: each hold is set on the gauge, and the alarms raised then touch only their own parts. -/
theorem guaranteeHoldsAreSet : Obligations.GuaranteeHoldsAreSet := by
  unfold Obligations.GuaranteeHoldsAreSet
  refine ⟨fun s hmet hrows => ?margin, fun s => ?crystal⟩
  case margin =>
    have hgauge : s.chip.marginTimeout.gauge = { s.chip.gauge with holdVoltage := true, goodRows := 0 } := by
      have hlate := Gauge.marginLate_of_missed hmet hrows
      show { s.chip.gauge with holdVoltage := s.chip.gauge.holdVoltage || s.chip.gauge.marginLate
                               goodRows := if s.chip.gauge.marginLate then 0 else s.chip.gauge.goodRows } = _
      rw [hlate, Bool.or_true, if_pos rfl]
    exact ⟨_, exec_marginTimeout, hgauge, Chip.gar_of_holdVoltage (congrArg Gauge.holdVoltage hgauge), rfl⟩
  case crystal =>
    refine ⟨_, exec_crystalFail, rfl, Chip.gar_of_holdCrystal rfl, fun hfirst => ?_, rfl⟩
    have hraised : ((Chip.alarmIf { s.chip with gauge := { s.chip.gauge with crystalFail := true, holdCrystal := true } }
        (!s.chip.gauge.crystalFail) false .crystalFail 0 srcGar none 0 0 0).log.slot 0).first.isSome = true := by
      rw [hfirst]
      exact Chip.alarm_first _ _ _ _ _ _ _ _ _
    refine ⟨Chip.alarmIf_keeps_first _ _ _ _ _ _ _ _ _ _ hraised, Chip.alarmIf_keeps_alert _ _ _ _ _ _ _ _ _ _ ?_⟩
    rw [hfirst]
    rfl

end Sys2Proof.Machine
end

section
/-!
Host vectors: a message leaves where R316 lets it go, and a flush lets every one of them go that may (family 15, R316 to R319).
-/
namespace Sys2Proof.Machine

/-! ### Vector records -/

/-- A vector of a function, back from its key. -/
theorem vecKey_inj {fn v fn' v' : Nat} (hv : v < 2048) (hv' : v' < 2048) (h : vecKey fn v = vecKey fn' v') : fn = fn' ∧ v = v' := by
  unfold vecKey at h
  omega

theorem vecKey_div_mod (k : Nat) : vecKey (k / 2048) (k % 2048) = k := by
  unfold vecKey
  omega

theorem Evc.vec_updVec_other (e : Evc) {fn v fn' v' : Nat} (f : Vec → Vec) (h : vecKey fn' v' ≠ vecKey fn v) :
    (e.updVec fn v f).vec fn' v' = e.vec fn' v' :=
  Tbl.get_upd_other _ _ _ h

/-- A vector whose record is not the reset one is listed. -/
theorem Tbl.mem_keys_of_get_ne {α : Type} {d : α} {t : Tbl α} {k : Nat} (h : Tbl.get d t k ≠ d) : k ∈ t.map (fun e => e.1) := by
  induction t with
  | nil => exact absurd rfl h
  | cons e t ih =>
    obtain ⟨i, v⟩ := e
    rw [Tbl.get] at h
    by_cases hik : i = k
    · exact hik ▸ List.mem_cons_self
    · rw [if_neg hik] at h
      split at h
      next => exact absurd rfl h
      next => exact List.mem_cons_of_mem _ (ih h)

/-! ### Sending -/

theorem Evc.sends_of_not_req {e : Evc} {p : Pcie} {now fn : Nat} {x : Vec} (h : x.req = false) : e.sends p now fn x = false := by
  simp [Evc.sends, h]

/-- R316's conditions, one by one. -/
theorem Evc.sends_iff {e : Evc} {p : Pcie} {now fn : Nat} {x : Vec} :
    e.sends p now fn x = true ↔ x.req = true ∧ (x.timing now = false ∨ x.idle = true) ∧ e.disable = false ∧ (p.fn fn).msixEnable = true ∧
      (p.fn fn).funcMask = false ∧ x.masked = false ∧ (p.fn fn).bme = true := by
  simp only [Evc.sends, Evc.opened, Bool.and_eq_true, Bool.or_eq_true, Bool.not_eq_true', and_assoc]

theorem Evc.trySend_of_sends {e : Evc} {p : Pcie} {now fn v : Nat} (h : e.sends p now fn (e.vec fn v) = true) :
    (e.trySend p now fn v).vec fn v = (e.vec fn v).afterSend now (e.modOf fn (e.vec fn v)) ∧ (e.trySend p now fn v).msgs = (fn, v) :: e.msgs := by
  rw [Evc.trySend, if_pos h]
  exact ⟨Evc.vec_updVec_same e fn v (fun x => x.afterSend now (e.modOf fn x)), rfl⟩

theorem Evc.trySend_of_not_sends {e : Evc} {p : Pcie} {now fn v : Nat} (h : e.sends p now fn (e.vec fn v) = false) : e.trySend p now fn v = e := by
  rw [Evc.trySend, h, if_neg Bool.false_ne_true]

/-- The parts of the block that sending a message leaves alone. -/
theorem Evc.trySend_frame (e : Evc) (p : Pcie) (now fn v : Nat) :
    e.trySend p now fn v = { e with vecs := (e.trySend p now fn v).vecs, sent := (e.trySend p now fn v).sent, msgs := (e.trySend p now fn v).msgs } := by
  unfold Evc.trySend
  split <;> rfl

theorem Evc.trySend_other (e : Evc) (p : Pcie) (now : Nat) {fn v fn' v' : Nat} (h : vecKey fn' v' ≠ vecKey fn v) :
    (e.trySend p now fn v).vec fn' v' = e.vec fn' v' := by
  unfold Evc.trySend
  split
  next => exact Evc.vec_updVec_other e (fun x => x.afterSend now (e.modOf fn x)) h
  next => rfl

theorem Evc.msgs_trySend (e : Evc) (p : Pcie) (now fn v : Nat) : e.msgs ⊆ (e.trySend p now fn v).msgs := by
  unfold Evc.trySend
  split
  next => exact List.subset_cons_self _ _
  next => exact List.Subset.refl _

theorem Evc.masked_trySend (e : Evc) (p : Pcie) (now fn v : Nat) : ((e.trySend p now fn v).vec fn v).masked = (e.vec fn v).masked := by
  cases h : e.sends p now fn (e.vec fn v) with
  | true => rw [(Evc.trySend_of_sends h).1]; rfl
  | false => rw [Evc.trySend_of_not_sends h]

/-- What R316 asks of a vector is the same on the block after another vector's turn. -/
theorem Evc.sends_trySend (e : Evc) (p : Pcie) (now fn v fn' : Nat) (x : Vec) : (e.trySend p now fn v).sends p now fn' x = e.sends p now fn' x := by
  rw [Evc.trySend_frame]
  rfl

theorem Evc.modOf_trySend (e : Evc) (p : Pcie) (now fn v fn' : Nat) (x : Vec) : (e.trySend p now fn v).modOf fn' x = e.modOf fn' x := by
  rw [Evc.trySend_frame]
  rfl

/-! ### Flushing -/

/-- The turn of one vector, by its key, in a flush of the vectors of some functions. -/
def Evc.turn (p : Pcie) (now : Nat) (which : Nat → Bool) (e : Evc) (k : Nat) : Evc :=
  if which (k / 2048) then e.trySend p now (k / 2048) (k % 2048) else e

theorem Evc.flush_eq_foldl (e : Evc) (p : Pcie) (now : Nat) (which : Nat → Bool) :
    e.flush p now which = (e.vecs.map (fun x => x.1)).foldl (Evc.turn p now which) e := rfl

section turns
variable {p : Pcie} {now : Nat} {which : Nat → Bool}

theorem Evc.foldl_turn_frame (l : List Nat) (e : Evc) :
    l.foldl (Evc.turn p now which) e = { e with
      vecs := (l.foldl (Evc.turn p now which) e).vecs, sent := (l.foldl (Evc.turn p now which) e).sent, msgs := (l.foldl (Evc.turn p now which) e).msgs } := by
  induction l generalizing e with
  | nil => rfl
  | cons k l ih =>
    rw [List.foldl_cons, ih]
    unfold Evc.turn
    split
    next => rw [Evc.trySend_frame]
    next => rfl

theorem Evc.msgs_foldl_turn (l : List Nat) (e : Evc) : e.msgs ⊆ (l.foldl (Evc.turn p now which) e).msgs := by
  induction l generalizing e with
  | nil => exact List.Subset.refl _
  | cons k l ih =>
    refine List.Subset.trans ?_ (ih _)
    unfold Evc.turn
    split
    next => exact Evc.msgs_trySend _ _ _ _ _
    next => exact List.Subset.refl _

/-- A vector that may not send keeps its record, whatever turns are taken. -/
theorem Evc.foldl_turn_of_not_sends {fn v : Nat} (l : List Nat) {e : Evc} (h : which fn = false ∨ e.sends p now fn (e.vec fn v) = false)
    (hv : v < 2048) : (l.foldl (Evc.turn p now which) e).vec fn v = e.vec fn v := by
  induction l generalizing e with
  | nil => rfl
  | cons k l ih =>
    have hturn : (Evc.turn p now which e k).vec fn v = e.vec fn v := by
      unfold Evc.turn
      split
      next hk =>
        by_cases hkey : vecKey fn v = vecKey (k / 2048) (k % 2048)
        · obtain ⟨rfl, rfl⟩ := vecKey_inj hv (Nat.mod_lt _ (by decide)) hkey
          rw [Evc.trySend_of_not_sends (h.resolve_left (by rw [hk]; decide))]
        · exact Evc.trySend_other _ _ _ hkey
      next => rfl
    have hstill : which fn = false ∨ (Evc.turn p now which e k).sends p now fn ((Evc.turn p now which e k).vec fn v) = false := by
      rw [hturn]
      unfold Evc.turn
      split
      next => exact h.imp_right fun h => (Evc.sends_trySend ..).trans h
      next => exact h
    rw [List.foldl_cons, ih hstill, hturn]

/-- A vector that may send does so at its turn, and has no request left afterwards. -/
theorem Evc.foldl_turn_of_sends {fn v : Nat} {l : List Nat} {e : Evc} (hmem : vecKey fn v ∈ l) (hw : which fn = true)
    (h : e.sends p now fn (e.vec fn v) = true) (hv : v < 2048) :
    ((l.foldl (Evc.turn p now which) e).vec fn v).req = false ∧ (fn, v) ∈ (l.foldl (Evc.turn p now which) e).msgs := by
  induction l generalizing e with
  | nil => cases hmem
  | cons k l ih =>
    rw [List.foldl_cons]
    by_cases hkey : vecKey fn v = vecKey (k / 2048) (k % 2048)
    · obtain ⟨rfl, rfl⟩ := vecKey_inj hv (Nat.mod_lt _ (by decide)) hkey
      obtain ⟨hvec, hmsgs⟩ := Evc.trySend_of_sends h
      have hturn : Evc.turn p now which e k = e.trySend p now (k / 2048) (k % 2048) := if_pos hw
      have hreq : ((e.trySend p now (k / 2048) (k % 2048)).vec (k / 2048) (k % 2048)).req = false := by rw [hvec]; rfl
      rw [hturn]
      refine ⟨?_, Evc.msgs_foldl_turn _ _ (hmsgs ▸ List.mem_cons_self)⟩
      rw [Evc.foldl_turn_of_not_sends _ (.inr (Evc.sends_of_not_req hreq)) hv, hreq]
    · have hvec : (Evc.turn p now which e k).vec fn v = e.vec fn v := by
        unfold Evc.turn
        split
        next => exact Evc.trySend_other _ _ _ hkey
        next => rfl
      refine ih (List.mem_of_ne_of_mem (fun hk => hkey (hk.trans (vecKey_div_mod k).symm)) hmem) ?_
      rw [hvec]
      unfold Evc.turn
      split
      next => rw [Evc.sends_trySend]; exact h
      next => exact h

end turns

theorem Evc.flush_frame (e : Evc) (p : Pcie) (now : Nat) (which : Nat → Bool) :
    e.flush p now which = { e with vecs := (e.flush p now which).vecs, sent := (e.flush p now which).sent, msgs := (e.flush p now which).msgs } :=
  Evc.foldl_turn_frame _ _

theorem Evc.flush_of_not_sends {e : Evc} {p : Pcie} {now : Nat} {which : Nat → Bool} {fn v : Nat} (hv : v < 2048)
    (h : which fn = false ∨ e.sends p now fn (e.vec fn v) = false) : (e.flush p now which).vec fn v = e.vec fn v :=
  Evc.foldl_turn_of_not_sends _ h hv

theorem Evc.flush_of_sends {e : Evc} {p : Pcie} {now : Nat} {which : Nat → Bool} {fn v : Nat} (hv : v < 2048) (hw : which fn = true)
    (h : e.sends p now fn (e.vec fn v) = true) : ((e.flush p now which).vec fn v).req = false ∧ (fn, v) ∈ (e.flush p now which).msgs := by
  refine Evc.foldl_turn_of_sends (Tbl.mem_keys_of_get_ne (d := ({} : Vec)) fun hd => ?_) hw h hv
  have hreq : (e.vec fn v).req = true := (Evc.sends_iff.1 h).1
  rw [Evc.vec, hd] at hreq
  cases hreq

/-- A mask stands through a flush. -/
theorem Evc.masked_flush (e : Evc) (p : Pcie) (now : Nat) (which : Nat → Bool) {fn v : Nat} :
    ((e.flush p now which).vec fn v).masked = (e.vec fn v).masked := by
  rw [Evc.flush_eq_foldl]
  generalize e.vecs.map (fun x => x.1) = l
  induction l generalizing e with
  | nil => rfl
  | cons k l ih =>
    rw [List.foldl_cons, ih]
    unfold Evc.turn
    split
    next =>
      by_cases hkey : vecKey fn v = vecKey (k / 2048) (k % 2048)
      · have hsame : ∀ d : Evc, d.vec fn v = d.vec (k / 2048) (k % 2048) := fun d => congrArg (Tbl.get ({} : Vec) d.vecs) hkey
        rw [hsame, hsame, Evc.masked_trySend]
      · rw [Evc.trySend_other _ _ _ hkey]
    next => rfl

/-- No message leaves while EVC_CTRL.DISABLE stands (R319). -/
theorem Evc.flush_of_disabled {e : Evc} (h : e.disable = true) (p : Pcie) (now : Nat) (which : Nat → Bool) : e.flush p now which = e := by
  rw [Evc.flush_eq_foldl]
  generalize e.vecs.map (fun x => x.1) = l
  induction l with
  | nil => rfl
  | cons k l ih =>
    have hturn : Evc.turn p now which e k = e := by
      unfold Evc.turn
      split
      next => exact Evc.trySend_of_not_sends (by simp [Evc.sends, Evc.opened, h])
      next => rfl
    rw [List.foldl_cons, hturn, ih]

/-! ### The commands -/

theorem Evc.srcs_flush (e : Evc) (p : Pcie) (now : Nat) (which : Nat → Bool) : (e.flush p now which).srcs = e.srcs := by
  rw [Evc.flush_frame]

theorem Evc.disable_flush (e : Evc) (p : Pcie) (now : Nat) (which : Nat → Bool) : (e.flush p now which).disable = e.disable := by
  rw [Evc.flush_frame]

theorem Evc.srcs_trySend (e : Evc) (p : Pcie) (now fn v : Nat) : (e.trySend p now fn v).srcs = e.srcs := Evc.trySend_srcs _ _ _ _ _

/-- A vector without a running timer, or with the hint, sends where nothing masks it. -/
theorem Evc.sends_iff_of_not_held {e : Evc} {p : Pcie} {now fn : Nat} {x : Vec} (h : x.timing now = false ∨ x.idle = true) :
    e.sends p now fn x = true ↔ x.req = true ∧ e.disable = false ∧ (p.fn fn).msixEnable = true ∧ (p.fn fn).funcMask = false ∧ x.masked = false ∧
      (p.fn fn).bme = true := by
  rw [Evc.sends_iff]
  constructor
  · grind
  · grind

theorem Chip.moderationExpire_of_timer {c : Chip} {fn v d : Nat} (h : (c.evc.vec fn v).timer = some d) (hle : c.gauge.time ≤ d) (hlt : d < 2 ^ 64) :
    c.moderationExpire fn v = { c with
      gauge := { c.gauge with time := d }
      evc := (c.evc.updVec fn v (fun x => { x with timer := none })).trySend c.pcie d fn v } := by
  simp only [Chip.moderationExpire, h, Chip.advance, Gauge.advance_of_le hle hlt]
  rfl

/-- Settles O14: the hint, the timer's end and the unmasking each change the vector's record, after which R316 decides. -/
theorem vectorsSendOrHoldMessages : Obligations.VectorsSendOrHoldMessages := by
  unfold Obligations.VectorsSendOrHoldMessages
  refine ⟨⟨fun s v hv => ?idle, fun s fn v d htimer hle hlt => ?timer, fun s fn v hv => ?unmask⟩, fun s => ?disable, fun s => ?enable⟩
  case idle =>
    refine ⟨_, exec_idleHint, ?_⟩
    rw [Nat.mod_eq_of_lt hv]
    refine ⟨rfl, Evc.srcs_trySend _ _ _ _ _, ?_⟩
    let e := s.chip.evc.updVec 0 v (fun x => { x with idle := true })
    have hvec : e.vec 0 v = { s.chip.evc.vec 0 v with idle := true } := Evc.vec_updVec_same _ _ _ _
    have hsends : e.sends s.chip.pcie s.chip.now 0 (e.vec 0 v) = true ↔ _ := Evc.sends_iff_of_not_held (.inr (by rw [hvec]))
    rw [hvec] at hsends
    simp only
    split
    next h =>
      obtain ⟨hv', hm⟩ := Evc.trySend_of_sends (hvec ▸ hsends.2 h)
      exact ⟨congrArg Vec.req hv', congrArg Vec.idle hv', hm⟩
    next h =>
      have hno : e.sends s.chip.pcie s.chip.now 0 (e.vec 0 v) = false := by
        rw [hvec]
        exact Bool.eq_false_iff.2 (mt hsends.1 h)
      rw [show (s.chip.idleHint v).evc = e from Evc.trySend_of_not_sends hno]
      exact ⟨hvec, rfl⟩
  case timer =>
    refine ⟨_, exec_moderationTimerExpire, ?_⟩
    rw [Chip.moderationExpire_of_timer htimer hle hlt]
    refine ⟨rfl, Evc.srcs_trySend _ _ _ _ _, ?_⟩
    let e := s.chip.evc.updVec fn v (fun x => { x with timer := none })
    have hvec : e.vec fn v = { s.chip.evc.vec fn v with timer := none } := Evc.vec_updVec_same _ _ _ _
    have hsends : e.sends s.chip.pcie d fn (e.vec fn v) = true ↔ _ := Evc.sends_iff_of_not_held (.inl (by rw [hvec]; rfl))
    rw [hvec] at hsends
    simp only
    split
    next h =>
      obtain ⟨hv', hm⟩ := Evc.trySend_of_sends (hvec ▸ hsends.2 h)
      exact ⟨congrArg Vec.req hv', hm, (congrArg Vec.timer hv').trans (by rw [hvec]; rfl)⟩
    next h =>
      have hno : e.sends s.chip.pcie d fn (e.vec fn v) = false := by
        rw [hvec]
        exact Bool.eq_false_iff.2 (mt hsends.1 h)
      rw [show e.trySend s.chip.pcie d fn v = e from Evc.trySend_of_not_sends hno]
      exact ⟨hvec, rfl⟩
  case unmask =>
    refine ⟨_, exec_vectorUnmask, rfl, Evc.srcs_flush _ _ _ _, ?_⟩
    let e := s.chip.evc.updVec fn v (fun x => { x with masked := false })
    let p := s.chip.pcie.updFn fn (fun f => { f with msixEnable := true, funcMask := false })
    have hvec : e.vec fn v = { s.chip.evc.vec fn v with masked := false } := Evc.vec_updVec_same _ _ _ _
    have hfn : p.fn fn = { s.chip.pcie.fn fn with msixEnable := true, funcMask := false } := Pcie.fn_updFn_same _ _ _
    refine ⟨congrArg Fun.msixEnable hfn, congrArg Fun.funcMask hfn, ?_, fun hreq hdis hbme hheld => ?_⟩
    · exact (Evc.masked_flush e p _ _).trans (by rw [hvec])
    · refine Evc.flush_of_sends (e := e) (p := p) hv (beq_self_eq_true _) (Evc.sends_iff.2 ?_)
      rw [hvec, hfn]
      exact ⟨hreq, hheld, hdis, rfl, rfl, rfl, hbme⟩
  case disable =>
    rw [exec_evcDisable, execEvcDisable, Chip.evcDisable, Evc.flush_of_disabled rfl]
  case enable =>
    refine ⟨_, exec_evcDisable, rfl, Evc.disable_flush _ _ _ _, Evc.srcs_flush _ _ _ _, fun fn v hv => ?_⟩
    let e : Evc := { s.chip.evc with disable := false }
    have hsends : e.sends s.chip.pcie s.chip.now fn (e.vec fn v) = true ↔ _ := Evc.sends_iff
    simp only
    split
    next h =>
      obtain ⟨hreq, hheld, hrest⟩ := h
      exact Evc.flush_of_sends (e := e) hv rfl (hsends.2 ⟨hreq, hheld, rfl, hrest⟩)
    next h =>
      refine Evc.flush_of_not_sends (e := e) hv (.inr (Bool.eq_false_iff.2 fun hs => h ?_))
      obtain ⟨hreq, hheld, -, hrest⟩ := hsends.1 hs
      exact ⟨hreq, hheld, hrest⟩

end Sys2Proof.Machine
end

section
/-!
Power samples (R326, R327, R332), thermal readings (R328, R329) and the rungs Hush and Doze (R337, R338), family 16.
-/
namespace Sys2Proof.Machine

/-! ### Power samples -/

theorem Tens.sample_of_bad {t : Tens} {mw mv : Nat} (h : 450000 < mw ∨ mv < 30000 ∨ 70000 < mv) :
    t.sample mw mv = { t with sampleBad := t.sampleBad + 1 } := by
  have hbad : badSample mw mv = true := by simpa [badSample, or_assoc] using h
  rw [Tens.sample, if_pos hbad]

theorem badSample_eq_false {mw mv : Nat} (hmw : mw ≤ 450000) (hlo : 30000 ≤ mv) (hhi : mv ≤ 70000) : badSample mw mv = false := by
  simp [badSample, hmw, hlo, hhi]

/-- A plausible sample within the cap. -/
theorem Tens.sample_of_below {t : Tens} {mw mv : Nat} (hmw : mw ≤ 450000) (hlo : 30000 ≤ mv) (hhi : mv ≤ 70000) (hcap : mw ≤ t.capEff * 110) :
    t.sample mw mv = { t with
      sampleSum := t.sampleSum + mw, sampleOk := t.sampleOk + 1, meas := (t.sampleSum + mw) / (t.sampleOk + 1) / 100
      vin := mv, vinRange := vinOut mv } := by
  have hcuts : t.cuts mw = false := by simp [Tens.cuts, hcap]
  rw [Tens.sample, badSample_eq_false hmw hlo hhi, hcuts]
  simp

/-- A plausible sample above 1.1 × cap_eff. -/
theorem Tens.sample_of_above {t : Tens} {mw mv : Nat} (hmw : mw ≤ 450000) (hlo : 30000 ≤ mv) (hhi : mv ≤ 70000) (hcap : t.capEff * 110 < mw) :
    t.sample mw mv = { t with
      sampleSum := t.sampleSum + mw, sampleOk := t.sampleOk + 1, meas := (t.sampleSum + mw) / (t.sampleOk + 1) / 100
      vin := mv, vinRange := vinOut mv, rateB := 1, shedding := true, fastCut := t.fastCut.inc } := by
  have hcuts : t.cuts mw = true := by simp [Tens.cuts, hcap]
  rw [Tens.sample, badSample_eq_false hmw hlo hhi, hcuts]
  simp

theorem vinOut_eq_false {mv : Nat} (hlo : 40000 ≤ mv) (hhi : mv ≤ 60000) : vinOut mv = false := by
  simp [vinOut, hlo, hhi]

theorem vinOut_eq_true {mv : Nat} (h : mv < 40000 ∨ 60000 < mv) : vinOut mv = true := by
  simpa [vinOut] using h

/-- A sample after which the input voltage is in range raises no alarm. -/
theorem Chip.powerSample_of_inRange {c : Chip} {mw mv : Nat} (h : (c.tens.sample mw mv).vinRange = false ∨ c.tens.vinRange = true) :
    c.powerSample mw mv = { c with tens := c.tens.sample mw mv } := by
  have hrise : ((c.tens.sample mw mv).vinRange && !c.tens.vinRange) = false := by
    obtain h | h := h <;> simp [h]
  rw [Chip.powerSample]
  simp only [hrise]
  exact Chip.alarmIf_false _ _ _ _ _ _ _ _ _

theorem Chip.powerSample_tens (c : Chip) (mw mv : Nat) : (c.powerSample mw mv).tens = c.tens.sample mw mv := rfl

/-- A sample that neither cuts the rate nor starts shedding ends with the sample taken in. -/
theorem powerSample_of_steady {c : Chip × Mem} {mw mv : Nat} (hrate : (c.1.tens.sample mw mv).rateB = c.1.tens.rateB)
    (hshed : (c.1.tens.sample mw mv).shedding = c.1.tens.shedding) : powerSample mw mv c = (c.1.powerSample mw mv, c.2) := by
  have hstart : ((c.1.powerSample mw mv).tens.shedding && !c.1.tens.shedding) = false := by
    rw [Chip.powerSample_tens, hshed]
    exact Bool.and_not_self _
  have hrate' : (c.1.powerSample mw mv).tens.rateB = c.1.tens.rateB := hrate
  simp only [powerSample, if_pos hrate', hstart, if_neg Bool.false_ne_true]

/-- A sample while work is shed already ends with what is in flight at the new rate. -/
theorem powerSample_of_shedding {c : Chip × Mem} {mw mv : Nat} (h : c.1.tens.shedding = true) :
    powerSample mw mv c =
      (if (c.1.powerSample mw mv).tens.rateB = c.1.tens.rateB then c.1.powerSample mw mv else (c.1.powerSample mw mv).meetRates, c.2) := by
  simp only [powerSample, h, Bool.not_true, Bool.and_false, if_neg Bool.false_ne_true]

/-- A sample leaves the tension that it sets, but for the count of shed frames, and the gauge, the rung and the pattern. -/
theorem powerSample_keeps_quiet (mw mv : Nat) (c : Chip × Mem) : Safety.quiet (powerSample mw mv c).1 = Safety.quiet (c.1.powerSample mw mv) := by
  have hmet : Safety.quiet (c.1.powerSample mw mv).meetRates = Safety.quiet (c.1.powerSample mw mv) := Chip.meetRates_quiet _ rfl
  unfold powerSample
  dsimp only
  split
  next =>
    split
    next => exact progressEach_quiet _ rfl
    next => rfl
  next =>
    split
    next => exact progressEach_quiet _ hmet
    next => exact hmet

/-- What is in flight meets the rates on the needles alone. -/
theorem Chip.meetRates_frame (c : Chip) : c.meetRates = { c with ndl := c.meetRates.ndl } := rfl

/-- Settles O18: each kind of sample by its equation; streams brought up to date keep the tension set. -/
theorem powerSamplesAreTaken : Obligations.PowerSamplesAreTaken := by
  unfold Obligations.PowerSamplesAreTaken
  refine ⟨fun s mw mv hbad => ?bad, fun s mw mv hmw hlo hhi hcap => ?below, fun s mw mv hmw hv hcap hrange => ?range,
    fun s mw mv hmw hlo hhi hcap hshed => ?shedding, fun s mw mv hmw hlo hhi hcap => ?cut⟩
  case bad =>
    have hsample := Tens.sample_of_bad (t := s.chip.tens) hbad
    have hsteady := powerSample_of_steady (c := (s.chip, s.mem)) (mw := mw) (mv := mv) (by rw [hsample]) (by rw [hsample])
    have hchip := Chip.powerSample_of_inRange (c := s.chip) (mw := mw) (mv := mv)
      (by rw [hsample]; cases s.chip.tens.vinRange <;> simp)
    rw [exec_powerSample, execPowerSample, hsteady, hchip, hsample]
  case below =>
    have hsample := Tens.sample_of_below (t := s.chip.tens) hmw (Nat.le_trans (by decide) hlo) (Nat.le_trans hhi (by decide)) hcap
    rw [vinOut_eq_false hlo hhi] at hsample
    have hsteady := powerSample_of_steady (c := (s.chip, s.mem)) (mw := mw) (mv := mv) (by rw [hsample]) (by rw [hsample])
    have hchip := Chip.powerSample_of_inRange (c := s.chip) (mw := mw) (mv := mv) (.inl (by rw [hsample]))
    rw [exec_powerSample, execPowerSample, hsteady, hchip, hsample]
  case range =>
    have hsample := Tens.sample_of_below (t := s.chip.tens) (mw := mw) (mv := mv) hmw (by omega) (by omega) hcap
    rw [vinOut_eq_true (by omega)] at hsample
    have hsteady := powerSample_of_steady (c := (s.chip, s.mem)) (mw := mw) (mv := mv) (by rw [hsample]) (by rw [hsample])
    have hraised : s.chip.powerSample mw mv =
        Chip.alarm { s.chip with tens := s.chip.tens.sample mw mv } true .vinRange 21 324 none 0 0 0 := by
      have hrise : ((s.chip.tens.sample mw mv).vinRange && !s.chip.tens.vinRange) = true := by rw [hsample, hrange]; rfl
      rw [Chip.powerSample]
      simp only [hrise]
      exact Chip.alarmIf_true _ _ _ _ _ _ _ _ _
    refine ⟨_, exec_powerSample, ?_⟩
    rw [hsteady, hraised]
    exact ⟨(congrArg Tens.vinRange hsample :), (congrArg Tens.vin hsample :), Chip.alarm_first _ _ _ _ _ _ _ _ _, rfl, rfl⟩
  case shedding =>
    have hsample := Tens.sample_of_above (t := s.chip.tens) hmw (Nat.le_trans (by decide) hlo) (Nat.le_trans hhi (by decide)) hcap
    rw [vinOut_eq_false hlo hhi] at hsample
    have hchip := Chip.powerSample_of_inRange (c := s.chip) (mw := mw) (mv := mv) (.inl (by rw [hsample]))
    have hset : (s.chip.tens.sample mw mv).rateB = 1 ∧ (s.chip.tens.sample mw mv).shedding = true ∧
        (s.chip.tens.sample mw mv).rateG = s.chip.tens.rateG ∧ (s.chip.tens.sample mw mv).fastCut = s.chip.tens.fastCut.inc := by
      rw [hsample]
      exact ⟨rfl, rfl, rfl, rfl⟩
    refine ⟨_, exec_powerSample, ?_⟩
    rw [powerSample_of_shedding (c := (s.chip, s.mem)) hshed]
    simp only [hchip]
    by_cases hone : s.chip.tens.rateB = 1
    · rw [if_pos (hset.1.trans hone.symm), if_pos hone]
      exact ⟨rfl, hset⟩
    · rw [if_neg (fun hsame => hone (hsame.symm.trans hset.1)), if_neg hone]
      exact ⟨rfl, hset⟩
  case cut =>
    have hsample := Tens.sample_of_above (t := s.chip.tens) hmw (Nat.le_trans (by decide) hlo) (Nat.le_trans hhi (by decide)) hcap
    have hquiet := powerSample_keeps_quiet mw mv (s.chip, s.mem)
    simp only [Safety.quiet, Prod.mk.injEq] at hquiet
    obtain ⟨⟨hgauge, hrung, hpat, -, htens⟩, -⟩ := hquiet
    exact ⟨_, exec_powerSample, (congrArg Tens.rateB htens).trans (congrArg Tens.rateB hsample),
      (congrArg Tens.shedding htens).trans (congrArg Tens.shedding hsample), (congrArg Tens.fastCut htens).trans (congrArg Tens.fastCut hsample),
      hgauge, hrung, hpat⟩

end Sys2Proof.Machine
end

section
/-!
Thermal readings (R328, R329) and the rungs Hush and Doze (R337, R338), family 16.
-/
namespace Sys2Proof.Machine

/-! ### Thermal readings -/

theorem List.snoc_induction {α : Type} {motive : List α → Prop} (nil : motive []) (append_singleton : ∀ l x, motive l → motive (l ++ [x])) (l : List α) : motive l := by
  rw [← l.reverse_reverse]
  generalize l.reverse = r
  induction r with
  | nil => exact nil
  | cons x r ih =>
    rw [List.reverse_cons]
    exact append_singleton _ x ih

/-- Each sensor read takes its own reading. -/
theorem Tens.sensor_readTemps (t : Tens) (temps : List Int) (k : Nat) :
    (t.readTemps temps).sensor k = if h : k < temps.length then (t.sensor k).read temps[k] else t.sensor k := by
  unfold Tens.readTemps Tens.sensor
  dsimp only
  induction temps using List.snoc_induction with
  | nil => rfl
  | append_singleton temps x ih =>
    have hzip : (List.range (temps ++ [x]).length).zip (temps ++ [x]) = (List.range temps.length).zip temps ++ [(temps.length, x)] := by
      rw [List.length_append, List.length_singleton, List.range_succ, List.zip_append List.length_range]
      rfl
    have hlen : (temps ++ [x]).length = temps.length + 1 := by simp
    rw [hzip, List.foldl_append, List.foldl_cons, List.foldl_nil]
    by_cases hk : k = temps.length
    · subst hk
      rw [Tbl.get_upd_same, ih, dif_neg (Nat.lt_irrefl _), dif_pos (by omega), List.getElem_concat_length rfl]
    · rw [Tbl.get_upd_other _ _ _ hk, ih]
      by_cases hlt : k < temps.length
      · rw [dif_pos hlt, dif_pos (by omega), List.getElem_append_left hlt]
      · rw [dif_neg hlt, dif_neg (by omega)]

theorem Sensor.read_of_retired {x : Sensor} (h : x.retired = true) (r : Int) : x.read r = x := if_pos h

theorem Sensor.read_of_bad {x : Sensor} {r : Int} (h : x.retired = false) (hr : r < -160 ∨ 600 < r) :
    x.read r = { x with ignored := x.ignored + 1, retired := decide (16 ≤ x.ignored + 1) } := by
  have hbad : tempBad r = true := by simpa [tempBad] using hr
  rw [Sensor.read, h, if_neg Bool.false_ne_true, if_pos hbad]

theorem tempBad_eq_false {r : Int} (h : ¬ (r < -160 ∨ 600 < r)) : tempBad r = false := by
  simpa [tempBad] using h

theorem Sensor.read_of_good {x : Sensor} {r : Int} (h : x.retired = false) (hr : tempBad r = false) :
    x.read r = { x with temp := r, ignored := 0 } := by
  rw [Sensor.read, h, hr, if_neg Bool.false_ne_true, if_neg Bool.false_ne_true]

/-- A reading that a sensor takes is among the valid ones. -/
theorem Tens.mem_valid {t : Tens} {temps : List Int} {k : Nat} (hk : k < temps.length) (hret : (t.sensor k).retired = false)
    (hgood : tempBad temps[k] = false) : temps[k] ∈ t.valid temps := by
  refine List.mem_filterMap.mpr ⟨(k, temps[k]), ?_, by simp [hret, hgood]⟩
  refine List.mem_iff_getElem.mpr ⟨k, by simpa using hk, by simp⟩

/-- The running maximum Tj. -/
def tjMax (a : Option Int) (x : Int) : Option Int := some (match a with | none => x | some y => max x y)

theorem tjMax_ge (a : Option Int) (x : Int) : ∃ j, tjMax a x = some j ∧ x ≤ j ∧ ∀ y, a = some y → y ≤ j := by
  cases a with
  | none => exact ⟨x, rfl, Int.le_refl _, fun y h => nomatch h⟩
  | some z => exact ⟨max x z, rfl, Int.le_max_left _ _, fun y h => Option.some.inj h ▸ Int.le_max_right _ _⟩

/-- The running maximum is at least what it began with and each reading. -/
theorem foldl_tjMax_ge (l : List Int) (a : Option Int) (x : Int) (h : x ∈ l ∨ a = some x) : ∃ j, l.foldl tjMax a = some j ∧ x ≤ j := by
  induction l generalizing a x with
  | nil => exact ⟨x, h.resolve_left List.not_mem_nil, Int.le_refl _⟩
  | cons y l ih =>
    obtain ⟨j, hj, hyj, hge⟩ := tjMax_ge a y
    have hstart : ∀ z, z ≤ j → ∃ m, (y :: l).foldl tjMax a = some m ∧ z ≤ m := by
      intro z hz
      obtain ⟨m, hm, hjm⟩ := ih (tjMax a y) j (.inr hj)
      exact ⟨m, hm, Int.le_trans hz hjm⟩
    obtain h | h := h
    · obtain rfl | h := List.mem_cons.mp h
      · exact hstart x hyj
      · exact ih (tjMax a y) x (.inl h)
    · exact hstart x (hge x h)

theorem Tens.tj_readTemps (t : Tens) (temps : List Int) : (t.readTemps temps).tj = (t.valid temps).foldl tjMax t.tj := rfl

/-- A reading changes the sensors and Tj alone, but for alarm 23. -/
theorem Chip.thermalReading_frame (c : Chip) (temps : List Int) :
    c.thermalReading temps = { c with
      tens := { c.tens with sensors := (c.tens.readTemps temps).sensors, tj := (c.tens.readTemps temps).tj }
      log := (c.thermalReading temps).log, evc := (c.thermalReading temps).evc, rnd := (c.thermalReading temps).rnd
      pins := (c.thermalReading temps).pins } := by
  rw [Chip.thermalReading]
  cases !(c.tens.retiring temps).isEmpty with
  | false => rfl
  | true => rfl

/-- A power cycle where none is asked for ends in its alarm, on a chip whose request stands. -/
theorem powerCycle_of_unasked {c : Chip × Mem} (h : c.1.rst.trayReq = false) (cause engine : Nat) :
    ∃ f : Chip, (powerCycle cause engine c).1 =
      Chip.alarm { f with rst := { f.rst with trayReq := true, warmPending := false } } true .powerCycle 35 391 none 0 cause engine := by
  unfold powerCycle
  rw [h, if_neg Bool.false_ne_true]
  exact ⟨_, rfl⟩

/-- Settles O19: each sensor takes its reading, Tj is at least each valid one, and a Trip reading ends in a power-cycle request. -/
theorem thermalReadingsActOnTheChip : Obligations.ThermalReadingsActOnTheChip := by
  unfold Obligations.ThermalReadingsActOnTheChip
  refine ⟨fun s temps hlen htrip => ?read, fun s temps hlen htrip hreq => ?trip⟩
  case read =>
    have hstep : thermalReading (temps.take 32) (s.chip, s.mem) = (s.chip.thermalReading temps, s.mem) := by
      simp only [thermalReading, List.take_of_length_le hlen, htrip, if_neg Bool.false_ne_true]
    have hsensor : ∀ k, (s.chip.thermalReading temps).tens.sensor k =
        if h : k < temps.length then (s.chip.tens.sensor k).read temps[k] else s.chip.tens.sensor k := by
      intro k
      rw [Chip.thermalReading_frame]
      exact Tens.sensor_readTemps s.chip.tens temps k
    refine ⟨{ s with chip := s.chip.thermalReading temps }, by rw [exec_thermalReading, execThermalReading, hstep],
      congrArg (fun d : Chip => ({ s with chip := d } : State)) (Chip.thermalReading_frame s.chip temps),
      fun k hk => (hsensor k).trans (dif_neg (by omega)), fun k hk => ?_⟩
    have hread := (hsensor k).trans (dif_pos hk)
    dsimp only
    by_cases hret : (s.chip.tens.sensor k).retired = true
    · rw [if_pos hret, hread, Sensor.read_of_retired hret]
    · rw [if_neg hret]
      have hret' : (s.chip.tens.sensor k).retired = false := Bool.eq_false_iff.mpr hret
      by_cases hbad : temps[k] < -160 ∨ 600 < temps[k]
      · rw [if_pos hbad, hread, Sensor.read_of_bad hret' hbad]
      · rw [if_neg hbad, hread, Sensor.read_of_good hret' (tempBad_eq_false hbad)]
        obtain ⟨j, hj, hle⟩ := foldl_tjMax_ge (s.chip.tens.valid temps) s.chip.tens.tj temps[k]
          (.inl (Tens.mem_valid hk hret' (tempBad_eq_false hbad)))
        refine ⟨rfl, j, ?_, hle⟩
        rw [Chip.thermalReading_frame]
        exact hj
  case trip =>
    obtain ⟨f, hf⟩ := powerCycle_of_unasked (c := ((s.chip.thermalReading temps).alarm true .thermalTrip 20 323 none 0 0 0, s.mem))
      (by rw [Chip.thermalReading_frame]; exact hreq) 11 0xFF
    refine ⟨_, exec_thermalReading, ?_⟩
    simp only [thermalReading, List.take_of_length_le hlen, htrip, if_pos]
    rw [hf]
    exact ⟨rfl, Chip.alarm_first _ _ _ _ _ _ _ _ _⟩

/-! ### Rungs -/

theorem Chip.hushable_iff (c : Chip) : c.hushable = true ↔ c.rung.rung = .run ∧ 1 ≤ c.rung.limit ∧ c.idle = true := by
  simp [Chip.hushable, and_assoc]

theorem Chip.dozeable_iff (c : Chip) :
    c.dozeable = true ↔ c.rung.rung = .hush ∧ 2 ≤ c.rung.limit ∧ c.idle = true ∧ c.guaranteedLive = false := by
  simp [Chip.dozeable, and_assoc]

/-- An event on a source that is not reserved leaves it pending. -/
theorem Evc.edge_pending {k : Nat} (hk : reservedSource k = false) (p : Pcie) (now : Nat) (e : Evc) : ((e.edge p now k).src k).pending = true := by
  rw [Evc.src_edge_same hk]
  cases h : (e.src k).pending with
  | true => rw [Src.edge_of_pending h]; exact h
  | false => rw [Src.edge_of_clear h]

/-- Hush leaves HBM as it refreshes itself. -/
theorem Chip.enterRung_hush (c : Chip) : c.enterRung .hush =
    { c with rung := { c.rung.enter c.now .hush with vcoreKept := c.gauge.vcore2 }, evc := c.evc.edge c.pcie c.now 326 } := by
  have hkept : (c.hbm.selfRefresh || Rung.hush == .doze) = c.hbm.selfRefresh := Bool.or_false _
  rw [Chip.enterRung, hkept]

theorem Chip.enterRung_doze (c : Chip) : c.enterRung .doze =
    { c with rung := { c.rung.enter c.now .doze with vcoreKept := c.gauge.vcore2 }, hbm := { c.hbm with selfRefresh := true }
             evc := c.evc.edge c.pcie c.now 326 } := by
  have hset : (c.hbm.selfRefresh || Rung.doze == .doze) = true := Bool.or_true _
  rw [Chip.enterRung, hset]

theorem Chip.wake_of_awake {c : Chip} (h : c.rung.rung = .run) (cause : Nat) : c.wake cause = c := by
  rw [Chip.wake, if_neg (by simp [h])]

theorem Chip.wake_of_resting {c : Chip} (h : c.rung.rung = .hush ∨ c.rung.rung = .doze) (cause : Nat) : c.wake cause =
    { c with
      rung := c.rung.leave c.now cause c.freeCtr
      gauge := { c.gauge with vcore2 := if c.rung.rung = .doze then c.rung.vcoreKept else c.gauge.vcore2 }
      hbm := { c.hbm with selfRefresh := false }
      evc := c.evc.edge c.pcie c.now 326
      freeCtr := c.freeCtr + 1 } := by
  rw [Chip.wake, if_pos h]

/-- An exit takes no longer than its rung's bound. -/
theorem RungB.leave_exitNs_le (r : RungB) (now cause draw : Nat) : (r.leave now cause draw).exitNs ≤ r.rung.exitBound :=
  Nat.le_trans (Nat.min_le_right _ _) (Nat.min_le_right _ _)

/-- Settles O20: an entry or an exit by its equation, and nothing where its condition does not hold. -/
theorem rungsAreEnteredAndLeft : Obligations.RungsAreEnteredAndLeft := by
  unfold Obligations.RungsAreEnteredAndLeft
  refine ⟨⟨fun s hrun hlim hidle => ?hush, fun s hno => ?stay, fun s hhush hlim hidle hg => ?doze, fun s hno => ?stayHush⟩,
    fun s w hrest => ?wake, fun s w hrun => ?awake⟩
  case hush =>
    refine ⟨_, exec_hushEntry, ?_⟩
    rw [if_pos ((Chip.hushable_iff s.chip).mpr ⟨hrun, hlim, hidle⟩), Chip.enterRung_hush]
    exact ⟨rfl, rfl, rfl, rfl, rfl, Evc.edge_pending rfl _ _ _⟩
  case stay =>
    rw [exec_hushEntry, execHushEntry, if_neg (mt (Chip.hushable_iff s.chip).mp hno)]
  case doze =>
    refine ⟨_, exec_dozeEntry, ?_⟩
    rw [if_pos ((Chip.dozeable_iff s.chip).mpr ⟨hhush, hlim, hidle, hg⟩), Chip.enterRung_doze]
    exact ⟨rfl, rfl, rfl, rfl, if_pos hhush, Evc.edge_pending rfl _ _ _⟩
  case stayHush =>
    rw [exec_dozeEntry, execDozeEntry, if_neg (mt (Chip.dozeable_iff s.chip).mp hno)]
  case wake =>
    refine ⟨_, exec_wake, ?_⟩
    rw [Chip.wake_of_resting hrest]
    refine ⟨rfl, rfl, ?_, ?_, Nat.le_trans (RungB.leave_exitNs_le _ _ _ _) ?_, rfl, rfl, Evc.edge_pending rfl _ _ _, rfl⟩
    · obtain h | h := hrest
      · rw [h]; exact (congrArg Rung.fromCode h :)
      · rw [h]; exact (congrArg Rung.fromCode h :)
    · cases w <;> rfl
    · obtain h | h := hrest
      · rw [h]; exact Nat.le_refl _
      · rw [h]; exact Nat.le_refl _
  case awake =>
    rw [exec_wake, execWake, Chip.wake_of_awake hrun]

end Sys2Proof.Machine
end

section
/-!
The hank pool (R237 to R240), family 11: allocation and its grant, SHARE, PASS, FREE and the scrubber.
-/
namespace Sys2Proof.Machine

/-! ### Records of the pool -/

/-- Entries set to one value: those named read it, the others as before. -/
theorem Tbl.get_foldl_set {α : Type} (d : α) (l : List Nat) (v : α) (t : Tbl α) (k : Nat) :
    Tbl.get d (l.foldl (fun r h => Tbl.set r h v) t) k = if k ∈ l then v else Tbl.get d t k := by
  induction l generalizing t with
  | nil => simp
  | cons x l ih =>
    rw [List.foldl_cons, ih]
    by_cases hl : k ∈ l
    · rw [if_pos hl, if_pos (List.mem_cons_of_mem _ hl)]
    · rw [if_neg hl]
      by_cases hx : k = x
      · subst hx
        rw [Tbl.get_set_same, if_pos List.mem_cons_self]
      · rw [Tbl.get_set_other _ _ _ hx, if_neg (by simp [hx, hl])]

/-- An entry deleted reads as one that was never set. -/
theorem Tbl.get_del_same {α : Type} (d : α) (t : Tbl α) (k : Nat) : Tbl.get d (Tbl.del t k) k = d := by
  induction t with
  | nil => rfl
  | cons e t ih =>
    obtain ⟨i, v⟩ := e
    unfold Tbl.del at ih ⊢
    by_cases hik : i = k
    · rw [List.filter_cons_of_neg (by simp [hik])]
      exact ih
    · rw [List.filter_cons_of_pos (by simpa using hik), Tbl.get, if_neg hik, ih, ite_self]

/-- The hanks allocated are HELD by the tag and charged to the ticket; the others stay as they were. -/
theorem Hank.entry_alloc (k : Hank) (ticket tag n h : Nat) : (k.alloc ticket tag n).entry h =
    if h ∈ k.next n then { state := .held, owner := tag, ticket := ticket, readers := [] } else k.entry h :=
  Tbl.get_foldl_set ({} : HankRec) (k.next n) _ k.recs h

theorem Hank.entry_hand_same (k : Hank) (h tag : Nat) (r : HankRec) : (k.hand h tag r).entry h = r := Tbl.get_set_same ({} : HankRec) k.recs h r

theorem Hank.entry_hand_other (k : Hank) {h j : Nat} (tag : Nat) (r : HankRec) (hj : j ≠ h) : (k.hand h tag r).entry j = k.entry j :=
  Tbl.get_set_other ({} : HankRec) k.recs r hj

theorem Hank.entry_release_same (k : Hank) (h : Nat) : (k.release h).entry h = { state := .scrub, owner := 0xFFFF, ticket := 0, readers := [] } :=
  Tbl.get_set_same ({} : HankRec) k.recs h _

theorem Hank.entry_release_other (k : Hank) {h j : Nat} (hj : j ≠ h) : (k.release h).entry j = k.entry j :=
  Tbl.get_set_other ({} : HankRec) k.recs _ hj

theorem Hank.entry_scrubbed_same (k : Hank) (h : Nat) : (k.scrubbed h).entry h = {} := Tbl.get_del_same ({} : HankRec) k.recs h

theorem HankRec.charged_iff (r : HankRec) : r.charged = true ↔ r.state = .held ∨ r.state = .shared := by
  simp [HankRec.charged]

/-! ### Allocation -/

theorem Chip.hankAlloc_of_grantable {c : Chip} {ticket tag n : Nat} {k : Ticket} (hk : c.ticket? ticket = some k) (h : c.grantable k n = true) :
    c.hankAlloc ticket tag n = { c with hank := c.hank.alloc ticket tag n } := by
  rw [Chip.hankAlloc, hk]
  simp only [h, if_pos]

/-- A ticket that a number names has that number. -/
theorem Chip.id_of_ticket? {c : Chip} {i : Nat} {k : Ticket} (h : c.ticket? i = some k) : k.id = i := by
  have hid := List.find?_some h
  simpa using hid

theorem Chip.hankAlloc_of_waiting {c : Chip} {ticket tag n : Nat} {k : Ticket} (hk : c.ticket? ticket = some k) (h : c.grantable k n = false) :
    c.hankAlloc ticket tag n = { c with hank := { c.hank with
      waiters := c.hank.waiters ++ [{ ticket := ticket, tag := tag, n := n, isOver := decide (k.quota < c.hank.used ticket + n) }]
      waitCtr := c.hank.waitCtr.inc } } := by
  have hover : c.overQuota k n = decide (k.quota < c.hank.used ticket + n) := by rw [Chip.overQuota, Chip.id_of_ticket? hk]
  rw [Chip.hankAlloc, hk]
  simp only [h, if_neg Bool.false_ne_true, hover]

theorem Chip.hankAlloc_of_noTicket {c : Chip} {ticket : Nat} (h : c.ticket? ticket = none) (tag n : Nat) : c.hankAlloc ticket tag n = c := by
  rw [Chip.hankAlloc, h]

/-- The oldest waiting request within quota, or with none such the oldest, is the first to be served. -/
theorem Hank.firstWaiter_eq {k : Hank} {w : AllocWait} (h : k.waiters.find? (fun x => !x.isOver) = some w ∨
    (k.waiters.find? (fun x => !x.isOver) = none ∧ k.waiters.head? = some w)) : k.firstWaiter = some w := by
  rw [Hank.firstWaiter]
  obtain h | ⟨hnone, hhead⟩ := h
  · rw [h]
  · rw [hnone]
    exact hhead

theorem Chip.hankGrant_of_met {c : Chip} {w : AllocWait} {k : Ticket} (hw : c.hank.firstWaiter = some w) (hk : c.ticket? w.ticket = some k)
    (h : c.canMeet k w.n = true) :
    c.hankGrant = { c with hank := { c.hank.alloc w.ticket w.tag w.n with waiters := c.hank.waiters.erase w } } := by
  have hnow : c.grantNow = some w := by simp only [Chip.grantNow, hw, hk, h, if_pos]
  rw [Chip.hankGrant, hnow]

theorem Chip.hankGrant_of_unmet {c : Chip} {w : AllocWait} {k : Ticket} (hw : c.hank.firstWaiter = some w) (hk : c.ticket? w.ticket = some k)
    (h : c.canMeet k w.n = false) : c.hankGrant = c := by
  have hnow : c.grantNow = none := by simp only [Chip.grantNow, hw, hk, h, if_neg Bool.false_ne_true]
  rw [Chip.hankGrant, hnow]

theorem Chip.hankGrant_of_idle {c : Chip} (h : c.hank.waiters = []) : c.hankGrant = c := by
  have hfirst : c.hank.firstWaiter = none := by rw [Hank.firstWaiter, h]; rfl
  have hnow : c.grantNow = none := by rw [Chip.grantNow, hfirst]
  rw [Chip.hankGrant, hnow]

/-- Settles O21: an allocation and a grant each by their equation, the records by what an allocation sets. -/
theorem hankAllocationsAreServedInOrder : Obligations.HankAllocationsAreServedInOrder := by
  unfold Obligations.HankAllocationsAreServedInOrder
  refine ⟨⟨fun s ticket tag n k hk hgrant => ?granted, fun s ticket tag n k hk hgrant => ?waits, fun s ticket tag n hk => ?gone⟩,
    fun s w k hw hk => ⟨fun hmet => ?served, fun hmet => ?unserved⟩, fun s hnone => ?idle⟩
  case granted =>
    refine ⟨_, exec_hankAlloc, ?_⟩
    rw [Chip.hankAlloc_of_grantable hk hgrant]
    exact ⟨rfl, fun h hh => (Hank.entry_alloc _ _ _ _ _).trans (if_pos hh), fun h hh => (Hank.entry_alloc _ _ _ _ _).trans (if_neg hh), rfl, rfl⟩
  case waits => rw [exec_hankAlloc, execHankAlloc, Chip.hankAlloc_of_waiting hk hgrant]
  case gone => rw [exec_hankAlloc, execHankAlloc, Chip.hankAlloc_of_noTicket hk]
  case served =>
    refine ⟨_, exec_hankAllocGrant, ?_⟩
    rw [Chip.hankGrant_of_met (Hank.firstWaiter_eq hw) hk hmet]
    exact ⟨rfl, fun h hh => (Hank.entry_alloc _ _ _ _ _).trans (if_pos hh), fun h hh => (Hank.entry_alloc _ _ _ _ _).trans (if_neg hh), rfl⟩
  case unserved => rw [exec_hankAllocGrant, execHankAllocGrant, Chip.hankGrant_of_unmet (Hank.firstWaiter_eq hw) hk hmet]
  case idle => rw [exec_hankAllocGrant, execHankAllocGrant, Chip.hankGrant_of_idle hnone]

/-! ### SHARE, PASS and FREE -/

theorem Chip.handsOver_iff (c : Chip) (h caller tag : Nat) : c.handsOver h caller tag = true ↔
    (c.hank.entry h).state = .held ∧ (c.hank.entry h).owner = caller ∧ c.tagOfTicket (c.hank.entry h).ticket tag = true := by
  simp [Chip.handsOver, and_assoc]

/-- Settles O22: both operations hand over by one test, and refuse in one way. -/
theorem shareAndPassHandOver : Obligations.ShareAndPassHandOver := by
  unfold Obligations.ShareAndPassHandOver
  refine fun s h caller tag readers => ⟨fun hok => ?share, fun hok => ?pass, fun hno c hc => ?refused⟩
  case share =>
    refine ⟨_, exec_hankShare, ?_⟩
    rw [Chip.hankShare, if_pos ((Chip.handsOver_iff s.chip h caller tag).mpr hok)]
    exact ⟨rfl, Hank.entry_hand_same _ _ _ _, fun k hk => Hank.entry_hand_other _ _ _ hk⟩
  case pass =>
    refine ⟨_, exec_hankPass, ?_⟩
    rw [Chip.hankPass, if_pos ((Chip.handsOver_iff s.chip h caller tag).mpr hok)]
    exact ⟨rfl, Hank.entry_hand_same _ _ _ _, fun k hk => Hank.entry_hand_other _ _ _ hk⟩
  case refused =>
    have hno := mt (Chip.handsOver_iff s.chip h caller tag).mp hno
    have hstep : exec c s = .next { s with chip := s.chip.hankRefuse .badState h caller } := by
      simp only [List.mem_cons, List.not_mem_nil, or_false] at hc
      obtain rfl | rfl := hc
      · rw [exec_hankShare, execHankShare, Chip.hankShare, if_neg hno]
      · rw [exec_hankPass, execHankPass, Chip.hankPass, if_neg hno]
    exact ⟨_, hstep, rfl, rfl, rfl, rfl, rfl, rfl, rfl⟩

theorem Hank.frees_iff (k : Hank) (h caller : Nat) : k.frees h caller = true ↔
    ((k.entry h).state = .held ∨ (k.entry h).state = .shared) ∧ (k.entry h).owner = caller := by
  rw [Hank.frees, Bool.and_eq_true, HankRec.charged_iff, beq_iff_eq]

/-- Settles O23: an accepted FREE releases the hank, another is refused by the reason of the hank's state. -/
theorem freeScrubsOrIsRefused : Obligations.FreeScrubsOrIsRefused := by
  unfold Obligations.FreeScrubsOrIsRefused
  refine fun s h caller => ⟨fun hok => ?free, fun hno => ?refused⟩
  case free =>
    refine ⟨_, exec_hankFree, ?_⟩
    rw [Chip.hankFree, if_pos ((Hank.frees_iff s.chip.hank h caller).mpr hok)]
    exact ⟨rfl, congrArg HankRec.state (Hank.entry_release_same _ _), rfl, fun k hk => Hank.entry_release_other _ hk, rfl⟩
  case refused =>
    refine ⟨_, exec_hankFree, ?_⟩
    rw [Chip.hankFree, if_neg (mt (Hank.frees_iff s.chip.hank h caller).mp hno)]
    refine ⟨rfl, rfl, rfl, rfl, rfl, ?_⟩
    by_cases hcharged : (s.chip.hank.entry h).charged = true
    · rw [if_pos hcharged, if_pos ((HankRec.charged_iff _).mp hcharged)]
      rfl
    · rw [if_neg hcharged, if_neg (mt (HankRec.charged_iff _).mpr hcharged)]
      rfl

/-! ### The scrubber -/

/-- What a filter on addresses keeps of a memory in form reads as before, the rest as blank. -/
theorem Mem.read_filter {m : Mem} {lo : Option Nat} (keep : Nat → Bool) (h : Mem.above lo m = true) (a : Nat) :
    Mem.read (m.filter (fun e => keep e.1)) a = if keep a = true then Mem.read m a else blankByte := by
  induction m generalizing lo with
  | nil => exact (ite_self _).symm
  | cons e m ih =>
    obtain ⟨i, v⟩ := e
    simp only [Mem.above, Bool.and_eq_true] at h
    obtain ⟨-, hrest⟩ := h
    have htail := ih hrest
    have hlow : a ≤ i → Mem.read (m.filter (fun e => keep e.1)) a = blankByte := fun hai =>
      Mem.read_below (Mem.above_filter _ hrest) hai
    cases hi : keep i with
    | true =>
      rw [List.filter_cons_of_pos (by exact hi), Mem.read, Mem.read, htail]
      by_cases hia : i = a
      · rw [if_pos hia, if_pos hia, if_pos (hia ▸ hi)]
      · rw [if_neg hia, if_neg hia]
        by_cases hlt : a < i
        · rw [if_pos hlt, if_pos hlt, ite_self]
        · rw [if_neg hlt, if_neg hlt]
    | false =>
      rw [List.filter_cons_of_neg (by simp [hi]), Mem.read]
      by_cases hia : i = a
      · rw [hlow (Nat.le_of_eq hia.symm), if_neg (by rw [← hia, hi]; exact Bool.false_ne_true)]
      · rw [if_neg hia]
        by_cases hlt : a < i
        · rw [hlow (Nat.le_of_lt hlt), if_pos hlt, ite_self]
        · rw [htail, if_neg hlt]

/-- A range cleared reads as zeros, and every other byte as before. -/
theorem Mem.read_clear {m : Mem} (h : m.wf = true) (b n a : Nat) :
    Mem.read (m.clear b n) a = if b ≤ a ∧ a < b + n then 0 else Mem.read m a := by
  refine (Mem.read_filter (fun x => decide (x < b) || decide (b + n ≤ x)) h a).trans ?_
  by_cases ha : b ≤ a ∧ a < b + n
  · rw [if_pos ha, if_neg (by simp; omega)]
    rfl
  · rw [if_neg ha, if_pos (by simp; omega)]

/-- A write of HBM takes its lines out of the shared cache. -/
theorem Chip.mem_shc_hbmWrote (c : Chip) (r : Range) (x : Nat × Nat) :
    x ∈ (c.hbmWrote r).pnl.shc ↔ x ∈ c.pnl.shc ∧ ¬ (r.1 < yokeBase ∧ x.1 ∈ linesOf r) := by
  rw [Chip.hbmWrote]
  dsimp only
  cases hin : inHbm r.1 with
  | true =>
    have hlt : r.1 < yokeBase := by simpa [inHbm] using hin
    simp [hlt]
  | false =>
    have hge : ¬ r.1 < yokeBase := by simpa [inHbm] using hin
    simp [hge]

/-- A write of HBM changes the controller and the shared cache alone. -/
theorem Chip.hbmWrote_frame (c : Chip) (r : Range) :
    c.hbmWrote r = { c with hbm := (c.hbmWrote r).hbm, pnl := { c.pnl with shc := (c.hbmWrote r).pnl.shc } } := by
  unfold Chip.hbmWrote
  cases inHbm r.1 with
  | true => rfl
  | false => rfl

/-- Settles O24: the hank whose turn it is is cleared and goes to the ring's tail. -/
theorem scrubbedHankIsZeroAndFree : Obligations.ScrubbedHankIsZeroAndFree := by
  unfold Obligations.ScrubbedHankIsZeroAndFree
  refine fun s h hinv => ⟨fun hnext => ?turn, fun hnext => ?other⟩
  case turn =>
    refine ⟨_, exec_hankScrubDone, ?_⟩
    rw [if_pos hnext, if_pos hnext, Chip.scrubDone, if_pos hnext]
    refine ⟨?_, fun x => Chip.mem_shc_hbmWrote _ _ x, fun a => Mem.read_clear hinv _ _ a, rfl, rfl, ?_⟩
    · exact congrArg (fun d : Chip => ({ s with chip := d, mem := s.mem.clear (hankAddr h) 0x4000 } : State))
        (Chip.hbmWrote_frame { s.chip with hank := s.chip.hank.scrubbed h } (hankAddr h, 0x4000))
    · exact congrArg HankRec.state (Hank.entry_scrubbed_same s.chip.hank h)
  case other =>
    rw [exec_hankScrubDone, execHankScrubDone, if_neg hnext, if_neg hnext]

end Sys2Proof.Machine
end

section
/-!
What the recovery ladder leaves alone (ch. 17): the quiet part of the chip but for the recovery's own record.
-/
namespace Sys2Proof.Machine

/-- The quiet part of the chip without the recovery record. -/
abbrev Chip.calm (c : Chip) : (Gauge × RungB × Pat × List SmbAnswer × Tens) × (Pins × Keep) := ((Safety.quiet c).1, (Safety.quiet c).2.2)

/-- What keeps the quiet part keeps the calm one. -/
theorem Chip.calm_of_quiet {c d : Chip} (h : Safety.quiet d = Safety.quiet c) : d.calm = c.calm :=
  congrArg (fun q => (q.1, q.2.2)) h

theorem Chip.gauge_of_calm {c d : Chip} (h : d.calm = c.calm) : d.gauge = c.gauge := congrArg (fun q => q.1.1) h
theorem Chip.rung_of_calm {c d : Chip} (h : d.calm = c.calm) : d.rung = c.rung := congrArg (fun q => q.1.2.1) h
theorem Chip.pat_of_calm {c d : Chip} (h : d.calm = c.calm) : d.pat = c.pat := congrArg (fun q => q.1.2.2.1) h
theorem Chip.keep_of_calm {c d : Chip} (h : d.calm = c.calm) : d.keep = c.keep := congrArg (fun q => q.2.2) h

/-- Two chips of one quiet part still have one after the same change of the recovery record's quiet fields. -/
theorem quiet_setRst {c d : Chip} (f : Rst → Rst) (h : Safety.quiet d = Safety.quiet c)
    (hf : ∀ r s : Rst, (Safety.quiet { c with rst := r }).2.1 = (Safety.quiet { c with rst := s }).2.1 →
      (Safety.quiet { c with rst := f r }).2.1 = (Safety.quiet { c with rst := f s }).2.1) :
    Safety.quiet { d with rst := f d.rst } = Safety.quiet { c with rst := f c.rst } := by
  have hrst : (Safety.quiet { c with rst := d.rst }).2.1 = (Safety.quiet { c with rst := c.rst }).2.1 := congrArg (fun q => q.2.1) h
  have hnew := hf d.rst c.rst hrst
  have hpair := congr (congrArg (fun (q : (Gauge × RungB × Pat × List SmbAnswer × Tens) × (Rst × Pins × Keep)) (r : Rst) => (q.1, (r, q.2.2))) h) hnew
  exact hpair

/-- A chip of which no tink is recorded. -/
def Chip.noTinks (c : Chip) : Chip := { c with rst := { c.rst with tink := none, waitTinks := [] } }
/-- Such a chip fenced. -/
def Chip.fenced (c : Chip) : Chip := { c with rst := { c.rst with tink := none, waitTinks := [], fenced := true } }
/-- Such a chip fenced, a power cycle asked for. -/
def Chip.trayAsked (c : Chip) : Chip :=
  { c with rst := { c.rst with tink := none, waitTinks := [], fenced := true, trayReq := true, warmPending := false } }

/-- Tinks ended: only the record of tinks changes in the quiet part. -/
theorem Chip.endTink_quiet (c : Chip) : Safety.quiet c.endTink = Safety.quiet c.noTinks :=
  quiet_setRst (fun r => { r with tink := none, waitTinks := [] })
    (foldl_quiet (fun d k h => Chip.tinkOver_quiet d k h) rfl)
    (fun _ _ h => congrArg (fun r => { r with tink := none, waitTinks := [] }) h)

theorem Chip.endTink_calm (c : Chip) : c.endTink.calm = c.calm := (Chip.calm_of_quiet c.endTink_quiet).trans rfl

/-- Engines halted and work ended, from a chip whose tinks are over: what a chip reset begins with. -/
theorem Chip.fence_quiet (c : Chip) (level cause engine : Nat) :
    Safety.quiet { c.endTink with
        rst := { c.endTink.rst.record c.endTink.now level cause engine 0 with fenced := true }, cast := { c.endTink.cast with closed := true } } =
      Safety.quiet c.fenced :=
  quiet_setRst (c := c.noTinks) (fun r => { r with fenced := true })
    c.endTink_quiet (fun _ _ h => congrArg (fun r => { r with fenced := true }) h)

/-- Steps 1 to 4 of a warm chip reset fence the chip and leave the rest of its quiet part. -/
theorem warmDown_quiet (cause engine : Nat) (c : Chip × Mem) : Safety.quiet (warmDown cause engine c).1 =
    Safety.quiet c.1.fenced := by
  unfold warmDown
  exact Chip.haltEngines_quiet _ (killAll_quiet _ (Chip.leaveGarments_quiet _ _ (Chip.fence_quiet c.1 4 cause engine)))

theorem warmDown_calm (cause engine : Nat) (c : Chip × Mem) : (warmDown cause engine c).1.calm = c.1.calm :=
  (Chip.calm_of_quiet (warmDown_quiet cause engine c)).trans rfl

/-- The request asserted and told, from a chip fenced and halted. -/
theorem Chip.askTray_quiet {c f : Chip} (cause engine : Nat)
    (h : Safety.quiet f = Safety.quiet c.fenced) :
    Safety.quiet (Chip.alarm { f with rst := { f.rst with trayReq := true, warmPending := false } } true .powerCycle 35 391 none 0 cause engine) =
      Safety.quiet c.trayAsked :=
  Chip.alarm_quiet _ _ _ _ _ _ _ _ _ (quiet_setRst (c := c.fenced)
    (fun r => { r with trayReq := true, warmPending := false }) h (fun _ _ h => congrArg (fun r => { r with trayReq := true, warmPending := false }) h))

/-- A power cycle asked for fences the chip, and leaves the rest of its quiet part. -/
theorem powerCycle_quiet (cause engine : Nat) {c : Chip × Mem} (h : c.1.rst.trayReq = false) : Safety.quiet (powerCycle cause engine c).1 =
    Safety.quiet c.1.trayAsked := by
  unfold powerCycle
  rw [h, if_neg Bool.false_ne_true]
  extract_lets ended _ _ fenced left killed halted told
  have hfenced : Safety.quiet fenced = Safety.quiet c.1.fenced :=
    Chip.fence_quiet c.1 5 cause engine
  clear_value fenced
  have hleft := Chip.leaveGarments_quiet fenced 1 hfenced
  change Safety.quiet left = _ at hleft
  clear_value left
  have hkilled := killAll_quiet ({ left with rnd := left.rnd.slip }, c.2) hleft
  change Safety.quiet killed.1 = _ at hkilled
  clear_value killed
  have hhalted := Chip.haltEngines_quiet killed.1 hkilled
  refine Chip.askTray_quiet (f := told) cause engine ?_
  by_cases h11 : cause = 11
  · rw [show told = halted from if_pos h11]
    exact hhalted
  · rw [show told = { halted with log := halted.log.persist } from if_neg h11]
    exact hhalted

theorem powerCycle_of_asked {c : Chip × Mem} (h : c.1.rst.trayReq = true) (cause engine : Nat) : powerCycle cause engine c = c := by
  rw [powerCycle, if_pos h]

theorem powerCycle_calm (cause engine : Nat) (c : Chip × Mem) : (powerCycle cause engine c).1.calm = c.1.calm := by
  cases h : c.1.rst.trayReq with
  | true => rw [powerCycle_of_asked h]
  | false => exact (Chip.calm_of_quiet (powerCycle_quiet cause engine h)).trans rfl

/-! ### Panel reset and tink -/

/-- A panel just reset, before its streams are brought up to date: what `panelReset` ends with. -/
theorem panelReset_spec (p cause engine : Nat) (c : Chip × Mem) : ∃ (e : Chip) (m : Mem),
    panelReset p cause engine c = progressAll (e.cast.tickets.map (fun t => t.id)) (e, m) ∧ Safety.PanelWasReset c.1 e p cause engine ∧ e.calm = c.1.calm := by
  unfold panelReset
  extract_lets frogged q reset cores filled m _ e
  have hfrogged : Safety.quiet frogged.1 = Safety.quiet c.1.noTinks :=
    frogContexts_quiet cause _ _ c.1.endTink_quiet
  clear_value frogged
  have hreset : Safety.quiet reset.1 = _ := foldlM_quiet (fun d n h => resetNeedle_quiet n d h) hfrogged
  clear_value reset
  have hcores : Safety.quiet cores = _ := foldl_quiet (fun d k h => Chip.resetEnc_quiet d k h) (foldl_quiet (fun d k h => Chip.resetDec_quiet d k h) hreset)
  clear_value cores
  have hfilled : Safety.quiet filled = Safety.quiet c.1.noTinks := hcores
  have hpanel : filled.panel p = (cores.panel p).topUp cores.gauge.rowLen := Chip.panel_updPanel_same _ _ _
  have hlen : cores.gauge = c.1.gauge := congrArg (fun q => q.1.1) hcores
  clear_value filled
  have hgauge : filled.gauge = c.1.gauge := congrArg (fun q => q.1.1) hfilled
  have htink : filled.rst.tink = none := congrArg (fun q => q.2.1.tink) hfilled
  have hcalm : filled.calm = c.1.calm := Chip.calm_of_quiet (c := c.1.noTinks) hfilled
  refine ⟨e, m, rfl, ⟨rfl, rfl, rfl, rfl, htink, Chip.alarm_first _ _ _ _ _ _ _ _ _, congrArg Panel.waiting hpanel, ?_, ?_, ?_⟩, ?_⟩
  · show (filled.panel p).gBucket = (filled.panel p).gRate.map (fun r => ((refillBytes r filled.gauge.rowLen : Nat) : Int))
    rw [hpanel, hgauge, ← hlen]
    rfl
  · exact hgauge
  · exact Chip.pat_of_calm hcalm
  · exact (Chip.calm_of_quiet (c := { filled with rst := _ }) (Chip.alarm_quiet _ _ _ _ _ _ _ _ _ rfl)).trans hcalm

end Sys2Proof.Machine
end

section
/-!
HBM replays, row closing, refresh and patrol scrub (R230 to R233), family 11.
-/
namespace Sys2Proof.Machine

/-! ### Replays -/

theorem parityError_of_few {pc : Nat} {c : Chip × Mem} (h : c.1.hbm.replays pc + 1 ≠ 4) :
    parityError pc c = ({ c.1 with hbm := { c.1.hbm with
      parity := c.1.hbm.parity.inc, rowReplays := Tbl.set c.1.hbm.rowReplays pc (c.1.hbm.replays pc + 1) } }, c.2) := by
  rw [parityError, if_neg h, Hbm.parityError, if_neg (fun h4 => h h4.1)]

theorem mem_insertSorted (x : Nat) (l : List Nat) : x ∈ insertSorted x l := by
  induction l with
  | nil => exact List.mem_singleton_self x
  | cons y l ih =>
    rw [insertSorted]
    split
    next h => exact h ▸ List.mem_cons_self
    next =>
      split
      next => exact List.mem_cons_self
      next => exact List.mem_cons_of_mem _ ih

/-- The fourth replay in a row fails the pseudo-channel. -/
theorem Hbm.mem_failedPcs_parityError {h : Hbm} {pc : Nat} (h4 : h.replays pc + 1 = 4) : pc ∈ (h.parityError pc).failedPcs := by
  show pc ∈ (if h.replays pc + 1 = 4 ∧ h.failedPcs.contains pc = false then insertSorted pc h.failedPcs else h.failedPcs)
  cases hc : h.failedPcs.contains pc with
  | false =>
    rw [if_pos ⟨h4, rfl⟩]
    exact mem_insertSorted _ _
  | true =>
    rw [if_neg (by simp)]
    exact List.contains_iff_mem.mp hc

/-! ### Banks and stacks -/

theorem Hbm.bank_closeRow (h : Hbm) (pc bank : Nat) :
    Tbl.get ({} : Bank) (h.closeRow pc bank).banks (pc * 64 + bank) = { Tbl.get ({} : Bank) h.banks (pc * 64 + bank) with row := none } :=
  Tbl.get_upd_same ({} : Bank) h.banks (pc * 64 + bank) (fun b => { b with row := none })

theorem Hbm.mem_hotStacks_stackTemp (h : Hbm) (k j : Nat) (hot : Bool) :
    j ∈ (h.stackTemp k hot).hotStacks ↔ if j = k then hot = true else j ∈ h.hotStacks := by
  cases hot with
  | false =>
    show j ∈ h.hotStacks.filter (· != k) ↔ _
    by_cases hjk : j = k <;> simp [hjk]
  | true =>
    show j ∈ (if h.hotStacks.contains k then h.hotStacks else k :: h.hotStacks) ↔ _
    by_cases hk : h.hotStacks.contains k = true
    · rw [if_pos hk]
      by_cases hjk : j = k
      · simpa [hjk] using hk
      · simp [hjk]
    · rw [if_neg hk]
      by_cases hjk : j = k <;> simp [hjk]

/-- Settles O25: each command by its equation on the controller. -/
theorem hbmKeepsItself : Obligations.HbmKeepsItself := by
  unfold Obligations.HbmKeepsItself
  refine ⟨fun s pc hpc hfew => ?replay, fun h pc h4 => ⟨Hbm.mem_failedPcs_parityError h4, rfl⟩, fun s pc bank hdue => ?close,
    fun s k hot => ?stack, fun s fixed => ?patrol⟩
  case replay =>
    rw [exec_hbmParityError, execHbmParityError, Nat.mod_eq_of_lt hpc, parityError_of_few (c := (s.chip, s.mem)) hfew]
  case close =>
    obtain ⟨hle, hlt⟩ := hdue
    refine ⟨_, exec_rowIdleClose, Hbm.bank_closeRow _ _ _, ?_⟩
    have hgauge : s.chip.gauge.advance ((Tbl.get ({} : Bank) s.chip.hbm.banks (pc * 64 + bank)).access + usTicks 2) =
        { s.chip.gauge with time := (Tbl.get ({} : Bank) s.chip.hbm.banks (pc * 64 + bank)).access + 50 } := Gauge.advance_of_le hle hlt
    rw [Chip.advance, hgauge]
    rfl
  case stack =>
    refine ⟨_, exec_hbmStackTemperature, rfl, ?_, fun j hj => ?_⟩
    · exact (Hbm.mem_hotStacks_stackTemp _ _ _ _).trans (by simp)
    · exact (Hbm.mem_hotStacks_stackTemp _ _ _ _).trans (by simp [hj])
  case patrol => rfl

/-! ### Errors -/

/-- A word that a patrol scrub finds bad is poisoned, whether or not it was before. -/
theorem mem_poisoned (w : Nat) (l : List Nat) : w ∈ (if l.contains w then l else insertSorted w l) := by
  split
  next h => exact List.contains_iff_mem.mp h
  next => exact mem_insertSorted _ _

/-- Settles O26: a bad word ends in alarm 4, a failed pseudo-channel in a power-cycle request. -/
theorem hbmErrorsAreReported : Obligations.HbmErrorsAreReported := by
  unfold Obligations.HbmErrorsAreReported
  refine ⟨fun s fixed a => ?word, fun s pc hpc h4 hreq => ?channel⟩
  case word =>
    exact ⟨_, exec_patrolScrub, rfl, mem_poisoned _ _, rfl, rfl, Chip.alarm_first _ _ _ _ _ _ _ _ _, rfl⟩
  case channel =>
    let d := Chip.alarm { s.chip with hbm := s.chip.hbm.parityError pc } true .hbmPcFailed 5 srcHbm none 0 0 pc
    have hstep : parityError (pc % 128) (s.chip, s.mem) = powerCycle 12 (192 + pc / 2) (d, s.mem) := by
      rw [Nat.mod_eq_of_lt hpc, parityError, if_pos h4]
    have hcalm : (powerCycle 12 (192 + pc / 2) (d, s.mem)).1.calm = s.chip.calm := (powerCycle_calm _ _ _).trans
      (Chip.calm_of_quiet (Chip.alarm_quiet _ _ _ _ _ _ _ _ _ rfl))
    obtain ⟨f, hf⟩ := powerCycle_of_unasked (c := (d, s.mem)) hreq 12 (192 + pc / 2)
    refine ⟨_, exec_hbmParityError, ?_⟩
    rw [hstep]
    refine ⟨?_, ?_, Chip.gauge_of_calm hcalm, Chip.rung_of_calm hcalm, Chip.pat_of_calm hcalm⟩
    · rw [hf]
      rfl
    · rw [hf]
      exact Chip.alarm_first _ _ _ _ _ _ _ _ _

end Sys2Proof.Machine
end

section
/-!
Trips, engine resets and tinks (R343, R351, R354, R355), family 17.
-/
namespace Sys2Proof.Machine

/-! ### The order of suspects -/

theorem Chip.insertSuspect_ne_nil (c : Chip) (x : Nat) (l : List Nat) : c.insertSuspect x l ≠ [] := by
  cases l with
  | nil => exact List.cons_ne_nil _ _
  | cons y l =>
    rw [Chip.insertSuspect]
    split
    next => exact List.cons_ne_nil _ _
    next => exact List.cons_ne_nil _ _

/-- Where a context was found on the engine, there is a suspect. -/
theorem Chip.orderSuspects_ne_nil (c : Chip) {l : List Nat} (h : l ≠ []) : c.orderSuspects l ≠ [] := by
  rw [Chip.orderSuspects, ← List.dropLast_concat_getLast h, List.foldl_append]
  exact Chip.insertSuspect_ne_nil _ _ _

/-! ### The parts a trip goes through -/

/-- A core given pictures to replay changes the video cores alone. -/
theorem Chip.restock_frame (c : Chip) (e : Nat) (js : List Job) : c.restock e js = { c with vdec := (c.restock e js).vdec, venc := (c.restock e js).venc } := by
  unfold Chip.restock
  split
  next => rfl
  next => rfl
  next => rfl

theorem Chip.toTrip_cases (c : Chip) (e ctx : Nat) : c.toTrip e ctx = c ∨ ∃ d, c.toTrip e ctx = c.advance d := by
  unfold Chip.toTrip
  split
  next => exact .inl rfl
  next d _ => exact .inr ⟨d, rfl⟩

/-- The moment of a trip changes the time alone. -/
theorem Chip.toTrip_frame (c : Chip) (e ctx : Nat) : c.toTrip e ctx = { c with gauge := (c.toTrip e ctx).gauge } := by
  obtain h | ⟨d, h⟩ := c.toTrip_cases e ctx
  · rw [h]
  · rw [h]
    rfl

theorem Chip.toTrip_due {c : Chip} {e ctx d : Nat} (h : c.unitsDue e ctx = [d]) : (c.toTrip e ctx).now = max c.now d % 2 ^ 64 := by
  rw [Chip.toTrip, h]
  rfl

theorem Chip.orderSuspects_congr {c d : Chip} (h : d.suspectBefore = c.suspectBefore) (l : List Nat) : d.orderSuspects l = c.orderSuspects l := by
  have hinsert : ∀ x m, d.insertSuspect x m = c.insertSuspect x m := by
    intro x m
    induction m with
    | nil => rfl
    | cons y m ih => rw [Chip.insertSuspect, Chip.insertSuspect, h, ih]
  unfold Chip.orderSuspects
  congr
  funext a x
  exact hinsert x a

/-- A suspect's order does not hang on time, trips counted or the log. -/
theorem Chip.suspects_countTrip (c : Chip) (e ctx x y : Nat) :
    (((c.toTrip e ctx).countTrip x y).orderSuspects (((c.toTrip e ctx).countTrip x y).onEngine e)) = c.orderSuspects (c.onEngine e) := by
  rw [Chip.toTrip_frame]
  exact Chip.orderSuspects_congr (c := c) (d := Chip.countTrip { c with gauge := (c.toTrip e ctx).gauge } x y) rfl (c.onEngine e)

/-- What an engine reset records. -/
theorem engineReset_spec (e ctx : Nat) (c : Chip × Mem) : (engineReset e ctx c).1.rst.lastLevel = 2 ∧ (engineReset e ctx c).1.rst.lastCause = 1 ∧
    (engineReset e ctx c).1.rst.lastEngine = e ∧ (engineReset e ctx c).1.rst.lastCtx = ctx ∧ ((engineReset e ctx c).1.log.slot 32).first.isSome = true :=
  ⟨rfl, rfl, rfl, rfl, Chip.alarm_first _ _ _ _ _ _ _ _ _⟩

theorem Chip.rst_quiet_tink {c d : Chip} (h : Safety.quiet d = Safety.quiet c) : d.rst.tink = c.rst.tink ∧ d.rst.waitTinks = c.rst.waitTinks :=
  ⟨congrArg (fun q => q.2.1.tink) h, congrArg (fun q => q.2.1.waitTinks) h⟩

/-- A tink begun while none is in progress: its suspects are left to be replayed. -/
theorem startTink_of_idle {e : Nat} {suspects : List Nat} {js : List Job} {c : Chip × Mem} (hidle : c.1.rst.tink = none) (hs : suspects ≠ []) :
    startTink e suspects js c = ({ c.1.restock e (jobsInOrder suspects js) with
      rst := { c.1.rst with tink := some { engine := e, resets := 1, left := suspects, culprits := [] } } }, c.2) := by
  have hrst : (c.1.restock e (jobsInOrder suspects js)).rst = c.1.rst := by rw [Chip.restock_frame]
  have hleft : suspects.isEmpty = false := by simpa using hs
  simp only [startTink, hrst, hidle, tinkNext, hleft, if_neg Bool.false_ne_true]

/-- A trip of an engine that is tinked, while no tink is in progress. -/
theorem engineTrip_of_idle {e ctx : Nat} {c : Chip × Mem} (he : e < 192) (hidle : c.1.rst.tink = none)
    (hs : (c.1.countTrip e ctx).orderSuspects ((c.1.countTrip e ctx).onEngine e) ≠ []) : ∃ r : Chip × Mem, ∃ js : List Job,
    r = engineReset e ctx (c.1.countTrip e ctx, c.2) ∧ engineTrip e ctx c = ({ r.1.restock e js with rst := { r.1.rst with
      tink := some { engine := e, resets := 1, left := (c.1.countTrip e ctx).orderSuspects ((c.1.countTrip e ctx).onEngine e), culprits := [] } } }, r.2) := by
  have hr := engineReset_quiet e ctx (c.1.countTrip e ctx, c.2) (Chip.countTrip_quiet c.1 e ctx rfl)
  have htink := (Chip.rst_quiet_tink hr).1.trans hidle
  refine ⟨_, jobsInOrder ((c.1.countTrip e ctx).orderSuspects ((c.1.countTrip e ctx).onEngine e)) ((c.1.countTrip e ctx).replayJobs e), rfl, ?_⟩
  simp only [engineTrip, if_neg (Nat.not_le.mpr he)]
  exact startTink_of_idle htink hs

/-- A trip that comes, of an engine below the holder. -/
theorem trip_of_engine {e ctx : Nat} {c : Chip × Mem} (hreal : realEngine e = true) (hcore : ¬ (149 ≤ e ∧ e < 153)) (hfence : c.1.rst.fenced = false)
    (hwait : c.1.waitsForTrip e (ctx % 16384) = false) : trip e ctx c = engineTrip e (ctx % 16384) (c.1.toTrip e (ctx % 16384), c.2) := by
  simp only [trip, hreal, hfence, hwait, Bool.not_true, Bool.or_false, if_neg Bool.false_ne_true, if_neg hcore]

theorem trip_of_none {e ctx : Nat} {c : Chip × Mem} (h : realEngine e = false ∨ c.1.rst.fenced = true ∨ c.1.waitsForTrip e (ctx % 16384) = true) :
    trip e ctx c = c := by
  have hstop : (!realEngine e || c.1.rst.fenced || c.1.waitsForTrip e (ctx % 16384)) = true := by
    obtain h | h | h := h <;> simp [h]
  simp only [trip, hstop, if_pos]

/-! ### The end of a replay -/

theorem tinkNext_of_left {k : Tink} (h : k.left ≠ []) (c : Chip × Mem) : tinkNext k c = ({ c.1 with rst := { c.1.rst with tink := some k } }, c.2) := by
  have hleft : k.left.isEmpty = false := by simpa using h
  rw [tinkNext, hleft, if_neg Bool.false_ne_true]

/-- A tink with a culprit ends: the next that waits is taken up, and the rest of the calm part stays. -/
theorem tinkEnd_of_culprit {k : Tink} (h : k.culprits ≠ []) (c : Chip × Mem) : (tinkEnd k c).1.rst.tink = c.1.rst.waitTinks.head? ∧
    (tinkEnd k c).1.rst.waitTinks = c.1.rst.waitTinks.drop 1 ∧ (tinkEnd k c).1.calm = c.1.calm := by
  have hnone : k.culprits.isEmpty = false := by simpa using h
  unfold tinkEnd
  simp only [hnone, Bool.false_and, if_neg Bool.false_ne_true]
  generalize hd : ({ c.1.tinkOver k with rst := _ } : Chip) = d
  have hover : (c.1.tinkOver k).calm = c.1.calm := Chip.calm_of_quiet (Chip.tinkOver_quiet c.1 k rfl)
  have hcalm : d.calm = c.1.calm := hd ▸ hover
  have hfill : ∀ o : Option Nat, Safety.quiet (match o with | some p => d.fillPanel p | none => d) = Safety.quiet d := by
    intro o
    cases o with
    | none => rfl
    | some p => exact Chip.fillPanel_quiet d p rfl
  have hend := progressAll_quiet (((match d.enginePanel k.engine with | some p => d.fillPanel p | none => d) : Chip).cast.tickets.map (fun t => t.id))
    ((match d.enginePanel k.engine with | some p => d.fillPanel p | none => d : Chip).pumpAll c.2, c.2) (Chip.pumpAll_quiet _ _ (hfill _))
  have htinks := Chip.rst_quiet_tink hend
  exact ⟨htinks.1.trans (by rw [← hd]), htinks.2.trans (by rw [← hd]), (Chip.calm_of_quiet hend).trans hcalm⟩

theorem tinkReplayEnd_of_idle {c : Chip × Mem} (h : c.1.rst.tink = none) (b : Bool) : tinkReplayEnd b c = c := by
  rw [tinkReplayEnd, h]

/-- A suspect's replay that completes. -/
theorem tinkReplayEnd_completed {k : Tink} {x : Nat} {l : List Nat} {c : Chip × Mem} (h : c.1.rst.tink = some k) (hl : k.left = x :: l) :
    ∃ d : Chip, d = { c.1 with vdec := d.vdec, venc := d.venc } ∧ tinkReplayEnd false c = tinkNext { k with left := l } (d, c.2) := by
  simp only [tinkReplayEnd, h, hl, if_neg Bool.false_ne_true]
  cases (((c.1.replayJobs k.engine).filter (fun j => j.context != x)).isEmpty) with
  | true => exact ⟨c.1, rfl, rfl⟩
  | false => exact ⟨_, Chip.restock_frame _ _ _, rfl⟩

/-- A suspect's replay that trips, short of the fourth reset: its context is a culprit. -/
theorem tinkReplayEnd_tripped {k : Tink} {x : Nat} {l : List Nat} {c : Chip × Mem} (h : c.1.rst.tink = some k) (hl : k.left = x :: l)
    (h4 : k.resets + 1 ≠ 4) : ∃ d : Chip × Mem, d.1.calm = (c.1.toTrip k.engine x).calm ∧
      tinkReplayEnd true c = tinkNext { k with resets := k.resets + 1, left := l, culprits := k.culprits ++ [x] } d := by
  simp only [tinkReplayEnd, h, hl, if_pos, if_neg h4]
  exact ⟨_, Chip.calm_of_quiet (Chip.restock_quiet _ _ _ (frogContext_quiet _ _ _ (engineReset_quiet _ _ _
    (Chip.countTrip_quiet (c.1.toTrip k.engine x) k.engine x rfl)))), rfl⟩

theorem Chip.toTrip_pat (c : Chip) (e ctx : Nat) : (c.toTrip e ctx).pat = c.pat := by rw [Chip.toTrip_frame]

theorem Chip.toTrip_keep (c : Chip) (e ctx : Nat) : (c.toTrip e ctx).keep = c.keep := by rw [Chip.toTrip_frame]

/-- Settles O43: a trip below the holder resets its engine and leaves its suspects to be replayed; the replays go one by one. -/
theorem tripsAreTinked : Obligations.TripsAreTinked := by
  unfold Obligations.TripsAreTinked
  refine ⟨fun s e ctx he hfence hwait hidle hfound => ?begun, fun s e ctx hlo hhi hfence => ?channel, fun s n ctx o hn hops hctx hlt => ?needle,
    fun s k j hk hjob => ?core, fun s e ctx hnone => ?none, fun s b hidle => ?idle, fun s k x y l hk hl => ⟨?completed, fun h4 => ?tripped⟩,
    fun s k x hk hl hcul => ?last⟩
  case begun =>
    let c := s.chip.toTrip e (ctx % 16384)
    have hreal : realEngine e = true := by simp [realEngine]; omega
    have hstep := trip_of_engine (c := (s.chip, s.mem)) hreal (by omega) hfence hwait
    have hctink : c.rst.tink = none := by rw [show c.rst = s.chip.rst from by rw [show c = _ from Chip.toTrip_frame _ _ _]]; exact hidle
    have hsus := s.chip.suspects_countTrip e (ctx % 16384) e (ctx % 16384)
    obtain ⟨r, js, hr, htrip⟩ := engineTrip_of_idle (c := (c, s.mem)) (e := e) (ctx := ctx % 16384) (by omega) hctink
      (by rw [hsus]; exact Chip.orderSuspects_ne_nil _ hfound)
    have hcalm : r.1.calm = c.calm := hr ▸ Chip.calm_of_quiet (engineReset_quiet _ _ _ (Chip.countTrip_quiet _ _ _ rfl))
    obtain ⟨hlevel, hcause, hengine, hlast, hslot⟩ := engineReset_spec e (ctx % 16384) (c.countTrip e (ctx % 16384), s.mem)
    rw [← hr] at hlevel hcause hengine hlast hslot
    refine ⟨_, exec_trip, ?_⟩
    rw [hstep, htrip, Chip.restock_frame]
    exact ⟨by rw [← hsus], hlevel, hcause, hengine, hlast, hslot, Chip.gauge_of_calm hcalm, (Chip.pat_of_calm hcalm).trans (Chip.toTrip_pat _ _ _),
      (Chip.keep_of_calm hcalm).trans (Chip.toTrip_keep _ _ _)⟩
  case channel =>
    have hreal : realEngine e = true := by simp [realEngine]; omega
    have hwait : s.chip.waitsForTrip e (ctx % 16384) = false := by
      have hlt : decide (e < 64) = false := by simp; omega
      simp [Chip.waitsForTrip, hlt]
    refine ⟨_, exec_trip, ?_⟩
    rw [trip_of_engine (c := (s.chip, s.mem)) hreal (by omega) hfence hwait]
    simp only [engineTrip, if_pos hlo]
    exact Chip.pumpAll_quiet _ _ (Chip.restartTimers_quiet _ _ (engineReset_quiet _ _ _ (Chip.countTrip_quiet _ _ _ rfl)))
  case needle =>
    refine Chip.toTrip_due ?_
    simp [Chip.unitsDue, if_pos hn, hops, hctx, Chip.opDue]
  case core =>
    refine Chip.toTrip_due ?_
    have hdec : engineDec (decEngine k) = some k := by
      rw [engineDec, decEngine, if_pos (by omega), Nat.add_sub_cancel_left]
    rw [Chip.unitsDue, if_neg (by rw [decEngine]; omega), if_neg (by rw [decEngine]; omega), hdec]
    have hmine : Option.filter (fun x => x.context == j.context) (some j) = some j := by simp
    dsimp only
    rw [hjob, hmine]
    rfl
  case none => rw [exec_trip, execTrip, trip_of_none (c := (s.chip, s.mem)) hnone]
  case idle => rw [exec_tinkReplayEnd, execTinkReplayEnd, tinkReplayEnd_of_idle (c := (s.chip, s.mem)) hidle]
  case completed =>
    obtain ⟨d, hd, hstep⟩ := tinkReplayEnd_completed (c := (s.chip, s.mem)) hk hl
    refine ⟨_, exec_tinkReplayEnd, ?_⟩
    rw [hstep, tinkNext_of_left (List.cons_ne_nil _ _), hd]
    exact ⟨rfl, rfl⟩
  case tripped =>
    obtain ⟨d, hcalm, hstep⟩ := tinkReplayEnd_tripped (c := (s.chip, s.mem)) hk hl h4
    refine ⟨_, exec_tinkReplayEnd, ?_⟩
    rw [hstep, tinkNext_of_left (List.cons_ne_nil _ _)]
    exact ⟨rfl, Chip.gauge_of_calm hcalm, (Chip.pat_of_calm hcalm).trans (Chip.toTrip_pat _ _ _)⟩
  case last =>
    obtain ⟨d, hd, hstep⟩ := tinkReplayEnd_completed (c := (s.chip, s.mem)) hk hl
    obtain ⟨htink, hwaits, hcalm⟩ := tinkEnd_of_culprit (k := { k with left := [] }) hcul (d, s.mem)
    have hend : tinkNext { k with left := [] } (d, s.mem) = tinkEnd { k with left := [] } (d, s.mem) := if_pos rfl
    refine ⟨_, exec_tinkReplayEnd, ?_⟩
    rw [hstep, hend]
    rw [hd] at htink hwaits hcalm
    rw [hd]
    exact ⟨htink, hwaits, Chip.gauge_of_calm hcalm, Chip.pat_of_calm hcalm⟩

end Sys2Proof.Machine
end

section
/-!
Warm chip resets, power-cycle requests and the host's requests (R352, R356 to R361, R365, R389), family 17.
-/
namespace Sys2Proof.Machine

/-! ### A pattern applied -/

/-- Loading the charts keeps the quiet part and what streams and hosts hold. -/
theorem Chip.applyPattern_gauge (c : Chip) (p : Pattern) : (c.applyPattern p).gauge =
    Gauge.setVcore { c.gauge with floor := p.policy.floor, vmin := p.policy.vmin, rowLen := p.policy.rowTicks, provisional := false }
      (max c.gauge.vcore2 (2 * p.policy.vmin)) := by
  unfold Chip.applyPattern
  exact congrArg (fun q => q.1.1) (Chip.loadCharts_quiet _ rfl)

theorem Chip.applyPattern_pat (c : Chip) (p : Pattern) : (c.applyPattern p).pat = { c.pat with pattern := some p } := by
  unfold Chip.applyPattern
  exact congrArg (fun q => q.1.2.2.1) (Chip.loadCharts_quiet _ rfl)

theorem Chip.applyPattern_rung (c : Chip) (p : Pattern) :
    (c.applyPattern p).rung = { c.rung with hushUs := p.policy.hushUs, dozeQms := p.policy.dozeQms } := by
  unfold Chip.applyPattern
  exact congrArg (fun q => q.1.2.1) (Chip.loadCharts_quiet _ rfl)

theorem Chip.applyPattern_cap (c : Chip) (p : Pattern) : (c.applyPattern p).tens.cap = p.policy.cap := by
  unfold Chip.applyPattern
  exact congrArg (fun q => q.1.2.2.2.2.cap) (Chip.loadCharts_quiet _ rfl)

/-- The recovery record but for RST_LAST and the counters of ended work. -/
theorem Chip.applyPattern_rst (c : Chip) (p : Pattern) : (Safety.quiet (c.applyPattern p)).2.1 = (Safety.quiet c).2.1 := by
  unfold Chip.applyPattern
  exact congrArg (fun q => q.2.1) (Chip.loadCharts_quiet _ rfl)

theorem Chip.applyPattern_pins (c : Chip) (p : Pattern) : { (c.applyPattern p).pins with alert := false } = { c.pins with alert := false } := by
  unfold Chip.applyPattern
  exact congrArg (fun q => q.2.2.1) (Chip.loadCharts_quiet _ rfl)

theorem Chip.applyPattern_cast (c : Chip) (p : Pattern) : (c.applyPattern p).cast = c.cast := by
  unfold Chip.applyPattern
  exact congrArg (fun q => q.1.1) (Chip.loadCharts_pump _ rfl)

theorem Chip.applyPattern_hank (c : Chip) (p : Pattern) : (c.applyPattern p).hank = { c.hank with sharedMin := p.policy.sharedMin } := by
  unfold Chip.applyPattern
  exact congrArg (fun q => q.1.2.2) (Chip.loadCharts_pump _ rfl)

/-! ### Needles tested again -/

/-- Incidents told one after another change the log and the events alone. -/
theorem Chip.foldl_incidentIf_frame (b : Chip → Nat → Bool) (i : Incident) (src arg : Nat → Nat) (l : List Nat) (c : Chip) :
    l.foldl (fun d n => d.incidentIf (b d n) i (src n) none 0 0 (arg n)) c = { c with
      log := (l.foldl (fun d n => d.incidentIf (b d n) i (src n) none 0 0 (arg n)) c).log
      evc := (l.foldl (fun d n => d.incidentIf (b d n) i (src n) none 0 0 (arg n)) c).evc } := by
  induction l generalizing c with
  | nil => rfl
  | cons n l ih =>
    rw [List.foldl_cons]
    exact (ih _).trans rfl

/-- The needles tested again, from a chip that stays the same but for log and events. -/
theorem Chip.retest_frame (c : Chip) : c.retest = { c with
    ndl := c.retest.ndl, freeCtr := c.retest.freeCtr, log := c.retest.log, evc := c.retest.evc, keep := c.retest.keep } := by
  unfold Chip.retest
  dsimp only
  rw [Chip.foldl_incidentIf_frame (b := fun d n => (d.needle n).retired && !(c.needle n).retired)]

theorem Chip.keepHanks_frame (c : Chip) : c.keepHanks = { c with hank := c.keepHanks.hank } := rfl

/-! ### Power-cycle requests -/

theorem powerCycle_trayAsked {c : Chip × Mem} (h : c.1.rst.trayReq = false) (cause engine : Nat) : Safety.TrayAsked c.1 (powerCycle cause engine c).1 := by
  have hquiet := powerCycle_quiet cause engine h
  have hcalm := powerCycle_calm cause engine c
  obtain ⟨f, hf⟩ := powerCycle_of_unasked h cause engine
  refine ⟨congrArg (fun q => q.2.1.trayReq) hquiet, congrArg (fun q => q.2.1.fenced) hquiet, ?_, Chip.gauge_of_calm hcalm, Chip.pat_of_calm hcalm⟩
  rw [hf]
  exact Chip.alarm_first _ _ _ _ _ _ _ _ _

/-! ### Warm chip resets -/

/-- What brings a chip down leaves of its recovery record. -/
theorem warmDown_rst (cause engine : Nat) (c : Chip × Mem) : (warmDown cause engine c).1.rst.trayReq = c.1.rst.trayReq ∧
    (warmDown cause engine c).1.rst.warmCount = c.1.rst.warmCount ∧ (warmDown cause engine c).1.rst.warmPending = c.1.rst.warmPending ∧
    (warmDown cause engine c).1.rst.fenced = true := by
  have hquiet := congrArg (fun q => q.2.1) (warmDown_quiet cause engine c)
  exact ⟨congrArg (fun r => r.trayReq) hquiet, congrArg (fun r => r.warmCount) hquiet, congrArg (fun r => r.warmPending) hquiet,
    congrArg (fun r => r.fenced) hquiet⟩

/-- The chip of a warm reset before its pattern is applied again: needles tested, hanks and markers of ended work given back. -/
def Chip.warmBase (c : Chip) : Chip :=
  let d := Chip.keepHanks (Chip.retest { c with hbm := { c.hbm with selfRefresh := false }, log := { c.log with hbmReady := true } })
  { d with markers := d.markers.filter (fun e => e.1 < 1024), cast := { d.cast with closedIds := [] } }
/-- The end of a warm reset: admission open, the fence gone, the reset counted and told. -/
def Chip.warmEnd (d : Chip) : Chip :=
  Chip.alarm { d with
    cast := { d.cast with closed := false }
    rst := { d.rst with fenced := false, warmPending := false, warmCount := min 65535 (d.rst.warmCount + 1), warmTimes := d.now :: d.recentWarm } }
    true .warmReset 34 388 none 0 d.rst.lastCause d.rst.lastEngine

/-- Steps 5 to 7 of a warm chip reset with the staged pattern as it was applied. -/
theorem warmUp_of_staged {c : Chip × Mem} {i : Image} (hi : c.1.pat.staged = some i) (hdigest : i.digest = c.1.pat.stagedDigest) :
    warmUp c = ((c.1.warmBase.applyPattern i.pattern).warmEnd, c.2) := by
  rw [warmUp, hi]
  exact if_neg (Decidable.not_not.mpr hdigest)

theorem Chip.warmBase_gauge (c : Chip) : c.warmBase.gauge = c.gauge := by unfold Chip.warmBase; rw [Chip.keepHanks_frame, Chip.retest_frame]
theorem Chip.warmBase_pat (c : Chip) : c.warmBase.pat = c.pat := by unfold Chip.warmBase; rw [Chip.keepHanks_frame, Chip.retest_frame]
theorem Chip.warmBase_rst (c : Chip) : c.warmBase.rst = c.rst := by unfold Chip.warmBase; rw [Chip.keepHanks_frame, Chip.retest_frame]
theorem Chip.warmBase_pins (c : Chip) : c.warmBase.pins = c.pins := by unfold Chip.warmBase; rw [Chip.keepHanks_frame, Chip.retest_frame]
theorem Chip.warmBase_rung (c : Chip) : c.warmBase.rung = c.rung := by unfold Chip.warmBase; rw [Chip.keepHanks_frame, Chip.retest_frame]

/-- The pattern brought back has the policy's floor, the time goes on, and the rest of the pattern store stays. -/
theorem Chip.warmed_gauge (c : Chip) (p : Pattern) : (c.warmBase.applyPattern p).warmEnd.gauge.floor = p.policy.floor ∧
    (c.warmBase.applyPattern p).warmEnd.gauge.time = c.gauge.time := by
  have hgauge : (c.warmBase.applyPattern p).warmEnd.gauge = _ := c.warmBase.applyPattern_gauge p
  rw [hgauge, Chip.warmBase_gauge]
  exact ⟨rfl, rfl⟩

theorem Chip.warmed_pat (c : Chip) (p : Pattern) : (c.warmBase.applyPattern p).warmEnd.pat = { c.pat with pattern := some p } := by
  have hpat : (c.warmBase.applyPattern p).warmEnd.pat = _ := c.warmBase.applyPattern_pat p
  rw [hpat, Chip.warmBase_pat]

theorem Chip.warmed_rst (c : Chip) (p : Pattern) : (c.warmBase.applyPattern p).warmEnd.rst.trayReq = c.rst.trayReq ∧
    (c.warmBase.applyPattern p).warmEnd.rst.warmCount = min 65535 (c.rst.warmCount + 1) := by
  have hrst := c.warmBase.applyPattern_rst p
  have hreq : (c.warmBase.applyPattern p).rst.trayReq = c.warmBase.rst.trayReq := congrArg (fun r => r.trayReq) hrst
  have hcount : (c.warmBase.applyPattern p).rst.warmCount = c.warmBase.rst.warmCount := congrArg (fun r => r.warmCount) hrst
  rw [Chip.warmBase_rst] at hreq hcount
  exact ⟨hreq, congrArg (fun n => min 65535 (n + 1)) hcount⟩

theorem Chip.warmEnd_open (d : Chip) : d.warmEnd.rst.fenced = false ∧ d.warmEnd.rst.warmPending = false ∧ d.warmEnd.cast.closed = false ∧
    (d.warmEnd.log.slot 34).first.isSome = true :=
  ⟨rfl, rfl, rfl, Chip.alarm_first _ _ _ _ _ _ _ _ _⟩

theorem Chip.maint_of_applied {c : Chip} (h : c.pat.mode = .applied) : c.maint = false := by
  rw [Chip.maint, h]
  rfl

/-- A warm chip reset of an applied module that is no third one within 60 s. -/
theorem warmReset_of_applied {c : Chip × Mem} (hreq : c.1.rst.trayReq = false) (hmode : c.1.pat.mode = .applied) (hfew : c.1.recentWarm.length < 2)
    (cause engine : Nat) : warmReset cause engine c = warmUp (warmDown cause engine c) := by
  rw [warmReset, if_neg (by rw [hreq, hmode]; decide), Chip.maint_of_applied hmode, if_neg Bool.false_ne_true, if_neg (by omega)]

/-- The third warm chip reset within 60 s is a power-cycle request. -/
theorem warmReset_of_third {c : Chip × Mem} (hreq : c.1.rst.trayReq = false) (hmode : c.1.pat.mode = .applied) (hmany : 2 ≤ c.1.recentWarm.length)
    (cause engine : Nat) : warmReset cause engine c = powerCycle 10 engine c := by
  rw [warmReset, if_neg (by rw [hreq, hmode]; decide), Chip.maint_of_applied hmode, if_neg Bool.false_ne_true, if_pos hmany]

/-- A warm chip reset that may run leaves what Table 17.4 says. -/
theorem warmReset_done {c : Chip × Mem} {i : Image} (h : Safety.WarmReady c.1 i) (cause engine : Nat) :
    Safety.WarmDone c.1 (warmReset cause engine c).1 i := by
  obtain ⟨hreq, hmode, hfew, hstaged, hdigest⟩ := h
  have hcalm := warmDown_calm cause engine c
  have hpat := Chip.pat_of_calm hcalm
  obtain ⟨hdownReq, hdownCount, -, -⟩ := warmDown_rst cause engine c
  rw [warmReset_of_applied hreq hmode hfew, warmUp_of_staged (i := i) (by rw [hpat]; exact hstaged) (by rw [hpat]; exact hdigest)]
  generalize (warmDown cause engine c).1 = d at hcalm hpat hdownReq hdownCount
  obtain ⟨hfenced, -, hclosed, hslot⟩ := (d.warmBase.applyPattern i.pattern).warmEnd_open
  obtain ⟨hfloor, htime⟩ := d.warmed_gauge i.pattern
  obtain ⟨hreq', hcount⟩ := d.warmed_rst i.pattern
  have hpat' := d.warmed_pat i.pattern
  rw [hpat] at hpat'
  exact ⟨hfenced, hreq'.trans (hdownReq.trans hreq), hclosed, hslot, hfloor, htime.trans (congrArg Gauge.time (Chip.gauge_of_calm hcalm)),
    (congrArg Pat.flashA hpat' :), (congrArg Pat.flashB hpat' :), (congrArg Pat.mode hpat' :).trans hmode, hcount.trans (by rw [hdownCount])⟩

/-! ### Host requests -/

theorem hostRequest_of_busy {c : Chip × Mem} (h : c.1.rst.reqBusy = true) (ok : Bool) (run : Chip × Mem → Chip × Mem) (absorbed : Chip → Bool) :
    hostRequest ok run absorbed c = (c.1.regIncident .requestIgnored 0x700004, c.2) := by
  rw [hostRequest, if_pos h]

theorem hostRequest_of_fenced {c : Chip × Mem} (hbusy : c.1.rst.reqBusy = false) (h : c.1.rst.fenced = true) (ok : Bool)
    (run : Chip × Mem → Chip × Mem) (absorbed : Chip → Bool) : hostRequest ok run absorbed c = (c.1.requestDone 3, c.2) := by
  rw [hostRequest, hbusy, if_neg Bool.false_ne_true, if_pos (by rw [h]; rfl)]

/-- A request that nothing higher absorbs. -/
theorem hostRequest_of_free {c : Chip × Mem} (hbusy : c.1.rst.reqBusy = false) (hfence : c.1.rst.fenced = false) (hreq : c.1.rst.trayReq = false)
    (hmode : c.1.pat.mode ≠ .starting) (ok : Bool) (run : Chip × Mem → Chip × Mem) (absorbed : Chip → Bool) : hostRequest ok run absorbed c =
      if ok then ((run c).1.requestDone (if absorbed (run c).1 then 3 else 1), (run c).2) else (c.1.requestDone 2, c.2) := by
  have hmode' : (c.1.pat.mode == .starting) = false := by simpa using hmode
  rw [hostRequest, hbusy, if_neg Bool.false_ne_true, hfence, hreq, hmode', if_neg (by decide)]

/-- The end of a request changes its own fields and the events. -/
theorem Chip.requestDone_frame (c : Chip) (n : Nat) : c.requestDone n =
    { c with rst := { c.rst with reqBusy := false, reqResult := n }, evc := (c.requestDone n).evc } := rfl

theorem Chip.requestDone_pending (c : Chip) (n : Nat) : ((c.requestDone n).evc.src 392).pending = true := Evc.edge_pending rfl _ _ _

theorem warmDone_requestDone {c d : Chip} {i : Image} (h : Safety.WarmDone c d i) (n : Nat) : Safety.WarmDone c (d.requestDone n) i := h

theorem trayAsked_requestDone {c d : Chip} (h : Safety.TrayAsked c d) (n : Nat) : Safety.TrayAsked c (d.requestDone n) := h

/-! ### Frogs -/

/-- A fold of steps that each keep a part of the chip keeps it. -/
theorem Chip.foldl_keeps {α β : Type} (π : Chip → β) (f : Chip → α → Chip) (hf : ∀ d a, π (f d a) = π d) (l : List α) (c : Chip) :
    π (l.foldl f c) = π c := by
  induction l generalizing c with
  | nil => rfl
  | cons a l ih => exact (ih _).trans (hf c a)

theorem Chip.tinkOver_cast (c : Chip) (k : Tink) : (c.tinkOver k).cast = c.cast := by
  unfold Chip.tinkOver
  cases k.culprits.isEmpty with
  | true => rfl
  | false => rfl

theorem Chip.endTink_cast (c : Chip) : c.endTink.cast = c.cast :=
  Chip.foldl_keeps (fun d => d.cast) Chip.tinkOver Chip.tinkOver_cast c.rst.tinks c

/-- A context of a live stage frogged: recorded, and its stream brought up to date. -/
theorem frogContext_spec {ctx : Nat} {c : Chip × Mem} {t : Ticket} {p : Placed} (ht : c.1.ctxTicket ctx = some t) (hp : t.stageOf ctx = some p) (cause : Nat) :
    ∃ u : Chip × Mem, frogContext cause ctx c = progress t.id u ∧ Safety.quiet u.1 = Safety.quiet c.1 ∧ u.1.rst.lastValid = true ∧ u.1.rst.lastLevel = 1 ∧
      u.1.rst.lastCause = cause ∧ u.1.rst.lastCtx = ctx := by
  unfold frogContext
  simp only [ht, hp]
  refine ⟨_, rfl, ?_, rfl, rfl, rfl, rfl⟩
  exact Chip.frogHanks_quiet _ t p ctx (Chip.frogKind_quiet _ t p (frogNeedles_quiet [ctx] c rfl))

end Sys2Proof.Machine
end

section
/-!
The recoveries that the module or the host requests (R352, R356 to R361, R365, R389), family 17.
-/
namespace Sys2Proof.Machine

/-- A holder core's trip is a warm chip reset. -/
theorem trip_of_core {e ctx : Nat} {c : Chip × Mem} (hlo : 149 ≤ e) (hhi : e < 153) (hfence : c.1.rst.fenced = false) :
    trip e ctx c = warmReset 8 e (c.1.countTrip e ctx, c.2) := by
  have hreal : realEngine e = true := by simp [realEngine]; omega
  have hwait : c.1.waitsForTrip e (ctx % 16384) = false := by
    have hlt : decide (e < 64) = false := by simp; omega
    simp [Chip.waitsForTrip, hlt]
  simp only [trip, hreal, hfence, hwait, Bool.not_true, Bool.or_false, if_neg Bool.false_ne_true, if_pos (And.intro hlo hhi)]

/-- A maintenance start (R359) where no power cycle is asked for. -/
theorem maintenanceStart_spec {c : Chip × Mem} (h : c.1.rst.trayReq = false) : (maintenanceStart c).1.pat.maintCause = 2 ∧
    (maintenanceStart c).1.cast.closed = true ∧ (maintenanceStart c).1.rnd.slipped = true ∧ (maintenanceStart c).1.rst.fenced = false ∧
    (maintenanceStart c).1.pat.mode = (if (c.1.pat.recovery.full c.1.pat.romRev).1 = 0 then .maintRecovery else .maintRom) := by
  have hpat := Chip.pat_of_calm (warmDown_calm 2 0xFF c)
  unfold maintenanceStart
  rw [h, if_neg Bool.false_ne_true]
  refine ⟨rfl, rfl, rfl, rfl, ?_⟩
  show (if ((warmDown 2 0xFF c).1.pat.recovery.full (warmDown 2 0xFF c).1.pat.romRev).1 = 0 then PatMode.maintRecovery else PatMode.maintRom) = _
  rw [hpat]

/-- A context frogged at the host's request, of a live ticket that is no garment's. -/
theorem hostFrog_spec {ctx : Nat} {c : Chip × Mem} {t : Ticket} {p : Placed} (ht : c.1.ctxTicket ctx = some t) (hg : t.garment = none)
    (hp : t.stageOf ctx = some p) : ∃ u : Chip × Mem, hostFrog ctx c = progress t.id u ∧ u.1.calm = c.1.calm ∧ u.1.rst.tink = none ∧
      u.1.rst.lastValid = true ∧ u.1.rst.lastLevel = 1 ∧ u.1.rst.lastCause = 2 ∧ u.1.rst.lastCtx = ctx := by
  have hended : c.1.endTink.ctxTicket ctx = some t := by rw [Chip.ctxTicket, Chip.endTink_cast]; exact ht
  obtain ⟨u, hu, hquiet, hvalid, hlevel, hcause, hctx⟩ := frogContext_spec (c := (c.1.endTink, c.2)) hended hp 2
  refine ⟨u, ?_, (Chip.calm_of_quiet hquiet).trans c.1.endTink_calm, (Chip.rst_quiet_tink hquiet).1, hvalid, hlevel, hcause, hctx⟩
  simp only [hostFrog, hended, Option.bind_some, hg]
  exact hu

theorem smbReset_of_managed {c : Chip × Mem} (hm : c.1.managed = true) (level : Nat) : smbReset level c =
    if level ≠ 3 ∧ level ≠ 4 then (c.1.smbAnswer (.vendor 5 vcBad []), c.2)
    else if c.1.rst.reqBusy then (c.1.smbAnswer (.vendor 5 vcBusy []), c.2)
    else if level = 3 then warmRequest (c.1.smbAnswer (.vendor 5 vcOk []), c.2)
    else maintRequest (c.1.smbAnswer (.vendor 5 vcOk []), c.2) := by
  rw [smbReset, hm, Bool.not_true, if_neg Bool.false_ne_true]

theorem Chip.aux_of_managed {c : Chip} (h : c.managed = true) : c.pins.aux = true := by
  simp only [Chip.managed, Bool.and_eq_true] at h
  exact h.1.1

/-- A request that the host makes while one is in progress. -/
theorem exec_request_of_busy {s : State} (h : s.chip.rst.reqBusy = true) (p ctx : Nat) {c : Instr}
    (hc : c ∈ [Instr.frog ctx, .panelReset p, .warmChipReset, .maintenanceStart, .powerCycle]) :
    exec c s = .next { s with chip := s.chip.regIncident .requestIgnored 0x700004 } := by
  have hreq := fun ok run absorbed => hostRequest_of_busy (c := (s.chip, s.mem)) h ok run absorbed
  simp only [List.mem_cons, List.not_mem_nil, or_false] at hc
  obtain rfl | rfl | rfl | rfl | rfl := hc
  · rw [exec_frog, execFrog, frogRequest, hreq]
  · rw [exec_panelReset, execPanelReset, panelRequest, hreq]
  · rw [exec_warmChipReset, execWarmChipReset, warmRequest, hreq]
  · rw [exec_maintenanceStart, execMaintenanceStart, maintRequest, hreq]
  · rw [exec_powerCycle, execPowerCycle, cycleRequest, hreq]

/-- A request that a fence absorbs. -/
theorem exec_request_of_fenced {s : State} (hbusy : s.chip.rst.reqBusy = false) (h : s.chip.rst.fenced = true) (p ctx : Nat) {c : Instr}
    (hc : c ∈ [Instr.frog ctx, .panelReset p, .warmChipReset, .maintenanceStart, .powerCycle]) :
    exec c s = .next { s with chip := s.chip.requestDone 3 } := by
  have hreq := fun ok run absorbed => hostRequest_of_fenced (c := (s.chip, s.mem)) hbusy h ok run absorbed
  simp only [List.mem_cons, List.not_mem_nil, or_false] at hc
  obtain rfl | rfl | rfl | rfl | rfl := hc
  · rw [exec_frog, execFrog, frogRequest, hreq]
  · rw [exec_panelReset, execPanelReset, panelRequest, hreq]
  · rw [exec_warmChipReset, execWarmChipReset, warmRequest, hreq]
  · rw [exec_maintenanceStart, execMaintenanceStart, maintRequest, hreq]
  · rw [exec_powerCycle, execPowerCycle, cycleRequest, hreq]

/-- Settles O44: each level by what it leaves, each request by the way it is answered. -/
theorem recoveriesRun : Obligations.RecoveriesRun := by
  unfold Obligations.RecoveriesRun
  refine ⟨fun s i b p e ctx hready hlo hhi hfence c hc => ?warm, fun s i hready hbusy hfence => ?asked, fun s hreq hmode hmany => ⟨?third, fun hbusy hfence => ?askedThird⟩,
    fun s hreq => ?overrun, fun s => rfl, fun s p hp => ?panel, fun s hbusy hfence hreq hmode => ⟨fun p hp => ?panelAsked, fun p hp => ?panelRefused,
      fun ctx k q hk hfn hg hq => ?frog, fun ctx hno => ?frogRefused, ?maint, ?cycle⟩,
    fun s p ctx hbusy c hc => exec_request_of_busy hbusy p ctx hc, fun s p ctx hbusy hfence c hc => exec_request_of_fenced hbusy hfence p ctx hc,
    fun s hm => ⟨fun hbusy => ?smbFree, fun hbusy => ?smbBusy, ?smbBad⟩⟩
  case warm =>
    simp only [List.mem_cons, List.not_mem_nil, or_false] at hc
    obtain rfl | rfl | rfl := hc
    · exact ⟨_, exec_heartbeatTimeout, warmReset_done (c := (s.chip, s.mem)) hready 8 0xFF⟩
    · exact ⟨_, exec_recoveryOverrun, warmReset_done (c := (s.chip, s.mem)) hready 7 _⟩
    · refine ⟨_, exec_trip, ?_⟩
      rw [trip_of_core (c := (s.chip, s.mem)) hlo hhi hfence]
      exact warmReset_done (c := (s.chip.countTrip e ctx, s.mem)) hready 8 e
  case asked =>
    obtain ⟨hreq, hmode, -⟩ := id hready
    have hdone := warmReset_done (c := (s.chip, s.mem)) hready 2 0xFF
    refine ⟨_, exec_warmChipReset, ?_⟩
    rw [warmRequest, hostRequest_of_free (c := (s.chip, s.mem)) hbusy hfence hreq (by rw [hmode]; decide), if_pos rfl]
    have hanswer : (if (warmReset 2 0xFF (s.chip, s.mem)).1.rst.trayReq = true then 3 else 1) = 1 := by rw [hdone.2.1]; rfl
    exact ⟨warmDone_requestDone hdone _, hanswer, Chip.requestDone_pending _ _⟩
  case third =>
    refine ⟨_, exec_heartbeatTimeout, ?_⟩
    rw [warmReset_of_third (c := (s.chip, s.mem)) hreq hmode hmany]
    exact powerCycle_trayAsked (c := (s.chip, s.mem)) hreq _ _
  case askedThird =>
    have hasked : (warmReset 2 0xFF (s.chip, s.mem)).1.rst.trayReq = true := by
      rw [warmReset_of_third (c := (s.chip, s.mem)) hreq hmode hmany]
      exact (powerCycle_trayAsked (c := (s.chip, s.mem)) hreq _ _).1
    refine ⟨_, exec_warmChipReset, ?_⟩
    rw [warmRequest, hostRequest_of_free (c := (s.chip, s.mem)) hbusy hfence hreq (by rw [hmode]; decide), if_pos rfl]
    exact ⟨hasked, if_pos hasked⟩
  case overrun => exact ⟨_, exec_recoveryOverrun, powerCycle_trayAsked (c := (s.chip, s.mem)) hreq _ _⟩
  case panel =>
    obtain ⟨e, m, hstep, hreset, -⟩ := panelReset_spec p 5 s.chip.rst.lastEngine (s.chip, s.mem)
    refine ⟨{ s with chip := e, mem := m }, ?_, hreset⟩
    rw [exec_recoveryOverrun, execRecoveryOverrun]
    simp only [overrun, hp, hstep]
    rfl
  case panelAsked =>
    obtain ⟨e, m, hstep, hreset, -⟩ := panelReset_spec p 2 0xFF (s.chip, s.mem)
    refine ⟨{ s with chip := e, mem := m }, hreset, ?_⟩
    rw [exec_panelReset, execPanelReset, panelRequest, hostRequest_of_free (c := (s.chip, s.mem)) hbusy hfence hreq hmode, if_pos hp, hstep]
    rfl
  case panelRefused =>
    rw [exec_panelReset, execPanelReset, panelRequest, hostRequest_of_free (c := (s.chip, s.mem)) hbusy hfence hreq hmode,
      if_neg (by rw [hp]; exact Bool.false_ne_true)]
  case frog =>
    have hallowed : s.chip.frogAllowed ctx = true := by simp [Chip.frogAllowed, hk, hfn]
    obtain ⟨⟨d, m⟩, hstep, hcalm, htink, hvalid, hlevel, hcause, hctx⟩ := hostFrog_spec (c := (s.chip, s.mem)) hk hg hq
    refine ⟨{ s with chip := d, mem := m }, ?_, hvalid, hlevel, hcause, hctx, htink, Chip.gauge_of_calm hcalm, Chip.pat_of_calm hcalm⟩
    rw [exec_frog, execFrog, frogRequest, hostRequest_of_free (c := (s.chip, s.mem)) hbusy hfence hreq hmode, if_pos hallowed, hstep]
    simp only [Safety.upToDate, if_neg Bool.false_ne_true]
  case frogRefused =>
    rw [exec_frog, execFrog, frogRequest, hostRequest_of_free (c := (s.chip, s.mem)) hbusy hfence hreq hmode,
      if_neg (by rw [hno]; exact Bool.false_ne_true)]
  case maint =>
    obtain ⟨hcause, hclosed, hslip, hopen, hentered⟩ := maintenanceStart_spec (c := (s.chip, s.mem)) hreq
    refine ⟨_, exec_maintenanceStart, ?_⟩
    rw [maintRequest, hostRequest_of_free (c := (s.chip, s.mem)) hbusy hfence hreq hmode, if_pos rfl]
    generalize maintenanceStart (s.chip, s.mem) = m at hcause hclosed hslip hopen hentered
    exact ⟨hcause, hclosed, hslip, hopen, hentered, rfl⟩
  case cycle =>
    refine ⟨_, exec_powerCycle, ?_⟩
    rw [cycleRequest, hostRequest_of_free (c := (s.chip, s.mem)) hbusy hfence hreq hmode, if_pos rfl]
    exact ⟨trayAsked_requestDone (powerCycle_trayAsked (c := (s.chip, s.mem)) hreq 2 0xFF) _, rfl, rfl⟩
  case smbFree =>
    have haux := Chip.aux_of_managed hm
    rw [exec_requestReset, exec_requestReset, execRequestReset, execRequestReset, smbReset_of_managed (c := (s.chip, s.mem)) hm,
      smbReset_of_managed (c := (s.chip, s.mem)) hm, if_neg (by decide), if_neg (by rw [hbusy]; exact Bool.false_ne_true), if_pos rfl,
      if_neg (by decide), if_neg (by rw [hbusy]; exact Bool.false_ne_true), if_neg (by decide), Chip.smbAnswer_of_aux haux]
    exact ⟨rfl, rfl⟩
  case smbBusy =>
    have haux := Chip.aux_of_managed hm
    rw [exec_requestReset, exec_requestReset, execRequestReset, execRequestReset, smbReset_of_managed (c := (s.chip, s.mem)) hm,
      smbReset_of_managed (c := (s.chip, s.mem)) hm, if_neg (by decide), if_pos hbusy, if_neg (by decide), if_pos hbusy, Chip.smbAnswer_of_aux haux]
    exact ⟨rfl, rfl⟩
  case smbBad =>
    rw [exec_requestReset, execRequestReset, smbReset_of_managed (c := (s.chip, s.mem)) hm, if_pos (by decide),
      Chip.smbAnswer_of_aux (Chip.aux_of_managed hm)]
    rfl

end Sys2Proof.Machine
end

section
/-!
A start (Table 14.9, R300 to R305), family 14: what its steps leave of the pattern store, the tickets and the gauge.
-/
namespace Sys2Proof.Machine

/-! ### The gauge runs on -/

theorem Gauge.running_windowLoop (doze : Bool) (acc : Gauge × Nat × List Nat) (kc : Nat × Nat) :
    (windowLoop doze acc kc).1.running = acc.1.running := by
  unfold windowLoop
  dsimp only
  split
  next => rfl
  next =>
    split
    next => rfl
    next => rfl

theorem Gauge.running_window (g : Gauge) (doze : Bool) (counts : List Nat) : (g.window doze counts).1.running = g.running := by
  unfold Gauge.window
  suffices ∀ (l : List (Nat × Nat)) (acc : Gauge × Nat × List Nat), (l.foldl (windowLoop doze) acc).1.running = acc.1.running from this _ _
  intro l
  induction l with
  | nil => exact fun _ => rfl
  | cons x l ih => exact fun acc => (ih _).trans (Gauge.running_windowLoop doze acc x)

theorem Gauge.running_fastStep (g : Gauge) (low : Nat) : (g.fastStep low).running = g.running := by
  unfold Gauge.fastStep
  split
  next => rfl
  next => rfl

theorem Gauge.running_windowEnd (g : Gauge) (doze : Bool) (counts : List Nat) : (g.windowEnd doze counts).1.running = g.running := by
  unfold Gauge.windowEnd
  cases doze with
  | true => exact Gauge.running_window _ _ _
  | false => exact (Gauge.running_fastStep _ _).trans (Gauge.running_window _ _ _)

theorem Gauge.running_r30 (g : Gauge) (low : Nat) : (g.r30 low).running = g.running := by
  unfold Gauge.r30
  split
  next => rfl
  next =>
    split
    next => split <;> rfl
    next => rfl

theorem Gauge.running_timers (g : Gauge) (t : Nat) : (g.timers t).running = g.running := by
  unfold Gauge.timers
  dsimp only
  split <;> split <;> rfl

/-! ### What the steps of a start touch -/

/-- A chip without its gauge, its log and its events. -/
def Chip.rest (c : Chip) : Chip := { c with gauge := {}, log := {}, evc := {} }

/-- A window's end changes the gauge, the log and its event alone. -/
theorem Chip.gaugeWindowEnd_rest (c : Chip) (counts : List Nat) : (c.gaugeWindowEnd counts).rest = c.rest := by
  unfold Chip.gaugeWindowEnd
  split
  next => exact Chip.foldl_keeps Chip.rest (fun d k => d.note .implausible srcGar none 0 0 k) (fun _ _ => rfl) _ _
  next => rfl

theorem Chip.running_gaugeWindowEnd (c : Chip) (counts : List Nat) : (c.gaugeWindowEnd counts).gauge.running = c.gauge.running := by
  unfold Chip.gaugeWindowEnd
  split
  next =>
    exact (Chip.foldl_keeps (fun d : Chip => d.gauge.running) (fun d k => d.note .implausible srcGar none 0 0 k) (fun _ _ => rfl) _ _).trans
      (Gauge.running_windowEnd _ _ _)
  next => rfl

theorem Chip.startWindow_rest (c : Chip) (counts : List Nat) : (c.startWindow counts).rest = c.rest :=
  Chip.gaugeWindowEnd_rest { c with gauge := c.gauge.timers (c.gauge.windowStart + 250) } counts

theorem Chip.running_startWindow (c : Chip) (counts : List Nat) : (c.startWindow counts).gauge.running = c.gauge.running :=
  (Chip.running_gaugeWindowEnd { c with gauge := c.gauge.timers (c.gauge.windowStart + 250) } counts).trans (Gauge.running_timers _ _)

/-- The windows and the boundary of a provisional row change the gauge, the log and its event alone. -/
theorem Chip.startRow_rest (c : Chip) (windows : List (List Nat)) : (c.startRow windows).rest = c.rest :=
  Chip.foldl_keeps Chip.rest Chip.startWindow Chip.startWindow_rest windows c

theorem Chip.running_startRow (c : Chip) (windows : List (List Nat)) : (c.startRow windows).gauge.running = c.gauge.running := by
  have hwindows := Chip.foldl_keeps (fun d : Chip => d.gauge.running) Chip.startWindow Chip.running_startWindow windows c
  exact (Gauge.running_r30 _ _).trans hwindows

theorem Chip.sampleStraps_keeps (c : Chip) (e : StartEnv) :
    (c.sampleStraps e).pat = c.pat ∧ (c.sampleStraps e).cast = c.cast ∧ (c.sampleStraps e).gauge = c.gauge := by
  unfold Chip.sampleStraps
  cases e.straps with
  | some v => exact ⟨rfl, rfl, rfl⟩
  | none => exact ⟨rfl, rfl, rfl⟩

theorem Chip.alarmIf_keeps {c : Chip} (b e : Bool) (i : Incident) (k src : Nat) (ctx : Option Nat) (ticket argHi arg : Nat) :
    (c.alarmIf b e i k src ctx ticket argHi arg).pat = c.pat ∧ (c.alarmIf b e i k src ctx ticket argHi arg).cast = c.cast ∧
    (c.alarmIf b e i k src ctx ticket argHi arg).gauge = c.gauge := by
  cases b with
  | true => exact ⟨rfl, rfl, rfl⟩
  | false => exact ⟨rfl, rfl, rfl⟩

theorem Chip.crystalFail_keeps (c : Chip) :
    c.crystalFail.pat = c.pat ∧ c.crystalFail.cast = c.cast ∧ c.crystalFail.gauge.running = c.gauge.running := by
  obtain ⟨hpat, hcast, hgauge⟩ := Chip.alarmIf_keeps (c := { c with gauge := { c.gauge with crystalFail := true, holdCrystal := true } })
    (!c.gauge.crystalFail) false .crystalFail 0 srcGar none 0 0 0
  unfold Chip.crystalFail Chip.garRise
  generalize Chip.alarmIf { c with gauge := { c.gauge with crystalFail := true, holdCrystal := true } } _ _ _ _ _ _ _ _ _ = d at hpat hcast hgauge
  obtain ⟨hpat', hcast', hgauge'⟩ := Chip.alarmIf_keeps (c := d) (d.gar && !c.gar) true .garRise 1 srcGar none 0 0 0
  exact ⟨hpat'.trans hpat, hcast'.trans hcast, (congrArg Gauge.running hgauge').trans (congrArg Gauge.running hgauge :)⟩

theorem Chip.selfTest_keeps (c : Chip) (e : StartEnv) (full : Bool) :
    (c.selfTest e full).pat = c.pat ∧ (c.selfTest e full).cast = c.cast ∧ (c.selfTest e full).gauge = c.gauge := by
  unfold Chip.selfTest
  dsimp only
  rw [Chip.foldl_incidentIf_frame (b := fun d n => (d.needle n).retired)]
  exact ⟨rfl, rfl, rfl⟩

/-- The chip of a start once its rails, its link and its memories are up: before the self-test. -/
def Chip.powered (c : Chip) (e : StartEnv) (full : Bool) : Chip :=
  let d := c.fresh.sampleStraps e
  { d with
    gauge := { d.gauge with
      vcore2 := if full then 1600 else c.keep.vcore2, settled2 := if full then 1600 else c.keep.vcore2, running := true
      windowStart := d.now, rowStart := d.now, loops := c.pat.loops }
    pcie := { d.pcie with up := true, speed := e.speed, width := e.width }
    hbm := { trained := true, hotStacks := e.hotStacks }
    log := { d.log with hbmReady := true, persReady := true, persCopy := d.log.pers }
    pins := { d.pins with perstN := true }
    keep := { d.keep with training := true, cycled := false } }

theorem Chip.bringUp_eq (c : Chip) (e : StartEnv) (full : Bool) : c.bringUp e full =
    (e.provRows.foldl Chip.startRow ((if e.crystalOk then c.powered e full else (c.powered e full).crystalFail).selfTest e full)).advance
      (c.now + 25000 * e.startMs) := rfl

/-- Steps 1 to 6 of a start leave the pattern store and the tickets as the fresh chip has them; the gauge runs. -/
theorem Chip.bringUp_keeps (c : Chip) (e : StartEnv) (full : Bool) :
    (c.bringUp e full).pat = c.fresh.pat ∧ (c.bringUp e full).cast = c.fresh.cast ∧ (c.bringUp e full).gauge.running = true := by
  obtain ⟨hpat, hcast, -⟩ := c.fresh.sampleStraps_keeps e
  have hpowered : (c.powered e full).pat = c.fresh.pat ∧ (c.powered e full).cast = c.fresh.cast ∧ (c.powered e full).gauge.running = true :=
    ⟨hpat, hcast, rfl⟩
  rw [Chip.bringUp_eq]
  generalize c.powered e full = p at hpowered
  generalize hx : (if e.crystalOk then p else p.crystalFail) = x
  have hcrystal : x.pat = p.pat ∧ x.cast = p.cast ∧ x.gauge.running = p.gauge.running := by
    rw [← hx]
    cases e.crystalOk with
    | true => exact ⟨rfl, rfl, rfl⟩
    | false => exact p.crystalFail_keeps
  obtain ⟨htpat, htcast, htgauge⟩ := x.selfTest_keeps e full
  have hrows := Chip.foldl_keeps Chip.rest Chip.startRow Chip.startRow_rest e.provRows (x.selfTest e full)
  have hrun := Chip.foldl_keeps (fun d : Chip => d.gauge.running) Chip.startRow Chip.running_startRow e.provRows (x.selfTest e full)
  generalize x.selfTest e full = y at htpat htcast htgauge hrows hrun ⊢
  generalize e.provRows.foldl Chip.startRow y = z at hrows hrun ⊢
  have hzpat : z.pat = y.pat := congrArg (fun d => d.pat) hrows
  have hzcast : z.cast = y.cast := congrArg (fun d => d.cast) hrows
  have hzrun : z.gauge.running = y.gauge.running := hrun
  exact ⟨hzpat.trans (htpat.trans (hcrystal.1.trans hpowered.1)), hzcast.trans (htcast.trans (hcrystal.2.1.trans hpowered.2.1)),
    hzrun.trans ((congrArg Gauge.running htgauge).trans (hcrystal.2.2.trans hpowered.2.2))⟩

/-! ### A slot applied -/

/-- The parts that a start sets and that neither the ring nor the build record touches. -/
abbrev Chip.setAtStart (c : Chip) : Pat × Cast × Gauge × Hank × Tens := (c.pat, c.cast, c.gauge, c.hank, c.tens)

theorem Chip.joinRing_keeps (c : Chip) (e : StartEnv) : (c.joinRing e).setAtStart = c.setAtStart := by
  unfold Chip.joinRing
  split
  next =>
    split
    next => split <;> rfl
    next => rfl
  next => rfl

theorem Chip.logBuild_keeps (c : Chip) (id : Nat) : (c.logBuild id).setAtStart = c.setAtStart :=
  Chip.foldl_keeps Chip.setAtStart (fun d i => d.note .buildId srcLog none 0 i (id / 2 ^ (32 * i))) (fun _ _ => rfl) (List.range 4) c

/-- The chip whose pattern store names the slot applied. -/
def Chip.withSlot (c : Chip) (b old : Bool) (i : Image) (seq : Nat) (e : StartEnv) : Chip :=
  { c with
    pat := { c.pat with
      mode := .applied, applied := true, slotB := b, fallback := old, version := i.version, seq := seq, startMs := e.startMs % 65536
      digest := i.digest, staged := some i, stagedDigest := i.digest }
    keep := { c.keep with digest := i.digest, slotB := b } }

/-- What a slot applied leaves (steps 8 and 9 of Table 14.9). -/
theorem applied_spec (b old : Bool) (i : Image) (seq : Nat) (e : StartEnv) (c : Chip) :
    (applied b old i seq e c).2 = loadSegments i.pattern [] ∧
    (applied b old i seq e c).1.pat = { (c.withSlot b old i seq e).pat with pattern := some i.pattern } ∧
    (applied b old i seq e c).1.cast = { c.cast with closed := false } ∧
    (applied b old i seq e c).1.gauge.floor = i.pattern.policy.floor ∧ (applied b old i seq e c).1.gauge.vmin = i.pattern.policy.vmin ∧
    (applied b old i seq e c).1.gauge.rowLen = i.pattern.policy.rowTicks ∧ (applied b old i seq e c).1.gauge.firstRow = true ∧
    (applied b old i seq e c).1.gauge.running = c.gauge.running ∧ (applied b old i seq e c).1.hank.ready = true ∧
    (applied b old i seq e c).1.hank.sharedMin = i.pattern.policy.sharedMin ∧ (applied b old i seq e c).1.tens.cap = i.pattern.policy.cap := by
  have hbuild := (c.withSlot b old i seq e).logBuild_keeps i.buildId
  generalize hd : (c.withSlot b old i seq e).logBuild i.buildId = d at hbuild
  have hrun : (applied b old i seq e c).1 = Chip.joinRing { d.applyPattern i.pattern with
      cast := { (d.applyPattern i.pattern).cast with closed := false }, hank := { (d.applyPattern i.pattern).hank with ready := true }
      gauge := { (d.applyPattern i.pattern).gauge with
        rowStart := (d.applyPattern i.pattern).now, firstRow := true, startRows := 0, marginMet := false } } e := by
    rw [← hd]
    rfl
  have hjoin := Chip.joinRing_keeps { d.applyPattern i.pattern with
      cast := { (d.applyPattern i.pattern).cast with closed := false }, hank := { (d.applyPattern i.pattern).hank with ready := true }
      gauge := { (d.applyPattern i.pattern).gauge with
        rowStart := (d.applyPattern i.pattern).now, firstRow := true, startRows := 0, marginMet := false } } e
  rw [← hrun] at hjoin
  simp only [Chip.setAtStart, Prod.mk.injEq, Chip.applyPattern_pat, Chip.applyPattern_cast, Chip.applyPattern_gauge, Chip.applyPattern_hank] at hjoin hbuild
  obtain ⟨hpat, hcast, hgauge, hhank, htens⟩ := hjoin
  obtain ⟨hdpat, hdcast, hdgauge, -, -⟩ := hbuild
  rw [hdpat] at hpat
  rw [hdcast] at hcast
  refine ⟨rfl, hpat, hcast, ?_, ?_, ?_, ?_, ?_, ?_, ?_, (congrArg Tens.cap htens).trans (d.applyPattern_cap i.pattern)⟩
  · rw [hgauge]; rfl
  · rw [hgauge]; rfl
  · rw [hgauge]; rfl
  · rw [hgauge]
  · rw [hgauge]; exact (congrArg Gauge.running hdgauge :)
  · rw [hhank]
  · rw [hhank]

/-- The chip with its slots judged. -/
def Chip.judged (c : Chip) : Chip :=
  let j := judgeSlots c.pat.romRev c.pat.flashA c.pat.flashB
  { c with pat := { c.pat with
    resA := j.resA, resB := j.resB, checkA := j.checkA, checkB := j.checkB, seqA := c.pat.flashA.seq, seqB := c.pat.flashB.seq } }

theorem Chip.chooseSlot_of_none {c : Chip} (e : StartEnv) (h : (judgeSlots c.pat.romRev c.pat.flashA c.pat.flashB).slotB = none) :
    c.chooseSlot e = (c.judged.maintain 1, []) := by
  rw [Chip.chooseSlot]
  simp only [h]
  rfl

theorem Chip.chooseSlot_of_blank {c : Chip} {b : Bool} (e : StartEnv) (h : (judgeSlots c.pat.romRev c.pat.flashA c.pat.flashB).slotB = some b)
    (hi : (if b then c.pat.flashB else c.pat.flashA).image = none) : c.chooseSlot e = (c.judged.maintain 1, []) := by
  rw [Chip.chooseSlot]
  simp only [h, hi]
  rfl

theorem Chip.chooseSlot_of_image {c : Chip} {b : Bool} {i : Image} (e : StartEnv)
    (h : (judgeSlots c.pat.romRev c.pat.flashA c.pat.flashB).slotB = some b)
    (hi : (if b then c.pat.flashB else c.pat.flashA).image = some i) : c.chooseSlot e =
      applied b (judgeSlots c.pat.romRev c.pat.flashA c.pat.flashB).fallback i (if b then c.pat.flashB else c.pat.flashA).seq e c.judged := by
  rw [Chip.chooseSlot]
  simp only [h, hi]
  rfl

/-- The slots chosen on a chip brought up from `c` leave what R300, R302 and R305 say. -/
theorem Chip.chooseSlot_started {c p : Chip} (s : State) (e : StartEnv) (r : RungB) (hpat : p.pat = c.fresh.pat) (htickets : p.cast.tickets = [])
    (hrun : p.gauge.running = true) : Safety.Started c { s with chip := { (p.chooseSlot e).1 with rung := r }, mem := (p.chooseSlot e).2 } := by
  have hrom : p.pat.romRev = c.pat.romRev := (congrArg Pat.romRev hpat :)
  have hA : p.pat.flashA = c.pat.flashA := (congrArg Pat.flashA hpat :)
  have hB : p.pat.flashB = c.pat.flashB := (congrArg Pat.flashB hpat :)
  have hrec : p.pat.recovery = c.pat.recovery := (congrArg Pat.recovery hpat :)
  unfold Safety.Started
  rw [← hrom, ← hA, ← hB, ← hrec]
  dsimp only
  cases hslot : (judgeSlots p.pat.romRev p.pat.flashA p.pat.flashB).slotB with
  | none =>
    rw [Chip.chooseSlot_of_none e hslot]
    exact ⟨rfl, rfl, rfl, rfl, rfl, rfl, rfl, htickets, hrun, fun _ => ⟨rfl, rfl, rfl, rfl, rfl⟩, fun b i hb => nomatch hb⟩
  | some b =>
    cases himage : (if b then p.pat.flashB else p.pat.flashA).image with
    | none =>
      rw [Chip.chooseSlot_of_blank e hslot himage]
      refine ⟨rfl, rfl, rfl, rfl, rfl, rfl, rfl, htickets, hrun, (fun hb => nomatch hb), fun b' i hb hi => ?_⟩
      obtain rfl := Option.some.inj hb
      rw [himage] at hi
      exact nomatch hi
    | some i =>
      rw [Chip.chooseSlot_of_image e hslot himage]
      obtain ⟨hmem, hapat, hacast, hfloor, hvmin, hrow, hfirst, hgrun, hready, hshared, hcap⟩ := applied_spec b
        (judgeSlots p.pat.romRev p.pat.flashA p.pat.flashB).fallback i (if b then p.pat.flashB else p.pat.flashA).seq e p.judged
      generalize applied b _ i _ e p.judged = x at hmem hapat hacast hfloor hvmin hrow hfirst hgrun hready hshared hcap ⊢
      rw [hapat, hacast]
      refine ⟨rfl, rfl, rfl, rfl, rfl, rfl, rfl, htickets, hgrun.trans hrun, (fun hb => nomatch hb), fun b' i' hb hi => ?_⟩
      obtain rfl := Option.some.inj hb
      obtain rfl := Option.some.inj (himage.symm.trans hi)
      exact ⟨hmem, rfl, rfl, rfl, rfl, rfl, rfl, rfl, hfloor, hvmin, hrow, hfirst, hready, hshared, hcap⟩

/-- A full start leaves what R300, R302 and R305 say. -/
theorem fullStart_started (c : Chip) (s : State) (e : StartEnv) :
    Safety.Started c { s with chip := (fullStart e c).1, mem := (fullStart e c).2 } := by
  obtain ⟨hpat, hcast, hrun⟩ := c.bringUp_keeps e true
  exact Chip.chooseSlot_started s e _ hpat (congrArg Cast.tickets hcast) hrun

end Sys2Proof.Machine
end

section
/-!
PERST#, MOD_RST_N, supplies and straps (R303, R306, R358, R373 to R376) and writing a slot (R307 to R309), families 14, 17 and 18.
-/
namespace Sys2Proof.Machine

/-! ### PERST# -/

/-- PERST# released while it is asserted and the module is powered and not held. -/
theorem perstRelease_of_powered {c : Chip × Mem} (e : StartEnv) (hperst : c.1.pins.perstN = false) (haux : c.1.pins.aux = true)
    (hpg : c.1.pins.pg = true) (hmod : c.1.pins.modRstN = true) (hreq : c.1.rst.trayReq = false) : perstRelease e c =
      if c.1.rst.warmPending then warmUp (c.1.perstHigh.relink e, c.2) else start e c.1.perstHigh := by
  rw [perstRelease, hperst, haux, hpg, hmod, hreq]
  rfl

theorem perstRelease_of_idle {c : Chip × Mem} (e : StartEnv) (h : c.1.pins.perstN = true ∨ c.1.pins.aux = false ∨ c.1.pins.pg = false) :
    perstRelease e c = c := by
  refine if_pos ?_
  obtain h | h | h := h <;> simp [h]

theorem start_of_full {c : Chip} (e : StartEnv) (h : c.startsKept = false) : start e c = fullStart e c := by
  rw [start, h, if_neg Bool.false_ne_true]

/-- The pins of a warm reset's end but for ALERT_N. -/
theorem Chip.warmed_perstN (c : Chip) (p : Pattern) : (c.warmBase.applyPattern p).warmEnd.pins.perstN = c.pins.perstN := by
  have hpins := c.warmBase.applyPattern_pins p
  rw [Chip.warmBase_pins] at hpins
  exact (congrArg Pins.perstN hpins :)

/-- PERST# asserted in an applied module that waits for nothing. -/
theorem perstAssert_of_applied {c : Chip × Mem} (hperst : c.1.pins.perstN = true) (hmode : c.1.pat.mode = .applied) (hreq : c.1.rst.trayReq = false) :
    perstAssert c =
      let d := ({ c.1 with pins := { c.1.pins with perstN := false } }, c.2)
      if c.1.pcie.pmeAck then (d.1.powerOff c.1.keepNow .nap, [])
      else if 2 ≤ c.1.recentWarm.length then unlink (powerCycle 10 0xFF d)
      else ({ (unlink (warmDown 13 0xFF d)).1 with rst := { (unlink (warmDown 13 0xFF d)).1.rst with warmPending := true } }, (unlink (warmDown 13 0xFF d)).2) := by
  rw [perstAssert, hperst, Bool.not_true, if_neg Bool.false_ne_true]
  dsimp only
  rw [Chip.maint_of_applied hmode, if_neg Bool.false_ne_true, hmode, hreq, if_neg (by decide)]

/-- A chip brought down with its link and its functions reset: fenced, and calm. -/
theorem unlink_warmDown (cause engine : Nat) (c : Chip × Mem) : Safety.quiet (unlink (warmDown cause engine c)).1 = Safety.quiet c.1.fenced := by
  have hdown := warmDown_quiet cause engine c
  generalize warmDown cause engine c = x at hdown
  exact unlink_quiet x hdown

/-- Asserted without PME_TO_Ack, short of the third reset within 60 s: the chip is brought down and a warm reset is to end. -/
theorem perstAssert_reset {c : Chip × Mem} (hperst : c.1.pins.perstN = true) (hmode : c.1.pat.mode = .applied) (hreq : c.1.rst.trayReq = false)
    (hack : c.1.pcie.pmeAck = false) (hfew : c.1.recentWarm.length < 2) : ∃ x : Chip × Mem,
    Safety.quiet x.1 = Safety.quiet (Chip.fenced { c.1 with pins := { c.1.pins with perstN := false } }) ∧
    perstAssert c = ({ x.1 with rst := { x.1.rst with warmPending := true } }, x.2) := by
  refine ⟨_, unlink_warmDown 13 0xFF ({ c.1 with pins := { c.1.pins with perstN := false } }, c.2), ?_⟩
  rw [perstAssert_of_applied hperst hmode hreq]
  dsimp only
  rw [hack, if_neg Bool.false_ne_true, if_neg (Nat.not_le.mpr hfew)]

/-- Settles O40: a release starts the module or ends a warm reset, an assertion is Nap or begins a warm reset. -/
theorem perstStartsAndStops : Obligations.PerstStartsAndStops := by
  unfold Obligations.PerstStartsAndStops
  refine ⟨fun s e hperst haux hpg hmod hreq hwarm hkept => ?full, fun s e i hperst haux hpg hmod hreq hwarm hstaged hdigest => ?warm,
    fun s e hidle => ?idle, fun s hperst hmode hreq hack => ?nap, fun s hperst hmode hreq hack hfew => ?reset, fun s hperst => ?asserted⟩
  case full =>
    refine ⟨_, exec_perstRelease, ?_⟩
    rw [perstRelease_of_powered (c := (s.chip, s.mem)) e hperst haux hpg hmod hreq, hwarm, if_neg Bool.false_ne_true,
      start_of_full (c := s.chip.perstHigh) e hkept]
    exact fullStart_started s.chip.perstHigh s e
  case warm =>
    refine ⟨_, exec_perstRelease, ?_⟩
    rw [perstRelease_of_powered (c := (s.chip, s.mem)) e hperst haux hpg hmod hreq, if_pos hwarm,
      warmUp_of_staged (c := (s.chip.perstHigh.relink e, s.mem)) hstaged hdigest]
    let c := s.chip.perstHigh.relink e
    obtain ⟨hfenced, hpending, hclosed, hslot⟩ := (c.warmBase.applyPattern i.pattern).warmEnd_open
    obtain ⟨hfloor, htime⟩ := c.warmed_gauge i.pattern
    exact ⟨rfl, hfenced, hpending, hclosed, c.warmed_perstN i.pattern, hslot, (c.warmed_rst i.pattern).2, hfloor, htime⟩
  case idle => rw [exec_perstRelease, execPerstRelease, perstRelease_of_idle (c := (s.chip, s.mem)) e hidle]
  case nap =>
    refine ⟨_, exec_perstAssert, ?_⟩
    rw [perstAssert_of_applied (c := (s.chip, s.mem)) hperst hmode hreq]
    dsimp only
    rw [if_pos hack]
    exact ⟨rfl, rfl, rfl, rfl, rfl, rfl, rfl, rfl, rfl, rfl, rfl⟩
  case reset =>
    obtain ⟨x, hquiet, hstep⟩ := perstAssert_reset (c := (s.chip, s.mem)) hperst hmode hreq hack hfew
    have hcalm := Chip.calm_of_quiet hquiet
    refine ⟨_, exec_perstAssert, ?_⟩
    rw [hstep]
    exact ⟨rfl, (congrArg (fun q => q.2.1.fenced) hquiet :), (congrArg (fun q => q.2.2.1.perstN) hquiet :), (Chip.gauge_of_calm hcalm :),
      (Chip.pat_of_calm hcalm :), (Chip.keep_of_calm hcalm :)⟩
  case asserted =>
    rw [exec_perstAssert, execPerstAssert, perstAssert, hperst]
    rfl

/-! ### Supplies -/

theorem dormant_spec (c : Chip × Mem) : (dormant c).2 = [] ∧ (dormant c).1.rung.rung = .dormant ∧ (dormant c).1.pins.pg = false ∧
    (dormant c).1.rst.trayReq = false ∧ (dormant c).1.cast.tickets = [] ∧ (dormant c).1.gauge.time = c.1.gauge.time ∧
    (dormant c).1.pat.flashA = c.1.pat.flashA ∧ (dormant c).1.pins.lockout = c.1.pins.lockout :=
  ⟨rfl, rfl, rfl, rfl, rfl, rfl, rfl, rfl⟩

theorem Chip.powerRise_of_low {c : Chip} (hlow : c.pins.pwrEn = false) (haux : c.pins.aux = true) : c.powerRise =
    { c with pins := { c.pins with
      pwrEn := true, lockout := c.pins.lockout && !c.lowLong, pwrLowAt := none, pg := c.pins.p48v && !(c.pins.lockout && !c.lowLong), perstN := false } } := by
  rw [Chip.powerRise, hlow, haux]
  rfl

theorem powerFall_of_high {c : Chip × Mem} (hhigh : c.1.pins.pwrEn = true) (haux : c.1.pins.aux = true) (hpg : c.1.pins.pg = true) : powerFall c =
    ({ (dormant c).1 with pins := { (dormant c).1.pins with pwrEn := false, pwrLowAt := some (dormant c).1.now } }, (dormant c).2) := by
  rw [powerFall, hhigh, haux, hpg]
  rfl

theorem undervoltage_of_high {c : Chip × Mem} (hhigh : c.1.pins.pwrEn = true) (hpg : c.1.pins.pg = true) : undervoltage c =
    ({ (dormant c).1 with pins := { (dormant c).1.pins with p48v := false, lockout := (dormant c).1.pins.lockout || true } }, (dormant c).2) := by
  rw [undervoltage, hhigh, hpg]
  rfl

/-! ### MOD_RST_N -/

theorem modRstAssert_of_powered {c : Chip × Mem} (hmod : c.1.pins.modRstN = true) (hpg : c.1.pins.pg = true) : ∃ f : Chip × Mem,
    (Safety.quiet f.1 = Safety.quiet { c.1 with pins := { c.1.pins with modRstN := false } } ∨
      Safety.quiet f.1 = Safety.quiet (Chip.fenced { c.1 with pins := { c.1.pins with modRstN := false } })) ∧
    modRstAssert c = ({ f.1.heldStart with rnd := f.1.rnd.slip, rst := { f.1.heldStart.rst with fenced := f.1.rst.trayReq } }, f.2) := by
  rw [modRstAssert, hmod, hpg, Bool.not_true, if_neg Bool.false_ne_true, if_neg Bool.false_ne_true]
  dsimp only
  by_cases hwaits : c.1.pat.mode = .starting ∨ c.1.rst.trayReq
  · rw [if_pos hwaits]
    exact ⟨_, .inl (unlink_quiet ({ c.1 with pins := { c.1.pins with modRstN := false } }, c.2) rfl), rfl⟩
  · rw [if_neg hwaits]
    have hdown := unlink_warmDown (Config.recoveryCause 18 % 16) 0xFF ({ c.1 with pins := { c.1.pins with modRstN := false } }, c.2)
    generalize unlink (warmDown (Config.recoveryCause 18 % 16) 0xFF ({ c.1 with pins := { c.1.pins with modRstN := false } }, c.2)) = x at hdown ⊢
    exact ⟨x, .inr hdown, rfl⟩

theorem modRstAssert_of_unpowered {c : Chip × Mem} (hmod : c.1.pins.modRstN = true) (hpg : c.1.pins.pg = false) :
    modRstAssert c = ({ c.1 with pins := { c.1.pins with modRstN := false } }, c.2) := by
  rw [modRstAssert, hmod, hpg]
  rfl

/-- The chip with MOD_RST_N high. -/
def Chip.modHigh (c : Chip) : Chip := { c with pins := { c.pins with modRstN := true } }

theorem modRstRelease_of_held {c : Chip × Mem} (e : StartEnv) (hmod : c.1.pins.modRstN = false) : modRstRelease e c =
    if c.1.pins.perstN && c.1.pins.pg && !c.1.rst.trayReq then fullStart e c.1.modHigh else (c.1.modHigh, c.2) := by
  rw [modRstRelease, hmod]
  rfl

/-! ### Straps -/

theorem Chip.strapsBad_rnd (c : Chip) : c.strapsBad.rnd = if c.rnd.fromPattern then c.rnd else { c.rnd.slip with settledId := false } := rfl

/-- Settles O41: each pin by what it does while the module is powered or not. -/
theorem suppliesAndResetPins : Obligations.SuppliesAndResetPins := by
  unfold Obligations.SuppliesAndResetPins
  refine ⟨fun s hlow haux => ?rise, fun s hhigh haux hpg => ?fall, fun s hhigh hpg => ?under, fun s => ⟨rfl, rfl, _, exec_auxLoss, rfl, rfl, rfl, rfl,
    rfl, rfl, rfl, rfl, rfl, rfl⟩, fun s => ?straps, fun s hmod hpg => ?assert, fun s hmod hpg => ?assertOff, fun s e hmod hperst hpg hreq => ?release,
    fun s e hmod hperst => ?releaseHeld⟩
  case rise =>
    refine ⟨_, exec_powerEnableRise, ?_⟩
    rw [Chip.powerRise_of_low hlow haux]
    refine ⟨rfl, rfl, ?_⟩
    cases s.chip.pins.lockout <;> simp
  case fall =>
    obtain ⟨hmem, hrung, hpgLow, hreq, htickets, htime, hflash, -⟩ := dormant_spec (s.chip, s.mem)
    refine ⟨_, exec_powerEnableFall, ?_⟩
    rw [powerFall_of_high (c := (s.chip, s.mem)) hhigh haux hpg]
    exact ⟨hmem, hrung, rfl, hpgLow, congrArg some htime, hreq, htickets, htime, hflash⟩
  case under =>
    obtain ⟨hmem, hrung, hpgLow, -, -, htime, -, -⟩ := dormant_spec (s.chip, s.mem)
    refine ⟨_, exec_inputUndervoltage, ?_⟩
    rw [undervoltage_of_high (c := (s.chip, s.mem)) hhigh hpg]
    exact ⟨hmem, hrung, rfl, Bool.or_true _, hpgLow, htime⟩
  case straps =>
    refine ⟨_, exec_strapsUnstable, rfl, rfl, fun hown => ?_, fun hpattern => ?_⟩
    · rw [Chip.strapsBad_rnd, hown]
      exact ⟨rfl, rfl⟩
    · rw [Chip.strapsBad_rnd, hpattern]
      rfl
  case assert =>
    obtain ⟨f, hquiet, hstep⟩ := modRstAssert_of_powered (c := (s.chip, s.mem)) hmod hpg
    have hreq : f.1.rst.trayReq = s.chip.rst.trayReq :=
      hquiet.elim (fun h => (congrArg (fun q => q.2.1.trayReq) h :)) (fun h => (congrArg (fun q => q.2.1.trayReq) h :))
    have hpins : f.1.pins.modRstN = false :=
      hquiet.elim (fun h => (congrArg (fun q => q.2.2.1.modRstN) h :)) (fun h => (congrArg (fun q => q.2.2.1.modRstN) h :))
    have hcalm : f.1.calm = Chip.calm { s.chip with pins := { s.chip.pins with modRstN := false } } :=
      hquiet.elim (fun h => Chip.calm_of_quiet h) (fun h => (Chip.calm_of_quiet h).trans rfl)
    refine ⟨_, exec_modRstAssert, ?_⟩
    rw [hstep]
    exact ⟨rfl, rfl, rfl, rfl, hreq, rfl, (congrArg Pat.flashA (Chip.pat_of_calm hcalm) :), (congrArg Gauge.time (Chip.gauge_of_calm hcalm) :), hpins⟩
  case assertOff =>
    rw [exec_modRstAssert, execModRstAssert, modRstAssert_of_unpowered (c := (s.chip, s.mem)) hmod hpg]
  case release =>
    refine ⟨_, exec_modRstRelease, ?_⟩
    rw [modRstRelease_of_held (c := (s.chip, s.mem)) e hmod, if_pos (by rw [hperst, hpg, hreq]; rfl)]
    exact fullStart_started s.chip.modHigh s e
  case releaseHeld =>
    rw [exec_modRstRelease, execModRstRelease, modRstRelease_of_held (c := (s.chip, s.mem)) e hmod, if_neg (by rw [hperst]; exact Bool.false_ne_true)]
    rfl

/-! ### Writing a slot -/

/-- A GO that is taken up. -/
theorem Chip.slotWrite_of_maint {c : Chip} (img : Option Image) (hfn : c.reachableFn 0 = true) (hm : c.maint = true) (hbusy : c.pat.wrBusy = false) :
    c.slotWrite 0 img =
      let d := { c.tlp with pcie := match img with | some i => c.tlp.pcie.countRead i.imageLen | none => c.tlp.pcie }
      if c.writeResult 0 img ≠ 0 then
        Chip.edge { d with pat := { d.pat with wrResult := c.writeResult 0 img, wrTargetB := c.pat.targetB, wrFn := 0 } } srcPatWrite
      else
        { d with
          pat := { c.pat.setSlot c.pat.targetB { image := none, commit := none } with
            wrBusy := true, wrTargetB := c.pat.targetB, wrStep := 4, wrPercent := 0, wrImage := img, wrFn := 0 }
          log := { c.log with persDefer := true } } := by
  unfold Chip.slotWrite
  rw [if_neg (by simp [hfn]), hm, hbusy, if_neg (by decide)]
  cases img <;> rfl

theorem Chip.slotWrite_ignored {c : Chip} (img : Option Image) (hfn : c.reachableFn 0 = true) (h : c.maint = false ∨ c.pat.wrBusy = true) :
    c.slotWrite 0 img = c.tlp.regIncident .patIgnored 0x402C := by
  unfold Chip.slotWrite
  rw [if_neg (by simp [hfn]), if_pos (by obtain h | h := h <;> simp [h])]

theorem Chip.slotWriteEnd_of_busy {c : Chip} {i : Image} (hbusy : c.pat.wrBusy = true) (himg : c.pat.wrImage = some i) (d : Nat) :
    c.slotWriteEnd d =
      let p := if d == i.digest then c.pat.setSlot c.pat.wrTargetB (writtenSlot i (c.pat.topSeq + 1) c.pat.wrLen.toNat) else c.pat
      Chip.edge { c with
        pat := { p with wrBusy := false, wrStep := 0, wrPercent := 0, wrImage := none, wrResult := if d == i.digest then 0 else 8 }
        log := { c.log with persDefer := false } } srcPatWrite := by
  rw [Chip.slotWriteEnd, hbusy, himg]

/-- Settles O42: a GO is ignored, refused or erases its target; the write's end commits the image or leaves the slots. -/
theorem slotsAreWrittenInMaintenance : Obligations.SlotsAreWrittenInMaintenance := by
  unfold Obligations.SlotsAreWrittenInMaintenance
  refine ⟨fun s img hfn hno => ?ignored, fun s i hfn hm hbusy hres => ?erased, fun s img hfn hm hbusy hres => ?refused, fun s i d hbusy himg => ?ended⟩
  case ignored => rw [exec_slotWrite, execSlotWrite, Chip.slotWrite_ignored img hfn hno]
  case erased =>
    refine ⟨_, exec_slotWrite, ?_⟩
    rw [Chip.slotWrite_of_maint (some i) hfn hm hbusy]
    dsimp only
    rw [if_neg (Decidable.not_not.mpr hres)]
    cases s.chip.pat.targetB with
    | true => exact ⟨rfl, rfl, rfl, rfl, rfl, rfl, rfl, rfl⟩
    | false => exact ⟨rfl, rfl, rfl, rfl, rfl, rfl, rfl, rfl⟩
  case refused =>
    refine ⟨_, exec_slotWrite, ?_⟩
    rw [Chip.slotWrite_of_maint img hfn hm hbusy]
    dsimp only
    rw [if_pos hres]
    exact ⟨rfl, hbusy, rfl, rfl⟩
  case ended =>
    refine ⟨_, exec_slotWriteEnd, ?_⟩
    rw [Chip.slotWriteEnd_of_busy hbusy himg]
    dsimp only
    by_cases hd : d = i.digest
    · rw [if_pos (beq_iff_eq.mpr hd), if_pos (beq_iff_eq.mpr hd), if_pos hd, if_pos hd]
      cases s.chip.pat.wrTargetB with
      | true => exact ⟨rfl, rfl, rfl, rfl, rfl, rfl⟩
      | false => exact ⟨rfl, rfl, rfl, rfl, rfl, rfl⟩
    · have hne : ¬ (d == i.digest) = true := by simpa using hd
      rw [if_neg hne, if_neg hne, if_neg hd, if_neg hd]
      cases s.chip.pat.wrTargetB with
      | true => exact ⟨rfl, rfl, rfl, rfl, rfl, rfl⟩
      | false => exact ⟨rfl, rfl, rfl, rfl, rfl, rfl⟩

end Sys2Proof.Machine
end

section
/-!
The recovery image is never written in the field (R305), family 14: every operation that changes the quiet part of the chip leaves it.
-/
namespace Sys2Proof.Machine

theorem Chip.recovery_of_quiet {c d : Chip} (h : Safety.quiet d = Safety.quiet c) : d.pat.recovery = c.pat.recovery :=
  congrArg (fun q => q.1.2.2.1.recovery) h

/-- What keeps the quiet part keeps the image that is in it. -/
theorem Chip.recovery_eq {d : Chip} {q : (Gauge × RungB × Pat × List SmbAnswer × Tens) × (Rst × Pins × Keep)} {r : Slot} (h : Safety.quiet d = q)
    (hr : q.1.2.2.1.recovery = r) : d.pat.recovery = r := by
  rw [← hr, ← h]

theorem Chip.recovery_of_calm {c d : Chip} (h : d.calm = c.calm) : d.pat.recovery = c.pat.recovery := congrArg Pat.recovery (Chip.pat_of_calm h)

/-! ### Gauge, tension and rungs -/

theorem Chip.gaugeWindowEnd_recovery (c : Chip) (counts : List Nat) : (c.gaugeWindowEnd counts).pat.recovery = c.pat.recovery :=
  congrArg (fun d => d.pat.recovery) (c.gaugeWindowEnd_rest counts)

theorem Chip.marginTimeout_recovery (c : Chip) : c.marginTimeout.pat.recovery = c.pat.recovery :=
  Chip.recovery_eq (Chip.garRise_quiet _ _ rfl) rfl

theorem Chip.thermalRow_recovery (c : Chip) : c.thermalRow.pat.recovery = c.pat.recovery := by
  unfold Chip.thermalRow
  dsimp only
  exact Chip.recovery_eq (Chip.alarmIf_quiet _ _ _ _ _ _ _ _ _ _ (Chip.alarmIf_quiet _ _ _ _ _ _ _ _ _ _
    (Chip.alarmIf_quiet _ _ _ _ _ _ _ _ _ _ rfl))) rfl

theorem Chip.tensionRow_recovery (c : Chip) (e : RowEnv) : (c.tensionRow e).pat.recovery = c.pat.recovery := by
  unfold Chip.tensionRow
  extract_lets _ b t c1 c2 c3
  have h2 : Safety.quiet c2 = Safety.quiet c1 := Chip.alarmIf_quiet _ _ _ _ _ _ _ _ _ _ rfl
  have h3 : Safety.quiet c3 = Safety.quiet c1 := by
    show Safety.quiet (if b.2.1 then c2.degradeOne else c2) = _
    cases b.2.1 with
    | true => exact Chip.degradeOne_quiet _ h2
    | false => exact h2
  cases b.2.2 with
  | true => exact Chip.recovery_of_quiet (c := c1) (Chip.restoreOne_quiet _ h3)
  | false => exact Chip.recovery_of_quiet (c := c1) h3

theorem Chip.rowEnd_recovery (c : Chip) (e : RowEnv) : (c.rowEnd e).pat.recovery = c.pat.recovery := by
  unfold Chip.rowEnd
  extract_lets due supp gar latched volted met _ credited
  have hvolted : volted.pat.recovery = c.pat.recovery := rfl
  have hmet : met.pat.recovery = volted.pat.recovery := (Chip.recovery_of_quiet (Chip.meetRates_quiet _ (Chip.garRise_quiet _ _ rfl))).trans
    ((Chip.tensionRow_recovery _ e).trans (Chip.thermalRow_recovery volted))
  have hend := Chip.recovery_of_quiet (Chip.retryResident_quiet _ (Chip.alarmSummary_quiet _ supp (Chip.summaryRecord_quiet credited credited.log.suppCtr.snap rfl)))
  exact hend.trans (hmet.trans hvolted)

theorem rowBoundary_recovery (e : RowEnv) (c : Chip × Mem) : (rowBoundary e c).1.pat.recovery = c.1.pat.recovery := by
  unfold rowBoundary
  have hrow := c.1.rowEnd_recovery e
  split
  next =>
    dsimp only
    split
    next => exact (Chip.recovery_of_quiet (progressEach_quiet (c.1.rowEnd e, c.2) rfl)).trans hrow
    next =>
      split
      next => exact (Chip.recovery_of_quiet (progressEach_quiet _ (resumeShed_quiet (c.1.rowEnd e, c.2) rfl))).trans hrow
      next => exact hrow
  next => rfl

theorem Chip.wake_recovery (c : Chip) (cause : Nat) : (c.wake cause).pat.recovery = c.pat.recovery := by
  unfold Chip.wake
  split <;> rfl

theorem powerSample_recovery (mw mv : Nat) (c : Chip × Mem) : (powerSample mw mv c).1.pat.recovery = c.1.pat.recovery :=
  (Chip.recovery_of_quiet (powerSample_keeps_quiet mw mv c)).trans
    (Chip.recovery_eq (Chip.alarmIf_quiet _ _ _ _ _ _ _ _ _ _ rfl) rfl)

theorem thermalReading_recovery (temps : List Int) (c : Chip × Mem) : (thermalReading temps c).1.pat.recovery = c.1.pat.recovery := by
  have hread : (c.1.thermalReading temps).pat.recovery = c.1.pat.recovery := by rw [Chip.thermalReading_frame]
  unfold thermalReading
  dsimp only
  split
  next => exact (Chip.recovery_of_calm (powerCycle_calm _ _ _)).trans hread
  next => exact hread

/-! ### Timed operations -/

theorem Chip.fillTimeout_recovery (c : Chip) (b : Nat) : (c.fillTimeout b).pat.recovery = c.pat.recovery := by
  unfold Chip.fillTimeout
  split
  next => rfl
  next =>
    split
    next => rfl
    next =>
      dsimp only
      split
      next => rfl
      next => split <;> rfl

theorem Chip.sampleDropped_recovery (c : Chip) (ticket sample : Nat) : (c.sampleDropped ticket sample).pat.recovery = c.pat.recovery := by
  unfold Chip.sampleDropped
  split
  next => rfl
  next y _ =>
    split
    next => rfl
    next =>
      dsimp only
      exact Chip.recovery_eq (Chip.reTicket_quiet _ _ _ rfl) rfl

theorem Chip.fieldTimeout_recovery (c : Chip) (ticket source : Nat) : (c.fieldTimeout ticket source).pat.recovery = c.pat.recovery := by
  unfold Chip.fieldTimeout
  split
  next => rfl
  next =>
    split
    next =>
      split
      next => rfl
      next =>
        split
        next =>
          dsimp only
          exact Chip.recovery_eq (Chip.voidFrame_quiet _ _ _ _ _ _ rfl) rfl
        next => rfl
    next => rfl

theorem Chip.linkFault_recovery (c : Chip) (p : Port) : (c.linkFault p).pat.recovery = c.pat.recovery := by
  unfold Chip.linkFault
  split <;> rfl

theorem Chip.hello_recovery (c : Chip) (p : Port) (h : HelloInfo) : (c.hello p h).pat.recovery = c.pat.recovery := by
  unfold Chip.hello
  extract_lets x first kind r r2 r3
  have hjoin : (Chip.repaired { c with rnd := r3, keep := { c.keep with presets := true } } kind p).rebook.pat.recovery = c.pat.recovery := by
    clear_value r3 kind
    exact Chip.recovery_eq (Chip.rebook_quiet _ (Chip.repaired_quiet _ _ _ rfl)) rfl
  split
  next => rfl
  next =>
    split
    next => exact Chip.recovery_eq (Chip.wrap_quiet _ _ rfl) rfl
    next => exact hjoin

theorem Chip.holdExpire_recovery (c : Chip) (g : Nat) : (c.holdExpire g).pat.recovery = c.pat.recovery := by
  unfold Chip.holdExpire
  split
  next => rfl
  next => exact Chip.recovery_eq (Chip.dropHold_quiet _ _ rfl) rfl

theorem Chip.answerTimeout_recovery (c : Chip) (g : Nat) : (c.answerTimeout g).pat.recovery = c.pat.recovery := by
  unfold Chip.answerTimeout
  split
  next => rfl
  next => exact Chip.recovery_eq (Chip.refuseGarment_quiet _ _ _ _ _ rfl) rfl

theorem Chip.moderationExpire_recovery (c : Chip) (fn v : Nat) : (c.moderationExpire fn v).pat.recovery = c.pat.recovery := by
  unfold Chip.moderationExpire
  split <;> rfl

theorem Chip.waitExpire_recovery (c : Chip) (q tag : Nat) : (c.waitExpire q tag).pat.recovery = c.pat.recovery := by
  unfold Chip.waitExpire
  split
  next => rfl
  next => exact Chip.recovery_eq (Chip.answer_quiet _ _ _ _ _ _ rfl) rfl

theorem Chip.readTimeout_recovery (c : Chip) (tag : Nat) : (c.readTimeout tag).pat.recovery = c.pat.recovery := by
  unfold Chip.readTimeout
  split
  next => rfl
  next =>
    split
    next => rfl
    next =>
      dsimp only
      split
      next => exact Chip.recovery_eq (Chip.readFailed_quiet _ _ rfl) rfl
      next => rfl

theorem Chip.tagRelease_recovery (c : Chip) (tag : Nat) : (c.tagRelease tag).pat.recovery = c.pat.recovery := by
  unfold Chip.tagRelease
  split
  next => rfl
  next => split <;> rfl

theorem d3hot_recovery (fn : Nat) (c : Chip × Mem) : (d3hot fn c).1.pat.recovery = c.1.pat.recovery := by
  have hended := Chip.recovery_of_quiet (endFunction_quiet c fn rfl)
  unfold d3hot
  split
  next =>
    dsimp only
    split
    next => exact (Chip.recovery_of_quiet (Chip.nextAsk_quiet _ rfl)).trans hended
    next => exact (Chip.recovery_of_quiet (Chip.nextAsk_quiet _ rfl)).trans hended
  next => rfl

theorem d0Return_recovery (fn : Nat) (c : Chip × Mem) : (d0Return fn c).1.pat.recovery = c.1.pat.recovery := by
  unfold d0Return
  split
  next =>
    exact (Chip.recovery_of_quiet (progressEach_quiet ((c.1.resetFn fn).wake 0, c.2) rfl)).trans
      ((Chip.wake_recovery _ _).trans (Chip.recovery_of_quiet (Chip.resetFn_quiet _ _ rfl)))
  next => rfl

theorem xferTimeout_recovery (xfer : Nat) (c : Chip × Mem) : (xferTimeout xfer c).1.pat.recovery = c.1.pat.recovery := by
  unfold xferTimeout
  split
  next => rfl
  next x _ =>
    dsimp only
    split
    next => exact Chip.recovery_eq (failFor_quiet _ _ _ (endXfer_quiet _ _ rfl)) rfl
    next => exact Chip.recovery_eq (Chip.resendXfer_quiet _ _ rfl) rfl

theorem msgTimeout_recovery (dest eseq : Nat) (c : Chip × Mem) : (msgTimeout dest eseq c).1.pat.recovery = c.1.pat.recovery := by
  unfold msgTimeout
  split
  next => rfl
  next =>
    dsimp only
    split
    next => exact Chip.recovery_eq (failFor_quiet _ _ _ (Chip.updEseq_quiet _ _ _ rfl)) rfl
    next => exact Chip.recovery_eq (Chip.updEseq_quiet _ _ _ rfl) rfl

theorem controlGap_recovery (src : Nat) (c : Chip × Mem) : (controlGap src c).1.pat.recovery = c.1.pat.recovery := by
  unfold controlGap
  split
  next t f _ _ =>
    exact Chip.recovery_eq (Chip.updEseq_quiet _ _ _ (drainHeld_quiet _ _ _ (Chip.updEseq_quiet _ _ _
      (failFor_quiet f.garment 4 (c.1.advance (t + usTicks 300), c.2) rfl)))) rfl
  next => rfl

/-! ### Recoveries -/

theorem tinkEnd_recovery (k : Tink) (c : Chip × Mem) : (tinkEnd k c).1.pat.recovery = c.1.pat.recovery := by
  have hover := Chip.recovery_of_quiet (Chip.tinkOver_quiet c.1 k rfl)
  unfold tinkEnd
  extract_lets clean again next ended _ d filled
  have hd : d.pat.recovery = c.1.pat.recovery := hover
  clear_value d
  split
  next =>
    split
    next p _ =>
      obtain ⟨e, m, hstep, -, hcalm⟩ := panelReset_spec p 6 k.engine (d, c.2)
      rw [hstep]
      exact (Chip.recovery_of_quiet (progressAll_quiet _ (e, m) rfl)).trans ((Chip.recovery_of_calm hcalm).trans hd)
    next => exact hd
  next =>
    have hfill : Safety.quiet filled = Safety.quiet d := by
      show Safety.quiet (match d.enginePanel k.engine with | some p => d.fillPanel p | none => d) = Safety.quiet d
      split
      next p _ => exact Chip.fillPanel_quiet d p rfl
      next => rfl
    exact (Chip.recovery_of_quiet (progressAll_quiet _ (filled.pumpAll c.2, c.2) (Chip.pumpAll_quiet filled c.2 hfill))).trans hd

theorem panelReset_recovery (p cause engine : Nat) (c : Chip × Mem) : (panelReset p cause engine c).1.pat.recovery = c.1.pat.recovery := by
  obtain ⟨e, m, hstep, -, hcalm⟩ := panelReset_spec p cause engine c
  rw [hstep]
  exact (Chip.recovery_of_quiet (progressAll_quiet _ (e, m) rfl)).trans (Chip.recovery_of_calm hcalm)

theorem tinkNext_recovery (k : Tink) (c : Chip × Mem) : (tinkNext k c).1.pat.recovery = c.1.pat.recovery := by
  unfold tinkNext
  split
  next => exact tinkEnd_recovery k c
  next => rfl

theorem startTink_recovery (e : Nat) (suspects : List Nat) (js : List Job) (c : Chip × Mem) :
    (startTink e suspects js c).1.pat.recovery = c.1.pat.recovery := by
  have hstock := Chip.recovery_of_quiet (Chip.restock_quiet c.1 e (jobsInOrder suspects js) rfl)
  unfold startTink
  dsimp only
  split
  next => exact hstock
  next => exact (tinkNext_recovery _ _).trans hstock

theorem engineTrip_recovery (e ctx : Nat) (c : Chip × Mem) : (engineTrip e ctx c).1.pat.recovery = c.1.pat.recovery := by
  have hreset := engineReset_quiet e ctx (c.1.countTrip e ctx, c.2) (Chip.countTrip_quiet c.1 e ctx rfl)
  unfold engineTrip
  dsimp only
  split
  next => exact Chip.recovery_of_quiet (Chip.pumpAll_quiet _ _ (Chip.restartTimers_quiet _ _ hreset))
  next => exact (startTink_recovery _ _ _ _).trans (Chip.recovery_of_quiet hreset)

theorem tinkReplayEnd_recovery (b : Bool) (c : Chip × Mem) : (tinkReplayEnd b c).1.pat.recovery = c.1.pat.recovery := by
  cases hk : c.1.rst.tink with
  | none => rw [tinkReplayEnd_of_idle hk]
  | some k =>
    cases hl : k.left with
    | nil =>
      unfold tinkReplayEnd
      simp only [hk, hl]
      exact tinkEnd_recovery k c
    | cons x l =>
      cases b with
      | false =>
        obtain ⟨d, hd, hstep⟩ := tinkReplayEnd_completed hk hl
        rw [hstep, hd]
        exact tinkNext_recovery _ _
      | true =>
        by_cases h4 : k.resets + 1 = 4
        · unfold tinkReplayEnd
          simp only [hk, hl, if_pos, h4]
          have htrip : ((c.1.toTrip k.engine x).countTrip k.engine x).pat.recovery = c.1.pat.recovery :=
            (Chip.recovery_of_quiet (Chip.countTrip_quiet _ _ _ rfl)).trans (congrArg Pat.recovery (Chip.toTrip_pat _ _ _))
          split
          next => exact (panelReset_recovery _ _ _ _).trans htrip
          next => exact (Chip.recovery_of_calm (Chip.endTink_calm _)).trans htrip
        · obtain ⟨d, hcalm, hstep⟩ := tinkReplayEnd_tripped hk hl h4
          rw [hstep]
          exact (tinkNext_recovery _ _).trans ((Chip.recovery_of_calm hcalm).trans (congrArg Pat.recovery (Chip.toTrip_pat _ _ _)))

/-! ### Starts and warm chip resets -/

theorem fullStart_recovery (e : StartEnv) (c : Chip) : (fullStart e c).1.pat.recovery = c.pat.recovery := by
  obtain ⟨-, -, -, -, -, -, hrec, -⟩ := fullStart_started c { chip := c, mem := [], pending := [] } e
  exact hrec

theorem applied_recovery (b old : Bool) (i : Image) (seq : Nat) (e : StartEnv) (c : Chip) :
    (applied b old i seq e c).1.pat.recovery = c.pat.recovery := by
  obtain ⟨-, hpat, -⟩ := applied_spec b old i seq e c
  rw [hpat]
  rfl

theorem powerCycle_recovery (cause engine : Nat) (c : Chip × Mem) : (powerCycle cause engine c).1.pat.recovery = c.1.pat.recovery :=
  Chip.recovery_of_calm (powerCycle_calm cause engine c)

theorem warmDown_recovery (cause engine : Nat) (c : Chip × Mem) : (warmDown cause engine c).1.pat.recovery = c.1.pat.recovery :=
  Chip.recovery_of_calm (warmDown_calm cause engine c)

theorem warmUp_recovery (c : Chip × Mem) : (warmUp c).1.pat.recovery = c.1.pat.recovery := by
  cases hi : c.1.pat.staged with
  | none =>
    unfold warmUp
    simp only [hi]
    exact powerCycle_recovery _ _ c
  | some i =>
    by_cases hdigest : i.digest = c.1.pat.stagedDigest
    · rw [warmUp_of_staged hi hdigest]
      exact (congrArg Pat.recovery (c.1.warmed_pat i.pattern)).trans rfl
    · unfold warmUp
      simp only [hi, if_pos, hdigest, ne_eq, not_false_eq_true]
      exact powerCycle_recovery _ _ c

theorem warmReset_recovery (cause engine : Nat) (c : Chip × Mem) : (warmReset cause engine c).1.pat.recovery = c.1.pat.recovery := by
  unfold warmReset
  split
  next => rfl
  next =>
    split
    next => exact fullStart_recovery _ _
    next =>
      split
      next => exact powerCycle_recovery _ _ c
      next => exact (warmUp_recovery _).trans (warmDown_recovery _ _ c)

theorem maintenanceStart_recovery (c : Chip × Mem) : (maintenanceStart c).1.pat.recovery = c.1.pat.recovery := by
  unfold maintenanceStart
  split
  next => rfl
  next =>
    dsimp only [Chip.maintain]
    exact warmDown_recovery 2 0xFF c

theorem trip_recovery (engine ctx : Nat) (c : Chip × Mem) : (trip engine ctx c).1.pat.recovery = c.1.pat.recovery := by
  unfold trip
  split
  next => rfl
  next =>
    split
    next => exact (warmReset_recovery _ _ _).trans (Chip.recovery_eq (Chip.countTrip_quiet _ _ _ rfl) rfl)
    next => exact (engineTrip_recovery _ _ _).trans (congrArg Pat.recovery (Chip.toTrip_pat _ _ _))

theorem overrun_recovery (l : RecLevel) (c : Chip × Mem) : (overrun l c).1.pat.recovery = c.1.pat.recovery := by
  cases l with
  | engineReset =>
    unfold overrun
    dsimp only
    split
    next => exact panelReset_recovery _ _ _ c
    next => exact warmReset_recovery _ _ c
  | panelReset => exact warmReset_recovery _ _ c
  | warmReset => exact powerCycle_recovery _ _ c
  | powerCycle => rfl

theorem waitTimeout_recovery (ticket source stage : Nat) (c : Chip × Mem) : (waitTimeout ticket source stage c).1.pat.recovery = c.1.pat.recovery := by
  unfold waitTimeout
  split
  next => rfl
  next t _ =>
    split
    next p f _ _ =>
      split
      next => rfl
      next due _ =>
        split
        next => rfl
        next =>
          extract_lets d at_ e e2 e3 r
          have hd : d.pat.recovery = c.1.pat.recovery := rfl
          have he : Safety.quiet e = Safety.quiet d := Chip.voidFrame_quiet _ _ _ _ _ _ rfl
          have he2 : Safety.quiet e2 = Safety.quiet e := rfl
          clear_value e2 e d
          have he3 : Safety.quiet e3 = Safety.quiet e2 := Chip.note_quiet _ _ _ _ _ _ _ rfl
          clear_value e3 at_
          have hr : r.1.pat.recovery = e3.pat.recovery := by
            show (match at_ with | some (k, true) => engineTrip k (p.contexts.headD 0) (e3, c.2) | _ => (e3, c.2)).1.pat.recovery = _
            split
            next => exact engineTrip_recovery _ _ _
            next => rfl
          exact (Chip.recovery_eq (progress_quiet _ r rfl) rfl).trans (hr.trans ((Chip.recovery_of_quiet (he3.trans (he2.trans he))).trans hd))
    next => rfl

/-! ### Host requests and faults -/

theorem hostRequest_recovery {run : Chip × Mem → Chip × Mem} (hrun : ∀ c, (run c).1.pat.recovery = c.1.pat.recovery) (ok : Bool)
    (absorbed : Chip → Bool) (c : Chip × Mem) : (hostRequest ok run absorbed c).1.pat.recovery = c.1.pat.recovery := by
  unfold hostRequest
  split
  next => exact Chip.recovery_eq (Chip.regIncident_quiet _ _ _ rfl) rfl
  next =>
    split
    next => rfl
    next =>
      split
      next => exact hrun c
      next => rfl

theorem hostFrog_recovery (ctx : Nat) (c : Chip × Mem) : (hostFrog ctx c).1.pat.recovery = c.1.pat.recovery := by
  have hend := Chip.recovery_of_calm c.1.endTink_calm
  unfold hostFrog
  dsimp only
  split
  next => exact (Chip.recovery_eq (abortGarment_quiet _ _ _ _ rfl) rfl).trans hend
  next => exact (Chip.recovery_eq (frogContext_quiet _ _ _ rfl) rfl).trans hend

theorem frogRequest_recovery (ctx : Nat) (c : Chip × Mem) : (frogRequest ctx c).1.pat.recovery = c.1.pat.recovery :=
  hostRequest_recovery (hostFrog_recovery ctx) _ _ c

theorem panelRequest_recovery (p : Nat) (c : Chip × Mem) : (panelRequest p c).1.pat.recovery = c.1.pat.recovery :=
  hostRequest_recovery (panelReset_recovery p 2 0xFF) _ _ c

theorem warmRequest_recovery (c : Chip × Mem) : (warmRequest c).1.pat.recovery = c.1.pat.recovery :=
  hostRequest_recovery (warmReset_recovery 2 0xFF) _ _ c

theorem maintRequest_recovery (c : Chip × Mem) : (maintRequest c).1.pat.recovery = c.1.pat.recovery :=
  hostRequest_recovery maintenanceStart_recovery _ _ c

theorem cycleRequest_recovery (c : Chip × Mem) : (cycleRequest c).1.pat.recovery = c.1.pat.recovery :=
  hostRequest_recovery (powerCycle_recovery 2 0xFF) _ _ c

theorem parityError_recovery (pc : Nat) (c : Chip × Mem) : (parityError pc c).1.pat.recovery = c.1.pat.recovery := by
  unfold parityError
  dsimp only
  split
  next => exact powerCycle_recovery _ _ _
  next => rfl

theorem columnLimit_recovery (n : Nat) (c : Chip × Mem) : (columnLimit n c).1.pat.recovery = c.1.pat.recovery := by
  unfold columnLimit
  split
  next => exact warmReset_recovery _ _ _
  next => rfl

theorem operationComplete_recovery (n tag : Nat) (e : OpEnd) (stalls withheld corrected : Nat) (r : OpRole) (c : Chip × Mem) :
    (operationComplete n tag e stalls withheld corrected r c).1.pat.recovery = c.1.pat.recovery := by
  unfold operationComplete
  split
  next => rfl
  next o _ =>
    split
    next =>
      extract_lets st t p f d x y
      have hd : Safety.quiet d.1 = Safety.quiet c.1 := completeOp_quiet _ _ _ _ _ _ _ rfl
      clear_value d f p t
      have hx : Safety.quiet x.1 = Safety.quiet c.1 := by
        show Safety.quiet (if st = 6 ∨ st = 7 then _ else _ : Chip × Mem).1 = _
        split
        next =>
          refine Chip.faultIncident_quiet _ _ _ _ ?_
          split
          next => exact Chip.workFault_quiet _ _ _ _ _ hd
          next => exact hd
        next =>
          split
          next => exact roleDone_quiet _ _ hd
          next => exact hd
      clear_value x
      have hy : Safety.quiet y.1 = Safety.quiet c.1 := by
        show Safety.quiet (match t with | some t => progress t.id x | none => (x.1.pumpAll x.2, x.2)).1 = _
        split
        next => exact progress_quiet _ _ hx
        next => exact Chip.pumpAll_quiet _ _ hx
      clear_value y
      split
      next => exact (columnLimit_recovery n y).trans (Chip.recovery_of_quiet hy)
      next => exact Chip.recovery_of_quiet hy
    next => rfl

/-! ### Supplies and reset pins -/

theorem keptApply_recovery (e : StartEnv) (c : Chip) : (keptApply e c).1.pat.recovery = c.pat.recovery := by
  unfold keptApply
  extract_lets s other
  split
  next => exact powerCycle_recovery _ _ _
  next =>
    split
    next => exact applied_recovery _ _ _ _ _ _
    next => exact powerCycle_recovery _ _ _

theorem start_recovery (e : StartEnv) (c : Chip) : (start e c).1.pat.recovery = c.pat.recovery := by
  unfold start
  split
  next => exact (keptApply_recovery e (c.bringUp e false)).trans ((congrArg Pat.recovery (c.bringUp_keeps e false).1).trans rfl)
  next => exact fullStart_recovery e c

theorem perstRelease_recovery (e : StartEnv) (c : Chip × Mem) : (perstRelease e c).1.pat.recovery = c.1.pat.recovery := by
  unfold perstRelease
  split
  next => rfl
  next =>
    split
    next => rfl
    next =>
      split
      next => rfl
      next =>
        split
        next => exact warmUp_recovery _
        next => exact start_recovery _ _

theorem unlink_recovery (c : Chip × Mem) : (unlink c).1.pat.recovery = c.1.pat.recovery := Chip.recovery_eq (unlink_quiet c rfl) rfl

theorem perstAssert_recovery (c : Chip × Mem) : (perstAssert c).1.pat.recovery = c.1.pat.recovery := by
  unfold perstAssert
  split
  next => rfl
  next =>
    extract_lets _ _ d
    have hd : d.1.pat.recovery = c.1.pat.recovery := rfl
    clear_value d
    split
    next => exact (unlink_recovery d).trans hd
    next =>
      split
      next => exact (unlink_recovery d).trans hd
      next =>
        split
        next => exact hd
        next =>
          split
          next => exact (unlink_recovery _).trans ((powerCycle_recovery _ _ d).trans hd)
          next =>
            dsimp only
            exact (unlink_recovery _).trans ((warmDown_recovery _ _ d).trans hd)

theorem pmeTurnOff_recovery (c : Chip × Mem) : (pmeTurnOff c).1.pat.recovery = c.1.pat.recovery := by
  unfold pmeTurnOff
  extract_lets ack _ _ d
  have hd : d.1.pat.recovery = c.1.pat.recovery := Chip.recovery_eq (endTickets_quiet _ rfl) rfl
  clear_value d
  split
  next => rfl
  next =>
    split
    next => rfl
    next => exact hd

theorem modRstAssert_recovery (c : Chip × Mem) : (modRstAssert c).1.pat.recovery = c.1.pat.recovery := by
  unfold modRstAssert
  split
  next => rfl
  next =>
    extract_lets _ _ d e f
    have hd : d.1.pat.recovery = c.1.pat.recovery := rfl
    clear_value d
    have he : e.1.pat.recovery = d.1.pat.recovery := by
      show (if c.1.pat.mode = .starting ∨ c.1.rst.trayReq then d else warmDown (Config.recoveryCause 18 % 16) 0xFF d).1.pat.recovery = _
      split
      next => rfl
      next => exact warmDown_recovery _ _ d
    split
    next => exact hd
    next => exact (unlink_recovery e).trans (he.trans hd)

theorem modRstRelease_recovery (e : StartEnv) (c : Chip × Mem) : (modRstRelease e c).1.pat.recovery = c.1.pat.recovery := by
  unfold modRstRelease
  split
  next => rfl
  next =>
    dsimp only
    split
    next => exact fullStart_recovery _ _
    next => rfl

theorem Chip.powerRise_recovery (c : Chip) : c.powerRise.pat.recovery = c.pat.recovery := by
  unfold Chip.powerRise
  split <;> rfl

theorem powerFall_recovery (c : Chip × Mem) : (powerFall c).1.pat.recovery = c.1.pat.recovery := by
  unfold powerFall
  dsimp only
  split
  next => split <;> rfl
  next => rfl

theorem undervoltage_recovery (c : Chip × Mem) : (undervoltage c).1.pat.recovery = c.1.pat.recovery := by
  unfold undervoltage
  dsimp only
  split <;> rfl

/-! ### Registers and the SMBus -/

theorem if_recovery {p : Prop} [Decidable p] {x y : Chip × Mem} {r : Slot} (hx : x.1.pat.recovery = r) (hy : y.1.pat.recovery = r) :
    (if p then x else y).1.pat.recovery = r := by
  split
  next => exact hx
  next => exact hy

theorem Pat.setSlot_recovery (p : Pat) (b : Bool) (s : Slot) : (p.setSlot b s).recovery = p.recovery := by cases b <;> rfl

theorem Chip.slotWrite_recovery (c : Chip) (fn : Nat) (img : Option Image) : (c.slotWrite fn img).pat.recovery = c.pat.recovery := by
  have htlp : c.tlp.pat.recovery = c.pat.recovery := Chip.recovery_eq (Chip.tlp_quiet _ rfl) rfl
  unfold Chip.slotWrite
  split
  next => rfl
  next =>
    split
    next => exact (Chip.recovery_eq (Chip.regIncident_quiet _ _ _ rfl) rfl).trans htlp
    next =>
      extract_lets _ d r
      by_cases hr : r ≠ 0
      · rw [if_pos hr]
        exact htlp
      · rw [if_neg hr]
        exact (Pat.setSlot_recovery _ _ _).trans htlp

theorem Chip.slotWriteEnd_recovery (c : Chip) (readBack : Nat) : (c.slotWriteEnd readBack).pat.recovery = c.pat.recovery := by
  unfold Chip.slotWriteEnd
  split
  next i _ _ =>
    cases readBack == i.digest with
    | true => exact Pat.setSlot_recovery _ _ _
    | false => rfl
  next => rfl

theorem Chip.patWrite_recovery (c : Chip) (off v : Nat) : (c.patWrite off v).pat.recovery = c.pat.recovery := by
  unfold Chip.patWrite
  split
  next => exact Chip.recovery_eq (Chip.regIncident_quiet _ _ _ rfl) rfl
  next => split <;> rfl

theorem resetRequest_recovery (v : Nat) (c : Chip × Mem) : (resetRequest v c).1.pat.recovery = c.1.pat.recovery := by
  unfold resetRequest
  dsimp only
  split
  next => rfl
  next =>
    split
    next => exact Chip.recovery_eq (Chip.regIncident_quiet _ _ _ rfl) rfl
    next =>
      split
      next => exact frogRequest_recovery _ c
      next =>
        split
        next => exact panelRequest_recovery _ c
        next =>
          split
          next => exact warmRequest_recovery c
          next =>
            split
            next => exact maintRequest_recovery c
            next =>
              split
              next => exact cycleRequest_recovery c
              next => rfl

theorem pfRegWrite_recovery (a v : Nat) (c : Chip × Mem) : (pfRegWrite a v c).1.pat.recovery = c.1.pat.recovery := by
  unfold pfRegWrite
  refine if_recovery (c.1.patWrite_recovery _ _) (if_recovery ?_ (if_recovery ?_ (if_recovery ?_ (if_recovery ?_ (if_recovery ?_ (if_recovery ?_
    (if_recovery (resetRequest_recovery v c) (if_recovery rfl (if_recovery rfl (if_recovery ?_ rfl))))))))))
  · split
    next => exact c.1.slotWrite_recovery 0 none
    next => rfl
  · exact Chip.recovery_eq (Chip.evcDisable_quiet _ _ rfl) rfl
  · exact Chip.recovery_eq (Chip.idleHint_quiet _ _ rfl) rfl
  · exact Chip.recovery_eq (Chip.eventAck_quiet _ _ _ rfl) rfl
  · exact Chip.recovery_eq (qRegWrite_quiet 0 _ _ _ c rfl) rfl
  · dsimp only
    exact Chip.recovery_eq (Chip.castWrite_quiet _ _ _ _ rfl) rfl
  · exact Chip.recovery_eq (Chip.alarmAck_quiet _ _ _ rfl) rfl

theorem pfWrite_recovery (addr size v : Nat) (c : Chip × Mem) : (pfWrite addr size v c).1.pat.recovery = c.1.pat.recovery := by
  unfold pfWrite
  exact if_recovery (Chip.recovery_eq (Chip.msixWrite_quiet _ _ _ _ _ rfl) rfl) (if_recovery rfl (if_recovery rfl
    (if_recovery (Chip.recovery_eq (Chip.regIncident_quiet _ _ _ rfl) rfl) (pfRegWrite_recovery _ _ c))))

theorem registerWrite_recovery (fn addr size v : Nat) (c : Chip × Mem) : (registerWrite fn addr size v c).1.pat.recovery = c.1.pat.recovery := by
  have htlp : c.1.tlp.pat.recovery = c.1.pat.recovery := Chip.recovery_eq (Chip.tlp_quiet _ rfl) rfl
  unfold registerWrite
  exact if_recovery (if_recovery ((pfWrite_recovery _ _ _ _).trans htlp) ((Chip.recovery_eq (vfWrite_quiet _ _ _ _ (c.1.tlp, c.2) rfl) rfl).trans htlp)) rfl

theorem Chip.smbAnswer_recovery (c : Chip) (a : SmbAnswer) : (c.smbAnswer a).pat.recovery = c.pat.recovery := by
  unfold Chip.smbAnswer
  split <;> rfl

theorem Chip.alertResponse_recovery (c : Chip) (won : Bool) : (c.alertResponse won).pat.recovery = c.pat.recovery := by
  unfold Chip.alertResponse
  split
  next => split <;> rfl
  next => rfl

theorem Chip.setEid_recovery (c : Chip) (eid : Nat) : (c.setEid eid).pat.recovery = c.pat.recovery := by
  unfold Chip.setEid
  split <;> rfl

theorem Chip.readReg_recovery (c : Chip) (off : Nat) : (c.readReg off).pat.recovery = c.pat.recovery := by
  unfold Chip.readReg
  split
  next => exact c.smbAnswer_recovery _
  next =>
    split
    next => exact Chip.smbAnswer_recovery _ _
    next => exact c.smbAnswer_recovery _

theorem Chip.smbAck_recovery (c : Chip) (k rep : Nat) : (c.smbAck k rep).pat.recovery = c.pat.recovery := by
  unfold Chip.smbAck
  split
  next => exact c.smbAnswer_recovery _
  next =>
    split
    next => exact c.smbAnswer_recovery _
    next => exact (Chip.smbAnswer_recovery _ _).trans (Chip.recovery_eq (Chip.alarmAck_quiet _ _ _ rfl) rfl)

theorem smbReset_recovery (level : Nat) (c : Chip × Mem) : (smbReset level c).1.pat.recovery = c.1.pat.recovery := by
  unfold smbReset
  exact if_recovery (c.1.smbAnswer_recovery _) (if_recovery (c.1.smbAnswer_recovery _) (if_recovery (c.1.smbAnswer_recovery _)
    (if_recovery ((warmRequest_recovery _).trans (c.1.smbAnswer_recovery _)) ((maintRequest_recovery _).trans (c.1.smbAnswer_recovery _)))))

/-! ### Every command -/

theorem recovery_of_exec {c : Instr} {s t u : State} (hu : exec c s = .next u) (h : exec c s = .next t)
    (hrec : u.chip.pat.recovery = s.chip.pat.recovery) : t.chip.pat.recovery = s.chip.pat.recovery :=
  of_exec (P := fun t => t.chip.pat.recovery = s.chip.pat.recovery) hu h hrec

theorem recovery_of_chip {c : Instr} {s t : State} {d : Chip} (hu : exec c s = .next { s with chip := d }) (h : exec c s = .next t)
    (hd : d.pat.recovery = s.chip.pat.recovery) : t.chip.pat.recovery = s.chip.pat.recovery :=
  recovery_of_exec hu h hd

theorem recovery_of_pair {c : Instr} {s t : State} {d : Chip × Mem} (hu : exec c s = .next { s with chip := d.1, mem := d.2 })
    (h : exec c s = .next t) (hd : d.1.pat.recovery = s.chip.pat.recovery) : t.chip.pat.recovery = s.chip.pat.recovery :=
  recovery_of_exec hu h hd

/-- Every command keeps the recovery image. -/
theorem exec_keeps_recovery {c : Instr} {s t : State} (h : exec c s = .next t) : t.chip.pat.recovery = s.chip.pat.recovery := by
  cases c with
  | registerWrite => exact recovery_of_pair exec_registerWrite h (registerWrite_recovery _ _ _ _ _)
  | rowBoundary => exact recovery_of_pair exec_rowBoundary h (rowBoundary_recovery _ _)
  | gaugeWindowEnd => exact recovery_of_chip exec_gaugeWindowEnd h (Chip.gaugeWindowEnd_recovery _ _)
  | fastHoldExpire => exact recovery_of_chip exec_fastHoldExpire h rfl
  | vcoreSettled => exact recovery_of_chip exec_vcoreSettled h rfl
  | provisionalRowBoundary => exact recovery_of_chip exec_provisionalRowBoundary h rfl
  | marginTimeout => exact recovery_of_chip exec_marginTimeout h (Chip.marginTimeout_recovery _)
  | gaugeTimeLoRead => exact recovery_of_chip exec_gaugeTimeLoRead h rfl
  | crystalFail => exact recovery_of_chip exec_crystalFail h (congrArg Pat.recovery s.chip.crystalFail_keeps.1)
  | castOn => exact recovery_of_chip exec_castOn h (Chip.recovery_eq (Chip.request_quiet _ _ _ _ (fun _ _ => Chip.castOn_quiet _ _ _) rfl) rfl)
  | bindOff => exact recovery_of_pair exec_bindOff h (Chip.recovery_eq (requestM_quiet _ _ _ _ (fun _ _ => bindOff_quiet _ _ _) rfl) rfl)
  | bindOffDrainEnd => exact recovery_of_pair exec_bindOffDrainEnd h (Chip.recovery_eq (drainEnd_quiet _ _ rfl) rfl)
  | garmentCastOn => exact recovery_of_chip exec_garmentCastOn h (Chip.recovery_eq (Chip.request_quiet _ _ _ _ (fun _ _ => Chip.garmentCastOn_quiet _ _ _ _) rfl) rfl)
  | reserve => exact recovery_of_pair exec_reserve h (Chip.recovery_eq (control_quiet _ _ _ _ _ (fun _ => controlIn_quiet _ _) rfl) rfl)
  | answer => exact recovery_of_pair exec_answer h (Chip.recovery_eq (control_quiet _ _ _ _ _ (fun _ => controlIn_quiet _ _) rfl) rfl)
  | commit => exact recovery_of_pair exec_commit h (Chip.recovery_eq (control_quiet _ _ _ _ _ (fun _ => controlIn_quiet _ _) rfl) rfl)
  | release => exact recovery_of_pair exec_release h (Chip.recovery_eq (control_quiet _ _ _ _ _ (fun _ => controlIn_quiet _ _) rfl) rfl)
  | garmentAnswerTimeout => exact recovery_of_chip exec_garmentAnswerTimeout h (Chip.answerTimeout_recovery _ _)
  | garmentHoldExpire => exact recovery_of_chip exec_garmentHoldExpire h (Chip.holdExpire_recovery _ _)
  | garmentBindOff => exact recovery_of_pair exec_garmentBindOff h (Chip.recovery_eq (control_quiet _ _ _ _ _ (fun _ => controlIn_quiet _ _) rfl) rfl)
  | matmul => exact recovery_of_chip exec_matmul h (Chip.recovery_eq (Chip.takeTod_quiet _ _ _ _ _ _ rfl) rfl)
  | conv => exact recovery_of_chip exec_conv h (Chip.recovery_eq (Chip.takeTod_quiet _ _ _ _ _ _ rfl) rfl)
  | dwconv => exact recovery_of_chip exec_dwconv h (Chip.recovery_eq (Chip.takeTod_quiet _ _ _ _ _ _ rfl) rfl)
  | pool => exact recovery_of_chip exec_pool h (Chip.recovery_eq (Chip.takeTod_quiet _ _ _ _ _ _ rfl) rfl)
  | eltwise => exact recovery_of_chip exec_eltwise h (Chip.recovery_eq (Chip.takeTod_quiet _ _ _ _ _ _ rfl) rfl)
  | norm => exact recovery_of_chip exec_norm h (Chip.recovery_eq (Chip.takeTod_quiet _ _ _ _ _ _ rfl) rfl)
  | softmax => exact recovery_of_chip exec_softmax h (Chip.recovery_eq (Chip.takeTod_quiet _ _ _ _ _ _ rfl) rfl)
  | gather => exact recovery_of_chip exec_gather h (Chip.recovery_eq (Chip.takeTod_quiet _ _ _ _ _ _ rfl) rfl)
  | scatter => exact recovery_of_chip exec_scatter h (Chip.recovery_eq (Chip.takeTod_quiet _ _ _ _ _ _ rfl) rfl)
  | argmax => exact recovery_of_chip exec_argmax h (Chip.recovery_eq (Chip.takeTod_quiet _ _ _ _ _ _ rfl) rfl)
  | s2d => exact recovery_of_chip exec_s2d h (Chip.recovery_eq (Chip.takeTod_quiet _ _ _ _ _ _ rfl) rfl)
  | marub => exact recovery_of_chip exec_marub h (Chip.recovery_eq (Chip.takeTod_quiet _ _ _ _ _ _ rfl) rfl)
  | sync => exact recovery_of_chip exec_sync h (Chip.recovery_eq (Chip.takeTod_quiet _ _ _ _ _ _ rfl) rfl)
  | operationComplete => exact recovery_of_pair exec_operationComplete h (operationComplete_recovery _ _ _ _ _ _ _ _)
  | weightSwapComplete => exact recovery_of_exec exec_weightSwapComplete h (by
    dsimp only
    split
    next => rfl
    next => exact Chip.recovery_eq (Chip.pump_quiet _ _ _ rfl) rfl)
  | dmaTransferComplete => exact recovery_of_exec exec_dmaTransferComplete h (Chip.recovery_eq (Chip.dmaComplete_quiet _ _ _ _ rfl) rfl)
  | chunkAdmit => exact recovery_of_chip exec_chunkAdmit h (Chip.recovery_eq (Chip.admitChunk_quiet _ _ _ _ rfl) rfl)
  | chartFillComplete => exact recovery_of_exec exec_chartFillComplete h rfl
  | chartFillTimeout => exact recovery_of_chip exec_chartFillTimeout h (Chip.fillTimeout_recovery _ _)
  | residentSegmentLoaded => exact recovery_of_chip exec_residentSegmentLoaded h rfl
  | decodeSegmentEnd => exact recovery_of_chip exec_decodeSegmentEnd h (Chip.recovery_eq (Chip.decSegment_quiet _ _ rfl) rfl)
  | decodeComplete => exact recovery_of_pair exec_decodeComplete h (Chip.recovery_eq (decodeComplete_quiet _ _ _ rfl) rfl)
  | fieldReleaseTimeout =>
    exact recovery_of_pair exec_fieldReleaseTimeout h
      ((Chip.recovery_eq (progress_quiet _ (s.chip.fieldTimeout _ _, s.mem) rfl) rfl).trans (Chip.fieldTimeout_recovery _ _ _))
  | skipRecordCommit => exact recovery_of_exec exec_skipRecordCommit h (by
    split
    next => rfl
    next =>
      split
      next => rfl
      next hd => exact Chip.recovery_eq (commitSkip_quiet _ (s.chip, s.mem) rfl _ hd) rfl)
  | laneStart => exact recovery_of_chip exec_laneStart h (Chip.recovery_eq (Chip.laneStart_quiet _ _ rfl) rfl)
  | encodeSegmentEnd => exact recovery_of_chip exec_encodeSegmentEnd h (Chip.recovery_eq (Chip.encSegment_quiet _ _ rfl) rfl)
  | encodeComplete => exact recovery_of_pair exec_encodeComplete h (Chip.recovery_eq (encodeEnd_quiet _ _ _ rfl) rfl)
  | waitTimeout => exact recovery_of_pair exec_waitTimeout h (waitTimeout_recovery _ _ _ _)
  | sampleDropped =>
    exact recovery_of_chip exec_sampleDropped h
      ((Chip.recovery_eq (Chip.startSample_quiet _ _ _ rfl) rfl).trans (Chip.sampleDropped_recovery _ _ _))
  | hankAlloc => exact recovery_of_chip exec_hankAlloc h (Chip.recovery_eq (Chip.hankAlloc_quiet _ _ _ _ rfl) rfl)
  | hankAllocGrant => exact recovery_of_chip exec_hankAllocGrant h (Chip.recovery_eq (Chip.hankGrant_quiet _ rfl) rfl)
  | hankShare => exact recovery_of_chip exec_hankShare h (Chip.recovery_eq (Chip.hankShare_quiet _ _ _ _ _ rfl) rfl)
  | hankPass => exact recovery_of_chip exec_hankPass h (Chip.recovery_eq (Chip.hankPass_quiet _ _ _ _ rfl) rfl)
  | hankFree => exact recovery_of_chip exec_hankFree h (Chip.recovery_eq (Chip.hankFree_quiet _ _ _ rfl) rfl)
  | hankScrubDone => exact recovery_of_exec exec_hankScrubDone h (by
    dsimp only
    split
    next => exact Chip.recovery_eq (Chip.hbmWrote_quiet _ _ (Chip.scrubDone_quiet _ _ rfl)) rfl
    next => rfl)
  | hbmParityError => exact recovery_of_pair exec_hbmParityError h (parityError_recovery _ _)
  | rowIdleClose => exact recovery_of_chip exec_rowIdleClose h rfl
  | patrolScrub => exact recovery_of_chip exec_patrolScrub h (Chip.recovery_eq (Chip.patrol_quiet _ _ _ rfl) rfl)
  | data => exact recovery_of_pair exec_data h (Chip.recovery_eq (typed_quiet _ _ _ _ _ (fun _ => dataIn_quiet _ _) rfl) rfl)
  | fetch => exact recovery_of_pair exec_fetch h (Chip.recovery_eq (typed_quiet _ _ _ _ _ (fun _ => fetchIn_quiet _ _) rfl) rfl)
  | idle => exact recovery_of_chip exec_idle h rfl
  | nak => exact recovery_of_chip exec_nak h rfl
  | hello => exact recovery_of_chip exec_hello h (Chip.hello_recovery _ _ _)
  | discover => exact recovery_of_pair exec_discover h (Chip.recovery_eq (typed_quiet _ _ _ _ _ (fun _ => Chip.discovered_quiet _ _ _) rfl) rfl)
  | markerSignal => exact recovery_of_pair exec_markerSignal h (Chip.recovery_eq (control_quiet _ _ _ _ _ (fun _ => controlIn_quiet _ _) rfl) rfl)
  | garmentAbort => exact recovery_of_pair exec_garmentAbort h (Chip.recovery_eq (control_quiet _ _ _ _ _ (fun _ => controlIn_quiet _ _) rfl) rfl)
  | xferAck => exact recovery_of_pair exec_xferAck h (Chip.recovery_eq (control_quiet _ _ _ _ _ (fun _ => xferAckIn_quiet _ _) rfl) rfl)
  | msgAck => exact recovery_of_pair exec_msgAck h (Chip.recovery_eq (control_quiet _ _ _ _ _ (fun _ => Chip.msgAckIn_quiet _ _) rfl) rfl)
  | alarm => exact recovery_of_pair exec_alarm h (Chip.recovery_eq (control_quiet _ _ _ _ _ (fun _ => controlIn_quiet _ _) rfl) rfl)
  | alarmSummary => exact recovery_of_pair exec_alarmSummary h (Chip.recovery_eq (control_quiet _ _ _ _ _ (fun _ => controlIn_quiet _ _) rfl) rfl)
  | ringChange => exact recovery_of_pair exec_ringChange h (Chip.recovery_eq (control_quiet _ _ _ _ _ (fun _ => controlIn_quiet _ _) rfl) rfl)
  | idleSend => exact recovery_of_chip exec_idleSend h rfl
  | frameBoundary => exact recovery_of_pair exec_frameBoundary h (Chip.recovery_eq (frameBoundary_quiet _ _ rfl) rfl)
  | linkFault => exact recovery_of_chip exec_linkFault h (Chip.linkFault_recovery _ _)
  | xferAckTimeout => exact recovery_of_pair exec_xferAckTimeout h (xferTimeout_recovery _ _)
  | msgAckTimeout => exact recovery_of_pair exec_msgAckTimeout h (msgTimeout_recovery _ _ _)
  | controlGap => exact recovery_of_pair exec_controlGap h (controlGap_recovery _ _)
  | discoveryRun => exact recovery_of_pair exec_discoveryRun h (Chip.recovery_eq (settleRoutes_quiet (s.chip.runDiscovery, s.mem) (Chip.runDiscovery_quiet _ rfl)) rfl)
  | lossOfLock => exact recovery_of_chip exec_lossOfLock h rfl
  | wrap => exact recovery_of_exec exec_wrap h (by
    dsimp only
    split
    next => rfl
    next => exact Chip.recovery_eq (Chip.wrap_quiet _ _ rfl) rfl)
  | plannedSlip => exact recovery_of_exec exec_plannedSlip h (by
    dsimp only
    split
    next =>
      split
      next => split <;> rfl
      next => rfl
    next => rfl)
  | perstRelease => exact recovery_of_pair exec_perstRelease h (perstRelease_recovery _ _)
  | perstAssert => exact recovery_of_pair exec_perstAssert h (perstAssert_recovery _)
  | bar2Access => exact recovery_of_pair exec_bar2Access h (Chip.recovery_eq (bar2_quiet _ _ _ _ _ rfl) rfl)
  | queueEnable => exact recovery_of_chip exec_queueEnable h (Chip.recovery_eq (Chip.qWrite_quiet _ _ _ _ _ (fun _ _ => Chip.queueEnable_quiet _ _ _) rfl) rfl)
  | queueDisable => exact recovery_of_chip exec_queueDisable h (Chip.recovery_eq (Chip.qWrite_quiet _ _ _ _ _ (fun _ _ => Chip.queueDisable_quiet _ _ _) rfl) rfl)
  | resume => exact recovery_of_chip exec_resume h (Chip.recovery_eq (Chip.qWrite_quiet _ _ _ _ _ (fun _ _ => Chip.queueResume_quiet _ _) rfl) rfl)
  | sqTailWrite => exact recovery_of_chip exec_sqTailWrite h (Chip.recovery_eq (Chip.qWrite_quiet _ _ _ _ _ (fun _ _ => Chip.sqTail_quiet _ _ _) rfl) rfl)
  | cqHeadWrite => exact recovery_of_pair exec_cqHeadWrite h (Chip.recovery_eq (cqHead_quiet _ _ _ _ rfl) rfl)
  | nop => exact recovery_of_pair exec_nop h (Chip.recovery_eq (nop_quiet _ _ _ _ rfl) rfl)
  | frame => exact recovery_of_pair exec_frame h (Chip.recovery_eq (frame_quiet _ _ _ _ _ _ rfl) rfl)
  | sample => exact recovery_of_pair exec_sample h (Chip.recovery_eq (sample_quiet _ _ _ _ _ _ rfl) rfl)
  | alloc => exact recovery_of_pair exec_alloc h (Chip.recovery_eq (alloc_quiet _ _ _ _ rfl) rfl)
  | free => exact recovery_of_pair exec_free h (Chip.recovery_eq (free_quiet _ _ _ _ _ rfl) rfl)
  | copyOut => exact recovery_of_pair exec_copyOut h (Chip.recovery_eq (copyOut_quiet _ _ _ _ _ rfl) rfl)
  | signal => exact recovery_of_pair exec_signal h (Chip.recovery_eq (signal_quiet _ _ _ _ rfl) rfl)
  | wait => exact recovery_of_pair exec_wait h (Chip.recovery_eq (wait_quiet _ _ _ _ rfl) rfl)
  | hostWaitTimeout => exact recovery_of_chip exec_hostWaitTimeout h (Chip.waitExpire_recovery _ _ _)
  | completionTlp => exact recovery_of_chip exec_completionTlp h (Chip.recovery_eq (Chip.completion_quiet _ _ _ rfl) rfl)
  | completionTimeout => exact recovery_of_chip exec_completionTimeout h (Chip.readTimeout_recovery _ _)
  | tagRelease => exact recovery_of_chip exec_tagRelease h (Chip.tagRelease_recovery _ _)
  | busMasterDisable => exact recovery_of_chip exec_busMasterDisable h (Chip.recovery_eq (Chip.busMasterOff_quiet _ _ rfl) rfl)
  | busMasterEnable => exact recovery_of_pair exec_busMasterEnable h (Chip.recovery_eq (busMasterOn_quiet _ _ rfl) rfl)
  | functionLevelReset => exact recovery_of_pair exec_functionLevelReset h (Chip.recovery_eq (functionReset_quiet _ _ rfl) rfl)
  | hotReset => exact recovery_of_pair exec_hotReset h (Chip.recovery_eq (hotReset_quiet _ rfl) rfl)
  | vfEnableClear => exact recovery_of_pair exec_vfEnableClear h (Chip.recovery_eq (vfClear_quiet _ rfl) rfl)
  | numvfsLower => exact recovery_of_pair exec_numvfsLower h (Chip.recovery_eq (vfLower_quiet _ _ rfl) rfl)
  | l1Entry => exact recovery_of_chip exec_l1Entry h (Chip.recovery_eq (Chip.l1Entry_quiet _ rfl) rfl)
  | d3hotEntry => exact recovery_of_pair exec_d3hotEntry h (d3hot_recovery _ _)
  | d0Return => exact recovery_of_pair exec_d0Return h (d0Return_recovery _ _)
  | pmeTurnOff => exact recovery_of_pair exec_pmeTurnOff h (pmeTurnOff_recovery _)
  | doeDiscovery => exact recovery_of_chip exec_doeDiscovery h (Chip.recovery_eq (Chip.spdmAnswer_quiet _ _ _ rfl) rfl)
  | getVersion => exact recovery_of_chip exec_getVersion h (Chip.recovery_eq (Chip.spdmAnswer_quiet _ _ _ rfl) rfl)
  | getCapabilities => exact recovery_of_chip exec_getCapabilities h (Chip.recovery_eq (Chip.spdmAnswer_quiet _ _ _ rfl) rfl)
  | negotiateAlgorithms => exact recovery_of_chip exec_negotiateAlgorithms h (Chip.recovery_eq (Chip.spdmAnswer_quiet _ _ _ rfl) rfl)
  | getDigests => exact recovery_of_chip exec_getDigests h (Chip.recovery_eq (Chip.spdmAnswer_quiet _ _ _ rfl) rfl)
  | getCertificate => exact recovery_of_chip exec_getCertificate h (Chip.recovery_eq (Chip.spdmAnswer_quiet _ _ _ rfl) rfl)
  | challenge => exact recovery_of_chip exec_challenge h (Chip.recovery_eq (Chip.spdmAnswer_quiet _ _ _ rfl) rfl)
  | getMeasurements => exact recovery_of_chip exec_getMeasurements h (Chip.recovery_eq (Chip.spdmAnswer_quiet _ _ _ rfl) rfl)
  | slotWrite => exact recovery_of_chip exec_slotWrite h (Chip.slotWrite_recovery _ _ _)
  | eventAck => exact recovery_of_chip exec_eventAck h (Chip.recovery_eq (Chip.eventAck_quiet _ _ _ rfl) rfl)
  | idleHint => exact recovery_of_chip exec_idleHint h (Chip.recovery_eq (Chip.idleHint_quiet _ _ rfl) rfl)
  | evcDisable => exact recovery_of_chip exec_evcDisable h (Chip.recovery_eq (Chip.evcDisable_quiet _ _ rfl) rfl)
  | moderationTimerExpire => exact recovery_of_chip exec_moderationTimerExpire h (Chip.moderationExpire_recovery _ _ _)
  | vectorUnmask => exact recovery_of_chip exec_vectorUnmask h (Chip.recovery_eq (Chip.vectorUnmask_quiet _ _ _ rfl) rfl)
  | alarmAck => exact recovery_of_chip exec_alarmAck h (Chip.recovery_eq (Chip.alarmAck_quiet _ _ _ rfl) rfl)
  | logCopy => exact recovery_of_chip exec_logCopy h rfl
  | logPersist => exact recovery_of_chip exec_logPersist h rfl
  | powerSample => exact recovery_of_pair exec_powerSample h (powerSample_recovery _ _ _)
  | thermalReading => exact recovery_of_pair exec_thermalReading h (thermalReading_recovery _ _)
  | hushEntry => exact recovery_of_exec exec_hushEntry h (by
    dsimp only
    split
    next => rfl
    next => rfl)
  | dozeEntry => exact recovery_of_exec exec_dozeEntry h (by
    dsimp only
    split
    next => rfl
    next => rfl)
  | wake => exact recovery_of_chip exec_wake h (Chip.wake_recovery _ _)
  | trip => exact recovery_of_pair exec_trip h (trip_recovery _ _ _)
  | tinkReplayEnd => exact recovery_of_pair exec_tinkReplayEnd h (tinkReplayEnd_recovery _ _)
  | recoveryOverrun => exact recovery_of_pair exec_recoveryOverrun h (overrun_recovery _ _)
  | heartbeatTimeout => exact recovery_of_pair exec_heartbeatTimeout h (warmReset_recovery _ _ _)
  | frog => exact recovery_of_pair exec_frog h (frogRequest_recovery _ _)
  | panelReset => exact recovery_of_pair exec_panelReset h (panelRequest_recovery _ _)
  | warmChipReset => exact recovery_of_pair exec_warmChipReset h (warmRequest_recovery _)
  | maintenanceStart => exact recovery_of_pair exec_maintenanceStart h (maintRequest_recovery _)
  | powerCycle => exact recovery_of_pair exec_powerCycle h (cycleRequest_recovery _)
  | modRstAssert => exact recovery_of_pair exec_modRstAssert h (modRstAssert_recovery _)
  | modRstRelease => exact recovery_of_pair exec_modRstRelease h (modRstRelease_recovery _ _)
  | powerEnableRise => exact recovery_of_chip exec_powerEnableRise h (Chip.powerRise_recovery _)
  | powerEnableFall => exact recovery_of_pair exec_powerEnableFall h (powerFall_recovery _)
  | inputUndervoltage => exact recovery_of_pair exec_inputUndervoltage h (undervoltage_recovery _)
  | auxUp => exact recovery_of_chip exec_auxUp h rfl
  | auxLoss => exact recovery_of_exec exec_auxLoss h rfl
  | strapsUnstable => exact recovery_of_chip exec_strapsUnstable h (Chip.recovery_eq (Chip.incident_quiet _ _ _ _ _ _ _ rfl) rfl)
  | alertResponse => exact recovery_of_chip exec_alertResponse h (Chip.alertResponse_recovery _ _)
  | setEndpointId => exact recovery_of_chip exec_setEndpointId h ((Chip.smbAnswer_recovery _ _).trans (Chip.setEid_recovery _ _))
  | getEndpointId => exact recovery_of_chip exec_getEndpointId h (Chip.smbAnswer_recovery _ _)
  | getMctpVersionSupport => exact recovery_of_chip exec_getMctpVersionSupport h (Chip.smbAnswer_recovery _ _)
  | getMessageTypeSupport => exact recovery_of_chip exec_getMessageTypeSupport h (Chip.smbAnswer_recovery _ _)
  | getVendorDefinedMessageSupport => exact recovery_of_chip exec_getVendorDefinedMessageSupport h (Chip.smbAnswer_recovery _ _)
  | getStatus => exact recovery_of_chip exec_getStatus h (Chip.smbAnswer_recovery _ _)
  | readReg => exact recovery_of_chip exec_readReg h (Chip.readReg_recovery _ _)
  | readLog => exact recovery_of_chip exec_readLog h (Chip.smbAnswer_recovery _ _)
  | ackAlarm => exact recovery_of_chip exec_ackAlarm h (Chip.smbAck_recovery _ _ _)
  | requestReset => exact recovery_of_pair exec_requestReset h (smbReset_recovery _ _)
  | laneLocked => exact recovery_of_chip exec_laneLocked h rfl
  | pcieLinkUp => exact recovery_of_chip exec_pcieLinkUp h (Chip.recovery_eq (Chip.linkUp_quiet _ _ _ rfl) rfl)
  | vfEnableSet => exact recovery_of_chip exec_vfEnableSet h (Chip.recovery_eq (Chip.vfSet_quiet _ _ rfl) rfl)
  | inputVoltageRestored => exact recovery_of_chip exec_inputVoltageRestored h rfl
  | hbmStackTemperature => exact recovery_of_chip exec_hbmStackTemperature h rfl
  | slotWriteEnd => exact recovery_of_chip exec_slotWriteEnd h (Chip.slotWriteEnd_recovery _ _)

/-- Settles O59: a tick leaves the pattern store alone, and every command's meaning leaves the recovery image in it. -/
theorem recoveryImageNeverChanges : Obligations.RecoveryImageNeverChanges := by
  unfold Obligations.RecoveryImageNeverChanges
  intro s t h
  exact step_keeps (P := fun u => u.chip.pat.recovery = s.chip.pat.recovery) (fun _ hu => hu) (fun _ _ hu => hu)
    (fun _ _ _ hu hc => (exec_keeps_recovery hc).trans hu) rfl h

end Sys2Proof.Machine
end

section
/-!
Queue pairs (R276, R277, R281, R285), family 14: what a write of a queue's control register and its doorbells do.
-/
namespace Sys2Proof.Machine

/-- A chip whose queues are another's but for one. -/
theorem Chip.queue_set_same {d : Chip} {l : Tbl Queue} {g : Nat} {x : Queue} (h : d.queues = Tbl.set l g x) : d.queue g = x := by
  unfold Chip.queue
  rw [h, Tbl.get_set_same]

theorem Chip.queue_set_other {c d : Chip} {g k : Nat} {x : Queue} (h : d.queues = Tbl.set c.queues g x) (hk : k ≠ g) :
    d.queue k = c.queue k := by
  unfold Chip.queue
  rw [h, Tbl.get_set_other _ _ _ hk]

/-- A write that reaches a queue's register does what the register does, as a request of the link (R275). -/
theorem Chip.qWrite_of_reachable {c : Chip} {fn q : Nat} (hfn : c.reachableFn fn = true) (hq : q < queuesOf fn) (hbasic : c.onlyBasic = false)
    (off : Nat) (f : Chip → Nat → Chip) : c.qWrite fn q off f = f c.tlp (globalQueue fn q) := by
  unfold Chip.qWrite
  rw [if_pos (by simp [hfn, hq]), if_neg (by simp [hbasic])]

/-- A fetch takes at most a read tag. -/
theorem Chip.fetchSq_frame (c : Chip) (g : Nat) : c.fetchSq g = { c with pcie := (c.fetchSq g).pcie } := by
  unfold Chip.fetchSq
  split <;> rfl

theorem Chip.queue_fetchSq (c : Chip) (g k : Nat) : (c.fetchSq g).queue k = c.queue k := by rw [Chip.fetchSq_frame]; rfl

theorem Chip.queueResume_of_sound {c : Chip} {g : Nat} (h : (c.queue g).state ≠ .error) :
    c.queueResume g = c.updQueue g (fun q => { q with resume := true }) := if_neg h

theorem Chip.queueResume_of_error {c : Chip} {g : Nat} (h : (c.queue g).state = .error) :
    c.queueResume g = (c.updQueue g (fun q => { q with state := .running, resume := true })).fetchSq g := if_pos h

theorem Chip.queue_setVector_same (c : Chip) (g v : Nat) : (c.setVector g v).queue g = { c.queue g with vector := v } :=
  Chip.queue_set_same rfl

theorem Chip.queue_setVector_other (c : Chip) {g k : Nat} (v : Nat) (h : k ≠ g) : (c.setVector g v).queue k = c.queue k :=
  Chip.queue_set_other rfl h

/-- RESUME written along with what else a control write does: the queue is not in error then. -/
theorem Chip.resumed_spec {c : Chip} {g : Nat} (b : Bool) (h : (c.queue g).state ≠ .error) :
    (if b then c.queueResume g else c).queue g = { c.queue g with resume := (c.queue g).resume || b } ∧
    (∀ k, k ≠ g → (if b then c.queueResume g else c).queue k = c.queue k) ∧
    (if b then c.queueResume g else c) = { c with queues := (if b then c.queueResume g else c).queues } := by
  cases b with
  | true =>
    rw [if_pos rfl, Chip.queueResume_of_sound h, Bool.or_true]
    exact ⟨c.queue_updQueue_same g _, fun k hk => c.queue_updQueue_other _ hk, rfl⟩
  | false =>
    rw [if_neg Bool.false_ne_true, Bool.or_false]
    exact ⟨rfl, fun _ _ => rfl, rfl⟩

/-- A disabled queue with its vector and sizes set, at its start. -/
def Chip.queueStarted (c : Chip) (g v : Nat) : Chip :=
  { (c.setVector g (ctrlVector (queueFn g) v)).updQueue g (fun q => { q with sqLog2 := bitf v 16 4, cqLog2 := bitf v 20 4 }.start) with
    evc := (c.setVector g (ctrlVector (queueFn g) v)).evc.calm g }

theorem Chip.queueEnable_of_disabled {c : Chip} {g v : Nat} (hok : ctrlOk v = true) (h : (c.queue g).enable = false) :
    c.queueEnable g v = if bit v 30 then (c.queueStarted g v).queueResume g else c.queueStarted g v := by
  have hset : ¬ ((c.setVector g (ctrlVector (queueFn g) v)).queue g).enable = true := by
    rw [Chip.queue_setVector_same]
    exact Bool.not_eq_true _ ▸ h
  unfold Chip.queueEnable
  rw [if_pos hok]
  extract_lets d _ e
  rw [show e = c.queueStarted g v from if_neg hset]

theorem Chip.queue_queueStarted_same (c : Chip) (g v : Nat) : (c.queueStarted g v).queue g =
    { c.queue g with sqLog2 := bitf v 16 4, cqLog2 := bitf v 20 4, vector := ctrlVector (queueFn g) v }.start :=
  (Chip.queue_set_same (l := (c.setVector g (ctrlVector (queueFn g) v)).queues) rfl).trans
    (congrArg (fun q : Queue => { q with sqLog2 := bitf v 16 4, cqLog2 := bitf v 20 4 }.start) (c.queue_setVector_same g _))

theorem Chip.queue_queueStarted_other (c : Chip) {g k : Nat} (v : Nat) (h : k ≠ g) : (c.queueStarted g v).queue k = c.queue k :=
  (Chip.queue_set_other (c := c.setVector g (ctrlVector (queueFn g) v)) rfl h).trans (c.queue_setVector_other _ h)

theorem Chip.dropUnit_frame (c : Chip) (g : Nat) : c.dropUnit g = { c with queues := (c.dropUnit g).queues, hank := (c.dropUnit g).hank } := by
  unfold Chip.dropUnit
  split <;> rfl

theorem Chip.queue_dropUnit_same (c : Chip) (g : Nat) : (c.dropUnit g).queue g = { c.queue g with unit := none } := by
  unfold Chip.dropUnit
  split
  next h => rw [← h]
  next => exact Chip.queue_set_same rfl

theorem Chip.queue_dropUnit_other (c : Chip) {g k : Nat} (h : k ≠ g) : (c.dropUnit g).queue k = c.queue k := by
  unfold Chip.dropUnit
  split
  next => rfl
  next => exact Chip.queue_set_other rfl h

theorem Chip.queue_queueStop_same (c : Chip) (g : Nat) :
    (c.queueStop g).queue g = { c.queue g with unit := none, enable := false, state := .disabled, reserved := 0 } :=
  (Chip.queue_set_same (l := (c.dropUnit g).queues) rfl).trans
    (congrArg (fun q : Queue => { q with enable := false, state := .disabled, reserved := 0 }) (c.queue_dropUnit_same g))

theorem Chip.queue_queueStop_other (c : Chip) {g k : Nat} (h : k ≠ g) : (c.queueStop g).queue k = c.queue k :=
  (Chip.queue_set_other (c := c.dropUnit g) rfl h).trans (c.queue_dropUnit_other h)

theorem Chip.waits_queueStop (c : Chip) (g : Nat) : (c.queueStop g).waits = c.waits.filter (fun w => w.q != g) := by
  have hdrop : (c.dropUnit g).waits = c.waits := by rw [Chip.dropUnit_frame]
  exact congrArg _ hdrop

theorem Chip.queueStop_frame (c : Chip) (g : Nat) : c.queueStop g = { c with
    queues := (c.queueStop g).queues, waits := (c.queueStop g).waits, pcie := (c.queueStop g).pcie, hank := (c.queueStop g).hank } := by
  unfold Chip.queueStop
  rw [Chip.dropUnit_frame]
  rfl

theorem Chip.queueDisable_of_enabled {c : Chip} {g v : Nat} (hok : ctrlOk v = true) (h : (c.queue g).enable = true) (hname : c.queueNamed g = false) :
    c.queueDisable g v = if bit v 30 then ((c.queueStop g).setVector g (ctrlVector (queueFn g) v)).queueResume g
      else (c.queueStop g).setVector g (ctrlVector (queueFn g) v) := by
  unfold Chip.queueDisable
  rw [if_neg (by simp [hok, hname])]
  extract_lets d e
  have hd : d = c.queueStop g := if_pos h
  rw [show e = (c.queueStop g).setVector g (ctrlVector (queueFn g) v) from congrArg (fun d => Chip.setVector d g _) hd]

theorem bit_eq_testBit (w i : Nat) : bit w i = w.testBit i := by
  unfold bit
  rw [Nat.testBit_eq_decide_div_mod_eq]
  rfl

/-- Settles O27: a control write enables, disables or resumes its queue, or is ignored. -/
theorem queuesStartStopAndResume : Obligations.QueuesStartStopAndResume := by
  unfold Obligations.QueuesStartStopAndResume
  intro s fn q v hfn hq hbasic g x
  have hreach : ∀ off f, s.chip.qWrite fn q off f = f s.chip.tlp g := fun off f => Chip.qWrite_of_reachable hfn hq hbasic off f
  have hname : s.chip.tlp.queueNamed g = s.chip.queueNamed g := rfl
  have hgfn : queueFn g = fn := queueFn_globalQueue hq
  refine ⟨fun hbad c hc => ?ignored, fun hok hoff => ?enabled, fun hok hon hnamed => ?named, fun hok hon hfree => ?disabled, fun herr => ?restarted,
    fun hsound => ?resumed⟩
  case ignored =>
    simp only [List.mem_cons, List.not_mem_nil, or_false] at hc
    obtain rfl | rfl := hc
    · rw [exec_queueEnable, execQueueEnable, hreach, Chip.queueEnable, hbad]
      rfl
    · rw [exec_queueDisable, execQueueDisable, hreach, Chip.queueDisable, hbad]
      rfl
  case enabled =>
    obtain ⟨hsame, hother, hframe⟩ := Chip.resumed_spec (c := s.chip.tlp.queueStarted g v.toNat) (g := g) (bit v.toNat 30)
      (by rw [Chip.queue_queueStarted_same]; exact QState.noConfusion)
    refine ⟨_, exec_queueEnable, ?_⟩
    rw [hreach, Chip.queueEnable_of_disabled (c := s.chip.tlp) hok hoff]
    generalize (if bit v.toNat 30 then (s.chip.tlp.queueStarted g v.toNat).queueResume g else s.chip.tlp.queueStarted g v.toNat) = d at hsame hother hframe ⊢
    refine ⟨by rw [hframe]; rfl, fun k hk => (hother k hk).trans (s.chip.tlp.queue_queueStarted_other _ hk), ?_⟩
    exact hsame.trans (by rw [Chip.queue_queueStarted_same, hgfn, bit_eq_testBit]; rfl)
  case named =>
    rw [exec_queueDisable, execQueueDisable, hreach, Chip.queueDisable, if_pos]
    exact Bool.or_eq_true_iff.mpr (.inr (Bool.and_eq_true_iff.mpr ⟨hon, hname.trans hnamed⟩))
  case disabled =>
    have hstop := s.chip.tlp.queue_queueStop_same g
    have hset := (s.chip.tlp.queueStop g).queue_setVector_same g (ctrlVector (queueFn g) v.toNat)
    rw [hstop] at hset
    obtain ⟨hsame, hother, hframe⟩ := Chip.resumed_spec (c := (s.chip.tlp.queueStop g).setVector g (ctrlVector (queueFn g) v.toNat)) (g := g)
      (bit v.toNat 30) (by rw [hset]; exact QState.noConfusion)
    refine ⟨_, exec_queueDisable, ?_⟩
    rw [hreach, Chip.queueDisable_of_enabled (c := s.chip.tlp) hok hon (hname.trans hfree)]
    generalize (if bit v.toNat 30 then ((s.chip.tlp.queueStop g).setVector g (ctrlVector (queueFn g) v.toNat)).queueResume g
      else (s.chip.tlp.queueStop g).setVector g (ctrlVector (queueFn g) v.toNat)) = d at hsame hother hframe ⊢
    refine ⟨?_, fun k hk => (hother k hk).trans (((s.chip.tlp.queueStop g).queue_setVector_other _ hk).trans (s.chip.tlp.queue_queueStop_other hk)), ?_, ?_, ?_⟩
    · rw [hframe]
      unfold Chip.setVector Chip.withTarget Chip.updQueue
      rw [Chip.queueStop_frame]
      rfl
    · exact (congrArg Queue.enable hsame).trans (by rw [hset])
    · exact (congrArg Queue.state hsame).trans (by rw [hset])
    · intro w
      have hwaits : d.waits = s.chip.waits.filter (fun w => w.q != g) := by rw [hframe]; exact s.chip.tlp.waits_queueStop g
      show w ∈ d.waits ↔ _
      rw [hwaits, List.mem_filter]
      simp
  case restarted =>
    refine ⟨_, exec_resume, ?_⟩
    rw [hreach, Chip.queueResume_of_error (c := s.chip.tlp) herr]
    refine ⟨by rw [Chip.fetchSq_frame]; rfl, fun k hk => ?_, ?_⟩
    · exact (Chip.queue_fetchSq _ _ _).trans (s.chip.tlp.queue_updQueue_other _ hk)
    · exact (Chip.queue_fetchSq _ _ _).trans (s.chip.tlp.queue_updQueue_same g _)
  case resumed => rw [exec_resume, execResume, hreach, Chip.queueResume_of_sound (c := s.chip.tlp) hsound]

/-- A tail inside the SQ is taken. -/
theorem Chip.queue_sqTail_same (c : Chip) (g v : Nat) : (c.sqTail g v).queue g =
    if v < (c.queue g).sqSize then { c.queue g with sqTail := v } else { c.queue g with badBell := true } := by
  unfold Chip.sqTail
  split
  next => exact (Chip.queue_fetchSq _ _ _).trans (c.queue_updQueue_same g _)
  next => exact c.queue_updQueue_same g _

theorem Chip.queue_sqTail_other (c : Chip) {g k : Nat} (v : Nat) (h : k ≠ g) : (c.sqTail g v).queue k = c.queue k := by
  unfold Chip.sqTail
  split
  next => exact (Chip.queue_fetchSq _ _ _).trans (c.queue_updQueue_other _ h)
  next => exact c.queue_updQueue_other _ h

theorem Chip.sqTail_frame (c : Chip) (g v : Nat) : c.sqTail g v = { c with queues := (c.sqTail g v).queues, pcie := (c.sqTail g v).pcie } := by
  unfold Chip.sqTail
  split
  next => rw [Chip.fetchSq_frame]; rfl
  next => rfl

theorem Chip.queueSeen_frame (c : Chip) (g : Nat) : c.queueSeen g = { c with evc := (c.queueSeen g).evc } := by
  unfold Chip.queueSeen
  dsimp only
  split <;> rfl

theorem Chip.queue_queueSeen (c : Chip) (g k : Nat) : (c.queueSeen g).queue k = c.queue k := by rw [Chip.queueSeen_frame]; rfl

/-- A head that passes no record still to be written consumes the records up to it. -/
theorem Chip.queue_cqHead_same (c : Chip) (g v : Nat) : (c.cqHead g v).queue g =
    if v < (c.queue g).cqSize ∧ (c.queue g).consumes v ≤ (c.queue g).cqCount then
      { c.queue g with cqHead := v, cqCount := (c.queue g).cqCount - (c.queue g).consumes v }
    else { c.queue g with badBell := true } := by
  unfold Chip.cqHead
  dsimp only
  split
  next => exact (Chip.queue_queueSeen _ _ _).trans (c.queue_updQueue_same g _)
  next => exact Chip.queue_set_same rfl

theorem Chip.queue_cqHead_other (c : Chip) {g k : Nat} (v : Nat) (h : k ≠ g) : (c.cqHead g v).queue k = c.queue k := by
  unfold Chip.cqHead
  dsimp only
  split
  next => exact (Chip.queue_queueSeen _ _ _).trans (c.queue_updQueue_other _ h)
  next => exact Chip.queue_set_other rfl h

theorem Chip.cqHead_frame (c : Chip) (g v : Nat) :
    c.cqHead g v = { c with queues := (c.cqHead g v).queues, evc := (c.cqHead g v).evc, log := (c.cqHead g v).log } := by
  unfold Chip.cqHead
  dsimp only
  split
  next => rw [Chip.queueSeen_frame]; rfl
  next => rfl

/-- Settles O28: each doorbell's write, in range or not. -/
theorem doorbellsMoveThePointers : Obligations.DoorbellsMoveThePointers := by
  unfold Obligations.DoorbellsMoveThePointers
  intro s fn q v hfn hq hbasic g x
  have hreach : ∀ off f, s.chip.qWrite fn q off f = f s.chip.tlp g := fun off f => Chip.qWrite_of_reachable hfn hq hbasic off f
  refine ⟨⟨_, exec_sqTailWrite, ?_⟩, ?_⟩
  · rw [hreach]
    refine ⟨by rw [Chip.sqTail_frame], fun k hk => s.chip.tlp.queue_sqTail_other _ hk, s.chip.tlp.queue_sqTail_same g _⟩
  · intro h n
    refine ⟨{ s with chip := s.chip.tlp.cqHead g h }, by rw [Chip.cqHead_frame], fun k hk => s.chip.tlp.queue_cqHead_other _ hk,
      s.chip.tlp.queue_cqHead_same g _, ?_⟩
    have hcast : (s.chip.tlp.cqHead g h).cast = s.chip.cast := by rw [Chip.cqHead_frame]; rfl
    rw [exec_cqHeadWrite, execCqHeadWrite, cqHead, hreach, ← hcast]
    rfl

end Sys2Proof.Machine
end

section
/-!
Submission entries (R237, R239, R277 to R280), family 14: which entries wait or are answered without more, and what NOP and ALLOC do.
-/
namespace Sys2Proof.Machine

theorem checkFields_of_reserved {e : List Byte} (h : eTag e = 0xFFFF) (ok : Bool) : checkFields e ok = 2 := by
  unfold checkFields tagOk
  rw [h]
  rfl

theorem Chip.checkTicket_of_reserved {e : List Byte} (h : eTag e = 0xFFFF) (c : Chip) (fn : Nat) (ok : Bool) : c.checkTicket fn e ok = 2 := by
  unfold Chip.checkTicket tagOk
  rw [h]
  rfl

/-- The state after an entry handed over. -/
def submitted (fn q op : Nat) (e : List Byte) (check : Nat) (f : Nat → Chip × Mem → Chip × Mem) (s : State) : State :=
  { s with chip := (submit fn q op e check f (s.chip, s.mem)).1, mem := (submit fn q op e check f (s.chip, s.mem)).2 }

/-- Every submission command hands its entry over, with the opcode of its row and BAD_DESCRIPTOR where the TAG is reserved. -/
theorem exec_entry {s : State} {fn q : Nat} {e : List Byte} {d : HostRead} {pic : PicInfo} (hbme : (s.chip.pcie.fn fn).bme = true)
    {p : Nat × Instr} (hp : p ∈ [(0, Instr.nop fn q e), (1, .frame fn q e d pic), (2, .sample fn q e d pic), (3, .alloc fn q e), (4, .free fn q e d),
      (5, .copyOut fn q e d), (6, .signal fn q e), (7, .wait fn q e)]) : ∃ op check f, exec p.2 s = .next (submitted fn q op e check f s) ∧
        (eOp e = p.1 → op = p.1 ∧ (eTag e = 0xFFFF → check = 2)) := by
  have hoff : ∀ op r, accessOff fn q op e r (s.chip, s.mem) = (s.chip, s.mem) := fun op r => accessOff_bme hbme
  simp only [List.mem_cons, List.not_mem_nil, or_false] at hp
  obtain rfl | rfl | rfl | rfl | rfl | rfl | rfl | rfl := hp
  · rw [exec_nop, execNop, nop]
    by_cases h8 : 8 ≤ eOp e
    · rw [if_pos h8]
      exact ⟨_, _, _, rfl, fun h0 => absurd (h0 : eOp e = 0) (by omega)⟩
    · rw [if_neg h8]
      exact ⟨_, _, _, rfl, fun _ => ⟨rfl, fun h => checkFields_of_reserved h _⟩⟩
  · rw [exec_frame, execFrame, frame, hoff]
    exact ⟨_, _, _, rfl, fun _ => ⟨rfl, fun h => Chip.checkTicket_of_reserved h _ _ _⟩⟩
  · rw [exec_sample, execSample, sample, hoff]
    exact ⟨_, _, _, rfl, fun _ => ⟨rfl, fun h => Chip.checkTicket_of_reserved h _ _ _⟩⟩
  · exact ⟨_, _, _, exec_alloc, fun _ => ⟨rfl, fun h => Chip.checkTicket_of_reserved h _ _ _⟩⟩
  · rw [exec_free, execFree, free, hoff]
    exact ⟨_, _, _, rfl, fun _ => ⟨rfl, fun h => checkFields_of_reserved h _⟩⟩
  · rw [exec_copyOut, execCopyOut, copyOut, hoff]
    exact ⟨_, _, _, rfl, fun _ => ⟨rfl, fun h => checkFields_of_reserved h _⟩⟩
  · exact ⟨_, _, _, exec_signal, fun _ => ⟨rfl, fun h => Chip.checkTicket_of_reserved h _ _ _⟩⟩
  · exact ⟨_, _, _, exec_wait, fun _ => ⟨rfl, fun h => Chip.checkTicket_of_reserved h _ _ _⟩⟩

/-- Settles O29: an entry that cannot be taken waits, and one refused is answered. -/
theorem entriesWaitOrAreFenced : Obligations.EntriesWaitOrAreFenced := by
  unfold Obligations.EntriesWaitOrAreFenced
  intro s fn q e d pic hbme p hp g
  obtain ⟨op, check, f, hrun, hrow⟩ := exec_entry hbme hp
  refine ⟨fun hno => ?waits, fun hq htakes hop hwhy => ?answered⟩
  case waits =>
    rw [hrun, submitted, submit_waits hno]
  case answered =>
    obtain ⟨rfl, htag⟩ := hrow hop
    have hchip := submit_refused (f := f) (c := (s.chip, s.mem)) hq hop htakes (hwhy.imp_right htag)
    obtain ⟨hrunning, hmaster⟩ := Chip.takes_facts htakes
    obtain ⟨hans, hrec, hframe⟩ := s.chip.answer_spec g (s.chip.needOf fn e) (eTag e) (if s.chip.closed then 8 else 2) (eTicket e) 0
      (s.chip.needOf_pos fn e) hmaster hrunning
    refine ⟨_, hrun, ?_⟩
    rw [submitted, hchip]
    exact ⟨by rw [Chip.refuseEntry, hframe], hans, hrec⟩

/-! ### Entries that are next -/

/-- An entry that is next and passes its checks does what its opcode does. -/
theorem submit_of_next {fn q op : Nat} {e : List Byte} {check : Nat} {f : Nat → Chip × Mem → Chip × Mem} {c : Chip × Mem}
    (h : Safety.Next c.1 fn q op e) (hcheck : check = 0) : submit fn q op e check f c = f (globalQueue fn q) c := by
  obtain ⟨hq, htakes, hop, hopen⟩ := h
  unfold submit
  dsimp only
  rw [if_pos ⟨hq, htakes, hop⟩, if_neg (by simp [hopen]), if_neg (by simp [hcheck, stOk])]

theorem tagOk_of_ne {e : List Byte} (h : eTag e ≠ 0xFFFF) : tagOk e = true := decide_eq_true h

theorem checkFields_of_ok {e : List Byte} {ok : Bool} (htag : eTag e ≠ 0xFFFF) (h : ok = true) : checkFields e ok = 0 := by
  unfold checkFields
  rw [tagOk_of_ne htag, h]
  rfl

theorem Chip.ticketStatus_of_live {c : Chip} {fn : Nat} {n : Nat} {k : Ticket} (hopen : c.closed = false) (hk : c.fnTicket fn n = some k)
    (hlive : k.closing = false) : c.ticketStatus fn n = 0 := by
  unfold Chip.ticketStatus
  rw [hopen, hk]
  dsimp only
  rw [hlive]
  rfl

theorem Chip.checkTicket_of_live {c : Chip} {fn : Nat} {e : List Byte} {k : Ticket} {ok : Bool} (hopen : c.closed = false)
    (htag : eTag e ≠ 0xFFFF) (h : ok = true) (hk : c.fnTicket fn (eTicket e) = some k) (hlive : k.closing = false) : c.checkTicket fn e ok = 0 := by
  unfold Chip.checkTicket
  rw [tagOk_of_ne htag, h]
  exact Chip.ticketStatus_of_live hopen hk hlive

/-- The queue of an entry that is next runs, and its function may write to the host. -/
theorem Chip.runs_of_next {c : Chip} {fn q op : Nat} {e : List Byte} (h : Safety.Next c fn q op e) :
    (c.queue (globalQueue fn q)).state = .running ∧ (c.pcie.fn (queueFn (globalQueue fn q))).bme = true ∧
    (c.pcie.fn fn).bme = true := by
  obtain ⟨hq, htakes, -, -⟩ := h
  obtain ⟨hrunning, hmaster⟩ := Chip.takes_facts htakes
  exact ⟨hrunning, hmaster, queueFn_globalQueue hq ▸ hmaster⟩

/-- An entry accepted with the one record that answers it. -/
theorem Chip.answer_one_spec (c : Chip) (g tag st tk n : Nat) (hb : (c.pcie.fn (queueFn g)).bme = true) (hr : (c.queue g).state = .running) :
    Safety.Answered c ((c.accept g 1).answer g tag st tk n) g ∧
    ((c.accept g 1).answer g tag st tk n).hostTx = c.hostTx ++ [Safety.answerWrite c g tag st tk n] ∧
    (c.accept g 1).answer g tag st tk n = { c with
      queues := ((c.accept g 1).answer g tag st tk n).queues, hostTx := ((c.accept g 1).answer g tag st tk n).hostTx
      pcie := ((c.accept g 1).answer g tag st tk n).pcie, evc := ((c.accept g 1).answer g tag st tk n).evc } := by
  obtain ⟨⟨hhead, hacc, htail, hcount, hres, hrun, hother⟩, hrec, -⟩ := c.answer_spec g 1 tag st tk n (Nat.le_refl 1) hb hr
  generalize hd : (c.accept g 1).answer g tag st tk n = d at *
  have hspare : (d.unreserve g (1 - 1)).queue g = d.queue g := d.queue_updQueue_same g _
  rw [hspare] at hhead hacc htail hcount hres hrun
  refine ⟨⟨hhead, hacc, htail, hcount, hres, hrun, fun k hk => (d.queue_updQueue_other _ hk).symm.trans (hother k hk)⟩, hrec, ?_⟩
  have hwrite : d = ((c.accept g 1).updQueue g (fun q => { q with reserved := q.reserved - 1 })).cqPut g (answerRec tag st tk n) :=
    hd.symm.trans (if_pos hb)
  rw [hwrite]
  rfl

theorem Chip.refuseEntry_spec {c : Chip} {g : Nat} (need : Nat) (e : List Byte) (st : Nat) (hneed : 1 ≤ need) (hb : (c.pcie.fn (queueFn g)).bme = true)
    (hr : (c.queue g).state = .running) : Safety.Answered c (c.refuseEntry g need e st) g ∧
      (c.refuseEntry g need e st).hostTx = c.hostTx ++ [Safety.answerWrite c g (eTag e) st (eTicket e) 0] ∧
      c.refuseEntry g need e st = { c with
        queues := (c.refuseEntry g need e st).queues, hostTx := (c.refuseEntry g need e st).hostTx
        pcie := (c.refuseEntry g need e st).pcie, evc := (c.refuseEntry g need e st).evc } :=
  c.answer_spec g need (eTag e) st (eTicket e) 0 hneed hb hr

/-! ### NOP and ALLOC -/

/-- The chip after an ALLOC met at once, its handles written. -/
def Chip.granted (c : Chip) (fn : Nat) (e : List Byte) (k : Ticket) : Chip :=
  let d := { c with hank := c.hank.alloc k.id (hostTag fn) (eCount e) }
  d.hostWrite (eAddr e) ((c.hank.next (eCount e)).flatMap (fun h => leBytes 4 (d.hank.handle fn h)))

theorem allocEntry_of_met {fn g : Nat} {e : List Byte} {c : Chip × Mem} {k : Ticket} (hk : c.1.fnTicket fn (eTicket e) = some k)
    (hmet : c.1.grantable k (eCount e) = true) :
    allocEntry fn e g c = (((c.1.granted fn e k).accept g 1).answer g (eTag e) 0 k.id (eCount e), c.2) := by
  unfold allocEntry
  rw [hk]
  exact if_pos hmet

theorem allocEntry_of_unmet {fn g : Nat} {e : List Byte} {c : Chip × Mem} {k : Ticket} (hk : c.1.fnTicket fn (eTicket e) = some k)
    (hmet : c.1.grantable k (eCount e) = false) : allocEntry fn e g c = (c.1.refuseEntry g 1 e 4, c.2) := by
  unfold allocEntry
  rw [hk]
  exact if_neg (by simp [hmet])

/-- Settles O30: a NOP is answered; an ALLOC takes its hanks or none. -/
theorem nopAndAllocAreAnswered : Obligations.NopAndAllocAreAnswered := by
  unfold Obligations.NopAndAllocAreAnswered
  refine ⟨fun s fn q e hnext htag hzero => ?nop, fun s fn q e k hnext htag hzero hcount hk hlive => ?alloc⟩
  case nop =>
    obtain ⟨hrunning, hmaster, -⟩ := Chip.runs_of_next hnext
    obtain ⟨-, -, hop, -⟩ := id hnext
    obtain ⟨hans, hrec, hframe⟩ := s.chip.answer_one_spec (globalQueue fn q) (eTag e) 0 0 0 hmaster hrunning
    refine ⟨_, exec_nop, ?_⟩
    rw [nop, if_neg (by omega), submit_of_next (c := (s.chip, s.mem)) hnext (checkFields_of_ok htag hzero)]
    exact ⟨congrArg (fun d => { s with chip := d }) hframe, hans, hrec⟩
  case alloc =>
    intro g
    obtain ⟨hrunning, hmaster, -⟩ := Chip.runs_of_next hnext
    obtain ⟨-, -, -, hopen⟩ := id hnext
    have hok : (unusedZero e [(4, 4), (8, 8), (20, 2)] && within 1 64 (eCount e)) = true := by
      rw [hzero, Bool.true_and]
      exact decide_eq_true hcount
    refine ⟨_, exec_alloc, ?_⟩
    rw [alloc, submit_of_next (c := (s.chip, s.mem)) hnext (Chip.checkTicket_of_live hopen htag hok hk hlive)]
    cases hmet : s.chip.grantable k (eCount e) with
    | true =>
      obtain ⟨hans, hrec, hframe⟩ := (s.chip.granted fn e k).answer_one_spec g (eTag e) 0 k.id (eCount e) hmaster hrunning
      rw [allocEntry_of_met (c := (s.chip, s.mem)) hk hmet]
      generalize ((s.chip.granted fn e k).accept g 1).answer g (eTag e) 0 k.id (eCount e) = d at hans hrec hframe ⊢
      have hhank : d.hank = s.chip.hank.alloc k.id (hostTag fn) (eCount e) := congrArg Chip.hank hframe
      refine ⟨hans, ?_, fun _ => ⟨fun h hh => ?_, fun h hh => ?_, ?_⟩, fun h => absurd h (by decide)⟩
      · rw [hframe]; rfl
      · show d.hank.entry h = _
        rw [hhank, Hank.entry_alloc, if_pos hh]
      · show d.hank.entry h = _
        rw [hhank, Hank.entry_alloc, if_neg hh]
      · show d.hostTx = _ ++ [{ addr := _, bytes := List.flatMap (fun h => leBytes 4 (d.hank.handle fn h)) _ }, _]
        rw [hrec, hhank]
        exact List.append_assoc _ _ _
    | false =>
      obtain ⟨hans, hrec, hframe⟩ := Chip.refuseEntry_spec (c := s.chip) 1 e 4 (Nat.le_refl 1) hmaster hrunning
      rw [allocEntry_of_unmet (c := (s.chip, s.mem)) hk hmet]
      generalize s.chip.refuseEntry (globalQueue fn q) 1 e 4 = d at hans hrec hframe ⊢
      refine ⟨hans, ?_, fun h => absurd h (by decide), fun _ => ⟨(congrArg Chip.hank hframe :), hrec⟩⟩
      rw [hframe]

end Sys2Proof.Machine
end

section
/-!
Host SIGNAL and WAIT (R243, R244, R279), family 14: what a signal does to markers, waits and queues.
-/
namespace Sys2Proof.Machine

/-- What answering a host wait leaves as it is: the markers, the waits, and how far each queue has been taken. -/
def Chip.posted (c : Chip) : Tbl Marker × List HostWait × (Nat → Nat × Ctr) :=
  (c.markers, c.waits, fun g => ((c.queue g).sqHead, (c.queue g).accepted))

theorem Chip.updQueue_posted (c : Chip) (g : Nat) (f : Queue → Queue) (hf : ∀ q, (f q).sqHead = q.sqHead ∧ (f q).accepted = q.accepted) :
    (c.updQueue g f).posted = c.posted := by
  refine congrArg (fun x => (c.markers, c.waits, x)) (funext fun k => ?_)
  by_cases hk : k = g
  · subst hk
    rw [Chip.queue_updQueue_same, (hf _).1, (hf _).2]
  · rw [Chip.queue_updQueue_other _ _ hk]

theorem Chip.cqPut_posted (c : Chip) (g : Nat) (r : CqRec) : (c.cqPut g r).posted = c.posted :=
  c.updQueue_posted g Queue.written fun _ => ⟨rfl, rfl⟩

theorem Chip.answer_posted (c : Chip) (g tag st ticket n : Nat) : (c.answer g tag st ticket n).posted = c.posted := by
  unfold Chip.answer Chip.cqWrite
  split
  next => exact (Chip.cqPut_posted _ _ _).trans (c.updQueue_posted g (fun q => { q with reserved := q.reserved - 1 }) fun _ => ⟨rfl, rfl⟩)
  next => rfl

theorem Chip.wakeWaits_posted (c : Chip) (m : Nat) : (c.wakeWaits m).posted =
    ({ c with waits := c.waits.filter (fun w => !(w.marker == m && decide (w.value ≤ (c.marker m).count))) } : Chip).posted := by
  unfold Chip.wakeWaits
  exact Chip.foldl_keeps Chip.posted _ (fun d (w : HostWait) => d.answer_posted w.q w.tag stOk w.ticket (c.marker m).count) _ _

theorem Chip.queue_accept_same (c : Chip) (g n : Nat) : (c.accept g n).queue g = (c.queue g).accept n := Chip.queue_set_same rfl

theorem Chip.queue_cqPut_same (c : Chip) (g : Nat) (r : CqRec) : (c.cqPut g r).queue g = (c.queue g).written := Chip.queue_set_same rfl

/-- The chip with a marker signalled, before the waits on it end. -/
def Chip.counted (c : Chip) (m n ctx : Nat) : Chip := { c with markers := Tbl.set c.markers m ((c.marker m).signal n ctx c.now) }

theorem Chip.marker_counted_same (c : Chip) (m n ctx : Nat) : (c.counted m n ctx).marker m = (c.marker m).signal n ctx c.now :=
  Tbl.get_set_same _ _ _ _

theorem Chip.marker_counted_other (c : Chip) {m j : Nat} (n ctx : Nat) (h : j ≠ m) : (c.counted m n ctx).marker j = c.marker j :=
  Tbl.get_set_other _ _ _ h

/-- A signal taken: the marker counts, its waits end, and what else changes is a record of an overflow and the messages to the members. -/
theorem Chip.signalMap_of_taken {c : Chip} {t : Ticket} {i m : Nat} (hm : t.markers[i]? = some m) (ht : (c.marker m).takesSignal t.id = true) (n ctx : Nat) :
    c.signalMap t i n ctx = { (c.counted m n ctx).wakeWaits m with
      log := (c.signalMap t i n ctx).log, evc := (c.signalMap t i n ctx).evc, rnd := (c.signalMap t i n ctx).rnd } := by
  unfold Chip.signalMap
  rw [hm]
  dsimp only
  unfold Chip.signal
  rw [if_pos ht]
  split <;> rfl

theorem Chip.signalMap_posted {c : Chip} {t : Ticket} {i m : Nat} (hm : t.markers[i]? = some m) (ht : (c.marker m).takesSignal t.id = true) (n ctx : Nat) :
    (c.signalMap t i n ctx).posted = (Tbl.set c.markers m ((c.marker m).signal n ctx c.now),
      c.waits.filter (fun w => !(w.marker == m && decide (w.value ≤ min 4294967295 ((c.marker m).count + n)))), c.posted.2.2) := by
  rw [Chip.signalMap_of_taken hm ht]
  refine ((c.counted m n ctx).wakeWaits_posted m).trans ?_
  rw [Chip.marker_counted_same]
  rfl

/-- With no wait on the marker a signal ends none. -/
theorem Chip.wakeWaits_of_none {c : Chip} {m : Nat} (h : ∀ w ∈ c.waits, w.marker ≠ m) : c.wakeWaits m = c := by
  have hmet : c.metWaits m = [] := List.filter_eq_nil_iff.mpr fun w hw => by simp [h w hw]
  have hleft : c.waits.filter (fun w => !(w.marker == m && decide (w.value ≤ (c.marker m).count))) = c.waits :=
    List.filter_eq_self.mpr fun w hw => by simp [h w hw]
  unfold Chip.wakeWaits
  rw [hmet, hleft]
  rfl

theorem signalEntry_of_mapped {fn g : Nat} {e : List Byte} {c : Chip × Mem} {k : Ticket} {m : Nat} (hk : c.1.fnTicket fn (eTicket e) = some k)
    (hm : k.markers[eMarker e]? = some m) : signalEntry fn e g c =
      progress k.id ((((c.1.accept g 1).signalMap k (eMarker e) (eValue e) (c.1.marker m).context).answer g (eTag e) 0 k.id 0), c.2) := by
  unfold signalEntry
  rw [hk]
  dsimp only
  rw [Ticket.entryMarker, hm]
  rfl

/-- A signal on whose marker nobody waits is answered as any entry is. -/
theorem Chip.signal_answered {c : Chip} {g i m n ctx tag : Nat} {k : Ticket} (hm : k.markers[i]? = some m) (ht : (c.marker m).takesSignal k.id = true)
    (hnone : ∀ w ∈ c.waits, w.marker ≠ m) (hb : (c.pcie.fn (queueFn g)).bme = true) (hr : (c.queue g).state = .running) :
    (((c.accept g 1).signalMap k i n ctx).answer g tag 0 k.id 0).hostTx = c.hostTx ++ [Safety.answerWrite c g tag 0 k.id 0] ∧
    Safety.Answered c (((c.accept g 1).signalMap k i n ctx).answer g tag 0 k.id 0) g := by
  have hframe := Chip.signalMap_of_taken (c := c.accept g 1) hm ht n ctx
  rw [Chip.wakeWaits_of_none (c := (c.accept g 1).counted m n ctx) hnone] at hframe
  generalize (c.accept g 1).signalMap k i n ctx = d at hframe ⊢
  obtain ⟨hans, hrec, -⟩ := Chip.answer_one_spec { c.counted m n ctx with log := d.log, evc := d.evc, rnd := d.rnd } g tag 0 k.id 0 hb hr
  rw [hframe]
  exact ⟨hrec, hans⟩

theorem waitEntry_of_mapped {fn g : Nat} {e : List Byte} {c : Chip × Mem} {k : Ticket} {m : Nat} (hk : c.1.fnTicket fn (eTicket e) = some k)
    (hm : k.markers[eMarker e]? = some m) : waitEntry fn e g c =
      if eValue e ≤ (c.1.marker m).count then ((c.1.accept g 1).answer g (eTag e) 0 k.id (c.1.marker m).count, c.2)
      else ({ c.1.accept g 1 with waits := c.1.waits ++ [{ q := g, tag := eTag e, ticket := k.id, marker := m, value := eValue e
                                                           deadline := c.1.now + 25 * eTimeout e }] }, c.2) := by
  unfold waitEntry
  rw [hk]
  dsimp only
  rw [Ticket.entryMarker, hm]
  rfl

/-- The chip at a wait's deadline, the wait gone and its reservation given back. -/
def Chip.waitEnded (c : Chip) (w : HostWait) : Chip :=
  { c with
    gauge := { c.gauge with time := w.deadline }, waits := c.waits.erase w
    queues := Tbl.upd {} c.queues w.q (fun q => { q with reserved := q.reserved - 1 }) }

theorem Chip.queue_waitEnded (c : Chip) (w : HostWait) :
    (c.waitEnded w).queue w.q = { c.queue w.q with reserved := (c.queue w.q).reserved - 1 } := Chip.queue_set_same rfl

theorem Chip.waitExpire_of_pending {c : Chip} {w : HostWait} (hw : c.waits.find? (fun x => x.q == w.q && x.tag == w.tag) = some w)
    (hb : (c.pcie.fn (queueFn w.q)).bme = true) (hlo : c.gauge.time ≤ w.deadline) (hhi : w.deadline < 2 ^ 64) :
    c.waitExpire w.q w.tag = (c.waitEnded w).cqPut w.q (answerRec w.tag 7 w.ticket (c.marker w.marker).count) := by
  unfold Chip.waitExpire
  rw [hw]
  dsimp only
  rw [Chip.advance, Gauge.advance_of_le hlo hhi]
  exact if_pos hb

/-- Settles O34: a signal counts and ends the waits that it meets; a wait is answered, waits, or times out. -/
theorem hostSignalsAndWaits : Obligations.HostSignalsAndWaits := by
  unfold Obligations.HostSignalsAndWaits
  refine ⟨fun s fn q e k m hnext htag hzero hvalue hk hlive hm htakes => ?signal,
    fun s fn q e k m hnext htag hzero htime hk hlive hm => ?wait, fun s w hw hmaster hlo hhi => ?timeout⟩
  case signal =>
    intro g n
    obtain ⟨hrunning, hmaster, -⟩ := Chip.runs_of_next hnext
    obtain ⟨-, -, -, hopen⟩ := id hnext
    have hok : (unusedZero e [(4, 4), (22, 2), (24, 4)] && within 1 65535 (eValue e)) = true := by
      rw [hzero, Bool.true_and]
      exact decide_eq_true hvalue
    have hpost := ((s.chip.accept g 1).signalMap k (eMarker e) (eValue e) (s.chip.marker m).context).answer_posted g (eTag e) 0 k.id 0
    rw [Chip.signalMap_posted (c := s.chip.accept g 1) hm htakes] at hpost
    have hanswered := Chip.signal_answered (c := s.chip) (g := g) (n := eValue e) (ctx := (s.chip.marker m).context) (tag := eTag e) hm htakes
    have hrun : exec (.signal fn q e) s = .next (Safety.upToDate k.id { s with
        chip := ((s.chip.accept g 1).signalMap k (eMarker e) (eValue e) (s.chip.marker m).context).answer g (eTag e) 0 k.id 0 }) := by
      rw [exec_signal, execSignal, signal, submit_of_next (c := (s.chip, s.mem)) hnext (Chip.checkTicket_of_live hopen htag hok hk hlive),
        signalEntry_of_mapped (c := (s.chip, s.mem)) hk hm]
      rfl
    generalize ((s.chip.accept g 1).signalMap k (eMarker e) (eValue e) (s.chip.marker m).context).answer g (eTag e) 0 k.id 0 = d
      at hpost hanswered hrun
    have hmarkers : d.markers = (s.chip.counted m (eValue e) (s.chip.marker m).context).markers := congrArg Prod.fst hpost
    have hwaits : d.waits = s.chip.waits.filter (fun w => !(w.marker == m && decide (w.value ≤ n))) := congrArg (fun x => x.2.1) hpost
    have hqueue : ((d.queue g).sqHead, (d.queue g).accepted) = (((s.chip.accept g 1).queue g).sqHead, ((s.chip.accept g 1).queue g).accepted) :=
      congrArg (fun x => x.2.2 g) hpost
    have haccept := s.chip.queue_accept_same g 1
    rw [haccept, Prod.mk.injEq] at hqueue
    have hmark : ∀ j, d.marker j = (s.chip.counted m (eValue e) (s.chip.marker m).context).marker j := fun j =>
      congrArg (fun l => Tbl.get _ l j) hmarkers
    refine ⟨_, hrun, rfl, ?_, ?_, fun j hj => (hmark j).trans (s.chip.marker_counted_other _ _ hj), fun w => ?_, hqueue.1, hqueue.2,
      fun hnone => hanswered hnone hmaster hrunning⟩
    · exact (congrArg Marker.count ((hmark m).trans (s.chip.marker_counted_same _ _ _)) :)
    · exact (congrArg Marker.context ((hmark m).trans (s.chip.marker_counted_same _ _ _)) :)
    · show w ∈ d.waits ↔ _
      rw [hwaits, List.mem_filter]
      simp [Decidable.imp_iff_not_or]
  case wait =>
    intro g
    obtain ⟨hrunning, hmaster, -⟩ := Chip.runs_of_next hnext
    obtain ⟨-, -, -, hopen⟩ := id hnext
    have hok : (unusedZero e [(4, 4), (22, 2), (24, 4), (28, 4)] && within 10 10000000 (eTimeout e)) = true := by
      rw [hzero, Bool.true_and]
      exact decide_eq_true htime
    refine ⟨_, exec_wait, ?_⟩
    rw [wait, submit_of_next (c := (s.chip, s.mem)) hnext (Chip.checkTicket_of_live hopen htag hok hk hlive), waitEntry_of_mapped (c := (s.chip, s.mem)) hk hm]
    dsimp only
    by_cases hmet : eValue e ≤ (s.chip.marker m).count
    · obtain ⟨hans, hrec, hframe⟩ := s.chip.answer_one_spec g (eTag e) 0 k.id (s.chip.marker m).count hmaster hrunning
      rw [if_pos hmet, if_pos hmet]
      generalize (s.chip.accept g 1).answer g (eTag e) 0 k.id (s.chip.marker m).count = d at hans hrec hframe
      refine ⟨by rw [hframe], hans.1, (congrArg Chip.waits hframe :), hrec, hans⟩
    · rw [if_neg hmet, if_neg hmet]
      have haccept := s.chip.queue_accept_same g 1
      exact ⟨rfl, (congrArg Queue.sqHead haccept :), rfl, rfl, (congrArg Queue.reserved haccept :), rfl⟩
  case timeout =>
    intro x
    refine ⟨_, exec_hostWaitTimeout, ?_⟩
    rw [Chip.waitExpire_of_pending hw hmaster hlo hhi]
    have hput := (s.chip.waitEnded w).queue_cqPut_same w.q (answerRec w.tag 7 w.ticket (s.chip.marker w.marker).count)
    rw [s.chip.queue_waitEnded w] at hput
    refine ⟨rfl, ?_, (congrArg Queue.reserved hput :), (congrArg Queue.cqTail hput :)⟩
    unfold Chip.cqPut
    dsimp only
    rw [s.chip.queue_waitEnded w]
    rfl

end Sys2Proof.Machine
end

section
/-!
FRAME entries (R163, R277, R280), family 14: how a part is taken, given as data or as handles, and when its unit arrives.
-/
namespace Sys2Proof.Machine

/-! ### A ticket changed -/

/-- The first ticket of a number, changed by what keeps numbers. -/
theorem List.find?_updTicket (l : List Ticket) (i : Nat) {f : Ticket → Ticket} (hf : ∀ t, (f t).id = t.id) :
    (l.map (fun t => if t.id = i then f t else t)).find? (fun t => t.id == i) = (l.find? (fun t => t.id == i)).map f := by
  induction l with
  | nil => rfl
  | cons t l ih =>
    rw [List.map_cons, List.find?_cons, List.find?_cons]
    by_cases ht : t.id = i
    · rw [if_pos ht, hf, beq_iff_eq.mpr ht]
      rfl
    · rw [if_neg ht, beq_eq_false_iff_ne.mpr ht]
      exact ih

theorem Chip.ticket?_of_fnTicket {c : Chip} {fn n : Nat} {k : Ticket} (h : c.fnTicket fn n = some k) : c.ticket? n = some k ∧ k.fn = fn := by
  unfold Chip.fnTicket at h
  split at h
  next => cases h
  next x hx =>
    split at h
    next hfn => exact ⟨hx.trans h, by cases h; exact hfn⟩
    next => cases h

/-- The ticket that an entry names, by its own number. -/
theorem Chip.ticket?_id_of_fnTicket {c : Chip} {fn n : Nat} {k : Ticket} (h : c.fnTicket fn n = some k) : c.ticket? k.id = some k := by
  obtain ⟨hk, -⟩ := Chip.ticket?_of_fnTicket h
  rw [Chip.id_of_ticket? hk]
  exact hk

/-! ### Arrival -/

theorem Chip.arriveUnit_of_noStream {c : Chip} {t : Ticket} (h : c.stream? t.pipeline = none) (ps : List UnitPart) (pts : Nat) (key : Bool) (p : PicInfo) :
    c.arriveUnit t ps pts key p = c := by
  unfold Chip.arriveUnit
  rw [h]

/-- What the filter makes of the stream's ticket. -/
def Ticket.arrived (t : Ticket) (sd : StreamDef) (now : Nat) (ps : List UnitPart) (pts : Nat) (key : Bool) (p : PicInfo) : Ticket :=
  match (if (t.kindStage .decode).isSome then t.filter now (partBytes ps) false p else none) with
  | some w => t.refuse sd.fgK now pts (partHanks ps) p w
  | none => t.accept sd now pts key ps p

theorem Chip.queue_giveBack_same (c : Chip) {t : Ticket} (h : t.srcRound = false) (n : Nat) :
    (c.giveBack t n).queue t.queue = { c.queue t.queue with reserved := (c.queue t.queue).reserved - n } := by
  unfold Chip.giveBack
  rw [h]
  exact Chip.queue_set_same rfl

theorem Chip.queue_giveBack_other (c : Chip) {t : Ticket} (h : t.srcRound = false) (n : Nat) {j : Nat} (hj : j ≠ t.queue) :
    (c.giveBack t n).queue j = c.queue j := by
  unfold Chip.giveBack
  rw [h]
  exact c.queue_updQueue_other (fun q => { q with reserved := q.reserved - n }) hj

/-- An arrival moves the ticket, its reservations and the decoder's last refusal, nothing else. -/
theorem Chip.arriveUnit_spec {c : Chip} {t : Ticket} (hround : t.srcRound = false) (ps : List UnitPart) (pts : Nat) (key : Bool) (p : PicInfo) :
    c.arriveUnit t ps pts key p = { c with
      queues := (c.arriveUnit t ps pts key p).queues, cast := (c.arriveUnit t ps pts key p).cast, vdec := (c.arriveUnit t ps pts key p).vdec } ∧
    (∃ r, (c.arriveUnit t ps pts key p).queue t.queue = { c.queue t.queue with reserved := r }) ∧
    (∀ j, j ≠ t.queue → (c.arriveUnit t ps pts key p).queue j = c.queue j) := by
  cases hsd : c.stream? t.pipeline with
  | none =>
    rw [Chip.arriveUnit_of_noStream hsd]
    exact ⟨rfl, ⟨_, rfl⟩, fun _ _ => rfl⟩
  | some sd =>
    unfold Chip.arriveUnit
    rw [hsd]
    dsimp only
    exact ⟨rfl, ⟨_, c.queue_giveBack_same hround _⟩, fun j hj => c.queue_giveBack_other hround _ hj⟩

theorem Chip.arriveUnit_cast {c : Chip} {t : Ticket} {sd : StreamDef} (hsd : c.stream? t.pipeline = some sd) (ht : c.ticket? t.id = some t)
    (ps : List UnitPart) (pts : Nat) (key : Bool) (p : PicInfo) : (c.arriveUnit t ps pts key p).cast.arrived = c.cast.arrived.inc ∧
      (c.arriveUnit t ps pts key p).ticket? t.id = some (t.arrived sd c.now ps pts key p) := by
  unfold Chip.arriveUnit
  rw [hsd]
  refine ⟨rfl, ?_⟩
  unfold Ticket.arrived
  cases (if (t.kindStage .decode).isSome then t.filter c.now (partBytes ps) false p else none) with
  | none => exact (List.find?_updTicket (f := fun x => x.accept sd c.now pts key ps p) _ _ (fun _ => rfl)).trans (congrArg (Option.map _) ht)
  | some w => exact (List.find?_updTicket (f := fun x => x.refuse sd.fgK c.now pts (partHanks ps) p w) _ _ (fun _ => rfl)).trans (congrArg (Option.map _) ht)

/-! ### A part taken -/

/-- An entry accepted with the records it reserves and answered. -/
theorem Chip.accept_answer_spec (c : Chip) (g need tag st tk n : Nat) (hneed : 1 ≤ need) (hb : (c.pcie.fn (queueFn g)).bme = true)
    (hr : (c.queue g).state = .running) : (((c.accept g need).answer g tag st tk n).queue g).sqHead = ((c.queue g).sqHead + 1) % (c.queue g).sqSize ∧
    (∀ j, j ≠ g → ((c.accept g need).answer g tag st tk n).queue j = c.queue j) ∧
    ((c.accept g need).answer g tag st tk n).hostTx = c.hostTx ++ [Safety.answerWrite c g tag st tk n] ∧
    (c.accept g need).answer g tag st tk n = { c with
      queues := ((c.accept g need).answer g tag st tk n).queues, hostTx := ((c.accept g need).answer g tag st tk n).hostTx
      pcie := ((c.accept g need).answer g tag st tk n).pcie, evc := ((c.accept g need).answer g tag st tk n).evc } := by
  obtain ⟨⟨hhead, -, -, -, -, -, hother⟩, hrec, -⟩ := c.answer_spec g need tag st tk n hneed hb hr
  have hwrite : (c.accept g need).answer g tag st tk n =
      ((c.accept g need).updQueue g (fun q => { q with reserved := q.reserved - 1 })).cqPut g (answerRec tag st tk n) := if_pos hb
  generalize (c.accept g need).answer g tag st tk n = d at *
  have hspare : (d.unreserve g (need - 1)).queue g = { d.queue g with reserved := (d.queue g).reserved - (need - 1) } := d.queue_updQueue_same g _
  rw [hspare] at hhead
  refine ⟨hhead, fun j hj => (d.queue_updQueue_other _ hj).symm.trans (hother j hj), hrec, ?_⟩
  rw [hwrite]
  rfl

theorem Chip.unitOf_of_queue {c d : Chip} {g : Nat} (h : d.queue g = c.queue g) (n : Nat) : d.unitOf g n = c.unitOf g n := by
  unfold Chip.unitOf
  rw [h]

/-- A part that does not end its unit is kept on the queue. -/
theorem takePart_of_open {g need : Nat} {e : List Byte} {t : Ticket} (hend : bit (eFlags e) 1 = false) (hs : List Nat) (pic : PicInfo) (c : Chip) (m : Mem) :
    takePart g need e t hs pic (c, m) = (((c.accept g need).answer g (eTag e) 0 t.id (eLen e)).updQueue g
      (fun q => { q with unit := some (t.id, c.unitOf g t.id ++ [{ hanks := hs, bytes := eLen e }]) }), m) := by
  unfold takePart
  exact if_neg (by simp [hend])

/-- The part that ends its unit hands it to the filter. -/
theorem takePart_of_end {g need : Nat} {e : List Byte} {t : Ticket} (hend : bit (eFlags e) 1 = true) (hs : List Nat) (pic : PicInfo) (c : Chip) (m : Mem) :
    takePart g need e t hs pic (c, m) = progress t.id ((((c.accept g need).answer g (eTag e) 0 t.id (eLen e)).updQueue g
      (fun q => { q with unit := none })).arriveUnit t (c.unitOf g t.id ++ [{ hanks := hs, bytes := eLen e }]) (ePts e) (bit (eFlags e) 0) pic, m) := by
  unfold takePart
  exact if_pos hend

/-- What a part taken leaves in the chip before the stream is brought up to date: its entry answered, its unit kept or arrived. -/
def Chip.PartTaken (c d : Chip) (g : Nat) (e : List Byte) (t : Ticket) (hs : List Nat) (pic : PicInfo) : Prop :=
  (∀ j, j ≠ g → d.queue j = c.queue j) ∧ (d.queue g).sqHead = ((c.queue g).sqHead + 1) % (c.queue g).sqSize ∧
  d.hostTx = c.hostTx ++ [Safety.answerWrite c g (eTag e) 0 t.id (eLen e)] ∧ d.hank = c.hank ∧
  (bit (eFlags e) 1 = false → (d.queue g).unit = some (t.id, c.unitOf g t.id ++ [{ hanks := hs, bytes := eLen e }]) ∧ d.cast = c.cast) ∧
  (bit (eFlags e) 1 = true → (d.queue g).unit = none ∧ ∀ sd, c.stream? t.pipeline = some sd → d.cast.arrived = c.cast.arrived.inc ∧
    d.ticket? t.id = some (t.arrived sd c.now (c.unitOf g t.id ++ [{ hanks := hs, bytes := eLen e }]) (ePts e) (bit (eFlags e) 0) pic))

theorem takePart_spec {g need : Nat} {e : List Byte} {t : Ticket} {c : Chip} (hneed : 1 ≤ need) (hb : (c.pcie.fn (queueFn g)).bme = true)
    (hr : (c.queue g).state = .running) (hq : t.queue = g) (hround : t.srcRound = false) (ht : c.ticket? t.id = some t) (hs : List Nat) (pic : PicInfo) :
    ∃ d, c.PartTaken d g e t hs pic ∧ (bit (eFlags e) 1 = false → ∀ m, takePart g need e t hs pic (c, m) = (d, m)) ∧
      (bit (eFlags e) 1 = true → ∀ m, takePart g need e t hs pic (c, m) = progress t.id (d, m)) := by
  obtain ⟨hhead, hother, hrec, hframe⟩ := c.accept_answer_spec g need (eTag e) 0 t.id (eLen e) hneed hb hr
  cases hend : bit (eFlags e) 1 with
  | false =>
    refine ⟨_, ?_, fun _ => takePart_of_open hend hs pic c, fun h => absurd h Bool.false_ne_true⟩
    generalize (c.accept g need).answer g (eTag e) 0 t.id (eLen e) = d at hhead hother hrec hframe
    have hsame : ∀ f, (d.updQueue g f).queue g = f (d.queue g) := d.queue_updQueue_same g
    refine ⟨fun j hj => (d.queue_updQueue_other _ hj).trans (hother j hj), (congrArg Queue.sqHead (hsame _)).trans hhead, hrec, (congrArg Chip.hank hframe :),
      fun _ => ⟨congrArg Queue.unit (hsame _), (congrArg Chip.cast hframe :)⟩, fun h => ?_⟩
    rw [hend] at h
    cases h
  | true =>
    refine ⟨_, ?_, fun h => absurd h.symm Bool.false_ne_true, fun _ => takePart_of_end hend hs pic c⟩
    unfold Chip.PartTaken
    generalize c.unitOf g t.id ++ [{ hanks := hs, bytes := eLen e }] = ps
    generalize (c.accept g need).answer g (eTag e) 0 t.id (eLen e) = d at hhead hother hrec hframe
    subst hq
    obtain ⟨hkeeps, ⟨r, hsame⟩, hrest⟩ := (d.updQueue t.queue (fun q => { q with unit := none })).arriveUnit_spec hround ps (ePts e) (bit (eFlags e) 0) pic
    rw [Chip.queue_updQueue_same] at hsame
    refine ⟨fun j hj => (hrest j hj).trans ((d.queue_updQueue_other _ hj).trans (hother j hj)), (congrArg Queue.sqHead hsame).trans hhead,
      (congrArg Chip.hostTx hkeeps).trans hrec, (congrArg Chip.hank hkeeps).trans (congrArg Chip.hank hframe :), fun h => ?_,
      fun _ => ⟨congrArg Queue.unit hsame, fun sd hsd => ?_⟩⟩
    · rw [hend] at h
      cases h
    · have hcast : d.cast = c.cast := (congrArg Chip.cast hframe :)
      have hnow : d.now = c.now := (congrArg Chip.now hframe :)
      have hdsd : d.stream? t.pipeline = some sd := (congrArg (fun x => Chip.stream? x t.pipeline) hframe).trans hsd
      have hdt : d.ticket? t.id = some t := (congrArg (fun x => Chip.ticket? x t.id) hframe).trans ht
      obtain ⟨harrived, hticket⟩ := Chip.arriveUnit_cast (c := d.updQueue t.queue (fun q => { q with unit := none })) hdsd hdt ps (ePts e) (bit (eFlags e) 0) pic
      exact ⟨harrived.trans (by rw [Chip.updQueue_cast, hcast]), hticket.trans (by rw [← hnow]; rfl)⟩

/-! ### Parts given as data -/

/-- Writes reach HBM and the shared cache, nothing else of the chip. -/
theorem Chip.wrote_eq (c : Chip) (rs : List Range) : ∃ h l, c.wrote rs = { c with hbm := h, pnl := l } := by
  unfold Chip.wrote
  induction rs generalizing c with
  | nil => exact ⟨c.hbm, c.pnl, rfl⟩
  | cons r rs ih =>
    obtain ⟨h, l, hrest⟩ := ih (c.hbmWrote r)
    refine ⟨h, l, ?_⟩
    rw [List.foldl_cons, hrest, Chip.hbmWrote_frame]

/-- The chip after a data part's hanks are taken and written. -/
def Chip.filled (c : Chip) (g : Nat) (e b : List Byte) (t : Ticket) : Chip :=
  Chip.wrote { c.resolve g e (.data b) with hank := c.hank.alloc t.id (ctxTag (t.kindContext .decode)) (ceilDiv (eLen e) 0x4000) }
    ((c.hank.next (ceilDiv (eLen e) 0x4000)).map (fun h => (hankAddr h, 0x4000)))

/-- The same chip, with what HBM and the shared cache came to be left open. -/
def Chip.withPart (c : Chip) (g : Nat) (e b : List Byte) (t : Ticket) (h : Hbm) (l : Pnl) : Chip :=
  { c.resolve g e (.data b) with
    hbm := h, pnl := l, hank := c.hank.alloc t.id (ctxTag (t.kindContext .decode)) (ceilDiv (eLen e) 0x4000) }

theorem Chip.filled_eq (c : Chip) (g : Nat) (e b : List Byte) (t : Ticket) : ∃ h l, c.filled g e b t = c.withPart g e b t h l :=
  Chip.wrote_eq { c.resolve g e (.data b) with hank := c.hank.alloc t.id (ctxTag (t.kindContext .decode)) (ceilDiv (eLen e) 0x4000) }
    ((c.hank.next (ceilDiv (eLen e) 0x4000)).map (fun h => (hankAddr h, 0x4000)))

theorem dataPart_of_unmet {g need : Nat} {e : List Byte} {t : Ticket} {c : Chip × Mem}
    (hroom : (partHanks (c.1.unitOf g t.id)).length + ceilDiv (eLen e) 0x4000 ≤ 4096) (h : c.1.grantable t (ceilDiv (eLen e) 0x4000) = false)
    (d : HostRead) (pic : PicInfo) :
    dataPart g need e t d pic c = ({ c.1 with hank := { c.1.hank with waitCtr := c.1.hank.waitCtr.inc } }, c.2) := by
  unfold dataPart
  dsimp only
  rw [if_neg (Nat.not_lt.mpr hroom), if_neg (by simp [h])]

theorem dataPart_of_met {g need : Nat} {e : List Byte} {t : Ticket} {c : Chip × Mem}
    (hroom : (partHanks (c.1.unitOf g t.id)).length + ceilDiv (eLen e) 0x4000 ≤ 4096) (h : c.1.grantable t (ceilDiv (eLen e) 0x4000) = true)
    (b : List Byte) (pic : PicInfo) : dataPart g need e t (.data b) pic c =
      takePart g need e t (c.1.hank.next (ceilDiv (eLen e) 0x4000)) pic
        (c.1.filled g e b t, hankWrite c.2 (c.1.hank.next (ceilDiv (eLen e) 0x4000)) 0 (b.take (eLen e))) := by
  unfold dataPart
  dsimp only
  rw [if_neg (Nat.not_lt.mpr hroom), if_pos h]
  rfl

/-- A FRAME entry that is next hands its part over, as data or as handles. -/
theorem frame_of_next {fn q : Nat} {e : List Byte} {k : Ticket} {c : Chip × Mem} (h : Safety.NextFrame c.1 fn q e k) (d : HostRead) (pic : PicInfo) :
    frame fn q e d pic c = if bit (eFlags e) 2 then dataPart (globalQueue fn q) (c.1.needOf fn e) e k d pic c
      else handlePart (globalQueue fn q) (c.1.needOf fn e) e k d pic c := by
  obtain ⟨hnext, htag, hfields, hk, hlive, hq, hround, hintrude, hfew⟩ := h
  obtain ⟨-, -, hbme⟩ := Chip.runs_of_next hnext
  obtain ⟨-, -, -, hopen⟩ := id hnext
  unfold frame
  rw [accessOff_bme hbme, submit_of_next hnext (Chip.checkTicket_of_live hopen htag hfields hk hlive)]
  unfold frameEntry
  rw [hk]
  dsimp only
  rw [if_neg (by simp [hq, hround]), if_neg (by rw [hintrude]; simp [Nat.not_le.mpr hfew])]

/-! ### Parts given as handles -/

theorem List.eraseDups_of_nodup {l : List Nat} (h : l.Nodup) : l.eraseDups = l := by
  induction l with
  | nil => rfl
  | cons a l ih =>
    obtain ⟨ha, hl⟩ := List.nodup_cons.mp h
    have hkeep : l.filter (fun b => !b == a) = l := List.filter_eq_self.mpr fun b hb => by
      simp only [Bool.not_eq_true', beq_eq_false_iff_ne]
      exact fun hba => ha (hba ▸ hb)
    rw [List.eraseDups_cons, hkeep, ih hl]

theorem Chip.tagOfTicket_of_context {c : Chip} {k : Ticket} {x : Nat} (hk : c.ticket? k.id = some k) (hx : k.contexts.contains x = true) (hlt : x < 0x4000) :
    c.tagOfTicket k.id (ctxTag x) = true := by
  have hctx : tagContext (ctxTag x) = some x := if_pos ⟨Nat.le_add_left 1 x, hlt⟩
  unfold Chip.tagOfTicket
  rw [hk]
  dsimp only
  rw [hctx]
  exact Bool.or_eq_true_iff.mpr (.inr hx)

/-- Hanks PASSed one after another by their holder, each to a tag of its ticket. -/
theorem Chip.passAll_spec {caller tag : Nat} {l : List Nat} {c : Chip} (hl : l.Nodup) (hok : ∀ h ∈ l, c.handsOver h caller tag = true) :
    ∃ k, l.foldl (fun y h => y.hankPass h caller tag) c = { c with hank := k } ∧ (∀ h ∈ l, k.entry h = { c.hank.entry h with owner := tag }) ∧
      ∀ h, h ∉ l → k.entry h = c.hank.entry h := by
  induction l generalizing c with
  | nil => exact ⟨c.hank, rfl, fun h hh => absurd hh List.not_mem_nil, fun _ _ => rfl⟩
  | cons a l ih =>
    obtain ⟨ha, hl'⟩ := List.nodup_cons.mp hl
    have hpass : c.hankPass a caller tag = { c with hank := c.hank.hand a tag { c.hank.entry a with owner := tag } } :=
      if_pos (hok a List.mem_cons_self)
    have hother : ∀ h, h ≠ a → (c.hank.hand a tag { c.hank.entry a with owner := tag }).entry h = c.hank.entry h := fun h hh =>
      Hank.entry_hand_other _ _ _ hh
    obtain ⟨k, hrun, hin, hout⟩ := ih (c := c.hankPass a caller tag) hl' fun h hh => by
      have hne : h ≠ a := fun hha => ha (hha ▸ hh)
      have hmine := hok h (List.mem_cons_of_mem _ hh)
      rw [hpass]
      unfold Chip.handsOver at hmine ⊢
      rw [hother h hne]
      exact hmine
    rw [hpass] at hrun hin hout
    refine ⟨k, by rw [List.foldl_cons, hpass, hrun], fun h hh => ?_, fun h hh => ?_⟩
    · obtain rfl | hh := List.mem_cons.mp hh
      · exact (hout h ha).trans (Hank.entry_hand_same _ _ _ _)
      · rw [hin h hh, hother h (fun hha => ha (hha ▸ hh))]
    · exact (hout h (List.not_mem_of_not_mem_cons hh)).trans (hother h (List.ne_of_not_mem_cons hh))

theorem partHanks_lists (l : List Nat) : (l.map some).filterMap id = l := by
  rw [List.filterMap_map]
  exact List.filterMap_some

/-- Handles of hanks that the host tag holds for the ticket are PASSed and the part is taken. -/
theorem handlePart_of_held {fn g need : Nat} {e b : List Byte} {t : Ticket} {c : Chip × Mem} {hs : List Nat} (hfn : queueFn g = fn)
    (hlist : c.1.handleHanks fn (eCount e) b = hs.map some) (hdup : hs.Nodup)
    (hheld : ∀ h ∈ hs, (c.1.hank.entry h).state = .held ∧ (c.1.hank.entry h).owner = hostTag fn ∧ (c.1.hank.entry h).ticket = t.id)
    (hroom : (partHanks (c.1.unitOf g t.id)).length + hs.length ≤ 4096) (hlen : eLen e ≤ 0x4000 * hs.length) (pic : PicInfo) :
    handlePart g need e t (.data b) pic c =
      takePart g need e t hs pic (hs.foldl (fun y h => y.hankPass h (hostTag fn) (ctxTag (t.kindContext .decode))) (c.1.resolve g e (.data b)), c.2) := by
  have hall : (c.1.resolve g e (.data b)).allHeld fn (hs.map some) = true := by
    unfold Chip.allHeld
    rw [List.all_map, List.all_eq_true]
    intro h hh
    obtain ⟨hstate, howner, -⟩ := hheld h hh
    exact Bool.and_eq_true_iff.mpr ⟨beq_iff_eq.mpr hstate, beq_iff_eq.mpr howner⟩
  have hmine : hs.any (fun h => ((c.1.resolve g e (.data b)).hank.entry h).ticket != t.id) = false := by
    rw [List.any_eq_false]
    intro h hh
    obtain ⟨-, -, hticket⟩ := hheld h hh
    rw [bne_iff_ne, ne_eq, Decidable.not_not]
    exact hticket
  have hl : (c.1.resolve g e (.data b)).handleHanks (queueFn g) (eCount e) b = hs.map some := hfn ▸ hlist
  unfold handlePart
  rw [if_neg (by simp [readStatus, stOk])]
  dsimp only [HostRead.bytes]
  rw [hl, partHanks_lists, hfn, hall, hmine, List.length_map, List.eraseDups_of_nodup hdup]
  exact if_neg (by
    simp only [Bool.not_true, Bool.false_or, Bool.or_false, Bool.or_eq_true, decide_eq_true_eq, not_or]
    exact ⟨⟨Nat.not_lt.mpr hroom, Nat.not_lt.mpr hlen⟩, Nat.lt_irrefl _⟩)

/-- A FRAME of more parts to come reserves the one record that answers it. -/
theorem Chip.needOf_of_open {c : Chip} {fn : Nat} {e : List Byte} (hop : eOp e = 1) (hend : bit (eFlags e) 1 = false) : c.needOf fn e = 1 := by
  unfold Chip.needOf
  rw [if_neg (c := _ ∧ _) (by simp [hend]), if_neg (c := eOp e = 2) (by omega)]
  exact ite_self 1

/-- A part kept on its queue is answered as any entry is. -/
theorem Chip.answered_of_kept {c : Chip} {g : Nat} (e : List Byte) (t : Ticket) (u : Option (Nat × List UnitPart))
    (hb : (c.pcie.fn (queueFn g)).bme = true) (hr : (c.queue g).state = .running) :
    Safety.Answered c (((c.accept g 1).answer g (eTag e) 0 t.id (eLen e)).updQueue g (fun q => { q with unit := u })) g := by
  obtain ⟨⟨hhead, hacc, htail, hcount, hres, hrun, hother⟩, -, -⟩ := c.answer_one_spec g (eTag e) 0 t.id (eLen e) hb hr
  generalize (c.accept g 1).answer g (eTag e) 0 t.id (eLen e) = d at *
  have hsame : (d.updQueue g (fun q => { q with unit := u })).queue g = { d.queue g with unit := u } := d.queue_updQueue_same g _
  unfold Safety.Answered
  rw [hsame]
  exact ⟨hhead, hacc, htail, hcount, hres, hrun, fun j hj => (d.queue_updQueue_other _ hj).trans (hother j hj)⟩

/-- The chip after an entry's list is read and the listed hanks change hands. -/
def Chip.withHanks (c : Chip) (g : Nat) (e b : List Byte) (m : Hank) : Chip := { c.resolve g e (.data b) with hank := m }

/-- The chip with a part kept and its entry answered. -/
def Chip.partKept (c : Chip) (g : Nat) (e : List Byte) (t : Ticket) (hs : List Nat) : Chip :=
  ((c.accept g 1).answer g (eTag e) 0 t.id (eLen e)).updQueue g
    (fun q => { q with unit := some (t.id, c.unitOf g t.id ++ [{ hanks := hs, bytes := eLen e }]) })

/-- Settles O32: a data part waits, is kept, or ends its unit; a part of handles is PASSed and kept. -/
theorem framesHandUnitsOver : Obligations.FramesHandUnitsOver := by
  unfold Obligations.FramesHandUnitsOver
  refine ⟨fun s fn q e b pic k hframe hdata => ?data, fun s fn q e b pic k hs hframe hdata hend hlist hdup hheld hctx hlt => ?handles⟩
  case data =>
    intro g n hs ps hroom
    obtain ⟨hnext, -, -, hk, -, hq, hround, -, -⟩ := id hframe
    obtain ⟨hrunning, hmaster, -⟩ := Chip.runs_of_next hnext
    have hentry := frame_of_next (c := (s.chip, s.mem)) hframe (.data b) pic
    rw [if_pos hdata] at hentry
    refine ⟨fun hunmet => ?_, fun hmet => ?_⟩
    · rw [exec_frame, execFrame, hentry, dataPart_of_unmet (c := (s.chip, s.mem)) hroom hunmet]
    · rw [dataPart_of_met (c := (s.chip, s.mem)) hroom hmet] at hentry
      obtain ⟨h, l, hfilled⟩ := s.chip.filled_eq g e b k
      rw [hfilled] at hentry
      obtain ⟨d, ⟨hother, hhead, hrec, hhank, hopen, harrived⟩, hkept, hended⟩ := takePart_spec (c := s.chip.withPart g e b k h l) (e := e)
        (s.chip.needOf_pos fn e) hmaster hrunning hq hround (Chip.ticket?_id_of_fnTicket hk) hs pic
      have hentries : ∀ x, d.hank.entry x = if x ∈ hs then { state := .held, owner := ctxTag (k.kindContext .decode), ticket := k.id, readers := [] }
          else s.chip.hank.entry x := fun x => (congrArg (fun m => Hank.entry m x) hhank).trans (Hank.entry_alloc _ _ _ _ _)
      refine ⟨{ s with chip := d, mem := hankWrite s.mem hs 0 (b.take (eLen e)) }, rfl, fun x hx => (hentries x).trans (if_pos hx),
        fun x hx => (hentries x).trans (if_neg hx), hother, hhead, hrec, fun hend => ⟨?_, hopen hend⟩, fun hend => ⟨?_, harrived hend⟩⟩
      · rw [exec_frame, execFrame, hentry, hkept hend]
      · rw [exec_frame, execFrame, hentry, hended hend]
        rfl
  case handles =>
    intro g hroom hlen
    obtain ⟨hnext, -, -, hk, -, -, -, -, -⟩ := id hframe
    obtain ⟨hrunning, hmaster, -⟩ := Chip.runs_of_next hnext
    obtain ⟨hqn, -, hop, -⟩ := id hnext
    have hentry := frame_of_next (c := (s.chip, s.mem)) hframe (.data b) pic
    rw [if_neg (by simp [hdata]), handlePart_of_held (c := (s.chip, s.mem)) (queueFn_globalQueue hqn) hlist hdup hheld hroom hlen,
      Chip.needOf_of_open hop hend] at hentry
    have hticket := Chip.ticket?_id_of_fnTicket hk
    obtain ⟨m, hpassed, hin, hout⟩ := Chip.passAll_spec (caller := hostTag fn) (tag := ctxTag (k.kindContext .decode)) (c := s.chip.resolve g e (.data b))
      hdup fun h hh => by
        obtain ⟨hstate, howner, hmine⟩ := hheld h hh
        exact (Chip.handsOver_iff _ _ _ _).mpr ⟨hstate, howner, hmine ▸ Chip.tagOfTicket_of_context hticket hctx hlt⟩
    change _ = s.chip.withHanks g e b m at hpassed
    have hrun : exec (.frame fn q e (.data b) pic) s = .next { s with chip := (s.chip.withHanks g e b m).partKept g e k hs } := by
      rw [exec_frame, execFrame, hentry, hpassed, takePart_of_open hend]
      rfl
    obtain ⟨-, hrec, hkeeps⟩ := (s.chip.withHanks g e b m).answer_one_spec g (eTag e) 0 k.id (eLen e) hmaster hrunning
    have hans := Chip.answered_of_kept (c := s.chip.withHanks g e b m) (g := g) e k
      (some (k.id, s.chip.unitOf g k.id ++ [{ hanks := hs, bytes := eLen e }])) hmaster hrunning
    have hhank : ((s.chip.withHanks g e b m).partKept g e k hs).hank = m := (congrArg Chip.hank hkeeps :)
    refine ⟨_, hrun, rfl, hans, congrArg Queue.unit (Chip.queue_updQueue_same _ g _), fun h hh => ?_, fun h hh => ?_, hrec⟩
    · obtain ⟨hstate, -, hmine⟩ := hheld h hh
      have hnew := (congrArg (fun x => Hank.entry x h) hhank).trans (hin h hh)
      exact ⟨(congrArg HankRec.owner hnew :), (congrArg HankRec.ticket hnew).trans hmine, (congrArg HankRec.state hnew).trans hstate⟩
    · exact (congrArg (fun x => Hank.entry x h) hhank).trans (hout h hh)

end Sys2Proof.Machine
end

section
/-!
Function resets (R273, R288, R289, R291), family 14: what ending and resetting a function leaves, one function or several.
-/
namespace Sys2Proof.Machine

/-! ### Tables without some keys -/

theorem Tbl.get_of_absent {α : Type} {d : α} {t : Tbl α} {k : Nat} (h : ∀ e ∈ t, e.1 ≠ k) : Tbl.get d t k = d := by
  refine Classical.byContradiction fun hne => ?_
  obtain ⟨e, he, hk⟩ := List.mem_map.mp (Tbl.mem_keys_of_get_ne hne)
  exact h e he hk

/-- A value that is not the default is listed with its key. -/
theorem Tbl.mem_of_get_ne {α : Type} {d : α} {t : Tbl α} {k : Nat} (h : Tbl.get d t k ≠ d) : (k, Tbl.get d t k) ∈ t := by
  induction t with
  | nil => exact absurd rfl h
  | cons e t ih =>
    obtain ⟨i, v⟩ := e
    rw [Tbl.get] at h ⊢
    by_cases hik : i = k
    · rw [if_pos hik, hik]
      exact List.mem_cons_self
    · rw [if_neg hik] at h ⊢
      by_cases hlt : k < i
      · exact absurd (if_pos hlt) h
      · rw [if_neg hlt] at h ⊢
        exact List.mem_cons_of_mem _ (ih h)

/-- A property that one step of a fold sets and every step keeps holds after the fold. -/
theorem List.foldl_reaches {α β : Type} {P : β → Prop} {f : β → α → β} (hkeep : ∀ d a, P d → P (f d a)) {a : α} (hset : ∀ d, P (f d a))
    {l : List α} (ha : a ∈ l) (c : β) : P (l.foldl f c) := by
  induction l generalizing c with
  | nil => exact absurd ha List.not_mem_nil
  | cons b l ih =>
    rw [List.foldl_cons]
    obtain rfl | ha := List.mem_cons.mp ha
    · exact List.foldlRecOn l f (hset c) fun d hd b _ => hkeep d b hd
    · exact ih ha _

/-! ### The hanks of a host tag -/

theorem Hank.entry_releaseAll (k : Hank) (hs : List Nat) (h : Nat) : (k.releaseAll hs).entry h =
    if h ∈ hs ∧ (k.entry h).charged = true then { state := .scrub, owner := 0xFFFF, ticket := 0, readers := [] } else k.entry h := by
  unfold Hank.releaseAll
  induction hs generalizing k with
  | nil => simp
  | cons a hs ih =>
    rw [List.foldl_cons, ih]
    by_cases hcharged : (k.entry a).charged = true
    · rw [if_pos hcharged]
      by_cases ha : h = a
      · subst ha
        rw [Hank.entry_release_same, if_neg (by simp [HankRec.charged]), if_pos ⟨List.mem_cons_self, hcharged⟩]
      · rw [Hank.entry_release_other _ ha]
        simp [ha]
    · rw [if_neg hcharged]
      by_cases ha : h = a
      · subst ha
        simp [hcharged]
      · simp [ha]

/-- No hank is charged to a host tag once those that it holds are released. -/
theorem Chip.no_hostHanks (c : Chip) (fn h : Nat) : ¬ (((c.hank.releaseAll (c.hostHanks fn)).entry h).charged = true ∧
    ((c.hank.releaseAll (c.hostHanks fn)).entry h).owner = hostTag fn) := by
  rw [Hank.entry_releaseAll]
  split
  next => exact fun hh => absurd hh.1 (by decide)
  next hout =>
    rintro ⟨hcharged, howner⟩
    refine hout ⟨?_, hcharged⟩
    have hne : c.hank.entry h ≠ {} := fun he => by
      rw [he] at hcharged
      exact absurd hcharged (by decide)
    exact List.mem_map.mpr ⟨_, List.mem_filter.mpr ⟨Tbl.mem_of_get_ne hne, Bool.and_eq_true_iff.mpr ⟨hcharged, beq_iff_eq.mpr howner⟩⟩, rfl⟩

/-! ### Requests taken in their turn -/

theorem Chip.gReserve_frame (c : Chip) (f : RFrame) : ∃ h r m, c.gReserve f = { c with cast := { c.cast with holds := h }, rnd := r, markers := m } := by
  unfold Chip.gReserve
  dsimp only
  split
  next => exact ⟨_, _, _, rfl⟩
  next =>
    split
    next =>
      split
      next => exact ⟨_, _, _, rfl⟩
      next => split <;> exact ⟨_, _, _, rfl⟩
    next => split <;> exact ⟨_, _, _, rfl⟩

theorem Chip.serve_frame (l kept : List Ask) (c : Chip) :
    ∃ o h r m, Chip.serve l kept c = { c with cast := { c.cast with order := o, holds := h }, rnd := r, markers := m } := by
  induction l generalizing kept c with
  | nil => exact ⟨kept, c.cast.holds, c.rnd, c.markers, rfl⟩
  | cons a l ih =>
    cases a with
    | bell k =>
      unfold Chip.serve
      split
      next => exact ⟨_, c.cast.holds, c.rnd, c.markers, rfl⟩
      next => exact ih _ c
    | peer f =>
      unfold Chip.serve
      obtain ⟨h, r, m, hf⟩ := c.gReserve_frame f
      obtain ⟨o, h', r', m', hl⟩ := ih kept (c.gReserve f)
      exact ⟨o, h', r', m', by rw [hl, hf]⟩

/-- Taking requests in their turn moves their order, the parts held, the Round and the markers taken, nothing else. -/
theorem Chip.nextAsk_frame (c : Chip) : ∃ o h r m, c.nextAsk = { c with cast := { c.cast with order := o, holds := h }, rnd := r, markers := m } :=
  Chip.serve_frame c.cast.order [] c

/-! ### One function -/

/-- The endpoint after a function's reset. -/
def Pcie.fnReset (p : Pcie) (fn : Nat) : Pcie :=
  if fn = 0 then { p.updFn fn (fun f => { enabled := f.enabled }) with numVfs := 0, vfEnable := false } else p.updFn fn (fun f => { enabled := f.enabled })

theorem Chip.resetFn_frame (c : Chip) (fn : Nat) : ∃ o h r m ev, c.resetFn fn = { c with
    hank := c.hank.releaseAll (c.hostHanks fn), queues := c.queues.filter (fun e => queueFn e.1 != fn)
    cast := { c.cast with fns := Tbl.del c.cast.fns fn, order := o, holds := h }, pcie := c.pcie.fnReset fn, evc := ev, rnd := r, markers := m } := by
  obtain ⟨o, h, r, m, hask⟩ := Chip.nextAsk_frame { c with
    hank := c.hank.releaseAll (c.hostHanks fn), queues := c.queues.filter (fun e => queueFn e.1 != fn)
    cast := { c.cast with fns := Tbl.del c.cast.fns fn }, pcie := c.pcie.fnReset fn
    evc := (c.evc.fnReset fn).redeliver (c.pcie.fnReset fn) c.now fn }
  exact ⟨o, h, r, m, _, hask⟩

theorem Pcie.fn_fnReset_same (p : Pcie) (fn : Nat) : (p.fnReset fn).fn fn = { enabled := (p.fn fn).enabled } := by
  unfold Pcie.fnReset
  split
  next => exact Tbl.get_set_same _ _ _ _
  next => exact Tbl.get_set_same _ _ _ _

theorem Pcie.tags_fnReset (p : Pcie) (fn : Nat) : (p.fnReset fn).tags = p.tags := by
  unfold Pcie.fnReset
  split <;> rfl

/-- No queue of a function is listed. -/
def Chip.noQueues (c : Chip) (fn : Nat) : Prop := ∀ e ∈ c.queues, queueFn e.1 ≠ fn

theorem Chip.queue_of_noQueues {c : Chip} {fn g : Nat} (h : c.noQueues fn) (hg : queueFn g = fn) : c.queue g = {} :=
  Tbl.get_of_absent fun e he hk => h e he (hk ▸ hg)

theorem Chip.noQueues_resetFn_same (c : Chip) (fn : Nat) : (c.resetFn fn).noQueues fn := by
  obtain ⟨o, h, r, m, ev, hreset⟩ := c.resetFn_frame fn
  rw [hreset]
  exact fun e he => bne_iff_ne.mp (List.mem_filter.mp he).2

theorem Chip.noQueues_resetFn {c : Chip} {fn : Nat} (k : Nat) (hno : c.noQueues fn) : (c.resetFn k).noQueues fn := by
  obtain ⟨o, h, r, m, ev, hreset⟩ := c.resetFn_frame k
  rw [hreset]
  exact fun e he => hno e (List.mem_filter.mp he).1

/-- What a function's reset leaves of its own (R288, step 5). -/
theorem Chip.resetFn_spec (c : Chip) (fn : Nat) : (c.resetFn fn).noQueues fn ∧ (c.resetFn fn).cast.fn fn = {} ∧
    (c.resetFn fn).pcie.fn fn = { enabled := (c.pcie.fn fn).enabled } ∧ (c.resetFn fn).waits = c.waits ∧ (c.resetFn fn).pcie.tags = c.pcie.tags ∧
    ∀ h, ¬ (((c.resetFn fn).hank.entry h).charged = true ∧ ((c.resetFn fn).hank.entry h).owner = hostTag fn) := by
  refine ⟨c.noQueues_resetFn_same fn, ?_⟩
  obtain ⟨o, h, r, m, ev, hreset⟩ := c.resetFn_frame fn
  rw [hreset]
  exact ⟨Tbl.get_del_same ({} : CastFn) c.cast.fns fn, c.pcie.fn_fnReset_same fn, rfl, c.pcie.tags_fnReset fn, c.no_hostHanks fn⟩

/-- What ending a function leaves of its own (R288, steps 2 to 4). -/
theorem endFunction_spec (c : Chip × Mem) (fn : Nat) : ((endFunction c fn).1.pcie.fn fn).held = [] ∧ (∀ w ∈ (endFunction c fn).1.waits, queueFn w.q ≠ fn) ∧
    (∀ e ∈ (endFunction c fn).1.pcie.tags, e.2.fn = fn → e.2.state.quarantined = true) := by
  refine ⟨(congrArg Fun.held (Tbl.get_set_same (funReset fn) _ fn _)).trans rfl, fun w hw => bne_iff_ne.mp (List.mem_filter.mp hw).2, fun e he hfn => ?_⟩
  obtain ⟨x, -, rfl⟩ := List.mem_map.mp he
  dsimp only at hfn ⊢
  split at hfn
  next h => rw [if_pos h]; rfl
  next h =>
    rw [if_neg h]
    simpa [hfn] using h

/-! ### Several functions -/

/-- A reset of some functions before the streams are brought up to date. -/
def resetDone (fns gone : List Nat) (f : Chip → Chip) (c : Chip × Mem) : Chip × Mem :=
  (f (gone.foldl Chip.removeFn (fns.foldl Chip.resetFn (fns.foldl endFunction c).1)), (fns.foldl endFunction c).2)

/-- The state after such a reset. -/
def fnsReset (fns gone : List Nat) (f : Chip → Chip) (s : State) : State :=
  { s with chip := (resetDone fns gone f (s.chip, s.mem)).1, mem := (resetDone fns gone f (s.chip, s.mem)).2 }

theorem resetDone_quiet {fns gone : List Nat} {f : Chip → Chip} (hf : ∀ d, Safety.quiet (f d) = Safety.quiet d) (c : Chip × Mem) :
    Safety.quiet (resetDone fns gone f c).1 = Safety.quiet c.1 :=
  (hf _).trans (foldl_quiet (fun _ _ => Chip.removeFn_quiet _ _) (foldl_quiet (fun _ _ => Chip.resetFn_quiet _ _) (foldlM_quiet (fun _ _ => endFunction_quiet _ _) rfl)))

theorem Chip.noQueues_removeFn {c : Chip} {fn : Nat} (k : Nat) (hno : c.noQueues fn) : (c.removeFn k).noQueues fn := hno

/-- No function that was reset keeps a queue. -/
theorem resetDone_noQueues {fns : List Nat} {k : Nat} (hk : k ∈ fns) (gone : List Nat) {f : Chip → Chip} (hf : ∀ d, (f d).queues = d.queues) (c : Chip × Mem) :
    (resetDone fns gone f c).1.noQueues k := by
  have hreset := List.foldl_reaches (P := fun d => Chip.noQueues d k) (fun _ j => Chip.noQueues_resetFn j) (fun d => d.noQueues_resetFn_same k) hk
    (fns.foldl endFunction c).1
  have hgone := List.foldlRecOn (motive := fun d => Chip.noQueues d k) gone Chip.removeFn hreset fun _ hd j _ => Chip.noQueues_removeFn j hd
  unfold Chip.noQueues resetDone
  rw [hf]
  exact hgone

theorem Chip.enabled_removeFn_same (c : Chip) {k : Nat} (hk : k ≠ 0) : ((c.removeFn k).pcie.fn k).enabled = false := by
  refine (congrArg Fun.enabled (Pcie.fn_updFn_same c.pcie k _)).trans ?_
  simp [hk]

theorem Chip.enabled_removeFn {c : Chip} {k : Nat} (j : Nat) (h : (c.pcie.fn k).enabled = false) : ((c.removeFn j).pcie.fn k).enabled = false := by
  by_cases hj : k = j
  · subst hj
    refine (congrArg Fun.enabled (Pcie.fn_updFn_same c.pcie k _)).trans ?_
    simp [h]
  · exact (congrArg Fun.enabled (Pcie.fn_updFn_other c.pcie _ hj)).trans h

theorem mem_vfList {k : Nat} : k ∈ vfList ↔ 1 ≤ k ∧ k ≤ 16 := by
  simp only [vfList, List.mem_map, List.mem_range]
  constructor
  · rintro ⟨a, ha, rfl⟩
    omega
  · exact fun h => ⟨k - 1, by omega, by omega⟩

/-- A VF that ceases to exist is not there. -/
theorem resetDone_gone {gone : List Nat} {k : Nat} (hk : k ∈ gone) (hvf : k ≠ 0) (fns : List Nat) {f : Chip → Chip} (hf : ∀ d, (f d).pcie.fns = d.pcie.fns)
    (c : Chip × Mem) : ((resetDone fns gone f c).1.pcie.fn k).enabled = false := by
  have hgone := List.foldl_reaches (P := fun d : Chip => (d.pcie.fn k).enabled = false) (fun _ j => Chip.enabled_removeFn j)
    (fun d => d.enabled_removeFn_same hvf) hk (fns.foldl Chip.resetFn (fns.foldl endFunction c).1)
  unfold resetDone Pcie.fn
  rw [hf]
  exact hgone

theorem Chip.resetFn_noVfs {c : Chip} (k : Nat) (h : c.pcie.numVfs = 0 ∧ c.pcie.vfEnable = false) :
    (c.resetFn k).pcie.numVfs = 0 ∧ (c.resetFn k).pcie.vfEnable = false := by
  obtain ⟨o, h', r, m, ev, hreset⟩ := c.resetFn_frame k
  rw [hreset]
  dsimp only
  unfold Pcie.fnReset
  split
  next => exact ⟨rfl, rfl⟩
  next => exact h

theorem Chip.resetFn_zero_noVfs (c : Chip) : (c.resetFn 0).pcie.numVfs = 0 ∧ (c.resetFn 0).pcie.vfEnable = false := by
  obtain ⟨o, h', r, m, ev, hreset⟩ := c.resetFn_frame 0
  rw [hreset]
  exact ⟨rfl, rfl⟩

/-- A reset of the PF leaves no VF enabled. -/
theorem resetDone_noVfs {fns : List Nat} (hk : 0 ∈ fns) (gone : List Nat) {f : Chip → Chip}
    (hf : ∀ d, (f d).pcie.numVfs = d.pcie.numVfs ∧ (f d).pcie.vfEnable = d.pcie.vfEnable) (c : Chip × Mem) :
    (resetDone fns gone f c).1.pcie.numVfs = 0 ∧ (resetDone fns gone f c).1.pcie.vfEnable = false := by
  have hreset := List.foldl_reaches (P := fun d : Chip => d.pcie.numVfs = 0 ∧ d.pcie.vfEnable = false) (fun _ j => Chip.resetFn_noVfs j)
    (fun d => d.resetFn_zero_noVfs) hk (fns.foldl endFunction c).1
  have hgone := List.foldlRecOn (motive := fun d : Chip => d.pcie.numVfs = 0 ∧ d.pcie.vfEnable = false) gone Chip.removeFn hreset fun _ hd _ _ => hd
  unfold resetDone
  exact ⟨(hf _).1.trans hgone.1, (hf _).2.trans hgone.2⟩

theorem Chip.mem_existing {c : Chip} {l : List Nat} {k : Nat} (hk : k ∈ l) (h : (c.pcie.fn k).enabled = true) : k ∈ c.existing l :=
  List.mem_filter.mpr ⟨hk, h⟩

/-- VFs enabled: they exist, and no other function changes. -/
theorem Pcie.fn_enableAll (l : List Nat) (p : Pcie) (k : Nat) :
    (l.foldl (fun (p : Pcie) f => p.updFn f (fun x => { x with enabled := true })) p).fn k = { p.fn k with enabled := decide (k ∈ l) || (p.fn k).enabled } := by
  induction l generalizing p with
  | nil => simp
  | cons a l ih =>
    rw [List.foldl_cons, ih]
    by_cases ha : k = a
    · subst ha
      rw [Pcie.fn_updFn_same]
      simp
    · rw [Pcie.fn_updFn_other _ _ ha]
      simp [ha]

theorem Chip.wake_pcie (c : Chip) (cause : Nat) : (c.wake cause).pcie = c.pcie ∧ (c.wake cause).queues = c.queues ∧ (c.wake cause).cast = c.cast := by
  unfold Chip.wake
  split
  next => exact ⟨rfl, rfl, rfl⟩
  next => exact ⟨rfl, rfl, rfl⟩

theorem Chip.wake_rung (c : Chip) (cause : Nat) : (c.wake cause).rung.rung ≠ .hush ∧ (c.wake cause).rung.rung ≠ .doze := by
  unfold Chip.wake
  split
  next => exact ⟨Rung.noConfusion, Rung.noConfusion⟩
  next h => exact not_or.mp h

theorem ne_zero_of_mem_vfList {k : Nat} (hk : k ∈ vfList) : k ≠ 0 := Nat.pos_iff_ne_zero.mp (mem_vfList.mp hk).1

/-- What the loss of the link, VF Enable cleared and a lower NumVFs do besides the resets. -/
def Chip.linkLost (c : Chip) : Chip := { c with pcie := c.pcie.linkDown }
def Chip.vfsOff (c : Chip) : Chip := { c with pcie := { c.pcie with vfEnable := false } }
def Chip.vfsLowered (n : Nat) (c : Chip) : Chip := { c with pcie := { c.pcie with numVfs := min n c.pcie.numVfs } }

theorem Chip.up_linkLost (c : Chip) : c.linkLost.pcie.up = false := rfl
theorem Chip.vfEnable_vfsOff (c : Chip) : c.vfsOff.pcie.vfEnable = false := rfl
theorem Chip.numVfs_vfsLowered (n : Nat) (c : Chip) : (c.vfsLowered n).pcie.numVfs ≤ n := Nat.min_le_left _ _

theorem Pcie.numVfs_enableAll (l : List Nat) (p : Pcie) :
    (l.foldl (fun (p : Pcie) f => p.updFn f (fun x => { x with enabled := true })) p).numVfs = p.numVfs :=
  List.foldlRecOn (motive := fun q => Pcie.numVfs q = p.numVfs) l _ rfl fun _ hq _ _ => hq

theorem endFunction_gauge (c : Chip × Mem) (fn : Nat) : (endFunction c fn).1.gauge = c.1.gauge ∧ (endFunction c fn).1.pat = c.1.pat := by
  have hquiet := endFunction_quiet c fn (rfl : Safety.quiet c.1 = _)
  exact ⟨Chip.gauge_of_calm (Chip.calm_of_quiet hquiet), Chip.pat_of_calm (Chip.calm_of_quiet hquiet)⟩

/-- D3hot of a function in D0: it ends, and the requests behind it are taken; where no function is in D0 then, the module dozes. -/
theorem d3hot_of_on {c : Chip × Mem} {fn : Nat} (hon : (c.1.pcie.fn fn).enabled = true) (hd0 : (c.1.pcie.fn fn).d3hot = false) :
    ∃ rung hbm evc o h r m, d3hot fn c = ({ (endFunction c fn).1 with
      pcie := (endFunction c fn).1.pcie.updFn fn (fun f => { f with d3hot := true }), rung := rung, hbm := hbm, evc := evc
      cast := { (endFunction c fn).1.cast with order := o, holds := h }, rnd := r, markers := m }, (endFunction c fn).2) := by
  have hcond : ((c.1.pcie.fn fn).enabled && !(c.1.pcie.fn fn).d3hot) = true := by rw [hon, hd0]; rfl
  rw [d3hot, if_pos hcond]
  obtain ⟨o, h, r, m, hask⟩ := Chip.nextAsk_frame { (endFunction c fn).1 with pcie := (endFunction c fn).1.pcie.updFn fn (fun f => { f with d3hot := true }) }
  dsimp only
  rw [hask]
  split
  next => exact ⟨_, _, _, o, h, r, m, rfl⟩
  next => exact ⟨_, _, _, o, h, r, m, rfl⟩

theorem exec_hotReset_done (s : State) (u : State) (hu : u = fnsReset (s.chip.existing (0 :: vfList)) vfList Chip.linkLost s) :
    exec .hotReset s = .next (Safety.allUpToDate (u.chip.cast.tickets.map (fun t => t.id)) u) := by
  have hrun : hotReset (s.chip, s.mem) = progressEach (resetDone (s.chip.existing (0 :: vfList)) vfList Chip.linkLost (s.chip, s.mem)) := rfl
  rw [exec_hotReset, execHotReset, hrun, hu]
  rfl

theorem exec_vfEnableClear_done (s : State) (u : State) (hu : u = fnsReset (s.chip.existing vfList) vfList Chip.vfsOff s) :
    exec .vfEnableClear s = .next (Safety.allUpToDate (u.chip.cast.tickets.map (fun t => t.id)) u) := by
  have hrun : vfClear (s.chip, s.mem) = progressEach (resetDone (s.chip.existing vfList) vfList Chip.vfsOff (s.chip, s.mem)) := rfl
  rw [exec_vfEnableClear, execVfEnableClear, hrun, hu]
  rfl

theorem exec_numvfsLower_done (s : State) (n : Nat) (gone : List Nat) (hgone : gone = vfList.filter (fun f => decide (n < f))) (u : State)
    (hu : u = fnsReset (s.chip.existing gone) gone (Chip.vfsLowered n) s) :
    exec (.numvfsLower n) s = .next (Safety.allUpToDate (u.chip.cast.tickets.map (fun t => t.id)) u) := by
  subst hgone
  have hrun : vfLower n (s.chip, s.mem) = progressEach (resetDone (s.chip.existing (vfList.filter (fun f => decide (n < f))))
    (vfList.filter (fun f => decide (n < f))) (Chip.vfsLowered n) (s.chip, s.mem)) := rfl
  rw [exec_numvfsLower, execNumvfsLower, hrun, hu]
  rfl

/-- Settles O36: each reset ends and then resets its functions; D3hot ends one, and D0 resets it. -/
theorem functionsAreReset : Obligations.FunctionsAreReset := by
  unfold Obligations.FunctionsAreReset
  refine ⟨fun s fn hfn hon => ?flr, fun s fn hfn hoff => ?absent, fun s => ?hot, fun s => ?cleared, fun s n => ?lowered, fun s n => ?raised,
    fun s fn hon hd0 => ?d3hot, fun s fn hd3 => ?d0⟩
  case flr =>
    have hlist : s.chip.existing [fn] = [fn] := by simp [Chip.existing, hon]
    have hrun : functionReset fn (s.chip, s.mem) = progressEach (resetDone [fn] [] id (s.chip, s.mem)) := by
      rw [functionReset, if_neg hfn]
      dsimp only
      rw [hlist]
      rfl
    refine ⟨fnsReset [fn] [] id s, ?_, resetDone_quiet (fun _ => rfl) _, ?_⟩
    · rw [exec_functionLevelReset, execFunctionLevelReset, hrun]
      rfl
    · obtain ⟨hno, hcast, hpcie, hwaits, htags, hhanks⟩ := (endFunction (s.chip, s.mem) fn).1.resetFn_spec fn
      obtain ⟨-, hend, hquar⟩ := endFunction_spec (s.chip, s.mem) fn
      refine ⟨fun g hg => Chip.queue_of_noQueues hno hg, hcast, ?_, fun w hw => hend w (hwaits ▸ hw), fun e he => hquar e (htags ▸ he), hhanks⟩
      show ((endFunction (s.chip, s.mem) fn).1.resetFn fn).pcie.fn fn = { enabled := (((endFunction (s.chip, s.mem) fn).1.resetFn fn).pcie.fn fn).enabled }
      rw [hpcie]
  case absent =>
    have hlist : s.chip.existing [fn] = [] := by simp [Chip.existing, hoff]
    rw [exec_functionLevelReset, execFunctionLevelReset, functionReset, if_neg hfn]
    dsimp only
    rw [hlist]
    rfl
  case hot =>
    obtain ⟨u, hu⟩ : ∃ u, u = fnsReset (s.chip.existing (0 :: vfList)) vfList Chip.linkLost s := ⟨_, rfl⟩
    have hdone : u.chip = (resetDone (s.chip.existing (0 :: vfList)) vfList Chip.linkLost (s.chip, s.mem)).1 := congrArg State.chip hu
    refine ⟨u, exec_hotReset_done s u hu, ?_, ?_, fun hon => ?_, fun k hk => ?_, fun k hon hk g hg => ?_⟩ <;> rw [hdone]
    · exact resetDone_quiet (f := Chip.linkLost) (fun _ => rfl) (s.chip, s.mem)
    · rw [resetDone]
      exact Chip.up_linkLost _
    · exact resetDone_noVfs (f := Chip.linkLost) (Chip.mem_existing List.mem_cons_self hon) _ (fun _ => ⟨rfl, rfl⟩) (s.chip, s.mem)
    · exact resetDone_gone (f := Chip.linkLost) hk (ne_zero_of_mem_vfList hk) _ (fun _ => rfl) (s.chip, s.mem)
    · have hmem : k ∈ 0 :: vfList := by
        rw [List.mem_cons, mem_vfList]
        omega
      exact Chip.queue_of_noQueues (resetDone_noQueues (f := Chip.linkLost) (Chip.mem_existing hmem hon) _ (fun _ => rfl) (s.chip, s.mem)) hg
  case cleared =>
    obtain ⟨u, hu⟩ : ∃ u, u = fnsReset (s.chip.existing vfList) vfList Chip.vfsOff s := ⟨_, rfl⟩
    have hdone : u.chip = (resetDone (s.chip.existing vfList) vfList Chip.vfsOff (s.chip, s.mem)).1 := congrArg State.chip hu
    refine ⟨u, exec_vfEnableClear_done s u hu, ?_, ?_, fun k hk => ?_⟩ <;> rw [hdone]
    · exact resetDone_quiet (f := Chip.vfsOff) (fun _ => rfl) (s.chip, s.mem)
    · rw [resetDone]
      exact Chip.vfEnable_vfsOff _
    · exact resetDone_gone (f := Chip.vfsOff) hk (ne_zero_of_mem_vfList hk) _ (fun _ => rfl) (s.chip, s.mem)
  case lowered =>
    obtain ⟨gone, hgone⟩ : ∃ gone, gone = vfList.filter (fun f => decide (n < f)) := ⟨_, rfl⟩
    obtain ⟨u, hu⟩ : ∃ u, u = fnsReset (s.chip.existing gone) gone (Chip.vfsLowered n) s := ⟨_, rfl⟩
    have hdone : u.chip = (resetDone (s.chip.existing gone) gone (Chip.vfsLowered n) (s.chip, s.mem)).1 := congrArg State.chip hu
    have hmem {k : Nat} (hk : k ∈ vfList) (hn : n < k) : k ∈ gone := hgone ▸ List.mem_filter.mpr ⟨hk, decide_eq_true hn⟩
    refine ⟨u, exec_numvfsLower_done s n gone hgone u hu, ?_, ?_, fun k hk hn => ⟨?_, fun hon g hg => ?_⟩⟩ <;> rw [hdone]
    · exact resetDone_quiet (f := Chip.vfsLowered n) (fun _ => rfl) (s.chip, s.mem)
    · rw [resetDone]
      exact Chip.numVfs_vfsLowered n _
    · exact resetDone_gone (f := Chip.vfsLowered n) (hmem hk hn) (ne_zero_of_mem_vfList hk) _ (fun _ => rfl) (s.chip, s.mem)
    · exact Chip.queue_of_noQueues (resetDone_noQueues (f := Chip.vfsLowered n) (Chip.mem_existing (hmem hk hn) hon) _ (fun _ => rfl) (s.chip, s.mem)) hg
  case raised =>
    refine ⟨_, exec_vfEnableSet, rfl, rfl, ?_, fun k hk => ?_, ?_⟩
    · show max (List.foldl _ s.chip.pcie _).numVfs _ = _
      rw [Pcie.numVfs_enableAll]
    · refine (Pcie.fn_enableAll _ s.chip.pcie k).trans ?_
      simp [hk]
    · refine (Pcie.fn_enableAll _ s.chip.pcie 0).trans ?_
      simp [mem_vfList]
  case d3hot =>
    obtain ⟨rung, hbm, evc, o, h, r, m, hrun⟩ := d3hot_of_on (c := (s.chip, s.mem)) hon hd0
    obtain ⟨hheld, hwaits, hquar⟩ := endFunction_spec (s.chip, s.mem) fn
    obtain ⟨hgauge, hpat⟩ := endFunction_gauge (s.chip, s.mem) fn
    rw [exec_d3hotEntry, execD3hotEntry, hrun]
    generalize endFunction (s.chip, s.mem) fn = e at hheld hwaits hquar hgauge hpat
    exact ⟨_, rfl, congrArg Fun.d3hot (Pcie.fn_updFn_same e.1.pcie fn _), (congrArg Fun.held (Pcie.fn_updFn_same e.1.pcie fn _)).trans hheld, hwaits, hquar,
      hgauge, hpat⟩
  case d0 =>
    have hrun : d0Return fn (s.chip, s.mem) = progressEach ((s.chip.resetFn fn).wake 0, s.mem) := if_pos hd3
    obtain ⟨hno, hcast, hpcie, -, -, -⟩ := s.chip.resetFn_spec fn
    obtain ⟨hwpcie, hwqueues, hwcast⟩ := (s.chip.resetFn fn).wake_pcie 0
    refine ⟨{ s with chip := (s.chip.resetFn fn).wake 0 }, ?_, ?_, fun g hg => ?_, ?_, ((s.chip.resetFn fn).wake_rung 0).1, ((s.chip.resetFn fn).wake_rung 0).2⟩
    · rw [exec_d0Return, execD0Return, hrun]
      rfl
    · rw [hwpcie, hpcie]
    · exact (congrArg (fun l => Tbl.get ({} : Queue) l g) hwqueues).trans (Chip.queue_of_noQueues hno hg)
    · rw [hwcast, hcast]

end Sys2Proof.Machine
end

section
/-!
The link, BAR2 and PME_Turn_Off (R269, R275, R290, R340), family 14.
-/
namespace Sys2Proof.Machine

/-! ### Bytes written in order -/

/-- After bytes written from `a` on, an address among them reads its byte, another as before. -/
theorem Mem.read_writes {m : Mem} (a : Nat) (b : List Byte) (h : m.wf = true) (x : Nat) :
    Mem.read (Mem.writes m a b) x = if x - a < b.length ∧ a ≤ x then b.getD (x - a) 0 else Mem.read m x := by
  induction b generalizing m a with
  | nil => simp [Mem.writes]
  | cons v b ih =>
    have hstep : Mem.writes m a (v :: b) = Mem.writes (Mem.write m a v) (a + 1) b := rfl
    rw [hstep, ih (a + 1) (Mem.write_wf a v h), List.length_cons]
    by_cases hx : x = a
    · subst hx
      rw [if_neg (by omega), if_pos ⟨by omega, Nat.le_refl _⟩, Mem.read_write_same x v h, Nat.sub_self, List.getD_cons_zero]
    · rw [Mem.read_write_other v hx h]
      by_cases hin : x - (a + 1) < b.length ∧ a + 1 ≤ x
      · have hsucc : x - a = (x - (a + 1)) + 1 := by omega
        rw [if_pos hin, if_pos ⟨by omega, by omega⟩, hsucc, List.getD_cons_succ]
      · rw [if_neg hin, if_neg (by omega)]

/-! ### BAR2 -/

/-- A read of HBM moves nothing but HBM, the log, the events, the Round and the pins. -/
theorem Chip.hbmFetch_frame (c : Chip) (r : Range) : ∃ h l e n p, c.hbmFetch r = { c with hbm := h, log := l, evc := e, rnd := n, pins := p } := by
  unfold Chip.hbmFetch
  split
  next => exact ⟨_, _, _, _, _, rfl⟩
  next => exact ⟨_, _, _, _, _, rfl⟩

/-- The hank a BAR2 access reaches is the held one that the handle names. -/
theorem Chip.barHank_of_held {c : Chip} {fn handle h : Nat} (hname : c.hank.ofHandle fn handle = some h) (hcharged : (c.hank.entry h).charged = true)
    (howner : (c.hank.entry h).owner = hostTag fn) : c.barHank fn handle = some h := by
  unfold Chip.barHank
  rw [hname]
  simp [hcharged, howner]

theorem Chip.barHank_of_not_held {c : Chip} {fn handle : Nat}
    (hno : ∀ h, c.hank.ofHandle fn handle = some h → ¬ ((c.hank.entry h).charged = true ∧ (c.hank.entry h).owner = hostTag fn)) : c.barHank fn handle = none := by
  unfold Chip.barHank
  split
  next => rfl
  next h hname =>
    have := hno h hname
    rw [if_neg]
    simpa using this

/-- An access of a function that is there touches the hank that its host tag holds, or is dropped. -/
theorem bar2_of_held {c : Chip × Mem} {fn handle h off : Nat} {op : Bar2Op} (hthere : c.1.reachableFn fn = true)
    (hheld : c.1.barHank fn handle = some h) (hoff : off < 0x4000) :
    bar2 fn handle off op c = barAccess (h * 0x4000 + off) (0x4000 - off) op (c.1.tlp, c.2) := by
  have hbar : c.1.tlp.barHank fn handle = some h := hheld
  rw [bar2, if_pos hthere]
  dsimp only
  rw [hbar, Nat.mod_eq_of_lt hoff]
  rfl

theorem bar2_of_dropped {c : Chip × Mem} {fn handle off : Nat} {op : Bar2Op} (hthere : c.1.reachableFn fn = true)
    (hno : c.1.barHank fn handle = none) : bar2 fn handle off op c = (c.1.tlp.barDropped fn handle op, c.2) := by
  have hbar : c.1.tlp.barHank fn handle = none := hno
  rw [bar2, if_pos hthere]
  dsimp only
  rw [hbar]

/-! ### PME_Turn_Off -/

theorem Rnd.slipPending_announceSlip (r : Rnd) (now : Nat) (h : (r.announceSlip now).slipped = false) : (r.announceSlip now).slipPending = true := by
  unfold Rnd.announceSlip at h ⊢
  split
  next hs =>
    rw [if_pos hs] at h
    exact absurd (hs.symm.trans h) Bool.noConfusion
  next => rfl

theorem pmeTurnOff_of_up {c : Chip × Mem} (hup : c.1.pcie.up = true) : (pmeTurnOff c).1.pcie.pmeAck = true ∧
    (c.1.maint = false → c.1.rst.trayReq = false → c.1.pat.mode ≠ .starting →
      (pmeTurnOff c).1.keep.vcore2 = c.1.gauge.vcore2 ∧ (pmeTurnOff c).1.keep.digest = c.1.pat.digest ∧
      ((pmeTurnOff c).1.rnd.slipped = false → (pmeTurnOff c).1.rnd.slipPending = true) ∧ (pmeTurnOff c).1.gauge = c.1.gauge ∧ (pmeTurnOff c).1.pat = c.1.pat) := by
  have hquiet : Safety.quiet (endTickets ({ c.1 with cast := { c.1.cast with closed := true } }, c.2)).1 = Safety.quiet c.1 := endTickets_quiet _ rfl
  have hgauge := Chip.gauge_of_calm (Chip.calm_of_quiet hquiet)
  have hpat := Chip.pat_of_calm (Chip.calm_of_quiet hquiet)
  unfold pmeTurnOff
  rw [if_neg (by simp [hup])]
  split
  next hbusy =>
    refine ⟨rfl, fun hm ht hs => ?_⟩
    simp [hm, ht, hs] at hbusy
  next =>
    generalize endTickets _ = d at hgauge hpat
    refine ⟨rfl, fun _ _ _ => ⟨?_, ?_, fun h => Rnd.slipPending_announceSlip _ _ h, hgauge, hpat⟩⟩
    · exact congrArg Gauge.vcore2 hgauge
    · exact congrArg Pat.digest hpat

/-- Settles O37: the guards of L1, the hank a BAR2 access reaches, and what PME_Turn_Off keeps of the tickets' end. -/
theorem linkAndBar2Accesses : Obligations.LinkAndBar2Accesses := by
  unfold Obligations.LinkAndBar2Accesses
  refine ⟨fun s hup hl0 htags hheld => ?idle, fun s hbusy => ?busy, fun s speed width hspeed hwidth => ?train,
    fun s fn handle h off b hinv hthere hname hcharged howner hfit hlen => ?write, fun s fn handle h off n hthere hname hcharged howner hfit hlen => ?read,
    fun s fn handle off n hthere hno => ?dropped, fun s hup => ?pme⟩
  case idle =>
    have hfns : s.chip.pcie.fns.all (fun e => e.2.held.isEmpty && e.2.heldResp.isEmpty) = true :=
      List.all_eq_true.mpr fun e he => by rw [(hheld e he).1, (hheld e he).2]; rfl
    rw [exec_l1Entry, execL1Entry, Chip.l1Entry, if_pos]
    rw [hup, hl0, htags, hfns]
    rfl
  case busy =>
    rw [exec_l1Entry, execL1Entry, Chip.l1Entry, if_neg]
    intro hcond
    simp only [Bool.and_eq_true, beq_iff_eq, List.all_eq_true] at hcond
    obtain ⟨⟨⟨hup, hl0⟩, htags⟩, -⟩ := hcond
    obtain h | h | ⟨e, he, h⟩ := hbusy
    · exact absurd (hup.symm.trans h) Bool.noConfusion
    · exact h hl0
    · have hq := htags e he
      rw [h] at hq
      exact absurd hq (by decide)
  case train =>
    rw [exec_pcieLinkUp, execPcieLinkUp, Chip.linkUp, Nat.mod_eq_of_lt hspeed, Nat.mod_eq_of_lt hwidth]
    split <;> rfl
  case write =>
    have hrun := bar2_of_held (c := (s.chip, s.mem)) (op := .write b) hthere (Chip.barHank_of_held hname hcharged howner) (show off < 0x4000 by omega)
    have htake : b.take (0x4000 - off) = b := List.take_of_length_le (by omega)
    rw [exec_bar2Access, execBar2Access, hrun, barAccess, htake]
    dsimp only
    rw [s.chip.tlp.hbmWrote_frame]
    exact ⟨_, rfl, rfl, fun a => Mem.read_writes _ b hinv a⟩
  case read =>
    have hrun := bar2_of_held (c := (s.chip, s.mem)) (op := .read n) hthere (Chip.barHank_of_held hname hcharged howner) (show off < 0x4000 by omega)
    obtain ⟨hbm, log, evc, rnd, pins, hfetch⟩ := s.chip.tlp.hbmFetch_frame (h * 0x4000 + off, n)
    rw [exec_bar2Access, execBar2Access, hrun, barAccess, Nat.min_eq_left (by omega), hfetch]
    exact ⟨_, rfl, rfl, rfl, rfl, rfl, rfl, rfl⟩
  case dropped =>
    rw [exec_bar2Access, execBar2Access, bar2_of_dropped (c := (s.chip, s.mem)) hthere (Chip.barHank_of_not_held hno)]
    exact ⟨_, rfl, rfl, rfl, rfl⟩
  case pme =>
    exact ⟨_, exec_pmeTurnOff, pmeTurnOff_of_up (c := (s.chip, s.mem)) hup⟩

end Sys2Proof.Machine
end

section
/-!
Requests of the CAST registers and their answers (R41, R42, R44), and the cast-on (R46, R51), family 14.
-/
namespace Sys2Proof.Machine

/-! ### A request read -/

/-- The read of a descriptor changes no function's own record. -/
theorem Pcie.resolve_fns (p : Pcie) (now fn : Nat) (w : ReadFor) (d : HostRead) : (p.resolve now fn w d).fns = p.fns := by
  cases d with
  | data b => rfl
  | failed => rfl
  | timedOut =>
    exact (apply_ite Pcie.fns _ _ _).trans (ite_self p.fns)

theorem Pcie.fn_of_fns {p q : Pcie} (h : p.fns = q.fns) (k : Nat) : p.fn k = q.fn k := congrArg (fun l => Tbl.get (funReset k) l k) h

/-- A request that can be read is of a function with Bus Master Enable set. -/
theorem Chip.bme_of_requested {c : Chip} {fn : Nat} (h : c.requested fn = true) : (c.pcie.fn fn).bme = true := by
  unfold Chip.requested Chip.bellReads at h
  simp only [Bool.and_eq_true] at h
  obtain ⟨⟨⟨-, hbme⟩, -⟩, -⟩ := h
  exact hbme

/-- The chip once a request's descriptor has been read: only the endpoint changes. -/
theorem Chip.castRead_data (c : Chip) (fn : Nat) (b : List Byte) : ∃ p, c.castRead fn (.data b) = { c with pcie := p } ∧ p.fns = c.pcie.fns :=
  ⟨_, rfl, Pcie.resolve_fns _ _ _ _ _⟩

/-- The chip once a request's descriptor could not be read: the request is dropped. -/
theorem Chip.castRead_failed {c : Chip} {fn : Nat} {d : HostRead} (h : d = .failed ∨ d = .timedOut) :
    c.castRead fn d = { c with pcie := c.pcie.resolve c.now fn (.castDescriptor fn) d, cast := c.cast.updFn fn (fun x => { x with busy := false }) } := by
  obtain rfl | rfl := h <;> rfl

theorem Cast.fn_updFn_same (k : Cast) (fn : Nat) (f : CastFn → CastFn) : (k.updFn fn f).fn fn = f (k.fn fn) := Tbl.get_upd_same _ _ _ _

theorem Chip.request_of_not {c : Chip} {fn : Nat} (h : c.requested fn = false) (d : HostRead) (f : Chip → Req → Chip) : c.request fn d f = c :=
  if_neg (by simp [h])

theorem requestM_of_not {c : Chip × Mem} {fn : Nat} (h : c.1.requested fn = false) (d : HostRead) (f : Req → Chip × Mem → Chip × Mem) :
    requestM fn d f c = c :=
  if_neg (by simp [h])

theorem Chip.request_data {c : Chip} {fn : Nat} (h : c.requested fn = true) (b : List Byte) (f : Chip → Req → Chip) :
    c.request fn (.data b) f = (f (c.castRead fn (.data b)) (Req.of b)).nextAsk := by
  rw [Chip.request, if_pos h]

theorem requestM_data {c : Chip × Mem} {fn : Nat} (h : c.1.requested fn = true) (b : List Byte) (f : Req → Chip × Mem → Chip × Mem) :
    requestM fn (.data b) f c = ((f (Req.of b) (c.1.castRead fn (.data b), c.2)).1.nextAsk, (f (Req.of b) (c.1.castRead fn (.data b), c.2)).2) := by
  rw [requestM, if_pos h]

theorem Chip.request_failed {c : Chip} {fn : Nat} (h : c.requested fn = true) {d : HostRead} (hd : d = .failed ∨ d = .timedOut) (f : Chip → Req → Chip) :
    c.request fn d f = (c.castRead fn d).nextAsk := by
  obtain rfl | rfl := hd <;> exact if_pos h

theorem requestM_failed {c : Chip × Mem} {fn : Nat} (h : c.1.requested fn = true) {d : HostRead} (hd : d = .failed ∨ d = .timedOut)
    (f : Req → Chip × Mem → Chip × Mem) : requestM fn d f c = ((c.1.castRead fn d).nextAsk, c.2) := by
  obtain rfl | rfl := hd <;> exact if_pos h

/-! ### A request answered -/

theorem castSource_not_reserved {fn : Nat} (h : fn ≤ 16) : reservedSource (castSource fn) = false := by
  unfold reservedSource castSource
  rw [Bool.or_eq_false_iff]
  exact ⟨Bool.and_eq_false_iff.mpr (.inl (decide_eq_false (by omega))), decide_eq_false (by omega)⟩

/-- A response of a function that is a bus master: the record goes to an aligned address, and the request is answered. -/
theorem Chip.respondAt_of_bme {c : Chip} {fn : Nat} (hbme : (c.pcie.fn fn).bme = true) (resp tag module decided : Nat) (v : Verdict) :
    ∃ p, p.fns = c.pcie.fns ∧ c.respondAt fn resp tag module decided v = Chip.answered { c with
      pcie := p, hostTx := c.hostTx ++ (if resp % 32 = 0 then [{ addr := resp, bytes := v.bytes tag decided module }] else []) } fn v.reason := by
  unfold Chip.respondAt
  split
  next => exact ⟨c.pcie.countWrite (v.bytes tag decided module).length, rfl, by rw [Chip.respWrite, if_pos hbme]; rfl⟩
  next => exact ⟨c.pcie, rfl, by rw [List.append_nil]⟩

/-- What an answer leaves: the record written, BUSY gone, CAST_LAST the reason, the event pending. -/
theorem Safety.castAnswered_of_respond {c d : Chip} {fn : Nat} (hbme : (d.pcie.fn fn).bme = true) (hfn : fn ≤ 16) (htx : d.hostTx = c.hostTx)
    (hgauge : d.gauge = c.gauge) (r : Req) (v : Verdict) : Safety.CastAnswered c (d.respond fn r.resp r.tag c.rnd.id v) fn r v := by
  obtain ⟨p, -, hresp⟩ := Chip.respondAt_of_bme hbme r.resp r.tag c.rnd.id d.nowLo v
  have hnow : d.nowLo = c.nowLo := congrArg (fun g : Gauge => low32 g.time) hgauge
  rw [Chip.respond, hresp]
  refine ⟨?_, ?_, Evc.edge_pending (castSource_not_reserved hfn) _ _ _, ?_⟩
  · exact congrArg CastFn.busy (Cast.fn_updFn_same d.cast fn _)
  · exact congrArg CastFn.last (Cast.fn_updFn_same d.cast fn _)
  · rw [← htx, ← hnow]
    rfl

/-- What an answer touches. -/
theorem Chip.respond_frame {c : Chip} {fn : Nat} (hbme : (c.pcie.fn fn).bme = true) (resp tag module : Nat) (v : Verdict) :
    ∃ p f x e, c.respond fn resp tag module v = { c with pcie := p, cast := { c.cast with fns := f }, hostTx := x, evc := e } := by
  obtain ⟨p, -, hresp⟩ := Chip.respondAt_of_bme hbme resp tag module c.nowLo v
  exact ⟨p, _, _, _, hresp⟩

/-- What a refusal touches. -/
theorem Chip.respondRefused_frame {c : Chip} {fn : Nat} (hbme : (c.pcie.fn fn).bme = true) (r : Req) (v : Verdict) :
    ∃ p f x e, c.respondRefused fn r v = { c with
      pcie := p, cast := { c.cast with fns := f, refused := if r.op = 2 then c.cast.refused else c.cast.refused.inc }, hostTx := x, evc := e } :=
  Chip.respond_frame (c := { c with cast := { c.cast with refused := if r.op = 2 then c.cast.refused else c.cast.refused.inc } }) hbme _ _ _ _

/-- A refusal of a request that was read is answered with its reason. -/
theorem Safety.castAnswered_of_refused {c : Chip} {fn : Nat} {p : Pcie} (hp : p.fns = c.pcie.fns) (hbme : (c.pcie.fn fn).bme = true) (hfn : fn ≤ 16) (r : Req)
    (v : Verdict) : Safety.CastAnswered c (Chip.respondRefused { c with pcie := p } fn r v) fn r { v with price := if r.op = 2 then 0 else r.price } :=
  Safety.castAnswered_of_respond (d := { c with pcie := p, cast := { c.cast with refused := if r.op = 2 then c.cast.refused else c.cast.refused.inc } })
    ((congrArg Fun.bme (Pcie.fn_of_fns hp fn)).trans hbme) hfn rfl rfl r _

/-! ### The lowest free numbers -/

theorem length_pickFree (taken : List Nat) (n k : Nat) : (pickFree taken n k).length = n := by
  induction n generalizing k with
  | zero => rfl
  | succ n ih => exact congrArg Nat.succ (ih _)

theorem le_lowestFree (l : List Nat) (n : Nat) : n ≤ lowestFree l n := by
  induction l generalizing n with
  | nil => exact Nat.le_refl n
  | cons k l ih =>
    rw [lowestFree]
    split
    next => exact Nat.le_of_succ_le (ih (n + 1))
    next => exact ih n

theorem lowestFree_of_lt {l : List Nat} {n : Nat} (h : ∀ x ∈ l, n < x) : lowestFree l n = n := by
  induction l with
  | nil => rfl
  | cons k l ih =>
    have hk := h k List.mem_cons_self
    rw [lowestFree, if_neg (by omega)]
    exact ih fun x hx => h x (List.mem_cons_of_mem _ hx)

/-- Of a rising list, the lowest free number is not in it. -/
theorem lowestFree_not_mem {l : List Nat} (h : l.Pairwise (· < ·)) (n : Nat) : lowestFree l n ∉ l := by
  induction l generalizing n with
  | nil => exact List.not_mem_nil
  | cons k l ih =>
    obtain ⟨hk, hl⟩ := List.pairwise_cons.mp h
    rw [lowestFree, List.mem_cons, not_or]
    split
    next hn =>
      have := le_lowestFree l (n + 1)
      exact ⟨by omega, ih hl (n + 1)⟩
    next hn =>
      refine ⟨?_, ih hl n⟩
      by_cases hlt : n < k
      · rw [lowestFree_of_lt fun x hx => Nat.lt_trans hlt (hk x hx)]
        exact hn ∘ Eq.symm
      · have := le_lowestFree l n
        omega

theorem not_mem_of_mem_pickFree {taken : List Nat} (h : taken.Pairwise (· < ·)) {n k x : Nat} (hx : x ∈ pickFree taken n k) : x ∉ taken := by
  induction n generalizing k with
  | zero => exact absurd hx List.not_mem_nil
  | succ n ih =>
    obtain rfl | hx := List.mem_cons.mp hx
    · exact lowestFree_not_mem h k
    · exact ih hx

theorem mem_insertSorted_iff {x y : Nat} {l : List Nat} : y ∈ insertSorted x l ↔ y = x ∨ y ∈ l := by
  induction l with
  | nil => simp [insertSorted]
  | cons a l ih =>
    rw [insertSorted]
    split
    next h => simp [h]
    next h =>
      split
      next => simp
      next => rw [List.mem_cons, ih, List.mem_cons, or_left_comm]

theorem insertSorted_rising {l : List Nat} (h : l.Pairwise (· < ·)) (x : Nat) : (insertSorted x l).Pairwise (· < ·) := by
  induction l with
  | nil => exact List.pairwise_singleton _ _
  | cons a l ih =>
    obtain ⟨ha, hl⟩ := List.pairwise_cons.mp h
    rw [insertSorted]
    split
    next => exact h
    next hne =>
      split
      next hlt =>
        refine List.pairwise_cons.mpr ⟨fun y hy => ?_, h⟩
        obtain rfl | hy := List.mem_cons.mp hy
        · exact hlt
        · exact Nat.lt_trans hlt (ha y hy)
      next hlt =>
        refine List.pairwise_cons.mpr ⟨fun y hy => ?_, ih hl⟩
        obtain rfl | hy := mem_insertSorted_iff.mp hy
        · omega
        · exact ha y hy

/-- Numbers sorted into a rising list: it rises, and holds them and no other. -/
theorem foldl_insertSorted (u l : List Nat) (h : l.Pairwise (· < ·)) :
    (u.foldl (fun l k => insertSorted k l) l).Pairwise (· < ·) ∧ ∀ x, x ∈ u.foldl (fun l k => insertSorted k l) l ↔ x ∈ u ∨ x ∈ l := by
  induction u generalizing l with
  | nil => exact ⟨h, fun x => by simp⟩
  | cons a u ih =>
    obtain ⟨hrise, hmem⟩ := ih (insertSorted a l) (insertSorted_rising h a)
    refine ⟨hrise, fun x => ?_⟩
    rw [List.foldl_cons, hmem, mem_insertSorted_iff, List.mem_cons, or_left_comm, or_assoc]

/-! ### A ticket issued -/

/-- The contexts of a new ticket are as many as its stages need, and none that is taken. -/
theorem Chip.makeTicket_contexts (c : Chip) (fn : Nat) (r : Req) (pipeline : Nat) (garment : Option Nat) (lead : Nat) (members : List Nat) (ps : List Placed) :
    (∀ x ∈ (c.makeTicket fn r pipeline garment lead members ps).contexts, x ∉ c.usedContexts) ∧
    (c.makeTicket fn r pipeline garment lead members ps).contexts.length = ctxNeed ps := by
  obtain ⟨hrise, hmem⟩ := foldl_insertSorted c.usedContexts [] List.Pairwise.nil
  exact ⟨fun x hx hused => not_mem_of_mem_pickFree hrise hx ((hmem x).mpr (Or.inl hused)), length_pickFree _ _ _⟩

theorem Chip.addAllowance_frame (c : Chip) (p : Placed) : ∃ l, c.addAllowance p = { c with pnl := l } := by
  unfold Chip.addAllowance
  split
  next => exact ⟨_, rfl⟩
  next => exact ⟨c.pnl, rfl⟩

theorem Chip.addAllowances_frame (l : List Placed) (c : Chip) : ∃ n, l.foldl Chip.addAllowance c = { c with pnl := n } := by
  induction l generalizing c with
  | nil => exact ⟨c.pnl, rfl⟩
  | cons p l ih =>
    obtain ⟨n, hn⟩ := c.addAllowance_frame p
    obtain ⟨n', hl⟩ := ih (c.addAllowance p)
    exact ⟨n', by rw [List.foldl_cons, hl, hn]⟩

/-- A ticket as it goes live with its number. -/
def Ticket.issued (k : Ticket) (id : Nat) (e : EncState) : Ticket := { k with id := id, enc := e, encDone := e }

/-- A ticket goes live: it is the last of the tickets, and its markers, its panels' regulators and the latency report are its own. -/
theorem Chip.openTicket_frame (c : Chip) (k : Ticket) (id : Nat) : ∃ e p n, p.fns = c.pcie.fns ∧ c.openTicket k id = { c with
    cast := { c.cast with tickets := c.cast.tickets ++ [k.issued id e] }, markers := (c.holdMarkers k id).markers, pcie := p, pnl := n } := by
  obtain ⟨n, hn⟩ := Chip.addAllowances_frame k.placed (c.holdMarkers k id)
  rw [Chip.openTicket, hn]
  refine ⟨_, _, n, ?_, rfl⟩
  rfl

/-- The markers of a ticket that goes live stand at count 0 for it. -/
theorem Chip.marker_holdMarkers (c : Chip) {k : Ticket} (id : Nat) {m : Nat} (hm : m ∈ k.markers) :
    (c.holdMarkers k id).marker m = { scope := if k.garment.isSome then 2 else 1, ticket := id } :=
  (Tbl.get_foldl_set _ k.markers _ c.markers m).trans (if_pos hm)

/-! ### The cast-on -/

theorem Chip.castOn_of_check {c : Chip} {fn : Nat} {r : Req} {v : Verdict} (h : c.firstChecks fn 1 r = some v) : c.castOn fn r = c.respondRefused fn r v := by
  rw [Chip.castOn, h]

theorem Chip.castOn_of_refused {c : Chip} {fn : Nat} {r : Req} {v : Verdict} (h : c.firstChecks fn 1 r = none) (hj : c.judge r r.pipeline [] = .inl v) :
    c.castOn fn r = c.respondRefused fn r v := by
  rw [Chip.castOn, h]
  dsimp only
  rw [hj]

/-- The ticket that an accepted cast-on becomes, before it has its number. -/
def Chip.castTicket (c : Chip) (fn : Nat) (r : Req) (ps : List Placed) : Ticket := c.makeTicket fn r r.pipeline none c.rnd.id [] ps

/-- The chip on which that ticket has gone live. -/
def Chip.castOpened (c : Chip) (fn : Nat) (r : Req) (ps : List Placed) : Chip :=
  Chip.openTicket { c with cast := { c.cast with lastTicket := nextTicket c.cast.lastTicket } } (c.castTicket fn r ps) (nextTicket c.cast.lastTicket)

/-- The verdict of that request. -/
def Chip.castVerdict (c : Chip) (fn : Nat) (r : Req) (ps : List Placed) : Verdict :=
  c.accepted ps (c.castTicket fn r ps).roundPath (nextTicket c.cast.lastTicket) r.price

theorem Chip.castOpened_frame (c : Chip) (fn : Nat) (r : Req) (ps : List Placed) : ∃ e p n, p.fns = c.pcie.fns ∧ c.castOpened fn r ps = { c with
    cast := { c.cast with
      lastTicket := nextTicket c.cast.lastTicket, tickets := c.cast.tickets ++ [(c.castTicket fn r ps).issued (nextTicket c.cast.lastTicket) e] }
    markers := (c.holdMarkers (c.castTicket fn r ps) (nextTicket c.cast.lastTicket)).markers, pcie := p, pnl := n } :=
  Chip.openTicket_frame { c with cast := { c.cast with lastTicket := nextTicket c.cast.lastTicket } } (c.castTicket fn r ps) (nextTicket c.cast.lastTicket)

/-- A request accepted: its ticket has the next number, and is answered with it. -/
theorem Chip.castOn_of_accepted {c : Chip} {fn : Nat} {r : Req} {ps : List Placed} (h : c.firstChecks fn 1 r = none) (hj : c.judge r r.pipeline [] = .inr ps) :
    c.castOn fn r = (c.castOpened fn r ps).respond fn r.resp r.tag c.rnd.id (c.castVerdict fn r ps) := by
  rw [Chip.castOn, h]
  dsimp only
  rw [hj]
  rfl

theorem Chip.firstChecks_of_bad {c : Chip} {fn op off : Nat} {r : Req} (h : r.firstBad fn op = some off) : c.firstChecks fn op r = some (refuse 0x0001 off) := by
  rw [Chip.firstChecks, h]

theorem Chip.firstChecks_of_closed {c : Chip} {fn op : Nat} {r : Req} (h : r.firstBad fn op = none) (hc : c.closed = true) :
    c.firstChecks fn op r = some (refuse 0x0002 0) := by
  rw [Chip.firstChecks, h]
  exact if_pos hc

theorem Chip.firstChecks_of_open {c : Chip} {fn op : Nat} {r : Req} (h : r.firstBad fn op = none) (hc : c.closed = false) : c.firstChecks fn op r = none := by
  rw [Chip.firstChecks, h]
  exact if_neg (by simp [hc])

/-- The operation of a request without a bad field is the one judged. -/
theorem Req.op_of_good {r : Req} {fn op : Nat} (h : r.firstBad fn op = none) : r.op = op := by
  refine Decidable.byContradiction fun hne => ?_
  have hbad : (0x02, r.op != op) ∈ r.faults fn op := by simp [Req.faults]
  rw [Req.firstBad, Option.map_eq_none_iff, List.find?_eq_none] at h
  exact h _ hbad (by simpa using hne)

/-- What a cast-on touches, whatever it comes to. -/
theorem Chip.castOn_frame {c : Chip} {fn : Nat} (hbme : (c.pcie.fn fn).bme = true) (r : Req) :
    ∃ p k m l x e, c.castOn fn r = { c with pcie := p, cast := k, markers := m, pnl := l, hostTx := x, evc := e } := by
  have hrefused (v : Verdict) : ∃ p k m l x e, c.respondRefused fn r v = { c with pcie := p, cast := k, markers := m, pnl := l, hostTx := x, evc := e } := by
    obtain ⟨p, f, x, e, hr⟩ := Chip.respondRefused_frame hbme r v
    exact ⟨p, _, c.markers, c.pnl, x, e, hr⟩
  cases hcheck : c.firstChecks fn 1 r with
  | some v => rw [Chip.castOn_of_check hcheck]; exact hrefused v
  | none =>
    cases hj : c.judge r r.pipeline [] with
    | inl v => rw [Chip.castOn_of_refused hcheck hj]; exact hrefused v
    | inr ps =>
      rw [Chip.castOn_of_accepted hcheck hj]
      obtain ⟨st, p, n, hp, hopen⟩ := c.castOpened_frame fn r ps
      have hbme' : ((c.castOpened fn r ps).pcie.fn fn).bme = true := by
        rw [hopen]
        exact (congrArg Fun.bme (Pcie.fn_of_fns hp fn)).trans hbme
      obtain ⟨p', f, x, e, hr⟩ := Chip.respond_frame hbme' r.resp r.tag c.rnd.id (c.castVerdict fn r ps)
      rw [hr, hopen]
      exact ⟨p', _, _, n, x, e, rfl⟩

/-- What an accepted cast-on leaves: the ticket live with the next number, contexts and markers of its own, and the request answered with it. -/
theorem Chip.castOn_accepted_spec {c : Chip} {fn : Nat} (hbme : (c.pcie.fn fn).bme = true) (hfn : fn ≤ 16) {r : Req} {ps : List Placed}
    (h : c.firstChecks fn 1 r = none) (hj : c.judge r r.pipeline [] = .inr ps) :
    ∃ e, (c.castOn fn r).cast.tickets = c.cast.tickets ++ [(c.castTicket fn r ps).issued (nextTicket c.cast.lastTicket) e] ∧
      (c.castOn fn r).cast.lastTicket = nextTicket c.cast.lastTicket ∧
      (∀ m ∈ (c.castTicket fn r ps).markers, (c.castOn fn r).marker m = { scope := 1, ticket := nextTicket c.cast.lastTicket }) ∧
      Safety.CastAnswered c (c.castOn fn r) fn r (c.castVerdict fn r ps) := by
  rw [Chip.castOn_of_accepted h hj]
  obtain ⟨st, p, n, hp, hopen⟩ := c.castOpened_frame fn r ps
  have hbme' : ((c.castOpened fn r ps).pcie.fn fn).bme = true := by
    rw [hopen]
    exact (congrArg Fun.bme (Pcie.fn_of_fns hp fn)).trans hbme
  have hanswer : Safety.CastAnswered c ((c.castOpened fn r ps).respond fn r.resp r.tag c.rnd.id (c.castVerdict fn r ps)) fn r (c.castVerdict fn r ps) :=
    Safety.castAnswered_of_respond hbme' hfn (by rw [hopen]) (by rw [hopen]) r _
  obtain ⟨p', f, x, e, hr⟩ := Chip.respond_frame hbme' r.resp r.tag c.rnd.id (c.castVerdict fn r ps)
  refine ⟨st, ?_, ?_, fun m hm => ?_, hanswer⟩ <;> rw [hr, hopen]
  exact Chip.marker_holdMarkers c _ hm

/-- The three commands of a request whose turn it is not do nothing. -/
theorem exec_request_of_not {s : State} {fn : Nat} (h : s.chip.requested fn = false) (d : HostRead) :
    ∀ c ∈ [Instr.castOn fn d, .garmentCastOn fn d, .bindOff fn d], exec c s = .next s := by
  simp only [List.forall_mem_cons, List.not_mem_nil, false_imp_iff, implies_true, and_true]
  refine ⟨?_, ?_, ?_⟩
  · rw [exec_castOn, execCastOn, Chip.request_of_not h]
  · exact congrArg (fun c => Host.Outcome.next { s with chip := c }) (Chip.request_of_not h d _)
  · rw [exec_bindOff, execBindOff, requestM_of_not (c := (s.chip, s.mem)) h]

/-- The three commands of a request whose descriptor could not be read. -/
theorem exec_request_failed {s : State} {fn : Nat} (h : s.chip.requested fn = true) {d : HostRead} (hd : d = .failed ∨ d = .timedOut) :
    ∀ c ∈ [Instr.castOn fn d, .garmentCastOn fn d, .bindOff fn d], exec c s = .next (Safety.decided { s with chip := s.chip.castRead fn d }) := by
  simp only [List.forall_mem_cons, List.not_mem_nil, false_imp_iff, implies_true, and_true]
  refine ⟨?_, ?_, ?_⟩
  · rw [exec_castOn, execCastOn, Chip.request_failed h hd]
    rfl
  · exact congrArg (fun c => Host.Outcome.next { s with chip := c }) (Chip.request_failed h hd _)
  · rw [exec_bindOff, execBindOff, requestM_failed (c := (s.chip, s.mem)) h hd]
    rfl

/-- What a refusal leaves of a request that was read. -/
theorem refusal_spec {c : Chip} {fn : Nat} {p : Pcie} (hp : p.fns = c.pcie.fns) (hbme : (p.fn fn).bme = true) (hfn : fn ≤ 16) (r : Req) (v : Verdict) :
    Safety.CastAnswered c (Chip.respondRefused { c with pcie := p } fn r v) fn r { v with price := if r.op = 2 then 0 else r.price } ∧
    (Chip.respondRefused { c with pcie := p } fn r v).cast.tickets = c.cast.tickets ∧ (Chip.respondRefused { c with pcie := p } fn r v).markers = c.markers ∧
    (Chip.respondRefused { c with pcie := p } fn r v).pnl = c.pnl ∧
    (Chip.respondRefused { c with pcie := p } fn r v).cast.refused = (if r.op = 2 then c.cast.refused else c.cast.refused.inc) ∧
    (Chip.respondRefused { c with pcie := p } fn r v).cast.lastTicket = c.cast.lastTicket := by
  refine ⟨Safety.castAnswered_of_refused hp ((congrArg Fun.bme (Pcie.fn_of_fns hp fn)).symm.trans hbme) hfn r v, ?_⟩
  obtain ⟨p', f, x, e, hr⟩ := Chip.respondRefused_frame (c := { c with pcie := p }) hbme r v
  rw [hr]
  exact ⟨rfl, rfl, rfl, rfl, rfl⟩

/-- Settles O45: the read of the descriptor, and the three ends of a cast-on. -/
theorem castOnIsDecided : Obligations.CastOnIsDecided := by
  unfold Obligations.CastOnIsDecided
  refine ⟨fun s fn d hno => exec_request_of_not hno d, fun s fn d hreq hd c hc => ?lost, fun s fn b hreq hfn => ?decided⟩
  case lost =>
    have hframe := Chip.castRead_failed (c := s.chip) (fn := fn) hd
    have hbusy : (s.chip.castRead fn d).cast.fn fn = { s.chip.cast.fn fn with busy := false } := by
      rw [hframe]
      exact Cast.fn_updFn_same s.chip.cast fn _
    refine ⟨{ s with chip := s.chip.castRead fn d }, exec_request_failed hreq hd c hc, ?_, (congrArg CastFn.busy hbusy).trans rfl, ?_, (congrArg CastFn.last hbusy).trans rfl⟩ <;>
      dsimp only <;> rw [hframe]
    rfl
  case decided =>
    intro r c
    obtain ⟨p, hread, hp⟩ := s.chip.castRead_data fn b
    have hc : c = { s.chip with pcie := p } := hread
    clear_value c
    subst hc
    have hbme : (p.fn fn).bme = true := (congrArg Fun.bme (Pcie.fn_of_fns hp fn)).trans (Chip.bme_of_requested hreq)
    have hrun : exec (.castOn fn (.data b)) s = .next (Safety.decided { s with chip := Chip.castOn { s.chip with pcie := p } fn r }) := by
      rw [exec_castOn, execCastOn, Chip.request_data hreq, hread]
      rfl
    obtain ⟨p', k, m, l, x, e, hframe⟩ := Chip.castOn_frame (c := { s.chip with pcie := p }) hbme r
    refine ⟨_, hrun, ?_, fun off hbad => ?_, fun hgood hclosed => ?_, fun hgood hopen v hj => ?_, fun hgood hopen ps hj => ?_⟩
    · dsimp only
      rw [hframe]
    · rw [Chip.castOn_of_check (Chip.firstChecks_of_bad (c := { s.chip with pcie := p }) hbad)]
      obtain ⟨hanswer, htickets, -⟩ := refusal_spec hp hbme hfn r (refuse 0x0001 off)
      exact ⟨hanswer, htickets⟩
    · have hop : r.op = 1 := Req.op_of_good hgood
      obtain ⟨hanswer, htickets, -⟩ := refusal_spec hp hbme hfn r (refuse 0x0002 0)
      rw [Chip.castOn_of_check (Chip.firstChecks_of_closed (c := { s.chip with pcie := p }) hgood hclosed)]
      rw [hop] at hanswer
      exact ⟨hanswer, htickets⟩
    · have hop : r.op = 1 := Req.op_of_good hgood
      obtain ⟨hanswer, hrest⟩ := refusal_spec hp hbme hfn r v
      rw [Chip.castOn_of_refused (Chip.firstChecks_of_open (c := { s.chip with pcie := p }) hgood hopen) hj]
      rw [hop] at hanswer hrest
      exact ⟨hanswer, hrest⟩
    · obtain ⟨st, htickets, hlast, hmarkers, hanswer⟩ := Chip.castOn_accepted_spec (c := { s.chip with pcie := p }) hbme hfn (Chip.firstChecks_of_open hgood hopen) hj
      obtain ⟨hfree, hlen⟩ := Chip.makeTicket_contexts { s.chip with pcie := p } fn r r.pipeline none s.chip.rnd.id [] ps
      refine ⟨_, _, htickets, rfl, hlast, rfl, rfl, rfl, rfl, rfl, rfl, rfl, rfl, rfl, hfree, hlen, length_pickFree _ _ _, fun m hm => ?_, rfl, rfl, rfl, hanswer⟩
      dsimp only
      rw [hmarkers m hm]
      exact ⟨rfl, rfl, rfl⟩

end Sys2Proof.Machine
end

section
/-!
What the end of a ticket leaves (R57, R241, R242), and the answer to a request (R42, R287).
-/
namespace Sys2Proof.Machine

/-! ### Answers -/

/-- What an answer to an entry touches. -/
theorem Chip.answer_frame (c : Chip) (g tag st ticket n : Nat) :
    ∃ q p x e, c.answer g tag st ticket n = { c with queues := q, pcie := p, hostTx := x, evc := e } := by
  unfold Chip.answer Chip.cqWrite
  split
  next => exact ⟨_, _, _, _, rfl⟩
  next => exact ⟨c.queues, _, c.hostTx, c.evc, rfl⟩

theorem Chip.answers_frame (f : HostWait → Nat) (l : List HostWait) (c : Chip) :
    ∃ q p x e, l.foldl (fun d w => d.answer w.q w.tag stClosed w.ticket (f w)) c = { c with queues := q, pcie := p, hostTx := x, evc := e } := by
  induction l generalizing c with
  | nil => exact ⟨c.queues, c.pcie, c.hostTx, c.evc, rfl⟩
  | cons w l ih =>
    obtain ⟨q, p, x, e, hw⟩ := c.answer_frame w.q w.tag stClosed w.ticket (f w)
    obtain ⟨q', p', x', e', hl⟩ := ih (c.answer w.q w.tag stClosed w.ticket (f w))
    exact ⟨q', p', x', e', by rw [List.foldl_cons, hl, hw]⟩

/-- Markers released: they and the waits on them go, each wait answered. -/
theorem Chip.releaseMarkers_frame (c : Chip) (ms : List Nat) : ∃ q p x e, c.releaseMarkers ms = { c with
    waits := c.waits.filter (fun w => !ms.contains w.marker), markers := ms.foldl (fun t m => Tbl.set t m {}) c.markers
    queues := q, pcie := p, hostTx := x, evc := e } :=
  Chip.answers_frame (fun w => (c.marker w.marker).count) _ _

theorem Chip.marker_releaseMarkers (c : Chip) (ms : List Nat) (m : Nat) : (c.releaseMarkers ms).marker m = if m ∈ ms then {} else c.marker m := by
  obtain ⟨q, p, x, e, h⟩ := c.releaseMarkers_frame ms
  rw [h]
  exact Tbl.get_foldl_set _ ms {} c.markers m

/-- What a response leaves, held or written (R42, R287). -/
theorem Safety.responded_of_respondAt (c : Chip) (fn resp tag module decided : Nat) (v : Verdict) :
    Safety.Responded (c.respondAt fn resp tag module decided v) fn resp v.reason (v.bytes tag decided module) := by
  have hanswered (d : Chip) : ((d.answered fn v.reason).cast.fn fn).busy = false ∧ ((d.answered fn v.reason).cast.fn fn).last = v.reason ∧
      (fn ≤ 16 → ((d.answered fn v.reason).evc.src (castSource fn)).pending = true) :=
    ⟨congrArg CastFn.busy (Cast.fn_updFn_same d.cast fn _), congrArg CastFn.last (Cast.fn_updFn_same d.cast fn _),
      fun hfn => Evc.edge_pending (castSource_not_reserved hfn) _ _ _⟩
  unfold Chip.respondAt
  by_cases halign : resp % 32 = 0
  · rw [if_pos halign, Chip.respWrite]
    cases hbme : (c.pcie.fn fn).bme with
    | true =>
      have hstill : (((c.hostWrite resp (v.bytes tag decided module)).answered fn v.reason).pcie.fn fn).bme = true := hbme
      obtain ⟨hbusy, hlast, hpending⟩ := hanswered (c.hostWrite resp (v.bytes tag decided module))
      rw [if_pos rfl, Safety.Responded, if_neg (by rw [hstill]; simp)]
      exact ⟨hbusy, hlast, hpending, fun _ => List.getLast?_concat⟩
    | false =>
      have hheld := Pcie.fn_updFn_same c.pcie fn (fun f => { f with
        heldResp := f.heldResp ++ [{ write := { addr := resp, bytes := v.bytes tag decided module }, reason := v.reason }] })
      rw [if_neg Bool.false_ne_true, Safety.Responded, if_pos ⟨halign, (congrArg Fun.bme hheld).trans hbme⟩]
      exact (congrArg (fun f : Fun => f.heldResp.getLast?) hheld).trans List.getLast?_concat
  · obtain ⟨hbusy, hlast, hpending⟩ := hanswered c
    rw [if_neg halign, Safety.Responded, if_neg fun h => halign h.1]
    exact ⟨hbusy, hlast, hpending, fun h => absurd h halign⟩

/-! ### A ticket's reservations returned -/

theorem Chip.dropAllowances_frame (l : List Placed) (c : Chip) : ∃ n, l.foldl Chip.dropAllowance c = { c with pnl := n } := by
  induction l generalizing c with
  | nil => exact ⟨c.pnl, rfl⟩
  | cons p l ih =>
    have hone : ∃ n, c.dropAllowance p = { c with pnl := n } := by
      unfold Chip.dropAllowance
      split
      next => exact ⟨_, rfl⟩
      next => exact ⟨c.pnl, rfl⟩
    obtain ⟨n, hn⟩ := hone
    obtain ⟨n', hl⟩ := ih (c.dropAllowance p)
    exact ⟨n', by rw [List.foldl_cons, hl, hn]⟩

theorem Chip.rebook_frame (c : Chip) : ∃ l e n p, c.rebook = { c with log := l, evc := e, rnd := n, pins := p } := by
  unfold Chip.rebook Chip.alarmIf
  exact ⟨_, _, _, _, rfl⟩

theorem Chip.reportLtr_frame (c : Chip) : ∃ p, c.reportLtr = { c with pcie := p } := ⟨_, rfl⟩

/-- The hanks after a ticket's end: its own released, its views and waiting allocations gone. -/
def Chip.hanksWithout (c : Chip) (t : Ticket) : Hank :=
  { (c.hank.releaseAll (c.ticketHanks t.id)).dropViews t.contexts with waiters := c.hank.waiters.filter (fun w => w.ticket != t.id) }

/-- No hank is charged to a ticket that ended but those a host tag holds. -/
theorem Chip.host_of_hanksWithout {c : Chip} {t : Ticket} {h : Nat} (hcharged : ((c.hanksWithout t).entry h).charged = true)
    (hticket : ((c.hanksWithout t).entry h).ticket = t.id) : (tagFn ((c.hanksWithout t).entry h).owner).isSome = true := by
  have hentry : (c.hanksWithout t).entry h = (c.hank.releaseAll (c.ticketHanks t.id)).entry h := rfl
  rw [hentry, Hank.entry_releaseAll] at hcharged hticket ⊢
  split at hcharged
  next => exact absurd hcharged (by decide)
  next hout =>
    rw [if_neg hout] at hticket ⊢
    have hne : c.hank.entry h ≠ {} := fun he => by
      rw [he] at hcharged
      exact absurd hcharged (by decide)
    refine Decidable.byContradiction fun hnone => ?_
    refine hout ⟨List.mem_map.mpr ⟨_, List.mem_filter.mpr ⟨Tbl.mem_of_get_ne hne, ?_⟩, rfl⟩, hcharged⟩
    have hnone' : (tagFn (c.hank.entry h).owner).isNone = true := by simpa using hnone
    exact Bool.and_eq_true_iff.mpr ⟨Bool.and_eq_true_iff.mpr ⟨hcharged, beq_iff_eq.mpr hticket⟩, hnone'⟩

theorem Chip.endTicket_frame (c : Chip) (t : Ticket) : ∃ w m l v q p x e o n s,
    c.endTicket t = { c with
      waits := w, markers := m, pnl := l, tracks := v, queues := q, pcie := p, hostTx := x, evc := e, log := o, rnd := n, pins := s
      hank := c.hanksWithout t
      cast := { c.cast with tickets := c.cast.tickets.filter (fun y => y.id != t.id), closedIds := (t.id, t.fn) :: c.cast.closedIds } } ∧
    m = t.markers.foldl (fun y k => Tbl.set y k {}) c.markers := by
  obtain ⟨q, p, x, e, hrelease⟩ := c.releaseMarkers_frame t.markers
  obtain ⟨l, hdrop⟩ := Chip.dropAllowances_frame t.placed (c.releaseMarkers t.markers)
  obtain ⟨d, hd⟩ : ∃ d, d = { c with
    waits := c.waits.filter (fun w => !t.markers.contains w.marker), markers := t.markers.foldl (fun y k => Tbl.set y k {}) c.markers
    pnl := l, tracks := c.tracks.free t.id
    queues := (if t.srcRound then q else Tbl.upd {} q t.queue (fun z => { z with reserved := z.reserved - t.reserved })).mapV
      (fun z => match z.unit with | some (i, _) => if i = t.id then { z with unit := none } else z | none => z)
    pcie := p, hostTx := x, evc := e, rnd := { c.rnd with xin := c.rnd.xin.filter (fun y => y.ticket != t.id) }
    hank := c.hanksWithout t
    cast := { c.cast with tickets := c.cast.tickets.filter (fun y => y.id != t.id), closedIds := (t.id, t.fn) :: c.cast.closedIds } } := ⟨_, rfl⟩
  have hend : c.endTicket t = d.rebook.reportLtr := by
    rw [hd, Chip.endTicket, hdrop, hrelease]
    rfl
  obtain ⟨o, e', n, s, hbook⟩ := d.rebook_frame
  obtain ⟨p', hltr⟩ := Chip.reportLtr_frame d.rebook
  rw [hend, hltr, hbook, hd]
  exact ⟨_, _, l, _, _, p', x, e', o, n, s, rfl, rfl⟩

theorem Chip.ticket?_filter (l : List Ticket) (i : Nat) : (l.filter (fun x => x.id != i)).find? (fun x => x.id == i) = none := by
  rw [List.find?_eq_none]
  intro t ht hid
  exact bne_iff_ne.mp (List.mem_filter.mp ht).2 (beq_iff_eq.mp hid)

/-- What the end of a ticket leaves: it is gone, its markers free, no hank charged to it but those a host tag holds, the CAST registers as they
were. -/
theorem killTicket_spec (t : Ticket) (c : Chip × Mem) : (killTicket t c).1.ticket? t.id = none ∧ (t.id, t.fn) ∈ (killTicket t c).1.cast.closedIds ∧
    (∀ m ∈ t.markers, (killTicket t c).1.marker m = {}) ∧
    (∀ h, ((killTicket t c).1.hank.entry h).charged = true → ((killTicket t c).1.hank.entry h).ticket = t.id →
      (tagFn ((killTicket t c).1.hank.entry h).owner).isSome = true) ∧ (killTicket t c).1.cast.fns = c.1.cast.fns := by
  have hfrog := frogNeedles_pump t.contexts c rfl
  have hbefore := Chip.dropJobs_pump _ t.id (Chip.forgetContexts_pump _ t.contexts hfrog)
  have hafter := Chip.pumpAll_pump ((((frogNeedles t.contexts c).1.forgetContexts t.contexts).dropJobs t.id).endTicket t) (frogNeedles t.contexts c).2 rfl
  obtain ⟨w, m, l, v, q, p, x, e, o, n, s, hend, hm⟩ := (((frogNeedles t.contexts c).1.forgetContexts t.contexts).dropJobs t.id).endTicket_frame t
  have hkill : (killTicket t c).1 = ((((frogNeedles t.contexts c).1.forgetContexts t.contexts).dropJobs t.id).endTicket t).pumpAll (frogNeedles t.contexts c).2 := rfl
  generalize ((frogNeedles t.contexts c).1.forgetContexts t.contexts).dropJobs t.id = d at hbefore hafter hend hkill hm
  rw [← hkill] at hafter
  have hfns : d.cast.fns = c.1.cast.fns := congrArg (fun y => y.1.1.fns) hbefore
  have hcast : (killTicket t c).1.cast = (d.endTicket t).cast := congrArg (fun y => y.1.1) hafter
  have hmarkers : (killTicket t c).1.markers = (d.endTicket t).markers := congrArg (fun y => y.1.2.1) hafter
  have hhank : (killTicket t c).1.hank = (d.endTicket t).hank := congrArg (fun y => y.1.2.2) hafter
  rw [hend] at hcast hmarkers hhank
  unfold Chip.ticket? Chip.marker
  rw [hcast, hmarkers, hhank]
  refine ⟨Chip.ticket?_filter _ _, List.mem_cons_self, fun k hk => ?_, fun h hcharged hticket => Chip.host_of_hanksWithout hcharged hticket, hfns⟩
  rw [hm]
  exact (Tbl.get_foldl_set _ t.markers {} d.markers k).trans (if_pos hk)

/-- A ticket ended without DRAIN is gone. -/
theorem closeTicket_gone (cause : Nat) (t : Ticket) (c : Chip × Mem) : (closeTicket cause t c).1.ticket? t.id = none := by
  unfold closeTicket
  dsimp only
  split
  next h => exact h
  next u _ =>
    split
    next h => exact h
    next v h =>
      have hid := Chip.id_of_ticket? h
      rw [← hid]
      exact (killTicket_spec v _).1

/-- What a response touches, held or written. -/
theorem Chip.respondAt_frame (c : Chip) (fn resp tag module decided : Nat) (v : Verdict) :
    ∃ p f x e, c.respondAt fn resp tag module decided v = { c with pcie := p, cast := { c.cast with fns := f }, hostTx := x, evc := e } := by
  unfold Chip.respondAt
  split
  next =>
    unfold Chip.respWrite
    split
    next => exact ⟨_, _, _, _, rfl⟩
    next => exact ⟨_, c.cast.fns, c.hostTx, c.evc, rfl⟩
  next => exact ⟨c.pcie, _, c.hostTx, _, rfl⟩

/-! ### Bind-off -/

theorem bindOff_of_unknown {fn : Nat} {r : Req} {c : Chip × Mem} (h : c.1.firstChecks fn 2 r = none) (hb : c.1.bindable fn r = none) :
    bindOff fn r c = (c.1.respondRefused fn r (refuse 0x0003 0), c.2) := by
  rw [bindOff, h, hb]

/-- Frames that a drain generates after the last source frame. -/
def Chip.drainRepeats (c : Chip) (k : Ticket) : Nat := match c.stream? k.pipeline with | none => 0 | some sd => sd.fgK

/-- The chip as a ticket's drain begins. -/
def Chip.draining (c : Chip) (k : Ticket) (req : Option (Nat × Nat)) : Chip :=
  { c with cast := c.cast.updTicket k.id (fun x => x.drain (c.drainRepeats k) c.now req) }

theorem drainTicket_eq (k : Ticket) (req : Option (Nat × Nat)) (c : Chip × Mem) : drainTicket k req c = progress k.id (c.1.draining k req, c.2) := rfl

theorem Chip.ticket?_draining {c : Chip} {k : Ticket} (h : c.ticket? k.id = some k) (req : Option (Nat × Nat)) :
    (c.draining k req).ticket? k.id = some (k.drain (c.drainRepeats k) c.now req) :=
  (List.find?_updTicket (f := fun x => x.drain (c.drainRepeats k) c.now req) _ _ (fun _ => rfl)).trans (congrArg (Option.map _) h)

theorem bindOff_of_drain {fn : Nat} {r : Req} {c : Chip × Mem} {k : Ticket} (h : c.1.firstChecks fn 2 r = none) (hb : c.1.bindable fn r = some k)
    (hd : r.drain = true) : bindOff fn r c = drainTicket k (some (r.tag, r.resp)) c := by
  rw [bindOff, h, hb]
  exact if_pos hd

/-- The chip and memory once a bind-off without DRAIN has ended its ticket. -/
def boundOff (k : Ticket) (c : Chip × Mem) : Chip × Mem := closeTicket 14 k (c.1.tellBindOff k false, c.2)

theorem bindOff_of_close {fn : Nat} {r : Req} {c : Chip × Mem} {k : Ticket} (h : c.1.firstChecks fn 2 r = none) (hb : c.1.bindable fn r = some k)
    (hd : r.drain = false) :
    bindOff fn r c = ((boundOff k c).1.respond fn r.resp r.tag (boundOff k c).1.rnd.id (released k.id), (boundOff k c).2) := by
  rw [bindOff, h, hb]
  exact if_neg (by simp [hd])

theorem Chip.ticket?_of_bindable {c : Chip} {fn : Nat} {r : Req} {k : Ticket} (h : c.bindable fn r = some k) : c.ticket? k.id = some k := by
  unfold Chip.bindable at h
  split at h
  next => cases h
  next t ht =>
    split at h
    next => cases h
    next =>
      cases h
      exact Chip.ticket?_id_of_fnTicket ht

/-- What a drain's end leaves (R57). -/
theorem drainEnd_of_answered {id tag resp : Nat} {k : Ticket} {c : Chip × Mem} (hk : c.1.ticket? id = some k) (htag : k.drainTag = some (tag, resp))
    (hd : k.drained = true) : drainEnd id c =
      ((killTicket k (c.1.tellBindOff k true, c.2)).1.respondAt k.fn resp tag (killTicket k (c.1.tellBindOff k true, c.2)).1.rnd.id (low32 k.drainAt)
        (released k.id), (killTicket k (c.1.tellBindOff k true, c.2)).2) := by
  rw [drainEnd, hk]
  dsimp only
  rw [if_pos hd, htag]

theorem drainEnd_of_undrained {id : Nat} {k : Ticket} {c : Chip × Mem} (hk : c.1.ticket? id = some k) (hd : k.drained = false) : drainEnd id c = c := by
  rw [drainEnd, hk]
  exact if_neg (by simp [hd])

theorem drainEnd_of_part {id : Nat} {k : Ticket} {c : Chip × Mem} (hk : c.1.ticket? id = some k) (htag : k.drainTag = none) (hd : k.drained = true) :
    drainEnd id c = if k.partDrain then killTicket k c else c := by
  rw [drainEnd, hk]
  dsimp only
  rw [if_pos hd, htag]

theorem decided_upToDate (s : State) (d : Chip) (i : Nat) :
    ({ s with chip := (progress i (d, s.mem)).1.nextAsk, mem := (progress i (d, s.mem)).2 } : State) =
      Safety.decided (Safety.upToDate i { s with chip := d }) := by
  unfold Safety.decided Safety.upToDate
  dsimp only

/-- Settles O46: a bind-off's three answers, and the two ends of a drain. -/
theorem bindOffEndsTickets : Obligations.BindOffEndsTickets := by
  unfold Obligations.BindOffEndsTickets
  refine ⟨fun s fn b hreq hfn hgood hopen => ?bind, fun s id tag resp k hk htag => ⟨fun hd => ?waits, fun hd => ?ends⟩,
    fun s id k hk htag => ⟨fun hno => ?stays, fun hpart hd => ?part⟩⟩
  case bind =>
    intro r
    obtain ⟨p, hread, hp⟩ := s.chip.castRead_data fn b
    have hbme : (p.fn fn).bme = true := (congrArg Fun.bme (Pcie.fn_of_fns hp fn)).trans (Chip.bme_of_requested hreq)
    have hcheck : Chip.firstChecks { s.chip with pcie := p } fn 2 r = none := Chip.firstChecks_of_open (c := { s.chip with pcie := p }) hgood hopen
    have hop : r.op = 2 := Req.op_of_good hgood
    have hrun : exec (.bindOff fn (.data b)) s = .next { s with
        chip := (bindOff fn r ({ s.chip with pcie := p }, s.mem)).1.nextAsk, mem := (bindOff fn r ({ s.chip with pcie := p }, s.mem)).2 } := by
      rw [exec_bindOff, execBindOff, requestM_data (c := (s.chip, s.mem)) hreq, hread]
    rw [hrun]
    refine ⟨fun hb => ?_, fun k hb hd => ?_, fun k hb hd => ?_⟩
    · obtain ⟨hanswer, htickets, -⟩ := refusal_spec hp hbme hfn r (refuse 0x0003 0)
      obtain ⟨p', f, x, e, hframe⟩ := Chip.respondRefused_frame (c := { s.chip with pcie := p }) hbme r (refuse 0x0003 0)
      rw [hop] at hanswer
      rw [bindOff_of_unknown (c := ({ s.chip with pcie := p }, s.mem)) hcheck hb]
      refine ⟨{ s with chip := Chip.respondRefused { s.chip with pcie := p } fn r (refuse 0x0003 0) }, rfl, ?_, htickets, hanswer⟩
      dsimp only
      rw [hframe]
    · have hdrain : bindOff fn r ({ s.chip with pcie := p }, s.mem) = progress k.id (Chip.draining { s.chip with pcie := p } k (some (r.tag, r.resp)), s.mem) :=
        (bindOff_of_drain (c := ({ s.chip with pcie := p }, s.mem)) hcheck hb hd).trans (drainTicket_eq k _ _)
      rw [hdrain]
      have hlive := Chip.ticket?_draining (c := { s.chip with pcie := p }) (Chip.ticket?_of_bindable hb) (some (r.tag, r.resp))
      exact ⟨_, congrArg Host.Outcome.next (decided_upToDate s (Chip.draining { s.chip with pcie := p } k (some (r.tag, r.resp))) k.id), rfl, rfl, _, hlive⟩
    · rw [bindOff_of_close (c := ({ s.chip with pcie := p }, s.mem)) hcheck hb hd]
      have hquiet : Safety.quiet (boundOff k ({ s.chip with pcie := p }, s.mem)).1 = Safety.quiet s.chip :=
        closeTicket_quiet 14 k _ (Chip.tellBindOff_quiet { s.chip with pcie := p } k false rfl)
      have hgone : (boundOff k ({ s.chip with pcie := p }, s.mem)).1.ticket? k.id = none := closeTicket_gone 14 k _
      generalize boundOff k ({ s.chip with pcie := p }, s.mem) = d at hquiet hgone
      have hanswer := Safety.responded_of_respondAt d.1 fn r.resp r.tag d.1.rnd.id d.1.nowLo (released k.id)
      obtain ⟨p', f, x, e, hframe⟩ := d.1.respondAt_frame fn r.resp r.tag d.1.rnd.id d.1.nowLo (released k.id)
      refine ⟨{ s with chip := d.1.respond fn r.resp r.tag d.1.rnd.id (released k.id), mem := d.2 }, rfl, Chip.respond_quiet _ _ _ _ _ _ hquiet, ?_, ?_⟩
      · rw [Chip.respond, hframe]
        exact hgone
      · rw [Chip.respond]
        rw [hframe] at hanswer ⊢
        exact hanswer
  case waits => rw [exec_bindOffDrainEnd, execBindOffDrainEnd, drainEnd_of_undrained (c := (s.chip, s.mem)) hk hd]
  case ends =>
    have hid := Chip.id_of_ticket? hk
    subst hid
    have hquiet := killTicket_quiet k (s.chip.tellBindOff k true, s.mem) (Chip.tellBindOff_quiet s.chip k true rfl)
    obtain ⟨hgone, hclosed, hmarkers, hhanks, -⟩ := killTicket_spec k (s.chip.tellBindOff k true, s.mem)
    rw [exec_bindOffDrainEnd, execBindOffDrainEnd, drainEnd_of_answered (c := (s.chip, s.mem)) hk htag hd]
    generalize killTicket k ((s.chip, s.mem).1.tellBindOff k true, (s.chip, s.mem).2) = d at hquiet hgone hclosed hmarkers hhanks
    have hanswer := Safety.responded_of_respondAt d.1 k.fn resp tag d.1.rnd.id (low32 k.drainAt) (released k.id)
    obtain ⟨p', f, x, e, hframe⟩ := d.1.respondAt_frame k.fn resp tag d.1.rnd.id (low32 k.drainAt) (released k.id)
    refine ⟨_, rfl, Chip.respondAt_quiet _ _ _ _ _ _ _ hquiet, ?_⟩
    rw [hframe] at hanswer ⊢
    exact ⟨hgone, hclosed, hmarkers, hhanks, hanswer⟩
  case stays =>
    have hsame : drainEnd id (s.chip, s.mem) = (s.chip, s.mem) := by
      cases hd : k.drained with
      | false => exact drainEnd_of_undrained (c := (s.chip, s.mem)) hk hd
      | true =>
        rw [drainEnd_of_part (c := (s.chip, s.mem)) hk htag hd]
        exact if_neg (by simpa [hd] using hno)
    rw [exec_bindOffDrainEnd, execBindOffDrainEnd, hsame]
  case part =>
    have hid := Chip.id_of_ticket? hk
    subst hid
    have hkill : drainEnd k.id (s.chip, s.mem) = killTicket k (s.chip, s.mem) := (drainEnd_of_part (c := (s.chip, s.mem)) hk htag hd).trans (if_pos hpart)
    obtain ⟨hgone, -, -, -, hfns⟩ := killTicket_spec k (s.chip, s.mem)
    rw [exec_bindOffDrainEnd, execBindOffDrainEnd, hkill]
    exact ⟨_, rfl, killTicket_quiet k _ rfl, hgone, hfns⟩

end Sys2Proof.Machine
end

section
/-!
Garment cast-ons (R59): Control messages to several modules, the lead's two phases, and the ends of waiting, family 14.
-/
namespace Sys2Proof.Machine

/-! ### Control messages sent (R258) -/

/-- A request that can be read is in flight. -/
theorem Chip.busy_of_requested {c : Chip} {fn : Nat} (h : c.requested fn = true) : (c.cast.fn fn).busy = true := by
  unfold Chip.requested Chip.bellReads Chip.unread at h
  simp only [Bool.and_eq_true] at h
  obtain ⟨⟨⟨⟨⟨⟨hbusy, -⟩, -⟩, -⟩, -⟩, -⟩, -⟩ := h
  exact hbusy

theorem Rnd.launch_frame (r : Rnd) (f : RFrame) : ∃ e w, r.launch f = { r with east := e, west := w } := by
  unfold Rnd.launch
  split
  next => exact ⟨r.east, r.west, rfl⟩
  next => exact ⟨_, _, rfl⟩

/-- The numbered message that would go to module `k` next. -/
def Rnd.message (r : Rnd) (now k code ticket garment : Nat) (b : List Byte) : Nat × RFrame × Nat :=
  ((r.eseqOf k).nextOut, newFrame r.id 2 .control k (low32 ticket) 0 (r.eseqOf k).nextOut 0 garment false false (ctlPayload code b), now)

theorem Rnd.id_sendControl (r : Rnd) (now k code ticket garment : Nat) (b : List Byte) : (r.sendControl now k code ticket garment b).id = r.id := by
  obtain ⟨e, w, h⟩ := r.launch_frame (r.message now k code ticket garment b).2.1
  exact (congrArg Rnd.id h :)

theorem Rnd.eseqOf_sendControl_same (r : Rnd) (now k code ticket garment : Nat) (b : List Byte) : (r.sendControl now k code ticket garment b).eseqOf k =
    { r.eseqOf k with nextOut := ((r.eseqOf k).nextOut + 1) % 4294967296, unacked := (r.eseqOf k).unacked ++ [r.message now k code ticket garment b] } :=
  Tbl.get_set_same _ _ _ _

theorem Rnd.eseqOf_sendControl_other (r : Rnd) {m k : Nat} (hm : m ≠ k) (now code ticket garment : Nat) (b : List Byte) :
    (r.sendControl now k code ticket garment b).eseqOf m = r.eseqOf m := Tbl.get_set_other _ _ _ hm

/-- A message that waits for its MSG_ACK goes on waiting as another is sent. -/
theorem Rnd.mem_unacked_sendControl {r : Rnd} {m : Nat} {x : Nat × RFrame × Nat} (hx : x ∈ (r.eseqOf m).unacked) (now k code ticket garment : Nat) (b : List Byte) :
    x ∈ ((r.sendControl now k code ticket garment b).eseqOf m).unacked := by
  by_cases hm : m = k
  · subst hm
    rw [Rnd.eseqOf_sendControl_same]
    exact List.mem_append_left _ hx
  · rw [Rnd.eseqOf_sendControl_other r hm]
    exact hx

/-- Messages of one kind sent to a list of modules. -/
def Rnd.sendAll (r : Rnd) (now code ticket garment : Nat) (body : Nat → List Byte) (l : List Nat) : Rnd :=
  l.foldl (fun r k => r.sendControl now k code ticket garment (body k)) r

theorem Rnd.id_sendAll (r : Rnd) (now code ticket garment : Nat) (body : Nat → List Byte) (l : List Nat) :
    (r.sendAll now code ticket garment body l).id = r.id :=
  List.foldlRecOn (motive := fun q => Rnd.id q = r.id) l _ rfl fun q hq _ _ => (q.id_sendControl _ _ _ _ _ _).trans hq

/-- Each module of the list has its message, with the number that was next for it. -/
theorem Rnd.mem_sendAll {l : List Nat} {m : Nat} (hm : m ∈ l) (r : Rnd) (now code ticket garment : Nat) (body : Nat → List Byte) :
    r.message now m code ticket garment (body m) ∈ ((r.sendAll now code ticket garment body l).eseqOf m).unacked := by
  induction l generalizing r with
  | nil => exact absurd hm List.not_mem_nil
  | cons k l ih =>
    rw [Rnd.sendAll, List.foldl_cons]
    by_cases hk : m = k
    · subst hk
      have hsent : r.message now m code ticket garment (body m) ∈ ((r.sendControl now m code ticket garment (body m)).eseqOf m).unacked := by
        rw [Rnd.eseqOf_sendControl_same]
        exact List.mem_append_right _ List.mem_cons_self
      exact List.foldlRecOn (motive := fun q => r.message now m code ticket garment (body m) ∈ (Rnd.eseqOf q m).unacked) l _ hsent
        fun q hq _ _ => Rnd.mem_unacked_sendControl hq _ _ _ _ _ _
    · have hsame : (r.sendControl now k code ticket garment (body k)).message now m code ticket garment (body m) = r.message now m code ticket garment (body m) := by
        unfold Rnd.message
        rw [Rnd.eseqOf_sendControl_other r hk, Rnd.id_sendControl]
      rw [← hsame]
      exact ih ((List.mem_cons.mp hm).resolve_left hk) _

/-- Telling some modules sends to each but this one. -/
theorem Chip.tellAll_eq (c : Chip) (ms : List Nat) (code ticket garment : Nat) (b : List Byte) : c.tellAll ms code ticket garment b =
    { c with rnd := c.rnd.sendAll c.now code ticket garment (fun _ => b) (ms.filter (fun k => k != c.rnd.id)) } := by
  have hfold (l : List Nat) (r : Rnd) (hr : r.id = c.rnd.id) : l.foldl (fun r k => if k = r.id then r else r.sendControl c.now k code ticket garment b) r =
      r.sendAll c.now code ticket garment (fun _ => b) (l.filter (fun k => k != c.rnd.id)) := by
    induction l generalizing r with
    | nil => rfl
    | cons k l ih =>
      rw [List.foldl_cons, hr]
      by_cases hk : k = c.rnd.id
      · rw [if_pos hk, List.filter_cons_of_neg (by simp [hk])]
        exact ih r hr
      · rw [if_neg hk, List.filter_cons_of_pos (by simp [hk])]
        exact ih _ ((r.id_sendControl _ _ _ _ _ _).trans hr)
  exact congrArg (fun r => { c with rnd := r }) (hfold ms c.rnd rfl)

/-- Every module told but this one has its message waiting for its MSG_ACK. -/
theorem Safety.sent_of_sendAll {c d : Chip} {r : Rnd} {l : List Nat} {m : Nat} {code garment : Nat} {body : Nat → List Byte} (hm : m ∈ l)
    (heseq : r.eseqOf m = c.rnd.eseqOf m) (hd : d.rnd = r.sendAll d.now code 0 garment body l) :
    Safety.Sent c d m code 0 garment (body m) := by
  have hmem := Rnd.mem_sendAll hm r d.now code 0 garment body
  have hdid : d.rnd.id = r.id := (congrArg Rnd.id hd).trans (r.id_sendAll _ _ _ _ _ _)
  unfold Safety.Sent
  rw [hdid, ← heseq, hd]
  exact hmem

/-! ### What a garment cast-on makes of its members -/

theorem Rnd.sendAll_frame (r : Rnd) (now code ticket garment : Nat) (body : Nat → List Byte) (l : List Nat) :
    ∃ e w q, r.sendAll now code ticket garment body l = { r with east := e, west := w, eseq := q } := by
  unfold Rnd.sendAll
  induction l generalizing r with
  | nil => exact ⟨r.east, r.west, r.eseq, rfl⟩
  | cons k l ih =>
    obtain ⟨e, w, h⟩ := r.launch_frame (r.message now k code ticket garment (body k)).2.1
    obtain ⟨e', w', q', hl⟩ := ih (r.sendControl now k code ticket garment (body k))
    have hone : r.sendControl now k code ticket garment (body k) = { r with
        east := e, west := w, eseq := (r.sendControl now k code ticket garment (body k)).eseq } :=
      (congrArg (fun x : Rnd => { x with eseq := (r.sendControl now k code ticket garment (body k)).eseq }) h :)
    exact ⟨e', w', q', by rw [List.foldl_cons, hl, hone]⟩

/-- The members of the garment that a request names. -/
def Chip.castMembers (c : Chip) (r : Req) : List Member := ((c.stream? r.pipeline).map (fun sd => sd.members)).getD []
/-- This module's part. -/
def Chip.castMine (c : Chip) (r : Req) : Member :=
  ((c.castMembers r).find? (fun m => m.module == c.rnd.id)).getD { module := c.rnd.id, deadline := r.deadline, pipeline := r.pipeline }
/-- The modules with a part. -/
def Chip.castIds (c : Chip) (r : Req) : List Nat := (c.rnd.id :: (c.castMembers r).map (fun m => m.module)).eraseDups
/-- The modules between them. -/
def Chip.castHops (c : Chip) (r : Req) : List Nat :=
  (((c.hopLoads r (c.castMembers r)).map (fun e => e.1)).filter (fun k => !(c.castIds r).contains k)).eraseDups
/-- The modules to be asked. -/
def Chip.castAsked (c : Chip) (r : Req) : List Nat := (c.castIds r).filter (fun k => k != c.rnd.id) ++ c.castHops r
/-- This module's part judged. -/
def Chip.castJudged (c : Chip) (r : Req) : Verdict ⊕ Ticket :=
  c.judgePart r (c.castMine r) c.rnd.id (c.castIds r) (loadsOf (c.hopLoads r (c.castMembers r)) c.rnd.id)
/-- The decision that waits for the answers. -/
def Chip.castLead (c : Chip) (fn : Nat) (r : Req) (k : Ticket) : GarmentLead :=
  { garment := r.garment, fn := fn, reqTag := r.tag, respAddr := r.resp, sentAt := c.now, asked := c.castAsked r, due := c.castAsked r, price := r.price
    ticket := { k with fn := fn, queue := globalQueue fn r.queue, hopMods := c.castHops r } }
/-- Payload of the RESERVE to a module. -/
def Chip.castReserve (c : Chip) (r : Req) (raw : List Byte) (k : Nat) : List Byte :=
  reserveBytes raw ((c.castMembers r).find? (fun m => m.module == k)) (loadsOf (c.hopLoads r (c.castMembers r)) k) (c.castIds r)
/-- The chip once RESERVE has gone out. -/
def Chip.castReserving (c : Chip) (fn : Nat) (r : Req) (raw : List Byte) (k : Ticket) : Chip :=
  { c with
    markers := (c.holdMarkers k 0).markers, cast := { c.cast with leads := c.cast.leads ++ [c.castLead fn r k] }
    rnd := c.rnd.sendAll c.now 0x0002 0 r.garment (c.castReserve r raw) (c.castAsked r) }

theorem Chip.garmentCastOn_of_check {c : Chip} {fn : Nat} {r : Req} {v : Verdict} (h : c.firstChecks fn 3 r = some v) (raw : List Byte) :
    c.garmentCastOn fn r raw = c.respondRefused fn r v := by
  rw [Chip.garmentCastOn, h]

/-- A garment cast-on that passes the first checks is decided by this module's own part. -/
theorem Chip.garmentCastOn_of_good {c : Chip} {fn : Nat} {r : Req} (h : c.firstChecks fn 3 r = none) (raw : List Byte) :
    c.garmentCastOn fn r raw = match c.castJudged r with
      | .inl v => c.respondRefused fn r v
      | .inr k => if c.castAsked r = [] then (c.castReserving fn r raw k).commitGarment (c.castLead fn r k) else c.castReserving fn r raw k := by
  unfold Chip.castReserving Chip.castLead Chip.castAsked Chip.castHops Chip.castReserve Chip.castJudged Chip.castMine Chip.castIds
  rw [Chip.garmentCastOn, h]
  dsimp only
  cases hst : c.stream? r.pipeline with
  | none =>
    have hms : c.castMembers r = [] := by rw [Chip.castMembers, hst]; rfl
    rw [hms]
    rfl
  | some sd =>
    have hms : c.castMembers r = sd.members := by rw [Chip.castMembers, hst]; rfl
    rw [hms]
    rfl

theorem Chip.garmentCastOn_of_refused {c : Chip} {fn : Nat} {r : Req} {v : Verdict} (h : c.firstChecks fn 3 r = none) (hj : c.castJudged r = .inl v)
    (raw : List Byte) : c.garmentCastOn fn r raw = c.respondRefused fn r v := by
  rw [Chip.garmentCastOn_of_good h, hj]

theorem Chip.garmentCastOn_of_asked {c : Chip} {fn : Nat} {r : Req} {k : Ticket} (h : c.firstChecks fn 3 r = none) (hj : c.castJudged r = .inr k)
    (hask : c.castAsked r ≠ []) (raw : List Byte) : c.garmentCastOn fn r raw = c.castReserving fn r raw k := by
  rw [Chip.garmentCastOn_of_good h, hj]
  exact if_neg hask

theorem Chip.garmentCastOn_of_alone {c : Chip} {fn : Nat} {r : Req} {k : Ticket} (h : c.firstChecks fn 3 r = none) (hj : c.castJudged r = .inr k)
    (hask : c.castAsked r = []) (raw : List Byte) : c.garmentCastOn fn r raw = (c.castReserving fn r raw k).commitGarment (c.castLead fn r k) := by
  rw [Chip.garmentCastOn_of_good h, hj]
  exact if_pos hask

/-- A part is judged well only where the garment is not in use here. -/
theorem Chip.judgePart_ok {c : Chip} {r : Req} {m : Member} {lead : Nat} {ids : List Nat} {path : List (Nat × Nat × Nat)} {k : Ticket}
    (h : c.judgePart r m lead ids path = .inr k) : c.garmentBusy r.garment = false ∧ k.garment = some r.garment ∧ k.lead = lead := by
  unfold Chip.judgePart at h
  split at h
  next => cases h
  next =>
    split at h
    next => cases h
    next hbusy =>
      cases h
      exact ⟨Bool.not_eq_true _ ▸ hbusy, rfl, rfl⟩

theorem Chip.firstBad_of_firstChecks {c : Chip} {fn op : Nat} {r : Req} (h : c.firstChecks fn op r = none) : r.firstBad fn op = none := by
  unfold Chip.firstChecks at h
  split at h
  next => cases h
  next hbad => exact hbad

/-! ### The commit -/

/-- The chip on which a garment's members have been told of its commit. -/
def Chip.commitTold (c : Chip) (l : GarmentLead) : Chip :=
  Chip.tellAll { c with cast := { c.cast with leads := c.cast.leads.erase l, lastTicket := nextTicket c.cast.lastTicket } } l.asked 0x0003
    (nextTicket c.cast.lastTicket) l.garment []

theorem Chip.commitTold_eq (c : Chip) (l : GarmentLead) : c.commitTold l = { c with
    cast := { c.cast with leads := c.cast.leads.erase l, lastTicket := nextTicket c.cast.lastTicket }
    rnd := c.rnd.sendAll c.now 0x0003 (nextTicket c.cast.lastTicket) l.garment (fun _ => []) (l.asked.filter (fun k => k != c.rnd.id)) } :=
  Chip.tellAll_eq _ _ _ _ _ _

/-- The chip on which the lead's ticket has then gone live. -/
def Chip.committed (c : Chip) (l : GarmentLead) : Chip := (c.commitTold l).openTicket l.ticket (nextTicket c.cast.lastTicket)
/-- The verdict of that garment. -/
def Chip.commitVerdict (c : Chip) (l : GarmentLead) : Verdict :=
  (c.commitTold l).accepted l.ticket.placed l.ticket.roundPath (nextTicket c.cast.lastTicket) l.price

theorem Chip.commitGarment_eq (c : Chip) (l : GarmentLead) :
    c.commitGarment l = (c.committed l).respond l.fn l.respAddr l.reqTag c.rnd.id (c.commitVerdict l) := rfl

theorem Chip.committed_frame (c : Chip) (l : GarmentLead) : ∃ st p n, p.fns = c.pcie.fns ∧ c.committed l = { c with
    cast := { c.cast with
      leads := c.cast.leads.erase l, lastTicket := nextTicket c.cast.lastTicket
      tickets := c.cast.tickets ++ [l.ticket.issued (nextTicket c.cast.lastTicket) st] }
    rnd := c.rnd.sendAll c.now 0x0003 (nextTicket c.cast.lastTicket) l.garment (fun _ => []) (l.asked.filter (fun k => k != c.rnd.id))
    markers := (c.holdMarkers l.ticket (nextTicket c.cast.lastTicket)).markers, pcie := p, pnl := n } := by
  obtain ⟨st, p, n, hp, hopen⟩ := (c.commitTold l).openTicket_frame l.ticket (nextTicket c.cast.lastTicket)
  rw [Chip.commitTold_eq] at hp hopen
  refine ⟨st, p, n, hp, ?_⟩
  rw [Chip.committed, Chip.commitTold_eq, hopen]
  rfl

/-- What an accepted commit leaves of a request of function `fn`, read on chip `c`. -/
theorem Chip.commitGarment_frame {c : Chip} {l : GarmentLead} (hbme : (c.pcie.fn l.fn).bme = true) : ∃ st p n m r f x e, c.commitGarment l = { c with
    cast := { c.cast with
      leads := c.cast.leads.erase l, lastTicket := nextTicket c.cast.lastTicket
      tickets := c.cast.tickets ++ [l.ticket.issued (nextTicket c.cast.lastTicket) st], fns := f }
    rnd := r, markers := m, pcie := p, pnl := n, hostTx := x, evc := e } := by
  obtain ⟨st, p, n, hp, hframe⟩ := c.committed_frame l
  have hbme' : ((c.committed l).pcie.fn l.fn).bme = true := by
    rw [hframe]
    exact (congrArg Fun.bme (Pcie.fn_of_fns hp l.fn)).trans hbme
  obtain ⟨p', f, x, e, hr⟩ := Chip.respond_frame hbme' l.respAddr l.reqTag c.rnd.id (c.commitVerdict l)
  rw [Chip.commitGarment_eq, hr, hframe]
  exact ⟨st, p', n, _, _, f, x, e, rfl⟩

theorem Safety.castAnswered_of_commit {a c : Chip} {l : GarmentLead} {r : Req} (hbme : (c.pcie.fn l.fn).bme = true) (hfn : l.fn ≤ 16)
    (hresp : l.respAddr = r.resp) (htag : l.reqTag = r.tag) (htx : c.hostTx = a.hostTx) (hgauge : c.gauge = a.gauge) (hid : c.rnd.id = a.rnd.id) :
    Safety.CastAnswered a (c.commitGarment l) l.fn r (c.commitVerdict l) := by
  obtain ⟨st, p, n, hp, hframe⟩ := c.committed_frame l
  rw [Chip.commitGarment_eq, hresp, htag, hid]
  refine Safety.castAnswered_of_respond ?_ hfn ?_ ?_ r (c.commitVerdict l) <;> rw [hframe]
  · exact (congrArg Fun.bme (Pcie.fn_of_fns hp l.fn)).trans hbme
  · exact htx
  · exact hgauge

/-- What a garment cast-on touches, whatever it comes to. -/
theorem Chip.garmentCastOn_frame {c : Chip} {fn : Nat} (hbme : (c.pcie.fn fn).bme = true) (r : Req) (raw : List Byte) :
    ∃ p k m n o x e, c.garmentCastOn fn r raw = { c with pcie := p, cast := k, markers := m, pnl := n, rnd := o, hostTx := x, evc := e } := by
  have hrefused (v : Verdict) : ∃ p k m n o x e, c.respondRefused fn r v = { c with
      pcie := p, cast := k, markers := m, pnl := n, rnd := o, hostTx := x, evc := e } := by
    obtain ⟨p, f, x, e, hr⟩ := Chip.respondRefused_frame hbme r v
    exact ⟨p, _, c.markers, c.pnl, c.rnd, x, e, hr⟩
  cases hcheck : c.firstChecks fn 3 r with
  | some v => rw [Chip.garmentCastOn_of_check hcheck]; exact hrefused v
  | none =>
    rw [Chip.garmentCastOn_of_good hcheck]
    cases c.castJudged r with
    | inl v => exact hrefused v
    | inr k =>
      dsimp only
      split
      next =>
        obtain ⟨st, p, n, m, o, f, x, e, hcommit⟩ := Chip.commitGarment_frame (c := c.castReserving fn r raw k) (l := c.castLead fn r k) hbme
        exact ⟨p, _, m, n, o, x, e, hcommit⟩
      next => exact ⟨_, _, _, c.pnl, _, c.hostTx, c.evc, rfl⟩

/-- A lead that is not in the list is taken off again. -/
theorem erase_added {ls : List GarmentLead} {l : GarmentLead} (h : ls.any (fun x => x.garment == l.garment) = false) : (ls ++ [l]).erase l = ls := by
  have hnot : l ∉ ls := fun hl => List.any_eq_false.mp h l hl (beq_self_eq_true l.garment)
  rw [List.erase_append_right _ hnot, List.erase_cons_head, List.append_nil]

theorem reserveBytes_prefix (raw : List Byte) (part : Option Member) (path : List (Nat × Nat × Nat)) (ids : List Nat) :
    ∃ body, reserveBytes raw part path ids = (raw ++ zeros 64).take 64 ++ body := by
  unfold reserveBytes
  simp only [List.append_assoc]
  exact ⟨_, rfl⟩

/-- The three ends of a garment cast-on that was read. -/
theorem garmentCastOn_spec {a : Chip} {fn : Nat} {p : Pcie} (hp : p.fns = a.pcie.fns) (hbme : (p.fn fn).bme = true) (hbusy : (a.cast.fn fn).busy = true)
    (hfn : fn ≤ 16) (r : Req) (raw : List Byte) (c d : Chip) (hc : c = { a with pcie := p }) (hd : d = c.garmentCastOn fn r raw) :
    (∀ v, c.firstChecks fn 3 r = some v → Safety.CastAnswered a d fn r { v with price := if r.op = 2 then 0 else r.price } ∧
      d.cast.tickets = a.cast.tickets ∧ d.cast.leads = a.cast.leads ∧ d.rnd = a.rnd) ∧
    (c.firstChecks fn 3 r = none → ∀ v, c.castJudged r = .inl v → Safety.CastAnswered a d fn r { v with price := r.price } ∧
      d.cast.tickets = a.cast.tickets ∧ d.cast.leads = a.cast.leads ∧ d.rnd = a.rnd ∧ d.markers = a.markers) ∧
    (c.firstChecks fn 3 r = none → ∀ k, c.castJudged r = .inr k →
      (c.castAsked r ≠ [] → (∃ l : GarmentLead, d.cast.leads = a.cast.leads ++ [l] ∧ l.garment = r.garment ∧ l.fn = fn ∧ l.due = c.castAsked r ∧
          l.asked = c.castAsked r ∧ l.sentAt = a.now ∧ l.ticket.placed = k.placed) ∧
        d.cast.tickets = a.cast.tickets ∧ (d.cast.fn fn).busy = true ∧ d.hostTx = a.hostTx ∧ d.evc = a.evc ∧
        ∀ m ∈ c.castAsked r, ∃ body, Safety.Sent a d m 0x0002 0 r.garment ((raw ++ zeros 64).take 64 ++ body)) ∧
      (c.castAsked r = [] → ∃ (x : Ticket) (v : Verdict), d.cast.tickets = a.cast.tickets ++ [x] ∧ x.id = nextTicket a.cast.lastTicket ∧
        x.garment = some r.garment ∧ x.lead = a.rnd.id ∧ d.cast.leads = a.cast.leads ∧ v.reason = 0 ∧ v.ticket = x.id ∧
        Safety.CastAnswered a d fn r v)) := by
  subst hc
  refine ⟨fun v hcheck => ?_, fun hcheck v hj => ?_, fun hcheck k hj => ?_⟩
  · obtain ⟨hanswer, htickets, -, -, -, -⟩ := refusal_spec hp hbme hfn r v
    obtain ⟨p', f, x, e, hframe⟩ := Chip.respondRefused_frame (c := { a with pcie := p }) hbme r v
    rw [hd, Chip.garmentCastOn_of_check hcheck]
    refine ⟨hanswer, htickets, ?_⟩
    rw [hframe]
    exact ⟨rfl, rfl⟩
  · have hop : r.op = 3 := Req.op_of_good (Chip.firstBad_of_firstChecks hcheck)
    obtain ⟨hanswer, htickets, hmarkers, -⟩ := refusal_spec hp hbme hfn r v
    obtain ⟨p', f, x, e, hframe⟩ := Chip.respondRefused_frame (c := { a with pcie := p }) hbme r v
    have hdone : d = Chip.respondRefused { a with pcie := p } fn r v := hd.trans (Chip.garmentCastOn_of_refused hcheck hj raw)
    rw [hop] at hanswer
    rw [hdone]
    refine ⟨hanswer, htickets, ?_, ?_, hmarkers⟩ <;> rw [hframe]
  · obtain ⟨hfree, hgarment, hlead⟩ := Chip.judgePart_ok hj
    refine ⟨fun hask => ?_, fun hask => ?_⟩
    · rw [hd, Chip.garmentCastOn_of_asked hcheck hj hask]
      refine ⟨⟨_, rfl, rfl, rfl, rfl, rfl, rfl, rfl⟩, rfl, hbusy, rfl, rfl, fun m hm => ?_⟩
      obtain ⟨body, hbody⟩ := reserveBytes_prefix raw ((Chip.castMembers { a with pcie := p } r).find? (fun x => x.module == m))
        (loadsOf (Chip.hopLoads { a with pcie := p } r (Chip.castMembers { a with pcie := p } r)) m) (Chip.castIds { a with pcie := p } r)
      refine ⟨body, hbody ▸ ?_⟩
      exact Safety.sent_of_sendAll (c := a) (r := a.rnd) (body := Chip.castReserve { a with pcie := p } r raw) hm rfl rfl
    · have hid : (Chip.castReserving { a with pcie := p } fn r raw k).rnd.id = a.rnd.id := Rnd.id_sendAll _ _ _ _ _ _ _
      have hanswer : Safety.CastAnswered a ((Chip.castReserving { a with pcie := p } fn r raw k).commitGarment (Chip.castLead { a with pcie := p } fn r k)) fn r _ :=
        Safety.castAnswered_of_commit (c := Chip.castReserving { a with pcie := p } fn r raw k) (l := Chip.castLead { a with pcie := p } fn r k) hbme hfn rfl rfl rfl
          rfl hid
      obtain ⟨st, p', n, m, o, f, x, e, hframe⟩ :=
        Chip.commitGarment_frame (c := Chip.castReserving { a with pcie := p } fn r raw k) (l := Chip.castLead { a with pcie := p } fn r k) hbme
      have hbusyNo : a.cast.leads.any (fun x => x.garment == r.garment) = false := by
        unfold Chip.garmentBusy at hfree
        exact (Bool.or_eq_false_iff.mp hfree).2
      rw [hd, Chip.garmentCastOn_of_alone hcheck hj hask]
      refine ⟨(Chip.castLead { a with pcie := p } fn r k).ticket.issued (nextTicket a.cast.lastTicket) st, _, ?_, rfl, hgarment, hlead, ?_, rfl, rfl, hanswer⟩ <;>
        rw [hframe]
      · rfl
      · exact erase_added (l := Chip.castLead { a with pcie := p } fn r k) hbusyNo

/-- The chip on which the members of a refused garment have been told, and the refusal counted. -/
def Chip.refusalTold (c : Chip) (l : GarmentLead) : Chip :=
  let d := ((c.dropLead l).releaseMarkers l.ticket.markers).tellAll l.asked 0x0004 0 l.garment []
  { d with cast := { d.cast with refused := d.cast.refused.inc } }

theorem Chip.refusalTold_frame (c : Chip) (l : GarmentLead) : ∃ q p x e, c.refusalTold l = { c with
    cast := { c.cast with leads := c.cast.leads.erase l, refused := c.cast.refused.inc }
    waits := c.waits.filter (fun w => !l.ticket.markers.contains w.marker), markers := l.ticket.markers.foldl (fun t m => Tbl.set t m {}) c.markers
    rnd := c.rnd.sendAll c.now 0x0004 0 l.garment (fun _ => []) (l.asked.filter (fun k => k != c.rnd.id))
    queues := q, pcie := p, hostTx := x, evc := e } := by
  obtain ⟨q, p, x, e, hrelease⟩ := (c.dropLead l).releaseMarkers_frame l.ticket.markers
  refine ⟨q, p, x, e, ?_⟩
  rw [Chip.refusalTold, Chip.tellAll_eq, hrelease]
  rfl

/-- What the refusal of a garment leaves: the decision gone, its markers free, every member told, the request answered. -/
theorem Chip.refuseGarment_spec (c : Chip) (l : GarmentLead) (reason detail k : Nat) :
    (c.refuseGarment l reason detail k).gauge = c.gauge ∧ (c.refuseGarment l reason detail k).cast.leads = c.cast.leads.erase l ∧
    (c.refuseGarment l reason detail k).cast.tickets = c.cast.tickets ∧ (c.refuseGarment l reason detail k).cast.refused = c.cast.refused.inc ∧
    (∀ m ∈ l.ticket.markers, (c.refuseGarment l reason detail k).marker m = {}) ∧
    (∀ m ∈ l.asked, m ≠ c.rnd.id → Safety.Sent c (c.refuseGarment l reason detail k) m 0x0004 0 l.garment []) ∧
    Safety.Responded (c.refuseGarment l reason detail k) l.fn l.respAddr reason
      (Verdict.bytes { reason := reason, detail := detail, price := l.price } l.reqTag c.nowLo k) := by
  obtain ⟨q, p, x, e, htold⟩ := c.refusalTold_frame l
  have hlo : (c.refusalTold l).nowLo = c.nowLo := by rw [htold]; rfl
  have hrun : c.refuseGarment l reason detail k =
      (c.refusalTold l).respondAt l.fn l.respAddr l.reqTag k (c.refusalTold l).nowLo { reason := reason, detail := detail, price := l.price } := rfl
  rw [hlo] at hrun
  obtain ⟨p', f, x', e', hframe⟩ :=
    (c.refusalTold l).respondAt_frame l.fn l.respAddr l.reqTag k c.nowLo { reason := reason, detail := detail, price := l.price }
  have hanswer := Safety.responded_of_respondAt (c.refusalTold l) l.fn l.respAddr l.reqTag k c.nowLo { reason := reason, detail := detail, price := l.price }
  rw [hrun]
  refine ⟨?_, ?_, ?_, ?_, fun m hm => ?_, fun m hm hne => ?_, hanswer⟩ <;> rw [hframe, htold]
  · exact (Tbl.get_foldl_set _ l.ticket.markers {} c.markers m).trans (if_pos hm)
  · have hask : m ∈ l.asked.filter (fun k => k != c.rnd.id) := List.mem_filter.mpr ⟨hm, bne_iff_ne.mpr hne⟩
    refine Safety.sent_of_sendAll (r := c.rnd) (body := fun _ => []) hask rfl ?_
    rfl

/-- Settles O47: the three ends of a garment cast-on, and the two of waiting. -/
theorem garmentsAreDecidedInTwoPhases : Obligations.GarmentsAreDecidedInTwoPhases := by
  unfold Obligations.GarmentsAreDecidedInTwoPhases
  refine ⟨fun s fn b hreq hfn => ?first, fun s g l hl hlt hle => ?late, fun s g h hh hlt hle => ?expired⟩
  case first =>
    obtain ⟨p, hread, hp⟩ := s.chip.castRead_data fn b
    have hbme : (p.fn fn).bme = true := (congrArg Fun.bme (Pcie.fn_of_fns hp fn)).trans (Chip.bme_of_requested hreq)
    have hrun : exec (.garmentCastOn fn (.data b)) s =
        .next (Safety.decided { s with chip := Chip.garmentCastOn { s.chip with pcie := p } fn (Req.of b) b }) := by
      rw [exec_garmentCastOn, execGarmentCastOn, Chip.request_data hreq, hread]
      rfl
    obtain ⟨p', k, m, n, o, x, e, hframe⟩ := Chip.garmentCastOn_frame (c := { s.chip with pcie := p }) hbme (Req.of b) b
    refine ⟨_, hrun, ?_, garmentCastOn_spec hp hbme (Chip.busy_of_requested hreq) hfn (Req.of b) b _ _ hread (by rw [hread])⟩
    dsimp only
    rw [hframe]
  case late =>
    have hgauge : s.chip.gauge.advance (l.sentAt + 125000) = { s.chip.gauge with time := l.sentAt + 125000 } := Gauge.advance_of_le hle hlt
    have hrun : s.chip.answerTimeout g =
        Chip.refuseGarment { s.chip with gauge := { s.chip.gauge with time := l.sentAt + 125000 } } l 0x0011 (l.due.headD 0) (l.due.headD 0) := by
      rw [Chip.answerTimeout, hl]
      exact congrArg (fun x => Chip.refuseGarment { s.chip with gauge := x } l 0x0011 (l.due.headD 0) (l.due.headD 0)) hgauge
    obtain ⟨htime, hleads, htickets, hrefused, hmarkers, hsent, hanswer⟩ :=
      Chip.refuseGarment_spec { s.chip with gauge := { s.chip.gauge with time := l.sentAt + 125000 } } l 0x0011 (l.due.headD 0) (l.due.headD 0)
    have hnow := congrArg (fun x : Gauge => low32 x.time) htime
    rw [exec_garmentAnswerTimeout, execGarmentAnswerTimeout, hrun]
    generalize Chip.refuseGarment { s.chip with gauge := { s.chip.gauge with time := l.sentAt + 125000 } } l 0x0011 (l.due.headD 0) (l.due.headD 0) = d at *
    have hlo : d.nowLo = Chip.nowLo { s.chip with gauge := { s.chip.gauge with time := l.sentAt + 125000 } } := hnow
    refine ⟨_, rfl, htime, hleads, htickets, hrefused, hmarkers, hsent, ?_, rfl⟩
    dsimp only
    rw [hlo]
    exact hanswer
  case expired =>
    have hgauge : s.chip.gauge.advance h.expires = { s.chip.gauge with time := h.expires } := Gauge.advance_of_le hle hlt
    have hadvance : s.chip.advance h.expires = { s.chip with gauge := { s.chip.gauge with time := h.expires } } :=
      congrArg (fun x => { s.chip with gauge := x }) hgauge
    obtain ⟨q, p, x, e, hrelease⟩ := Chip.releaseMarkers_frame { s.chip with gauge := { s.chip.gauge with time := h.expires } } h.ticket.markers
    have hmarker (m : Nat) := Chip.marker_releaseMarkers { s.chip with gauge := { s.chip.gauge with time := h.expires } } h.ticket.markers m
    have hrun : s.chip.holdExpire g = { Chip.releaseMarkers { s.chip with gauge := { s.chip.gauge with time := h.expires } } h.ticket.markers with
        cast := { s.chip.cast with holds := s.chip.cast.holds.erase h } } := by
      rw [Chip.holdExpire, hh]
      dsimp only
      rw [hadvance, Chip.dropHold, hrelease]
    rw [exec_garmentHoldExpire, execGarmentHoldExpire, hrun]
    rw [hrelease] at hmarker ⊢
    exact ⟨_, rfl, rfl, rfl, fun m hm => (hmarker m).trans (if_pos hm), fun m hm => (hmarker m).trans (if_neg hm), rfl⟩

end Sys2Proof.Machine
end

section
/-!
A COMMIT carries the low 32 bits of its ticket's number (family 14): a state in which the two differ.
-/
namespace Sys2Proof.Machine

/-- A decision on garment 9 for which module 2 alone has still to answer. -/
def lastAsked : GarmentLead :=
  { garment := 9, fn := 0, reqTag := 0, respAddr := 0, sentAt := 0, asked := [2], due := [2], price := 0, ticket := hopTicket 9 0 [] }
/-- A lead whose next ticket number does not fit in 32 bits. -/
def leadBeyond : State :=
  { chip := { rnd := { east := { state := .up }, slipped := false, ready := true }, cast := { lastTicket := 4294967296, leads := [lastAsked] } }, mem := [], pending := [] }
/-- An ANSWER of module 2 for garment 9, with a header check that holds. -/
def answerOk : RFrame :=
  let f := newFrame 2 2 .control 0 5 0 0 0 9 false false (ctlPayload 5 (leBytes 2 0))
  { f with hcrc := crc16 f.header }

/-- The numbers of the tickets in the messages that wait for module 2's acknowledgement. -/
def State.numbersSent (s : State) : List Nat := (s.chip.rnd.eseqOf 2).unacked.map (fun x => x.2.1.ticket)
/-- What a command's next state has sent. -/
def outcomeNumbers : Host.Outcome State Fault Refusal → List Nat
  | .next s => s.numbersSent
  | _ => []

theorem answerOk_arrives : Safety.Arrives leadBeyond.chip .east answerOk 0x0005 := by
  refine ⟨?_, ?_, ?_, ?_, ?_, ?_⟩ <;> decide +kernel

/-- The COMMIT that this ANSWER lets go names ticket 1, not 2³² + 1. -/
theorem numbers_of_answer : outcomeNumbers (exec (.answer .east answerOk) leadBeyond) = [1] := by decide +kernel

/-- The gap's clock set at a message's end leaves the messages that wait for their MSG_ACK. -/
theorem Safety.numbersSent_controlEnd (k : Nat) (u : State) : (Safety.controlEnd k u).numbersSent = u.numbersSent := by
  unfold State.numbersSent
  refine congrArg (List.map _) ?_
  by_cases hk : 2 = k
  · subst hk
    exact (congrArg Eseq.unacked (Tbl.get_upd_same {} u.chip.rnd.eseq 2 (fun q => q.watch u.chip.now true)) :)
  · exact (congrArg Eseq.unacked (Tbl.get_upd_other {} u.chip.rnd.eseq (fun q => q.watch u.chip.now true) hk) :)

/-- Refutes O48: the COMMIT's TICKET field has 32 bits, so the message for a ticket number of 2³² + 1 carries 1. -/
theorem not_garmentMessagesAct : ¬ Obligations.GarmentMessagesAct := by
  unfold Obligations.GarmentMessagesAct
  intro h
  obtain ⟨-, -, -, -, hanswer⟩ := h leadBeyond .east answerOk
  obtain ⟨u, hrun, -, hlead, -⟩ := hanswer answerOk_arrives
  obtain ⟨-, -, hlast, -⟩ := hlead lastAsked (by decide +kernel)
  obtain ⟨-, -, -, hsent, -⟩ := hlast (by decide +kernel) (by decide +kernel) (by decide +kernel)
  have hmem : 4294967297 ∈ u.numbersSent := List.mem_map_of_mem (f := fun x : Nat × RFrame × Nat => x.2.1.ticket) (hsent 2 (by decide) (by decide +kernel))
  have hnumbers := numbers_of_answer
  rw [hrun] at hnumbers
  rw [← Safety.numbersSent_controlEnd answerOk.src u, show (Safety.controlEnd answerOk.src u).numbersSent = [1] from hnumbers] at hmem
  exact absurd hmem (by decide)

end Sys2Proof.Machine
end

section
/-!
The memory traffic of needles (R144 to R151) and the steps of a needle's sequencer (R97, R138 to R140), family 14.
-/
namespace Sys2Proof.Machine

/-! ### Traffic -/

/-- Chip `d` is `c` after memory traffic: the panels' regulators and caches, HBM and the Round have moved, no panel's count of weights swapped. -/
def Chip.Traffic (c d : Chip) : Prop :=
  (∃ l h r, d = { c with pnl := l, hbm := h, rnd := r }) ∧ ∀ p, (d.panel p).swap = (c.panel p).swap ∧ (d.panel p).swapRest = (c.panel p).swapRest

theorem Chip.Traffic.refl (c : Chip) : c.Traffic c := ⟨⟨c.pnl, c.hbm, c.rnd, rfl⟩, fun _ => ⟨rfl, rfl⟩⟩

theorem Chip.Traffic.trans {c d e : Chip} (h : c.Traffic d) (k : d.Traffic e) : c.Traffic e := by
  obtain ⟨⟨l, m, r, hd⟩, hp⟩ := h
  obtain ⟨⟨l', m', r', he⟩, hq⟩ := k
  exact ⟨⟨l', m', r', by rw [he, hd]⟩, fun p => ⟨(hq p).1.trans (hp p).1, (hq p).2.trans (hp p).2⟩⟩

theorem Chip.Traffic.foldl {α : Type} {f : Chip → α → Chip} (hf : ∀ (c : Chip) (a : α), c.Traffic (f c a)) (l : List α) (c : Chip) : c.Traffic (l.foldl f c) :=
  List.foldlRecOn l f (Chip.Traffic.refl c) fun d hd a _ => hd.trans (hf d a)

theorem Chip.panel_updPanel (c : Chip) (p q : Nat) (f : Panel → Panel) : (c.updPanel p f).panel q = if q = p then f (c.panel p) else c.panel q := by
  by_cases h : q = p
  · subst h
    rw [if_pos rfl]
    exact Tbl.get_upd_same _ _ _ _
  · rw [if_neg h]
    exact Tbl.get_upd_other _ _ _ h

/-- Traffic that changes one panel but for its count of weights swapped. -/
theorem Chip.Traffic.updPanel (c : Chip) (p : Nat) {f : Panel → Panel} (hf : ∀ x, (f x).swap = x.swap ∧ (f x).swapRest = x.swapRest) :
    c.Traffic (c.updPanel p f) := by
  refine ⟨⟨_, c.hbm, c.rnd, rfl⟩, fun q => ?_⟩
  rw [Chip.panel_updPanel]
  split
  next h => subst h; exact hf _
  next => exact ⟨rfl, rfl⟩

/-- Traffic that leaves the panels. -/
theorem Chip.Traffic.of_panels {c d : Chip} (h : ∃ l m r, d = { c with pnl := l, hbm := m, rnd := r }) (hp : d.pnl.panels = c.pnl.panels) : c.Traffic d := by
  refine ⟨h, fun p => ?_⟩
  have hpanel : d.panel p = c.panel p := congrArg (fun t => Tbl.get ({} : Panel) t p) hp
  rw [hpanel]
  exact ⟨rfl, rfl⟩

theorem Panel.chunk_swap (x : Panel) (k : Chunk) : (x.chunk k).swap = x.swap ∧ (x.chunk k).swapRest = x.swapRest := by
  unfold Panel.chunk
  split
  next g _ => cases g <;> exact ⟨rfl, rfl⟩
  next => exact ⟨rfl, rfl⟩

theorem Chip.charge_traffic (c : Chip) (panel res bytes : Nat) (guar : Bool) (own : Option (Nat × Nat)) : c.Traffic (c.charge panel res bytes guar own) :=
  Chip.Traffic.updPanel c panel fun x => List.foldlRecOn (motive := fun y : Panel => y.swap = x.swap ∧ y.swapRest = x.swapRest) _ Panel.chunk ⟨rfl, rfl⟩
    fun y hy k _ => ⟨(y.chunk_swap k).1.trans hy.1, (y.chunk_swap k).2.trans hy.2⟩

theorem Chip.hbmRead_traffic (c : Chip) (r : Range) : c.Traffic (c.hbmRead r) := Chip.Traffic.of_panels ⟨c.pnl, _, c.rnd, rfl⟩ rfl

theorem Chip.sharedLine_traffic (c : Chip) (p x : Nat) : c.Traffic (c.sharedLine p x) := by
  refine ⟨⟨_, _, c.rnd, rfl⟩, fun q => ?_⟩
  cases h : c.pnl.shc.contains (x, p) with
  | false =>
    have hpanel : (c.sharedLine p x).panel q = c.panel q := by
      unfold Chip.sharedLine Chip.panel
      rw [h]
      rfl
    rw [hpanel]
    exact ⟨rfl, rfl⟩
  | true =>
    have hpanel : (c.sharedLine p x).panel q = (c.updPanel p (fun y => { y with shcHit := y.shcHit.inc })).panel q := by
      unfold Chip.sharedLine Chip.panel
      rw [h]
      rfl
    rw [hpanel]
    exact (Chip.Traffic.updPanel c p (f := fun y => { y with shcHit := y.shcHit.inc }) fun _ => ⟨rfl, rfl⟩).2 q

theorem Chip.startFill_traffic (c : Chip) (f : Fill) : c.Traffic (c.startFill f) :=
  (c.charge_traffic f.panel _ blockBytes f.guar (some (128, f.block))).trans (Chip.Traffic.of_panels ⟨_, _, _, rfl⟩ rfl)

theorem Chip.miss_traffic (c : Chip) (panel b : Nat) (r : Range) (guar : Bool) (remote : Option Nat) (own : Option (Nat × Nat)) :
    c.Traffic (c.miss panel b r guar remote own) := by
  unfold Chip.miss
  extract_lets full out
  clear_value out full
  split
  next => exact (c.charge_traffic _ _ _ _ _).trans (Chip.hbmRead_traffic _ _)
  next => exact Chip.Traffic.trans (Chip.Traffic.of_panels ⟨_, c.hbm, c.rnd, rfl⟩ rfl) (Chip.startFill_traffic _ _)

theorem Chip.readBlock_traffic (c : Chip) (panel : Nat) (r : Range) (guar : Bool) (remote : Option Nat) (own : Option (Nat × Nat)) :
    c.Traffic (c.readBlock panel r guar remote own) := by
  have hcharge := c.charge_traffic panel resYoke r.2 guar own
  unfold Chip.readBlock
  dsimp only
  generalize c.charge panel resYoke r.2 guar own = d at hcharge
  split
  next => exact hcharge.trans (Chip.Traffic.of_panels ⟨_, d.hbm, d.rnd, rfl⟩ rfl)
  next =>
    split
    next => exact hcharge.trans (Chip.Traffic.of_panels ⟨_, d.hbm, d.rnd, rfl⟩ rfl)
    next =>
      have hmiss : c.Traffic { d with pnl := { d.pnl with miss := d.pnl.miss.inc } } := hcharge.trans (Chip.Traffic.of_panels ⟨_, d.hbm, d.rnd, rfl⟩ rfl)
      split
      next => exact hmiss
      next => exact hmiss.trans (Chip.miss_traffic _ _ _ _ _ _ _)

theorem Chip.hbmBlockRead_traffic (c : Chip) (panel : Nat) (r : Range) (guar : Bool) (own : Option (Nat × Nat)) :
    c.Traffic (c.hbmBlockRead panel r guar own) := by
  unfold Chip.hbmBlockRead
  split
  next => exact Chip.readBlock_traffic _ _ _ _ _ _
  next =>
    dsimp only
    split
    next => exact (c.charge_traffic _ _ _ _ _).trans (Chip.Traffic.foldl (fun d x => d.sharedLine_traffic panel x) _ _)
    next => exact (c.charge_traffic _ _ _ _ _).trans (Chip.hbmRead_traffic _ _)

theorem Chip.needleRead_traffic (c : Chip) (panel : Nat) (r : Range) (guar : Bool) (own : Option (Nat × Nat)) : c.Traffic (c.needleRead panel r guar own) := by
  unfold Chip.needleRead
  split
  next => exact Chip.Traffic.foldl (fun d b => d.hbmBlockRead_traffic panel b guar own) _ _
  next =>
    split
    next => exact Chip.charge_traffic _ _ _ _ _ _
    next => exact Chip.Traffic.refl c

theorem Chip.dmaTraffic_traffic (c : Chip) (n : Nat) (guar : Bool) (ds : List Dma) : c.Traffic (c.dmaTraffic n guar ds) := by
  unfold Chip.dmaTraffic
  split
  next => exact Chip.Traffic.refl c
  next =>
    refine Chip.Traffic.foldl (fun d x => Chip.Traffic.foldl (fun e r => ?_) _ _) _ _
    split
    next => exact Chip.needleRead_traffic _ _ _ _ _
    next => exact Chip.charge_traffic _ _ _ _ _ _

/-! ### A needle with no descriptor or one waiting -/

theorem Needle.contexts_one {x : Needle} {w : TodWait} (h : x.waiting = [w]) : x.contexts = [(todOf w.tod).ctx] := by
  rw [Needle.contexts, h]
  rfl

theorem Needle.headOf_one {x : Needle} {w : TodWait} (h : x.waiting = [w]) : x.headOf (todOf w.tod).ctx = some w := by
  rw [Needle.headOf, h]
  simp

theorem Needle.headOf_nil {x : Needle} (h : x.waiting = []) (k : Nat) : x.headOf k = none := by
  rw [Needle.headOf, h]
  rfl

theorem Needle.mem_of_headOf {x : Needle} {k : Nat} {w : TodWait} (h : x.headOf k = some w) : w ∈ x.waiting ∧ (todOf w.tod).ctx = k :=
  ⟨List.mem_of_find?_eq_some h, beq_iff_eq.mp (List.find?_some (p := fun w : TodWait => (todOf w.tod).ctx == k) h)⟩

theorem Chip.passHead_of_nothing_passed {c : Chip} {n : Nat}
    (h : ∀ v ∈ (c.needle n).waiting, c.passed (todOf v.tod).ctx (c.todFrame n (todOf v.tod)) = false) : c.passHead n = none := by
  have hnone : ((c.needle n).contexts.filterMap (c.needle n).headOf).find? (fun w => c.passed (todOf w.tod).ctx (c.todFrame n (todOf w.tod))) = none := by
    rw [List.find?_eq_none]
    intro v hv
    obtain ⟨k, -, hk⟩ := List.mem_filterMap.mp hv
    rw [h v (Needle.mem_of_headOf hk).1]
    exact Bool.false_ne_true
  rw [Chip.passHead, hnone]
  rfl

theorem Chip.passHead_of_passed {c : Chip} {n : Nat} {w : TodWait} (hw : (c.needle n).waiting = [w])
    (h : c.passed (todOf w.tod).ctx (c.todFrame n (todOf w.tod)) = true) :
    c.passHead n = some (c.updNeedle n (fun x => x.passOver w (c.todFrame n (todOf w.tod)))) := by
  rw [Chip.passHead, Needle.contexts_one hw, List.filterMap_cons, Needle.headOf_one hw]
  dsimp only
  rw [List.find?_cons, h]
  rfl

/-- The context of the one descriptor that waits, if its band is ready. -/
theorem Chip.readyBands_one {c : Chip} {n : Nat} {w : TodWait} (hw : (c.needle n).waiting = [w]) : c.readyBands n =
    if c.fencedCtx n (todOf w.tod).ctx = false ∧ c.waitMet (todOf w.tod) = true then [(todOf w.tod).ctx] else [] := by
  rw [Chip.readyBands, Needle.contexts_one hw, List.filter_cons, Needle.headOf_one hw]
  simp

theorem Chip.nextBand_of_ready {c : Chip} {n k : Nat} (h : c.readyBands n = [k]) : c.nextBand n = some k := by
  rw [Chip.nextBand, h, List.filter_cons]
  cases c.ctxGuaranteed k <;> rfl

theorem Chip.nextBand_of_none {c : Chip} {n : Nat} (h : c.readyBands n = []) : c.nextBand n = none := by
  rw [Chip.nextBand, h]
  rfl

theorem Chip.issueHead_of_unmet {c : Chip} {w : TodWait} (h : c.waitMet (todOf w.tod) = false) (m : Mem) (n : Nat) : c.issueHead m n w = none := by
  rw [Chip.issueHead, h]

theorem Chip.dispatch_of_swap {c : Chip} {n : Nat} (h : (c.needle n).swap ≠ none) (m : Mem) : c.dispatch m n = none := by
  obtain ⟨k, hk⟩ := Option.ne_none_iff_exists'.mp h
  rw [Chip.dispatch, hk]

theorem Chip.dispatch_of_idle {c : Chip} {n : Nat} (h : (c.needle n).waiting = []) (m : Mem) : c.dispatch m n = none := by
  have hready : c.readyBands n = [] := by
    rw [Chip.readyBands, Needle.contexts, h]
    rfl
  rw [Chip.dispatch]
  split
  next => rfl
  next k _ _ =>
    rw [Needle.headOf_nil h]
    split <;> rfl
  next => rw [Chip.nextBand_of_none hready]

theorem Chip.dispatch_of_unmet {c : Chip} {n : Nat} {w : TodWait} (hw : (c.needle n).waiting = [w]) (h : c.waitMet (todOf w.tod) = false) (m : Mem) :
    c.dispatch m n = none := by
  have hready : c.readyBands n = [] := by
    rw [Chip.readyBands_one hw, h]
    exact if_neg fun hh => Bool.false_ne_true hh.2
  rw [Chip.dispatch]
  split
  next => rfl
  next k _ _ =>
    split
    next => rfl
    next =>
      cases hhead : (c.needle n).headOf k with
      | none => rfl
      | some v =>
        have hv := (Needle.mem_of_headOf hhead).1
        rw [hw, List.mem_singleton] at hv
        subst hv
        exact Chip.issueHead_of_unmet h m n
  next => rw [Chip.nextBand_of_none hready]

/-! ### The sequencer's run -/

theorem Chip.pumpN_of_stuck {c : Chip} {m : Mem} {n : Nat} (h : c.pumpOne m n = none) (k : Nat) : Chip.pumpN m n k c = c := by
  cases k with
  | zero => rfl
  | succ k => rw [Chip.pumpN, h]

theorem Chip.pumpN_of_step {c d : Chip} {m : Mem} {n : Nat} (h : c.pumpOne m n = some d) (k : Nat) : Chip.pumpN m n (k + 1) c = Chip.pumpN m n k d := by
  rw [Chip.pumpN, h]

theorem Chip.pumpOne_of_dispatch {c : Chip} {n : Nat}
    (h : ∀ v ∈ (c.needle n).waiting, c.passed (todOf v.tod).ctx (c.todFrame n (todOf v.tod)) = false) (m : Mem) : c.pumpOne m n = c.dispatch m n := by
  rw [Chip.pumpOne, Chip.passHead_of_nothing_passed h]

theorem Chip.pumpOne_of_idle {c : Chip} {n : Nat} (h : (c.needle n).waiting = []) (m : Mem) : c.pumpOne m n = none := by
  have hnone : ∀ v ∈ (c.needle n).waiting, c.passed (todOf v.tod).ctx (c.todFrame n (todOf v.tod)) = false := by
    rw [h]
    exact fun v hv => absurd hv List.not_mem_nil
  rw [Chip.pumpOne_of_dispatch hnone, Chip.dispatch_of_idle h]

/-- Contexts that wait after the sequencer's run. -/
def Chip.waitsSince (c : Chip) (n : Nat) : List (Nat × Nat) :=
  ((c.needle n).contexts.filter (fun k => match (c.needle n).headOf k with | some w => !c.waitMet (todOf w.tod) | none => false)).map
    (fun k => (k, ((c.needle n).since.lookup k).getD c.now))

theorem Chip.noteWaits_eq (c : Chip) (n : Nat) : ∃ f : Needle → Needle, c.noteWaits n = c.updNeedle n f ∧ f (c.needle n) = { c.needle n with since := c.waitsSince n } :=
  ⟨_, rfl, rfl⟩

theorem Chip.needle_noteWaits_same (c : Chip) (n : Nat) : (c.noteWaits n).needle n = { c.needle n with since := c.waitsSince n } := by
  obtain ⟨f, hf, hsame⟩ := c.noteWaits_eq n
  rw [hf, Chip.needle_updNeedle_same, hsame]

theorem Chip.needle_noteWaits_other (c : Chip) {n j : Nat} (h : j ≠ n) : (c.noteWaits n).needle j = c.needle j := Chip.needle_updNeedle_other _ _ h

theorem Chip.waitsSince_nil {c : Chip} {n : Nat} (h : (c.needle n).waiting = []) : c.waitsSince n = [] := by
  rw [Chip.waitsSince, Needle.contexts, h]
  rfl

theorem Chip.waitsSince_one {c : Chip} {n : Nat} {w : TodWait} (hw : (c.needle n).waiting = [w]) : c.waitsSince n =
    if c.waitMet (todOf w.tod) then [] else [((todOf w.tod).ctx, ((c.needle n).since.lookup (todOf w.tod).ctx).getD c.now)] := by
  rw [Chip.waitsSince, Needle.contexts_one hw, List.filter_cons, Needle.headOf_one hw]
  by_cases h : c.waitMet (todOf w.tod) = true <;> simp [h]

/-! ### The choice among ready bands -/

/-- The first of some elements by a rule under which what is not after is before or equal: nothing goes before it. -/
theorem foldl_first_spec {α : Type} {before : α → α → Bool} {le : α → α → Prop} (hrefl : ∀ a, le a a) (htrans : ∀ a b d, le a b → le b d → le a d)
    (hbefore : ∀ a b, before a b = true → le a b) (hnot : ∀ a b, before a b = false → le b a) (l : List α) (x : α) :
    l.foldl (fun a y => if before y a then y else a) x ∈ x :: l ∧ ∀ b ∈ x :: l, le (l.foldl (fun a y => if before y a then y else a) x) b := by
  induction l generalizing x with
  | nil => exact ⟨List.mem_cons_self, fun b hb => by rw [List.mem_singleton.mp hb]; exact hrefl x⟩
  | cons y l ih =>
    rw [List.foldl_cons]
    cases hyx : before y x with
    | true =>
      obtain ⟨hmem, hle⟩ := ih y
      rw [if_pos rfl]
      refine ⟨List.mem_cons_of_mem _ hmem, fun b hb => ?_⟩
      obtain rfl | hb := List.mem_cons.mp hb
      · exact htrans _ _ _ (hle y List.mem_cons_self) (hbefore _ _ hyx)
      · exact hle b hb
    | false =>
      obtain ⟨hmem, hle⟩ := ih x
      rw [if_neg Bool.false_ne_true]
      refine ⟨?_, fun b hb => ?_⟩
      · obtain h | h := List.mem_cons.mp hmem
        · rw [h]
          exact List.mem_cons_self
        · exact List.mem_cons_of_mem _ (List.mem_cons_of_mem _ h)
      · obtain rfl | hb := List.mem_cons.mp hb
        · exact hle _ List.mem_cons_self
        · obtain rfl | hb := List.mem_cons.mp hb
          · exact htrans _ _ _ (hle x List.mem_cons_self) (hnot _ _ hyx)
          · exact hle b (List.mem_cons_of_mem _ hb)

theorem pickFirst_spec {before : Nat → Nat → Bool} {le : Nat → Nat → Prop} (hrefl : ∀ a, le a a) (htrans : ∀ a b d, le a b → le b d → le a d)
    (hbefore : ∀ a b, before a b = true → le a b) (hnot : ∀ a b, before a b = false → le b a) {l : List Nat} (hl : l ≠ []) :
    ∃ a, pickFirst before l = some a ∧ a ∈ l ∧ ∀ b ∈ l, le a b := by
  obtain ⟨x, l, rfl⟩ := List.exists_cons_of_ne_nil hl
  obtain ⟨hmem, hle⟩ := foldl_first_spec hrefl htrans hbefore hnot l x
  exact ⟨_, rfl, hmem, hle⟩

/-- Guaranteed band `a` goes before `b` or with it: by sub-deadline, then ticket, then context (R139). -/
def Chip.bandFirst (c : Chip) (n a b : Nat) : Prop :=
  c.bandDeadline n a < c.bandDeadline n b ∨ (c.bandDeadline n a = c.bandDeadline n b ∧ (c.ctxTicketId a < c.ctxTicketId b ∨
    (c.ctxTicketId a = c.ctxTicketId b ∧ a ≤ b)))

theorem Chip.bandFirst_of_before {c : Chip} {n a b : Nat} : (c.bandBefore n a b = true → c.bandFirst n a b) ∧ (c.bandBefore n a b = false → c.bandFirst n b a) := by
  unfold Chip.bandBefore Chip.bandFirst
  dsimp only
  by_cases hdeadline : c.bandDeadline n a = c.bandDeadline n b
  · rw [if_pos hdeadline]
    by_cases hticket : c.ctxTicketId a = c.ctxTicketId b
    · rw [if_pos hticket, decide_eq_true_eq, decide_eq_false_iff_not]
      omega
    · rw [if_neg hticket, decide_eq_true_eq, decide_eq_false_iff_not]
      omega
  · rw [if_neg hdeadline, decide_eq_true_eq, decide_eq_false_iff_not]
    omega

/-- Of the guaranteed ready bands the next one goes before every other or with it. -/
theorem Chip.nextBand_guaranteed {c : Chip} {n : Nat} (h : (c.readyBands n).filter c.ctxGuaranteed ≠ []) :
    ∃ a, c.nextBand n = some a ∧ a ∈ c.readyBands n ∧ c.ctxGuaranteed a = true ∧ ∀ b ∈ c.readyBands n, c.ctxGuaranteed b = true → c.bandFirst n a b := by
  obtain ⟨a, hpick, hmem, hle⟩ := pickFirst_spec (before := c.bandBefore n) (le := c.bandFirst n) (fun a => by unfold Chip.bandFirst; omega)
    (fun a b d => by unfold Chip.bandFirst; omega) (fun _ _ => Chip.bandFirst_of_before.1) (fun _ _ => Chip.bandFirst_of_before.2) h
  obtain ⟨hready, hguar⟩ := List.mem_filter.mp hmem
  refine ⟨a, ?_, hready, hguar, fun b hb hg => hle b (List.mem_filter.mpr ⟨hb, hg⟩)⟩
  rw [Chip.nextBand, hpick]

end Sys2Proof.Machine
end

section
/-!
Tile-operation descriptors (R97, R100, R107, R112, R138 to R140), family 14: what a descriptor that reaches a needle comes to.
-/
namespace Sys2Proof.Machine

/-! ### A descriptor reaches a needle -/

/-- A descriptor as it waits: one of another opcode than its command's is taken as a reserved code. -/
def todWait (op seq : Nat) (tod : List Byte) : TodWait := { seq := seq % 4294967296, tod := if le tod 0 1 = op then tod else 0 :: tod.drop 1 }

/-- A needle with one more descriptor waiting. -/
def Needle.queued (x : Needle) (w : TodWait) : Needle := { x with waiting := x.waiting ++ [w] }

/-- The chip with a descriptor waiting at a needle. -/
def Chip.arrived (c : Chip) (n : Nat) (w : TodWait) : Chip := c.updNeedle n (fun x => x.queued w)

theorem Chip.needle_arrived_same (c : Chip) (n : Nat) (w : TodWait) : (c.arrived n w).needle n = (c.needle n).queued w :=
  c.needle_updNeedle_same n fun x => x.queued w

theorem Chip.needle_arrived_other (c : Chip) {n j : Nat} (w : TodWait) (h : j ≠ n) : (c.arrived n w).needle j = c.needle j :=
  c.needle_updNeedle_other _ h

theorem Chip.todFrame_arrived (c : Chip) (n : Nat) (w : TodWait) (t : Tod) : (c.arrived n w).todFrame n t = c.todFrame n t := by
  unfold Chip.todFrame
  rw [Chip.needle_arrived_same]
  rfl

theorem Chip.takeTod_of_out {c : Chip} {n : Nat} (h : (c.needle n).panel = none ∨ (c.needle n).retired = true) (m : Mem) (op seq : Nat) (tod : List Byte) :
    c.takeTod m op n seq tod = c := if_pos (h.imp_left fun hp => by rw [hp]; rfl)

theorem Chip.takeTod_of_in {c : Chip} {n : Nat} (hp : (c.needle n).panel ≠ none) (hr : (c.needle n).retired = false) (m : Mem) (op seq : Nat)
    (tod : List Byte) : c.takeTod m op n seq tod = (c.arrived n (todWait op seq tod)).pump m n := by
  have hcond : ¬ ((c.needle n).panel.isNone ∨ (c.needle n).retired = true) := by
    rw [Option.isNone_iff_eq_none, hr]
    exact fun h => h.elim hp Bool.false_ne_true
  exact if_neg hcond

/-- Each tile-operation command hands its descriptor to the needle with the opcode that is its own. -/
theorem exec_tod (s : State) (n seq : Nat) (tod : List Byte) : ∀ e ∈ [(1, Instr.matmul n seq tod), (2, .conv n seq tod), (3, .dwconv n seq tod),
    (4, .pool n seq tod), (5, .eltwise n seq tod), (6, .norm n seq tod), (7, .softmax n seq tod), (8, .gather n seq tod),
    (9, .scatter n seq tod), (10, .argmax n seq tod), (11, .s2d n seq tod), (12, .marub n seq tod), (13, .sync n seq tod)],
    exec e.2 s = .next { s with chip := s.chip.takeTod s.mem e.1 n seq tod } := by
  simp only [List.forall_mem_cons, List.not_mem_nil, false_imp_iff, implies_true, and_true]
  exact ⟨rfl, rfl, rfl, rfl, rfl, rfl, rfl, rfl, rfl, rfl, rfl, rfl, rfl⟩

/-! ### It waits -/

/-- A needle whose sequencer cannot move only notes what waits. -/
theorem Chip.pump_of_stuck {c : Chip} {m : Mem} {n : Nat} (h : c.pumpOne m n = none) : c.pump m n = c.noteWaits n := by
  rw [Chip.pump, Chip.pumpN_of_stuck h]

/-- Weights are being swapped in and nothing waiting is passed over, or the one descriptor's WAIT is not met. -/
def Chip.holdsBack (c : Chip) (n : Nat) (w : TodWait) : Prop :=
  ((c.needle n).swap ≠ none ∧ ∀ v ∈ (c.needle n).waiting ++ [w], c.passed (todOf v.tod).ctx (c.todFrame n (todOf v.tod)) = false) ∨
  ((c.needle n).waiting = [] ∧ c.passed (todOf w.tod).ctx (c.todFrame n (todOf w.tod)) = false ∧ c.waitMet (todOf w.tod) = false)

theorem Chip.pumpOne_of_holdsBack {c : Chip} {n : Nat} {w : TodWait} (h : c.holdsBack n w) (m : Mem) : (c.arrived n w).pumpOne m n = none := by
  have hwaiting : ((c.arrived n w).needle n).waiting = (c.needle n).waiting ++ [w] := by rw [Chip.needle_arrived_same]; rfl
  have hpass (hno : ∀ v ∈ (c.needle n).waiting ++ [w], c.passed (todOf v.tod).ctx (c.todFrame n (todOf v.tod)) = false) :
      ∀ v ∈ ((c.arrived n w).needle n).waiting, (c.arrived n w).passed (todOf v.tod).ctx ((c.arrived n w).todFrame n (todOf v.tod)) = false := by
    rw [hwaiting]
    intro v hv
    rw [Chip.todFrame_arrived]
    exact hno v hv
  obtain ⟨hswap, hno⟩ | ⟨hempty, hno, hunmet⟩ := h
  · rw [Chip.pumpOne_of_dispatch (hpass hno)]
    exact Chip.dispatch_of_swap (by rw [Chip.needle_arrived_same]; exact hswap) m
  · rw [hempty] at hwaiting hpass
    rw [Chip.pumpOne_of_dispatch (hpass fun v hv => by rw [List.mem_singleton.mp hv]; exact hno)]
    exact Chip.dispatch_of_unmet hwaiting hunmet m

/-- One descriptor waits at a needle that had none. -/
theorem Chip.waiting_arrived {c : Chip} {n : Nat} (h : (c.needle n).waiting = []) (w : TodWait) : ((c.arrived n w).needle n).waiting = [w] := by
  rw [Chip.needle_arrived_same]
  exact congrArg (fun l => l ++ [w]) h

theorem Chip.pump_arrived {c : Chip} {n : Nat} (h : (c.needle n).waiting = []) (w : TodWait) (m : Mem) :
    (c.arrived n w).pump m n = (Chip.pumpN m n 5 (c.arrived n w)).noteWaits n := by
  rw [Chip.pump, Chip.waiting_arrived h]
  rfl

/-! ### It is passed over -/

theorem Needle.passOver_queued {x : Needle} (h : x.waiting = []) (w : TodWait) (frame : Option Nat) : (x.queued w).passOver w frame = x.passOver w frame := by
  unfold Needle.passOver Needle.queued
  rw [h]
  simp

/-- The chip on which a descriptor that its stage passes over has gone. -/
def Chip.passedOver (c : Chip) (n : Nat) (w : TodWait) : Chip :=
  (c.arrived n w).updNeedle n (fun x => x.passOver w ((c.arrived n w).todFrame n (todOf w.tod)))

theorem Chip.needle_passedOver {c : Chip} {n : Nat} (h : (c.needle n).waiting = []) (w : TodWait) :
    (c.passedOver n w).needle n = (c.needle n).passOver w (c.todFrame n (todOf w.tod)) ∧ ((c.passedOver n w).needle n).waiting = [] := by
  have hneedle : (c.passedOver n w).needle n = (c.needle n).passOver w (c.todFrame n (todOf w.tod)) := by
    rw [Chip.passedOver, Chip.needle_updNeedle_same, Chip.needle_arrived_same, Chip.todFrame_arrived, Needle.passOver_queued h]
  refine ⟨hneedle, ?_⟩
  rw [hneedle]
  exact (congrArg (fun l => List.erase l w) h).trans rfl

theorem Chip.pump_of_passed {c : Chip} {n : Nat} {w : TodWait} (h : (c.needle n).waiting = [])
    (hgone : c.passed (todOf w.tod).ctx (c.todFrame n (todOf w.tod)) = true) (m : Mem) : (c.arrived n w).pump m n = (c.passedOver n w).noteWaits n := by
  have hpass : (c.arrived n w).passHead n = some (c.passedOver n w) :=
    Chip.passHead_of_passed (Chip.waiting_arrived h w) (by rw [Chip.todFrame_arrived]; exact hgone)
  have hone : (c.arrived n w).pumpOne m n = some (c.passedOver n w) := by rw [Chip.pumpOne, hpass]
  rw [Chip.pump_arrived h, Chip.pumpN_of_step hone, Chip.pumpN_of_stuck (Chip.pumpOne_of_idle (Chip.needle_passedOver h w).2 m)]

/-! ### Its weights are swapped in -/

/-- Nothing that waits at a needle is passed over, where its one descriptor is not. -/
theorem Chip.none_passed {c : Chip} {n : Nat} {w : TodWait} (hw : (c.needle n).waiting = [w])
    (h : c.passed (todOf w.tod).ctx (c.todFrame n (todOf w.tod)) = false) :
    ∀ v ∈ (c.needle n).waiting, c.passed (todOf v.tod).ctx (c.todFrame n (todOf v.tod)) = false := by
  rw [hw]
  intro v hv
  rw [List.mem_singleton.mp hv]
  exact h

/-- A swap's start: the needle's record, memory traffic, and the bytes counted for its panel. -/
theorem Chip.startSwap_spec {c : Chip} {n p : Nat} (hp : (c.needle n).panel = some p) (ctx : Nat) (k : Swap) :
    (∃ l h r, c.startSwap n ctx k = { c.updNeedle n (fun x => { x with swap := some k, weights := none }) with pnl := l, hbm := h, rnd := r }) ∧
    ((c.startSwap n ctx k).panel p).swap = (c.panel p).swap.add (((c.panel p).swapRest + k.bytes) / 1024) := by
  have htraffic := Chip.Traffic.foldl (fun (e : Chip) (r : Range) =>
    e.readBlock_traffic p r (c.ctxGuaranteed ctx) ((e.segmentAt r.1).bind (fun g => g.2.remote)) (some (64 + n, 0)))
    (blocksOf (k.src, k.bytes)) (c.updNeedle n (fun x => { x with swap := some k, weights := none }))
  have hrun : c.startSwap n ctx k = Chip.updPanel ((blocksOf (k.src, k.bytes)).foldl (fun e r =>
      e.readBlock p r (c.ctxGuaranteed ctx) ((e.segmentAt r.1).bind (fun g => g.2.remote)) (some (64 + n, 0)))
      (c.updNeedle n (fun x => { x with swap := some k, weights := none }))) p
      (fun q => { q with swap := q.swap.add ((q.swapRest + k.bytes) / 1024), swapRest := (q.swapRest + k.bytes) % 1024 }) := by
    rw [Chip.startSwap, hp]
  generalize List.foldl _ _ (blocksOf (k.src, k.bytes)) = d at htraffic hrun
  obtain ⟨⟨l, h, r, hd⟩, hpanels⟩ := htraffic
  obtain ⟨hswap, hrest⟩ := hpanels p
  rw [hrun]
  refine ⟨⟨_, h, r, by rw [hd]; rfl⟩, ?_⟩
  rw [Chip.panel_updPanel, if_pos rfl]
  dsimp only
  rw [hswap, hrest]
  rfl

theorem Chip.needle_startSwap {c : Chip} {n p : Nat} (hp : (c.needle n).panel = some p) (ctx : Nat) (k : Swap) :
    (c.startSwap n ctx k).needle n = { c.needle n with swap := some k, weights := none } ∧ ∀ j, j ≠ n → (c.startSwap n ctx k).needle j = c.needle j := by
  obtain ⟨⟨l, h, r, hd⟩, -⟩ := Chip.startSwap_spec hp ctx k
  rw [hd]
  exact ⟨c.needle_updNeedle_same n _, fun j hj => c.needle_updNeedle_other _ hj⟩

/-- The sequencer of a needle whose one ready band needs other weights starts their swap and goes no further. -/
theorem Chip.pumpN_of_swap {c : Chip} {n p : Nat} {w : TodWait} {s : Swap} (hw : (c.needle n).waiting = [w]) (hp : (c.needle n).panel = some p)
    (hswap : (c.needle n).swap = none) (hband : (c.needle n).band = none) (hfence : c.fencedCtx n (todOf w.tod).ctx = false)
    (hpassed : c.passed (todOf w.tod).ctx (c.todFrame n (todOf w.tod)) = false) (hmet : c.waitMet (todOf w.tod) = true)
    (hs : c.ctxWeights n (todOf w.tod).ctx = some s) (hweights : (c.needle n).weights ≠ some s.key) (m : Mem) (k : Nat) :
    Chip.pumpN m n (k + 1) c = c.startSwap n (todOf w.tod).ctx s := by
  have hone : c.pumpOne m n = some (c.startSwap n (todOf w.tod).ctx s) := by
    rw [Chip.pumpOne_of_dispatch (Chip.none_passed hw hpassed), Chip.dispatch, hswap, hband,
      Chip.nextBand_of_ready ((Chip.readyBands_one hw).trans (if_pos ⟨hfence, hmet⟩))]
    dsimp only
    rw [hs]
    exact if_neg hweights
  have hneedle := (Chip.needle_startSwap hp (todOf w.tod).ctx s).1
  have hnone : (c.startSwap n (todOf w.tod).ctx s).passed (todOf w.tod).ctx ((c.startSwap n (todOf w.tod).ctx s).todFrame n (todOf w.tod)) = false := by
    obtain ⟨⟨l, h, r, hd⟩, -⟩ := Chip.startSwap_spec hp (todOf w.tod).ctx s
    unfold Chip.todFrame
    rw [hneedle, hd]
    exact hpassed
  rw [Chip.pumpN_of_step hone, Chip.pumpN_of_stuck]
  rw [Chip.pumpOne_of_dispatch (Chip.none_passed (by rw [hneedle]; exact hw) hnone)]
  exact Chip.dispatch_of_swap (by rw [hneedle]; exact Option.some_ne_none s) m

/-! ### It is issued -/

theorem Tbl.mem_of_mem_set {α : Type} {t : Tbl α} {k : Nat} {v : α} {y : Nat × α} (h : y ∈ Tbl.set t k v) (hk : y.1 ≠ k) : y ∈ t := by
  induction t with
  | nil =>
    rw [Tbl.set, List.mem_singleton] at h
    exact absurd (congrArg Prod.fst h) hk
  | cons e t ih =>
    obtain ⟨i, x⟩ := e
    have hne : y ≠ (k, v) := fun hh => hk (congrArg Prod.fst hh)
    rw [Tbl.set] at h
    split at h
    next => exact List.mem_cons_of_mem _ ((List.mem_cons.mp h).resolve_left hne)
    next =>
      split at h
      next => exact (List.mem_cons.mp h).resolve_left hne
      next => exact List.mem_cons.mpr ((List.mem_cons.mp h).imp_right ih)

/-- No operation in flight on another needle names an abs-max record. -/
def Chip.recordsFree (c : Chip) (n : Nat) : Prop := ∀ y ∈ c.ndl.tab, y.1 ≠ n → ∀ o ∈ y.2.ops, o.records = []

theorem Chip.recordsFree_updNeedle {c : Chip} {n : Nat} (h : c.recordsFree n) (f : Needle → Needle) : (c.updNeedle n f).recordsFree n :=
  fun y hy hn => h y (Tbl.mem_of_mem_set hy hn) hn

theorem Chip.recordBusy_of_recordsFree {c : Chip} {n : Nat} (h : c.recordsFree n) (o : OpRt) : c.recordBusy n o = false := by
  unfold Chip.recordBusy
  rw [List.any_eq_false]
  intro y hy hbusy
  rw [Bool.and_eq_true, bne_iff_ne, List.any_eq_true] at hbusy
  obtain ⟨hn, q, hq, hmeet⟩ := hbusy
  rw [h y hy hn q hq] at hmeet
  exact Bool.false_ne_true hmeet

/-- An idle needle in whose band one descriptor waits that may be issued. -/
structure Chip.Issues (c : Chip) (n : Nat) (w : TodWait) : Prop where
  waiting : (c.needle n).waiting = [w]
  ops : (c.needle n).ops = []
  tiles : (c.needle n).freeTiles ≠ 0
  spill : (c.needle n).spillTag = none
  swap : (c.needle n).swap = none
  band : (c.needle n).band = some (todOf w.tod).ctx
  unfenced : c.fencedCtx n (todOf w.tod).ctx = false
  marub : (todOf w.tod).opcode = 12 → c.engineHeld 148 (todOf w.tod).ctx = false
  unpassed : c.passed (todOf w.tod).ctx (c.todFrame n (todOf w.tod)) = false
  met : c.waitMet (todOf w.tod) = true
  records : c.recordsFree n

/-- Transfers that an operation issued with tag 0 starts with. -/
def Chip.firstDma (c : Chip) (m : Mem) (n : Nat) (w : TodWait) : List Dma :=
  if (c.opOf m n w 0).status = 0 then (c.opDma n (todOf w.tod) 0).map (Dma.begun c.now) else []

theorem Chip.mayIssue_of_issues {c : Chip} {n : Nat} {w : TodWait} (h : c.Issues n w) (o : OpRt) (fence : Bool) : c.mayIssue n o fence = true := by
  unfold Chip.mayIssue
  dsimp only
  rw [h.ops, h.spill, Chip.recordBusy_of_recordsFree h.records, bne_iff_ne.mpr h.tiles]
  simp

/-- The needle takes its one descriptor. -/
def Chip.taken (c : Chip) (m : Mem) (n : Nat) (w : TodWait) : Chip := c.updNeedle n (fun x => x.take w (c.opOf m n w 0) (c.firstDma m n w))

/-- The transfers' traffic of the descriptor taken. -/
def Chip.takenTraffic (c : Chip) (m : Mem) (n : Nat) (w : TodWait) : Chip :=
  (c.taken m n w).dmaTraffic n (c.ctxGuaranteed (todOf w.tod).ctx) (numberDma (c.needle n).dmaNext (c.firstDma m n w))

/-- Such a needle issues the descriptor with tag 0, with its transfers' traffic. -/
theorem Chip.issueHead_of_issues {c : Chip} {n : Nat} {w : TodWait} (h : c.Issues n w) (m : Mem) :
    ∃ l b r k, c.issueHead m n w = some { c.taken m n w with ndl := { (c.taken m n w).ndl with marub := k }, pnl := l, hbm := b, rnd := r } := by
  have htag : (c.needle n).freeTag = some 0 := by
    rw [Needle.freeTag, h.ops]
    rfl
  have hmarub : ((todOf w.tod).opcode == 12 && c.engineHeld 148 (todOf w.tod).ctx) = false := by
    rw [Bool.and_eq_false_imp, beq_iff_eq]
    exact h.marub
  have hissue : c.issueHead m n w = some { c.takenTraffic m n w with ndl := { (c.takenTraffic m n w).ndl with
      marub := if (todOf w.tod).opcode = 12 ∧ (c.opOf m n w 0).status = 0 then (c.takenTraffic m n w).ndl.marub ++ [(n, 0)]
        else (c.takenTraffic m n w).ndl.marub } } := by
    rw [Chip.issueHead, h.met, htag]
    dsimp only
    rw [Chip.mayIssue_of_issues h, hmarub]
    exact if_pos rfl
  obtain ⟨⟨l, b, r, he⟩, -⟩ := (c.taken m n w).dmaTraffic_traffic n (c.ctxGuaranteed (todOf w.tod).ctx)
    (numberDma (c.needle n).dmaNext (c.firstDma m n w))
  rw [hissue, show c.takenTraffic m n w = _ from he]
  exact ⟨l, b, r, _, rfl⟩

/-- The sequencer of such a needle issues the descriptor and has nothing more to do. -/
theorem Chip.pumpN_of_issues {c : Chip} {n : Nat} {w : TodWait} (h : c.Issues n w) (m : Mem) (k : Nat) :
    ∃ d, Chip.pumpN m n (k + 1) c = d ∧ (∃ t l b r, d = { c with ndl := t, pnl := l, hbm := b, rnd := r }) ∧
      d.needle n = (c.needle n).take w (c.opOf m n w 0) (c.firstDma m n w) ∧ (d.needle n).waiting = [] ∧ ∀ j, j ≠ n → d.needle j = c.needle j := by
  obtain ⟨l, b, r, marub, hissue⟩ := Chip.issueHead_of_issues h m
  have hhead : (c.needle n).headOf (todOf w.tod).ctx = some w := Needle.headOf_one h.waiting
  have hone := hissue
  rw [show c.issueHead m n w = c.pumpOne m n by
    rw [Chip.pumpOne_of_dispatch (Chip.none_passed h.waiting h.unpassed), Chip.dispatch, h.swap, h.band]
    dsimp only
    rw [h.unfenced, h.ops, hhead]
    rfl] at hone
  have hneedle := c.needle_updNeedle_same n (fun x => x.take w (c.opOf m n w 0) (c.firstDma m n w))
  have hwaiting : ((c.needle n).take w (c.opOf m n w 0) (c.firstDma m n w)).waiting = [] := by
    rw [Needle.take, h.waiting]
    simp
  refine ⟨_, (Chip.pumpN_of_step hone k).trans (Chip.pumpN_of_stuck (Chip.pumpOne_of_idle ?_ m) k), ⟨_, l, b, r, rfl⟩, hneedle, ?_, fun j hj => ?_⟩
  · exact (congrArg Needle.waiting hneedle).trans hwaiting
  · exact (congrArg Needle.waiting hneedle).trans hwaiting
  · exact c.needle_updNeedle_other (fun x => x.take w (c.opOf m n w 0) (c.firstDma m n w)) hj

/-- The status at issue is one of Table 5.6, and BAD_DESCRIPTOR where the fields are wrong. -/
theorem Chip.issueStatus_spec (c : Chip) (m : Mem) (n : Nat) (t : Tod) : c.issueStatus m n t ≤ 3 ∧ (t.badFields = true → c.issueStatus m n t = 3) := by
  unfold Chip.issueStatus Chip.todStatus
  split
  next => exact ⟨Nat.le_refl 3, fun _ => rfl⟩
  next =>
    refine ⟨?_, fun h => if_pos ?_⟩
    · split
      next => exact Nat.le_refl 3
      next =>
        split
        next => decide
        next => split <;> decide
    rw [Chip.badDescriptor, h]
    rfl

theorem Tod.badFields_of_opcode {t : Tod} (h : t.opcode = 0) : t.badFields = true := by
  unfold Tod.badFields Tod.badCommon
  rw [h]
  simp

/-- A descriptor of another opcode than its command's has a reserved one. -/
theorem badFields_todWait {op : Nat} {tod : List Byte} (h : le tod 0 1 ≠ op) (seq : Nat) : (todOf (todWait op seq tod).tod).badFields = true := by
  refine Tod.badFields_of_opcode ?_
  unfold todWait
  rw [if_neg h]
  rfl

theorem Chip.opOf_of_refused {c : Chip} {m : Mem} {n : Nat} {w : TodWait} (h : (c.opOf m n w 0).status ≠ 0) :
    (c.opOf m n w 0).reads = [] ∧ (c.opOf m n w 0).writes = [] ∧ (c.opOf m n w 0).records = [] ∧ c.firstDma m n w = [] :=
  ⟨if_neg fun hh => h hh.1, if_neg fun hh => h hh.1, if_neg fun hh => h hh.1, if_neg h⟩

/-- A band of the one descriptor's context is begun where its weights are there. -/
def Chip.begun (c : Chip) (n ctx : Nat) : Chip := c.updNeedle n (fun y => y.beginBand ctx (if c.ctxGuaranteed ctx then none else some (c.ctxTicketId ctx)))

theorem Chip.needle_begun (c : Chip) (n ctx : Nat) : ∃ b, (c.begun n ctx).needle n = (c.needle n).beginBand ctx b :=
  ⟨_, c.needle_updNeedle_same n _⟩

theorem Chip.pumpN_of_begun {c : Chip} {n : Nat} {w : TodWait} (hw : (c.needle n).waiting = [w]) (hswap : (c.needle n).swap = none)
    (hband : (c.needle n).band = none) (hfence : c.fencedCtx n (todOf w.tod).ctx = false)
    (hpassed : c.passed (todOf w.tod).ctx (c.todFrame n (todOf w.tod)) = false) (hmet : c.waitMet (todOf w.tod) = true)
    (hthere : c.ctxWeights n (todOf w.tod).ctx = none ∨ ∃ k, c.ctxWeights n (todOf w.tod).ctx = some k ∧ (c.needle n).weights = some k.key) (m : Mem)
    (k : Nat) : Chip.pumpN m n (k + 1) c = Chip.pumpN m n k (c.begun n (todOf w.tod).ctx) := by
  have hone : c.pumpOne m n = some (c.begun n (todOf w.tod).ctx) := by
    rw [Chip.pumpOne_of_dispatch (Chip.none_passed hw hpassed), Chip.dispatch, hswap, hband,
      Chip.nextBand_of_ready ((Chip.readyBands_one hw).trans (if_pos ⟨hfence, hmet⟩))]
    dsimp only
    obtain hnone | ⟨s, hs, hkey⟩ := hthere
    · rw [hnone]
      rfl
    · rw [hs]
      exact if_pos hkey
  exact Chip.pumpN_of_step hone k

/-- A descriptor reaches an idle needle that may issue it, in the band that runs or in one of its own. -/
theorem Chip.pump_of_issues {c : Chip} {n : Nat} {w : TodWait} (hempty : (c.needle n).waiting = []) (hops : (c.needle n).ops = [])
    (htiles : (c.needle n).freeTiles ≠ 0) (hspill : (c.needle n).spillTag = none) (hswap : (c.needle n).swap = none)
    (hfence : c.fencedCtx n (todOf w.tod).ctx = false) (hmarub : (todOf w.tod).opcode = 12 → c.engineHeld 148 (todOf w.tod).ctx = false)
    (hpassed : c.passed (todOf w.tod).ctx (c.todFrame n (todOf w.tod)) = false) (hmet : c.waitMet (todOf w.tod) = true)
    (hband : (c.needle n).band = some (todOf w.tod).ctx ∨ ((c.needle n).band = none ∧
      (c.ctxWeights n (todOf w.tod).ctx = none ∨ ∃ k, c.ctxWeights n (todOf w.tod).ctx = some k ∧ (c.needle n).weights = some k.key)))
    (hrecords : c.recordsFree n) (m : Mem) :
    ∃ (b : Chip) (x : Needle), b.Issues n w ∧ (∃ t, b = { c with ndl := t }) ∧ b.needle n = x ∧ x.freeTiles = (c.needle n).freeTiles ∧
      x.dma = (c.needle n).dma ∧ b.todFrame n (todOf w.tod) = c.todFrame n (todOf w.tod) ∧ (∀ j, j ≠ n → b.needle j = c.needle j) ∧
      ∃ k, Chip.pumpN m n 5 (c.arrived n w) = Chip.pumpN m n (k + 1) b := by
  have hneedle := c.needle_arrived_same n w
  have hframe := c.todFrame_arrived n w (todOf w.tod)
  have hwaiting := Chip.waiting_arrived hempty w
  have hrec := Chip.recordsFree_updNeedle hrecords fun x => x.queued w
  obtain hband | ⟨hband, hthere⟩ := hband
  · refine ⟨c.arrived n w, _, ⟨hwaiting, ?_, ?_, ?_, ?_, ?_, hfence, hmarub, ?_, hmet, hrec⟩, ⟨_, rfl⟩, hneedle, rfl, rfl, hframe,
      fun j hj => c.needle_arrived_other w hj, 4, rfl⟩
    · rw [hneedle]; exact hops
    · rw [hneedle]; exact htiles
    · rw [hneedle]; exact hspill
    · rw [hneedle]; exact hswap
    · rw [hneedle]; exact hband
    · rw [hframe]; exact hpassed
  · obtain ⟨b, hbegun⟩ := (c.arrived n w).needle_begun n (todOf w.tod).ctx
    have hpassed' : (c.arrived n w).passed (todOf w.tod).ctx ((c.arrived n w).todFrame n (todOf w.tod)) = false := by
      rw [hframe]
      exact hpassed
    have hframe' : ((c.arrived n w).begun n (todOf w.tod).ctx).todFrame n (todOf w.tod) = c.todFrame n (todOf w.tod) := by
      unfold Chip.todFrame
      rw [hbegun, hneedle]
      rfl
    rw [hneedle] at hbegun
    refine ⟨(c.arrived n w).begun n (todOf w.tod).ctx, _, ⟨?_, ?_, ?_, ?_, ?_, ?_, hfence, hmarub, ?_, hmet, Chip.recordsFree_updNeedle hrec _⟩, ⟨_, rfl⟩,
      hbegun, rfl, rfl, hframe', fun j hj => (Chip.needle_updNeedle_other _ _ hj).trans (c.needle_arrived_other w hj), 3, ?_⟩
    · rw [hbegun, ← hwaiting, hneedle]; rfl
    · rw [hbegun]; exact hops
    · rw [hbegun]; exact htiles
    · rw [hbegun]; exact hspill
    · rw [hbegun]; exact hswap
    · rw [hbegun]; rfl
    · rw [hframe']; exact hpassed
    · exact Chip.pumpN_of_begun hwaiting (by rw [hneedle]; exact hswap) (by rw [hneedle]; exact hband) hfence hpassed' hmet
        (by rw [hneedle]; exact hthere) m 4

/-- Settles O49: the sequencer's run on the descriptor ends at the first step that cannot go on, of which each case allows at most two. -/
theorem descriptorsWaitAndIssue : Obligations.DescriptorsWaitAndIssue := by
  unfold Obligations.DescriptorsWaitAndIssue
  refine ⟨fun s n seq tod e he => ?tod, fun c n h => Chip.nextBand_guaranteed h⟩
  case tod =>
    intro x w d gone there
    have htake (hp : x.panel ≠ none) (hr : x.retired = false) : s.chip.takeTod s.mem e.1 n seq tod = (s.chip.arrived n w).pump s.mem n :=
      Chip.takeTod_of_in hp hr s.mem e.1 seq tod
    rw [exec_tod s n seq tod e he]
    refine ⟨fun hout => ?out, fun hp hr hback => ?waits, fun hp hr hempty hgone => ?passed, fun p hp hr hswap hempty hband hfence hgone hmet k hk hweights => ?swaps,
      fun hp hr hswap hempty hops htiles hspill hfence hmarub hgone hmet hband hrecords => ?issues⟩
    case out => rw [Chip.takeTod_of_out hout]
    case waits =>
      rw [htake hp hr, Chip.pump_of_stuck (Chip.pumpOne_of_holdsBack (w := w) hback s.mem)]
      refine ⟨_, rfl, rfl, ?_, fun j hj => ?_, fun hempty => ?_⟩
      · dsimp only
        rw [Chip.needle_noteWaits_same, Chip.needle_arrived_same]
        rfl
      · exact ((s.chip.arrived n w).needle_noteWaits_other hj).trans (s.chip.needle_arrived_other w hj)
      · dsimp only
        rw [Chip.needle_noteWaits_same]
        refine (Chip.waitsSince_one (Chip.waiting_arrived hempty w)).trans ?_
        rw [Chip.needle_arrived_same]
        rfl
    case passed =>
      obtain ⟨hneedle, hnone⟩ := Chip.needle_passedOver hempty w
      rw [htake hp hr, Chip.pump_of_passed (w := w) hempty hgone]
      refine ⟨_, rfl, rfl, ?_, ?_, ?_, fun j hj => ?_⟩
      · dsimp only
        rw [Chip.needle_noteWaits_same, Chip.waitsSince_nil hnone, hneedle]
      · dsimp only
        rw [Chip.needle_noteWaits_same]
        exact hnone
      · dsimp only
        rw [Chip.needle_noteWaits_same, hneedle]
        rfl
      · exact ((s.chip.passedOver n w).needle_noteWaits_other hj).trans ((Chip.needle_updNeedle_other _ _ hj).trans (s.chip.needle_arrived_other w hj))
    case swaps =>
      have hwaiting := Chip.waiting_arrived hempty w
      have hneedle := s.chip.needle_arrived_same n w
      have hpanel : ((s.chip.arrived n w).needle n).panel = some p := by rw [hneedle]; exact hp
      have hrun := Chip.pumpN_of_swap hwaiting hpanel (by rw [hneedle]; exact hswap) (by rw [hneedle]; exact hband) hfence
        (by rw [Chip.todFrame_arrived]; exact hgone) hmet hk (by rw [hneedle]; exact hweights) s.mem 4
      obtain ⟨hsame, hother⟩ := Chip.needle_startSwap hpanel (todOf w.tod).ctx k
      obtain ⟨⟨l, h, r, hd⟩, hcount⟩ := Chip.startSwap_spec hpanel (todOf w.tod).ctx k
      rw [htake (hp ▸ Option.some_ne_none p) hr, Chip.pump_arrived hempty, hrun]
      have hsince : ((s.chip.arrived n w).startSwap n (todOf w.tod).ctx k).waitsSince n = [] := by
        refine (Chip.waitsSince_one (w := w) (by rw [hsame]; exact hwaiting)).trans (if_pos ?_)
        rw [hd]
        exact hmet
      refine ⟨_, rfl, ?_, ?_, fun j hj => ?_, hcount⟩
      · unfold Chip.noteWaits
        rw [hd]
        rfl
      · dsimp only
        rw [Chip.needle_noteWaits_same, hsince, hsame, hneedle]
        exact congrArg (fun v => { x with waiting := v, swap := some k, weights := none, since := [] }) (congrArg (fun v => v ++ [w]) hempty)
      · exact (Chip.needle_noteWaits_other _ hj).trans ((hother j hj).trans (s.chip.needle_arrived_other w hj))
    case issues =>
      obtain ⟨b, y, hissues, ⟨t, hb⟩, hy, hytiles, hydma, hframe, hother, k, hrun⟩ :=
        Chip.pump_of_issues hempty hops htiles hspill hswap hfence hmarub hgone hmet hband hrecords s.mem
      obtain ⟨d, hpump, ⟨t', l, h, r, hd⟩, hsame, hnone, hrest⟩ := Chip.pumpN_of_issues hissues s.mem k
      obtain ⟨hle, hbad⟩ := b.issueStatus_spec s.mem n (todOf w.tod)
      rw [htake hp hr, Chip.pump_arrived hempty, hrun, hpump]
      have hneedle := d.needle_noteWaits_same n
      rw [Chip.waitsSince_nil hnone, hsame] at hneedle
      refine ⟨_, b.opOf s.mem n w 0, rfl, ?_, ?_, ?_, ?_, ?_, fun j hj => ?_, rfl, rfl, rfl, rfl, ?_, hle, hframe, rfl, rfl, hbad, fun hne => hbad (badFields_todWait hne seq), fun hst => ?_, fun h13 => ?_⟩
      · unfold Chip.noteWaits
        rw [hd, hb]
        rfl
      · dsimp only
        rw [hneedle]
        exact congrArg (fun v => v ++ [b.opOf s.mem n w 0]) hissues.ops
      · dsimp only
        rw [Chip.needle_noteWaits_same]
        exact hnone
      · dsimp only
        rw [hneedle]
        exact hissues.band
      · dsimp only
        rw [hneedle, hy]
        exact congrArg (fun v => v - (b.opOf s.mem n w 0).tiles) hytiles
      · exact (Chip.needle_noteWaits_other _ hj).trans ((hrest j hj).trans (hother j hj))
      · rw [hb]
        rfl
      · obtain ⟨hreads, hwrites, hrec, hdma⟩ := Chip.opOf_of_refused hst
        refine ⟨hreads, hwrites, hrec, ?_⟩
        dsimp only
        rw [hneedle, hdma, hy]
        exact (List.append_nil _).trans hydma
      · exact ⟨if_neg fun hh => hh.2 h13, if_neg fun hh => hh.2 h13⟩

end Sys2Proof.Machine
end

section
/-!
Completions of needle operations, transfers and weight swaps (R96, R98, R140), family 14.
-/
namespace Sys2Proof.Machine

/-! ### A needle's marker is signalled -/

theorem Chip.wakeWaits_frame (c : Chip) (m : Nat) :
    ∃ w q p x e, c.wakeWaits m = { c with waits := w, queues := q, pcie := p, hostTx := x, evc := e } := by
  refine List.foldlRecOn (motive := fun d : Chip => ∃ w q p x e, d = { c with waits := w, queues := q, pcie := p, hostTx := x, evc := e })
    (c.metWaits m) _ ⟨_, c.queues, c.pcie, c.hostTx, c.evc, rfl⟩ fun d hd w _ => ?_
  obtain ⟨q, p, x, e, hans⟩ := d.answer_frame w.q w.tag stOk w.ticket (c.marker m).count
  obtain ⟨w', q', p', x', e', hd⟩ := hd
  exact ⟨w', q, p, x, e, by rw [hans, hd]⟩

/-- What a signal to a ticket's marker touches. -/
theorem Chip.signalMap_frame (c : Chip) (t : Ticket) (i n ctx : Nat) : ∃ m w q p x e l r, c.signalMap t i n ctx = { c with
    markers := m, waits := w, queues := q, pcie := p, hostTx := x, evc := e, log := l, rnd := r } := by
  unfold Chip.signalMap
  split
  next => exact ⟨c.markers, c.waits, c.queues, c.pcie, c.hostTx, c.evc, c.log, c.rnd, rfl⟩
  next m _ =>
    unfold Chip.signal
    split
    next =>
      obtain ⟨w, q, p, x, e, h⟩ := (c.counted m n ctx).wakeWaits_frame m
      rw [show Chip.wakeWaits { c with markers := Tbl.set c.markers m ((c.marker m).signal n ctx c.now) } m = _ from h]
      split
      next => exact ⟨_, w, q, p, x, _, _, _, rfl⟩
      next => exact ⟨_, w, q, p, x, e, c.log, _, rfl⟩
    next => exact ⟨c.markers, c.waits, c.queues, c.pcie, c.hostTx, _, _, _, rfl⟩

theorem Chip.marker_signalMap {c : Chip} {t : Ticket} {i m : Nat} (hm : t.markers[i]? = some m) (ht : (c.marker m).takesSignal t.id = true) (n ctx : Nat) :
    (c.signalMap t i n ctx).marker m = (c.marker m).signal n ctx c.now := by
  have hmarkers : (c.signalMap t i n ctx).markers = Tbl.set c.markers m ((c.marker m).signal n ctx c.now) :=
    congrArg Prod.fst (Chip.signalMap_posted hm ht n ctx)
  unfold Chip.marker
  rw [hmarkers]
  exact Tbl.get_set_same _ _ _ _

/-! ### The rows withheld are shown by the outputs -/

theorem Chip.throttled_of_cast {c d : Chip} (h : d.cast = c.cast) (o : OpRt) (w : Nat) :
    d.throttled o w = { d with cast := (c.throttled o w).cast } := by
  unfold Chip.throttled Chip.ctxTicket
  rw [h]
  cases o.frame with
  | none => dsimp only; rw [← h]
  | some k =>
    cases c.cast.tickets.find? (fun x => x.contexts.contains o.context) with
    | none => dsimp only; rw [← h]
    | some t =>
      dsimp only
      cases t.stageOf o.context with
      | none => dsimp only; rw [← h]
      | some p =>
        dsimp only
        split
        next => rw [← h]
        next => rfl

theorem List.find?_updTicket_contexts (l : List Ticket) (i ctx : Nat) {f : Ticket → Ticket} (hf : ∀ t, (f t).contexts = t.contexts) :
    (l.map (fun t => if t.id = i then f t else t)).find? (fun t => t.contexts.contains ctx) =
      (l.find? (fun t => t.contexts.contains ctx)).map (fun t => if t.id = i then f t else t) := by
  rw [List.find?_map]
  have hp : ((fun t : Ticket => t.contexts.contains ctx) ∘ fun t => if t.id = i then f t else t) = fun t => t.contexts.contains ctx := by
    funext t
    dsimp only [Function.comp]
    split
    next => rw [hf]
    next => rfl
  rw [hp]

/-- The ticket of a context after rows were withheld is the same but for its outputs. -/
theorem Chip.ctxTicket_throttled (c : Chip) (o : OpRt) (w ctx : Nat) :
    (c.throttled o w).ctxTicket ctx = c.ctxTicket ctx ∨
    ∃ g : Ticket → List Out, (c.throttled o w).ctxTicket ctx = (c.ctxTicket ctx).map (fun t => { t with outs := g t }) := by
  unfold Chip.throttled
  split
  next k t _ _ =>
    split
    next p _ =>
      split
      next => exact .inl rfl
      next =>
        refine .inr ⟨fun u => if u.id = t.id then (u.throttle p k).outs else u.outs,
          (List.find?_updTicket_contexts c.cast.tickets t.id ctx (f := fun x => x.throttle p k) fun _ => rfl).trans
            (congrArg (fun h => Option.map h (c.ctxTicket ctx)) (funext fun u => ?_))⟩
        dsimp only
        by_cases h : u.id = t.id
        · rw [if_pos h, if_pos h]
          rfl
        · rw [if_neg h, if_neg h]
    next => exact .inl rfl
  next => exact .inl rfl

theorem Chip.passed_of_ctxTicket {c d : Chip} {ctx : Nat} (frame : Option Nat)
    (h : d.ctxTicket ctx = c.ctxTicket ctx ∨ ∃ g : Ticket → List Out, d.ctxTicket ctx = (c.ctxTicket ctx).map (fun t => { t with outs := g t })) :
    d.passed ctx frame = c.passed ctx frame := by
  unfold Chip.passed
  obtain h | ⟨g, h⟩ := h
  · rw [h]
  · rw [h]
    cases frame <;> cases c.ctxTicket ctx <;> rfl

/-! ### An operation ends -/

/-- The stitches on which an operation that ends had a row withheld. -/
def Chip.rowsWithheld (c : Chip) (n : Nat) (o : OpRt) (withheld : Nat) : Nat := o.withheld withheld (c.issueRate n)

/-- The entry of an operation that ends. -/
def Chip.endEntry (c : Chip) (m : Mem) (n : Nat) (o : OpRt) (e : OpEnd) (stalls withheld : Nat) : List Byte :=
  opEntry o (o.endStatus e) (o.flags + flag (c.opOut m n o).i32 0 + flag (c.rowsWithheld n o withheld != 0) 2) (o.stitches + stalls)

/-- The needle once an operation of it has ended. -/
def Chip.endNeedle (c : Chip) (m : Mem) (n : Nat) (o : OpRt) (e : OpEnd) (stalls withheld corrected : Nat) (y : Needle) : Needle :=
  let z := ((y.finish o).counted o (c.opOut m n o) (o.endStatus e) (c.rowsWithheld n o withheld) corrected).noteOk c.now o (o.endStatus e)
    (c.endEntry m n o e stalls withheld)
  match e with | .columnFault col => if o.endStatus e = 6 then z.columnFault o col else z | _ => z

/-- What the end of an operation leaves in its needle's record. -/
theorem Chip.endNeedle_fields (c : Chip) (m : Mem) (n : Nat) (o : OpRt) (e : OpEnd) (stalls withheld corrected : Nat) (x : Needle) :
    let y := c.endNeedle m n o e stalls withheld corrected x
    (y.ops = x.ops.erase o ∧ y.freeTiles = min 8 (x.freeTiles + o.tiles) ∧ y.ringIdx = (x.ringIdx + 1) % 256 ∧ y.opsCtr = x.opsCtr.inc ∧
     y.waiting = x.waiting ∧ y.dma = x.dma.filter (fun d => d.opTag != o.tag) ∧ y.band = (if o.bandEnd then none else x.band) ∧
     y.throttled = x.throttled.add (c.rowsWithheld n o withheld) ∧ y.sramCe = min 4294967295 (x.sramCe + corrected)) := by
  unfold Chip.endNeedle
  cases e with
  | columnFault col =>
    dsimp only
    split <;> exact ⟨rfl, rfl, rfl, rfl, rfl, rfl, rfl, rfl, rfl⟩
  | ok => exact ⟨rfl, rfl, rfl, rfl, rfl, rfl, rfl, rfl, rfl⟩
  | memoryError => exact ⟨rfl, rfl, rfl, rfl, rfl, rfl, rfl, rfl, rfl⟩

theorem Chip.endNeedle_of_no_fault (c : Chip) (m : Mem) (n : Nat) {o : OpRt} {e : OpEnd} (stalls withheld corrected : Nat) (x : Needle)
    (h : o.endStatus e ≠ 6) : (c.endNeedle m n o e stalls withheld corrected x).runtime = x.runtime ∧
      (c.endNeedle m n o e stalls withheld corrected x).rowFaults = x.rowFaults := by
  unfold Chip.endNeedle
  cases e with
  | columnFault col =>
    dsimp only
    rw [if_neg h]
    exact ⟨rfl, rfl⟩
  | ok => exact ⟨rfl, rfl⟩
  | memoryError => exact ⟨rfl, rfl⟩

theorem Chip.endNeedle_of_fault (c : Chip) (m : Mem) (n : Nat) {o : OpRt} {col : Nat} (stalls withheld corrected : Nat) (x : Needle)
    (h : o.endStatus (.columnFault col) = 6) : let y := c.endNeedle m n o (.columnFault col) stalls withheld corrected x
      y.faultValid = true ∧ y.faultCol = col ∧ y.faultTag = o.tag ∧ y.faultCtx = o.context ∧ y.runtime = true ∧ y.rowFaults = x.rowFaults + 1 := by
  unfold Chip.endNeedle
  dsimp only
  rw [if_pos h]
  exact ⟨rfl, rfl, rfl, rfl, rfl, rfl⟩

/-- The chip once an operation has left its needle. -/
def Chip.opReleased (c : Chip) (m : Mem) (n : Nat) (o : OpRt) (e : OpEnd) (stalls withheld corrected : Nat) : Chip :=
  { c with
    ndl := { (c.updNeedle n (c.endNeedle m n o e stalls withheld corrected)).ndl with marub := c.ndl.marub.filter (· != (n, o.tag)) }
    freeCtr := c.freeCtr + o.frees (c.opOut m n o) }

/-- The chip once an operation has ended, before its marker is signalled. -/
def Chip.opEnded (c : Chip) (m : Mem) (n : Nat) (o : OpRt) (e : OpEnd) (stalls withheld corrected : Nat) : Chip :=
  ((c.opReleased m n o e stalls withheld corrected).wrote (if o.endStatus e = 0 ∨ o.endStatus e = 6 ∨ o.endStatus e = 7 then o.writes else [])).throttled o
    (c.rowsWithheld n o withheld)

theorem completeOp_mem (n : Nat) (o : OpRt) (e : OpEnd) (stalls withheld corrected : Nat) (c : Chip × Mem) :
    (completeOp n o e stalls withheld corrected c).2 = opMem c.2 n o (c.1.opOut c.2 n o) (o.endStatus e) c.1.freeCtr ((c.1.needle n).ringAddr n)
      (c.1.endEntry c.2 n o e stalls withheld) := by
  unfold completeOp Chip.endEntry Chip.rowsWithheld
  dsimp only

theorem completeOp_chip (n : Nat) (o : OpRt) (e : OpEnd) (stalls withheld corrected : Nat) (c : Chip × Mem) :
    (completeOp n o e stalls withheld corrected c).1 = (match o.signal, (c.1.opEnded c.2 n o e stalls withheld corrected).ctxTicket o.context with
      | some (i, k), some t => if (c.1.opEnded c.2 n o e stalls withheld corrected).passed o.context o.frame then c.1.opEnded c.2 n o e stalls withheld corrected
          else (c.1.opEnded c.2 n o e stalls withheld corrected).signalMap t i k o.context
      | _, _ => c.1.opEnded c.2 n o e stalls withheld corrected) := by
  unfold completeOp
  dsimp only
  generalize hd : Chip.throttled _ o _ = d
  obtain rfl : d = c.1.opEnded c.2 n o e stalls withheld corrected := by
    rw [← hd]
    unfold Chip.opEnded Chip.opReleased Chip.endNeedle Chip.endEntry Chip.rowsWithheld Chip.updNeedle
    cases e <;> dsimp only
  generalize c.1.opEnded c.2 n o e stalls withheld corrected = d
  cases o.signal with
  | none => rfl
  | some k => cases d.ctxTicket o.context <;> rfl

/-- What the end of an operation touches before its marker is signalled. -/
theorem Chip.opEnded_frame (c : Chip) (m : Mem) (n : Nat) (o : OpRt) (e : OpEnd) (stalls withheld corrected : Nat) :
    ∃ h l r f, c.opEnded m n o e stalls withheld corrected = { c with
      ndl := { (c.updNeedle n (c.endNeedle m n o e stalls withheld corrected)).ndl with marub := r }, hbm := h, pnl := l, freeCtr := f
      cast := (c.throttled o (c.rowsWithheld n o withheld)).cast } := by
  obtain ⟨h, l, hwrote⟩ := (c.opReleased m n o e stalls withheld corrected).wrote_eq
    (if o.endStatus e = 0 ∨ o.endStatus e = 6 ∨ o.endStatus e = 7 then o.writes else [])
  have hthrottled := Chip.throttled_of_cast (c := c) (d := { c.opReleased m n o e stalls withheld corrected with hbm := h, pnl := l }) rfl o
    (c.rowsWithheld n o withheld)
  exact ⟨h, l, c.ndl.marub.filter (· != (n, o.tag)), c.freeCtr + o.frees (c.opOut m n o),
    (congrArg (fun d => Chip.throttled d o (c.rowsWithheld n o withheld)) hwrote).trans hthrottled⟩

theorem Chip.needle_opEnded (c : Chip) (m : Mem) (n : Nat) (o : OpRt) (e : OpEnd) (stalls withheld corrected : Nat) :
    (c.opEnded m n o e stalls withheld corrected).needle n = c.endNeedle m n o e stalls withheld corrected (c.needle n) ∧
    ∀ j, j ≠ n → (c.opEnded m n o e stalls withheld corrected).needle j = c.needle j := by
  obtain ⟨h, l, r, f, hd⟩ := c.opEnded_frame m n o e stalls withheld corrected
  rw [hd]
  exact ⟨c.needle_updNeedle_same n (c.endNeedle m n o e stalls withheld corrected), fun j hj => c.needle_updNeedle_other (c.endNeedle m n o e stalls withheld corrected) hj⟩

/-- What the end of an operation touches. -/
theorem completeOp_frame (n : Nat) (o : OpRt) (e : OpEnd) (stalls withheld corrected : Nat) (c : Chip × Mem) :
    ∃ m w q p x ev l r, (completeOp n o e stalls withheld corrected c).1 = { c.1.opEnded c.2 n o e stalls withheld corrected with
      markers := m, waits := w, queues := q, pcie := p, hostTx := x, evc := ev, log := l, rnd := r } := by
  rw [completeOp_chip]
  generalize c.1.opEnded c.2 n o e stalls withheld corrected = d
  have hsame : ∃ m w q p x ev l r, d = { d with markers := m, waits := w, queues := q, pcie := p, hostTx := x, evc := ev, log := l, rnd := r } :=
    ⟨d.markers, d.waits, d.queues, d.pcie, d.hostTx, d.evc, d.log, d.rnd, rfl⟩
  split
  next =>
    split
    next => exact hsame
    next => exact Chip.signalMap_frame _ _ _ _ _
  next => exact hsame

theorem completeOp_unsignalled {n : Nat} {o : OpRt} {e : OpEnd} {c : Chip × Mem} (stalls withheld corrected : Nat)
    (h : o.signal = none ∨ c.1.passed o.context o.frame = true) :
    (completeOp n o e stalls withheld corrected c).1.markers = c.1.markers := by
  obtain ⟨hb, l, r, f, hd⟩ := c.1.opEnded_frame c.2 n o e stalls withheld corrected
  have hpassed : (c.1.opEnded c.2 n o e stalls withheld corrected).passed o.context o.frame = c.1.passed o.context o.frame :=
    Chip.passed_of_ctxTicket (c := c.1) o.frame (by rw [hd]; exact c.1.ctxTicket_throttled o _ o.context)
  have hmarkers : (c.1.opEnded c.2 n o e stalls withheld corrected).markers = c.1.markers := by rw [hd]
  rw [completeOp_chip]
  generalize c.1.opEnded c.2 n o e stalls withheld corrected = d at hpassed hmarkers
  split
  next i k t hs _ =>
    have hgone : c.1.passed o.context o.frame = true := h.resolve_left fun hn => by rw [hs] at hn; cases hn
    rw [hpassed, if_pos hgone]
    exact hmarkers
  next => exact hmarkers

theorem completeOp_signalled {n : Nat} {o : OpRt} {e : OpEnd} {c : Chip × Mem} {i k m : Nat} {t : Ticket} (stalls withheld corrected : Nat)
    (hs : o.signal = some (i, k)) (hgone : c.1.passed o.context o.frame = false) (ht : c.1.ctxTicket o.context = some t) (hm : t.markers[i]? = some m)
    (htakes : (c.1.marker m).takesSignal t.id = true) :
    (completeOp n o e stalls withheld corrected c).1.marker m = (c.1.marker m).signal k o.context c.1.now := by
  obtain ⟨hb, l, r, f, hd⟩ := c.1.opEnded_frame c.2 n o e stalls withheld corrected
  have hthrottled := c.1.ctxTicket_throttled o (c.1.rowsWithheld n o withheld) o.context
  have hctx : ∃ u, (c.1.opEnded c.2 n o e stalls withheld corrected).ctxTicket o.context = some u ∧ u.markers = t.markers ∧ u.id = t.id := by
    rw [hd]
    rw [ht] at hthrottled
    obtain h | ⟨g, h⟩ := hthrottled
    · exact ⟨t, h, rfl, rfl⟩
    · exact ⟨_, h, rfl, rfl⟩
  have hpassed : (c.1.opEnded c.2 n o e stalls withheld corrected).passed o.context o.frame = false :=
    (Chip.passed_of_ctxTicket (c := c.1) o.frame (by rw [hd]; exact hthrottled)).trans hgone
  have hmarker : ∀ j, (c.1.opEnded c.2 n o e stalls withheld corrected).marker j = c.1.marker j := fun j => by rw [hd]; rfl
  have hnow : (c.1.opEnded c.2 n o e stalls withheld corrected).now = c.1.now := by rw [hd]; rfl
  rw [completeOp_chip]
  generalize c.1.opEnded c.2 n o e stalls withheld corrected = d at hctx hpassed hmarker hnow
  obtain ⟨u, hu, hmap, hid⟩ := hctx
  rw [hs, hu]
  dsimp only
  rw [hpassed, if_neg Bool.false_ne_true, Chip.marker_signalMap (m := m) (by rw [hmap]; exact hm) (by rw [hmarker, hid]; exact htakes), hmarker, hnow]

/-! ### What follows from it -/

theorem Evc.edge_keeps_pending {e : Evc} {j : Nat} (h : (e.src j).pending = true) (p : Pcie) (now k : Nat) : ((e.edge p now k).src j).pending = true := by
  by_cases hk : reservedSource k = true
  · rw [Evc.edge_of_reserved hk]
    exact h
  · by_cases hj : j = k
    · subst hj
      exact Evc.edge_pending (eq_false_of_ne_true hk) p now e
    · rw [Evc.src_edge_other hj]
      exact h

theorem Chip.incident_pending {src : Nat} (hsrc : reservedSource src = false) (c : Chip) (i : Incident) (ctx : Option Nat) (ticket argHi arg : Nat) :
    ((c.incident i src ctx ticket argHi arg).evc.src src).pending = true := by
  have hedge := Evc.edge_pending hsrc c.pcie c.now c.evc
  unfold Chip.incident
  dsimp only
  split
  next => exact Evc.edge_keeps_pending hedge _ _ _
  next => exact hedge

/-- What the end of an operation leads to: a fault's loss and incident, or what the operation was for. -/
def opFollowed (n : Nat) (o : OpRt) (e : OpEnd) (r : OpRole) (c d : Chip × Mem) : Chip × Mem :=
  let p := (c.1.ctxTicket o.context).bind (fun t => t.stageOf o.context)
  let f := match c.1.ctxTicket o.context, p with | some t, some p => c.1.workOf t p o | _, _ => none
  if o.endStatus e = 6 ∨ o.endStatus e = 7 then
    ((match p with | some q => d.1.workFault d.2 (c.1.ctxTicketId o.context) q f | none => d.1).faultIncident n o.context (o.endStatus e), d.2)
  else if o.endStatus e = 0 then roleDone r d else d

theorem opFollowed_ok {n : Nat} {o : OpRt} {e : OpEnd} (h : o.endStatus e = 0) (r : OpRole) (c d : Chip × Mem) : opFollowed n o e r c d = roleDone r d := by
  unfold opFollowed
  rw [h]
  rfl

theorem opFollowed_refused {n : Nat} {o : OpRt} {e : OpEnd} (h0 : o.endStatus e ≠ 0) (h6 : o.endStatus e ≠ 6) (h7 : o.endStatus e ≠ 7) (r : OpRole)
    (c d : Chip × Mem) : opFollowed n o e r c d = d := by
  unfold opFollowed
  dsimp only
  rw [if_neg fun h => h.elim h6 h7, if_neg h0]

theorem Chip.startSample_frame (c : Chip) (m : Mem) (ticket : Nat) : ∃ k, c.startSample m ticket = { c with cast := k } := by
  unfold Chip.startSample
  split
  next => exact ⟨c.cast, rfl⟩
  next =>
    split
    next =>
      split
      next => exact ⟨_, rfl⟩
      next => exact ⟨c.cast, rfl⟩
    next => exact ⟨c.cast, rfl⟩

theorem Chip.workFault_keeps (c : Chip) (m : Mem) (ticket : Nat) (p : Placed) (f : Option FrameRt) :
    (c.workFault m ticket p f).ndl = c.ndl ∧ (c.workFault m ticket p f).markers = c.markers := by
  unfold Chip.workFault
  split
  next => exact ⟨rfl, rfl⟩
  next t _ =>
    split
    next =>
      unfold Chip.sampleFault
      split
      next => exact ⟨rfl, rfl⟩
      next p _ =>
        obtain ⟨k, hk⟩ := (c.reTicket t (t.dropSample c.now p .aborted)).startSample_frame m t.id
        rw [hk]
        exact ⟨rfl, rfl⟩
    next =>
      split
      next => exact ⟨rfl, rfl⟩
      next => split <;> exact ⟨rfl, rfl⟩

theorem opFollowed_fault {n : Nat} {o : OpRt} {e : OpEnd} (h : o.endStatus e = 6 ∨ o.endStatus e = 7) (r : OpRole) (c d : Chip × Mem) :
    (opFollowed n o e r c d).2 = d.2 ∧ (opFollowed n o e r c d).1.ndl = d.1.ndl ∧ (opFollowed n o e r c d).1.markers = d.1.markers ∧
    (n < 64 → ((opFollowed n o e r c d).1.evc.src (512 + n)).pending = true) := by
  have hpending (f : Chip) (hn : n < 64) : ((f.faultIncident n o.context (o.endStatus e)).evc.src (512 + n)).pending = true := by
    have hsrc : reservedSource (512 + n) = false := by
      unfold reservedSource
      simp
      omega
    exact Chip.incident_pending hsrc f _ _ _ _ _
  have hrun : ∃ f : Chip, f.ndl = d.1.ndl ∧ f.markers = d.1.markers ∧ opFollowed n o e r c d = (f.faultIncident n o.context (o.endStatus e), d.2) := by
    unfold opFollowed
    dsimp only
    rw [if_pos h]
    split
    next q _ =>
      obtain ⟨hndl, hmarkers⟩ := d.1.workFault_keeps d.2 (c.1.ctxTicketId o.context) q
        (match c.1.ctxTicket o.context, (c.1.ctxTicket o.context).bind (fun t => t.stageOf o.context) with
          | some t, some p => c.1.workOf t p o | _, _ => none)
      exact ⟨_, hndl, hmarkers, rfl⟩
    next => exact ⟨d.1, rfl, rfl, rfl⟩
  obtain ⟨f, hndl, hmarkers, hf⟩ := hrun
  rw [hf]
  exact ⟨rfl, hndl, hmarkers, hpending f⟩

/-- The stream of a context's ticket goes on, or the needles alone where the context has none. -/
def contextProgress (k : Option Ticket) (c : Chip × Mem) : Chip × Mem := match k with | some t => progress t.id c | none => (c.1.pumpAll c.2, c.2)

theorem Safety.contextUpToDate_eq (k : Option Ticket) (s : State) (c : Chip × Mem) : Safety.contextUpToDate k { s with chip := c.1, mem := c.2 } =
    { s with chip := (contextProgress k c).1, mem := (contextProgress k c).2 } := by
  cases k with
  | none => rfl
  | some t =>
    unfold Safety.contextUpToDate Safety.upToDate contextProgress
    rfl

theorem operationComplete_of_done {n tag : Nat} {o : OpRt} {c : Chip × Mem} (hop : (c.1.needle n).op? tag = some o) (hcan : c.1.canComplete n o = true)
    (e : OpEnd) (stalls withheld corrected : Nat) (r : OpRole) :
    operationComplete n tag e stalls withheld corrected r c =
      if o.endStatus e = 6 then columnLimit n (contextProgress (c.1.ctxTicket o.context) (opFollowed n o e r c (completeOp n o e stalls withheld corrected c)))
      else contextProgress (c.1.ctxTicket o.context) (opFollowed n o e r c (completeOp n o e stalls withheld corrected c)) := by
  unfold operationComplete opFollowed contextProgress
  rw [hop]
  refine (if_pos hcan).trans ?_
  cases c.1.ctxTicket o.context with
  | none => rfl
  | some t => cases h : t.stageOf o.context <;> simp only [Option.bind_some, h]

/-- An operation that can complete does, and its stream goes on. -/
theorem exec_operationComplete_done {s : State} {n tag : Nat} {o : OpRt} (hop : (s.chip.needle n).op? tag = some o) (hcan : s.chip.canComplete n o = true)
    (stalls withheld corrected : Nat) (e : OpEnd) (r : OpRole) {x : Chip × Mem}
    (hx : opFollowed n o e r (s.chip, s.mem) (completeOp n o e stalls withheld corrected (s.chip, s.mem)) = x) :
    exec (.operationComplete n tag { how := e, corrected := corrected } stalls withheld r) s =
      .next (if o.endStatus e = 6 then Safety.columnLimited n (Safety.contextUpToDate (s.chip.ctxTicket o.context) { s with chip := x.1, mem := x.2 })
        else Safety.contextUpToDate (s.chip.ctxTicket o.context) { s with chip := x.1, mem := x.2 }) := by
  have hexec : exec (.operationComplete n tag { how := e, corrected := corrected } stalls withheld r) s = .next { s with
    chip := (operationComplete n tag e stalls withheld corrected r (s.chip, s.mem)).1
    mem := (operationComplete n tag e stalls withheld corrected r (s.chip, s.mem)).2 } := rfl
  rw [hexec, operationComplete_of_done (c := (s.chip, s.mem)) hop hcan, hx, Safety.contextUpToDate_eq]
  split <;> rfl

/-! ### A transfer completes -/

/-- What follows a transfer in its slot. -/
def Dma.follow (d : Dma) (id now : Nat) : List Dma := match d.next with | none => [] | some q => [{ q with id := id, since := now }]

theorem Chip.runRead_frame (c : Chip) (r : Range) : ∃ h l e n p, c.runRead r = { c with hbm := h, log := l, evc := e, rnd := n, pins := p } := by
  unfold Chip.runRead
  split
  next =>
    dsimp only
    split
    next => exact ⟨_, c.log, c.evc, c.rnd, c.pins, rfl⟩
    next => exact ⟨c.hbm, c.log, c.evc, c.rnd, c.pins, rfl⟩
  next =>
    dsimp only
    split
    next => exact ⟨_, _, _, _, _, rfl⟩
    next => exact ⟨_, _, _, _, _, rfl⟩

theorem Chip.runReads_frame (l : List Range) (c : Chip) :
    ∃ h k e n p, l.foldl Chip.runRead c = { c with hbm := h, log := k, evc := e, rnd := n, pins := p } := by
  refine List.foldlRecOn (motive := fun d : Chip => ∃ h k e n p, d = { c with hbm := h, log := k, evc := e, rnd := n, pins := p }) l _
    ⟨c.hbm, c.log, c.evc, c.rnd, c.pins, rfl⟩ fun d hd r _ => ?_
  obtain ⟨h, k, e, n, p, hr⟩ := d.runRead_frame r
  obtain ⟨h', k', e', n', p', hd⟩ := hd
  exact ⟨h, k, e, n, p, by rw [hr, hd]⟩

/-- The chip after a transfer, before its needle goes on. -/
def Chip.dmaEnded (c : Chip) (m : Mem) (n : Nat) (d : Dma) : Chip :=
  let e := c.updNeedle n (fun x => x.dmaDone c.now d (d.data m) (c.dmaPoison d))
  let f := if d.inward then d.runs.foldl Chip.runRead e else e
  f.dmaTraffic n (c.ctxGuaranteed d.context) ((f.needle n).dma.filter (fun q => q.id == (c.needle n).dmaNext && q.inward))

theorem Chip.dmaComplete_of_ready {c : Chip} {n id : Nat} {d : Dma} (hd : (c.needle n).dma? id = some d) (hready : c.dmaReady n d = true) (m : Mem) :
    c.dmaComplete m n id = (c.dmaEnded m n d).pump m n := by
  unfold Chip.dmaComplete
  rw [hd]
  exact if_pos hready

/-- What a transfer touches. -/
theorem Chip.dmaEnded_frame (c : Chip) (m : Mem) (n : Nat) (d : Dma) : ∃ h k e r p l, c.dmaEnded m n d =
    { c.updNeedle n (fun x => x.dmaDone c.now d (d.data m) (c.dmaPoison d)) with hbm := h, log := k, evc := e, rnd := r, pins := p, pnl := l } := by
  unfold Chip.dmaEnded
  dsimp only
  generalize c.updNeedle n (fun x => x.dmaDone c.now d (d.data m) (c.dmaPoison d)) = f
  have hread : ∃ h k e r p, (if d.inward = true then d.runs.foldl Chip.runRead f else f) = { f with hbm := h, log := k, evc := e, rnd := r, pins := p } := by
    split
    next => exact Chip.runReads_frame d.runs f
    next => exact ⟨f.hbm, f.log, f.evc, f.rnd, f.pins, rfl⟩
  obtain ⟨h, k, e, r, p, hread⟩ := hread
  generalize (if d.inward = true then d.runs.foldl Chip.runRead f else f) = g at hread
  obtain ⟨⟨l, h', r', htraffic⟩, -⟩ := g.dmaTraffic_traffic n (c.ctxGuaranteed d.context)
    ((g.needle n).dma.filter (fun q => q.id == (c.needle n).dmaNext && q.inward))
  exact ⟨h', k, e, r', p, l, by rw [htraffic, hread]⟩

theorem Dma.data_bytes (d : Dma) (m : Mem) (h : d.inward = true) :
    (d.data m).flatMap (fun e => e.2) = d.runs.flatMap (fun r => m.reads r.1 r.2) := by
  unfold Dma.data
  rw [if_pos h, List.flatMap_map]

/-- Settles O50: an operation's end is its needle's record, its memory and its marker's signal in turn; a transfer's and a swap's end is one change
of the needle's record before the needle goes on. -/
theorem needleWorkCompletes : Obligations.NeedleWorkCompletes := by
  unfold Obligations.NeedleWorkCompletes
  refine ⟨fun s n tag stalls withheld corrected e r => ?op, fun s n h => ?limit, fun s n id => ?dma, fun s n => ?swap⟩
  case op =>
    intro x
    have hexec : exec (.operationComplete n tag { how := e, corrected := corrected } stalls withheld r) s = .next { s with
      chip := (operationComplete n tag e stalls withheld corrected r (s.chip, s.mem)).1
      mem := (operationComplete n tag e stalls withheld corrected r (s.chip, s.mem)).2 } := rfl
    refine ⟨fun hop => ?none, fun o hop => ?some⟩
    case none =>
      rw [hexec]
      unfold operationComplete
      rw [hop]
    case some =>
      intro st out held entry
      refine ⟨fun hcan => ?held, fun hcan => ?done⟩
      case held =>
        rw [hexec]
        unfold operationComplete
        rw [hop]
        dsimp only
        rw [hcan, if_neg Bool.false_ne_true]
      case done =>
        obtain ⟨m, wt, q, p, hx, ev, l, rd, hframe⟩ := completeOp_frame n o e stalls withheld corrected (s.chip, s.mem)
        obtain ⟨hb, pl, mr, fr, hended⟩ := s.chip.opEnded_frame s.mem n o e stalls withheld corrected
        obtain ⟨hneedle, hothers⟩ := s.chip.needle_opEnded s.mem n o e stalls withheld corrected
        have hmem := completeOp_mem n o e stalls withheld corrected (s.chip, s.mem)
        have hunsignalled := completeOp_unsignalled (n := n) (o := o) (e := e) (c := (s.chip, s.mem)) stalls withheld corrected
        have hsignalled := fun i k m t => completeOp_signalled (n := n) (o := o) (e := e) (c := (s.chip, s.mem)) (i := i) (k := k) (m := m) (t := t) stalls withheld corrected
        have hexec := exec_operationComplete_done hop hcan stalls withheld corrected e r rfl
        have hfault := fun h => opFollowed_fault (n := n) (o := o) (e := e) h r (s.chip, s.mem) (completeOp n o e stalls withheld corrected (s.chip, s.mem))
        have hok := fun h => opFollowed_ok (n := n) (o := o) (e := e) h r (s.chip, s.mem) (completeOp n o e stalls withheld corrected (s.chip, s.mem))
        have hrefused := fun h h' h'' => opFollowed_refused (n := n) (o := o) (e := e) h h' h'' r (s.chip, s.mem)
          (completeOp n o e stalls withheld corrected (s.chip, s.mem))
        generalize completeOp n o e stalls withheld corrected (s.chip, s.mem) = d at *
        have hdneedle (j : Nat) : d.1.needle j = (s.chip.opEnded s.mem n o e stalls withheld corrected).needle j :=
          (congrArg (fun c : Chip => c.needle j) hframe :)
        obtain ⟨hops, htiles, hring, hctr, hwaiting, hdma, hband, hthrottled, hce⟩ :=
          s.chip.endNeedle_fields s.mem n o e stalls withheld corrected (s.chip.needle n)
        refine ⟨{ s with chip := d.1, mem := d.2 }, _, hexec, ?_, fun h => ?_, fun h0 h6 h7 => ?_, fun h => ?_, hmem, ?_, fun j hj => (hdneedle j).trans (hothers j hj),
          hunsignalled, fun i k t m hs hgone ht hm htakes => ?_⟩
        · dsimp only
          rw [hframe, hended]
          rfl
        · rw [hok h]
        · rw [hrefused h0 h6 h7]
        · exact hfault h
        · dsimp only
          rw [hdneedle, hneedle]
          refine ⟨hops, htiles, hring, hctr, hwaiting, hdma, hband, hthrottled, hce, fun h => s.chip.endNeedle_of_no_fault s.mem n stalls withheld corrected _ h,
            fun col he h => ?_⟩
          subst he
          exact s.chip.endNeedle_of_fault s.mem n stalls withheld corrected _ h
        · dsimp only
          rw [hsignalled i k m t hs hgone ht hm htakes]
          exact ⟨rfl, rfl⟩
  case limit =>
    unfold Safety.columnLimited columnLimit
    rw [if_neg h]
  case dma =>
    intro x
    have hexec : exec (.dmaTransferComplete n id) s = .next { s with
      chip := s.chip.dmaComplete s.mem n id
      mem := match (s.chip.needle n).dma? id with
        | none => s.mem
        | some d => if d.inward && s.chip.dmaReady n d then s.mem.writes d.dst ((d.data s.mem).flatMap (fun e => e.2)) else s.mem } := rfl
    refine ⟨fun hd => ?unknown, fun d hd hready => ?waits, fun d hd hready => ?ends⟩
    case unknown =>
      rw [hexec, Chip.dmaComplete, hd]
    case waits =>
      rw [hexec, Chip.dmaComplete, hd]
      dsimp only
      rw [hready, if_neg Bool.false_ne_true, Bool.and_false, if_neg Bool.false_ne_true]
    case ends =>
      obtain ⟨h, k, e, r, p, l, hframe⟩ := s.chip.dmaEnded_frame s.mem n d
      have hneedle : (s.chip.dmaEnded s.mem n d).needle n = x.dmaDone s.chip.now d (d.data s.mem) (s.chip.dmaPoison d) := by
        rw [hframe]
        exact s.chip.needle_updNeedle_same n _
      have hothers : ∀ j, j ≠ n → (s.chip.dmaEnded s.mem n d).needle j = s.chip.needle j := fun j hj => by
        rw [hframe]
        exact s.chip.needle_updNeedle_other (fun x => x.dmaDone s.chip.now d (d.data s.mem) (s.chip.dmaPoison d)) hj
      rw [hexec, Chip.dmaComplete_of_ready hd hready, hd]
      dsimp only
      rw [hready, Bool.and_true]
      refine ⟨{ s with chip := s.chip.dmaEnded s.mem n d, mem := if d.inward = true then s.mem.writes d.dst ((d.data s.mem).flatMap (fun e => e.2)) else s.mem },
        rfl, ?_, rfl, ?_, hothers, ?_⟩
      · dsimp only
        by_cases hin : d.inward = true
        · rw [if_pos hin, if_pos hin, d.data_bytes s.mem hin]
        · rw [if_neg hin, if_neg hin]
      · dsimp only
        rw [hneedle]
        exact ⟨rfl, rfl, rfl, rfl, fun hin => ⟨if_pos hin, if_pos hin⟩, fun hin => ⟨if_neg (ne_true_of_eq_false hin), if_neg (ne_true_of_eq_false hin)⟩⟩
      · dsimp only
        rw [hframe]
        exact ⟨rfl, rfl, rfl⟩
  case swap =>
    intro x
    have hexec : execWeightSwapComplete n s = .next { s with
      chip := match s.chip.swapEnd n with
        | none => s.chip
        | some k => (s.chip.updNeedle n (fun x => x.swapDone k)).pump (s.mem.writes k.dst (s.mem.reads k.src k.bytes)) n
      mem := match s.chip.swapEnd n with | none => s.mem | some k => s.mem.writes k.dst (s.mem.reads k.src k.bytes) } := by
      unfold execWeightSwapComplete
      cases s.chip.swapEnd n <;> rfl
    refine ⟨fun h => hexec.trans ?loading, fun k hk hready => ?loaded⟩
    case loading =>
      have hnone : s.chip.swapEnd n = none := by
        unfold Chip.swapEnd
        obtain h | ⟨k, hk, hready⟩ := h
        · rw [show (s.chip.needle n).swap = none from h]
          rfl
        · rw [show (s.chip.needle n).swap = some k from hk, Option.filter_some, hready]
          rfl
      rw [hnone]
    case loaded =>
      have hsome : s.chip.swapEnd n = some k := by
        rw [Chip.swapEnd, show (s.chip.needle n).swap = some k from hk, Option.filter_some, hready]
        rfl
      rw [hsome] at hexec
      exact ⟨{ s with chip := s.chip.updNeedle n (fun x => x.swapDone k), mem := s.mem.writes k.dst (s.mem.reads k.src k.bytes) }, hexec, rfl,
        fun j hj => s.chip.needle_updNeedle_other _ hj, s.chip.needle_updNeedle_same n _⟩

end Sys2Proof.Machine
end

section
/-!
Bandwidth regulators, the chart cache's fills and RESIDENT segments (R147 to R152), family 14.
-/
namespace Sys2Proof.Machine

/-! ### Waiting chunks -/

theorem Panel.draws_of_g {x : Panel} {res : Nat} (h : 0 < x.gBucket.getD res 0) : x.draws res true = some true := if_pos ⟨rfl, h⟩

theorem Panel.draws_of_b {x : Panel} {res : Nat} {guar : Bool} (hg : guar = false ∨ x.gBucket.getD res 0 ≤ 0) (h : 0 < x.bBucket.getD res 0) :
    x.draws res guar = some false := by
  have hnot : ¬ (guar = true ∧ 0 < x.gBucket.getD res 0) := fun hh => hg.elim (fun hf => by rw [hf] at hh; cases hh.1) (fun hle => absurd hh.2 (Int.not_lt.mpr hle))
  rw [Panel.draws, if_neg hnot, if_pos h]

theorem Panel.draws_of_none {x : Panel} {res : Nat} {guar : Bool} (hg : guar = false ∨ x.gBucket.getD res 0 ≤ 0) (h : x.bBucket.getD res 0 ≤ 0) :
    x.draws res guar = none := by
  have hnot : ¬ (guar = true ∧ 0 < x.gBucket.getD res 0) := fun hh => hg.elim (fun hf => by rw [hf] at hh; cases hh.1) (fun hle => absurd hh.2 (Int.not_lt.mpr hle))
  rw [Panel.draws, if_neg hnot, if_neg (Int.not_lt.mpr h)]

/-- A chunk that may not draw from G draws from B or from nothing. -/
theorem Panel.draws_not_g {x : Panel} {res : Nat} {guar : Bool} (hg : guar = false ∨ x.gBucket.getD res 0 ≤ 0) :
    x.draws res guar = none ∨ x.draws res guar = some false := by
  by_cases h : 0 < x.bBucket.getD res 0
  · exact .inr (Panel.draws_of_b hg h)
  · exact .inl (Panel.draws_of_none hg (Int.not_lt.mp h))

theorem Panel.nextChunk_of_find {x : Panel} {res : Nat} {guar : Bool} {w : Chunk} (h : x.waiting.find? (fun w => w.res == res && w.guar == guar) = some w) :
    x.nextChunk res guar = (x.draws res guar).map (fun g => (w, g)) := by
  rw [Panel.nextChunk, h]

theorem Panel.nextChunk_of_none {x : Panel} {res : Nat} {guar : Bool} (h : x.waiting.find? (fun w => w.res == res && w.guar == guar) = none) :
    x.nextChunk res guar = none := by
  rw [Panel.nextChunk, h]

/-- A transfer's time starts: nothing else of the needles moves. -/
theorem Chip.dmaBegins_spec (c : Chip) (own : Nat × Nat) : ∃ t, c.dmaBegins own = { c with ndl := { c.ndl with tab := t } } ∧
    ∀ n, ∃ l, (c.dmaBegins own).needle n = { c.needle n with dma := l } ∧ l.map (Dma.begun 0) = (c.needle n).dma.map (Dma.begun 0) := by
  unfold Chip.dmaBegins
  split
  next =>
    refine ⟨_, rfl, fun n => ?_⟩
    by_cases hn : n = own.1
    · subst hn
      rw [Chip.needle_updNeedle_same]
      refine ⟨_, rfl, ?_⟩
      rw [List.map_map]
      refine congrArg (fun f => List.map f (c.needle own.1).dma) (funext fun d => ?_)
      dsimp only [Function.comp]
      split <;> rfl
    · rw [Chip.needle_updNeedle_other _ _ hn]
      exact ⟨_, rfl, rfl⟩
  next => exact ⟨c.ndl.tab, rfl, fun n => ⟨_, rfl, rfl⟩⟩

/-- The time of the transfer that an admitted chunk belongs to starts. -/
def Chip.chunkBegins (c : Chip) (k : Chunk) : Chip := match k.own with | some o => c.dmaBegins o | none => c

theorem Chip.chunkBegins_spec (c : Chip) (k : Chunk) : ∃ t, c.chunkBegins k = { c with ndl := { c.ndl with tab := t } } ∧
    ∀ n, ∃ l, (c.chunkBegins k).needle n = { c.needle n with dma := l } ∧ l.map (Dma.begun 0) = (c.needle n).dma.map (Dma.begun 0) := by
  unfold Chip.chunkBegins
  split
  next o _ => exact c.dmaBegins_spec o
  next => exact ⟨c.ndl.tab, rfl, fun n => ⟨_, rfl, rfl⟩⟩

theorem Chip.admitChunk_of_none {c : Chip} {p res : Nat} {guar : Bool} (h : (c.panel p).nextChunk res guar = none) : c.admitChunk p res guar = c := by
  rw [Chip.admitChunk, h]

theorem Chip.admitChunk_of_some {c : Chip} {p res : Nat} {guar g : Bool} {k : Chunk} (h : (c.panel p).nextChunk res guar = some (k, g)) :
    c.admitChunk p res guar = if g || !c.pnl.waitsG res then (c.chunkBegins k).updPanel p (fun x => x.grantChunk res guar) else c := by
  rw [Chip.admitChunk, h]
  rfl

/-- Only the panel's record changes, and when the transfers of needles run from. -/
theorem Chip.admitChunk_frame (c : Chip) (p res : Nat) (guar : Bool) :
    (∃ l t, c.admitChunk p res guar = { c with pnl := l, ndl := { c.ndl with tab := t } }) ∧
    (∀ j, j ≠ p → (c.admitChunk p res guar).panel j = c.panel j) ∧
    ∀ n, ∃ l, (c.admitChunk p res guar).needle n = { c.needle n with dma := l } ∧ l.map (Dma.begun 0) = (c.needle n).dma.map (Dma.begun 0) := by
  have hsame : (∃ l t, c = { c with pnl := l, ndl := { c.ndl with tab := t } }) ∧ (∀ j, j ≠ p → c.panel j = c.panel j) ∧
      ∀ n, ∃ l, c.needle n = { c.needle n with dma := l } ∧ l.map (Dma.begun 0) = (c.needle n).dma.map (Dma.begun 0) :=
    ⟨⟨c.pnl, c.ndl.tab, rfl⟩, fun _ _ => rfl, fun n => ⟨_, rfl, rfl⟩⟩
  cases h : (c.panel p).nextChunk res guar with
  | none =>
    rw [Chip.admitChunk_of_none h]
    exact hsame
  | some k =>
    rw [Chip.admitChunk_of_some h]
    split
    next =>
      obtain ⟨t, hd, hneedles⟩ := c.chunkBegins_spec k.1
      refine ⟨⟨_, t, by rw [hd]; rfl⟩, fun j hj => ?_, hneedles⟩
      rw [Chip.panel_updPanel, if_neg hj, hd]
      rfl
    next => exact hsame

/-- A chunk admitted is spent from its bucket and leaves the line. -/
theorem Chip.panel_admitChunk {c : Chip} {p res : Nat} {guar g : Bool} {w : Chunk}
    (hw : (c.panel p).waiting.find? (fun w => w.res == res && w.guar == guar) = some w) (hg : (c.panel p).draws res guar = some g) :
    (c.admitChunk p res guar).panel p =
      if g || !c.pnl.waitsG res then { (c.panel p).spend res w.bytes g with waiting := (c.panel p).waiting.erase w } else c.panel p := by
  have hnext : (c.panel p).nextChunk res guar = some (w, g) := by
    rw [Panel.nextChunk_of_find hw, hg]
    rfl
  rw [Chip.admitChunk_of_some hnext]
  split
  next =>
    obtain ⟨t, hd, -⟩ := c.chunkBegins_spec w
    rw [Chip.panel_updPanel, if_pos rfl, show (c.chunkBegins w).panel p = c.panel p by rw [hd]; rfl, Panel.grantChunk, hnext]
  next => rfl

/-! ### Fills -/

theorem Pnl.fillDone_of_fill {n : Pnl} {b : Nat} {f : Fill} (h : n.fill? b = some f) (hw : n.chunkWaits (128, b) = false) (hf : f.failed = false) :
    n.fillDone b = some f := by
  rw [Pnl.fillDone, hw, if_neg Bool.false_ne_true, h, Option.filter_some, hf]
  rfl

theorem Pnl.fillDone_of_not {n : Pnl} {b : Nat} (h : n.fill? b = none ∨ (∃ f, n.fill? b = some f ∧ f.failed = true) ∨ n.chunkWaits (128, b) = true) :
    n.fillDone b = none := by
  unfold Pnl.fillDone
  obtain h | ⟨f, h, hf⟩ | h := h
  · rw [h]
    split <;> rfl
  · rw [h, Option.filter_some, hf]
    split <;> rfl
  · exact if_pos h

theorem fill_block {n : Pnl} {b : Nat} {f : Fill} (h : n.fill? b = some f) : f.block = b :=
  beq_iff_eq.mp (List.find?_some (p := fun f : Fill => f.block == b) h)

theorem exec_chartFillComplete_none {s : State} {b : Nat} (h : s.chip.pnl.fillDone b = none) (d : List Byte) : exec (.chartFillComplete b d) s = .next s := by
  have hexec : exec (.chartFillComplete b d) s = execChartFillComplete b d s := rfl
  rw [hexec, execChartFillComplete, h]

theorem exec_chartFillComplete_some {s : State} {b : Nat} {f : Fill} (h : s.chip.pnl.fillDone b = some f) (d : List Byte) :
    exec (.chartFillComplete b d) s = .next { s with
      chip := { s.chip with pnl := s.chip.pnl.filled f }
      mem := if f.remote.isSome then s.mem.writes (b * 65536) (d.take 65536) else s.mem } := by
  have hexec : exec (.chartFillComplete b d) s = execChartFillComplete b d s := rfl
  rw [hexec, execChartFillComplete, h]
  obtain ⟨block, panel, guar, remote, retried, keep, since, seg, failed⟩ := f
  cases remote <;> rfl

/-- A timeout of a fill asked for again. -/
theorem Chip.fillTimeout_of_first {c : Chip} {b st : Nat} {f : Fill} (h : c.pnl.fill? b = some f) (hst : f.remote = some st) (hf : f.failed = false)
    (hr : f.retried = false) (hle : c.now ≤ f.since + 25000) (hlt : f.since + 25000 < 2 ^ 64) :
    c.fillTimeout b = { c with
      gauge := { c.gauge with time := f.since + 25000 }
      pnl := { c.pnl with fills := c.pnl.fills.map (fun g => if g = f then { g with retried := true, since := f.since + 25000 } else g) }
      rnd := (c.advance (f.since + 25000)).sendFetch st b f.guar true } := by
  have hgauge : (c.advance (f.since + usTicks 1000)).gauge = { c.gauge with time := f.since + 25000 } := Gauge.advance_of_le hle hlt
  unfold Chip.fillTimeout
  rw [h]
  dsimp only
  rw [hst]
  dsimp only
  rw [hf, hr, if_neg Bool.false_ne_true, if_neg Bool.false_ne_true, hgauge, show (c.advance (f.since + usTicks 1000)).now = f.since + 25000 from
    congrArg Gauge.time hgauge]
  rfl

/-- A timeout of a fill that was asked for twice. -/
theorem Chip.fillTimeout_of_second {c : Chip} {b st : Nat} {f : Fill} (h : c.pnl.fill? b = some f) (hst : f.remote = some st) (hf : f.failed = false)
    (hr : f.retried = true) (hle : c.now ≤ f.since + 25000) (hlt : f.since + 25000 < 2 ^ 64) :
    ∃ l e, c.fillTimeout b = { c with gauge := { c.gauge with time := f.since + 25000 }, pnl := c.pnl.failFill f, log := l, evc := e } := by
  have hgauge : (c.advance (f.since + usTicks 1000)).gauge = { c.gauge with time := f.since + 25000 } := Gauge.advance_of_le hle hlt
  unfold Chip.fillTimeout
  rw [h]
  dsimp only
  rw [hst]
  dsimp only
  rw [hf, hr, if_neg Bool.false_ne_true, if_pos rfl, ← hgauge]
  exact ⟨_, _, rfl⟩

theorem Chip.fillTimeout_of_not {c : Chip} {b : Nat} {f : Fill} (h : c.pnl.fill? b = some f) (hf : f.remote = none ∨ f.failed = true) :
    c.fillTimeout b = c := by
  unfold Chip.fillTimeout
  rw [h]
  dsimp only
  obtain hf | hf := hf
  · rw [hf]
  · split
    next => rfl
    next => exact if_pos hf

theorem Pnl.failedSegs_failFill {n : Pnl} {f : Fill} {i : Nat} (h : f.seg = some i) : i ∈ (n.failFill f).failedSegs := by
  unfold Pnl.failFill
  rw [h]
  dsimp only
  split
  next hc => exact List.contains_iff_mem.mp hc
  next => exact List.mem_append_right _ (List.mem_singleton_self i)

/-! ### RESIDENT segments -/

/-- A RESIDENT segment that has been loaded: its blocks are pinned, it is not asked for any more, and the charts are warm when all are loaded. -/
theorem Pnl.segLoaded_spec (n : Pnl) (i : Nat) (g : Segment) (all : List Nat) :
    (∀ b ∈ segBlocks g, b ∈ (n.segLoaded i g all).pinned ∧ b ∉ (n.segLoaded i g all).cached) ∧ (∀ b ∈ n.pinned, b ∈ (n.segLoaded i g all).pinned) ∧
    i ∈ (n.segLoaded i g all).loaded ∧ i ∉ (n.segLoaded i g all).failedSegs ∧ (∀ f ∈ (n.segLoaded i g all).fills, f.seg ≠ some i) ∧
    ((n.segLoaded i g all).warm = true ↔ ∀ k ∈ all, k ∈ (n.segLoaded i g all).loaded) := by
  unfold Pnl.segLoaded
  dsimp only
  refine ⟨fun b hb => ⟨?pinned, fun hc => ?cached⟩, fun b hb => List.mem_append_left _ hb, ?loaded, fun h => ?failed, fun f hf => ?fills, ?warm⟩
  case pinned =>
    by_cases h : b ∈ n.pinned
    · exact List.mem_append_left _ h
    · exact List.mem_append_right _ (List.mem_filter.mpr ⟨hb, by simp [h]⟩)
  case cached =>
    have h := (List.mem_filter.mp (List.mem_of_mem_take hc)).2
    simp [hb] at h
  case loaded =>
    split
    next h => exact List.contains_iff_mem.mp h
    next => exact List.mem_append_right _ (List.mem_singleton_self i)
  case failed =>
    have h := (List.mem_filter.mp h).2
    simp at h
  case fills => simpa using (List.mem_filter.mp hf).2
  case warm =>
    rw [List.all_eq_true]
    exact forall_congr' fun k => forall_congr' fun _ => List.contains_iff_mem

/-- Settles O51: each command is one change of the panels' record, taken by the bucket that the chunk draws from or by the state of the fill. -/
theorem panelsAndChartsServe : Obligations.PanelsAndChartsServe := by
  unfold Obligations.PanelsAndChartsServe
  refine ⟨fun s p res guar => ?chunk, fun s b d => ?fill, fun s i => ?segment⟩
  case chunk =>
    obtain ⟨⟨l, t, hframe⟩, hothers, hneedles⟩ := s.chip.admitChunk_frame p res guar
    refine ⟨{ s with chip := s.chip.admitChunk p res guar }, rfl, by rw [hframe], hothers, hneedles, fun hnone => ?none, fun w hw => ⟨fun hg h => ?g,
      fun hg h hb hwait => ?gb, fun hg hb hwait => ?b, fun hg hwait => ?held, fun hb hg => ?empty⟩⟩
    case none => exact congrArg (fun c => Chip.panel c p) (Chip.admitChunk_of_none (Panel.nextChunk_of_none hnone))
    case g =>
      subst hg
      exact (Chip.panel_admitChunk hw (Panel.draws_of_g h)).trans (if_pos rfl)
    case gb => exact (Chip.panel_admitChunk hw (Panel.draws_of_b (.inr h) hb)).trans (if_pos (by rw [hwait]; rfl))
    case b => exact (Chip.panel_admitChunk hw (Panel.draws_of_b (.inl hg) hb)).trans (if_pos (by rw [hwait]; rfl))
    case held =>
      obtain hdraws | hdraws := Panel.draws_not_g hg
      · refine congrArg (fun c => Chip.panel c p) (Chip.admitChunk_of_none ?_)
        rw [Panel.nextChunk_of_find hw, hdraws]
        rfl
      · exact (Chip.panel_admitChunk hw hdraws).trans (if_neg (by rw [hwait]; exact Bool.false_ne_true))
    case empty =>
      refine congrArg (fun c => Chip.panel c p) (Chip.admitChunk_of_none ?_)
      rw [Panel.nextChunk_of_find hw, Panel.draws_of_none hg hb]
      rfl
  case fill =>
    have htimeout : exec (.chartFillTimeout b) s = .next { s with chip := s.chip.fillTimeout b } := rfl
    refine ⟨fun hnone => ?unknown, fun f hf => ⟨fun h => ?waits, fun hfail hwait => ?comes, fun h => ?served, fun hremote hfail hle hlt => ?late⟩⟩
    case unknown =>
      refine List.forall_mem_cons.mpr ⟨exec_chartFillComplete_none (Pnl.fillDone_of_not (.inl hnone)) d, List.forall_mem_cons.mpr ⟨?_, fun _ h => absurd h List.not_mem_nil⟩⟩
      rw [htimeout, Chip.fillTimeout, hnone]
    case waits => exact exec_chartFillComplete_none (Pnl.fillDone_of_not (h.elim (fun h => .inr (.inl ⟨f, hf, h⟩)) fun h => .inr (.inr h))) d
    case comes =>
      refine ⟨_, exec_chartFillComplete_some (Pnl.fillDone_of_fill hf hwait hfail) d, rfl, rfl, ?_⟩
      dsimp only
      rw [Pnl.filled, fill_block hf]
    case served => rw [htimeout, Chip.fillTimeout_of_not hf h]
    case late =>
      obtain ⟨st, hst⟩ := Option.isSome_iff_exists.mp hremote
      cases hr : f.retried with
      | false =>
        rw [htimeout, Chip.fillTimeout_of_first hf hst hfail hr hle hlt]
        exact ⟨_, rfl, rfl, fun _ => ⟨rfl, rfl, rfl⟩, fun h => absurd h Bool.false_ne_true⟩
      | true =>
        obtain ⟨l, e, hrun⟩ := Chip.fillTimeout_of_second hf hst hfail hr hle hlt
        rw [htimeout, hrun]
        exact ⟨_, rfl, rfl, fun h => absurd h.symm Bool.false_ne_true, fun _ => ⟨rfl, rfl, rfl, fun i hi => Pnl.failedSegs_failFill hi⟩⟩
  case segment =>
    have hexec : exec (.residentSegmentLoaded i) s = execResidentSegmentLoaded i s := rfl
    refine ⟨fun h => ?other, fun g hg hres => ?loaded⟩
    case other =>
      rw [hexec, execResidentSegmentLoaded]
      obtain h | h := h
      · rw [h]
        cases s.chip.segments[i]? <;> rfl
      · rw [h]
    case loaded =>
      rw [hexec, execResidentSegmentLoaded, hg]
      dsimp only
      rw [if_pos hres]
      exact ⟨_, rfl, rfl, s.chip.pnl.segLoaded_spec i g s.chip.residentSegs⟩

end Sys2Proof.Machine
end

section
/-!
Video cores (R155, R158, R159, R178, R180, R181): the choice among pictures, the switch at a segment's end, and the end of a lane, family 14.
-/
namespace Sys2Proof.Machine

/-! ### The choice among pictures -/

/-- Picture `a` goes before `b` or with it, by class and, among guaranteed ones, by sub-deadline (R158). -/
def Job.first (a b : Job) : Prop := a.cls ≤ b.cls ∧ (a.cls = 0 → b.cls = 0 → a.due ≤ b.due)

theorem Job.first_of_jobBefore (last : Nat → Nat) (a b : Job) : (jobBefore last a b = true → a.first b) ∧ (jobBefore last a b = false → b.first a) := by
  unfold jobBefore Job.first
  by_cases hcls : a.cls = b.cls
  · rw [if_neg (not_not_intro hcls)]
    by_cases hzero : a.cls = 0
    · rw [if_pos hzero]
      simp only [Bool.or_eq_true, Bool.or_eq_false_iff, Bool.and_eq_true, beq_iff_eq, decide_eq_true_eq, decide_eq_false_iff_not]
      omega
    · exact ⟨fun _ => by omega, fun _ => by omega⟩
  · rw [if_pos hcls, decide_eq_true_eq, decide_eq_false_iff_not]
    omega

theorem firstJob_spec (last : Nat → Nat) {l : List Job} (hl : l ≠ []) : ∃ j, firstJob last l = some j ∧ j ∈ l ∧ ∀ k ∈ l, j.first k := by
  obtain ⟨x, l, rfl⟩ := List.exists_cons_of_ne_nil hl
  obtain ⟨hmem, hle⟩ := foldl_first_spec (before := jobBefore last) (le := Job.first) (fun a => by unfold Job.first; omega)
    (fun a b d => by unfold Job.first; omega) (fun a b => (Job.first_of_jobBefore last a b).1) (fun a b => (Job.first_of_jobBefore last a b).2) l x
  exact ⟨_, rfl, hmem, hle⟩

/-! ### A core takes a picture -/

theorem VCore.job_switch (k : VCore) (j : Job) (now : Nat) : (k.switch j now).job = some { j with start := if k.saved.contains j then now - j.start else now } := by
  unfold VCore.switch
  split <;> rfl

theorem VCore.saved_switch {k : VCore} {cur : Job} (h : k.job = some cur) (j : Job) (now : Nat) :
    { cur with start := now - cur.start } ∈ (k.switch j now).saved := by
  rw [VCore.switch, h]
  exact List.mem_append_right _ (List.mem_singleton_self _)

theorem Chip.core_startDec (c : Chip) (core : Nat) (j : Job) : (c.startDec core j).vdec.core core = (c.vdec.core core).switch j c.now ∧
    ∀ k, k ≠ core → (c.startDec core j).vdec.core k = c.vdec.core k :=
  ⟨Tbl.get_upd_same ({} : VCore) c.vdec.cores core (fun k => k.switch j c.now), fun _ hk => Tbl.get_upd_other ({} : VCore) c.vdec.cores (fun k => k.switch j c.now) hk⟩

theorem Chip.core_startLane (c : Chip) (core : Nat) (j : Job) : (c.startLane core j).venc.core core = (c.venc.core core).switch j c.now ∧
    ∀ k, k ≠ core → (c.startLane core j).venc.core k = c.venc.core k :=
  ⟨Tbl.get_upd_same ({} : VCore) c.venc.cores core (fun k => k.switch j c.now), fun _ hk => Tbl.get_upd_other ({} : VCore) c.venc.cores (fun k => k.switch j c.now) hk⟩

theorem Chip.last_startDec (c : Chip) (core : Nat) (j : Job) {cls : Nat} (h : cls = 1 ∨ cls = 2) :
    (c.startDec core j).vdec.last cls = if j.cls = cls then j.ticket else c.vdec.last cls := by
  obtain rfl | rfl := h <;> rfl

/-- A decode core free of the picture on it. -/
def Chip.decReleased (c : Chip) (core : Nat) : Chip := { c with vdec := { c.vdec with cores := Tbl.upd {} c.vdec.cores core VCore.release } }

theorem Chip.core_decReleased (c : Chip) (core : Nat) : (c.decReleased core).vdec.core core = (c.vdec.core core).release ∧
    ∀ k, k ≠ core → (c.decReleased core).vdec.core k = c.vdec.core k :=
  ⟨Tbl.get_upd_same _ _ _ _, fun _ hk => Tbl.get_upd_other _ _ _ hk⟩

theorem Chip.decChoices_decReleased (c : Chip) (core : Nat) : (c.decReleased core).decChoices core = c.decChoices core := by
  unfold Chip.decChoices
  rw [(c.core_decReleased core).1]
  rfl

/-- A core left by an abandoned picture takes the first of its choices. -/
theorem Chip.fillDec_decReleased {c : Chip} {core : Nat} (hon : (c.vdec.core core).offline = false) (htest : (c.vdec.core core).testing = false) :
    (c.decReleased core).fillDec core =
      match firstJob c.vdec.last (c.decChoices core) with | some j => (c.decReleased core).startDec core j | none => c.decReleased core := by
  have hfree : ((c.decReleased core).vdec.core core).free = true := by
    rw [(c.core_decReleased core).1, VCore.free]
    simp [VCore.release, hon, htest]
  refine (if_pos hfree).trans ?_
  have hchoice : firstJob (c.decReleased core).vdec.last ((c.decReleased core).decChoices core) = firstJob c.vdec.last (c.decChoices core) := by
    rw [Chip.decChoices_decReleased]
    rfl
  cases hfirst : firstJob c.vdec.last (c.decChoices core) <;> simp only [hchoice, hfirst]

/-! ### A lane starts -/

/-- An output whose place is named is changed in place; the others stay. -/
theorem Ticket.outs_updOut (t : Ticket) (source sub : Nat) (f : Out → Out) :
    (t.updOut source sub f).outs.length = t.outs.length ∧
    (∀ o ∈ t.outs, o.source = source → o.sub = sub → f o ∈ (t.updOut source sub f).outs) ∧
    ∀ q ∈ (t.updOut source sub f).outs, ∃ o ∈ t.outs, q = if o.source = source ∧ o.sub = sub then f o else o := by
  refine ⟨List.length_map _, fun o ho hs hb => List.mem_map.mpr ⟨o, ho, if_pos ⟨hs, hb⟩⟩, fun q hq => ?_⟩
  obtain ⟨o, ho, hq⟩ := List.mem_map.mp hq
  exact ⟨o, ho, hq.symm⟩

/-- An output at the named place is one that was changed, where the change leaves source and sub. -/
theorem Ticket.mem_updOut {t : Ticket} {source sub : Nat} {f : Out → Out} {q : Out}
    (hq : q ∈ (t.updOut source sub f).outs) (hs : q.source = source) (hb : q.sub = sub) : ∃ o ∈ t.outs, q = f o := by
  obtain ⟨o, ho, he⟩ := (t.outs_updOut source sub f).2.2 q hq
  by_cases h : o.source = source ∧ o.sub = sub
  · rw [if_pos h] at he
    exact ⟨o, ho, he⟩
  · rw [if_neg h] at he
    subst he
    exact absurd ⟨hs, hb⟩ h

theorem Out.started_start (o : Out) (r : Option DetResult) : (o.start r).started = true := by
  unfold Out.start
  split
  next h => exact h
  next => rfl

/-- The ticket of a lane that starts: its output has begun with the regions of the latest analysis. -/
theorem Chip.ticket?_startLane {c : Chip} {core : Nat} {j : Job} {k : Ticket} {sd : StreamDef} (hk : c.ticket? j.ticket = some k)
    (hsd : c.stream? k.pipeline = some sd) :
    (c.startLane core j).ticket? j.ticket = some (k.updOut j.source j.sub (fun o => o.start (k.roiFor sd o))) := by
  have hcast : (c.startLane core j).cast = c.cast.updTicket j.ticket (fun x => x.updOut j.source j.sub (fun o => o.start (x.roiFor sd o))) := by
    unfold Chip.startLane Chip.beginOut
    rw [hk]
    dsimp only
    rw [hsd, Chip.id_of_ticket? hk]
  unfold Chip.ticket?
  rw [hcast]
  exact (List.find?_updTicket c.cast.tickets j.ticket (f := fun x => x.updOut j.source j.sub (fun o => o.start (x.roiFor sd o))) fun _ => rfl).trans (congrArg (Option.map _) hk)

theorem Chip.outs_startLane {c : Chip} {core : Nat} {j : Job} {k v : Ticket} {sd : StreamDef} (hk : c.ticket? j.ticket = some k)
    (hsd : c.stream? k.pipeline = some sd) (hv : (c.startLane core j).ticket? j.ticket = some v) :
    v.outs.length = k.outs.length ∧ (∀ o ∈ v.outs, o.source = j.source → o.sub = j.sub → o.started = true) ∧
    ∀ o ∈ k.outs, o.source = j.source → o.sub = j.sub → o.started = false →
      { o with started := true, roi := (k.roiFor sd o).map DetResult.source, roiCount := ((k.roiFor sd o).map (fun r => r.regions.length)).getD 0
               regions := ((k.roiFor sd o).map (fun r => r.regions)).getD [] } ∈ v.outs := by
  rw [Chip.ticket?_startLane hk hsd] at hv
  obtain rfl := Option.some.inj hv
  obtain ⟨hlen, hmem, -⟩ := k.outs_updOut j.source j.sub (fun o => o.start (k.roiFor sd o))
  refine ⟨hlen, fun q hq hs hb => ?_, fun o ho hs hb hnew => ?_⟩
  · obtain ⟨o, -, rfl⟩ := Ticket.mem_updOut hq hs hb
    exact o.started_start _
  · have hstart := hmem o ho hs hb
    unfold Out.start at hstart
    rw [hnew, if_neg Bool.false_ne_true] at hstart
    exact hstart

/-! ### A lane ends -/

theorem List.find?_replaceTicket {l : List Ticket} {k u : Ticket} (hu : u.id = k.id) (hk : l.find? (fun t => t.id == k.id) = some k) :
    (l.map (fun t => if t.id = k.id then u else t)).find? (fun t => t.id == k.id) = some u := by
  have hmap : (fun t : Ticket => if t.id = k.id then u else t) = fun t => if t.id = k.id then (if t.id = k.id then u else t) else t := by
    funext t
    split <;> rfl
  rw [hmap, List.find?_updTicket l k.id (f := fun t => if t.id = k.id then u else t) fun t => by split <;> simp_all, hk]
  exact congrArg some (if_pos rfl)

theorem Tbl.get_mapV {α : Type} {d : α} {f : α → α} (hf : f d = d) (t : Tbl α) (k : Nat) : Tbl.get d (Tbl.mapV t f) k = f (Tbl.get d t k) := by
  induction t with
  | nil => exact hf.symm
  | cons e t ih =>
    rw [show Tbl.mapV (e :: t) f = (e.1, f e.2) :: Tbl.mapV t f from rfl, Tbl.get, Tbl.get, ih]
    split
    next => rfl
    next =>
      split
      next => exact hf.symm
      next => rfl

/-- What the end of a lane leaves of its core. -/
def VCore.freed (k : VCore) (j : Job) : VCore := { k with job := none, busy := if j.abandon then k.busy else k.busy.add (2 * j.samples) }

theorem Chip.encodeFree_frame (c : Chip) (core : Nat) (j : Job) : c.encodeFree core j = { c with venc := (c.encodeFree core j).venc } ∧
    (c.encodeFree core j).venc.core core = (c.venc.core core).freed j ∧ (∀ k, k ≠ core → (c.encodeFree core j).venc.core k = c.venc.core k) ∧
    (c.encodeFree core j).venc.samples = if j.abandon then c.venc.samples else c.venc.samples.add j.samples :=
  ⟨rfl, Tbl.get_upd_same ({} : VCore) c.venc.cores core (fun k => k.freed j), fun _ hk => Tbl.get_upd_other ({} : VCore) c.venc.cores (fun k => k.freed j) hk, rfl⟩

theorem encodeComplete_of_over {core : Nat} {poisoned : Bool} {c : Chip × Mem} {j : Job} (hjob : (c.1.venc.core core).job = some j)
    (h : j.abandon = true ∨ c.1.ticket? j.ticket = none) : encodeComplete core poisoned c = (c.1.encodeFree core j, c.2) := by
  unfold encodeComplete
  rw [hjob]
  dsimp only
  obtain h | h := h
  · exact if_pos h
  · rw [h]
    dsimp only
    rw [ite_self]

/-- The end of a lane of a picture that its ticket still has. -/
theorem encodeComplete_of_live {core : Nat} {poisoned : Bool} {c : Chip × Mem} {j : Job} {k : Ticket} {sd : StreamDef}
    (hjob : (c.1.venc.core core).job = some j) (hlive : j.abandon = false) (hk : c.1.ticket? j.ticket = some k) (hsd : c.1.stream? k.pipeline = some sd) :
    encodeComplete core poisoned c =
      if poisoned then codedEnd core k sd j true (c.1.encodeFree core j, c.2)
      else if c.1.heldBack sd j then c
      else if (c.1.encodeFree core j).venc.lanesLeft j then (c.1.encodeFree core j, c.2)
      else if (c.1.encTraffic core k sd j).pnl.chunkWaits (224 + core, 0) then (c.1.encTraffic core k sd j, c.2)
      else codedEnd core k sd j false ((c.1.encTraffic core k sd j).encodeFree core j, c.2) := by
  unfold encodeComplete
  rw [hjob]
  dsimp only
  rw [hlive, if_neg Bool.false_ne_true, hk]
  dsimp only
  rw [hsd]

/-- A picture's traffic changes the core's note of it and the panel's regulators. -/
theorem Chip.encTraffic_frame (c : Chip) (core : Nat) (k : Ticket) (sd : StreamDef) (j : Job) :
    (∃ l q, c.encTraffic core k sd j = { c with venc := { c.venc with cores := l }, pnl := q }) ∧
    (j.charged = true → c.encTraffic core k sd j = c) ∧
    (j.charged = false → (c.encTraffic core k sd j).venc.core core =
      { c.venc.core core with job := (c.venc.core core).job.map (fun x => { x with charged := true }) }) := by
  unfold Chip.encTraffic
  dsimp only
  cases j.charged with
  | true => exact ⟨⟨c.venc.cores, c.pnl, rfl⟩, fun _ => rfl, fun h => absurd h.symm Bool.false_ne_true⟩
  | false =>
    exact ⟨⟨_, _, rfl⟩, fun h => absurd h Bool.false_ne_true, fun _ => Tbl.get_upd_same ({} : VCore) c.venc.cores core
      (fun k => { k with job := k.job.map (fun x => { x with charged := true }) })⟩

theorem codedEnd_good {core : Nat} {k : Ticket} {sd : StreamDef} {j : Job} {o : Out}
    (ho : k.outs.find? (fun o => o.source == j.source && o.sub == j.sub) = some o) (c : Chip × Mem) : codedEnd core k sd j false c = encoded k sd o c := by
  rw [codedEnd, if_neg Bool.false_ne_true, ho]

theorem Ticket.rewind_spec (t : Ticket) (gone : Out → Bool) : (t.rewind gone).id = t.id ∧ (t.rewind gone).outs.length = t.outs.length := by
  unfold Ticket.rewind
  dsimp only
  split
  next => exact ⟨rfl, List.length_map _⟩
  next => exact ⟨rfl, List.length_map _⟩

theorem VCore.frog_of_idle {k : VCore} (h : k.job = none) (gone : Job → Bool) : (k.frog gone).job = none := by
  unfold VCore.frog
  rw [h]
  rfl

/-- A picture coded on poisoned data: the other lanes leave, its output is skipped with FAULT. -/
theorem codedEnd_poisoned (core : Nat) (k : Ticket) (sd : StreamDef) (j : Job) (c : Chip × Mem) :
    (codedEnd core k sd j true c).2 = c.2 ∧
    (codedEnd core k sd j true c).1.rst.voided = c.1.rst.voided.inc ∧ (codedEnd core k sd j true c).1.venc.skipped = c.1.venc.skipped.inc ∧
    (codedEnd core k sd j true c).1.venc.samples = c.1.venc.samples ∧
    (codedEnd core k sd j true c).1.venc.core core = (c.1.venc.core core).frog (samePicture j) ∧
    (codedEnd core k sd j true c).1.venc.waiting = c.1.venc.waiting.filter (fun q => !samePicture j q) ∧
    (core < 8 → ((codedEnd core k sd j true c).1.evc.src (588 + core)).pending = true) ∧
    (codedEnd core k sd j true c).1.cast = c.1.cast.updTicket k.id (fun _ =>
      (k.rewind (fun o => o.source == j.source && o.sub == j.sub)).updOut j.source j.sub (fun q => { q with state := .skipped 0x41 false, unit := [] })) := by
  refine ⟨rfl, rfl, rfl, rfl, Tbl.get_mapV (f := fun k : VCore => k.frog (samePicture j)) rfl _ _, rfl, fun hcore => ?_, rfl⟩
  exact Chip.incident_pending (by unfold reservedSource; simp; omega) _ _ _ _ _ _

/-- A picture coded: its unit, its reconstruction and the counters. -/
theorem encoded_spec (k : Ticket) (sd : StreamDef) (o : Out) (c : Chip × Mem) :
    let r := k.codeOut sd o c.1.tracks.live c.2
    let e := k.enc.done sd (k.outRate sd) o.key (8 * r.unit.length) o.qp r.vecs
    (encoded k sd o c).2 = hankWrite c.2 ((k.enc.current.map (fun b => b.hanks)).getD []) 0 r.recon.bytes ∧
    (encoded k sd o c).1.venc.pics = c.1.venc.pics.inc ∧ (encoded k sd o c).1.venc.samples = c.1.venc.samples ∧
    (encoded k sd o c).1.venc.cores = c.1.venc.cores ∧ (encoded k sd o c).1.venc.clamp = (if r.clamped then c.1.venc.clamp.inc else c.1.venc.clamp) ∧
    (encoded k sd o c).1.cast = c.1.cast.updTicket k.id (fun x =>
      { x.updOut o.source o.sub (fun q => { q with state := .ready, unit := r.unit, after := e }) with enc := e }) := by
  intro r e
  have hrun : encoded k sd o c = (Chip.wrote { c.1 with
      cast := c.1.cast.updTicket k.id (fun x => { x.updOut o.source o.sub (fun q => { q with state := .ready, unit := r.unit, after := e }) with enc := e })
      venc := { c.1.venc with
        pics := c.1.venc.pics.inc, kib := c.1.venc.kib.add ((c.1.venc.kibRest + r.unit.length) / 1024), kibRest := (c.1.venc.kibRest + r.unit.length) % 1024
        clamp := if r.clamped then c.1.venc.clamp.inc else c.1.venc.clamp, filler := c.1.venc.filler.add r.filler } }
      (((k.enc.current.map (fun b => b.hanks)).getD []).map (fun h => (hankAddr h, 0x4000))),
      hankWrite c.2 ((k.enc.current.map (fun b => b.hanks)).getD []) 0 r.recon.bytes) := rfl
  obtain ⟨h, l, hwrote⟩ := Chip.wrote_eq { c.1 with
      cast := c.1.cast.updTicket k.id (fun x => { x.updOut o.source o.sub (fun q => { q with state := .ready, unit := r.unit, after := e }) with enc := e })
      venc := { c.1.venc with
        pics := c.1.venc.pics.inc, kib := c.1.venc.kib.add ((c.1.venc.kibRest + r.unit.length) / 1024), kibRest := (c.1.venc.kibRest + r.unit.length) % 1024
        clamp := if r.clamped then c.1.venc.clamp.inc else c.1.venc.clamp, filler := c.1.venc.filler.add r.filler } }
      (((k.enc.current.map (fun b => b.hanks)).getD []).map (fun h => (hankAddr h, 0x4000)))
  rw [hrun, hwrote]
  exact ⟨rfl, rfl, rfl, rfl, rfl, rfl⟩

theorem exec_encodeComplete_core (s : State) (core : Nat) (poisoned : Bool) : exec (.encodeComplete core poisoned) s =
    .next (Safety.upToDate (match (s.chip.venc.core core).job with | some j => j.ticket | none => 0)
      { s with chip := (encodeComplete core poisoned (s.chip, s.mem)).1, mem := (encodeComplete core poisoned (s.chip, s.mem)).2 }) := by
  rw [exec_encodeComplete]
  unfold execEncodeComplete encodeEnd Safety.upToDate
  cases (s.chip.venc.core core).job <;> rfl

/-- Settles O52: a core's switch and a lane's end are one change of its record; the choice is the fold's minimum by class and sub-deadline. -/
theorem videoCoresSwitchAndFinish : Obligations.VideoCoresSwitchAndFinish := by
  unfold Obligations.VideoCoresSwitchAndFinish
  refine ⟨fun last l hl => firstJob_spec last hl, fun s core => ?decode, fun s core => ?encode, fun s core poisoned hidle => ?none, fun s core poisoned j hjob => ?lane⟩
  case decode =>
    intro x next
    have hexec : exec (.decodeSegmentEnd core) s = .next { s with chip := s.chip.decSegment core } := rfl
    refine ⟨fun hjob => ?idle, fun cur hjob hkeep => ⟨fun j hj hpre => ?preempted, fun h => ?goesOn⟩, fun cur hjob hgone hon htest => ?abandoned⟩
    case idle => rw [hexec, Chip.decSegment, show (s.chip.vdec.core core).job = none from hjob]
    case preempted =>
      obtain ⟨hcore, hothers⟩ := s.chip.core_startDec core j
      have hrun : s.chip.decSegment core =
          { s.chip.startDec core j with vdec := { (s.chip.startDec core j).vdec with preempt := s.chip.vdec.preempt.inc } } := by
        rw [Chip.decSegment, show (s.chip.vdec.core core).job = some cur from hjob]
        dsimp only
        rw [hkeep, if_neg Bool.false_ne_true, show firstJob s.chip.vdec.last (s.chip.decChoices core) = some j from hj]
        exact if_pos hpre
      rw [hexec, hrun]
      refine ⟨_, rfl, rfl, rfl, ?_, ?_, rfl, fun cls hcls => s.chip.last_startDec core j hcls, hothers⟩
      · exact (congrArg VCore.job hcore).trans ((s.chip.vdec.core core).job_switch j s.chip.now)
      · exact (congrArg VCore.saved hcore).symm ▸ VCore.saved_switch hjob j s.chip.now
    case goesOn =>
      rw [hexec, Chip.decSegment, show (s.chip.vdec.core core).job = some cur from hjob]
      dsimp only
      rw [hkeep, if_neg Bool.false_ne_true]
      obtain h | ⟨j, h, hpre⟩ := h
      · rw [show firstJob s.chip.vdec.last (s.chip.decChoices core) = none from h]
      · rw [show firstJob s.chip.vdec.last (s.chip.decChoices core) = some j from h]
        dsimp only
        rw [hpre, if_neg Bool.false_ne_true]
    case abandoned =>
      have hrun : s.chip.decSegment core = (s.chip.decReleased core).fillDec core := by
        rw [Chip.decSegment, show (s.chip.vdec.core core).job = some cur from hjob]
        exact if_pos hgone
      obtain ⟨hrel, hrels⟩ := s.chip.core_decReleased core
      rw [hexec, hrun, Chip.fillDec_decReleased hon htest]
      cases hnext : next with
      | none =>
        rw [show firstJob s.chip.vdec.last (s.chip.decChoices core) = none from hnext]
        exact ⟨_, rfl, rfl, hrels, fun _ => ⟨congrArg VCore.job hrel, rfl⟩, fun j hj => absurd hj.symm (Option.some_ne_none j)⟩
      | some j =>
        obtain ⟨hcore, hothers⟩ := (s.chip.decReleased core).core_startDec core j
        rw [show firstJob s.chip.vdec.last (s.chip.decChoices core) = some j from hnext]
        refine ⟨_, rfl, rfl, fun k hk => (hothers k hk).trans (hrels k hk), fun h => absurd h (Option.some_ne_none j), fun i hi => ?_⟩
        obtain rfl := Option.some.inj hi
        refine ⟨(congrArg VCore.job hcore).trans ?_, rfl⟩
        rw [VCore.job_switch, hrel]
        rfl
  case encode =>
    intro x next
    have hlane : exec (.laneStart core) s = .next { s with chip := s.chip.laneStart core } := rfl
    have hsegment : exec (.encodeSegmentEnd core) s = .next { s with chip := s.chip.encSegment core } := rfl
    refine ⟨fun h => ?busy, fun hfree j hj => ?starts, fun hjob => ?empty, fun cur hjob => ?segment⟩
    case busy =>
      rw [hlane, Chip.laneStart]
      obtain h | h := h
      · rw [show (s.chip.venc.core core).free = false from h, if_neg Bool.false_ne_true]
      · rw [show firstJob s.chip.venc.last (s.chip.encChoices core) = none from h]
        dsimp only
        rw [ite_self]
    case starts =>
      obtain ⟨hcore, hothers⟩ := s.chip.core_startLane core j
      have hrun : s.chip.laneStart core = s.chip.startLane core j := by
        rw [Chip.laneStart, if_pos hfree, show firstJob s.chip.venc.last (s.chip.encChoices core) = some j from hj]
      rw [hlane, hrun]
      exact ⟨_, rfl, rfl, (congrArg VCore.job hcore).trans (VCore.job_switch _ _ _), rfl, hothers, fun k sd v hk hsd hv => Chip.outs_startLane hk hsd hv⟩
    case empty => rw [hsegment, Chip.encSegment, show (s.chip.venc.core core).job = none from hjob]
    case segment =>
      by_cases hgone : cur.abandon = true
      case pos =>
        have hrun : s.chip.encSegment core = { s.chip with venc := { s.chip.venc with cores := Tbl.upd {} s.chip.venc.cores core VCore.release } } := by
          rw [Chip.encSegment, show (s.chip.venc.core core).job = some cur from hjob]
          exact if_pos hgone
        rw [hsegment, hrun]
        refine ⟨_, rfl, rfl, fun k hk => Tbl.get_upd_other ({} : VCore) s.chip.venc.cores VCore.release hk,
          fun _ => ⟨Tbl.get_upd_same ({} : VCore) s.chip.venc.cores core VCore.release, rfl⟩, fun h => absurd hgone (ne_true_of_eq_false h), fun h => absurd hgone (ne_true_of_eq_false h)⟩
      case neg =>
        have hrun : s.chip.encSegment core = match next with
            | none => s.chip
            | some j => if preempts j cur then
                { s.chip.startLane core j with venc := { (s.chip.startLane core j).venc with preempt := s.chip.venc.preempt.inc } } else s.chip := by
          rw [Chip.encSegment, show (s.chip.venc.core core).job = some cur from hjob]
          refine (if_neg hgone).trans ?_
          cases hnext : next with
          | none => rw [show firstJob s.chip.venc.last (s.chip.encChoices core) = none from hnext]
          | some j => rw [show firstJob s.chip.venc.last (s.chip.encChoices core) = some j from hnext]
        rw [hsegment, hrun]
        refine ⟨_, rfl, ?_, fun k hk => ?_, fun h => absurd h hgone, fun _ h => ?_, fun _ j hj hpre => ?_⟩
        · cases next with
          | none => rfl
          | some j => by_cases hpre : preempts j cur = true <;> simp only [hpre, if_true] <;> rfl
        · cases next with
          | none => rfl
          | some j =>
            dsimp only
            split
            next => exact (s.chip.core_startLane core j).2 k hk
            next => rfl
        · obtain h | ⟨j, h, hpre⟩ := h
          · rw [h]
          · rw [h]
            dsimp only
            rw [hpre, if_neg Bool.false_ne_true]
        · have hcore := (s.chip.core_startLane core j).1
          rw [hj]
          dsimp only
          rw [if_pos hpre]
          exact ⟨rfl, (congrArg VCore.job hcore).trans (VCore.job_switch _ _ _), (congrArg VCore.saved hcore).symm ▸ VCore.saved_switch hjob j s.chip.now⟩
  case none =>
    have hrun : encodeComplete core poisoned (s.chip, s.mem) = (s.chip, s.mem) := by rw [encodeComplete, hidle]
    rw [exec_encodeComplete_core, hidle, hrun]
  case lane =>
    intro freed
    rw [exec_encodeComplete_core, hjob]
    refine ⟨{ s with chip := (encodeComplete core poisoned (s.chip, s.mem)).1, mem := (encodeComplete core poisoned (s.chip, s.mem)).2 }, rfl, rfl,
      fun h => ?gone, fun k sd hlive hk hsd => ⟨fun hbad => ?bad, fun hgood hheld => ?held, fun hgood hheld => ?good⟩⟩
    case gone =>
      obtain ⟨hframe, hcore, hothers, hsamples⟩ := s.chip.encodeFree_frame core j
      rw [encodeComplete_of_over (c := (s.chip, s.mem)) hjob h]
      exact ⟨congrArg (fun c => { s with chip := c }) hframe, hcore, hothers, hsamples⟩
    case bad =>
      obtain ⟨-, hcore, -, hsamples⟩ := s.chip.encodeFree_frame core j
      rw [encodeComplete_of_live (c := (s.chip, s.mem)) hjob hlive hk hsd, hbad, if_pos rfl]
      obtain ⟨hmem, hvoided, hskipped, hcount, hend, hwaiting, hpending, hcast⟩ := codedEnd_poisoned core k sd j (s.chip.encodeFree core j, s.mem)
      refine ⟨hmem, hvoided, hskipped, hcount.trans (hsamples.trans (if_neg (ne_true_of_eq_false hlive))), ?_, hpending, fun w hw => ?_, fun v hv => ?_⟩
      · dsimp only
        rw [hend, hcore]
        rfl
      · dsimp only at hw
        rw [hwaiting] at hw
        simpa using (List.mem_filter.mp hw).2
      · dsimp only at hv
        rw [Chip.ticket?, hcast, ← Chip.id_of_ticket? hk] at hv
        obtain ⟨hid, hlen⟩ := k.rewind_spec (fun o => o.source == j.source && o.sub == j.sub)
        have hfound := List.find?_replaceTicket (u := (k.rewind (fun o => o.source == j.source && o.sub == j.sub)).updOut j.source j.sub
          (fun q => { q with state := .skipped 0x41 false, unit := [] })) hid ((Chip.id_of_ticket? hk).symm ▸ hk)
        obtain rfl := Option.some.inj (hfound.symm.trans hv)
        refine ⟨(Ticket.outs_updOut _ _ _ _).1.trans hlen, fun o ho hs hb => ?_⟩
        obtain ⟨q, -, rfl⟩ := Ticket.mem_updOut ho hs hb
        exact ⟨rfl, rfl⟩
    case held =>
      rw [encodeComplete_of_live (c := (s.chip, s.mem)) hjob hlive hk hsd, hgood, if_neg Bool.false_ne_true, if_pos hheld]
    case good =>
      intro left d
      obtain ⟨hfree, hcore, hothers, hsamples⟩ := s.chip.encodeFree_frame core j
      obtain ⟨htraffic, hcharged, huncharged⟩ := s.chip.encTraffic_frame core k sd j
      have hadd := hsamples.trans (if_neg (ne_true_of_eq_false hlive))
      rw [encodeComplete_of_live (c := (s.chip, s.mem)) hjob hlive hk hsd, hgood, if_neg Bool.false_ne_true, hheld, if_neg Bool.false_ne_true]
      have hlanes : (s.chip.encodeFree core j).venc.lanesLeft j = left := rfl
      obtain ⟨l, q, hd⟩ := htraffic
      rw [hlanes]
      refine ⟨fun hleft => ?left, ⟨by rw [show d = _ from hd], hcharged, fun h => ?charged⟩, fun hleft hwait => ?waits, fun hleft hwait o ho => ?coded⟩
      case charged =>
        rw [show d.venc.core core = _ from huncharged h, hjob]
        rfl
      case left =>
        rw [if_pos hleft]
        exact ⟨congrArg (fun c => { s with chip := c }) hfree, hcore, hothers, hadd⟩
      case waits => rw [if_neg (ne_true_of_eq_false hleft), if_pos hwait]
      case coded =>
        intro r
        rw [if_neg (ne_true_of_eq_false hleft), if_neg (ne_true_of_eq_false hwait), codedEnd_good ho]
        obtain ⟨-, hfreed, -, hcount⟩ := d.encodeFree_frame core j
        obtain ⟨hmem, hpics, hkept, hcores, hclamp, hcast⟩ := encoded_spec k sd o (d.encodeFree core j, s.mem)
        have hr : k.codeOut sd o (d.encodeFree core j).tracks.live s.mem = r := by rw [show d = _ from hd]; rfl
        rw [hr] at hmem hclamp hcast
        have hold : (d.encodeFree core j).venc.pics = s.chip.venc.pics ∧ (d.encodeFree core j).venc.clamp = s.chip.venc.clamp ∧
            d.venc.samples = s.chip.venc.samples ∧ (d.encodeFree core j).cast = s.chip.cast := by
          rw [show d = _ from hd]
          exact ⟨rfl, rfl, rfl, rfl⟩
        obtain ⟨hpic0, hclamp0, hsamples0, hcast0⟩ := hold
        rw [hsamples0, if_neg (ne_true_of_eq_false hlive)] at hcount
        refine ⟨hpics.trans (congrArg Ctr.inc hpic0), hkept.trans hcount, ?_, by rw [hclamp0] at hclamp; exact hclamp, hmem, fun v hv => ?_⟩
        · have hcore := congrArg (fun t => Tbl.get ({} : VCore) t core) hcores
          exact (congrArg VCore.job hcore).trans (congrArg VCore.job hfreed)
        · have hid := Chip.id_of_ticket? hk
          dsimp only at hv hcast
          rw [Chip.ticket?, hcast, hcast0, hid] at hv
          have hfound := (List.find?_updTicket s.chip.cast.tickets j.ticket (f := fun x => { x.updOut o.source o.sub (fun q => { q with
            state := .ready, unit := r.unit, after := k.enc.done sd (k.outRate sd) o.key (8 * r.unit.length) o.qp r.vecs }) with
            enc := k.enc.done sd (k.outRate sd) o.key (8 * r.unit.length) o.qp r.vecs }) fun _ => rfl).trans (congrArg (Option.map _) hk)
          obtain rfl := Option.some.inj (hfound.symm.trans hv)
          have hplace := List.find?_some ho
          simp only [Bool.and_eq_true, beq_iff_eq] at hplace
          refine ⟨(Ticket.outs_updOut _ _ _ _).1, rfl, fun q hq hs hb => ?_⟩
          rw [← hplace.1] at hs
          rw [← hplace.2] at hb
          obtain ⟨p, -, rfl⟩ := Ticket.mem_updOut hq hs hb
          exact ⟨rfl, rfl⟩

end Sys2Proof.Machine
end

section
/-!
The Round's ports: what a port makes of a frame (R249 to R254), the messages it queues, and a HELLO (R263), family 15.
-/
namespace Sys2Proof.Machine

/-! ### Ports -/

theorem Port.other_ne (p : Port) : p.other ≠ p := by cases p <;> decide

theorem Port.eq_or_other (p q : Port) : q = p ∨ q = p.other := by cases p <;> cases q <;> decide

@[simp] theorem Port.other_other (p : Port) : p.other.other = p := by cases p <;> rfl

@[simp] theorem Rnd.port_updPort_same (r : Rnd) (p : Port) (f : RPort → RPort) : (r.updPort p f).port p = f (r.port p) := by cases p <;> rfl

@[simp] theorem Rnd.port_updPort_other (r : Rnd) (p : Port) (f : RPort → RPort) : (r.updPort p f).port p.other = r.port p.other := by cases p <;> rfl

theorem Rnd.port_updPort_of_ne (r : Rnd) {p q : Port} (h : q ≠ p) (f : RPort → RPort) : (r.updPort p f).port q = r.port q := by
  rw [(Port.eq_or_other p q).resolve_left h, Rnd.port_updPort_other]

/-- Two changes of a port are one. -/
theorem Rnd.updPort_updPort (r : Rnd) (p : Port) (f g : RPort → RPort) : (r.updPort p f).updPort p g = r.updPort p (fun x => g (f x)) := by
  cases p <;> rfl

/-! ### Frames queued -/

/-- Each port has more at its egress, a wrapped one nothing where the other is open. -/
def Rnd.Queued (r q : Rnd) : Prop := ∀ p, ∃ l, q.port p = { r.port p with egress := (r.port p).egress ++ l } ∧
  ((r.port p).state = .wrapped → (r.port p.other).state ≠ .wrapped → l = [])

theorem Rnd.queued_of_ports {r q : Rnd} (h : ∀ p, q.port p = r.port p) : r.Queued q :=
  fun p => ⟨[], by rw [List.append_nil]; exact h p, fun _ _ => rfl⟩

section
variable {r q u : Rnd}

/-- Queueing leaves a port's state as it is. -/
theorem Rnd.Queued.state (h : r.Queued q) (p : Port) : (q.port p).state = (r.port p).state := by
  obtain ⟨l, hl, -⟩ := h p
  rw [hl]

theorem Rnd.Queued.transit (h : r.Queued q) (p : Port) : (q.port p).transit = (r.port p).transit := by
  obtain ⟨l, hl, -⟩ := h p
  rw [hl]

theorem Rnd.Queued.mem_egress (h : r.Queued q) {p : Port} {f : RFrame} (hf : f ∈ (r.port p).egress) : f ∈ (q.port p).egress := by
  obtain ⟨l, hl, -⟩ := h p
  rw [hl]
  exact List.mem_append_left _ hf

theorem Rnd.Queued.trans (h : r.Queued q) (k : q.Queued u) : r.Queued u := by
  intro p
  obtain ⟨l, hl, hnone⟩ := h p
  obtain ⟨l', hl', hnone'⟩ := k p
  refine ⟨l ++ l', by rw [hl', hl, List.append_assoc], fun hwrap hopen => ?_⟩
  rw [hnone hwrap hopen, hnone' ((h.state p).trans hwrap) (by rw [h.state]; exact hopen)]
  rfl

/-- A ring that has sent messages of its own: frames queued, numbers taken, alarms counted. -/
structure Rnd.Told (r q : Rnd) : Prop where
  kept : ∃ e w s o a, q = { r with east := e, west := w, eseq := s, overbooked := o, alarmSupp := a }
  queued : r.Queued q

theorem Rnd.Told.refl (r : Rnd) : r.Told r := ⟨⟨_, _, _, _, _, rfl⟩, Rnd.queued_of_ports fun _ => rfl⟩

theorem Rnd.Told.trans (h : r.Told q) (k : q.Told u) : r.Told u := by
  obtain ⟨e, w, s, o, a, hq⟩ := h.kept
  obtain ⟨e', w', s', o', a', hu⟩ := k.kept
  exact ⟨⟨e', w', s', o', a', by rw [hu, hq]⟩, h.queued.trans k.queued⟩

end

/-- A frame of this module goes to its port, or to the other one if that is wrapped. -/
theorem Rnd.told_enqueue (r : Rnd) (p : Port) (f : RFrame) : r.Told (r.enqueue p none f) := by
  refine ⟨?_, fun q => ?_⟩
  · exact ⟨_, _, r.eseq, r.overbooked, r.alarmSupp, rfl⟩
  · unfold Rnd.enqueue
    by_cases hturn : r.turns p = true
    · rw [if_pos hturn]
      have hwrapped : (r.port p).state = .wrapped := beq_iff_eq.mp hturn
      rcases Port.eq_or_other p q with rfl | rfl
      · refine ⟨[], ?_, fun _ _ => rfl⟩
        rw [List.append_nil]
        exact r.port_updPort_of_ne (Port.other_ne q).symm _
      · refine ⟨[{ f with turned := true }], ?_, fun _ hopen => ?_⟩
        · rw [Rnd.port_updPort_same, if_pos hturn]
        · rw [Port.other_other] at hopen
          exact absurd hwrapped hopen
    · rw [if_neg hturn]
      rcases Port.eq_or_other p q with rfl | rfl
      · refine ⟨[f], ?_, fun hwrap _ => absurd (beq_iff_eq.mpr hwrap) hturn⟩
        rw [Rnd.port_updPort_same, if_neg hturn]
      · refine ⟨[], ?_, fun _ _ => rfl⟩
        rw [List.append_nil, Rnd.port_updPort_other]

theorem Rnd.told_launch (r : Rnd) (f : RFrame) : r.Told (r.launch f) := by
  unfold Rnd.launch
  split
  next => exact .refl r
  next => exact r.told_enqueue _ f

theorem Rnd.told_sendControl (r : Rnd) (now dest code ticket garment : Nat) (b : List Byte) : r.Told (r.sendControl now dest code ticket garment b) := by
  have h := r.told_launch (r.message now dest code ticket garment b).2.1
  refine ⟨?_, h.queued⟩
  obtain ⟨e, w, s, o, a, hq⟩ := h.kept
  refine ⟨e, w, Tbl.set r.eseq dest { r.eseqOf dest with
    nextOut := ((r.eseqOf dest).nextOut + 1) % 4294967296, unacked := (r.eseqOf dest).unacked ++ [r.message now dest code ticket garment b] }, o, a, ?_⟩
  exact congrArg (fun q : Rnd => { q with eseq := Tbl.set r.eseq dest { r.eseqOf dest with
    nextOut := ((r.eseqOf dest).nextOut + 1) % 4294967296, unacked := (r.eseqOf dest).unacked ++ [r.message now dest code ticket garment b] } }) hq

/-- A Control message to each of some modules but this one. -/
theorem Rnd.told_each (r : Rnd) (now code : Nat) (b : List Byte) (l : List Nat) :
    r.Told (l.foldl (fun r k => if k = r.id then r else r.sendControl now k code 0 0 b) r) := by
  refine List.foldlRecOn (motive := fun q => r.Told q) l _ (.refl r) fun q hq k _ => ?_
  split
  next => exact hq
  next => exact hq.trans (q.told_sendControl _ _ _ _ _ _)

theorem Rnd.told_broadcastChange (r : Rnd) (now kind : Nat) (mods : List Nat) : r.Told (r.broadcastChange now kind mods) :=
  r.told_each now 0x000C (leBytes 1 kind ++ mods.flatMap (leBytes 2)) _

theorem Rnd.told_sendAlarm (r : Rnd) (now : Nat) (cols : List Nat) (x : LogRec) : r.Told (r.sendAlarm now cols x) := r.told_each now 0x000A x.bytes cols

theorem Rnd.told_counted (r : Rnd) (o : Bool) (a : Ctr) : r.Told { r with overbooked := o, alarmSupp := a } :=
  ⟨⟨_, _, _, _, _, rfl⟩, Rnd.queued_of_ports fun p => by cases p <;> rfl⟩

theorem Chip.told_alarm (c : Chip) (e : Bool) (i : Incident) (k src : Nat) (ctx : Option Nat) (ticket argHi arg : Nat) :
    c.rnd.Told (c.alarm e i k src ctx ticket argHi arg).rnd := by
  unfold Chip.alarm
  dsimp only
  split
  next => exact c.rnd.told_counted c.rnd.overbooked _
  next => exact c.rnd.told_sendAlarm _ _ _

/-- Booking anew sends at most an alarm. -/
theorem Chip.told_rebook (c : Chip) : c.rnd.Told c.rebook.rnd := by
  unfold Chip.rebook Chip.alarmIf
  dsimp only
  split
  next =>
    exact (c.rnd.told_counted _ c.rnd.alarmSupp).trans
      (Chip.told_alarm { c with rnd := { c.rnd with overbooked := c.portOver .east || c.portOver .west } } _ _ _ _ _ _ _ _)
  next => exact c.rnd.told_counted _ c.rnd.alarmSupp

/-! ### A credited frame at a port (R249 to R253) -/

/-- What the link makes of a frame that is not handed up. -/
theorem typed_of_kept {n : Nat} {p : Port} {f : RFrame} {r : Rnd} (g : Chip × Mem → Chip × Mem) {c : Chip × Mem} (hn : f.type = n)
    (hr : c.1.rnd.receive p f = (r, false)) : typed n p f g c = ({ c.1 with rnd := r }, c.2) := by
  refine (if_pos hn).trans ?_
  unfold received
  rw [hr]
  exact if_neg Bool.false_ne_true

theorem Rnd.receive_down {r : Rnd} {p : Port} (f : RFrame) (h : (r.port p).state ≠ .up) : r.receive p f = (r, false) :=
  if_pos (bne_iff_ne.mpr h)

section
variable {r : Rnd} {p : Port} {f : RFrame} (hup : (r.port p).state = .up)
include hup

theorem Rnd.receive_stomped (hs : f.stomp = true) : r.receive p f = (r.updPort p (fun y => y.free f), false) :=
  (if_neg (by rw [hup]; decide)).trans (if_pos hs)

theorem Rnd.receive_rejected (hs : f.stomp = false) (h : f.hcrcOk = false ∨ f.lseq ≠ (r.port p).rxSeq) :
    r.receive p f = (r.updPort p (fun y => y.reject r.id f), false) := by
  refine (if_neg (by rw [hup]; decide)).trans ((if_neg (ne_true_of_eq_false hs)).trans (if_pos ?_))
  rw [Bool.or_eq_true, Bool.not_eq_true', bne_iff_ne]
  exact h

variable (hs : f.stomp = false) (hh : f.hcrcOk = true) (hl : f.lseq = (r.port p).rxSeq) (hc : f.pcrcOk = true)
include hs hh hl hc

/-- A frame whose header and payload are right is looked at. -/
theorem Rnd.receive_whole : r.receive p f =
    if f.bad then ({ (r.updPort p (fun y => y.accept f)).updPort p (fun y => y.free f) with badFrame := r.badFrame.inc }, false)
    else if f.type = 6 ∨ f.dest = r.id then (((r.updPort p (fun y => y.accept f)).updPort p (fun y => y.free f)).countRx f.payload.length, true)
    else ((r.updPort p (fun y => y.accept f)).forward p f, false) := by
  refine (if_neg (by rw [hup]; decide)).trans ((if_neg (ne_true_of_eq_false hs)).trans ((if_neg ?_).trans (if_neg ?_)))
  · rw [hh, hl]
    simp
  · rw [hc]
    decide

end

/-! ### Frames refused, sent on and dropped (R251 to R253) -/

theorem RPort.reject_spec (x : RPort) (id : Nat) (f : RFrame) : (x.reject id f).rxSeq = x.rxSeq ∧ (x.reject id f).dropping = true ∧
    (x.reject id f).freed = addBeats x.freed f.cls.code f.beats ∧ (x.dropping = true → (x.reject id f).sent = x.sent) ∧
    (x.dropping = false → ∃ g, (x.reject id f).sent = x.sent ++ [g] ∧ g.type = 4 ∧ g.nak = true ∧ g.ack = (x.rxSeq + 65535) % 65536) := by
  unfold RPort.reject
  dsimp only
  by_cases hd : x.dropping = true
  · rw [if_pos hd]
    exact ⟨rfl, hd, rfl, fun _ => rfl, fun h => absurd hd (ne_true_of_eq_false h)⟩
  · rw [if_neg hd]
    exact ⟨rfl, rfl, rfl, fun h => absurd h hd, fun _ => ⟨_, rfl, rfl, rfl, rfl⟩⟩

/-- A frame at its last hop is dropped and counted. -/
theorem Rnd.forward_dropped {r : Rnd} (p : Port) {f : RFrame} (h : f.ttl ≤ 1) :
    r.forward p f = { r.updPort p (fun x => x.free f) with ttlDrop := r.ttlDrop.inc } := if_pos h

/-- Another goes on in its direction with one hop less. -/
theorem Rnd.forward_passed {r : Rnd} {p : Port} {f : RFrame} (h : 1 < f.ttl) (hopen : (r.port p.other).state ≠ .wrapped) :
    r.forward p f = r.updPort p.other (fun x => { x with transit := x.transit ++ [(p, { f with ttl := f.ttl - 1 })] }) := by
  have hturn : ¬ r.turns p.other = true := fun ht => hopen (beq_iff_eq.mp ht)
  refine (if_neg (by omega)).trans ?_
  unfold Rnd.enqueue
  rw [if_neg hturn]
  dsimp only
  rw [if_neg hturn]

/-- Sending a frame on changes no more than what waits at a port. -/
theorem Rnd.forward_kept {r : Rnd} (p : Port) {f : RFrame} (h : 1 < f.ttl) :
    (∃ e w, r.forward p f = { r with east := e, west := w }) ∧ ((r.forward p f).port p).rxSeq = (r.port p).rxSeq := by
  rw [show r.forward p f = r.enqueue p.other (some p) { f with ttl := f.ttl - 1 } from if_neg (by omega)]
  refine ⟨⟨_, _, rfl⟩, ?_⟩
  unfold Rnd.enqueue
  split
  next =>
    rw [Port.other_other, Rnd.port_updPort_same]
  next => rw [Rnd.port_updPort_of_ne _ (Port.other_ne p).symm]

/-- An acknowledged frame and those before it leave the replay buffer. -/
theorem RPort.replay_trailer (x : RPort) (f : RFrame) : (x.trailer f).replay =
    if x.replay.any (fun g => g.lseq == f.ack) then (x.replay.dropWhile (fun g => g.lseq != f.ack)).drop 1 else x.replay := rfl

theorem Rnd.receivePlain_good {r : Rnd} {p : Port} {f : RFrame} (hup : (r.port p).state = .up) (hh : f.hcrcOk = true) (hb : f.bad = false) :
    r.receivePlain p f = r.updPort p (fun y => y.trailer f) := by
  refine (if_neg ?_).trans (if_neg (ne_true_of_eq_false hb))
  rw [hup, hh]
  decide

theorem Rnd.updPort_kept (r : Rnd) (p : Port) (g : RPort → RPort) : ∃ e w, r.updPort p g = { r with east := e, west := w } := ⟨_, _, rfl⟩

/-- A replay sends again all that waits for its acknowledgement, counted unless nothing does. -/
theorem Rnd.replayFrom_spec (r : Rnd) (p : Port) (now : Nat) : (r.replayFrom p now).port p.other = r.port p.other ∧
    (∃ a, (r.replayFrom p now).port p = { r.port p with sent := (r.port p).sent ++ (r.port p).replay, replayAt := a }) ∧
    (r.replayFrom p now).replays = (if (r.port p).replay = [] then r.replays else r.replays.inc) := by
  by_cases hnil : (r.port p).replay = []
  · have hrun : r.replayFrom p now = r := if_pos (List.isEmpty_iff.mpr hnil)
    rw [hrun, if_pos hnil, hnil]
    exact ⟨rfl, ⟨_, by rw [List.append_nil]⟩, rfl⟩
  · have hrun : r.replayFrom p now = { r.updPort p (fun x => { x with sent := x.sent ++ x.replay, replayAt := some now }) with replays := r.replays.inc } :=
      if_neg fun h => hnil (List.isEmpty_iff.mp h)
    rw [hrun, if_neg hnil]
    cases p <;> exact ⟨rfl, ⟨some now, rfl⟩, rfl⟩

theorem Rnd.replayFrom_kept (r : Rnd) (p : Port) (now : Nat) : ∃ e w n, r.replayFrom p now = { r with east := e, west := w, replays := n } := by
  unfold Rnd.replayFrom
  split
  next => exact ⟨r.east, r.west, r.replays, rfl⟩
  next => exact ⟨_, _, _, rfl⟩

/-! ### A wrapped port -/

/-- A port takes a frame turned away from the other one. -/
def RPort.turnIn (x : RPort) (from_ : Option Port) (f : RFrame) : RPort :=
  match from_ with
  | none => { x with egress := x.egress ++ [{ f with turned := true }] }
  | some q => { x with transit := x.transit ++ [(q, { f with turned := true })] }

/-- A frame for a wrapped port goes to the other one. -/
theorem Rnd.enqueue_wrapped {r : Rnd} {p : Port} (h : (r.port p).state = .wrapped) (from_ : Option Port) (f : RFrame) :
    r.enqueue p from_ f = r.updPort p.other (fun x => x.turnIn from_ f) := by
  have hturn : r.turns p = true := beq_iff_eq.mpr h
  cases from_ <;> simp only [Rnd.enqueue, RPort.turnIn, hturn, if_true]

theorem Rnd.foldl_enqueue_wrapped {α : Type} (from_ : α → Option Port) (g : α → RFrame) (l : List α) {r : Rnd} {p : Port} (h : (r.port p).state = .wrapped) :
    l.foldl (fun q a => q.enqueue p (from_ a) (g a)) r = r.updPort p.other (fun x => l.foldl (fun x a => x.turnIn (from_ a) (g a)) x) := by
  induction l generalizing r with
  | nil => cases p <;> rfl
  | cons a l ih =>
    rw [List.foldl_cons, Rnd.enqueue_wrapped h, ih (by rw [r.port_updPort_of_ne (Port.other_ne p).symm]; exact h), Rnd.updPort_updPort]
    rfl

theorem RPort.foldl_turnIn_own (l : List RFrame) (x : RPort) :
    l.foldl (fun x f => x.turnIn none f) x = { x with egress := x.egress ++ l.map (fun f => { f with turned := true }) } := by
  induction l generalizing x with
  | nil => rw [List.map_nil, List.append_nil]; rfl
  | cons f l ih =>
    rw [List.foldl_cons, ih]
    simp only [RPort.turnIn, List.map_cons, List.append_assoc, List.cons_append, List.nil_append]

theorem RPort.foldl_turnIn_transit (l : List (Port × RFrame)) (x : RPort) :
    l.foldl (fun x e => x.turnIn (some e.1) e.2) x = { x with transit := x.transit ++ l.map (fun e => (e.1, { e.2 with turned := true })) } := by
  induction l generalizing x with
  | nil => rw [List.map_nil, List.append_nil]; rfl
  | cons f l ih =>
    rw [List.foldl_cons, ih]
    simp only [RPort.turnIn, List.map_cons, List.append_assoc, List.cons_append, List.nil_append]

/-- A port idle because it is wrapped. -/
def RPort.wrapped (x : RPort) : RPort := { x with state := .wrapped, locked := 0, nbValid := false, egress := [], transit := [] }

/-- What a wrapped port had waiting goes out at the other port, turned. -/
theorem Rnd.wrapPort_eq (r : Rnd) (p : Port) : r.wrapPort p = (r.updPort p RPort.wrapped).updPort p.other (fun x => { x with
    egress := x.egress ++ (r.port p).egress.map (fun f => { f with turned := true })
    transit := x.transit ++ (r.port p).transit.map (fun e => (e.1, { e.2 with turned := true })) }) := by
  have hwrapped : ((r.updPort p RPort.wrapped).port p).state = .wrapped := by rw [Rnd.port_updPort_same]; rfl
  have hpassing := Rnd.foldl_enqueue_wrapped (fun e : Port × RFrame => some e.1) (fun e => e.2) (r.port p).transit hwrapped
  have hown := Rnd.foldl_enqueue_wrapped (fun _ : RFrame => none) (fun f => f) (r.port p).egress
    (r := (r.updPort p RPort.wrapped).updPort p.other fun x => (r.port p).transit.foldl (fun x e => x.turnIn (some e.1) e.2) x) (p := p)
    (by rw [Rnd.port_updPort_of_ne _ (Port.other_ne p).symm]; exact hwrapped)
  refine (congrArg (fun q => (r.port p).egress.foldl (fun q f => q.enqueue p none f) q) hpassing).trans (hown.trans ?_)
  rw [Rnd.updPort_updPort]
  refine congrArg _ (funext fun x => ?_)
  exact (RPort.foldl_turnIn_own _ _).trans (by rw [RPort.foldl_turnIn_transit])

/-- The ring with a port wrapped for the gap there, and the other modules told. -/
def Rnd.gapTold (r : Rnd) (p : Port) (now : Nat) : Rnd :=
  ((r.routeGap (r.gapSides p).1 (r.gapSides p).2).wrapPort p).broadcastChange now 3 [(r.gapSides p).1, (r.gapSides p).2]

theorem Rnd.queued_gapTold (r : Rnd) (p : Port) (now : Nat) : (r.wrapPort p).Queued (r.gapTold p now) := by
  refine (Rnd.queued_of_ports fun x => ?_).trans (Rnd.told_broadcastChange _ _ _ _).queued
  rw [Rnd.wrapPort_eq, Rnd.wrapPort_eq]
  cases p <;> cases x <;> rfl

/-- A port wrapped for a gap. -/
theorem Chip.wrap_spec {c : Chip} {p : Port} (hslip : c.rnd.slipped = false) (hstate : (c.rnd.port p).state ≠ .wrapped) :
    (∃ n k l e i, c.wrap p = { c with rnd := n, freeCtr := k, log := l, evc := e, pins := i }) ∧ (c.wrap p).rnd.repKind = 2 ∧
    (c.rnd.wrapPort p).Queued (c.wrap p).rnd := by
  have hrun : c.wrap p = (Chip.repaired { c with rnd := c.rnd.gapTold p c.now } 2 p).rebook :=
    if_neg fun h => h.elim (fun h => absurd h (ne_true_of_eq_false hslip)) hstate
  have hq : (c.rnd.gapTold p c.now).Queued (Chip.repaired { c with rnd := c.rnd.gapTold p c.now } 2 p).rnd :=
    Rnd.queued_of_ports fun x => by cases x <;> rfl
  have hbook := (Chip.repaired { c with rnd := c.rnd.gapTold p c.now } 2 p).told_rebook
  obtain ⟨l, e, n, i, hd⟩ := (Chip.repaired { c with rnd := c.rnd.gapTold p c.now } 2 p).rebook_frame
  refine ⟨⟨n, _, l, e, i, hrun.trans hd⟩, ?_, ?_⟩
  · obtain ⟨_, _, _, _, _, hkept⟩ := hbook.kept
    rw [hrun, hkept]
    rfl
  · rw [hrun]
    exact (c.rnd.queued_gapTold p c.now).trans (hq.trans hbook.queued)

/-! ### HELLO (R263) -/

theorem Rnd.routeNext_kept (r : Rnd) (p : Port) (nb : Nat) : ∃ t, r.routeNext p nb = { r with routes := t } := by
  unfold Rnd.routeNext
  dsimp only
  split
  next => exact ⟨r.routes, rfl⟩
  next => exact ⟨_, rfl⟩

/-- The ring as a port hears its neighbour: up with what HELLO says of it, its frames sent again. -/
theorem Rnd.greeted_spec (r : Rnd) (p : Port) (h : HelloInfo) (now : Nat) :
    ∃ e a, ((r.updPort p (fun y => y.greet h)).replayFrom p now).port p = { (r.port p).greet h with sent := e, replayAt := a } := by
  obtain ⟨-, ⟨a, hport⟩, -⟩ := (r.updPort p (fun y => y.greet h)).replayFrom_spec p now
  rw [Rnd.port_updPort_same] at hport
  exact ⟨_, a, hport⟩

/-- A HELLO from a neighbour that is near enough brings the port up. -/
theorem Chip.hello_up {c : Chip} (p : Port) {h : HelloInfo} (hslip : c.rnd.slipped = false) (hnear : h.bypassed ≤ 2) :
    (∃ n l e i, c.hello p h = { c with rnd := n, keep := { c.keep with presets := true }, freeCtr := c.freeCtr + 1, log := l, evc := e, pins := i }) ∧
    ((c.hello p h).rnd.port p).state = .up ∧ ((c.hello p h).rnd.port p).nbValid = true ∧
    ((c.hello p h).rnd.port p).neighbour = h.neighbour ∧ ((c.hello p h).rnd.port p).bypassed = h.bypassed := by
  have hrun : ∃ (r : Rnd) (kind mode : Nat) (mods : List Nat), (r = (c.rnd.updPort p (fun y => y.greet h)).replayFrom p c.now ∨
      r = ((c.rnd.updPort p (fun y => y.greet h)).replayFrom p c.now).routeNext p h.neighbour) ∧
      c.hello p h = (Chip.repaired { c with rnd := r.broadcastChange c.now mode mods, keep := { c.keep with presets := true } } kind p).rebook := by
    unfold Chip.hello
    dsimp only
    rw [hslip, if_neg Bool.false_ne_true, if_neg (Nat.not_lt.mpr hnear)]
    refine ⟨_, _, _, _, ?_, rfl⟩
    split
    next => exact .inr rfl
    next => exact .inl rfl
  obtain ⟨r, kind, mode, mods, hr, hrun⟩ := hrun
  obtain ⟨e, a, hgreet⟩ := c.rnd.greeted_spec p h c.now
  have hport : r.port p = { (c.rnd.port p).greet h with sent := e, replayAt := a } := by
    rcases hr with rfl | rfl
    · exact hgreet
    · obtain ⟨t, ht⟩ := ((c.rnd.updPort p (fun y => y.greet h)).replayFrom p c.now).routeNext_kept p h.neighbour
      rw [ht, ← hgreet]
      cases p <;> rfl
  have hrep : (r.broadcastChange c.now mode mods).Queued
      (Chip.repaired { c with rnd := r.broadcastChange c.now mode mods, keep := { c.keep with presets := true } } kind p).rnd :=
    Rnd.queued_of_ports fun x => by cases x <;> rfl
  have hbook := (Chip.repaired { c with rnd := r.broadcastChange c.now mode mods, keep := { c.keep with presets := true } } kind p).told_rebook
  obtain ⟨l, v, n, i, hd⟩ := (Chip.repaired { c with rnd := r.broadcastChange c.now mode mods, keep := { c.keep with presets := true } } kind p).rebook_frame
  obtain ⟨l', hl', -⟩ := ((r.told_broadcastChange c.now mode mods).queued.trans (hrep.trans hbook.queued)) p
  refine ⟨⟨n, l, v, i, hrun.trans hd⟩, ?_⟩
  rw [hrun, hl', hport]
  exact ⟨rfl, rfl, rfl, rfl⟩

/-! ### Port frames settled -/

/-- Settles O55: each test of the link in its order decides what the port, and with it the ring, makes of the frame. -/
theorem portsTakeFrames : Obligations.PortsTakeFrames := by
  unfold Obligations.PortsTakeFrames
  refine ⟨fun s p f e he => ?_, fun s p f => ?_, fun s p h => ⟨fun hslip => ?_, fun hslip => ?_⟩⟩
  case refine_1 =>
    have hexec : ∃ g, exec e.2 s = .next { s with chip := (typed e.1 p f g (s.chip, s.mem)).1, mem := (typed e.1 p f g (s.chip, s.mem)).2 } := by
      simp only [List.mem_cons, List.not_mem_nil, or_false] at he
      rcases he with rfl | rfl | rfl
      · exact ⟨_, exec_data⟩
      · exact ⟨_, exec_fetch⟩
      · exact ⟨_, exec_discover⟩
    obtain ⟨g, hexec⟩ := hexec
    have hkept {r : Rnd} (hn : f.type = e.1) (hr : s.chip.rnd.receive p f = (r, false)) : exec e.2 s = .next { s with chip := { s.chip with rnd := r } } := by
      rw [hexec, typed_of_kept (c := (s.chip, s.mem)) g hn hr]
    refine ⟨fun hnot => ?_, fun hn hup => ?_⟩
    · by_cases hn : f.type = e.1
      · exact hkept hn (Rnd.receive_down f (hnot.resolve_left (Decidable.not_not.mpr hn)))
      · rw [hexec, show typed e.1 p f g (s.chip, s.mem) = (s.chip, s.mem) from if_neg hn]
    · refine ⟨_, hexec, fun hstomp => ?_, fun hstomp hbad => ?_, fun hstomp hh hl hc hbad => ?_, fun hstomp hh hl hc hbad htype hdest => ?_⟩
      · rw [typed_of_kept (c := (s.chip, s.mem)) g hn (Rnd.receive_stomped hup hstomp)]
        exact ⟨rfl, Rnd.port_updPort_other _ _ _, Rnd.port_updPort_same _ _ _⟩
      · rw [typed_of_kept (c := (s.chip, s.mem)) g hn (Rnd.receive_rejected hup hstomp hbad)]
        dsimp only
        rw [Rnd.port_updPort_same]
        exact ⟨rfl, Rnd.port_updPort_other _ _ _, RPort.reject_spec _ _ _⟩
      · have hr := Rnd.receive_whole hup hstomp hh hl hc
        rw [if_pos hbad] at hr
        rw [typed_of_kept (c := (s.chip, s.mem)) g hn hr]
        refine ⟨rfl, ?_, rfl⟩
        cases p <;> rfl
      · have hr := Rnd.receive_whole hup hstomp hh hl hc
        rw [if_neg (ne_true_of_eq_false hbad), if_neg (not_or.mpr ⟨htype, hdest⟩)] at hr
        by_cases hlast : f.ttl ≤ 1
        · rw [Rnd.forward_dropped p hlast] at hr
          rw [typed_of_kept (c := (s.chip, s.mem)) g hn hr]
          cases p <;> exact ⟨rfl, rfl, fun _ => ⟨rfl, rfl⟩, fun h => absurd hlast (by omega)⟩
        · obtain ⟨⟨e, w, hring⟩, hseq⟩ := Rnd.forward_kept (r := s.chip.rnd.updPort p (fun y => y.accept f)) p (Nat.lt_of_not_le hlast)
          rw [Rnd.port_updPort_same] at hseq
          rw [typed_of_kept (c := (s.chip, s.mem)) g hn hr]
          refine ⟨rfl, hseq, fun h => absurd h hlast, fun httl hopen => ?_⟩
          dsimp only
          rw [Rnd.forward_passed httl (by rw [Rnd.port_updPort_other]; exact hopen), Rnd.port_updPort_same, Rnd.port_updPort_other]
  case refine_2 =>
    have hidle : exec (.idle p f) s = .next { s with chip := { s.chip with rnd := s.chip.rnd.receivePlain p f } } := exec_idle
    have hnak : exec (.nak p f) s = .next { s with chip := { s.chip with
        rnd := if (s.chip.rnd.port p).state == .up && f.hcrcOk && f.nak then (s.chip.rnd.receivePlain p f).replayFrom p s.chip.now else s.chip.rnd } } :=
      exec_nak
    refine ⟨fun hnot c hc => ?_, fun hup hh hb => ?_, fun hup hh hb hasked => ?_⟩
    · simp only [List.mem_cons, List.not_mem_nil, or_false] at hc
      rcases hc with rfl | rfl
      · rw [hidle, show s.chip.rnd.receivePlain p f = s.chip.rnd from if_pos (hnot.imp bne_iff_ne.mpr id)]
      · rw [hnak, if_neg fun hall => ?_]
        simp only [Bool.and_eq_true, beq_iff_eq] at hall
        exact hnot.elim (fun h => h hall.1.1) fun h => absurd hall.1.2 (ne_true_of_eq_false h)
    · rw [hidle, Rnd.receivePlain_good hup hh hb]
      refine ⟨_, rfl, rfl, Rnd.port_updPort_other _ _ _, ?_⟩
      rw [Rnd.port_updPort_same]
      exact ⟨rfl, rfl⟩
    · have hrun : exec (.nak p f) s = .next { s with chip := { s.chip with rnd := (s.chip.rnd.updPort p (fun y => y.trailer f)).replayFrom p s.chip.now } } := by
        rw [hnak, if_pos (by rw [hup, hh, hasked]; rfl), Rnd.receivePlain_good hup hh hb]
      obtain ⟨hother, ⟨a, hport⟩, hcount⟩ := (s.chip.rnd.updPort p (fun y => y.trailer f)).replayFrom_spec p s.chip.now
      rw [Rnd.port_updPort_same] at hport hcount
      rw [Rnd.port_updPort_other] at hother
      refine ⟨_, hrun, rfl, hother, ?_⟩
      dsimp only
      rw [hport, hcount]
      exact ⟨rfl, rfl, rfl⟩
  case refine_3 =>
    exact congrArg (fun c => Host.Outcome.next { s with chip := c }) (if_pos hslip)
  case refine_4 =>
    have hrun : exec (.hello p h) s = .next { s with chip := s.chip.hello p h } := exec_hello
    by_cases hnear : h.bypassed ≤ 2
    · obtain ⟨⟨n, l, v, i, hkept⟩, hup, hvalid, hnb, hby⟩ := Chip.hello_up (c := s.chip) p hslip hnear
      refine ⟨_, hrun, ?_, fun _ => ⟨hup, hvalid, hnb, hby, ?_, ?_⟩, fun hfar => absurd hnear (by omega)⟩
      · rw [hkept]
      · rw [hkept]
      · rw [hkept]
    · have hwrap : s.chip.hello p h = s.chip.wrap p :=
        (if_neg (ne_true_of_eq_false hslip)).trans (if_pos (Nat.lt_of_not_le hnear))
      rw [hwrap] at hrun
      refine ⟨_, hrun, ?_⟩
      by_cases hstate : (s.chip.rnd.port p).state = .wrapped
      · have hsame : s.chip.wrap p = s.chip := if_pos (.inr hstate)
        rw [hsame]
        exact ⟨rfl, fun hn => absurd hn hnear, fun _ => ⟨hstate, rfl⟩⟩
      · obtain ⟨⟨n, k, l, v, i, hkept⟩, -, hqueued⟩ := Chip.wrap_spec (c := s.chip) (p := p) hslip hstate
        refine ⟨?_, fun hn => absurd hn hnear, fun _ => ⟨?_, ?_⟩⟩
        · rw [hkept]
        · rw [hqueued.state, Rnd.wrapPort_eq, Rnd.port_updPort_of_ne _ (Port.other_ne p).symm, Rnd.port_updPort_same]
          rfl
        · rw [hkept]

end Sys2Proof.Machine
end

section
/-!
Control messages of the Round (R245, R257, R258, R260, R261, R325): their order, and what each does, family 15.
-/
namespace Sys2Proof.Machine

/-! ### A frame taken in -/

/-- A ring after a credited frame: its ports, what was counted, and nothing else. -/
def Rnd.Linked (r q : Rnd) : Prop := ∃ e w b t x y, q = { r with east := e, west := w, badFrame := b, ttlDrop := t, rx := x, rxRest := y }

theorem Rnd.linked_ite {r : Rnd} {b : Prop} [Decidable b] {x y : Rnd × Bool} (hx : r.Linked x.1) (hy : r.Linked y.1) : r.Linked (if b then x else y).1 := by
  split
  next => exact hx
  next => exact hy

theorem Rnd.linked_updPort {r q : Rnd} (h : r.Linked q) (p : Port) (g : RPort → RPort) : r.Linked (q.updPort p g) := by
  obtain ⟨e, w, b, t, x, y, rfl⟩ := h
  exact ⟨_, _, _, _, _, _, rfl⟩

theorem Rnd.Linked.refl (r : Rnd) : r.Linked r := ⟨_, _, _, _, _, _, rfl⟩

theorem Rnd.linked_stomp (r : Rnd) (p : Port) (f : RFrame) : r.Linked (r.stomp p f) := by
  unfold Rnd.stomp
  generalize (if r.turns p.other then p else p.other) = q
  dsimp only
  split
  next => exact Rnd.linked_updPort (.refl r) q _
  next => exact .refl r

theorem Rnd.linked_forward {r q : Rnd} (h : r.Linked q) (p : Port) (f : RFrame) : r.Linked (q.forward p f) := by
  obtain ⟨e, w, b, t, x, y, rfl⟩ := h
  unfold Rnd.forward
  split
  next => exact ⟨_, _, _, _, _, _, rfl⟩
  next => exact ⟨_, _, _, _, _, _, rfl⟩

/-- What a credited frame may change of the ring. -/
theorem Rnd.receive_kept (r : Rnd) (p : Port) (f : RFrame) : r.Linked (r.receive p f).1 := by
  have haccept : r.Linked (r.updPort p (fun y => y.accept f)) := Rnd.linked_updPort (.refl r) p _
  exact Rnd.linked_ite (.refl r) (Rnd.linked_ite (Rnd.linked_updPort (.refl r) p fun y => y.free f) (Rnd.linked_ite (Rnd.linked_updPort (.refl r) p fun y => y.reject r.id f)
    (Rnd.linked_ite (Rnd.linked_updPort (r.linked_stomp p f) p (fun y => y.reject r.id f)) (Rnd.linked_ite ⟨_, _, _, _, _, _, rfl⟩ (Rnd.linked_ite ⟨_, _, _, _, _, _, rfl⟩
      (Rnd.linked_forward haccept p f))))))

/-- A frame handed up is accepted, its buffer freed and its payload counted. -/
theorem Rnd.receive_up {r : Rnd} {p : Port} {f : RFrame} (h : (r.receive p f).2 = true) :
    (r.receive p f).1 = ((r.updPort p (fun y => y.accept f)).updPort p (fun y => y.free f)).countRx f.payload.length := by
  unfold Rnd.receive at h ⊢
  dsimp only at h ⊢
  split at h
  next => exact absurd h Bool.false_ne_true
  next hup =>
    rw [if_neg hup]
    split at h
    next => exact absurd h Bool.false_ne_true
    next hstomp =>
      rw [if_neg hstomp]
      split at h
      next => exact absurd h Bool.false_ne_true
      next hseq =>
        rw [if_neg hseq]
        split at h
        next => exact absurd h Bool.false_ne_true
        next hcrc =>
          rw [if_neg hcrc]
          split at h
          next => exact absurd h Bool.false_ne_true
          next hbad =>
            rw [if_neg hbad]
            split at h
            next hmine => exact congrArg Prod.fst (if_pos hmine)
            next => exact absurd h Bool.false_ne_true

/-- Taking a frame in keeps what a port is and has waiting. -/
theorem Rnd.port_receive_up {r : Rnd} {p : Port} {f : RFrame} (h : (r.receive p f).2 = true) (q : Port) :
    (((r.receive p f).1).port q).state = (r.port q).state ∧ (((r.receive p f).1).port q).egress = (r.port q).egress := by
  rw [Rnd.receive_up h]
  cases p <;> cases q <;> exact ⟨rfl, rfl⟩

theorem Chip.ackFrame_kept (c : Chip) (f : RFrame) (code v : Nat) : ∃ e w, c.ackFrame f code v = { c with rnd := { c.rnd with east := e, west := w } } := by
  obtain ⟨e, w, h⟩ := c.rnd.launch_frame (newFrame c.rnd.id 2 .control f.src f.ticket 0 0 0 f.garment false false (ctlPayload code (leBytes 4 v)))
  exact ⟨e, w, congrArg (fun r => { c with rnd := r }) h⟩

/-- What a numbered message taken in changes. -/
theorem Safety.takenIn_kept (c : Chip) (p : Port) (f : RFrame) : ∃ e w b t x y q, Safety.takenIn c p f =
    { c with rnd := { c.rnd with east := e, west := w, badFrame := b, ttlDrop := t, rx := x, rxRest := y, eseq := q } } := by
  obtain ⟨e, w, b, t, x, y, hr⟩ := c.rnd.receive_kept p f
  obtain ⟨e', w', ha⟩ := Chip.ackFrame_kept { c with rnd := (c.rnd.receive p f).1 } f 0x0009 f.offset
  unfold Safety.takenIn Chip.updEseq
  rw [ha, hr]
  exact ⟨_, _, _, _, _, _, _, rfl⟩

/-! ### Messages in their order (R258) -/

/-- A numbered message of a code, on a state. -/
def Safety.controlled (code : Nat) (p : Port) (f : RFrame) (s : State) : State :=
  { s with chip := (control code p f (controlIn f) (s.chip, s.mem)).1, mem := (control code p f (controlIn f) (s.chip, s.mem)).2 }

section
variable {s : State} {p : Port} {f : RFrame} {code : Nat}

theorem Safety.controlled_other (h : f.type ≠ 2 ∨ ctlCode f ≠ code) : Safety.controlled code p f s = s := by
  unfold Safety.controlled control typed
  by_cases hc : ctlCode f = code
  · rw [if_pos hc, if_neg (h.resolve_right (Decidable.not_not.mpr hc))]
  · rw [if_neg hc]

/-- One of its command's is taken in, and then looked at unless the port keeps it. -/
theorem control_typed {g : Chip × Mem → Chip × Mem} {c : Chip × Mem} (ht : f.type = 2) (hc : ctlCode f = code) : control code p f g c =
    if (c.1.rnd.receive p f).2 then g ({ c.1 with rnd := (c.1.rnd.receive p f).1 }, c.2) else ({ c.1 with rnd := (c.1.rnd.receive p f).1 }, c.2) :=
  (if_pos hc).trans (if_pos ht)

variable (ht : f.type = 2) (hc : ctlCode f = code)
include ht hc

theorem Safety.controlled_kept (h : (s.chip.rnd.receive p f).2 = false ∨ s.chip.rst.fenced = true) :
    Safety.controlled code p f s = { s with chip := { s.chip with rnd := (s.chip.rnd.receive p f).1 } } := by
  unfold Safety.controlled
  rw [control_typed ht hc]
  by_cases hup : (s.chip.rnd.receive p f).2 = true
  · have hfenced := h.resolve_left (by rw [hup]; decide)
    rw [if_pos hup, show controlIn f ({ s.chip with rnd := (s.chip.rnd.receive p f).1 }, s.mem) = _ from if_pos hfenced]
  · rw [if_neg hup]


/-- One that is looked at is acknowledged, whatever becomes of it. -/
theorem Safety.controlled_seen (hup : (s.chip.rnd.receive p f).2 = true) : Safety.controlled code p f s =
    { s with
      chip := (controlIn f ({ s.chip with rnd := (s.chip.rnd.receive p f).1 }, s.mem)).1
      mem := (controlIn f ({ s.chip with rnd := (s.chip.rnd.receive p f).1 }, s.mem)).2 } := by
  unfold Safety.controlled
  rw [control_typed ht hc, if_pos hup]

end

/-- The order state with the sender as the message is looked at. -/
theorem Chip.eseqOf_acked (c : Chip) (p : Port) (f : RFrame) (k code v : Nat) :
    (Chip.ackFrame { c with rnd := (c.rnd.receive p f).1 } f code v).rnd.eseqOf k = c.rnd.eseqOf k := by
  obtain ⟨e, w, b, t, x, y, hr⟩ := c.rnd.receive_kept p f
  obtain ⟨e', w', ha⟩ := Chip.ackFrame_kept { c with rnd := (c.rnd.receive p f).1 } f code v
  rw [ha, hr]
  rfl

/-- A message out of its turn is held where it is ahead and new, and only acknowledged otherwise. -/
theorem controlIn_of_order {f : RFrame} {c d : Chip} {q : Eseq} (m : Mem) (hopen : c.rst.fenced = false) (hd : c.ackFrame f 0x0009 f.offset = d)
    (hq : d.rnd.eseqOf f.src = q) (hne : f.offset ≠ q.nextIn) : controlIn f (c, m) =
      if q.ahead f.offset && !q.held.any (fun g => g.offset == f.offset) then (d.updEseq f.src (fun q => { q with held := q.held ++ [f] }.watch d.now false), m)
      else (d, m) := by
  subst hq hd
  exact (if_neg (ne_true_of_eq_false hopen)).trans (if_neg hne)

/-- A message that arrives in its turn, with none held behind it, acts on the chip that took it in. -/
theorem Safety.controlled_arrived {s : State} {p : Port} {f : RFrame} {code : Nat} (h : Safety.Arrives s.chip p f code) :
    Safety.controlled code p f s = Safety.controlEnd f.src { s with
      chip := (applyControl f (Safety.takenIn s.chip p f, s.mem)).1, mem := (applyControl f (Safety.takenIn s.chip p f, s.mem)).2 } := by
  obtain ⟨ht, hc, hup, hopen, hnext, hheld⟩ := h
  rw [Safety.controlled_seen ht hc hup]
  have hq := s.chip.eseqOf_acked p f f.src 0x0009 f.offset
  have hin : controlIn f ({ s.chip with rnd := (s.chip.rnd.receive p f).1 }, s.mem) =
      ((applyControl f (Safety.takenIn s.chip p f, s.mem)).1.updEseq f.src (fun q => q.watch (applyControl f (Safety.takenIn s.chip p f, s.mem)).1.now true),
        (applyControl f (Safety.takenIn s.chip p f, s.mem)).2) := by
    unfold controlIn
    dsimp only
    rw [hopen, if_neg Bool.false_ne_true, hq, if_pos hnext, hheld]
    rfl
  rw [hin]
  rfl

/-- An acknowledgement leaves by the port to the sender. -/
theorem Chip.egress_ackFrame {c : Chip} {f : RFrame} (code v : Nat) {q : Port} (hexit : c.rnd.exit f.src = some q) (hopen : (c.rnd.port q).state ≠ .wrapped) :
    ((c.ackFrame f code v).rnd.port q).egress =
      (c.rnd.port q).egress ++ [newFrame c.rnd.id 2 .control f.src f.ticket 0 0 0 f.garment false false (ctlPayload code (leBytes 4 v))] := by
  have hturn : ¬ c.rnd.turns q = true := fun ht => hopen (beq_iff_eq.mp ht)
  have hexit' : c.rnd.exit (newFrame c.rnd.id 2 .control f.src f.ticket 0 0 0 f.garment false false (ctlPayload code (leBytes 4 v))).dest = some q := hexit
  unfold Chip.ackFrame Rnd.sendAck Rnd.launch
  rw [hexit']
  dsimp only
  unfold Rnd.enqueue
  rw [if_neg hturn, Rnd.port_updPort_same]
  dsimp only
  rw [if_neg hturn]

/-! ### Modules without a path (R260, R261) -/

/-- No entry for a module has a path. -/
def Rnd.Lost (r : Rnd) (m : Nat) : Prop := ∀ e ∈ r.routes, e.1 = m → e.2.hopsE = noPath ∧ e.2.hopsW = noPath

theorem Rnd.reachable_of_lost {r : Rnd} {m : Nat} (h : r.Lost m) : r.reachable m = false := by
  by_cases hd : r.route m = {}
  · unfold Rnd.reachable
    rw [hd]
    rfl
  · obtain ⟨he, hw⟩ := h _ (Tbl.mem_of_get_ne hd) rfl
    have hexit : r.exit m = none := by
      unfold Rnd.exit
      rw [show (r.route m).hopsE = 0x7FF from he, show (r.route m).hopsW = 0x7FF from hw, if_pos rfl, if_pos rfl, ite_self]
    unfold Rnd.reachable
    rw [hexit]
    exact Bool.and_false _

theorem Rnd.lost_map {r : Rnd} {m : Nat} {g : Nat × Route → Nat × Route} (hkey : ∀ e, (g e).1 = e.1)
    (h : ∀ e ∈ r.routes, e.1 = m → (g e).2.hopsE = noPath ∧ (g e).2.hopsW = noPath) : Rnd.Lost { r with routes := r.routes.map g } m := by
  intro x hx hm
  obtain ⟨e, he, rfl⟩ := List.mem_map.mp hx
  exact h e he ((hkey e).symm.trans hm)

/-- A module that slipped has no path. -/
theorem Rnd.lost_routeSlip_same (r : Rnd) (m : Nat) : (r.routeSlip m).Lost m := by
  refine Rnd.lost_map (fun e => ?_) fun e _ hm => ?_
  · split
    next => rfl
    next => rfl
  · rw [if_pos hm]
    exact ⟨rfl, rfl⟩

/-- Nor has it one as another slips. -/
theorem Rnd.Lost.routeSlip {r : Rnd} {k : Nat} (h : r.Lost k) (m : Nat) : (r.routeSlip m).Lost k := by
  refine Rnd.lost_map (fun e => ?_) fun e he hk => ?_
  · split
    next => rfl
    next => rfl
  · obtain ⟨hE, hW⟩ := h e he hk
    by_cases hm : e.1 = m
    · rw [if_pos hm]
      exact ⟨rfl, rfl⟩
    · rw [if_neg hm]
      dsimp only
      have hnear : ¬ ((r.route m).hopsE < e.2.hopsE ∧ e.2.hopsE ≠ noPath) := fun hlt => hlt.2 hE
      rw [if_neg hnear, if_neg (fun hlt => hlt.2 hW)]
      exact ⟨hE, hW⟩

theorem Rnd.lost_slips {ms : List Nat} {m : Nat} (hm : m ∈ ms) (r : Rnd) : (ms.foldl Rnd.routeSlip r).Lost m := by
  induction ms generalizing r with
  | nil => exact absurd hm List.not_mem_nil
  | cons k ms ih =>
    rw [List.foldl_cons]
    by_cases hk : m ∈ ms
    · exact ih hk _
    · rw [(List.mem_cons.mp hm).resolve_right hk]
      exact List.foldlRecOn (motive := fun q => Rnd.Lost q k) ms _ (r.lost_routeSlip_same k) fun q hq a _ => hq.routeSlip a

theorem Rnd.Lost.forgetSilent {r : Rnd} {k : Nat} (h : r.Lost k) : r.forgetSilent.Lost k := by
  refine Rnd.lost_map (fun e => ?_) fun e he hk => ?_
  · split
    next => rfl
    next => split <;> rfl
  · split
    next => exact h e he hk
    next =>
      split
      next => exact ⟨rfl, rfl⟩
      next => exact h e he hk

/-- A module silent for two runs has no path. -/
theorem Rnd.lost_of_silent {r : Rnd} {k : Nat} {x : Peer} (hx : r.peers.find? (fun e => e.1 == k) = some (k, x)) (hrun : x.lastRun + 2 < r.runs) :
    r.forgetSilent.Lost k := by
  refine Rnd.lost_map (fun e => ?_) fun e he hk => ?_
  · split
    next => rfl
    next => split <;> rfl
  · rw [hk, hx]
    dsimp only
    rw [if_pos hrun]
    exact ⟨rfl, rfl⟩

theorem Rnd.Lost.of_routes {r q : Rnd} {k : Nat} (h : r.Lost k) (hq : q.routes = r.routes) : q.Lost k := by
  unfold Rnd.Lost
  rw [hq]
  exact h

/-- A discovery run is counted, and changes the ring alone. -/
theorem Chip.runDiscovery_spec (c : Chip) : c.runDiscovery = { c with rnd := c.runDiscovery.rnd } ∧
    (c.rnd.slipped = true → c.runDiscovery.rnd = c.rnd) ∧
    c.runDiscovery.rnd.runs = (if c.rnd.slipped then c.rnd.runs else c.rnd.runs + 1) ∧
    (c.rnd.slipped = false → c.runDiscovery.rnd.routes = { c.rnd with runs := c.rnd.runs + 1 }.forgetSilent.routes) := by
  unfold Chip.runDiscovery
  by_cases hslip : c.rnd.slipped = true
  · rw [if_pos hslip, if_pos hslip]
    exact ⟨rfl, fun _ => rfl, rfl, fun h => absurd hslip (ne_true_of_eq_false h)⟩
  · rw [if_neg hslip, if_neg hslip]
    exact ⟨rfl, fun h => absurd h hslip, rfl, fun _ => rfl⟩

theorem Chip.lost_runDiscovery {c : Chip} {k : Nat} (h : c.rnd.Lost k) : c.runDiscovery.rnd.Lost k := by
  obtain ⟨-, hsame, -, hroutes⟩ := c.runDiscovery_spec
  cases hslip : c.rnd.slipped with
  | true => rw [hsame hslip]; exact h
  | false => exact (Rnd.Lost.forgetSilent (r := { c.rnd with runs := c.rnd.runs + 1 }) h).of_routes (hroutes hslip)

/-! ### What the messages do -/

/-- A marker that takes a signal counts it, and its waits end. -/
theorem Chip.signal_taken {c : Chip} {m ticket : Nat} (ht : (c.marker m).takesSignal ticket = true) (n ctx : Nat) :
    (∃ k w q x p e l, c.signal m n ctx ticket = { c with markers := k, waits := w, queues := q, hostTx := x, pcie := p, evc := e, log := l }) ∧
    (c.signal m n ctx ticket).markers = (c.counted m n ctx).markers := by
  obtain ⟨w, q, p, x, e, hwake⟩ := (c.counted m n ctx).wakeWaits_frame m
  have hrun : c.signal m n ctx ticket = (if 4294967295 < (c.marker m).count + n then (fun d : Chip => d.note .markerOverflow srcHank (some ctx) ticket 0 m) else id)
      ((c.counted m n ctx).wakeWaits m) := if_pos ht
  rw [hrun, hwake]
  split
  next => exact ⟨⟨_, w, q, x, p, _, _, rfl⟩, rfl⟩
  next => exact ⟨⟨_, w, q, x, p, e, c.log, rfl⟩, rfl⟩

/-- An alarm or a summary is logged by a collector alone. -/
theorem Chip.alarmIn_spec (c : Chip) (f : RFrame) : c.alarmIn f = { c with log := (c.alarmIn f).log, evc := (c.alarmIn f).evc } ∧
    (if c.collects then (c.alarmIn f).log = c.log.addRemote { LogRec.ofBytes (f.payload.drop 2) with source := 279, remote := true, origin := f.src } ∧
      ((c.alarmIn f).evc.src 279).pending = true
     else (c.alarmIn f).log = c.log ∧ (c.alarmIn f).evc = c.evc) := by
  unfold Chip.alarmIn
  by_cases hcol : c.collects = true
  · rw [if_pos hcol, if_pos hcol]
    exact ⟨rfl, rfl, Evc.edge_pending rfl _ _ _⟩
  · rw [if_neg hcol, if_neg hcol]
    exact ⟨rfl, rfl, rfl⟩

theorem Chip.summaryIn_spec (c : Chip) (f : RFrame) : c.summaryIn f = { c with log := (c.summaryIn f).log, evc := (c.summaryIn f).evc } ∧
    (if c.collects then (∃ r : LogRec, (c.summaryIn f).log = c.log.put r ∧ r.summary = true ∧ r.remote = true ∧ r.origin = f.src ∧ r.source = 279 ∧ r.time = c.now) ∧
      ((c.summaryIn f).evc.src 279).pending = true
     else (c.summaryIn f).log = c.log ∧ (c.summaryIn f).evc = c.evc) := by
  unfold Chip.summaryIn
  by_cases hcol : c.collects = true
  · rw [if_pos hcol, if_pos hcol]
    exact ⟨rfl, ⟨_, rfl, rfl, rfl, rfl, rfl, rfl⟩, Evc.edge_pending rfl _ _ _⟩
  · rw [if_neg hcol, if_neg hcol]
    exact ⟨rfl, rfl, rfl⟩

/-- The chip as a RING_CHANGE has changed its routes and started a discovery run. -/
def Chip.ringChanged (c : Chip) (f : RFrame) : Chip :=
  (Chip.incident { c with rnd := c.rnd.changed (le (f.payload.drop 2) 0 1) (changeMods (f.payload.drop 2)) } .ringChange srcRound none 0 f.src
    (le (f.payload.drop 2) 0 1)).runDiscovery

theorem Rnd.changed_kept (r : Rnd) (kind : Nat) (ms : List Nat) : ∃ t, r.changed kind ms = { r with routes := t } := by
  unfold Rnd.changed
  split
  next =>
    exact List.foldlRecOn (motive := fun q : Rnd => ∃ t, q = { r with routes := t }) ms _ ⟨r.routes, rfl⟩ fun q hq _ _ => by
      obtain ⟨t, rfl⟩ := hq
      exact ⟨_, rfl⟩
  next =>
    split
    next => exact ⟨_, rfl⟩
    next => exact ⟨r.routes, rfl⟩

theorem Chip.ringChanged_spec (c : Chip) (f : RFrame) : (∃ r l e, c.ringChanged f = { c with rnd := r, log := l, evc := e }) ∧
    ((c.ringChanged f).evc.src 279).pending = true ∧ (c.ringChanged f).rnd.runs = (if c.rnd.slipped then c.rnd.runs else c.rnd.runs + 1) ∧
    (le (f.payload.drop 2) 0 1 = 2 → ∀ m ∈ changeMods (f.payload.drop 2), (c.ringChanged f).rnd.reachable m = false) := by
  have hlost (hkind : le (f.payload.drop 2) 0 1 = 2) {m : Nat} (hm : m ∈ changeMods (f.payload.drop 2)) :
      (c.rnd.changed (le (f.payload.drop 2) 0 1) (changeMods (f.payload.drop 2))).Lost m := by
    unfold Rnd.changed
    rw [if_pos hkind]
    exact Rnd.lost_slips hm c.rnd
  obtain ⟨t, ht⟩ := c.rnd.changed_kept (le (f.payload.drop 2) 0 1) (changeMods (f.payload.drop 2))
  have hpending := Chip.incident_pending (src := srcRound) rfl { c with rnd := c.rnd.changed (le (f.payload.drop 2) 0 1) (changeMods (f.payload.drop 2)) }
    .ringChange none 0 f.src (le (f.payload.drop 2) 0 1)
  unfold Chip.ringChanged
  generalize hd : Chip.incident { c with rnd := c.rnd.changed (le (f.payload.drop 2) 0 1) (changeMods (f.payload.drop 2)) } .ringChange srcRound none 0 f.src
    (le (f.payload.drop 2) 0 1) = d at hpending
  have hdkept : d = { c with rnd := d.rnd, log := d.log, evc := d.evc } := by rw [← hd]; rfl
  have hdrnd : d.rnd = c.rnd.changed (le (f.payload.drop 2) 0 1) (changeMods (f.payload.drop 2)) := by rw [← hd]; rfl
  obtain ⟨hkept, -, hruns, -⟩ := d.runDiscovery_spec
  refine ⟨⟨d.runDiscovery.rnd, d.log, d.evc, ?_⟩, ?_, ?_, fun hkind m hm => ?_⟩
  · rw [hkept, hdkept]
  · rw [hkept]
    exact hpending
  · rw [hruns, hdrnd, ht]
  · refine Rnd.reachable_of_lost (Chip.lost_runDiscovery ?_)
    rw [hdrnd]
    exact hlost hkind hm

/-- A transfer that ends: off the list, the hanks its ticket still has to be scrubbed, and its ticket's stream goes on. -/
theorem endXfer_eq (x : XferOut) (c : Chip × Mem) : endXfer x c = progress x.ticket
    ({ c.1.freeXfer x with rnd := { c.1.rnd with xout := c.1.rnd.xout.erase x } }, c.2) := rfl

theorem Chip.entry_freeXfer (c : Chip) (x : XferOut) :
    (∀ h ∈ x.hanks, (c.hank.entry h).charged = true → (c.hank.entry h).ticket = x.ticket → ((c.freeXfer x).hank.entry h).state = .scrub) ∧
    ∀ h, h ∉ x.hanks ∨ (c.hank.entry h).ticket ≠ x.ticket → (c.freeXfer x).hank.entry h = c.hank.entry h := by
  have hentry (h : Nat) := c.hank.entry_releaseAll (x.hanks.filter (fun h => (c.hank.entry h).ticket == x.ticket)) h
  unfold Chip.freeXfer
  refine ⟨fun h hh hcharged ht => ?_, fun h hnot => ?_⟩
  · dsimp only
    rw [hentry, if_pos ⟨List.mem_filter.mpr ⟨hh, beq_iff_eq.mpr ht⟩, hcharged⟩]
  · refine (hentry h).trans (if_neg fun hin => ?_)
    obtain ⟨hmem, ht⟩ := List.mem_filter.mp hin.1
    exact hnot.elim (fun h => h hmem) fun h => h (beq_iff_eq.mp ht)

/-! ### Control messages settled -/

/-- Each numbered message's command is `controlled` for its code. -/
theorem exec_controlled (s : State) (p : Port) (f : RFrame) : ∀ e ∈ [(0x0001, Instr.markerSignal p f), (0x0002, .reserve p f), (0x0003, .commit p f),
    (0x0004, .release p f), (0x0005, .answer p f), (0x0006, .garmentBindOff p f), (0x0007, .garmentAbort p f), (0x000A, .alarm p f),
    (0x000B, .alarmSummary p f), (0x000C, .ringChange p f)], exec e.2 s = .next (Safety.controlled e.1 p f s) := by
  simp only [List.forall_mem_cons, List.not_mem_nil, false_implies, implies_true, and_true]
  exact ⟨exec_markerSignal, exec_reserve, exec_commit, exec_release, exec_answer, exec_garmentBindOff, exec_garmentAbort, exec_alarm, exec_alarmSummary,
    exec_ringChange⟩

/-- A message out of its turn, as its command leaves the chip. -/
theorem Safety.controlled_late {s : State} {p : Port} {f : RFrame} {code : Nat} (ht : f.type = 2) (hc : ctlCode f = code)
    (hup : (s.chip.rnd.receive p f).2 = true) (hopen : s.chip.rst.fenced = false) (hne : f.offset ≠ (s.chip.rnd.eseqOf f.src).nextIn) :
    let q := s.chip.rnd.eseqOf f.src
    let late := q.ahead f.offset && !q.held.any (fun g => g.offset == f.offset)
    let d := Chip.ackFrame { s.chip with rnd := (s.chip.rnd.receive p f).1 } f 0x0009 f.offset
    (late = false → Safety.controlled code p f s = { s with chip := d }) ∧
    (late = true → ∃ t, Safety.controlled code p f s = t ∧ t = { s with chip := { d with rnd := t.chip.rnd } } ∧
      t.chip.rnd.eseqOf f.src = { q with held := q.held ++ [f], gapAt := if q.gapAt.isNone then some s.chip.now else q.gapAt }) := by
  intro q late d
  have hq : d.rnd.eseqOf f.src = q := s.chip.eseqOf_acked p f f.src 0x0009 f.offset
  have hrun := controlIn_of_order (c := { s.chip with rnd := (s.chip.rnd.receive p f).1 }) s.mem hopen (d := d) rfl hq hne
  rw [Safety.controlled_seen ht hc hup, hrun]
  refine ⟨fun h => ?_, fun h => ?_⟩
  · rw [if_neg (ne_true_of_eq_false h)]
  · rw [if_pos h]
    refine ⟨_, rfl, rfl, (Tbl.get_upd_same ({} : Eseq) d.rnd.eseq f.src fun q : Eseq => ({ q with held := q.held ++ [f] } : Eseq).watch d.now false).trans ?_⟩
    rw [show Tbl.get ({} : Eseq) d.rnd.eseq f.src = q from hq]
    unfold Eseq.watch
    dsimp only
    rw [if_neg (by simp)]
    rfl

/-- Settles O54: the order state decides whether a message acts, is held or is only acknowledged; one that acts does so on the chip that took it in. -/
theorem controlMessagesKeepTheirOrder : Obligations.ControlMessagesKeepTheirOrder := by
  unfold Obligations.ControlMessagesKeepTheirOrder
  refine ⟨fun s p f e he => ?order, fun c f code v q hexit hopen => Chip.egress_ackFrame code v hexit hopen, fun s p f harr => ?marker, fun s p f => ?logged,
    fun s p f ht hup => ?acks⟩
  case order =>
    intro q late d
    have hexec := exec_controlled s p f e he
    refine ⟨fun h => ?_, fun ht hc => ⟨fun h => ?_, fun hup hopen hne => ?_⟩⟩
    · rw [hexec, Safety.controlled_other h]
    · rw [hexec, Safety.controlled_kept ht hc h]
    · obtain ⟨hdup, hheld⟩ := Safety.controlled_late ht hc hup hopen hne
      refine ⟨fun h => by rw [hexec, hdup h], fun h => ?_⟩
      obtain ⟨t, hrun, hkept, hq⟩ := hheld h
      exact ⟨t, by rw [hexec, hrun], hkept, hq⟩
  case marker =>
    have hexec : exec (.markerSignal p f) s = .next (Safety.controlled 0x0001 p f s) := exec_markerSignal
    have hrun : applyControl f (Safety.takenIn s.chip p f, s.mem) = markerIn f (Safety.takenIn s.chip p f, s.mem) := by
      simp only [applyControl, harr.2.1]
    rw [Safety.controlled_arrived harr, hrun] at hexec
    obtain ⟨e, w, b, t, x, y, q, hin⟩ := Safety.takenIn_kept s.chip p f
    generalize hd : Safety.takenIn s.chip p f = d at hexec ⊢
    rw [hd] at hin
    have hticket : d.frameTicket f = s.chip.frameTicket f := by rw [hin]; rfl
    have hmarker (m : Nat) : d.marker m = s.chip.marker m := by rw [hin]; rfl
    refine ⟨fun hnone => ?_, fun k m hk hm hg htakes => ?_⟩
    · have hsame : markerIn f (d, s.mem) = (d, s.mem) := by
        unfold markerIn
        rw [show d.frameTicket f = none from hticket.trans hnone]
      rw [hexec, hsame]
    · have hacts : markerIn f (d, s.mem) = progress k.id (d.signal m (le f.payload 4 2) (d.marker m).context k.id, s.mem) := by
        unfold markerIn
        rw [show d.frameTicket f = some k from hticket.trans hk]
        dsimp only
        rw [hm]
        exact if_pos hg
      rw [hacts] at hexec
      obtain ⟨⟨k', w', q', x', p', e', l', hsig⟩, hmarkers⟩ := Chip.signal_taken (c := d) (m := m) (ticket := k.id) (by rw [hmarker]; exact htakes)
        (le f.payload 4 2) (d.marker m).context
      have hmark (j : Nat) : (d.signal m (le f.payload 4 2) (d.marker m).context k.id).marker j = (d.counted m (le f.payload 4 2) (d.marker m).context).marker j :=
        congrArg (fun l => Tbl.get _ l j) hmarkers
      refine ⟨{ s with chip := d.signal m (le f.payload 4 2) (d.marker m).context k.id }, hexec, ?_, ?_, ?_, ?_, fun j hj => ?_⟩
      · rw [hsig, hin]
      · dsimp only
        rw [hmark, Chip.marker_counted_same, hmarker]
        rfl
      · dsimp only
        rw [hmark, Chip.marker_counted_same, hmarker]
        rfl
      · dsimp only
        rw [hmark, Chip.marker_counted_same, hmarker]
        exact beq_iff_eq.mp (Bool.and_eq_true_iff.mp htakes).2
      · dsimp only
        rw [hmark, Chip.marker_counted_other _ _ _ hj, hmarker]
  case logged =>
    obtain ⟨e, w, b, t, x, y, q, hin⟩ := Safety.takenIn_kept s.chip p f
    generalize hd : Safety.takenIn s.chip p f = d at hin ⊢
    have hcollects : d.collects = s.chip.collects := by rw [hin]; rfl
    refine ⟨fun harr => ?_, fun harr => ?_, fun harr => ?_⟩
    · have hexec : exec (.alarm p f) s = .next (Safety.controlled 0x000A p f s) := exec_alarm
      rw [Safety.controlled_arrived harr, hd, show applyControl f (d, s.mem) = (d.alarmIn f, s.mem) by simp only [applyControl, harr.2.1]] at hexec
      obtain ⟨hkept, hlog⟩ := d.alarmIn_spec f
      refine ⟨_, hexec, by rw [hkept], ?_⟩
      rw [hcollects, show d.log = s.chip.log by rw [hin], show d.evc = s.chip.evc by rw [hin]] at hlog
      exact hlog
    · have hexec : exec (.alarmSummary p f) s = .next (Safety.controlled 0x000B p f s) := exec_alarmSummary
      rw [Safety.controlled_arrived harr, hd, show applyControl f (d, s.mem) = (d.summaryIn f, s.mem) by simp only [applyControl, harr.2.1]] at hexec
      obtain ⟨hkept, hlog⟩ := d.summaryIn_spec f
      refine ⟨_, hexec, by rw [hkept], ?_⟩
      rw [hcollects, show d.log = s.chip.log by rw [hin], show d.evc = s.chip.evc by rw [hin], show d.now = s.chip.now by rw [hin]; rfl] at hlog
      exact hlog
    · have hexec : exec (.ringChange p f) s = .next (Safety.controlled 0x000C p f s) := exec_ringChange
      rw [Safety.controlled_arrived harr, hd, show applyControl f (d, s.mem) = settleRoutes (d.ringChanged f, s.mem) by
        simp only [applyControl, harr.2.1]; rfl] at hexec
      obtain ⟨⟨r, l, v, hkept⟩, hpending, hruns, hlost⟩ := d.ringChanged_spec f
      refine ⟨{ s with chip := d.ringChanged f }, hexec, by rw [hkept, hin], hpending, ?_, hlost⟩
      dsimp only
      rw [hruns, hin]
  case acks =>
    obtain ⟨e, w, b, t, x, y, hr⟩ := s.chip.rnd.receive_kept p f
    refine ⟨fun hc => ?_, fun hc => ?_⟩
    · have hexec : exec (.xferAck p f) s = .next { s with
          chip := (control 0x0008 p f (xferAckIn f) (s.chip, s.mem)).1, mem := (control 0x0008 p f (xferAckIn f) (s.chip, s.mem)).2 } := exec_xferAck
      rw [control_typed ht hc, if_pos hup] at hexec
      dsimp only at hexec
      generalize hq : (s.chip.rnd.receive p f).1 = q at hexec ⊢
      have hxout : q.xout = s.chip.rnd.xout := by rw [← hq, hr]
      refine ⟨fun hnone => ?_, fun z hz => ?_⟩
      · rw [hexec, show xferAckIn f ({ s.chip with rnd := q }, s.mem) = ({ s.chip with rnd := q }, s.mem) by unfold xferAckIn; dsimp only; rw [hxout, hnone]]
      · rw [show xferAckIn f ({ s.chip with rnd := q }, s.mem) = endXfer z ({ s.chip with rnd := q }, s.mem) by unfold xferAckIn; dsimp only; rw [hxout, hz],
          endXfer_eq] at hexec
        obtain ⟨hscrub, hother⟩ := Chip.entry_freeXfer { s.chip with rnd := q } z
        refine ⟨{ s with chip := { Chip.freeXfer { s.chip with rnd := q } z with rnd := { q with xout := q.xout.erase z } } }, hexec, rfl, ?_, hscrub, hother⟩
        rw [hxout]
    · have hexec : exec (.msgAck p f) s = .next { s with
          chip := (control 0x0009 p f (fun c => (c.1.msgAckIn f, c.2)) (s.chip, s.mem)).1
          mem := (control 0x0009 p f (fun c => (c.1.msgAckIn f, c.2)) (s.chip, s.mem)).2 } := exec_msgAck
      rw [control_typed ht hc, if_pos hup] at hexec
      dsimp only at hexec
      generalize hq : (s.chip.rnd.receive p f).1 = q at hexec
      have heseq : q.eseq = s.chip.rnd.eseq := by rw [← hq, hr]
      refine ⟨_, hexec, rfl, ?_, fun k hk => ?_⟩
      · refine (Tbl.get_upd_same ({} : Eseq) q.eseq f.src fun q => { q with unacked := q.unacked.filter (fun u => u.1 != le f.payload 2 4) }).trans ?_
        rw [heseq]
        rfl
      · refine (Tbl.get_upd_other ({} : Eseq) q.eseq (fun q => { q with unacked := q.unacked.filter (fun u => u.1 != le f.payload 2 4) }) hk).trans ?_
        rw [heseq]
        rfl

end Sys2Proof.Machine
end

section
/-!
Tickets and frames after a change (R14, R15, R348), and the end of a decoded picture (R168, R171, R175, R215), family 14.
-/
namespace Sys2Proof.Machine

/-! ### Tickets and frames after a change -/

theorem List.find?_map_of_eq {α : Type} {p : α → Bool} {f : α → α} (h : ∀ x, p (f x) = p x) (l : List α) : (l.map f).find? p = (l.find? p).map f := by
  rw [List.find?_map]
  exact congrArg (fun q => Option.map f (l.find? q)) (funext h)

/-- A ticket after a change that keeps every ticket's number. -/
theorem Chip.ticket?_upd {c d : Chip} {i : Nat} {f : Ticket → Ticket} (hd : d.cast.tickets = (c.cast.updTicket i f).tickets) (hf : ∀ t, (f t).id = t.id) :
    d.ticket? i = (c.ticket? i).map f := by
  unfold Chip.ticket?
  rw [hd]
  exact List.find?_updTicket c.cast.tickets i hf

theorem Ticket.frame?_updFrame (t : Ticket) (i : Nat) {f : FrameRt → FrameRt} (hf : ∀ x, (f x).source = x.source) :
    (t.updFrame i f).frame? i = (t.frame? i).map f := by
  unfold Ticket.frame? Ticket.updFrame
  dsimp only
  rw [List.find?_map_of_eq fun x => by split <;> simp [hf]]
  cases h : t.frames.find? (fun x => x.source == i) with
  | none => rfl
  | some x => exact congrArg some (if_pos (beq_iff_eq.mp (List.find?_some (p := fun x : FrameRt => x.source == i) h)))

theorem Ticket.source_of_frame? {t : Ticket} {i : Nat} {f : FrameRt} (h : t.frame? i = some f) : f.source = i :=
  beq_iff_eq.mp (List.find?_some (p := fun x : FrameRt => x.source == i) h)

/-- A ticket that no longer holds a hank. -/
def Ticket.without (t : Ticket) (h : Nat) : Ticket :=
  { t with
    frames := t.frames.map (fun f => f.forget h), enc := t.enc.forget h, encDone := t.encDone.forget h
    skips := t.skips.map (fun x => { x with hanks := x.hanks.erase h })
    adapt := { t.adapt with
      cache := t.adapt.cache.map (fun e => (e.1, e.2.1, e.2.2.erase h)), copies := t.adapt.copies.map (fun l => l.erase h) } }

/-- A ticket that no longer holds some hanks. -/
def Ticket.withoutAll (t : Ticket) (hs : List Nat) : Ticket := hs.foldl Ticket.without t

theorem Ticket.withoutAll_keeps (t : Ticket) (hs : List Nat) : (t.withoutAll hs).id = t.id ∧ (t.withoutAll hs).skips.length = t.skips.length ∧
    (t.withoutAll hs).outs = t.outs := by
  refine List.foldlRecOn (motive := fun u : Ticket => u.id = t.id ∧ u.skips.length = t.skips.length ∧ u.outs = t.outs) hs Ticket.without ⟨rfl, rfl, rfl⟩
    fun u ⟨hid, hskips, houts⟩ h _ => ⟨hid, (List.length_map _).trans hskips, houts⟩

theorem Ticket.frame?_without (t : Ticket) (h i : Nat) : (t.without h).frame? i = (t.frame? i).map (fun f => f.forget h) :=
  List.find?_map_of_eq (f := fun f : FrameRt => f.forget h) (fun _ => rfl) t.frames

/-- What a hank's loss leaves of a frame. -/
theorem Ticket.frame?_withoutAll (t : Ticket) (hs : List Nat) (i : Nat) :
    (t.withoutAll hs).frame? i = (t.frame? i).map (fun f => hs.foldl FrameRt.forget f) := by
  induction hs generalizing t with
  | nil => exact Option.map_id'.symm
  | cons h hs ih =>
    refine (ih (t.without h)).trans ?_
    rw [Ticket.frame?_without, Option.map_map]
    rfl

theorem Cast.forget_all (hs : List Nat) (k : Cast) : (hs.foldl (fun k h => k.forget h) k) = { k with tickets := k.tickets.map (fun t => t.withoutAll hs) } := by
  induction hs generalizing k with
  | nil =>
    rw [show (fun t : Ticket => t.withoutAll []) = id from rfl, List.map_id]
    rfl
  | cons h hs ih =>
    rw [List.foldl_cons, ih]
    unfold Cast.forget
    dsimp only
    rw [List.map_map]
    rfl

/-- Hanks freed leave the pool's view of them and the tickets; nothing else changes. -/
theorem Chip.freeHanks_frame (c : Chip) (t : Ticket) (hs : List Nat) : ∃ k, c.freeHanks t hs = { c with
    hank := k, cast := { c.cast with tickets := c.cast.tickets.map (fun t => t.withoutAll hs) } } := by
  unfold Chip.freeHanks
  rw [Cast.forget_all]
  exact ⟨_, rfl⟩

theorem Chip.ticket?_freeHanks (c : Chip) (t : Ticket) (hs : List Nat) (i : Nat) : (c.freeHanks t hs).ticket? i = (c.ticket? i).map (fun t => t.withoutAll hs) := by
  obtain ⟨k, h⟩ := c.freeHanks_frame t hs
  rw [h]
  exact List.find?_map_of_eq (fun x => by rw [(x.withoutAll_keeps hs).1]) c.cast.tickets

/-! ### A frame is voided -/

/-- Outputs that depend on a voided stage and are not on their way become skips. -/
theorem Ticket.outs_skipOuts {t : Ticket} {order stage reason : Nat} {shed : Bool} {o : Out} (ho : o ∈ (t.skipOuts order stage reason shed).outs)
    (horder : o.order = order) (hneeds : t.needs o stage = true) (hwire : t.onWire o = false) : ∃ why s, o.state = .skipped why s := by
  obtain ⟨q, -, rfl⟩ := List.mem_map.mp ho
  split at horder <;> rename_i hq
  · exact ⟨reason, shed, by rw [if_pos hq]⟩
  · rw [if_neg hq] at hneeds hwire ⊢
    unfold Ticket.skips? at hq
    rw [horder, hneeds, hwire] at hq
    cases hstate : q.state with
    | skipped why s => exact ⟨why, s, rfl⟩
    | waiting => simp [Out.skip, hstate] at hq
    | coding => simp [Out.skip, hstate] at hq
    | ready => simp [Out.skip, hstate] at hq

/-- Coding again changes neither which outputs there are nor their places. -/
theorem Ticket.outs_rewind (t : Ticket) (gone : Out → Bool) : (t.rewind gone).outs.map (fun o => (o.source, o.sub)) = t.outs.map (fun o => (o.source, o.sub)) := by
  unfold Ticket.rewind
  dsimp only
  split
  next =>
    rw [List.map_map]
    refine List.map_congr_left fun o _ => ?_
    dsimp only [Function.comp]
    split <;> rfl
  next =>
    rw [List.map_map]
    refine List.map_congr_left fun o _ => ?_
    dsimp only [Function.comp]
    split
    next => split <;> rfl
    next => split <;> rfl

theorem Ticket.places_skipOuts (t : Ticket) (order stage reason : Nat) (shed : Bool) :
    (t.skipOuts order stage reason shed).outs.map (fun o => (o.source, o.sub)) = t.outs.map (fun o => (o.source, o.sub)) := by
  refine Eq.trans ?_ (t.outs_rewind (t.skips? order stage))
  unfold Ticket.skipOuts
  dsimp only
  rw [List.map_map]
  refine List.map_congr_left fun o _ => ?_
  dsimp only [Function.comp]
  split <;> rfl

/-- Whether an output is on its way depends on the places of the outputs alone. -/
theorem Ticket.onWire_of_places {t u : Ticket} (h : u.outs.map (fun o => (o.source, o.sub)) = t.outs.map (fun o => (o.source, o.sub)))
    (hs : u.sentOuts = t.sentOuts) (o : Out) : u.onWire o = t.onWire o := by
  have hany (v : Ticket) : v.onWire o = ((v.outs.map (fun o => (o.source, o.sub))).take v.sentOuts).any (fun x => x.1 == o.source && x.2 == o.sub) := by
    rw [← List.map_take, List.any_map]
    rfl
  rw [hany, hany, h, hs]

theorem Ticket.rewind_keeps (t : Ticket) (gone : Out → Bool) : ∃ os e, t.rewind gone = { t with outs := os, enc := e } := by
  unfold Ticket.rewind
  dsimp only
  split
  next => exact ⟨_, _, rfl⟩
  next => exact ⟨_, _, rfl⟩

/-- What voiding a frame leaves of its ticket: every ticket field but its outputs, encoder, frames and what its stages pass over. -/
theorem Ticket.voidFrame_frame (t : Ticket) (f : FrameRt) (stage reason : Nat) (shed : Bool) : ∃ os e fs vs, t.voidFrame f stage reason shed =
    { t with outs := os, enc := e, frames := fs, voided := vs } ∧ os = (t.skipOuts f.order stage reason shed).outs := by
  obtain ⟨os, e, h⟩ := t.rewind_keeps (t.skips? f.order stage)
  unfold Ticket.voidFrame Ticket.skipOuts
  rw [h]
  exact ⟨_, _, _, _, rfl, rfl⟩

/-- The outputs of a ticket whose frame was voided, whatever became of its frames since. -/
theorem Ticket.outs_voidFrame {t v : Ticket} {f : FrameRt} {stage reason : Nat} {shed : Bool} {fs : List FrameRt} {vs : List (Nat × Nat)}
    (hv : v = { t.voidFrame f stage reason shed with frames := fs, voided := vs }) :
    ∀ o ∈ v.outs, o.order = f.order → v.needs o stage = true → v.onWire o = false → ∃ why s, o.state = .skipped why s := by
  obtain ⟨os, e, gs, ws, hframe, hos⟩ := t.voidFrame_frame f stage reason shed
  intro o ho horder hneeds hwire
  rw [hframe] at hv
  subst hv
  dsimp only at ho
  rw [hos] at ho
  refine Ticket.outs_skipOuts ho horder hneeds ?_
  rw [← hwire]
  exact (Ticket.onWire_of_places (t := t) (u := { t with outs := os, enc := e, frames := fs, voided := vs })
    (by rw [hos]; exact t.places_skipOuts _ _ _ _) rfl o).symm

/-- A frame that has lost the work of a stage and of what reads it. -/
def Ticket.lostFrame (t : Ticket) (stage : Nat) (x : FrameRt) : FrameRt :=
  { x with
    lost := (x.lost ++ t.downstream stage).eraseDups
    detDue := x.detDue && !(t.downstream stage).any (fun s => (t.placed.find? (fun p => p.stage == s)).any (fun p => p.kind == .analysis)) }

/-- The frame voided has lost the stage's work once. -/
theorem Ticket.frame?_voidFrame {t : Ticket} {f : FrameRt} {stage : Nat} (reason : Nat) (shed : Bool) {i : Nat} (hf : t.frame? i = some f) :
    (t.voidFrame f stage reason shed).frame? i = some (t.lostFrame stage f) := by
  have hsource := Ticket.source_of_frame? hf
  obtain ⟨os, e, h⟩ := t.rewind_keeps (t.skips? f.order stage)
  have hkept : (t.skipOuts f.order stage reason shed).frame? f.source = some f := by
    unfold Ticket.skipOuts
    rw [h, hsource]
    exact hf
  rw [← hsource]
  exact (Ticket.frame?_updFrame (t.skipOuts f.order stage reason shed) f.source (f := t.lostFrame stage) fun _ => rfl).trans (congrArg _ hkept)

/-- What voiding a frame changes of the chip. -/
theorem Chip.voidFrame_chip (c : Chip) (t : Ticket) (f : FrameRt) (stage reason : Nat) : ∃ q v, c.voidFrame t f stage reason false = { c with
    cast := c.cast.updTicket t.id (fun _ => t.voidFrame f stage reason false), rst := { c.rst with voided := c.rst.voided.inc }, queues := q, venc := v } :=
  ⟨_, _, rfl⟩

end Sys2Proof.Machine
end

section
/-!
What a port of the Round does of itself, and its timers (R252, R254, R255, R257, R258, R260, R262 to R264), family 15.
-/
namespace Sys2Proof.Machine

/-! ### Numbers in bytes -/

/-- Little-endian bytes give the number back. -/
theorem foldr_leBytes (n v : Nat) : (leBytes n v).foldr (fun x a => x.toNat + 256 * a) 0 = v % 256 ^ n := by
  induction n generalizing v with
  | zero => rw [Nat.pow_zero, Nat.mod_one]; rfl
  | succ n ih =>
    rw [leBytes, List.foldr_cons, ih, BitVec.toNat_ofNat, show 256 ^ (n + 1) = 256 * 256 ^ n from Nat.pow_succ', Nat.mod_mul]

/-- A number read where its bytes stand. -/
theorem le_append_leBytes {a : List Byte} {k : Nat} (hk : a.length = k) (n v : Nat) (b : List Byte) : le (a ++ (leBytes n v ++ b)) k n = v % 256 ^ n := by
  unfold le
  rw [List.drop_left' hk, List.take_left' (length_leBytes n v), foldr_leBytes]

/-! ### What a frame carries as it leaves (R208) -/

/-- A FRAME record at a place of a payload, with COMMIT and LATE written into it. -/
theorem stamped_one (f : RFrame) (now k : Nat) (late : Bool) (hlen : k + 0x40 ≤ f.payload.length) (hnow : now < 2 ^ 64) :
    le (stamped f now [(k, late)]).payload (k + 0x18) 8 = now ∧ bit (le (stamped f now [(k, late)]).payload (k + 0x20) 1) 0 = late ∧
    (stamped f now [(k, late)]).payload.length = f.payload.length := by
  have hpay : (stamped f now [(k, late)]).payload = f.payload.take (k + 0x18) ++ leBytes 8 now ++
      leBytes 1 (le f.payload (k + 0x20) 1 / 2 * 2 + flag late 0) ++ f.payload.drop (k + 0x21) := rfl
  have hhead : (f.payload.take (k + 0x18)).length = k + 0x18 := by rw [List.length_take]; omega
  rw [hpay]
  refine ⟨?_, ?_, ?_⟩
  · rw [List.append_assoc, List.append_assoc, le_append_leBytes hhead]
    exact Nat.mod_eq_of_lt hnow
  · rw [List.append_assoc, le_append_leBytes (by rw [List.length_append, hhead, length_leBytes])]
    unfold bit flag
    cases late <;> simp
  · simp only [List.length_append, hhead, length_leBytes, List.length_drop]
    omega

theorem stamped_kept (f : RFrame) (now : Nat) (l : List (Nat × Bool)) : ∃ b n, stamped f now l = { f with payload := b, pcrc := n } := by
  unfold stamped
  dsimp only
  split
  next => exact ⟨f.payload, f.pcrc, rfl⟩
  next => exact ⟨_, _, rfl⟩

/-! ### A port sends (R254, R255) -/

theorem RPort.stamp_kept (x : RPort) (f : RFrame) : ∃ n h, x.stamp f =
    { f with lseq := n, ack := (x.rxSeq + 65535) % 65536, credits := x.freed, hcrc := h } ∧ (f.credited = true → n = x.txSeq) :=
  ⟨_, _, rfl, fun h => if_pos h⟩

/-- The port after a frame of it left. -/
theorem Chip.port_sendFrame (c : Chip) (p : Port) (w : Waiting) (f : RFrame) (turns : Nat × Nat) :
    ((c.sendFrame p w f turns).rnd.port p).sent = (c.rnd.port p).sent ++ [(c.rnd.port p).stamp f] ∧
    ((c.sendFrame p w f turns).rnd.port p).replay = (c.rnd.port p).replay ++ [(c.rnd.port p).stamp f] ∧
    ((c.sendFrame p w f turns).rnd.port p).txSeq = ((c.rnd.port p).txSeq + 1) % 65536 ∧
    ((c.sendFrame p w f turns).rnd.port p).used = addBeats (c.rnd.port p).used ((c.rnd.port p).stamp f).cls.code ((c.rnd.port p).stamp f).beats ∧
    (w.1 = none → ((c.sendFrame p w f turns).rnd.port p).egress = (c.rnd.port p).egress.erase w.2) := by
  obtain ⟨via, g⟩ := w
  unfold Chip.sendFrame
  cases via with
  | none => cases p <;> exact ⟨rfl, rfl, rfl, rfl, fun _ => rfl⟩
  | some q => cases p <;> cases q <;> exact ⟨rfl, rfl, rfl, rfl, fun h => nomatch h⟩

theorem Chip.sendFrame_kept (c : Chip) (p : Port) (w : Waiting) (f : RFrame) (turns : Nat × Nat) :
    ∃ r, c.sendFrame p w f turns = { c with rnd := r } := ⟨_, rfl⟩

theorem Chip.skipDone_kept (c : Chip) (t : Ticket) : ∃ k h, c.skipDone t = { c with cast := k, hank := h } ∧
    k.committed = c.cast.committed ∧ k.late = c.cast.late := by
  unfold Chip.skipDone
  split
  next => exact ⟨c.cast, c.hank, rfl, rfl, rfl⟩
  next x _ _ =>
    obtain ⟨h, hfree⟩ := Chip.freeHanks_frame { c with
      cast := { c.cast.updTicket t.id (fun x => { x with skips := x.skips.drop 1 }) with skipped := c.cast.skipped.inc } } t x.hanks
    exact ⟨_, h, hfree, rfl, rfl⟩

theorem Chip.recsDone_kept (c : Chip) (t : Ticket) : ∃ k x, c.recsDone t = { c with cast := k, tracks := x } ∧
    k.committed = c.cast.committed ∧ k.late = c.cast.late := by
  unfold Chip.recsDone
  split
  next => exact ⟨c.cast, c.tracks, rfl, rfl, rfl⟩
  next => exact ⟨_, _, rfl, rfl, rfl⟩

/-- An output that commits is counted, and counted late where it is so. -/
def Chip.countSent (c : Chip) (o : Sent) : Chip :=
  { c with cast := { c.cast with committed := c.cast.committed.inc, late := if c.lateNow o.due then c.cast.late.inc else c.cast.late } }

/-- What an output sent over the Round changes as it commits. -/
theorem Chip.sentDone_spec (c : Chip) (o : Sent) : ∃ k q t h, c.sentDone o = { c with cast := k, queues := q, tracks := t, hank := h } ∧
    k.committed = c.cast.committed.inc ∧ k.late = (if c.lateNow o.due then c.cast.late.inc else c.cast.late) := by
  unfold Chip.sentDone
  dsimp only
  split
  next => split <;> exact ⟨_, _, _, _, rfl, rfl, rfl⟩
  next t _ =>
    split
    next => exact ⟨_, _, _, _, rfl, rfl, rfl⟩
    next =>
      obtain ⟨k, x, hdone, hcom, hlate⟩ := Chip.recsDone_kept
        { c.countSent o with cast := (c.countSent o).cast.updTicket t.id (fun x => { x with sentRecs := x.sentRecs - 1 }) } t
      exact ⟨k, _, x, _, hdone, hcom, hlate⟩
    next =>
      obtain ⟨k, h, hdone, hcom, hlate⟩ := Chip.skipDone_kept
        { c.countSent o with cast := (c.countSent o).cast.updTicket t.id (fun x => { x with sentSkips := x.sentSkips - 1 }) } t
      exact ⟨k, _, _, h, hdone, hcom, hlate⟩

/-- Control goes first within its share. -/
theorem RPort.choose_control {x : RPort} {w : Waiting} (h : x.ready (fun f => f.cls == .control) = some w) (hshare : x.ctlShare w = true) (wBe wBulk : Nat) :
    x.choose wBe wBulk = some (w, x.wrrBe, x.wrrBulk) := by
  have hctl : (x.ready (fun f => f.cls == .control)).bind (fun w => if x.ctlShare w then some w else none) = some w := by
    rw [h, Option.bind_some, if_pos hshare]
  simp only [RPort.choose, hctl]

/-- Then Guaranteed. -/
theorem RPort.choose_guaranteed {x : RPort} {w : Waiting} (hctl : x.ready (fun f => f.cls == .control) = none)
    (h : x.ready (fun f => f.cls == .guaranteed) = some w) (hresv : x.ready (fun f => f.cls == .bulk && f.resvBulk) = none) (wBe wBulk : Nat) :
    x.choose wBe wBulk = some (w, x.wrrBe, x.wrrBulk) := by
  have hsecond : x.second = some w := by simp only [RPort.second, h, hresv]
  simp only [RPort.choose, hctl, hsecond, Option.bind_none]

section
variable {p : Port} {c : Chip × Mem}

theorem frameBoundary_idle (h : (c.1.rnd.port p).state ≠ .up ∨ (c.1.rnd.port p).choose c.1.rnd.wrrBe c.1.rnd.wrrBulk = none) : frameBoundary p c = c := by
  unfold frameBoundary
  by_cases hup : (c.1.rnd.port p).state = .up
  · have hchoose := h.resolve_left (Decidable.not_not.mpr hup)
    simp only [hup, hchoose]
    exact if_neg (by decide)
  · exact if_pos (bne_iff_ne.mpr hup)

variable {w : Waiting} {turns : Nat × Nat} (hup : (c.1.rnd.port p).state = .up)
  (hchoose : (c.1.rnd.port p).choose c.1.rnd.wrrBe c.1.rnd.wrrBulk = some (w, turns))
include hup hchoose

/-- A frame that is no output's last leaves as it is. -/
theorem frameBoundary_plain (hs : (if w.1.isNone then c.1.rnd.commits w.2 else none) = none) :
    frameBoundary p c = (c.1.sendFrame p w w.2 turns, c.2) := by
  unfold frameBoundary
  refine (if_neg (by rw [hup]; decide)).trans ?_
  simp only [hchoose, hs]

/-- The last frame of an output's transfer commits the output. -/
theorem frameBoundary_commits {o : Sent} (hs : (if w.1.isNone then c.1.rnd.commits w.2 else none) = some o) :
    frameBoundary p c = progress o.ticket
      ((c.1.sendFrame p w (stamped w.2 c.1.now (o.stamps.map (fun e => (e.1, c.1.lateNow e.2)))) turns).sentDone o, c.2) := by
  unfold frameBoundary
  refine (if_neg (by rw [hup]; decide)).trans ?_
  simp only [hchoose, hs]

end

/-! ### Frames sent again (R257, R258) -/

theorem Rnd.relaunch_kept (r : Rnd) (west : Bool) (f : RFrame) : ∃ e w, r.relaunch west f = { r with east := e, west := w } := by
  unfold Rnd.relaunch
  generalize (if west then Port.east else Port.west) = other
  dsimp only
  split
  next => exact r.launch_frame _
  next => exact ⟨_, _, rfl⟩

theorem Rnd.relaunches_kept (r : Rnd) (west : Bool) (l : List RFrame) :
    ∃ e w, l.foldl (fun r f => r.relaunch west f) r = { r with east := e, west := w } := by
  refine List.foldlRecOn (motive := fun q : Rnd => ∃ e w, q = { r with east := e, west := w }) l _ ⟨_, _, rfl⟩ fun q hq f _ => ?_
  obtain ⟨e, w, rfl⟩ := hq
  obtain ⟨e', w', h⟩ := Rnd.relaunch_kept { r with east := e, west := w } west f
  exact ⟨e', w', h⟩

/-- Time moved on to a later moment. -/
theorem Chip.advance_of_le {c : Chip} {t : Nat} (hle : c.now ≤ t) (hlt : t < 2 ^ 64) : c.advance t = { c with gauge := { c.gauge with time := t } } :=
  congrArg (fun g => { c with gauge := g }) (Gauge.advance_of_le hle hlt)

/-- A frame of this module waits at its port's egress. -/
theorem Rnd.enqueue_open {r : Rnd} {p : Port} (h : (r.port p).state ≠ .wrapped) (f : RFrame) :
    r.enqueue p none f = r.updPort p (fun x => { x with egress := x.egress ++ [f] }) := by
  have hturn : ¬ r.turns p = true := fun ht => h (beq_iff_eq.mp ht)
  unfold Rnd.enqueue
  rw [if_neg hturn]
  dsimp only
  rw [if_neg hturn]

/-- A discovery run puts a DISCOVER at both ports. -/
theorem Chip.egress_runDiscovery {c : Chip} (hslip : c.rnd.slipped = false) (heast : (c.rnd.port .east).state ≠ .wrapped)
    (hwest : (c.rnd.port .west).state ≠ .wrapped) (p : Port) :
    (c.runDiscovery.rnd.port p).egress = (c.rnd.port p).egress ++ [c.discoverFrame] := by
  have hrun : ∃ q : Rnd, (∀ x, q.port x = c.rnd.port x) ∧ c.runDiscovery.rnd = (q.enqueue .east none c.discoverFrame).enqueue .west none c.discoverFrame := by
    unfold Chip.runDiscovery
    rw [if_neg (ne_true_of_eq_false hslip)]
    exact ⟨_, fun x => by cases x <;> rfl, rfl⟩
  obtain ⟨q, hq, hrun⟩ := hrun
  rw [← hq] at heast hwest
  rw [hrun, Rnd.enqueue_open heast, Rnd.enqueue_open (p := .west) (r := q.updPort .east fun x => { x with egress := x.egress ++ [c.discoverFrame] }) hwest, ← hq]
  cases p <;> rfl

/-! ### Ports and timers settled -/

/-- A frame boundary at a port that has a frame to send. -/
theorem frameBoundary_spec {s : State} {p : Port} {w : Waiting} {turns : Nat × Nat} (hup : (s.chip.rnd.port p).state = .up)
    (hchoose : (s.chip.rnd.port p).choose s.chip.rnd.wrrBe s.chip.rnd.wrrBulk = some (w, turns)) :
    let x := s.chip.rnd.port p
    let sent := if w.1.isNone then s.chip.rnd.commits w.2 else none
    ∃ (t : State) (g : RFrame), exec (.frameBoundary p) s = .next (sent.elim t (fun o => Safety.upToDate o.ticket t)) ∧
      t = { s with chip := { s.chip with rnd := t.chip.rnd, cast := t.chip.cast, queues := t.chip.queues, tracks := t.chip.tracks, hank := t.chip.hank } } ∧
      g = { w.2 with lseq := g.lseq, ack := g.ack, credits := g.credits, hcrc := g.hcrc, payload := g.payload, pcrc := g.pcrc } ∧
      (w.2.credited = true → g.lseq = x.txSeq) ∧ (t.chip.rnd.port p).sent = x.sent ++ [g] ∧ (t.chip.rnd.port p).replay = x.replay ++ [g] ∧
      (t.chip.rnd.port p).txSeq = (x.txSeq + 1) % 65536 ∧ (t.chip.rnd.port p).used = addBeats x.used g.cls.code g.beats ∧
      (w.1 = none → (t.chip.rnd.port p).egress = x.egress.erase w.2) ∧
      (sent = none → t = { s with chip := { s.chip with rnd := t.chip.rnd } } ∧ g.payload = w.2.payload ∧ g.pcrc = w.2.pcrc) ∧
      (∀ o, sent = some o → t.chip.cast.committed = s.chip.cast.committed.inc ∧
        t.chip.cast.late = (if s.chip.lateNow o.due then s.chip.cast.late.inc else s.chip.cast.late) ∧
        ∀ at_ due, o.stamps = [(at_, due)] → at_ + 0x40 ≤ w.2.payload.length → s.chip.now < 2 ^ 64 → le g.payload (at_ + 0x18) 8 = s.chip.now ∧
          bit (le g.payload (at_ + 0x20) 1) 0 = s.chip.lateNow due ∧ g.payload.length = w.2.payload.length) := by
  intro x sent
  have hexec : exec (.frameBoundary p) s = .next { s with chip := (frameBoundary p (s.chip, s.mem)).1, mem := (frameBoundary p (s.chip, s.mem)).2 } :=
    exec_frameBoundary
  cases hsent : sent with
  | none =>
    have hrun := frameBoundary_plain (c := (s.chip, s.mem)) hup hchoose hsent
    rw [hrun] at hexec
    obtain ⟨n, h, hstamp, hnum⟩ := x.stamp_kept w.2
    obtain ⟨hout, hreplay, hseq, hused, hegress⟩ := s.chip.port_sendFrame p w w.2 turns
    refine ⟨{ s with chip := s.chip.sendFrame p w w.2 turns }, x.stamp w.2, hexec, rfl, ?_, fun hc => ?_, hout, hreplay, hseq, hused, hegress,
      fun _ => ⟨rfl, ?_, ?_⟩, fun o ho => absurd ho.symm (Option.some_ne_none o)⟩
    · rw [hstamp]
    · rw [hstamp]
      exact hnum hc
    · rw [hstamp]
    · rw [hstamp]
  | some o =>
    have hrun := frameBoundary_commits (c := (s.chip, s.mem)) hup hchoose hsent
    rw [hrun] at hexec
    generalize hf : stamped w.2 s.chip.now (o.stamps.map (fun e => (e.1, s.chip.lateNow e.2))) = f at hexec
    obtain ⟨b, m, hkept⟩ := stamped_kept w.2 s.chip.now (o.stamps.map (fun e => (e.1, s.chip.lateNow e.2)))
    rw [hf] at hkept
    obtain ⟨n, h, hstamp, hnum⟩ := x.stamp_kept f
    obtain ⟨hout, hreplay, hseq, hused, hegress⟩ := s.chip.port_sendFrame p w f turns
    obtain ⟨k, q, t, v, hdone, hcom, hlate⟩ := (s.chip.sendFrame p w f turns).sentDone_spec o
    refine ⟨{ s with chip := (s.chip.sendFrame p w f turns).sentDone o }, x.stamp f, hexec, ?_, ?_, fun hc => ?_, ?_, ?_, ?_, ?_, fun hown => ?_,
      fun hnone => absurd hnone (Option.some_ne_none o), fun o' ho => ?_⟩
    · rw [hdone]
      rfl
    · rw [hstamp, hkept]
    · rw [hstamp]
      exact hnum (by rw [hkept]; exact hc)
    · rw [hdone]
      exact hout
    · rw [hdone]
      exact hreplay
    · rw [hdone]
      exact hseq
    · rw [hdone]
      exact hused
    · rw [hdone]
      exact hegress hown
    · cases ho
      rw [hdone]
      refine ⟨hcom, hlate, fun at_ due hstamps hlen hnow => ?_⟩
      rw [hstamps] at hf
      rw [hstamp, ← hf]
      exact stamped_one w.2 s.chip.now at_ (s.chip.lateNow due) hlen hnow

/-- A port that is wrapped while the ring is closed. -/
theorem wrap_wrapped {s : State} {p : Port} (hslip : s.chip.rnd.slipped = false) (hup : (s.chip.rnd.port p).state ≠ .up)
    (hstate : (s.chip.rnd.port p).state ≠ .wrapped) :
    let x := s.chip.rnd.port p
    ∃ t, exec (.wrap p) s = .next t ∧
      t = { s with chip := { s.chip with rnd := t.chip.rnd, freeCtr := t.chip.freeCtr, log := t.chip.log, evc := t.chip.evc, pins := t.chip.pins } } ∧
      (t.chip.rnd.port p).state = .wrapped ∧ ((s.chip.rnd.port p.other).state ≠ .wrapped → (t.chip.rnd.port p).egress = []) ∧ (t.chip.rnd.port p).transit = [] ∧
      t.chip.rnd.repKind = 2 ∧ (∀ f ∈ x.egress, { f with turned := true } ∈ (t.chip.rnd.port p.other).egress) ∧
      (∀ e ∈ x.transit, (e.1, { e.2 with turned := true }) ∈ (t.chip.rnd.port p.other).transit) := by
  intro x
  have hexec : exec (.wrap p) s = .next { s with chip := s.chip.wrap p } := by
    rw [exec_wrap, execWrap, if_neg hup]
  obtain ⟨⟨n, k, l, v, i, hkept⟩, hkind, hqueued⟩ := Chip.wrap_spec (c := s.chip) (p := p) hslip hstate
  have hown : (s.chip.rnd.wrapPort p).port p = x.wrapped := by
    rw [Rnd.wrapPort_eq, Rnd.port_updPort_of_ne _ (Port.other_ne p).symm, Rnd.port_updPort_same]
  have hother := congrArg (fun r => Rnd.port r p.other) (s.chip.rnd.wrapPort_eq p)
  simp only [Rnd.port_updPort_same, Rnd.port_updPort_other] at hother
  refine ⟨_, hexec, ?_, ?_, fun hopen => ?_, ?_, hkind, fun f hf => ?_, fun e he => ?_⟩
  · rw [hkept]
  · rw [hqueued.state, hown]
    rfl
  · obtain ⟨l, hl, hnone⟩ := hqueued p
    rw [hl, hown, hnone (by rw [hown]; rfl) (by rw [hother]; exact hopen)]
    rfl
  · rw [hqueued.transit, hown]
    rfl
  · refine hqueued.mem_egress ?_
    rw [hother]
    exact List.mem_append_right _ (List.mem_map.mpr ⟨f, hf, rfl⟩)
  · rw [hqueued.transit, hother]
    exact List.mem_append_right _ (List.mem_map.mpr ⟨e, he, rfl⟩)

theorem Rnd.idleSend_idle {r : Rnd} {p : Port} (h : (r.port p).state = .up ∧ (r.port p).transit = [] ∧ (r.port p).egress = []) :
    r.idleSend p = r.updPort p (fun x => x.sendPlain (x.idleFrame r.id false)) := by
  obtain ⟨hup, ht, he⟩ := h
  exact if_pos (by rw [hup, ht, he]; rfl)

theorem Rnd.idleSend_busy {r : Rnd} {p : Port} (h : ¬ ((r.port p).state = .up ∧ (r.port p).transit = [] ∧ (r.port p).egress = [])) :
    r.idleSend p = r := by
  refine if_neg fun hall => h ?_
  simp only [Bool.and_eq_true, beq_iff_eq, List.isEmpty_iff] at hall
  exact ⟨hall.1.1, hall.1.2, hall.2⟩

/-- A link in fault: its port down, its frames kept, and 20 µs after the replay where one stood. -/
theorem linkFault_spec (s : State) (p : Port) :
    let x := s.chip.rnd.port p
    ∃ t, exec (.linkFault p) s = .next t ∧ t = { s with chip := { s.chip with rnd := t.chip.rnd, gauge := t.chip.gauge } } ∧
      (t.chip.rnd.port p).state = .down ∧ (t.chip.rnd.port p).locked = 0 ∧ (t.chip.rnd.port p).nbValid = false ∧ (t.chip.rnd.port p).replay = x.replay ∧
      t.chip.rnd.port p.other = s.chip.rnd.port p.other ∧ (x.replayAt = none → t.chip.gauge = s.chip.gauge) ∧
      (∀ d, x.replayAt = some d → s.chip.now ≤ d + 500 → d + 500 < 2 ^ 64 → t.chip.gauge = { s.chip.gauge with time := d + 500 }) := by
  intro x
  refine ⟨_, exec_linkFault, ?_⟩
  unfold Chip.linkFault
  cases hreplay : (s.chip.rnd.port p).replayAt with
  | none =>
    refine ⟨rfl, ?_⟩
    cases p <;> exact ⟨rfl, rfl, rfl, rfl, rfl, fun _ => rfl, fun d hd => absurd hd.symm (Option.some_ne_none d)⟩
  | some d =>
    have hgauge (d' : Nat) (hd : x.replayAt = some d') (hle : s.chip.now ≤ d' + 500) (hlt : d' + 500 < 2 ^ 64) :
        (s.chip.advance (d + usTicks 20)).gauge = { s.chip.gauge with time := d' + 500 } := by
      rw [Option.some.inj (hd.symm.trans hreplay)] at hle hlt ⊢
      exact (congrArg Chip.gauge (Chip.advance_of_le hle hlt) :)
    refine ⟨rfl, ?_⟩
    cases p <;> exact ⟨rfl, rfl, rfl, rfl, rfl, fun hn => absurd hn (Option.some_ne_none d), fun d' hd => hgauge d' (hreplay.trans hd)⟩

/-- A planned slip: both ports cut off, their frames lost. -/
theorem plannedSlip_spec {s : State} (h : s.chip.rnd.slipPending = true) :
    ∃ t, exec .plannedSlip s = .next t ∧ t = { s with chip := { s.chip with rnd := t.chip.rnd, gauge := t.chip.gauge } } ∧
      t.chip.rnd.slipped = true ∧ t.chip.rnd.slipPending = false ∧ (∀ p, (t.chip.rnd.port p).state = .down ∧ (t.chip.rnd.port p).replay = [] ∧
        (t.chip.rnd.port p).egress = [] ∧ (t.chip.rnd.port p).transit = []) ∧
      (s.chip.rnd.east.replay = [] → s.chip.rnd.west.replay = [] → t.chip.gauge = s.chip.gauge) := by
  have hports (p : Port) : (s.chip.rnd.slip.port p).state = .down ∧ (s.chip.rnd.slip.port p).replay = [] ∧
      (s.chip.rnd.slip.port p).egress = [] ∧ (s.chip.rnd.slip.port p).transit = [] := by cases p <;> exact ⟨rfl, rfl, rfl, rfl⟩
  refine ⟨_, exec_plannedSlip, ?_⟩
  rw [if_pos h]
  refine ⟨?_, rfl, rfl, hports, fun he hw => ?_⟩
  · split
    next => split <;> rfl
    next => rfl
  · dsimp only
    split
    next => rw [he, hw]; rfl
    next => rfl

/-- A discovery run: every peer asked again, those silent for two runs without a path. -/
theorem discoveryRun_spec (s : State) :
    ∃ u, exec .discoveryRun s = .next (Safety.settled u) ∧ u = { s with chip := { s.chip with rnd := u.chip.rnd } } ∧
      (s.chip.rnd.slipped = true → u.chip.rnd = s.chip.rnd) ∧
      (s.chip.rnd.slipped = false → u.chip.rnd.runs = s.chip.rnd.runs + 1 ∧
        (∀ k x, s.chip.rnd.peers.find? (fun e => e.1 == k) = some (k, x) → x.lastRun + 2 < s.chip.rnd.runs + 1 → u.chip.rnd.reachable k = false) ∧
        (∀ p : Port, (s.chip.rnd.port .east).state ≠ .wrapped → (s.chip.rnd.port .west).state ≠ .wrapped →
          (u.chip.rnd.port p).egress = (s.chip.rnd.port p).egress ++ [s.chip.discoverFrame])) := by
  obtain ⟨hkept, hsame, hruns, hroutes⟩ := s.chip.runDiscovery_spec
  refine ⟨{ s with chip := s.chip.runDiscovery }, exec_discoveryRun, by rw [hkept], hsame, fun hslip => ⟨?_, fun k x hx hrun => ?_, fun p he hw => ?_⟩⟩
  · dsimp only
    rw [hruns, if_neg (ne_true_of_eq_false hslip)]
  · exact Rnd.reachable_of_lost ((Rnd.lost_of_silent (r := { s.chip.rnd with runs := s.chip.rnd.runs + 1 }) hx hrun).of_routes (hroutes hslip))
  · exact Chip.egress_runDiscovery hslip he hw p

theorem Safety.failed_progress (s : State) (g cause i : Nat) (c : Chip × Mem) :
    { s with chip := (failFor g cause (progress i c)).1, mem := (failFor g cause (progress i c)).2 } =
      Safety.failed g cause (Safety.upToDate i { s with chip := c.1, mem := c.2 }) := by
  simp only [Safety.failed, Safety.upToDate]

/-- A transfer looked at 100 µs after its last frame left. -/
theorem xferTimeout_due {s : State} {k : Nat} {x : XferOut} {d : Nat} (hx : s.chip.rnd.xout.find? (fun x => x.xfer == k && x.leftAt.isSome) = some x)
    (hleft : x.leftAt = some d) (hle : s.chip.now ≤ d + 2500) (hlt : d + 2500 < 2 ^ 64) : xferTimeout k (s.chip, s.mem) =
      if x.resent then failFor x.garment 3 (endXfer x ({ s.chip with gauge := { s.chip.gauge with time := d + 2500 } }, s.mem))
      else (Chip.resendXfer { s.chip with gauge := { s.chip.gauge with time := d + 2500 } } x, s.mem) := by
  have hadvance : s.chip.advance (x.leftAt.getD 0 + usTicks 100) = { s.chip with gauge := { s.chip.gauge with time := d + 2500 } } := by
    rw [hleft]
    exact Chip.advance_of_le hle hlt
  simp only [xferTimeout, hx, hadvance]

/-- 100 µs without XFER_ACK. -/
theorem xferAckTimeout_spec (s : State) (k : Nat) :
    (s.chip.rnd.xout.find? (fun x => x.xfer == k && x.leftAt.isSome) = none → exec (.xferAckTimeout k) s = .next s) ∧
    (∀ x d, s.chip.rnd.xout.find? (fun x => x.xfer == k && x.leftAt.isSome) = some x → x.leftAt = some d → s.chip.now ≤ d + 2500 → d + 2500 < 2 ^ 64 →
      (x.resent = false → ∃ t, exec (.xferAckTimeout k) s = .next t ∧
        t = { s with chip := { s.chip with gauge := { s.chip.gauge with time := d + 2500 }, rnd := t.chip.rnd } } ∧
        t.chip.rnd.resend = s.chip.rnd.resend.inc ∧
        t.chip.rnd.xout = s.chip.rnd.xout.map (fun y => if y = x then { x with resent := true, unsent := x.frames.length, leftAt := none, west := !x.west } else y)) ∧
      (x.resent = true → ∃ u, exec (.xferAckTimeout k) s = .next (Safety.failed x.garment 3 (Safety.upToDate x.ticket u)) ∧
        u = { s with chip := { s.chip with gauge := { s.chip.gauge with time := d + 2500 }, rnd := u.chip.rnd, hank := u.chip.hank } } ∧
        u.chip.rnd.xout = s.chip.rnd.xout.erase x)) := by
  have hexec : exec (.xferAckTimeout k) s = .next { s with chip := (xferTimeout k (s.chip, s.mem)).1, mem := (xferTimeout k (s.chip, s.mem)).2 } :=
    exec_xferAckTimeout
  refine ⟨fun hnone => ?_, fun x d hx hleft hle hlt => ?_⟩
  · rw [hexec, show xferTimeout k (s.chip, s.mem) = (s.chip, s.mem) by simp only [xferTimeout, hnone]]
  · rw [hexec, xferTimeout_due hx hleft hle hlt]
    refine ⟨fun hfirst => ?_, fun hagain => ?_⟩
    · rw [if_neg (ne_true_of_eq_false hfirst)]
      obtain ⟨e, w, hsent⟩ := s.chip.rnd.relaunches_kept x.west x.frames
      refine ⟨_, rfl, rfl, ?_, ?_⟩
      · exact (congrArg (fun r : Rnd => r.resend.inc) hsent :)
      · exact (congrArg (fun r : Rnd => r.xout.map (fun y => if y = x then
          { x with resent := true, unsent := x.frames.length, leftAt := none, west := !x.west } else y)) hsent :)
    · rw [if_pos hagain, endXfer_eq, Safety.failed_progress]
      exact ⟨_, rfl, rfl, rfl⟩

/-- A message looked at 100 µs after it was sent. -/
theorem msgTimeout_due {s : State} {dest eseq n : Nat} {f : RFrame} {d : Nat}
    (hfind : (s.chip.rnd.eseqOf dest).unacked.find? (fun u => u.1 == eseq) = some (n, f, d)) (hle : s.chip.now ≤ d + 2500) (hlt : d + 2500 < 2 ^ 64) :
    msgTimeout dest eseq (s.chip, s.mem) =
      if f.resent then failFor f.garment 2 (Chip.updEseq { s.chip with gauge := { s.chip.gauge with time := d + 2500 } } dest
        (fun q => { q with unacked := q.unacked.filter (fun u => u.1 != n) }), s.mem)
      else (Chip.updEseq { s.chip with
        gauge := { s.chip.gauge with time := d + 2500 }
        rnd := { s.chip.rnd.relaunch (s.chip.rnd.exit dest == some .west) f with
          resend := (s.chip.rnd.relaunch (s.chip.rnd.exit dest == some .west) f).resend.inc } } dest
        (fun q => { q with unacked := q.unacked.map (fun u => if u.1 = n then (n, { f with resent := true }, d + 2500) else u) }), s.mem) := by
  have hadvance : s.chip.advance (d + usTicks 100) = { s.chip with gauge := { s.chip.gauge with time := d + 2500 } } := Chip.advance_of_le hle hlt
  unfold msgTimeout
  simp only [hfind, hadvance]
  rfl

/-- 100 µs without MSG_ACK, and a gap of 300 µs in a peer's messages. -/
theorem msgTimers_spec (s : State) (dest eseq : Nat) :
    let q := s.chip.rnd.eseqOf dest
    (q.unacked.find? (fun u => u.1 == eseq) = none → exec (.msgAckTimeout dest eseq) s = .next s) ∧
    (∀ n f d, q.unacked.find? (fun u => u.1 == eseq) = some (n, f, d) → s.chip.now ≤ d + 2500 → d + 2500 < 2 ^ 64 →
      (f.resent = false → ∃ t, exec (.msgAckTimeout dest eseq) s = .next t ∧
        t = { s with chip := { s.chip with gauge := { s.chip.gauge with time := d + 2500 }, rnd := t.chip.rnd } } ∧
        t.chip.rnd.resend = s.chip.rnd.resend.inc ∧ t.chip.rnd.eseqOf dest =
          { q with unacked := q.unacked.map (fun u => if u.1 = n then (n, { f with resent := true }, d + 2500) else u) }) ∧
      (f.resent = true → ∃ u, exec (.msgAckTimeout dest eseq) s = .next (Safety.failed f.garment 2 u) ∧
        u = { s with chip := { s.chip with gauge := { s.chip.gauge with time := d + 2500 }, rnd := u.chip.rnd } } ∧
        u.chip.rnd.eseqOf dest = { q with unacked := q.unacked.filter (fun u => u.1 != n) })) ∧
    (q.gapAt = none ∨ q.held = [] → exec (.controlGap dest) s = .next s) ∧
    (∀ d f, q.gapAt = some d → q.nearest = some f → s.chip.now ≤ d + 7500 → d + 7500 < 2 ^ 64 →
      ∃ u, exec (.controlGap dest) s = .next (Safety.controlEnd dest (Safety.resumed dest f.offset q.held.length (Safety.failed f.garment 4 u))) ∧
        u = { s with chip := { s.chip with gauge := { s.chip.gauge with time := d + 7500 } } }) := by
  intro q
  have hexec : exec (.msgAckTimeout dest eseq) s = .next { s with chip := (msgTimeout dest eseq (s.chip, s.mem)).1, mem := (msgTimeout dest eseq (s.chip, s.mem)).2 } :=
    exec_msgAckTimeout
  have hgap : exec (.controlGap dest) s = .next { s with chip := (controlGap dest (s.chip, s.mem)).1, mem := (controlGap dest (s.chip, s.mem)).2 } :=
    exec_controlGap
  refine ⟨fun hnone => ?_, fun n f d hfind hle hlt => ⟨fun hfirst => ?_, fun hagain => ?_⟩, fun hnot => ?_, fun d f hd hf hle hlt => ?_⟩
  · have hsame : msgTimeout dest eseq (s.chip, s.mem) = (s.chip, s.mem) := by
      unfold msgTimeout
      simp only [show (s.chip.rnd.eseqOf dest).unacked.find? (fun u => u.1 == eseq) = none from hnone]
    rw [hexec, hsame]
  · rw [hexec, msgTimeout_due hfind hle hlt, if_neg (ne_true_of_eq_false hfirst)]
    obtain ⟨e, w, hsent⟩ := s.chip.rnd.relaunch_kept (s.chip.rnd.exit dest == some .west) f
    refine ⟨_, rfl, rfl, ?_, ?_⟩
    · exact (congrArg (fun r : Rnd => r.resend.inc) hsent :)
    · refine (Tbl.get_upd_same ({} : Eseq) (s.chip.rnd.relaunch (s.chip.rnd.exit dest == some .west) f).eseq dest
        fun q => { q with unacked := q.unacked.map (fun u => if u.1 = n then (n, { f with resent := true }, d + 2500) else u) }).trans ?_
      rw [hsent]
      rfl
  · rw [hexec, msgTimeout_due hfind hle hlt, if_pos hagain]
    refine ⟨{ s with
      chip := Chip.updEseq { s.chip with gauge := { s.chip.gauge with time := d + 2500 } } dest
        (fun q => { q with unacked := q.unacked.filter (fun u => u.1 != n) }) }, rfl, rfl, ?_⟩
    exact Tbl.get_upd_same ({} : Eseq) s.chip.rnd.eseq dest fun q => { q with unacked := q.unacked.filter (fun u => u.1 != n) }
  · have hnone : ¬ ∃ t f, (s.chip.rnd.eseqOf dest).gapAt = some t ∧ (s.chip.rnd.eseqOf dest).nearest = some f := fun ⟨t, f, ht, hf⟩ =>
      hnot.elim (fun h => absurd (ht.symm.trans h) (Option.some_ne_none t)) fun h => by
        unfold Eseq.nearest at hf
        rw [show (s.chip.rnd.eseqOf dest).held = [] from h] at hf
        exact absurd hf.symm (Option.some_ne_none f)
    have hsame : controlGap dest (s.chip, s.mem) = (s.chip, s.mem) := by
      unfold controlGap
      split
      next t f ht hf => exact absurd ⟨t, f, ht, hf⟩ hnone
      next => rfl
    rw [hgap, hsame]
  · have hadvance : s.chip.advance (d + usTicks 300) = { s.chip with gauge := { s.chip.gauge with time := d + 7500 } } := Chip.advance_of_le hle hlt
    refine ⟨_, hgap.trans ?_, rfl⟩
    unfold controlGap
    simp only [show (s.chip.rnd.eseqOf dest).gapAt = some d from hd, show (s.chip.rnd.eseqOf dest).nearest = some f from hf, hadvance]
    rfl

/-- Settles O57: each of a port's own acts and each of the Round's timers, one after another. -/
theorem portsAndTimersOfTheRound : Obligations.PortsAndTimersOfTheRound := by
  unfold Obligations.PortsAndTimersOfTheRound
  refine ⟨fun s p => ?sends, fun s p => ?link, fun s => ⟨fun hnot => ?unplanned, fun h => plannedSlip_spec h, discoveryRun_spec s⟩, xferAckTimeout_spec, msgTimers_spec⟩
  case sends =>
    intro x
    have hidle : exec (.idleSend p) s = .next { s with chip := { s.chip with rnd := s.chip.rnd.idleSend p } } := exec_idleSend
    refine ⟨fun h => ?_, fun h => ?_, fun h => ?_, fun w turns hup hchoose => frameBoundary_spec hup hchoose,
      fun w h hshare => RPort.choose_control h hshare _ _, fun w hctl h hresv => RPort.choose_guaranteed hctl h hresv _ _⟩
    · rw [hidle, Rnd.idleSend_idle h]
      exact ⟨_, _, rfl, rfl, Rnd.port_updPort_other _ _ _, Rnd.port_updPort_same _ _ _, rfl, rfl, rfl, rfl⟩
    · rw [hidle, Rnd.idleSend_busy h]
    · rw [exec_frameBoundary, execFrameBoundary, frameBoundary_idle (c := (s.chip, s.mem)) h]
  case link =>
    intro x
    have hwrap (h : x.state = .up) : exec (.wrap p) s = .next s := by rw [exec_wrap, execWrap, if_pos h]
    have hclosed (h : s.chip.rnd.slipped = true ∨ x.state = .wrapped) : s.chip.wrap p = s.chip := if_pos h
    have hstay (h : s.chip.rnd.slipped = true ∨ x.state = .wrapped) : exec (.wrap p) s = .next s := by rw [exec_wrap, execWrap, hclosed h, ite_self]
    refine ⟨linkFault_spec s p, fun lanes hslip c hc => ?_, fun hslip => ?_, fun lanes hslip => ?_, fun h => ?_, fun hslip hup hstate => wrap_wrapped hslip hup hstate⟩
    · simp only [List.mem_cons, List.not_mem_nil, or_false] at hc
      rcases hc with rfl | rfl | rfl
      · rw [exec_lossOfLock, execLossOfLock, if_pos hslip]
      · rw [exec_laneLocked, execLaneLocked, show s.chip.rnd.laneLocked p lanes = s.chip.rnd from if_pos hslip]
      · exact hstay (.inl hslip)
    · rw [exec_lossOfLock, execLossOfLock, if_neg (ne_true_of_eq_false hslip)]
      exact ⟨_, rfl, rfl, Rnd.port_updPort_same _ _ _, Rnd.port_updPort_other _ _ _⟩
    · rw [exec_laneLocked, execLaneLocked, show s.chip.rnd.laneLocked p lanes = s.chip.rnd.updPort p _ from if_neg (ne_true_of_eq_false hslip)]
      exact ⟨_, rfl, rfl, Rnd.port_updPort_same _ _ _, Rnd.port_updPort_other _ _ _⟩
    · exact h.elim hwrap fun h => hstay (.inr h)
  case unplanned =>
    rw [exec_plannedSlip, execPlannedSlip, if_neg (ne_true_of_eq_false hnot)]

end Sys2Proof.Machine
end

section
/-!
What bringing a stream up to date keeps of its tickets: how many submissions each has had (R10, R14), family 15.
-/
namespace Sys2Proof.Machine

/-! ### Outputs committed (R11, R282) -/

theorem Chip.cqCommit_frame (c : Chip) (t : Ticket) (r : CqRec) :
    ∃ q p x e, c.cqCommit t r = { c with queues := q, pcie := p, hostTx := x, evc := e } := by
  unfold Chip.cqCommit Chip.cqWrite
  split
  next => exact ⟨_, _, _, _, rfl⟩
  next =>
    split
    next => exact ⟨_, _, _, _, rfl⟩
    next => exact ⟨c.queues, _, c.hostTx, c.evc, rfl⟩

/-- A unit that commits to the host: hanks, the counts of outputs and the record. -/
theorem commitHost_frame (t : Ticket) (kind : Nat) (payload : List Byte) (bytes source pts : Nat) (due : Option Nat) (c : Chip × Mem) :
    ∃ h b l q p x e m, commitHost t kind payload bytes source pts due c = ({ c.1 with
      hank := h, hbm := b, pnl := l, queues := q, pcie := p, hostTx := x, evc := e
      cast := { c.1.cast with committed := c.1.cast.committed.inc, late := if c.1.lateNow due then c.1.cast.late.inc else c.1.cast.late } }, m) := by
  unfold commitHost
  dsimp only
  obtain ⟨b, l, hw⟩ := Chip.wrote_eq { c.1 with
    hank := c.1.hank.alloc t.id (hostTag t.fn) (max 1 (ceilDiv payload.length 0x4000) + 1)
    cast := { c.1.cast with committed := c.1.cast.committed.inc, late := if c.1.lateNow due then c.1.cast.late.inc else c.1.cast.late } }
    ((c.1.hank.next (max 1 (ceilDiv payload.length 0x4000) + 1)).map (fun h => (hankAddr h, 0x4000)))
  rw [hw]
  obtain ⟨q, p, x, e, hq⟩ := Chip.cqCommit_frame (c := { c.1 with
    hank := c.1.hank.alloc t.id (hostTag t.fn) (max 1 (ceilDiv payload.length 0x4000) + 1), hbm := b, pnl := l
    cast := { c.1.cast with committed := c.1.cast.committed.inc, late := if c.1.lateNow due then c.1.cast.late.inc else c.1.cast.late } }) t _
  exact ⟨_, _, _, _, _, _, _, _, Prod.ext hq rfl⟩

/-- A unit that leaves over the Round: hanks and a transfer. -/
theorem commitRound_frame (t : Ticket) (dest arg : Nat) (video recs : List Byte) (out : Sent) (c : Chip × Mem) :
    ∃ h b l m, commitRound t dest arg video recs out c = ({ c.1 with
      hank := h, hbm := b, pnl := l
      rnd := c.1.rnd.startXfer t.class dest t.id (t.garment.getD 0) arg false (c.1.hank.next (max 1 (ceilDiv (video ++ recs).length 0x4000))) video.length
        (video ++ recs) (some out) }, m) := by
  unfold commitRound
  dsimp only
  obtain ⟨b, l, hw⟩ := Chip.wrote_eq { c.1 with
    hank := c.1.hank.alloc t.id (ctxTag (t.contexts.headD 0)) (max 1 (ceilDiv (video ++ recs).length 0x4000))
    rnd := c.1.rnd.startXfer t.class dest t.id (t.garment.getD 0) arg false (c.1.hank.next (max 1 (ceilDiv (video ++ recs).length 0x4000))) video.length
      (video ++ recs) (some out) } ((c.1.hank.next (max 1 (ceilDiv (video ++ recs).length 0x4000))).map (fun h => (hankAddr h, 0x4000)))
  rw [hw]
  exact ⟨_, _, _, _, rfl⟩

/-! ### Submission numbers -/

/-- The number of the next submission of a ticket, where it is live. -/
def Chip.numberOf (c : Chip) (i : Nat) : Option Nat := (c.ticket? i).map (fun t => t.nextSource)

/-- The tickets have had the same submissions. -/
def Chip.SameNumbers (c d : Chip) : Prop := ∀ i, d.numberOf i = c.numberOf i

theorem Chip.SameNumbers.refl (c : Chip) : c.SameNumbers c := fun _ => rfl

theorem Chip.SameNumbers.trans {c d e : Chip} (h : c.SameNumbers d) (k : d.SameNumbers e) : c.SameNumbers e := fun i => (k i).trans (h i)

theorem Chip.sameNumbers_of_cast {c d : Chip} (h : d.cast = c.cast) : c.SameNumbers d := fun i => by
  unfold Chip.numberOf Chip.ticket?
  rw [h]

/-- A change of every ticket that keeps its number and its count of submissions. -/
theorem Chip.sameNumbers_map {c d : Chip} {g : Ticket → Ticket} (hd : d.cast.tickets = c.cast.tickets.map g)
    (hg : ∀ x, (g x).id = x.id ∧ (g x).nextSource = x.nextSource) : c.SameNumbers d := by
  intro i
  unfold Chip.numberOf Chip.ticket?
  rw [hd, List.find?_map_of_eq (fun x => by rw [(hg x).1]), Option.map_map]
  exact congrArg (fun f => Option.map f _) (funext fun x => (hg x).2)

theorem Chip.sameNumbers_updTicket {c d : Chip} {j : Nat} {f : Ticket → Ticket} (hd : d.cast.tickets = (c.cast.updTicket j f).tickets)
    (hf : ∀ x, (f x).id = x.id ∧ (f x).nextSource = x.nextSource) : c.SameNumbers d := by
  refine Chip.sameNumbers_map hd fun x => ?_
  split
  next => exact hf x
  next => exact ⟨rfl, rfl⟩

theorem List.find?_replaceTicket_other {i j : Nat} {v : Ticket} (hij : i ≠ j) (hv : v.id = j) (l : List Ticket) :
    (l.map (fun t => if t.id = j then v else t)).find? (fun t => t.id == i) = l.find? (fun t => t.id == i) := by
  induction l with
  | nil => rfl
  | cons t l ih =>
    rw [List.map_cons, List.find?_cons, List.find?_cons, ih]
    by_cases ht : t.id = j
    · rw [if_pos ht, hv, ht, beq_eq_false_iff_ne.mpr (Ne.symm hij)]
    · rw [if_neg ht]

/-- A live ticket replaced by another state of it. -/
theorem Chip.sameNumbers_replace {c d : Chip} {j : Nat} {k v : Ticket} (hk : c.ticket? j = some k) (hd : d.cast.tickets = (c.cast.updTicket j (fun _ => v)).tickets)
    (hv : v.id = k.id ∧ v.nextSource = k.nextSource) : c.SameNumbers d := by
  have hid := Chip.id_of_ticket? hk
  intro i
  unfold Chip.numberOf
  by_cases hi : i = j
  · rw [hi, hk]
    unfold Chip.ticket?
    rw [hd]
    subst hid
    unfold Chip.ticket? at hk
    rw [show (c.cast.updTicket k.id fun _ => v).tickets = c.cast.tickets.map (fun t => if t.id = k.id then v else t) from rfl, List.find?_replaceTicket hv.1 hk]
    exact congrArg some hv.2
  · unfold Chip.ticket?
    rw [hd]
    exact congrArg _ (List.find?_replaceTicket_other hi (hv.1.trans hid) c.cast.tickets)

/-! ### A stream brought up to date keeps them -/

theorem Chip.sameNumbers_pumpAll (c : Chip) (m : Mem) : c.SameNumbers (c.pumpAll m) :=
  Chip.sameNumbers_of_cast (congrArg (fun x => x.1.1) (Chip.pumpAll_pump c m rfl))

theorem Chip.sameNumbers_fillPanel (c : Chip) (p : Nat) : c.SameNumbers (c.fillPanel p) :=
  Chip.sameNumbers_of_cast (congrArg (fun x => x.1.1) (Chip.fillPanel_pump c p rfl))

theorem Chip.sameNumbers_signalMap (c : Chip) (t : Ticket) (i n ctx : Nat) : c.SameNumbers (c.signalMap t i n ctx) := by
  obtain ⟨m, w, q, p, x, e, l, r, h⟩ := c.signalMap_frame t i n ctx
  exact Chip.sameNumbers_of_cast (by rw [h])

theorem Ticket.nextSource_withoutAll (t : Ticket) (hs : List Nat) : (t.withoutAll hs).nextSource = t.nextSource :=
  List.foldlRecOn (motive := fun u : Ticket => u.nextSource = t.nextSource) hs Ticket.without rfl fun _ hu _ _ => hu

theorem Chip.sameNumbers_freeHanks (c : Chip) (t : Ticket) (hs : List Nat) : c.SameNumbers (c.freeHanks t hs) := by
  obtain ⟨k, h⟩ := c.freeHanks_frame t hs
  exact Chip.sameNumbers_map (by rw [h]) fun x => ⟨(x.withoutAll_keeps hs).1, x.nextSource_withoutAll hs⟩

theorem Chip.sameNumbers_voidFrame {c : Chip} {j : Nat} {t : Ticket} (hk : c.ticket? j = some t) (f : FrameRt) (stage reason : Nat) (shed : Bool) :
    c.SameNumbers (c.voidFrame t f stage reason shed) := by
  obtain ⟨os, e, fs, vs, hv, -⟩ := t.voidFrame_frame f stage reason shed
  have hid := Chip.id_of_ticket? hk
  subst hid
  exact Chip.sameNumbers_replace (v := t.voidFrame f stage reason shed) hk rfl (by rw [hv]; exact ⟨rfl, rfl⟩)

/-- A fold whose steps keep the numbers keeps them. -/
theorem Chip.sameNumbers_foldl {α : Type} {g : Chip → α → Chip} (h : ∀ (d : Chip) a, d.SameNumbers (g d a)) (l : List α) (c : Chip) : c.SameNumbers (l.foldl g c) :=
  List.foldlRecOn (motive := fun d => c.SameNumbers d) l g (.refl c) fun d hd a _ => hd.trans (h d a)

theorem Chip.sameNumbers_shedFrame {c : Chip} {j : Nat} {t : Ticket} (hk : c.ticket? j = some t) (f : FrameRt) : c.SameNumbers (c.shedFrame t f) :=
  (Chip.sameNumbers_voidFrame hk f _ 0 true).trans (Chip.sameNumbers_updTicket rfl fun _ => ⟨rfl, rfl⟩)

theorem Chip.sameNumbers_shedding (c : Chip) (i : Nat) : c.SameNumbers (c.shedding i) := by
  unfold Chip.shedding
  split
  next => exact .refl c
  next =>
    split
    next =>
      refine Chip.sameNumbers_foldl (fun d f => ?_) _ c
      split
      next u hu => exact Chip.sameNumbers_shedFrame hu f
      next => exact .refl d
    next => exact .refl c

theorem Ticket.keeps_beginFrame (t : Ticket) (f : FrameRt) (fall : Bool) : (t.beginFrame f fall).id = t.id ∧ (t.beginFrame f fall).nextSource = t.nextSource :=
  ⟨rfl, rfl⟩

theorem sameNumbers_passThrough (t : Ticket) (p : Placed) (f : FrameRt) (n : Nat) (c : Chip × Mem) : c.1.SameNumbers (passThrough t p f n c).1 := by
  have hpass : c.1.SameNumbers { c.1 with cast := c.1.cast.updTicket t.id (fun x => { x.beginFrame f true with
      voided := (x.voided ++ (p.stage, f.order) :: (t.kindStage .frameGen).elim [] (fun q => [(q.stage, f.order)])).eraseDups }) } :=
    Chip.sameNumbers_updTicket rfl fun _ => ⟨rfl, rfl⟩
  unfold passThrough
  dsimp only
  split
  next =>
    refine hpass.trans (Chip.SameNumbers.trans ?_ (Chip.sameNumbers_signalMap _ t p.stage n _))
    obtain ⟨b, l, hw⟩ := Chip.wrote_eq { c.1 with cast := c.1.cast.updTicket t.id (fun x => { x.beginFrame f true with
      voided := (x.voided ++ (p.stage, f.order) :: (t.kindStage .frameGen).elim [] (fun q => [(q.stage, f.order)])).eraseDups }) }
      (f.upHanks.map (fun h => (hankAddr h, 0x4000)))
    rw [hw]
    exact Chip.sameNumbers_of_cast rfl
  next => exact hpass

theorem Chip.sameNumbers_passOne {c d : Chip} {t : Ticket} (h : c.passOne t = some d) : c.SameNumbers d := by
  unfold Chip.passOne at h
  obtain ⟨p, -, hp⟩ := List.exists_of_findSome?_eq_some h
  split at hp
  next f n _ =>
    split at hp
    next =>
      cases hp
      exact c.sameNumbers_signalMap t p.stage n _
    next => exact absurd hp.symm (Option.some_ne_none d)
  next => exact absurd hp.symm (Option.some_ne_none d)

theorem sameNumbers_settle (i k : Nat) (c : Chip × Mem) : c.1.SameNumbers (settle i k c).1 := by
  induction k generalizing c with
  | zero => exact .refl c.1
  | succ k ih =>
    unfold settle
    split
    next => exact .refl c.1
    next t _ =>
      split
      next d hd => exact (Chip.sameNumbers_passOne hd).trans (ih (d, c.2))
      next =>
        split
        next => exact .refl c.1
        next p f n _ => exact (sameNumbers_passThrough t p f n c).trans (ih _)

theorem Chip.sameNumbers_shareMade (c : Chip) (i : Nat) : c.SameNumbers (c.shareMade i) := by
  unfold Chip.shareMade
  split
  next => exact .refl c
  next => exact Chip.sameNumbers_of_cast rfl

/-- Frames handed on without a decode stage. -/
theorem Chip.sameNumbers_handOn (c : Chip) (t : Ticket) : c.SameNumbers (c.handOn t) := by
  refine Chip.sameNumbers_foldl (fun d f => ?_) _ c
  refine Chip.SameNumbers.trans (Chip.sameNumbers_updTicket rfl fun x => ?_) (Chip.sameNumbers_signalMap _ _ _ _ _)
  split
  next => exact ⟨rfl, rfl⟩
  next => exact ⟨rfl, rfl⟩

theorem Chip.sameNumbers_decodeNext (c : Chip) (i : Nat) : c.SameNumbers (c.decodeNext i) := by
  unfold Chip.decodeNext
  split
  next => exact .refl c
  next t _ =>
    split
    next => exact c.sameNumbers_handOn t
    next p _ =>
      split
      next => exact .refl c
      next =>
        split
        next => exact .refl c
        next =>
          refine Chip.SameNumbers.trans ?_ (Chip.sameNumbers_fillPanel _ _)
          exact Chip.sameNumbers_updTicket rfl fun _ => ⟨rfl, rfl⟩

theorem Chip.sameNumbers_startLane (c : Chip) (core : Nat) (j : Job) : c.SameNumbers (c.startLane core j) := by
  have hbegin : c.SameNumbers { c with cast := c.beginOut j } := by
    unfold Chip.beginOut
    split
    next => exact .refl c
    next =>
      split
      next => exact .refl c
      next => exact Chip.sameNumbers_updTicket rfl fun _ => ⟨rfl, rfl⟩
  exact hbegin.trans (Chip.sameNumbers_of_cast rfl)

theorem Chip.sameNumbers_placeLanes (c : Chip) (p : Nat) (js : List Job) : c.SameNumbers (c.placeLanes p js) := by
  unfold Chip.placeLanes
  exact Chip.SameNumbers.trans (d := { c with venc := { c.venc with waiting := c.venc.waiting ++ js } }) (Chip.sameNumbers_of_cast rfl)
    (Chip.sameNumbers_foldl (fun d (e : Job × Nat) => d.sameNumbers_startLane e.2 e.1) _ _)

theorem Chip.sameNumbers_encodeOut (c : Chip) (t : Ticket) (sd : StreamDef) (p : Placed) (o : Out) : c.SameNumbers (c.encodeOut t sd p o) := by
  refine Chip.SameNumbers.trans ?_ (Chip.sameNumbers_placeLanes _ _ _)
  exact Chip.sameNumbers_updTicket rfl fun _ => ⟨rfl, rfl⟩

/-- A ticket whose next output is coded, once its outputs are grouped. -/
theorem Chip.sameNumbers_encodeAs {c : Chip} {i : Nat} {t u : Ticket} (ht : c.ticket? i = some t) (hu : u.id = t.id ∧ u.nextSource = t.nextSource)
    (sd : StreamDef) (p : Placed) : c.SameNumbers (match u.nextOut sd with
      | none => { c with cast := c.cast.updTicket i (fun _ => u) }
      | some o => if ({ c with cast := c.cast.updTicket i (fun _ => u) } : Chip).outReady u o && ({ c with cast := c.cast.updTicket i (fun _ => u) } : Chip).bufferReady u sd o
        then ({ c with cast := c.cast.updTicket i (fun _ => u) } : Chip).encodeOut u sd p o else { c with cast := c.cast.updTicket i (fun _ => u) }) := by
  have hgroup : c.SameNumbers { c with cast := c.cast.updTicket i (fun _ => u) } := Chip.sameNumbers_replace ht rfl hu
  split
  next => exact hgroup
  next o _ =>
    split
    next => exact hgroup.trans (Chip.sameNumbers_encodeOut _ u sd p o)
    next => exact hgroup

theorem Chip.sameNumbers_encodeNext (c : Chip) (i : Nat) : c.SameNumbers (c.encodeNext i) := by
  unfold Chip.encodeNext
  split
  next => exact .refl c
  next t ht =>
    split
    next sd p _ _ =>
      split
      next => exact .refl c
      next =>
        refine Chip.sameNumbers_encodeAs ht ?_ sd p
        split
        next => exact ⟨rfl, rfl⟩
        next => exact ⟨rfl, rfl⟩
    next => exact .refl c

/-! What can commit -/

theorem sameNumbers_sendUnit {t : Ticket} {dest arg : Nat} {video recs : List Byte} {out : Sent} {c d : Chip × Mem}
    (h : sendUnit t dest arg video recs out c = some d) : c.1.SameNumbers d.1 := by
  unfold sendUnit at h
  split at h
  next =>
    obtain ⟨k, b, l, m, hrun⟩ := commitRound_frame t dest arg video recs out c
    rw [← Option.some.inj h, hrun]
    exact Chip.sameNumbers_of_cast rfl
  next => exact absurd h.symm (Option.some_ne_none d)

theorem sameNumbers_commitUnit {t : Ticket} {kind : Nat} {payload : List Byte} {bytes source pts : Nat} {due : Option Nat} {c d : Chip × Mem}
    (h : commitUnit t kind payload bytes source pts due c = some d) : c.1.SameNumbers d.1 := by
  unfold commitUnit at h
  split at h
  next =>
    obtain ⟨k, b, l, q, p, x, e, m, hrun⟩ := commitHost_frame t kind payload bytes source pts due c
    rw [← Option.some.inj h, hrun]
    exact Chip.sameNumbers_map (g := fun x => x) (List.map_id' _).symm fun _ => ⟨rfl, rfl⟩
  next => exact absurd h.symm (Option.some_ne_none d)

theorem Chip.sameNumbers_headDone (c : Chip) (t : Ticket) (n : Nat) (skip : Bool) : c.SameNumbers (c.headDone t n skip) :=
  Chip.sameNumbers_updTicket rfl fun _ => ⟨rfl, rfl⟩

theorem Chip.sameNumbers_recsDone (c : Chip) (t : Ticket) : c.SameNumbers (c.recsDone t) := by
  unfold Chip.recsDone
  split
  next => exact .refl c
  next => exact Chip.sameNumbers_updTicket rfl fun _ => ⟨rfl, rfl⟩

theorem sameNumbers_commitRecs {t : Ticket} {c d : Chip × Mem} (h : commitRecs t c = some d) : c.1.SameNumbers d.1 := by
  unfold commitRecs at h
  split at h
  next => exact absurd h.symm (Option.some_ne_none d)
  next =>
    split at h
    next =>
      obtain ⟨e, he, rfl⟩ := Option.map_eq_some_iff.mp h
      exact (sameNumbers_sendUnit he).trans (Chip.sameNumbers_updTicket rfl fun _ => ⟨rfl, rfl⟩)
    next =>
      obtain ⟨e, he, rfl⟩ := Option.map_eq_some_iff.mp h
      exact (sameNumbers_commitUnit he).trans (e.1.sameNumbers_recsDone t)

theorem sameNumbers_commitHead {t : Ticket} {c d : Chip × Mem} (h : commitHead t c = some d) : c.1.SameNumbers d.1 := by
  unfold commitHead at h
  dsimp only at h
  split at h
  next => exact absurd h.symm (Option.some_ne_none d)
  next =>
    split at h
    next =>
      split at h
      next =>
        obtain ⟨e, he, rfl⟩ := Option.map_eq_some_iff.mp h
        exact (sameNumbers_sendUnit he).trans (Chip.sameNumbers_updTicket rfl fun _ => ⟨rfl, rfl⟩)
      next =>
        obtain ⟨e, he, rfl⟩ := Option.map_eq_some_iff.mp h
        exact (sameNumbers_commitUnit he).trans (e.1.sameNumbers_headDone t _ _)
    next => exact absurd h.symm (Option.some_ne_none d)

theorem sameNumbers_flush (i k : Nat) (c : Chip × Mem) : c.1.SameNumbers (flush i k c).1 := by
  induction k generalizing c with
  | zero => exact .refl c.1
  | succ k ih =>
    unfold flush
    split
    next => exact .refl c.1
    next =>
      split
      next d hd => exact (sameNumbers_commitRecs hd).trans (ih d)
      next =>
        split
        next d hd => exact (sameNumbers_commitHead hd).trans (ih d)
        next =>
          split
          next => exact .refl c.1
          next => exact Chip.sameNumbers_updTicket rfl fun _ => ⟨rfl, rfl⟩

theorem Chip.sameNumbers_reap (c : Chip) (i : Nat) : c.SameNumbers (c.reap i) := by
  unfold Chip.reap
  split
  next => exact .refl c
  next t _ =>
    exact Chip.SameNumbers.trans (d := (c.clearParts t).freeHanks t (t.frames.flatMap (c.spent t)))
      (Chip.SameNumbers.trans (d := c.clearParts t) (Chip.sameNumbers_of_cast rfl) (Chip.sameNumbers_freeHanks _ _ _))
      (Chip.sameNumbers_updTicket rfl fun _ => ⟨rfl, rfl⟩)

theorem Chip.sameNumbers_noteOut (c : Chip) (i : Nat) : c.SameNumbers (c.noteOut i) := by
  unfold Chip.noteOut
  split
  next => exact .refl c
  next => exact Chip.sameNumbers_updTicket rfl fun _ => ⟨rfl, rfl⟩

/-- Bringing a stream up to date submits nothing. -/
theorem sameNumbers_progress (i : Nat) (c : Chip × Mem) : c.1.SameNumbers (progress i c).1 := by
  unfold progress
  dsimp only
  generalize hs : settle i _ _ = s
  have hset : c.1.SameNumbers s.1 := by
    rw [← hs]
    exact (c.1.sameNumbers_shedding i).trans (sameNumbers_settle i _ _)
  generalize hd : flush i _ _ = d
  have hflush : s.1.SameNumbers d.1 := by
    rw [← hd]
    exact (((s.1.sameNumbers_shareMade i).trans (Chip.sameNumbers_decodeNext _ i)).trans (Chip.sameNumbers_encodeNext _ i)).trans (sameNumbers_flush i _ _)
  exact hset.trans (hflush.trans (((d.1.sameNumbers_reap i).trans (Chip.sameNumbers_noteOut _ i)).trans (Chip.sameNumbers_pumpAll _ _)))

end Sys2Proof.Machine
end

section
/-!
A DATA frame of a garment's part beside another ticket of the same number (family 15): a state in which the arrival is counted for both.
-/
namespace Sys2Proof.Machine

/-- A pipeline without stages. -/
def bareStream : StreamDef :=
  { index := 1, codecs := [1], live := true, stages := [], mfGrid := 0, nbuf := 0, mfBufs := [], reBufs := [], av1 := false, split := { kind := .whole, units := [] }
    gop := .lowDelay, keyInterval := 30, ltrInterval := 0, nref := 2, rc := .cqp 30 32 [], roiOffsets := [], roiMaxAge := 1, outW := 64, outH := 64, fgK := 0
    cutShare := 1, anEvery := 1, anW := 64, anH := 64, detMin := 0, newMin := 0, nmsIou := 0, matchMin := 0, iouWeight := 0, detMax := 1, trackMax := 1
    confirmHits := 1, maxMisses := 1, roiMap := [], adapt := false, rank := 4, trainFmt := 0, accum := 1, publishSteps := 1, cacheHanks := 4, members := []
    sendTo := none, sendArg := 0 }
/-- A pattern with that pipeline alone. -/
def barePattern : Pattern :=
  { policy := ⟨1800, 600, 25000, 3000, 0, 1, 64, 16, 16, 0, 5, 4⟩, panels := [], regions := [], charts := [], segments := [], costs := [], streams := [bareStream]
    round := ⟨none, 0, 0, 0, 1, 1⟩, events := ⟨[], [], 0, []⟩ }
/-- The part of garment 9 with ticket number 5, fed over the Round. -/
def fedPart : Ticket :=
  { id := 5, fn := 0, guaranteed := true, outVideo := false, outCramar := false, srcRound := true, pipeline := 1, codec := 1, level := 40, profile := 0x0102, queue := 0
    maxW := 64, maxH := 64, rateNum := 30, rateDen := 1, kbps := 8000, deadlineUs := 40000, quota := 8, priority := 0, garment := some 9, lead := 0, members := []
    placed := [], contexts := [], markers := [], roundPath := [], power := 10 }
/-- Another live ticket of that number, of no garment, that has had seven submissions. -/
def sameNumber : Ticket := { fedPart with garment := none, nextSource := 7 }
/-- A state with both, the port EAST up. -/
def twoOfOneNumber : State :=
  { chip := { rnd := { east := { state := .up }, slipped := false, ready := true }, cast := { closed := false, tickets := [sameNumber, fedPart] }
              pat := { mode := .applied, pattern := some barePattern }, hank := { ready := true } }
    mem := [], pending := [] }
/-- The only frame of an empty access unit for the part, with a header check that holds. -/
def emptyUnit : RFrame :=
  let f := newFrame 2 1 .guaranteed 0 5 7 0 0 9 true false []
  { f with hcrc := crc16 f.header }

/-- The submissions that ticket number 5 has had, after a command. -/
def outcomeCount : Host.Outcome State Fault Refusal → Option Nat
  | .next s => s.chip.numberOf 5
  | _ => none

theorem count_of_emptyUnit : outcomeCount (exec (.data .east emptyUnit) twoOfOneNumber) = some 8 := by decide +kernel

theorem outcomeCount_upToDate (i : Nat) (u : State) : outcomeCount (.next (Safety.upToDate i u)) = u.chip.numberOf 5 := by
  have hkept : u.chip.SameNumbers (progress i (u.chip, u.mem)).1 := sameNumbers_progress i (u.chip, u.mem)
  unfold outcomeCount Safety.upToDate
  dsimp only
  exact hkept 5

/-- Refutes O56: a garment's part is found by its garment, so that the arrival counts for it, and the statement then looks the count up by the
ticket's number, under which another ticket stands. -/
theorem not_roundTrafficActs : ¬ Obligations.RoundTrafficActs := by
  unfold Obligations.RoundTrafficActs
  intro h
  obtain ⟨hdata, -⟩ := h
  have hcase := hdata twoOfOneNumber .east emptyUnit fedPart rfl (by decide +kernel) rfl (by decide) (by decide +kernel) (by decide +kernel)
    (by decide +kernel) rfl
  obtain ⟨-, -, hlast⟩ := hcase (by decide)
  obtain ⟨u, hrun, -, -, -, harrived⟩ := hlast (by decide +kernel) (by decide +kernel) rfl
  obtain ⟨-, hcount⟩ := harrived (by decide) (by decide)
  have hend := count_of_emptyUnit
  rw [hrun, outcomeCount_upToDate] at hend
  exact absurd (hend.symm.trans hcount) (by decide)

end Sys2Proof.Machine
end

section
/-!
Waits that expire, skip records and dropped samples (R18, R168, R175, R218), family 14.
-/
namespace Sys2Proof.Machine

/-! ### What a wait that expires leaves of a frame -/

theorem List.nodup_eraseDups {α : Type} [BEq α] [LawfulBEq α] (l : List α) : l.eraseDups.Nodup := by
  induction hn : l.length using Nat.strongRecOn generalizing l with
  | _ n ih =>
    cases l with
    | nil => exact List.nodup_nil
    | cons a l =>
      have hlen : (l.filter (fun b => !b == a)).length < n := by
        have hle := List.length_filter_le (fun b => !b == a) l
        rw [List.length_cons] at hn
        omega
      rw [List.eraseDups_cons]
      refine List.nodup_cons.mpr ⟨fun h => ?_, ih _ hlen _ rfl⟩
      simpa using (List.mem_filter.mp (List.mem_eraseDups.mp h)).2

/-- The stage whose wait expired has not lost its own work. -/
theorem Ticket.contains_erase_lost (t : Ticket) (stage : Nat) (x : FrameRt) : ((t.lostFrame stage x).lost.erase stage).contains stage = false := by
  rw [List.contains_eq_mem]
  exact decide_eq_false (List.nodup_eraseDups _).not_mem_erase

/-- A live ticket replaced by another state of it. -/
theorem Chip.ticket?_replace {c d : Chip} {i : Nat} {k v : Ticket} (hk : c.ticket? i = some k) (hd : d.cast.tickets = (c.cast.updTicket i fun _ => v).tickets)
    (hv : v.id = k.id) : d.ticket? i = some v := by
  have hid := Chip.id_of_ticket? hk
  subst hid
  unfold Chip.ticket? at hk ⊢
  rw [hd]
  exact List.find?_replaceTicket hv hk

theorem Ticket.id_voidFrame (t : Ticket) (f : FrameRt) (stage reason : Nat) (shed : Bool) : (t.voidFrame f stage reason shed).id = t.id := by
  obtain ⟨os, e, fs, vs, h, -⟩ := t.voidFrame_frame f stage reason shed
  rw [h]

theorem Chip.ticket?_voidFrame {c : Chip} {i : Nat} {t : Ticket} (hk : c.ticket? i = some t) (f : FrameRt) (stage reason : Nat) (shed : Bool) :
    (c.voidFrame t f stage reason shed).ticket? i = some (t.voidFrame f stage reason shed) := by
  have hid := Chip.id_of_ticket? hk
  subst hid
  exact Chip.ticket?_replace hk rfl (t.id_voidFrame f stage reason shed)

/-! ### FIELD_RELEASE_TIMEOUT (R175) -/

/-- A frame whose core no longer waits for its field buffers. -/
def FrameRt.withoutFields (y : FrameRt) (stage : Nat) : FrameRt := { y with fieldLost := true, lost := y.lost.erase stage }

/-- The chip once a wait for a field buffer has expired. -/
def Chip.fieldsGone (c : Chip) (ticket source : Nat) (t : Ticket) (p : Placed) (f : FrameRt) (since : Nat) : Chip :=
  let d := (c.advance (since + nsTicks (8 * p.eNs) + usTicks 100)).voidFrame t f p.stage 0x40 false
  { d with cast := d.cast.updTicket ticket (fun x => x.updFrame source (fun y => y.withoutFields p.stage)) }

theorem Chip.fieldTimeout_eq {c : Chip} {ticket source : Nat} {t : Ticket} {sd : StreamDef} {p : Placed} {f : FrameRt} (ht : c.ticket? ticket = some t)
    (hsd : c.stream? t.pipeline = some sd) (hp : t.kindStage .decode = some p) (hf : t.frame? source = some f) : c.fieldTimeout ticket source =
    match f.fieldWait with
    | none => c
    | some since => if f.decoding && c.fieldWaits t sd f then c.fieldsGone ticket source t p f since else c := by
  unfold Chip.fieldTimeout
  rw [ht]
  dsimp only
  rw [hsd, hp, hf]
  rfl

theorem Chip.fieldTimeout_idle {c : Chip} {ticket source : Nat} {t : Ticket} {sd : StreamDef} {p : Placed} {f : FrameRt} (ht : c.ticket? ticket = some t)
    (hsd : c.stream? t.pipeline = some sd) (hp : t.kindStage .decode = some p) (hf : t.frame? source = some f)
    (h : f.decoding = false ∨ f.fieldWait = none ∨ c.fieldWaits t sd f = false) : c.fieldTimeout ticket source = c := by
  refine (Chip.fieldTimeout_eq ht hsd hp hf).trans ?_
  cases hw : f.fieldWait with
  | none => rfl
  | some since =>
    refine if_neg fun hboth => ?_
    rw [Bool.and_eq_true] at hboth
    rw [hw] at h
    rcases h with h | h | h
    · exact Bool.false_ne_true (h.symm.trans hboth.1)
    · exact absurd h (Option.some_ne_none _)
    · exact Bool.false_ne_true (h.symm.trans hboth.2)

/-- The consumers of a frame whose fields are lost are skipped, its picture is still to be decoded. -/
theorem Chip.fieldsGone_spec {c : Chip} {ticket source : Nat} {t : Ticket} {f : FrameRt} (ht : c.ticket? ticket = some t) (hf : t.frame? source = some f) (p : Placed)
    (since : Nat) : (∃ k v q, c.fieldsGone ticket source t p f since = { c with
        gauge := c.gauge.advance (since + nsTicks (8 * p.eNs) + usTicks 100), cast := k, venc := v, rst := { c.rst with voided := c.rst.voided.inc }, queues := q }) ∧
    ∃ v, (c.fieldsGone ticket source t p f since).ticket? ticket = some v ∧ v.frame? source = some ((t.lostFrame p.stage f).withoutFields p.stage) ∧
      ∀ o ∈ v.outs, o.order = f.order → v.needs o p.stage = true → v.onWire o = false → ∃ why shed, o.state = .skipped why shed := by
  refine ⟨⟨_, _, _, rfl⟩, _, (Chip.ticket?_upd (f := fun x => x.updFrame source (fun y => y.withoutFields p.stage)) rfl fun _ => rfl).trans
    (congrArg _ (Chip.ticket?_voidFrame (c := c.advance _) ht f p.stage 0x40 false)), ?_, ?_⟩
  · exact (Ticket.frame?_updFrame (f := fun y => y.withoutFields p.stage) _ source fun _ => rfl).trans (congrArg _ (Ticket.frame?_voidFrame 0x40 false hf))
  · exact Ticket.outs_voidFrame rfl

/-! ### WAIT_TIMEOUT (R18) -/

/-- A ticket whose wait for a stage's work on a frame has expired. -/
def Ticket.waitGone (x t : Ticket) (source stage order : Nat) : Ticket :=
  { x.updFrame source (fun (y : FrameRt) => { y with lost := y.lost.erase stage }) with
    voided := if t.voided.contains (stage, order) then x.voided else x.voided.erase (stage, order) }

theorem Ticket.waitGone_frame (x t : Ticket) (source stage order : Nat) : ∃ fs vs, x.waitGone t source stage order = { x with frames := fs, voided := vs } :=
  ⟨_, _, rfl⟩

/-- The chip once a wait for a stage's work has expired, reported with the engine it waits for. -/
def Chip.waitGone (c : Chip) (ticket source stage : Nat) (t : Ticket) (p : Placed) (f : FrameRt) (due : Nat) : Chip :=
  let e := (c.advance due).voidFrame t f stage 0x40 false
  Chip.note { e with cast := e.cast.updTicket ticket (fun x => x.waitGone t source stage f.order) } .waitTimeout 384 (p.contexts.head?) ticket 0
    ((((c.advance due).stageEngine t p source).map (fun x => x.1)).getD 0xFF)

theorem waitTimeout_eq {c : Chip × Mem} {ticket source stage : Nat} {t : Ticket} {p : Placed} {f : FrameRt} (ht : c.1.ticket? ticket = some t)
    (hp : t.placed.find? (fun p => p.stage == stage) = some p) (hf : t.frame? source = some f) : waitTimeout ticket source stage c =
    match c.1.waitDue t p f with
    | none => c
    | some due =>
      if c.1.stageDone t p f || f.lost.contains stage then c
      else progress ticket (match (c.1.advance due).stageEngine t p source with
        | some (k, true) => engineTrip k (p.contexts.headD 0) (c.1.waitGone ticket source stage t p f due, c.2)
        | _ => (c.1.waitGone ticket source stage t p f due, c.2)) := by
  unfold waitTimeout
  rw [ht]
  dsimp only
  rw [hp, hf]
  rfl

theorem waitTimeout_idle {c : Chip × Mem} {ticket source stage : Nat} {t : Ticket} {p : Placed} {f : FrameRt} (ht : c.1.ticket? ticket = some t)
    (hp : t.placed.find? (fun p => p.stage == stage) = some p) (hf : t.frame? source = some f)
    (h : c.1.waitDue t p f = none ∨ c.1.stageDone t p f = true ∨ f.lost.contains stage = true) : waitTimeout ticket source stage c = c := by
  refine (waitTimeout_eq ht hp hf).trans ?_
  cases hdue : c.1.waitDue t p f with
  | none => rfl
  | some due =>
    refine if_pos ?_
    rw [hdue] at h
    rcases h with h | h | h
    · exact absurd h (Option.some_ne_none _)
    · rw [h, Bool.true_or]
    · rw [h, Bool.or_true]

/-- What an expired wait changes, and what it leaves of the frame and the outputs. -/
theorem Chip.waitGone_spec {c : Chip} {ticket source : Nat} {t : Ticket} {f : FrameRt} (ht : c.ticket? ticket = some t) (hf : t.frame? source = some f) (stage : Nat)
    (p : Placed) (due : Nat) : (∃ k v q l e, c.waitGone ticket source stage t p f due = { c with
        gauge := c.gauge.advance due, cast := k, venc := v, rst := { c.rst with voided := c.rst.voided.inc }, queues := q, log := l, evc := e }) ∧
    ∃ v y, (c.waitGone ticket source stage t p f due).ticket? ticket = some v ∧ v.frame? source = some y ∧ y.lost.contains stage = false ∧
      ∀ o ∈ v.outs, o.order = f.order → v.needs o stage = true → v.onWire o = false → ∃ why shed, o.state = .skipped why shed := by
  refine ⟨⟨_, _, _, _, _, rfl⟩, _, { t.lostFrame stage f with lost := (t.lostFrame stage f).lost.erase stage },
    (Chip.ticket?_upd (f := fun x => x.waitGone t source stage f.order) rfl fun _ => rfl).trans
    (congrArg _ (Chip.ticket?_voidFrame (c := c.advance due) ht f stage 0x40 false)), ?_, ?_, ?_⟩
  · exact (Ticket.frame?_updFrame (f := fun y : FrameRt => { y with lost := y.lost.erase stage }) _ source fun _ => rfl).trans
      (congrArg _ (Ticket.frame?_voidFrame 0x40 false hf))
  · exact t.contains_erase_lost stage f
  · obtain ⟨fs, vs, h⟩ := (t.voidFrame f stage 0x40 false).waitGone_frame t source stage f.order
    exact Ticket.outs_voidFrame h

/-! ### SAMPLE_DROPPED (R218) -/

theorem Ticket.dropSample_keeps (t : Ticket) (now : Nat) (s : Sample) (why : DropReason) : (t.dropSample now s why).id = t.id ∧
    (t.dropSample now s why).adapt.samples = t.adapt.samples.erase s ∧ (t.dropSample now s why).adapt.cache = t.adapt.cache := ⟨rfl, rfl, rfl⟩

/-- A dropped sample leaves its ticket, the decode of it is abandoned. -/
theorem Chip.sampleDropped_spec {c : Chip} {ticket sample : Nat} {k : Ticket} {x : Sample} (hk : c.ticket? ticket = some k)
    (hx : k.adapt.samples.find? (fun q => q.id == sample && q.open) = some x) :
    (∃ a q v, c.sampleDropped ticket sample = { c with
      gauge := c.gauge.advance (x.accepted + dropLimit c.gauge.floor x.cost), cast := a, queues := q, vdec := v }) ∧
    (∀ v, (c.sampleDropped ticket sample).ticket? ticket = some v → v.adapt.samples = k.adapt.samples.erase x ∧ v.adapt.cache = k.adapt.cache) ∧
    (∀ j ∈ (c.sampleDropped ticket sample).vdec.ready, ¬ (j.ticket = ticket ∧ j.sub = 1 ∧ j.source = sample)) ∧
    ∀ n j, ((c.sampleDropped ticket sample).vdec.core n).job = some j → j.ticket = ticket → j.sub = 1 → j.source = sample → j.abandon = true := by
  unfold Chip.sampleDropped
  rw [hk]
  dsimp only
  rw [hx]
  dsimp only
  refine ⟨⟨_, _, _, rfl⟩, fun v hv => ?_, fun j hj hmine => ?_, fun n j hj hticket hsub hsource => ?_⟩
  · have hid := Chip.id_of_ticket? hk
    have hdrop := Ticket.dropSample_keeps k (c.advance (x.accepted + dropLimit c.gauge.floor x.cost)).now x .tooSlow
    subst hid
    obtain rfl := Option.some.inj ((Chip.ticket?_replace hk rfl hdrop.1).symm.trans hv)
    exact hdrop.2
  · obtain ⟨hticket, hsub, hsource⟩ := hmine
    have hnot := (List.mem_filter.mp hj).2
    rw [hticket, hsub, hsource] at hnot
    simp at hnot
  · unfold Vdec.core at hj
    rw [Tbl.get_mapV rfl] at hj
    dsimp only at hj
    obtain ⟨q, -, rfl⟩ := Option.map_eq_some_iff.mp hj
    split
    next => rfl
    next hmine =>
      rw [if_neg hmine] at hticket hsub hsource
      exact absurd (by rw [hticket, hsub, hsource]; simp) hmine

end Sys2Proof.Machine
end

section
/-!
Skip records (R168, R281, R282), family 14.
-/
namespace Sys2Proof.Machine

/-! ### SKIP_RECORD_COMMIT (R168) -/

/-- The skip record committed to the host leaves its ticket's line and is counted. -/
theorem Chip.skipDone_spec {c : Chip} {i : Nat} {k : Ticket} {x : Skip} {l : List Skip} (hk : c.ticket? i = some k) (hskips : k.skips = x :: l) :
    (∃ h a, c.skipDone k = { c with hank := h, cast := a }) ∧ ((c.skipDone k).ticket? i).map (fun v => v.skips.length) = some l.length ∧
    (c.skipDone k).cast.skipped = c.cast.skipped.inc ∧ (c.skipDone k).cast.committed = c.cast.committed := by
  have hid := Chip.id_of_ticket? hk
  have hdone : c.skipDone k = Chip.freeHanks { c with
      cast := { c.cast.updTicket k.id (fun x => { x with skips := x.skips.drop 1 }) with skipped := c.cast.skipped.inc } } k x.hanks := by
    unfold Chip.skipDone
    rw [hskips]
  have hnow : Chip.ticket? { c with
      cast := { c.cast.updTicket k.id (fun x => { x with skips := x.skips.drop 1 }) with skipped := c.cast.skipped.inc } } i = some { k with skips := l } := by
    subst hid
    refine (Chip.ticket?_upd (c := c) (f := fun x => { x with skips := x.skips.drop 1 }) rfl fun _ => rfl).trans ?_
    rw [hk]
    exact congrArg (fun q => some { k with skips := List.drop 1 q }) hskips
  obtain ⟨h, hfree⟩ := Chip.freeHanks_frame { c with
    cast := { c.cast.updTicket k.id (fun x => { x with skips := x.skips.drop 1 }) with skipped := c.cast.skipped.inc } } k x.hanks
  have hticket := (Chip.ticket?_freeHanks _ k x.hanks i).trans (congrArg _ hnow)
  rw [hdone]
  refine ⟨⟨_, _, hfree⟩, ?_, ?_, ?_⟩
  · rw [hticket]
    exact congrArg some (Ticket.withoutAll_keeps _ _).2.1
  · rw [hfree]
  · rw [hfree]
    rfl

theorem CqRec.length_bytes32 (r : CqRec) (sqHead : Nat) (phase : Bool) : (r.bytes32 sqHead phase).length = 32 := by
  unfold CqRec.bytes32
  simp only [List.length_append, length_leBytes]

/-- A record of a unit that commits is one write at the tail of the queue, whether it was reserved or not. -/
theorem Chip.hostTx_cqCommit {c : Chip} {t : Ticket} (r : CqRec) (hb : (c.pcie.fn t.fn).bme = true) (hq : t.srcRound = true ∨ queueFn t.queue = t.fn) :
    ∃ w : HostWrite, (c.cqCommit t r).hostTx = c.hostTx ++ [w] ∧ w.addr = (c.queue t.queue).cqBase + 32 * (c.queue t.queue).cqTail ∧ w.bytes.length = 32 := by
  unfold Chip.cqCommit
  split
  next => exact ⟨_, rfl, rfl, r.length_bytes32 _ _⟩
  next hround =>
    have hfn := hq.resolve_left hround
    unfold Chip.cqWrite
    rw [if_pos (by rw [hfn]; exact hb)]
    have hqueue := c.queue_updQueue_same t.queue (fun q => { q with reserved := q.reserved - 1 })
    refine ⟨_, rfl, ?_, CqRec.length_bytes32 _ _ _⟩
    dsimp only
    rw [hqueue]

/-- Committing to the host is one write at the tail of the queue. -/
theorem hostTx_commitHost {t : Ticket} {c : Chip × Mem} (kind : Nat) (payload : List Byte) (bytes source pts : Nat) (due : Option Nat)
    (hb : (c.1.pcie.fn t.fn).bme = true) (hq : t.srcRound = true ∨ queueFn t.queue = t.fn) :
    ∃ w : HostWrite, (commitHost t kind payload bytes source pts due c).1.hostTx = c.1.hostTx ++ [w] ∧
      w.addr = (c.1.queue t.queue).cqBase + 32 * (c.1.queue t.queue).cqTail ∧ w.bytes.length = 32 := by
  unfold commitHost
  dsimp only
  obtain ⟨b, l, hw⟩ := Chip.wrote_eq { c.1 with
    hank := c.1.hank.alloc t.id (hostTag t.fn) (max 1 (ceilDiv payload.length 0x4000) + 1)
    cast := { c.1.cast with committed := c.1.cast.committed.inc, late := if c.1.lateNow due then c.1.cast.late.inc else c.1.cast.late } }
    ((c.1.hank.next (max 1 (ceilDiv payload.length 0x4000) + 1)).map (fun h => (hankAddr h, 0x4000)))
  rw [hw]
  exact Chip.hostTx_cqCommit _ hb hq

theorem commitSkip_none {t : Ticket} {c : Chip × Mem} (h : t.skips.drop t.sentSkips = []) : commitSkip t c = none := by
  unfold commitSkip
  rw [h]

/-- A skip record sent over the Round. -/
theorem commitSkip_round {t : Ticket} {c : Chip × Mem} {x : Skip} {l : List Skip} {dest arg : Nat} (h : t.skips.drop t.sentSkips = x :: l)
    (hto : c.1.sendsTo t = some (dest, arg)) : commitSkip t c =
    (sendUnit t dest arg [] (skipRec t x c.1.now (c.1.lateNow (t.dueAt x.arrival)))
      { ticket := t.id, kind := .skip, due := t.dueAt x.arrival, stamps := [(0, t.dueAt x.arrival)] } c).map (fun d =>
        ({ d.1 with cast := d.1.cast.updTicket t.id (fun x => { x with sentSkips := x.sentSkips + 1 }) }, d.2)) := by
  unfold commitSkip
  rw [h]
  dsimp only
  rw [hto]

/-- A skip record committed to the host. -/
theorem commitSkip_host {t : Ticket} {c : Chip × Mem} {x : Skip} {l : List Skip} (h : t.skips.drop t.sentSkips = x :: l) (hto : c.1.sendsTo t = none) :
    commitSkip t c = (commitUnit t 2 (skipRec t x c.1.now (c.1.lateNow (t.dueAt x.arrival)))
      (skipRec t x c.1.now (c.1.lateNow (t.dueAt x.arrival))).length x.source x.pts (t.dueAt x.arrival) c).map (fun d => (d.1.skipDone t, d.2)) := by
  unfold commitSkip
  rw [h]
  dsimp only
  rw [hto]

theorem exec_skipRecord_of_none {s : State} {ticket : Nat} {k : Ticket} (hk : s.chip.ticket? ticket = some k) (h : commitSkip k (s.chip, s.mem) = none) :
    exec (.skipRecordCommit ticket) s = .next s := by
  rw [exec_skipRecordCommit]
  unfold execSkipRecordCommit
  rw [hk]
  dsimp only
  rw [h]

theorem exec_skipRecord_of_some {s : State} {ticket : Nat} {k : Ticket} {d : Chip × Mem} (hk : s.chip.ticket? ticket = some k)
    (h : commitSkip k (s.chip, s.mem) = some d) : exec (.skipRecordCommit ticket) s = .next { s with chip := d.1, mem := d.2 } := by
  rw [exec_skipRecordCommit]
  unfold execSkipRecordCommit
  rw [hk]
  dsimp only
  rw [h]

/-- A skip record leaves over the Round as one transfer more. -/
theorem exec_skipRecord_round {s : State} {ticket : Nat} {k : Ticket} {x : Skip} {l : List Skip} {dest arg : Nat} (hk : s.chip.ticket? ticket = some k)
    (hskips : k.skips.drop k.sentSkips = x :: l) (hto : s.chip.sendsTo k = some (dest, arg)) :
    let b := skipRec k x s.chip.now (s.chip.lateNow (k.dueAt x.arrival))
    let may := s.chip.grantable k (max 1 (ceilDiv b.length 0x4000)) && decide (s.chip.rnd.openXfers < 4096)
    (may = false → exec (.skipRecordCommit ticket) s = .next s) ∧
    (may = true → ∃ t, exec (.skipRecordCommit ticket) s = .next t ∧
      t = { s with chip := { s.chip with hank := t.chip.hank, cast := t.chip.cast, rnd := t.chip.rnd, hbm := t.chip.hbm, pnl := t.chip.pnl }, mem := t.mem } ∧
      (t.chip.ticket? ticket).map (fun v => (v.skips.length, v.sentSkips)) = some (k.skips.length, k.sentSkips + 1) ∧
      t.chip.rnd.xout.length = s.chip.rnd.xout.length + 1 ∧ t.chip.cast.committed = s.chip.cast.committed) := by
  intro b may
  have hround := commitSkip_round (c := (s.chip, s.mem)) hskips hto
  refine ⟨fun hmay => exec_skipRecord_of_none hk (hround.trans ?_), fun hmay => ?_⟩
  · exact congrArg (Option.map _) (if_neg (ne_true_of_eq_false hmay))
  · have hsome := hround.trans (congrArg (Option.map _) (if_pos hmay))
    obtain ⟨h, e, p, m, hrun⟩ := commitRound_frame k dest arg [] b { ticket := k.id, kind := .skip, due := k.dueAt x.arrival, stamps := [(0, k.dueAt x.arrival)] }
      (s.chip, s.mem)
    rw [hrun] at hsome
    refine ⟨_, exec_skipRecord_of_some hk hsome, rfl, ?_, ?_, rfl⟩
    · have hid := Chip.id_of_ticket? hk
      subst hid
      refine (congrArg _ (Chip.ticket?_upd (c := s.chip) (f := fun x => { x with sentSkips := x.sentSkips + 1 }) rfl fun _ => rfl)).trans ?_
      rw [hk]
      rfl
    · exact List.length_append

/-- A skip record commits to the host as one record more. -/
theorem exec_skipRecord_host {s : State} {ticket : Nat} {k : Ticket} {x : Skip} {l : List Skip} (hk : s.chip.ticket? ticket = some k)
    (hskips : k.skips = x :: l) (hsent : k.sentSkips = 0) (hto : s.chip.sendsTo k = none) :
    let b := skipRec k x s.chip.now (s.chip.lateNow (k.dueAt x.arrival))
    let n := max 1 (ceilDiv b.length 0x4000)
    (s.chip.canCommit k (n + 1) = false → exec (.skipRecordCommit ticket) s = .next s) ∧
    (s.chip.canCommit k (n + 1) = true → ∃ t, exec (.skipRecordCommit ticket) s = .next t ∧
      t = { s with chip := { s.chip with hank := t.chip.hank, cast := t.chip.cast, queues := t.chip.queues, hostTx := t.chip.hostTx,
                                         pcie := t.chip.pcie, evc := t.chip.evc, hbm := t.chip.hbm, pnl := t.chip.pnl }, mem := t.mem } ∧
      (t.chip.ticket? ticket).map (fun v => v.skips.length) = some l.length ∧ t.chip.cast.skipped = s.chip.cast.skipped.inc ∧
      t.chip.cast.committed = s.chip.cast.committed.inc ∧
      (k.srcRound = true ∨ queueFn k.queue = k.fn → ∃ w : HostWrite, t.chip.hostTx = s.chip.hostTx ++ [w] ∧
        w.addr = (s.chip.queue k.queue).cqBase + 32 * (s.chip.queue k.queue).cqTail ∧ w.bytes.length = 32)) := by
  intro b n
  have hhost := commitSkip_host (c := (s.chip, s.mem)) (x := x) (l := l) (by rw [hsent, hskips]; rfl) hto
  refine ⟨fun hcan => exec_skipRecord_of_none hk (hhost.trans ?_), fun hcan => ?_⟩
  · exact congrArg (Option.map _) (if_neg (ne_true_of_eq_false hcan))
  · have hsome := hhost.trans (congrArg (Option.map _) (if_pos hcan))
    have hwrite := hostTx_commitHost (t := k) (c := (s.chip, s.mem)) 2 b b.length x.source x.pts (k.dueAt x.arrival)
      (Bool.and_eq_true_iff.mp (Bool.and_eq_true_iff.mp hcan).1).1
    obtain ⟨h, e, p, q, y, z, v, m, hrun⟩ := commitHost_frame k 2 b b.length x.source x.pts (k.dueAt x.arrival) (s.chip, s.mem)
    rw [hrun] at hsome hwrite
    generalize hd : ({ s.chip with
      hank := h, hbm := e, pnl := p, queues := q, pcie := y, hostTx := z, evc := v
      cast := { s.chip.cast with
        committed := s.chip.cast.committed.inc
        late := if s.chip.lateNow (k.dueAt x.arrival) then s.chip.cast.late.inc else s.chip.cast.late } } : Chip) = d at hsome hwrite
    obtain ⟨⟨g, a, hframe⟩, hticket, hskipped, hcommitted⟩ := Chip.skipDone_spec (c := d) (i := ticket) (by rw [← hd]; exact hk) hskips
    refine ⟨_, exec_skipRecord_of_some hk hsome, ?_, hticket, hskipped.trans ?_, hcommitted.trans ?_, fun hq => ?_⟩
    · dsimp only
      rw [hframe, ← hd]
    · rw [← hd]
    · rw [← hd]
    · dsimp only
      rw [hframe]
      exact hwrite hq

end Sys2Proof.Machine
end

section
/-!
The end of a decoded picture (R14, R151, R155, R158, R175, R346), family 14.
-/
namespace Sys2Proof.Machine

/-! ### A core freed of its lane (R155, R158) -/

/-- A free core's next picture changes the core alone; the counts stand. -/
theorem Chip.fillDec_kept (c : Chip) (core : Nat) : (∃ v, c.fillDec core = { c with vdec := v }) ∧ (c.fillDec core).vdec.samples = c.vdec.samples ∧
    (c.fillDec core).vdec.pics = c.vdec.pics ∧ (c.fillDec core).vdec.concealed = c.vdec.concealed ∧
    (∀ k, k ≠ core → (c.fillDec core).vdec.core k = c.vdec.core k) ∧
    (firstJob c.vdec.last (c.decChoices core) = none → c.fillDec core = c) := by
  unfold Chip.fillDec
  split
  next =>
    split
    next j hj =>
      refine ⟨⟨_, rfl⟩, rfl, rfl, rfl, (c.core_startDec core j).2, fun h => ?_⟩
      rw [hj] at h
      exact absurd h (Option.some_ne_none j)
    next => exact ⟨⟨c.vdec, rfl⟩, rfl, rfl, rfl, fun _ _ => rfl, fun _ => rfl⟩
  next => exact ⟨⟨c.vdec, rfl⟩, rfl, rfl, rfl, fun _ _ => rfl, fun _ => rfl⟩

/-- The chip once a lane has left its decode core. -/
def Chip.decLeft (c : Chip) (core : Nat) (j : Job) : Chip :=
  { c with vdec := { c.vdec with
    cores := Tbl.upd {} c.vdec.cores core (fun k => k.freed j)
    samples := if j.abandon then c.vdec.samples else c.vdec.samples.add j.samples } }

theorem Chip.core_decLeft (c : Chip) (core : Nat) (j : Job) : (c.decLeft core j).vdec.core core = (c.vdec.core core).freed j ∧
    ∀ k, k ≠ core → (c.decLeft core j).vdec.core k = c.vdec.core k :=
  ⟨Tbl.get_upd_same ({} : VCore) c.vdec.cores core (fun k => k.freed j), fun _ hk => Tbl.get_upd_other ({} : VCore) c.vdec.cores (fun k => k.freed j) hk⟩

theorem Chip.decChoices_decLeft (c : Chip) (core : Nat) (j : Job) : (c.decLeft core j).decChoices core = c.decChoices core := by
  unfold Chip.decChoices
  rw [(c.core_decLeft core j).1]
  rfl

theorem Chip.decodeFree_eq (c : Chip) (core : Nat) (j : Job) : c.decodeFree core j = (c.decLeft core j).fillDec core := rfl

/-- A core that a lane leaves counts it and takes its next picture; the picture's counts stand. -/
theorem Chip.decodeFree_spec (c : Chip) (core : Nat) (j : Job) : (∃ v, c.decodeFree core j = { c with vdec := v }) ∧
    (c.decodeFree core j).vdec.samples = (if j.abandon then c.vdec.samples else c.vdec.samples.add j.samples) ∧
    (c.decodeFree core j).vdec.pics = c.vdec.pics ∧ (c.decodeFree core j).vdec.concealed = c.vdec.concealed ∧
    (∀ k, k ≠ core → (c.decodeFree core j).vdec.core k = c.vdec.core k) ∧
    (firstJob c.vdec.last (c.decChoices core) = none → ((c.decodeFree core j).vdec.core core).job = none) := by
  obtain ⟨⟨v, hframe⟩, hsamples, hpics, hconcealed, hothers, hnone⟩ := (c.decLeft core j).fillDec_kept core
  obtain ⟨hcore, hrest⟩ := c.core_decLeft core j
  rw [Chip.decodeFree_eq]
  refine ⟨⟨v, hframe⟩, hsamples, hpics, hconcealed, fun k hk => (hothers k hk).trans (hrest k hk), fun h => ?_⟩
  rw [hnone (by rw [Chip.decChoices_decLeft]; exact h), hcore]
  rfl

/-- A picture's traffic changes the core's note of it and the panel's regulators. -/
theorem Chip.decTraffic_frame (c : Chip) (core : Nat) (j : Job) : (∃ l q, c.decTraffic core j = { c with vdec := { c.vdec with cores := l }, pnl := q }) ∧
    (j.charged = true → c.decTraffic core j = c) := by
  unfold Chip.decTraffic
  dsimp only
  cases j.charged with
  | true => exact ⟨⟨c.vdec.cores, c.pnl, rfl⟩, fun _ => rfl⟩
  | false => exact ⟨⟨_, _, rfl⟩, fun h => absurd h Bool.false_ne_true⟩

/-! ### DECODE_COMPLETE, case by case -/

theorem decodeComplete_of_over {core : Nat} {poisoned : Bool} {c : Chip × Mem} {j : Job} (hjob : (c.1.vdec.core core).job = some j)
    (h : j.abandon = true ∨ (c.1.vdec.lanesLeft core j = true ∧ poisoned = false)) : decodeComplete core poisoned c = (c.1.decodeFree core j, c.2) := by
  unfold decodeComplete
  rw [hjob]
  refine if_pos ?_
  rcases h with h | ⟨h, rfl⟩
  · rw [h, Bool.true_or]
  · rw [h, Bool.not_false, Bool.and_true, Bool.or_true]

/-- What follows the end of a picture: the core waits, or is freed and the stream brought up to date. -/
def pictureOver (core : Nat) (j : Job) (c : Chip × Mem) : Option (Chip × Mem) → Chip × Mem
  | none => (c.1.noteFieldWait j, c.2)
  | some e => progress j.ticket (e.1.decodeFree core j, e.2)

/-- Poisoned data ends the picture at once. -/
theorem decodeComplete_of_poisoned {core : Nat} {c : Chip × Mem} {j : Job} (hjob : (c.1.vdec.core core).job = some j) (hlive : j.abandon = false) :
    decodeComplete core true c = pictureOver core j c (pictureEnd core j true c) := by
  unfold decodeComplete
  rw [hjob]
  dsimp only
  rw [hlive, Bool.not_true, Bool.and_false, Bool.or_self, if_neg Bool.false_ne_true, Bool.false_and, if_neg Bool.false_ne_true, if_pos rfl]
  cases hend : pictureEnd core j true c <;> rfl

/-- The last lane of a picture. -/
theorem decodeComplete_of_last {core : Nat} {c : Chip × Mem} {j : Job} (hjob : (c.1.vdec.core core).job = some j) (hlive : j.abandon = false)
    (hlast : c.1.vdec.lanesLeft core j = false) : decodeComplete core false c =
      if (c.1.decTraffic core j).pnl.chunkWaits (192 + core, 0) then (c.1.decTraffic core j, c.2)
      else pictureOver core j (c.1.decTraffic core j, c.2) (pictureEnd core j false (c.1.decTraffic core j, c.2)) := by
  unfold decodeComplete
  rw [hjob]
  dsimp only
  rw [hlive, hlast, Bool.false_and, Bool.or_self, if_neg Bool.false_ne_true, if_neg Bool.false_ne_true, Bool.not_false, Bool.true_and]
  refine congrArg (ite _ _) ?_
  cases hend : pictureEnd core j false (c.1.decTraffic core j, c.2) <;> rfl

/-- What the last lane does to a picture of a stream. -/
theorem pictureEnd_of_frame {core : Nat} {j : Job} {c : Chip × Mem} {t : Ticket} {sd : StreamDef} {p : Placed} {f : FrameRt} (hsub : j.sub ≠ 1)
    (ht : c.1.ticket? j.ticket = some t) (hsd : c.1.stream? t.pipeline = some sd) (hp : t.kindStage .decode = some p) (hf : t.frame? j.source = some f)
    (poisoned : Bool) : pictureEnd core j poisoned c =
      if poisoned then some (Chip.pictureFault { c.1 with vdec := c.1.vdec.dropLanes j } core t p f, c.2) else finishPicture t sd p f c := by
  unfold pictureEnd
  rw [ht]
  dsimp only
  rw [hsd]
  dsimp only
  rw [if_neg hsub, hp, hf]

/-- What the last lane does to a sample's picture. -/
theorem pictureEnd_of_sample {core : Nat} {j : Job} {c : Chip × Mem} {t : Ticket} {sd : StreamDef} {x : Sample} (hsub : j.sub = 1)
    (ht : c.1.ticket? j.ticket = some t) (hsd : c.1.stream? t.pipeline = some sd)
    (hx : t.adapt.samples.find? (fun s => s.id == j.source && s.state == .decoding) = some x) : pictureEnd core j false c = finishSample t sd x c := by
  unfold pictureEnd
  rw [ht]
  dsimp only
  rw [hsd]
  dsimp only
  rw [if_pos hsub, hx]
  rfl

/-! ### A core that waits for field buffers (R175) -/

theorem Chip.noteFieldWait_of_free {c : Chip} {j : Job} {t : Ticket} {sd : StreamDef} {f : FrameRt} (ht : c.ticket? j.ticket = some t)
    (hsd : c.stream? t.pipeline = some sd) (hf : t.frame? j.source = some f) (h : j.sub = 1 ∨ c.fieldWaits t sd f = false) : c.noteFieldWait j = c := by
  unfold Chip.noteFieldWait
  rw [ht]
  dsimp only
  rw [hsd, hf]
  refine if_neg fun hall => ?_
  obtain ⟨hsub, hwaits, -⟩ := hall
  rcases h with h | h
  · exact hsub h
  · exact Bool.false_ne_true (h.symm.trans hwaits)

theorem Chip.noteFieldWait_of_sample {c : Chip} {j : Job} (h : j.sub = 1) : c.noteFieldWait j = c := by
  unfold Chip.noteFieldWait
  split
  next => rfl
  next =>
    split
    next => exact if_neg fun hall => hall.1 h
    next => rfl

/-- The moment from which a core waits is noted once. -/
theorem Chip.noteFieldWait_of_waits {c : Chip} {j : Job} {t : Ticket} {sd : StreamDef} {f : FrameRt} (hsub : j.sub ≠ 1) (ht : c.ticket? j.ticket = some t)
    (hsd : c.stream? t.pipeline = some sd) (hf : t.frame? j.source = some f) (hwaits : c.fieldWaits t sd f = true) :
    (∃ k, c.noteFieldWait j = { c with cast := k }) ∧
    (((c.noteFieldWait j).ticket? j.ticket).bind (fun x => x.frame? j.source)).map (fun x => x.fieldWait) = some (some (f.fieldWait.getD c.now)) := by
  unfold Chip.noteFieldWait
  rw [ht]
  dsimp only
  rw [hsd, hf]
  dsimp only
  cases hsince : f.fieldWait with
  | some since =>
    rw [if_neg (by simp)]
    refine ⟨⟨c.cast, rfl⟩, ?_⟩
    rw [ht, Option.bind_some, hf, Option.map_some, hsince]
    rfl
  | none =>
    rw [if_pos ⟨hsub, hwaits, rfl⟩]
    refine ⟨⟨_, rfl⟩, ?_⟩
    have hid := Chip.id_of_ticket? ht
    have hsource := Ticket.source_of_frame? hf
    rw [hid, hsource, Chip.ticket?_upd (c := c) (f := fun x => x.updFrame j.source (fun y => { y with fieldWait := some c.now })) rfl fun _ => rfl, ht, Option.map_some,
      Option.bind_some, Ticket.frame?_updFrame (f := fun y => { y with fieldWait := some c.now }) _ _ fun _ => rfl, hf]
    rfl

end Sys2Proof.Machine
end

section
/-!
A decoded picture stands in its hanks, or is voided (R14, R171, R175, R215, R346), family 14.
-/
namespace Sys2Proof.Machine

/-! ### The hanks of a picture -/

theorem Chip.hold_spec (c : Chip) (t : Ticket) (ctx n : Nat) : (∃ k, (c.hold t ctx n).1 = { c with hank := k }) ∧ (c.hold t ctx n).2 = c.hank.next n := by
  unfold Chip.hold
  split
  next h =>
    subst h
    refine ⟨⟨c.hank, rfl⟩, ?_⟩
    unfold Hank.next
    simp
  next => exact ⟨⟨_, rfl⟩, rfl⟩

/-- Hanks taken for a picture: of the picture itself, of enhancement's, of the generated frames', of the analysis'. -/
structure PictureHanks where
  pic : List Nat
  up : List Nat
  gen : List Nat
  an : List Nat

/-- The chip once a picture's hanks are taken. -/
def Chip.holdPicture (c : Chip) (t : Ticket) (sd : StreamDef) (p : Placed) (f : FrameRt) (cut : Bool) : Chip × PictureHanks :=
  let g := t.genCount sd f cut
  let hs := c.hold t (p.contexts.headD 0) (hankCount (pictureBytes f.pic))
  let up := hs.1.hold t (t.kindContext (if (t.kindStage .other).isSome then .other else .superRes)) (t.upCount sd f)
  let gen := up.1.hold t (t.kindContext .frameGen) (g.1 * g.2)
  let an := gen.1.hold t (t.kindContext .analysis) (anCount sd f)
  (an.1, { pic := hs.2, up := up.2, gen := gen.2, an := an.2 })

theorem Chip.holdPicture_spec (c : Chip) (t : Ticket) (sd : StreamDef) (p : Placed) (f : FrameRt) (cut : Bool) :
    (∃ k, (c.holdPicture t sd p f cut).1 = { c with hank := k }) ∧ (c.holdPicture t sd p f cut).2.pic = c.hank.next (hankCount (pictureBytes f.pic)) := by
  unfold Chip.holdPicture
  dsimp only
  obtain ⟨⟨k, hk⟩, hpic⟩ := c.hold_spec t (p.contexts.headD 0) (hankCount (pictureBytes f.pic))
  rw [hk]
  obtain ⟨⟨k1, hk1⟩, -⟩ := Chip.hold_spec { c with hank := k } t (t.kindContext (if (t.kindStage .other).isSome then .other else .superRes)) (t.upCount sd f)
  rw [hk1]
  obtain ⟨⟨k2, hk2⟩, -⟩ := Chip.hold_spec { c with hank := k1 } t (t.kindContext .frameGen) ((t.genCount sd f cut).1 * (t.genCount sd f cut).2)
  rw [hk2]
  exact ⟨(Chip.hold_spec { c with hank := k2 } t (t.kindContext .analysis) (anCount sd f)).1, hpic⟩

/-! ### Its bytes and its fields -/

theorem Chip.hbmReads_frame (c : Chip) (rs : List Nat) : ∃ b, rs.foldl (fun d h => d.hbmRead (hankAddr h, 0x4000)) c = { c with hbm := b } :=
  List.foldlRecOn (motive := fun d : Chip => ∃ b, d = { c with hbm := b }) rs _ ⟨c.hbm, rfl⟩ fun d ⟨b, hd⟩ h _ => by
    subst hd
    exact ⟨_, rfl⟩

theorem Chip.panelWrite_frame (c : Chip) (panel : Nat) (r : Range) (guar : Bool) (own : Option (Nat × Nat)) :
    ∃ b l, c.panelWrite panel r guar own = { c with hbm := b, pnl := l } := by
  unfold Chip.panelWrite
  split
  next =>
    rw [Chip.hbmWrote_frame]
    exact ⟨_, _, rfl⟩
  next =>
    split
    next => exact ⟨c.hbm, _, rfl⟩
    next => exact ⟨c.hbm, c.pnl, rfl⟩

theorem Chip.panelWrites_frame (c : Chip) (panel : Nat) (guar : Bool) (rs : List Range) :
    ∃ b l, rs.foldl (fun d x => d.panelWrite panel x guar none) c = { c with hbm := b, pnl := l } :=
  List.foldlRecOn (motive := fun d : Chip => ∃ b l, d = { c with hbm := b, pnl := l }) rs _ ⟨c.hbm, c.pnl, rfl⟩ fun d ⟨b, l, hd⟩ r _ => by
    subst hd
    obtain ⟨b', l', h⟩ := Chip.panelWrite_frame { c with hbm := b, pnl := l } panel r guar none
    exact ⟨b', l', h⟩

/-- A stream without field buffers writes none. -/
theorem writeFields_spec (t : Ticket) (sd : StreamDef) (p : Placed) (f : FrameRt) (r : Decoded) (c : Chip × Mem) :
    (∃ b l, (writeFields t sd p f r c).1 = { c.1 with hbm := b, pnl := l }) ∧ (sd.mfBufs = [] → writeFields t sd p f r c = c) := by
  unfold writeFields
  split
  next a b n ctx ha hb hhome =>
    refine ⟨?_, fun h => ?_⟩
    · split
      next => exact ⟨c.1.hbm, c.1.pnl, rfl⟩
      next => exact c.1.panelWrites_frame _ _ _
    · rw [h] at ha
      exact absurd ha.symm (Option.some_ne_none a)
  next => exact ⟨⟨c.1.hbm, c.1.pnl, rfl⟩, fun _ => rfl⟩

/-- The picture's bytes and its fields written. -/
def storePicture (t : Ticket) (sd : StreamDef) (p : Placed) (f : FrameRt) (r : Decoded) (h : PictureHanks) (c : Chip × Mem) : Chip × Mem :=
  writeFields t sd p f r ((f.hanks.foldl (fun d h => d.hbmRead (hankAddr h, 0x4000)) c.1).wrote ((h.pic ++ h.an).map (fun h => (hankAddr h, 0x4000))),
    hankWrite (hankWrite c.2 h.pic 0 r.pic.bytes) h.an 0 (if h.an.isEmpty then [] else (r.pic.scale sd.anW sd.anH).bytes))

theorem storePicture_spec (t : Ticket) (sd : StreamDef) (p : Placed) (f : FrameRt) (r : Decoded) (h : PictureHanks) (c : Chip × Mem) :
    (∃ b l, (storePicture t sd p f r h c).1 = { c.1 with hbm := b, pnl := l }) ∧
    (sd.mfBufs = [] → (storePicture t sd p f r h c).2 =
      hankWrite (hankWrite c.2 h.pic 0 r.pic.bytes) h.an 0 (if h.an.isEmpty then [] else (r.pic.scale sd.anW sd.anH).bytes)) := by
  unfold storePicture
  obtain ⟨b, hb⟩ := c.1.hbmReads_frame f.hanks
  rw [hb]
  obtain ⟨b', l, hw⟩ := Chip.wrote_eq { c.1 with hbm := b } ((h.pic ++ h.an).map (fun h => (hankAddr h, 0x4000)))
  rw [hw]
  obtain ⟨⟨b'', l', hf⟩, hnone⟩ := writeFields_spec t sd p f r ({ c.1 with hbm := b', pnl := l },
    hankWrite (hankWrite c.2 h.pic 0 r.pic.bytes) h.an 0 (if h.an.isEmpty then [] else (r.pic.scale sd.anW sd.anH).bytes))
  refine ⟨⟨b'', l', hf⟩, fun hbufs => ?_⟩
  rw [hnone hbufs]

/-! ### The picture in its stream -/

/-- The chip once a picture stands: its unit freed, its consumers' views and its frame set, its marker signalled. -/
def Chip.picture (e : Chip) (t : Ticket) (sd : StreamDef) (p : Placed) (f : FrameRt) (r : Decoded) (hs : PictureHanks) : Chip :=
  let cut := sceneCut sd f.pic r.motion
  let g := t.genCount sd f cut
  let h := e.freeHanks t f.hanks
  Chip.signalMap { h with
    hank := ((((h.hank.sharePicture t.consumers (picSlot sd f.order) hs.pic).viewOut t .superRes (picSlot sd f.order) hs.up).viewOut t .other (picSlot sd f.order) hs.up).viewOut t
      .frameGen (picSlot sd f.order) hs.gen).viewOut t .analysis (picSlot sd f.order) hs.an
    vdec := { h.vdec with pics := h.vdec.pics.inc, concealed := if r.concealed = 0 then h.vdec.concealed else h.vdec.concealed.inc }
    cast := h.cast.updTicket t.id (fun x => x.decodedFrame sd f r cut hs.pic hs.up ((List.range g.2).map (fun i => (hs.gen.drop (g.1 * i)).take g.1)) hs.an) }
    t p.stage p.perFrame (p.contexts.headD 0)

theorem Ticket.frame?_beginFrame (t : Ticket) (f : FrameRt) (fall : Bool) (i : Nat) : (t.beginFrame f fall).frame? i =
    (t.frame? i).map (fun x => if x.source = f.source then { x with still := x.still || fall } else x) :=
  List.find?_map_of_eq (p := fun x : FrameRt => x.source == i) (fun x => by split <;> rfl) t.frames

/-- The frame of a picture that stands. -/
theorem Ticket.frame?_decodedFrame {t : Ticket} {f x : FrameRt} (hx : t.frame? f.source = some x) (sd : StreamDef) (r : Decoded) (cut : Bool) (hs up : List Nat)
    (gens : List (List Nat)) (an : List Nat) : ∃ y, (t.decodedFrame sd f r cut hs up gens an).frame? f.source = some y ∧ y.decoded = true ∧ y.decoding = false ∧
      y.picHanks = hs ∧ y.anHanks = an := by
  have hbegun : ∃ z, ((if t.beginsLater then t else t.beginFrame f false).decodedOuts f r.concealed cut).frame? f.source = some z := by
    split
    next => exact ⟨x, hx⟩
    next =>
      exact ⟨_, (t.frame?_beginFrame f false f.source).trans (congrArg _ hx)⟩
  obtain ⟨z, hz⟩ := hbegun
  exact ⟨_, (Ticket.frame?_updFrame (f := fun y => { y with
    decoding := false, decoded := true, parts := [], picHanks := hs, upHanks := up, genHanks := gens, anHanks := an, still := y.still || cut }) _ f.source
    fun _ => rfl).trans (congrArg _ hz), rfl, rfl, rfl, rfl⟩

theorem Ticket.id_decodedFrame (t : Ticket) (sd : StreamDef) (f : FrameRt) (r : Decoded) (cut : Bool) (hs up : List Nat)
    (gens : List (List Nat)) (an : List Nat) : (t.decodedFrame sd f r cut hs up gens an).id = t.id := by
  unfold Ticket.decodedFrame
  dsimp only
  split <;> rfl

theorem Chip.picture_spec {e : Chip} {t : Ticket} {f : FrameRt} (ht : e.ticket? t.id = some t) (hf : t.frame? f.source = some f) (sd : StreamDef) (p : Placed) (r : Decoded)
    (hs : PictureHanks) : (e.picture t sd p f r hs).vdec =
      { e.vdec with pics := e.vdec.pics.inc, concealed := if r.concealed = 0 then e.vdec.concealed else e.vdec.concealed.inc } ∧
    ∃ y, ((e.picture t sd p f r hs).ticket? t.id).bind (fun x => x.frame? f.source) = some y ∧ y.decoded = true ∧ y.decoding = false ∧
      y.picHanks = hs.pic ∧ y.anHanks = hs.an := by
  have hfreed := (e.ticket?_freeHanks t f.hanks t.id).trans (congrArg _ ht)
  have hkept := (t.frame?_withoutAll f.hanks f.source).trans (congrArg _ hf)
  obtain ⟨k, hfree⟩ := e.freeHanks_frame t f.hanks
  have hvdec : (e.freeHanks t f.hanks).vdec = e.vdec := by rw [hfree]
  unfold Chip.picture
  dsimp only
  generalize e.freeHanks t f.hanks = d at hfreed hvdec
  generalize sceneCut sd f.pic r.motion = cut
  generalize (List.range (t.genCount sd f cut).2).map (fun i => (hs.gen.drop ((t.genCount sd f cut).1 * i)).take (t.genCount sd f cut).1) = gens
  obtain ⟨y, hy, hrest⟩ := Ticket.frame?_decodedFrame (f := f) hkept sd r cut hs.pic hs.up gens hs.an
  generalize hg : ({ d with
    hank := ((((d.hank.sharePicture t.consumers (picSlot sd f.order) hs.pic).viewOut t .superRes (picSlot sd f.order) hs.up).viewOut t .other (picSlot sd f.order) hs.up).viewOut t
      .frameGen (picSlot sd f.order) hs.gen).viewOut t .analysis (picSlot sd f.order) hs.an
    vdec := { d.vdec with pics := d.vdec.pics.inc, concealed := if r.concealed = 0 then d.vdec.concealed else d.vdec.concealed.inc }
    cast := d.cast.updTicket t.id (fun x => x.decodedFrame sd f r cut hs.pic hs.up gens hs.an) } : Chip) = g
  obtain ⟨m, w, q, x, z, v, l, n, hsignal⟩ := g.signalMap_frame t p.stage p.perFrame (p.contexts.headD 0)
  have hticket : g.ticket? t.id = some ((t.withoutAll f.hanks).decodedFrame sd f r cut hs.pic hs.up gens hs.an) :=
    (Chip.ticket?_upd (c := d) (f := fun x => x.decodedFrame sd f r cut hs.pic hs.up gens hs.an) (by rw [← hg]) fun x => x.id_decodedFrame sd f r cut hs.pic hs.up gens hs.an).trans
      (congrArg _ hfreed)
  rw [hsignal]
  refine ⟨?_, y, ?_, hrest⟩
  · rw [← hg, ← hvdec]
  · exact (congrArg (fun o => o.bind fun x : Ticket => x.frame? f.source) hticket).trans hy

/-- A picture's end: while hanks or field buffers are not to be had, none; else the picture stands. -/
theorem finishPicture_eq (t : Ticket) (sd : StreamDef) (p : Placed) (f : FrameRt) (c : Chip × Mem) : finishPicture t sd p f c =
    let r := t.dec.decode f.pic sd.mfGrid f.order (unitBytes c.2 f.parts)
    let cut := sceneCut sd f.pic r.motion
    let g := t.genCount sd f cut
    let hs := c.1.holdPicture t sd p f cut
    let e := storePicture t sd p f r hs.2 (hs.1, c.2)
    if !c.1.grantable t (hankCount (pictureBytes f.pic) + t.upCount sd f + g.1 * g.2 + anCount sd f) || c.1.fieldWaits t sd f then none
    else some (e.1.picture t sd p f r hs.2, e.2) := rfl

/-- A picture that stands: its counts, its frame and its bytes. -/
theorem finishPicture_some {t : Ticket} {sd : StreamDef} {p : Placed} {f : FrameRt} {c : Chip × Mem} {i : Nat} (ht : c.1.ticket? i = some t)
    (hf : t.frame? f.source = some f) :
    let r := t.dec.decode f.pic sd.mfGrid f.order (unitBytes c.2 f.parts)
    let g := t.genCount sd f (sceneCut sd f.pic r.motion)
    c.1.grantable t (hankCount (pictureBytes f.pic) + t.upCount sd f + g.1 * g.2 + anCount sd f) = true → c.1.fieldWaits t sd f = false →
    ∃ e x, finishPicture t sd p f c = some e ∧
      e.1.vdec = { c.1.vdec with pics := c.1.vdec.pics.inc, concealed := if r.concealed = 0 then c.1.vdec.concealed else c.1.vdec.concealed.inc } ∧
      (e.1.ticket? i).bind (fun y => y.frame? f.source) = some x ∧ x.decoded = true ∧ x.decoding = false ∧
      x.picHanks = c.1.hank.next (hankCount (pictureBytes f.pic)) ∧
      (sd.mfBufs = [] → e.2 = hankWrite (hankWrite c.2 x.picHanks 0 r.pic.bytes) x.anHanks 0
        (if x.anHanks.isEmpty then [] else (r.pic.scale sd.anW sd.anH).bytes)) := by
  intro r g hgrant hwaits
  have hid := Chip.id_of_ticket? ht
  subst hid
  obtain ⟨⟨k, hk⟩, hpic⟩ := c.1.holdPicture_spec t sd p f (sceneCut sd f.pic r.motion)
  have hsome := finishPicture_eq t sd p f c
  dsimp only at hsome
  rw [if_neg (by rw [hgrant, hwaits]; decide), hk] at hsome
  generalize (c.1.holdPicture t sd p f (sceneCut sd f.pic r.motion)).2 = hs at hpic hsome
  obtain ⟨⟨b, l, hstore⟩, hmem⟩ := storePicture_spec t sd p f r hs ({ c.1 with hank := k }, c.2)
  have hticket : (storePicture t sd p f r hs ({ c.1 with hank := k }, c.2)).1.ticket? t.id = some t := by
    rw [hstore]
    exact ht
  obtain ⟨hvdec, y, hy, hdecoded, hdecoding, hpics, han⟩ := Chip.picture_spec hticket hf sd p r hs
  refine ⟨_, y, hsome, hvdec.trans ?_, hy, hdecoded, hdecoding, hpics.trans hpic, fun hbufs => ?_⟩
  · rw [hstore]
  · rw [hpics, han]
    exact hmem hbufs

/-! ### A picture with poisoned data (R346) -/

/-- A stage's loss is its own first. -/
theorem Ticket.mem_downstream_decode {t : Ticket} {p : Placed} (hp : t.kindStage .decode = some p) : p.stage ∈ t.downstream p.stage := by
  have hmem : p ∈ t.placed := List.mem_of_find?_eq_some hp
  have hkind : p.kind = .decode := by simpa using List.find?_some hp
  unfold Ticket.downstream
  split
  next hnone => exact absurd hmem (fun h => by simpa using List.find?_eq_none.mp hnone p h)
  next q hq =>
    have hsame : p.stage ∈ (t.placed.filter (fun x => decide (p.stage ≤ x.stage) && x.kind != .adapt && (x.kind != .analysis || q.kind == .decode))).map
        (fun x => x.stage) := List.mem_map.mpr ⟨p, List.mem_filter.mpr ⟨hmem, by simp [hkind]⟩, rfl⟩
    split
    next => exact List.mem_singleton_self _
    next => exact List.mem_singleton_self _
    next => exact hsame

theorem FrameRt.forget_all_keeps (f : FrameRt) (hs : List Nat) : (hs.foldl FrameRt.forget f).lost = f.lost :=
  List.foldlRecOn (motive := fun x : FrameRt => x.lost = f.lost) hs FrameRt.forget rfl fun _ hx _ _ => hx

/-- A word found bad as a picture is decoded is reported; no stream, core or counter of recovery changes. -/
theorem Chip.hbmUe_frame (c : Chip) (a : Nat) : ∃ h l e n p, c.hbmUe a = { c with hbm := h, log := l, evc := e, rnd := n, pins := p } := ⟨_, _, _, _, _, rfl⟩

/-- A picture whose data was poisoned voids its frame. -/
theorem Chip.pictureFault_spec {c : Chip} {core i : Nat} {t : Ticket} {p : Placed} {f : FrameRt} (ht : c.ticket? i = some t) (hp : t.kindStage .decode = some p)
    (hf : t.frame? f.source = some f) : (c.pictureFault core t p f).vdec = c.vdec ∧ (c.pictureFault core t p f).rst.voided = c.rst.voided.inc ∧
    (core < 12 → ((c.pictureFault core t p f).evc.src (576 + core)).pending = true) ∧
    (((c.pictureFault core t p f).ticket? i).bind (fun x => x.frame? f.source)).map (fun x => (x.lost.contains p.stage, x.decoding)) = some (true, false) := by
  have hid := Chip.id_of_ticket? ht
  subst hid
  have hvoid := (Chip.ticket?_freeHanks (c.voidFrame t f p.stage 0x41 false) t f.hanks t.id).trans (congrArg _ (Chip.ticket?_voidFrame ht f p.stage 0x41 false))
  obtain ⟨q, v, hvoided⟩ := c.voidFrame_chip t f p.stage 0x41
  obtain ⟨k, hfree⟩ := Chip.freeHanks_frame (c.voidFrame t f p.stage 0x41 false) t f.hanks
  have hkept : ((c.voidFrame t f p.stage 0x41 false).freeHanks t f.hanks).vdec = c.vdec ∧
      ((c.voidFrame t f p.stage 0x41 false).freeHanks t f.hanks).rst.voided = c.rst.voided.inc := by
    rw [hfree, hvoided]
    exact ⟨rfl, rfl⟩
  unfold Chip.pictureFault
  dsimp only
  generalize (c.voidFrame t f p.stage 0x41 false).freeHanks t f.hanks = d at hvoid hkept
  obtain ⟨h, l, e, n, x, hue⟩ := d.hbmUe_frame (Config.errorAddress d.freeCtr)
  rw [hue]
  refine ⟨hkept.1, hkept.2, fun hcore => Chip.incident_pending ?_ _ _ _ _ _ _, ?_⟩
  · unfold reservedSource
    rw [Bool.or_eq_false_iff]
    exact ⟨Bool.and_eq_false_imp.mpr fun _ => decide_eq_false (by omega), decide_eq_false (by omega)⟩
  · have hframe := (Ticket.frame?_withoutAll (t.voidFrame f p.stage 0x41 false) f.hanks f.source).trans (congrArg _ (Ticket.frame?_voidFrame 0x41 false hf))
    rw [Chip.ticket?_upd (c := d) (f := fun y => y.updFrame f.source (fun z => { z with decoding := false })) rfl fun _ => rfl, hvoid, Option.map_some,
      Option.map_some, Option.bind_some, Ticket.frame?_updFrame (f := fun z => { z with decoding := false }) _ _ fun _ => rfl, hframe]
    refine congrArg (fun b => some (b, false)) (?_ : (List.foldl FrameRt.forget (t.lostFrame p.stage f) f.hanks).lost.contains p.stage = true)
    rw [FrameRt.forget_all_keeps]
    exact List.contains_iff_mem.mpr (List.mem_eraseDups.mpr (List.mem_append_right _ (Ticket.mem_downstream_decode hp)))

/-! ### A sample's picture (R215) -/

/-- A sample's picture joins the cache; none while it does not fit. -/
theorem finishSample_spec (t : Ticket) (sd : StreamDef) (x : Sample) (c : Chip × Mem) :
    let n := hankCount (pictureBytes x.pic)
    let r := ({} : DecState).decode x.pic 0 0 (c.1.bitsBytes c.2 t x.desc)
    ((c.1.grantable t n && t.adapt.fits sd.cacheHanks n) = false → finishSample t sd x c = none) ∧
    ((c.1.grantable t n && t.adapt.fits sd.cacheHanks n) = true → ∃ d, finishSample t sd x c = some (d, hankWrite c.2 (c.1.hank.next n) 0 r.pic.bytes) ∧
      d.vdec = { c.1.vdec with pics := c.1.vdec.pics.inc, concealed := if r.concealed = 0 then c.1.vdec.concealed else c.1.vdec.concealed.inc }) := by
  intro n r
  refine ⟨fun h => if_neg (ne_true_of_eq_false h), fun h => ⟨_, if_pos h, ?_⟩⟩
  obtain ⟨k, hstart⟩ := Chip.startSample_frame _ (hankWrite c.2 (c.1.hank.next n) 0 r.pic.bytes) t.id
  refine (congrArg Chip.vdec hstart).trans ?_
  obtain ⟨b, l, hw⟩ := Chip.wrote_eq (Chip.cacheSample { c.1 with hank := c.1.hank.alloc t.id (ctxTag (t.kindContext .adapt)) n } t sd.cacheHanks x (c.1.hank.next n))
    ((c.1.hank.next n).map (fun h => (hankAddr h, 0x4000)))
  have hvdec := congrArg Chip.vdec hw
  exact congrArg (fun v : Vdec => ({ v with pics := v.pics.inc, concealed := if r.concealed = 0 then v.concealed else v.concealed.inc } : Vdec)) hvdec

end Sys2Proof.Machine
end

section
/-!
Pictures, waits, skip records and samples end (R14, R18, R168, R171, R175, R215, R218, R346, R348), family 14.
-/
namespace Sys2Proof.Machine

/-! ### DECODE_COMPLETE -/

/-- A picture's end that frees its core, its stream brought up to date. -/
theorem exec_decodeComplete_over {s : State} {core : Nat} {poisoned : Bool} {j : Job} {c : Chip × Mem} {e : Chip × Mem}
    (h : decodeComplete core poisoned (s.chip, s.mem) = pictureOver core j c (some e)) :
    exec (.decodeComplete core poisoned) s = .next (Safety.upToDate j.ticket { s with chip := e.1.decodeFree core j, mem := e.2 }) := by
  rw [exec_decodeComplete]
  unfold execDecodeComplete
  rw [h]
  rfl

theorem exec_decodeComplete_of {s : State} {core : Nat} {poisoned : Bool} {d : Chip} (h : decodeComplete core poisoned (s.chip, s.mem) = (d, s.mem)) :
    exec (.decodeComplete core poisoned) s = .next { s with chip := d } := by
  rw [exec_decodeComplete]
  unfold execDecodeComplete
  rw [h]

/-- A lane that leaves other lanes, or an abandoned one, leaves its core. -/
theorem exec_decodeComplete_lane {s : State} {core : Nat} {poisoned : Bool} {j : Job} (hjob : (s.chip.vdec.core core).job = some j)
    (h : j.abandon = true ∨ (s.chip.vdec.lanesLeft core j = true ∧ poisoned = false)) :
    ∃ t, exec (.decodeComplete core poisoned) s = .next t ∧ t = { s with chip := { s.chip with vdec := t.chip.vdec } } ∧
      (∀ k, k ≠ core → t.chip.vdec.core k = s.chip.vdec.core k) ∧
      t.chip.vdec.samples = (if j.abandon then s.chip.vdec.samples else s.chip.vdec.samples.add j.samples) ∧
      (firstJob s.chip.vdec.last (s.chip.decChoices core) = none → (t.chip.vdec.core core).job = none) := by
  obtain ⟨⟨v, hframe⟩, hsamples, -, -, hothers, hnone⟩ := s.chip.decodeFree_spec core j
  refine ⟨_, exec_decodeComplete_of (decodeComplete_of_over (c := (s.chip, s.mem)) hjob h), ?_, hothers, hsamples, hnone⟩
  dsimp only
  rw [hframe]

/-- The last lane while the picture's chunks wait. -/
theorem exec_decodeComplete_chunks {s : State} {core : Nat} {j : Job} (hjob : (s.chip.vdec.core core).job = some j) (hlive : j.abandon = false)
    (hlast : s.chip.vdec.lanesLeft core j = false) (hwait : (s.chip.decTraffic core j).pnl.chunkWaits (192 + core, 0) = true) :
    exec (.decodeComplete core false) s = .next { s with chip := s.chip.decTraffic core j } :=
  exec_decodeComplete_of ((decodeComplete_of_last (c := (s.chip, s.mem)) hjob hlive hlast).trans (if_pos hwait))

/-- The last lane once its chunks have come. -/
theorem decodeComplete_of_done {s : State} {core : Nat} {j : Job} (hjob : (s.chip.vdec.core core).job = some j) (hlive : j.abandon = false)
    (hlast : s.chip.vdec.lanesLeft core j = false) (hgo : (s.chip.decTraffic core j).pnl.chunkWaits (192 + core, 0) = false) :
    decodeComplete core false (s.chip, s.mem) =
      pictureOver core j (s.chip.decTraffic core j, s.mem) (pictureEnd core j false (s.chip.decTraffic core j, s.mem)) :=
  (decodeComplete_of_last (c := (s.chip, s.mem)) hjob hlive hlast).trans (if_neg (ne_true_of_eq_false hgo))

section
variable {s : State} {core : Nat} {j : Job} {k : Ticket} {sd : StreamDef} {p : Placed} {f : FrameRt}

/-- The last lane while hanks or field buffers are not to be had. -/
theorem exec_decodeComplete_waits (hjob : (s.chip.vdec.core core).job = some j) (hlive : j.abandon = false) (hsub : j.sub ≠ 1) (hk : s.chip.ticket? j.ticket = some k)
    (hsd : s.chip.stream? k.pipeline = some sd) (hp : k.kindStage .decode = some p) (hf : k.frame? j.source = some f)
    (hlast : s.chip.vdec.lanesLeft core j = false) (hgo : (s.chip.decTraffic core j).pnl.chunkWaits (192 + core, 0) = false) :
    let d := s.chip.decTraffic core j
    let r := k.dec.decode f.pic sd.mfGrid f.order (unitBytes s.mem f.parts)
    let g := k.genCount sd f (sceneCut sd f.pic r.motion)
    let all := hankCount (pictureBytes f.pic) + k.upCount sd f + g.1 * g.2 + anCount sd f
    s.chip.grantable k all = false ∨ s.chip.fieldWaits k sd f = true → ∃ t, exec (.decodeComplete core false) s = .next t ∧
      t = { s with chip := { d with cast := t.chip.cast } } ∧ (s.chip.fieldWaits k sd f = false → t.chip.cast = s.chip.cast) ∧
      (s.chip.fieldWaits k sd f = true →
        ((t.chip.ticket? j.ticket).bind (fun x => x.frame? j.source)).map (fun x => x.fieldWait) = some (some (f.fieldWait.getD s.chip.now))) := by
  intro d r g all h
  obtain ⟨⟨l, q, hd⟩, -⟩ := s.chip.decTraffic_frame core j
  have hdone := decodeComplete_of_done hjob hlive hlast hgo
  have hnone : pictureEnd core j false (s.chip.decTraffic core j, s.mem) = none := by
    rw [hd]
    refine (pictureEnd_of_frame (c := ({ s.chip with vdec := { s.chip.vdec with cores := l }, pnl := q }, s.mem)) hsub hk hsd hp hf false).trans ?_
    refine (if_neg Bool.false_ne_true).trans ?_
    refine if_pos ?_
    rcases h with h | h
    · exact Bool.or_eq_true_iff.mpr (.inl (by rw [Bool.not_eq_true']; exact h))
    · exact Bool.or_eq_true_iff.mpr (.inr h)
  rw [hnone] at hdone
  refine ⟨_, exec_decodeComplete_of hdone, ?_⟩
  rw [show d = _ from hd, hd]
  cases hwaits : s.chip.fieldWaits k sd f with
  | false =>
    rw [Chip.noteFieldWait_of_free (c := { s.chip with vdec := { s.chip.vdec with cores := l }, pnl := q }) hk hsd hf (.inr hwaits)]
    exact ⟨rfl, fun _ => rfl, fun h => absurd h Bool.false_ne_true⟩
  | true =>
    obtain ⟨⟨a, hnote⟩, hsince⟩ := Chip.noteFieldWait_of_waits (c := { s.chip with vdec := { s.chip.vdec with cores := l }, pnl := q }) hsub hk hsd hf hwaits
    refine ⟨?_, fun h => absurd h.symm Bool.false_ne_true, fun _ => hsince⟩
    rw [hnote]

/-- The last lane of a picture that can stand. -/
theorem exec_decodeComplete_stands (hjob : (s.chip.vdec.core core).job = some j) (hlive : j.abandon = false) (hsub : j.sub ≠ 1) (hk : s.chip.ticket? j.ticket = some k)
    (hsd : s.chip.stream? k.pipeline = some sd) (hp : k.kindStage .decode = some p) (hf : k.frame? j.source = some f)
    (hlast : s.chip.vdec.lanesLeft core j = false) (hgo : (s.chip.decTraffic core j).pnl.chunkWaits (192 + core, 0) = false) :
    let r := k.dec.decode f.pic sd.mfGrid f.order (unitBytes s.mem f.parts)
    let g := k.genCount sd f (sceneCut sd f.pic r.motion)
    let n := hankCount (pictureBytes f.pic)
    s.chip.grantable k (n + k.upCount sd f + g.1 * g.2 + anCount sd f) = true → s.chip.fieldWaits k sd f = false →
    ∃ (u : State) (x : FrameRt), exec (.decodeComplete core false) s = .next (Safety.upToDate j.ticket u) ∧
      u.chip.vdec.pics = s.chip.vdec.pics.inc ∧
      u.chip.vdec.concealed = (if r.concealed = 0 then s.chip.vdec.concealed else s.chip.vdec.concealed.inc) ∧
      u.chip.vdec.samples = s.chip.vdec.samples.add j.samples ∧
      (u.chip.ticket? j.ticket).bind (fun x => x.frame? j.source) = some x ∧ x.decoded = true ∧ x.decoding = false ∧
      x.picHanks = s.chip.hank.next n ∧
      (sd.mfBufs = [] → u.mem = hankWrite (hankWrite s.mem x.picHanks 0 r.pic.bytes) x.anHanks 0
        (if x.anHanks.isEmpty then [] else (r.pic.scale sd.anW sd.anH).bytes)) := by
  intro r g n hgrant hwaits
  have hsource := Ticket.source_of_frame? hf
  obtain ⟨⟨l, q, hd⟩, -⟩ := s.chip.decTraffic_frame core j
  have hdone := decodeComplete_of_done hjob hlive hlast hgo
  have hend := (pictureEnd_of_frame (core := core) (c := ({ s.chip with vdec := { s.chip.vdec with cores := l }, pnl := q }, s.mem)) hsub hk hsd hp hf false).trans
    (if_neg Bool.false_ne_true)
  obtain ⟨e, x, hsome, hvdec, hx, hdecoded, hdecoding, hpics, hmem⟩ :=
    finishPicture_some (c := ({ s.chip with vdec := { s.chip.vdec with cores := l }, pnl := q }, s.mem)) (sd := sd) (p := p) hk (by rw [hsource]; exact hf) hgrant hwaits
  rw [← hd] at hend
  rw [← hd] at hsome
  rw [hend, hsome] at hdone
  obtain ⟨⟨v, hfree⟩, hsamples, hcount, hconcealed, -, -⟩ := e.1.decodeFree_spec core j
  refine ⟨_, x, exec_decodeComplete_over hdone, hcount.trans (congrArg Vdec.pics hvdec), hconcealed.trans (congrArg Vdec.concealed hvdec), hsamples.trans ?_, ?_, hdecoded, hdecoding, hpics, hmem⟩
  · rw [hlive, hvdec]
    rfl
  · rw [← hsource]
    dsimp only
    rw [hfree]
    exact hx

/-- Poisoned data voids the picture's frame. -/
theorem exec_decodeComplete_poisoned (hjob : (s.chip.vdec.core core).job = some j) (hlive : j.abandon = false) (hsub : j.sub ≠ 1) (hk : s.chip.ticket? j.ticket = some k)
    (hsd : s.chip.stream? k.pipeline = some sd) (hp : k.kindStage .decode = some p) (hf : k.frame? j.source = some f) :
    ∃ u, exec (.decodeComplete core true) s = .next (Safety.upToDate j.ticket u) ∧ u.mem = s.mem ∧
      u.chip.vdec.pics = s.chip.vdec.pics ∧ u.chip.rst.voided = s.chip.rst.voided.inc ∧
      (core < 12 → (u.chip.evc.src (576 + core)).pending = true) ∧
      ((u.chip.ticket? j.ticket).bind (fun x => x.frame? j.source)).map (fun x => (x.lost.contains p.stage, x.decoding)) = some (true, false) := by
  have hsource := Ticket.source_of_frame? hf
  have hend := pictureEnd_of_frame (core := core) (c := (s.chip, s.mem)) hsub hk hsd hp hf true
  have hover := (decodeComplete_of_poisoned (c := (s.chip, s.mem)) hjob hlive).trans (congrArg (pictureOver core j (s.chip, s.mem)) (hend.trans (if_pos rfl)))
  obtain ⟨hvdec, hvoided, hpending, hframe⟩ := Chip.pictureFault_spec (c := { s.chip with vdec := s.chip.vdec.dropLanes j }) (core := core) hk hp (by rw [hsource]; exact hf)
  obtain ⟨⟨v, hfree⟩, -, hcount, -, -, -⟩ := (Chip.pictureFault { s.chip with vdec := s.chip.vdec.dropLanes j } core k p f).decodeFree_spec core j
  refine ⟨_, exec_decodeComplete_over hover, rfl, hcount.trans ((congrArg Vdec.pics hvdec).trans rfl), ?_⟩
  dsimp only
  rw [hfree, ← hsource]
  exact ⟨hvoided, hpending, hframe⟩

/-- The last lane of a sample's picture. -/
theorem exec_decodeComplete_sample {x : Sample} (hjob : (s.chip.vdec.core core).job = some j) (hlive : j.abandon = false) (hsub : j.sub = 1)
    (hk : s.chip.ticket? j.ticket = some k) (hsd : s.chip.stream? k.pipeline = some sd)
    (hx : k.adapt.samples.find? (fun s => s.id == j.source && s.state == .decoding) = some x)
    (hlast : s.chip.vdec.lanesLeft core j = false) (hgo : (s.chip.decTraffic core j).pnl.chunkWaits (192 + core, 0) = false) :
    let n := hankCount (pictureBytes x.pic)
    let fits := s.chip.grantable k n && k.adapt.fits sd.cacheHanks n
    let r := ({} : DecState).decode x.pic 0 0 (s.chip.bitsBytes s.mem k x.desc)
    (fits = false → exec (.decodeComplete core false) s = .next { s with chip := s.chip.decTraffic core j }) ∧
    (fits = true → ∃ u, exec (.decodeComplete core false) s = .next (Safety.upToDate j.ticket u) ∧
      u.mem = hankWrite s.mem (s.chip.hank.next n) 0 r.pic.bytes ∧ u.chip.vdec.pics = s.chip.vdec.pics.inc ∧
      u.chip.vdec.concealed = (if r.concealed = 0 then s.chip.vdec.concealed else s.chip.vdec.concealed.inc)) := by
  intro n fits r
  obtain ⟨⟨l, q, hd⟩, -⟩ := s.chip.decTraffic_frame core j
  have hdone := decodeComplete_of_done hjob hlive hlast hgo
  have hend := pictureEnd_of_sample (core := core) (c := ({ s.chip with vdec := { s.chip.vdec with cores := l }, pnl := q }, s.mem)) hsub hk hsd hx
  obtain ⟨hno, hyes⟩ := finishSample_spec k sd x ({ s.chip with vdec := { s.chip.vdec with cores := l }, pnl := q }, s.mem)
  rw [← hd] at hend
  rw [hend] at hdone
  refine ⟨fun h => ?_, fun h => ?_⟩
  · have hnone := hno h
    rw [← hd] at hnone
    rw [hnone] at hdone
    rw [exec_decodeComplete_of hdone, Chip.noteFieldWait_of_sample hsub]
  · obtain ⟨d, hsome, hvdec⟩ := hyes h
    have hcached : finishSample k sd x (s.chip.decTraffic core j, s.mem) = some (d, hankWrite s.mem (s.chip.hank.next n) 0 r.pic.bytes) := by
      rw [hd]
      exact hsome
    rw [hcached] at hdone
    obtain ⟨-, -, hcount, hconcealed, -, -⟩ := d.decodeFree_spec core j
    exact ⟨_, exec_decodeComplete_over hdone, rfl, hcount.trans (congrArg Vdec.pics hvdec), hconcealed.trans (congrArg Vdec.concealed hvdec)⟩

end

theorem exec_decodeComplete_idle {s : State} {core : Nat} (hnone : (s.chip.vdec.core core).job = none) (poisoned : Bool) :
    exec (.decodeComplete core poisoned) s = .next s := by
  have hrun : decodeComplete core poisoned (s.chip, s.mem) = (s.chip, s.mem) := by
    unfold decodeComplete
    rw [hnone]
  exact exec_decodeComplete_of hrun

/-! ### Waits, skip records and samples -/

theorem exec_fieldReleaseTimeout_of {s : State} {ticket source : Nat} {d : Chip} (h : s.chip.fieldTimeout ticket source = d) :
    exec (.fieldReleaseTimeout ticket source) s = .next (Safety.upToDate ticket { s with chip := d }) := by
  rw [exec_fieldReleaseTimeout]
  unfold execFieldReleaseTimeout
  rw [h]
  rfl

theorem exec_waitTimeout_of {s : State} {ticket source stage : Nat} {d : Chip × Mem} (h : waitTimeout ticket source stage (s.chip, s.mem) = d) :
    exec (.waitTimeout ticket source stage) s = .next { s with chip := d.1, mem := d.2 } := by
  rw [exec_waitTimeout]
  unfold execWaitTimeout
  rw [h]

/-- The end of a guaranteed ticket's wait counts from the stage's own input. -/
theorem Chip.due_of_guaranteed {c : Chip} {t : Ticket} {p : Placed} {f : FrameRt} {due a : Nat} (hdue : c.waitDue t p f = some due) (hg : t.guaranteed = true)
    (ha : c.inputAt t p f = some a) : due = a + nsTicks (max (8 * p.eNs) p.dNs) + usTicks 100 := by
  unfold Chip.waitDue at hdue
  rw [if_pos hg, ha] at hdue
  exact (Option.some.inj hdue).symm

theorem exec_skipRecord_absent {s : State} {ticket : Nat} (h : s.chip.ticket? ticket = none) : exec (.skipRecordCommit ticket) s = .next s := by
  rw [exec_skipRecordCommit]
  unfold execSkipRecordCommit
  rw [h]

theorem Chip.sampleDropped_absent {c : Chip} {ticket : Nat} (h : c.ticket? ticket = none) (sample : Nat) : c.sampleDropped ticket sample = c := by
  unfold Chip.sampleDropped
  rw [h]

theorem Chip.startSample_absent {c : Chip} {ticket : Nat} (h : c.ticket? ticket = none) (m : Mem) : c.startSample m ticket = c := by
  unfold Chip.startSample
  rw [h]

/-! ### The obligation -/

/-- Settles O53: each end, wait and drop by what its step does to the picture, the frame or the record it is about. -/
theorem picturesWaitsAndSamplesEnd : Obligations.PicturesWaitsAndSamplesEnd := by
  unfold Obligations.PicturesWaitsAndSamplesEnd
  refine ⟨fun s core poisoned => ⟨fun h => exec_decodeComplete_idle h poisoned, fun j hjob h => exec_decodeComplete_lane hjob h, fun j hjob hlive hlast hgood => ?chunks,
    fun j k sd p f hjob hlive hsub hk hsd hp hf => ⟨?good, ?poisoned⟩, fun j k sd x hjob hlive hsub hk hsd hx hlast hgood hgo => ?sample⟩,
    fun s ticket source => ⟨fun hnone => ?noField, fun k sd p f hk hsd hp hf => ⟨fun h => ?fieldIdle, fun since hsince hdecoding hwaits => ?fieldGone⟩⟩,
    fun s ticket source stage => ⟨fun hnone => ?noWait, fun k p f hk hp hf => ⟨fun h => ?waitIdle, fun due hdue hdone hlost => ?waitGone⟩⟩,
    fun s ticket => ⟨fun hnone => ?noSkip, fun k hk => ⟨fun h => exec_skipRecord_of_none hk (commitSkip_none h),
      fun x l dest arg h hto => exec_skipRecord_round hk h hto, fun x l h hsent hto => exec_skipRecord_host hk h hsent hto⟩⟩,
    fun s ticket sample => ⟨fun hnone => ?noSample, fun k x hk hx => ?dropped⟩⟩
  case chunks =>
    intro d
    obtain ⟨⟨l, q, hd⟩, hcharged⟩ := s.chip.decTraffic_frame core j
    refine ⟨⟨by rw [show d = _ from hd], hcharged⟩, fun hwait => ?_⟩
    rw [hgood]
    exact exec_decodeComplete_chunks hjob hlive hlast hwait
  case good =>
    intro hgood hlast hgo
    rw [hgood]
    exact ⟨exec_decodeComplete_waits hjob hlive hsub hk hsd hp hf hlast hgo, exec_decodeComplete_stands hjob hlive hsub hk hsd hp hf hlast hgo⟩
  case poisoned =>
    intro hbad
    rw [hbad]
    exact exec_decodeComplete_poisoned hjob hlive hsub hk hsd hp hf
  case sample =>
    rw [hgood]
    exact exec_decodeComplete_sample hjob hlive hsub hk hsd hx hlast hgo
  case noField =>
    refine exec_fieldReleaseTimeout_of ?_
    unfold Chip.fieldTimeout
    rw [hnone]
  case fieldIdle => exact exec_fieldReleaseTimeout_of (Chip.fieldTimeout_idle hk hsd hp hf h)
  case fieldGone =>
    obtain ⟨⟨a, v, q, hframe⟩, y, hticket, hlost, houts⟩ := Chip.fieldsGone_spec hk hf p since
    have hrun : s.chip.fieldTimeout ticket source = s.chip.fieldsGone ticket source k p f since := by
      refine (Chip.fieldTimeout_eq hk hsd hp hf).trans ?_
      rw [hsince]
      exact if_pos (by rw [hdecoding, hwaits]; rfl)
    refine ⟨_, exec_fieldReleaseTimeout_of hrun, ?_, ?_, ?_, fun w hw => ?_⟩
    · dsimp only
      rw [hframe]
    · dsimp only
      rw [hframe]
    · dsimp only
      rw [hticket, Option.bind_some, hlost]
      exact congrArg some (Prod.ext rfl (Prod.ext hdecoding (k.contains_erase_lost p.stage f)))
    · obtain rfl := Option.some.inj (hticket.symm.trans hw)
      exact houts
  case noWait =>
    refine exec_waitTimeout_of (d := (s.chip, s.mem)) ?_
    unfold waitTimeout
    dsimp only
    rw [hnone]
  case waitIdle => exact exec_waitTimeout_of (waitTimeout_idle (c := (s.chip, s.mem)) hk hp hf h)
  case waitGone =>
    obtain ⟨⟨a, v, q, l, e, hframe⟩, w, y, hticket, hframe?, hlost', houts⟩ := Chip.waitGone_spec hk hf stage p due
    have hrun := waitTimeout_eq (c := (s.chip, s.mem)) hk hp hf
    dsimp only at hrun
    rw [hdue] at hrun
    have hgone := hrun.trans (if_neg (by rw [hdone, hlost]; decide))
    generalize hat : (s.chip.advance due).stageEngine k p source = at_ at hgone
    refine ⟨{ s with chip := s.chip.waitGone ticket source stage k p f due }, at_, (exec_waitTimeout_of hgone).trans ?_, ?_,
      fun hg a ha => Chip.due_of_guaranteed hdue hg ha, hat.symm.trans ?_, ?_, ?_, fun x hx => ?_⟩
    · rcases at_ with _ | ⟨e, _ | _⟩ <;> rfl
    · dsimp only
      rw [hframe]
    · dsimp only
      rw [hframe]
      rfl
    · dsimp only
      rw [hframe]
    · dsimp only
      rw [hticket, Option.bind_some, hframe?, Option.map_some, hlost']
    · obtain rfl := Option.some.inj (hticket.symm.trans hx)
      exact houts
  case noSkip => exact exec_skipRecord_absent hnone
  case noSample =>
    rw [exec_sampleDropped]
    unfold execSampleDropped
    rw [Chip.sampleDropped_absent hnone, Chip.startSample_absent hnone]
  case dropped =>
    obtain ⟨⟨a, q, v, hframe⟩, hticket, hready, hcores⟩ := Chip.sampleDropped_spec hk hx
    refine ⟨{ s with chip := s.chip.sampleDropped ticket sample }, rfl, ?_, hticket, hready, hcores⟩
    dsimp only
    rw [hframe]

end Sys2Proof.Machine
end
